-- ==== Sys2Proof/Word.lean ====
section
/-! DEFINITION. The word types of the block and their plainest arithmetic. -/
namespace Sys2Proof

/-- A byte of a frame, a memory or an OCTET object. -/
abbrev Byte := BitVec 8

/-- A binary64 pattern, held as the number its 64 bits spell. -/
abbrev F64 := Nat

end Sys2Proof
end

