-- ==== Sys2Proof/Machine/Frames.lean ====
section
/-! DEFINITION. The payloads that frames, datagrams and serial symbols carry, as data: Tables 2.1 to 2.10, 3.2, 3.3, 5.3, 5.7, 6.2 to 6.8, 7.6 to 7.10, 10.3, 10.4, 10.7, 14.5 to 14.7. -/
namespace Sys2Proof.Machine

/-- The straps as sampled (R13, R388): ROLE, HOSTEN, SIDE, BOOTSEL, TEST_EN. -/
structure Straps where
  node : Bool
  hosten : Bool
  sideB : Bool
  bootsel : Bool
  testEn : Bool
deriving DecidableEq, Repr

/-- The header of Table 5.3, HCRC apart. -/
structure Hdr where
  cls : Nat
  hop : Bool
  typ : Nat
  dst : Nat
  src : Nat
  dstSide : Bool
  srcSide : Bool
  relayed : Bool
  dstNode : Bool
  srcNode : Bool
  bcast : Bool
  seq : Nat
deriving DecidableEq, Repr

/-- Table 3.2, the CELL_STATUS block. Temperatures are 16-bit patterns. -/
structure CellStatus where
  tDie : Nat
  tBoard : Nat
  vAux : Nat
  lateCount : Nat
  faults : Nat
  tc : Nat
  ov1 : Nat
  dsat : Nat
  coil : Bool
  aux1 : Bool
  aux2 : Bool
  u0 : Bool
  u1 : Bool
  onB : Bool
deriving DecidableEq, Repr

/-- Table 2.4, the report. -/
structure Report where
  period : Nat
  vKey : Nat
  vChk : Nat
  avail : Bool
  maskOk : Bool
  fb : Bool
  insPrev : Nat
  carvePrev : Bool
  shortfall : Bool
  latePrev : Bool
  w : Int
  cellState : Nat
  swHi : Nat
  cellIndex : Nat
  claimSeen : Nat
  status : CellStatus
deriving DecidableEq, Repr

/-- Table 2.2, a reference entry; dir 0 HOLD, 1 CHARGE, 2 DISCHARGE, 3 reserved; m is the signed 40-bit M. -/
structure RefEntry where
  arm : Nat
  dir : Nat
  binValid : Bool
  binShift : Nat
  stick : Nat
  m : Int
  binBase : Nat
  wearRef : Nat
  wearGain : Nat
deriving DecidableEq, Repr

/-- Table 2.1, the reference frame. -/
structure Reference where
  period : Nat
  entries : List RefEntry
deriving DecidableEq, Repr

/-- Table 2.6 with Table 3.3, the command frame; exec in whole nanoseconds of valve time; orders are the 16 bytes ORD. -/
structure Command where
  period : Nat
  exec : Nat
  dir : Nat
  pol : Bool
  carveEn : Bool
  sat : Bool
  stick : Nat
  kTh : Nat
  kCarve : Nat
  tCarve : Nat
  exclude : Nat
  slalomNext : Nat
  wearRef : Nat
  wearGain : Nat
  claim : Nat
  originNode : Nat
  originLink : Nat
  deblock : Bool
  orders : List Nat
deriving DecidableEq, Repr

/-- The counts of one arm in a summary (Tables 2.9 and 2.10). -/
structure ArmSum where
  arm : Nat
  sat : Bool
  part : Bool
  nAv : Nat
  nFb : Nat
  nIns : Nat
  nInsNeg : Nat
  vSum : Nat
deriving DecidableEq, Repr

/-- Table 2.9, the GROUP summary beside its counts. -/
structure GroupSum where
  a : ArmSum
  hpol : Bool
  hinc : Bool
  binBase : Nat
  binShift : Nat
  swSum : Nat
  swMin : Nat
  swMax : Nat
  histC : List Nat
  histD : List Nat
  histH : List Nat
deriving DecidableEq, Repr

/-- A summary frame, GROUP or ARMS kind (R65). -/
inductive Summary where
  | group (period : Nat) (g : GroupSum)
  | arms (period : Nat) (l : List ArmSum)
deriving DecidableEq, Repr

/-- Table 6.2, SYNC; vt in units of 2^-16 ns. -/
structure Sync where
  vt : Nat
  steps : Nat
  valid : Bool
  lineageB : Bool
deriving DecidableEq, Repr

/-- Table 6.3, PDELAY_RESP; t2 and turn in 1/32 tick. -/
structure PdResp where
  reqSeq : Nat
  t2 : Nat
  turn : Nat
deriving DecidableEq, Repr

/-- Table 6.6, the period parameters; pEff in nanoseconds of valve time. -/
structure ParamSet where
  kEff : Nat
  pEff : Nat
  g : Nat
  t : Nat
  l : Nat
  lawStart : Nat
  slalom : Nat
  deblock : Nat
  pseq : Nat
deriving DecidableEq, Repr

/-- Table 6.8, the station-time mapping; vM and sM in nanoseconds; rho in 2^-40. -/
structure Station where
  vM : Nat
  sM : Nat
  rho : Int
  quality : Nat
  utc : Int
deriving DecidableEq, Repr

/-- Table 10.3, an event; instant in units of 2^-16 ns. -/
structure Event where
  origin : Nat
  oflags : Nat
  kind : Nat
  source : Nat
  cls : Nat
  instant : Nat
  count : Nat
  data : Nat
  eseq : Nat
deriving DecidableEq, Repr

/-- Table 10.4, an EVENTS frame. -/
structure Events where
  fseq : Nat
  entries : List Event
deriving DecidableEq, Repr

/-- Table 10.7, SAFE_STATUS. -/
structure SafeStatus where
  sseq : Nat
  state : Nat
  blockHeld : Bool
  urgentHeld : Bool
  check : Nat
  fnState : Nat
  degLeft : Nat
deriving DecidableEq, Repr

/-- Table 5.7, a ladder frame; msg 1 CAP, 2 RATE_GO, 3 LOCKED, 4 RESULT, 5 RETRAIN, 6 LOOP_REQ, 7 LOOP_ACK, 8 LOOP_NAK. -/
structure Ladder where
  msg : Nat
  ver : Nat
  roleNode : Bool
  sideB : Bool
  restore : Bool
  lane : Nat
  rateMax : Nat
  target : Nat
  partnerOk : Bool
  refReady : Bool
  pass : Bool
  rate : Nat
  errors : Nat
  node : Nat
  serial : Nat
deriving DecidableEq, Repr

/-- Table 14.5, OBJ_REQ and OBJ_RESP. -/
structure ObjMsg where
  reqId : Nat
  op : Nat
  status : Nat
  index : Nat
  sub : Nat
  count : Nat
  tryN : Nat
  proxy : Bool
  commission : Bool
  tgt : Nat
  data : List Nat
deriving DecidableEq, Repr

/-- One entry of a LANE report (Table 14.6); dIn and dOut in picoseconds as 32-bit patterns. -/
structure LaneEntry where
  lane : Nat
  rate : Nat
  cells : Nat
  kind : Nat
  dIn : Nat
  dOut : Nat
deriving DecidableEq, Repr

/-- Table 14.6, a REPORT. -/
inductive NodeReport where
  | lanes (l : List LaneEntry)
  | wiring (diff : Nat)
  | safState (state : Nat) (checkDiffers : Bool) (stored : Nat)
  | release (rseq : Nat)
deriving DecidableEq, Repr

/-- Table 14.7, a BULK frame; typ 0 READ_REQ, 1 DATA, 2 ACK, 3 END. -/
structure Bulk where
  typ : Nat
  xfer : Nat
  status : Nat
  region : Nat
  offset : Nat
  len : Nat
  ranges : List (Nat × Nat)
  data : List Nat
deriving DecidableEq, Repr

/-- What every IEEE 1588 message carries with it to a host port: the port, EtherType, destination address and VLAN tag it came with, domainNumber, sourcePortIdentity, sequenceId, and the fraction of a tick of its receive stamp (R176, R192). -/
structure PtpHdr where
  port : Nat
  etype : Nat
  mac : Nat
  vlan : Option Nat
  domain : Nat
  ident : Nat
  seq : Nat
  frac : Nat
deriving DecidableEq, Repr

/-- The fields of an Announce that the default best master clock algorithm and the timescale read: grandmaster priority1, clockClass, clockAccuracy, offsetScaledLogVariance, priority2 and identity, stepsRemoved, currentUtcOffset and its validity (R192). -/
structure Announce where
  prio1 : Nat
  cls : Nat
  accuracy : Nat
  variance : Nat
  prio2 : Nat
  gm : Nat
  steps : Nat
  utc : Int
  utcValid : Bool
deriving DecidableEq, Repr

/-- Table 7.6, DIGEST. -/
structure Digest where
  period : Nat
  claim : Nat
  state : Nat
  abandoned : Bool
  ownInputs : Bool
  inDisc : Bool
  checking : Bool
  verdict : Nat
  primaryB : Bool
  inStep : Bool
  dOut : Nat
  dSum : Nat
  dLaw : Nat
  dRefIn : Nat
  misses : Nat
  bankCrc : Nat
  caddyCrc : Nat
  caddyPeriod : Nat
  checkEnd : Nat
deriving DecidableEq, Repr

/-- Table 7.7, INPUTS: consecutive law inputs from first; a word is [16] SOURCE_BAD, [15:0] raw code. -/
structure Inputs where
  period : Nat
  first : Nat
  words : List Nat
deriving DecidableEq, Repr

/-- Table 7.7, CADDY: bytes of the image of a period from byte offset first. -/
structure CaddyPart where
  period : Nat
  first : Nat
  bytes : List Nat
deriving DecidableEq, Repr

/-- Table 9.4, XTRIG; instant in units of 2^-16 ns. -/
structure Xtrig where
  instant : Nat
  node : Nat
  sideB : Bool
  source : Nat
  seq : Nat
deriving DecidableEq, Repr

/-- Table 7.10, WIRING: kind 0 none, 1 piste, 2 group; detail the piste length or the child's node number. -/
structure Wiring where
  node : Nat
  level : Nat
  kinds : List Nat
  details : List Nat
deriving DecidableEq, Repr

/-- A piste found on a downlink: length by hop counts, or the cells reached from this end where not whole; the cells its leaf node has indexed on it; the leaf node's commissioned length, which its cells take from it (R16, R17). -/
structure FoundPiste where
  link : Nat
  len : Nat
  whole : Bool
  cells : Nat
  cfg : Nat
deriving DecidableEq, Repr

/-- A node found by enumeration; parent is an entry of the same list, entry 0 the apex; link and link1 are the parent's downlinks of U0 and U1; num is the number that the apex already holds for its position, as it reaches the other devices (R19, R23). -/
structure FoundNode where
  num : Option Nat
  parent : Nat
  link : Nat
  link1 : Option Nat
  hosten : Bool
  pistes : List FoundPiste
deriving DecidableEq, Repr

/-- Calibration found for a physical slice together with an input path at a gain code (R227): g in 2^-24, o in 2^-8 of a code. -/
structure CalEntry where
  phys : Nat
  input : Nat
  gain : Nat
  g : Nat
  o : Int
deriving DecidableEq, Repr

/-- What a calibration found of a physical slice: whether it passed, and its codes of inputs 17 and 18 (R240). -/
structure CalCheck where
  phys : Nat
  pass : Bool
  c17 : Int
  c18 : Int
deriving DecidableEq, Repr

/-- Who asks: a host with the rights of its session, another node by an OBJ_REQ, or a core with the task that runs (fw: of the firmware image). -/
inductive Who where
  | jop (rights : Nat)
  | node (src : Nat) (side : Bool) (commission : Bool)
  | core (fw : Bool)
deriving DecidableEq, Repr

/-- Where a host's packet comes from and goes to: port, address and UDP port of the host, IPv4 address and UDP port it is sent to, VLAN tag. -/
structure HostFrom where
  port : Nat
  addr : Nat
  ip : Nat
  udp : Nat
  vlan : Option Nat
deriving DecidableEq, Repr

/-- An authenticated datagram beside OP and body (Table 14.9). -/
structure JopAuth where
  host : HostFrom
  session : Nat
  seq : Nat
  tag : Nat
deriving DecidableEq, Repr

/-- What a start finds (R385 to R390): the straps with TEST_EN, whether their windows disagreed to the end, the LPDDR4X fitted, map blocks that fail their CRC, kettle paths stuck, cores failing phase 3, failing rows and columns as (array, address), arrays with a failing spare row, a failing spare column, arrays of the code SRAM and the shared data SRAM, slices failing phase 5 as (class, physical), copies of the parameter store that fail their CRC, contact AUX1 and AUX2 levels as CEL_AUX, the AON store's check word lost, a stop of the AON oscillator, AON time, and the ends of the phases in us. -/
structure BootIn where
  straps : Straps
  unstable : Bool
  ddrMiB : Nat
  badBlocks : List Nat
  paths : List Nat
  cores : List Nat
  rows : List (Nat × Nat)
  cols : List (Nat × Nat)
  spareRows : List Nat
  spareCols : List Nat
  vital : List Nat
  slices : List (Nat × Nat)
  badCopies : List Nat
  aux : Nat
  vbatLost : Bool
  oscStop : Bool
  aonTime : Nat
  phaseUs : List Nat
deriving DecidableEq, Repr

/-- What a frame carries. -/
inductive Pay where
  | report (r : Report)
  | command (c : Command)
  | reference (r : Reference)
  | summary (s : Summary)
  | sync (s : Sync)
  | pdReq
  | pdResp (p : PdResp)
  | param (p : ParamSet)
  | station (s : Station)
  | digest (d : Digest)
  | inputs (i : Inputs)
  | caddy (c : CaddyPart)
  | wiring (w : Wiring)
  | events (e : Events)
  | safe (s : SafeStatus)
  | xtrig (x : Xtrig)
  | obj (m : ObjMsg)
  | nreport (r : NodeReport)
  | bulk (b : Bulk)
  | raw (bytes : List Nat)
deriving DecidableEq, Repr

/-- A frame of classes 1 to 7. -/
structure Frame where
  hdr : Hdr
  len : Nat
  pay : Pay
deriving DecidableEq, Repr

end Sys2Proof.Machine
end

