-- ==== Sys2Proof/Syntax.lean ====
section
/-! DEFINITION. The commands of the block: one constructor per row of spec/opcode_table.json, with the operands its rule reads from outside. -/
namespace Sys2Proof
open Sys2Proof.Machine

/-- A command (an operation of the block or an event at its boundary). -/
inductive Instr where
  /-- POWER_ON (R385). Supply rails come into range and the power monitor holds reset until every required rail has been in range for 1 ms. -/
  | powerOn
  /-- RESET_PIN (R387). RESET_N held low for 1 us or more resets the device with cause PIN. -/
  | resetPin
  /-- SUPPLY_DIP (R387). A required rail out of range for 2 us while running resets the device with cause SUPPLY_DIP; a cell goes to OFF. -/
  | supplyDip
  /-- RESET_RELEASE (R386). After the rails are held, the strap window has passed and the root PLL has locked, reset is released and TIM_COUNTER starts. -/
  | resetRelease (inp : BootIn)
  /-- BOOT_RETRY (R390). When no core passes self-test, the device repeats the start-up phases every 1 s. -/
  | bootRetry (inp : BootIn)
  /-- REFCLK_LOSS (R419). A node's REFCLK stops and the root PLL holds its last frequency without reset. -/
  | refclkLoss
  /-- REFCLK_RETURN (R419). REFCLK returns and the PLL relocks, slewing at no more than 1 ppm per us. -/
  | refclkReturn
  /-- ENUMERATION (R23). Enumeration assigns node numbers, cell indices and levels, and refuses mixed, too deep or too many devices. -/
  | enumeration (nodes : List FoundNode) (self : Nat) (link : Nat)
  /-- TIM_PERIOD_WRITE (R29). A write of TIM_PERIOD at the apex is checked and distributed to take effect at a later P-mark. -/
  | timPeriodWrite (v : Nat)
  /-- TIM_APPLY_LAG_WRITE (R39). A write of TIM_APPLY_LAG at the apex is checked against TIM_LAG_MIN and 4 x T and distributed. -/
  | timApplyLagWrite (v : Nat)
  /-- TIM_CMD_GUARD_WRITE (R29). A write of TIM_CMD_GUARD at the apex is accepted only when no arm is deblocked and is distributed. -/
  | timCmdGuardWrite (v : Nat)
  /-- TIM_LAW_START_WRITE (R33). A write of TIM_LAW_START at the apex is checked against t_in and distributed. -/
  | timLawStartWrite (v : Nat)
  /-- BAL_SLALOM_SEED_WRITE (R50). A write of the slalom seed at the apex is distributed to become the LFSR state at K_EFF. -/
  | balSlalomSeedWrite (v : Nat)
  /-- P_MARK (R27). A P-mark begins period k, latching samples and stepping the period state. -/
  | pMark
  /-- CELL_REPORT_LAUNCH (R51). A cell sends its report frame on U0 and U1 at P(k) + 250 ns. -/
  | cellReportLaunch
  /-- REPORT_RX (R52). A leaf node receives a report and decides whether to count the cell. -/
  | reportRx (crcOk : Bool) (link : Nat) (h : Hdr) (r : Report)
  /-- REPORT_CLOSE (R56). The report deadline of a slot passes and report close is reached. -/
  | reportClose (slot : Nat)
  /-- REFERENCE_RX (R43). A node receives a reference frame and takes its arm entries. -/
  | referenceRx (crcOk : Bool) (lane : Nat) (r : Reference)
  /-- COMMAND_LAUNCH (R57). A leaf node launches command frames on every downlink of the slot at the fixed launch instant. -/
  | commandLaunch (slot : Nat) (vote : Nat)
  /-- APPORTION_LAUNCH (R57). An interior node launches its apportioned or forwarded entries at t_ref + 300 ns. -/
  | apportionLaunch
  /-- SUMMARY_LAUNCH (R32). A node sends its group summary on its uplinks 100 ns after its last awaited input. -/
  | summaryLaunch (vote : Nat)
  /-- SUMMARY_RX (R65). A node receives a group summary frame. -/
  | summaryRx (crcOk : Bool) (link : Nat) (y : Summary)
  /-- GROUP_SUMMARY_DEADLINE (R70). A group summary not complete by its deadline is treated as missing. -/
  | groupSummaryDeadline (link : Nat)
  /-- NODE_PERIOD_ABANDON (R35). A node that cannot reach its farthest cell in time abandons the period. -/
  | nodePeriodAbandon
  /-- COMMAND_RX (R85). A cell receives a command frame and checks it for acceptance. -/
  | commandRx (crcOk : Bool) (streamB : Bool) (c : Command)
  /-- ACCEPTANCE_INSTANT (R34). At E(k) - G a cell without an accepted command counts a late period. -/
  | acceptanceInstant (k : Nat)
  /-- COMMAND_EXECUTE (R63). At the execute time the cell changes its terminal state to its decision. -/
  | commandExecute
  /-- CARVE_END (R63). At E(k) + T_CARVE a carving cell changes to bypass. -/
  | carveEnd
  /-- GATE_EDGE (R90). A scheduled gate output edge falls due with its trim and dead time. -/
  | gateEdge
  /-- CEL_ORDER (R88). A write of CEL_ORDER queues a tagged order for a cell in the next command frames. -/
  | celOrder (v : Nat)
  /-- CEL_CLEAR (R88). A write of 1 to CEL_CLEAR clears latched cell faults whose cause has gone. -/
  | celClear
  /-- CEL_ARM_DEBLOCK (R87). A write of the arm deblock mask at the apex is checked and distributed. -/
  | celArmDeblock (v : Nat)
  /-- HOUSEKEEPING_SAMPLE (R82). Every 1 ms the cell samples board temperature, V_AUX and die temperature. -/
  | housekeepingSample (tDie : Nat) (tBoard : Nat) (vAux : Nat) (aux : Nat)
  /-- OV1_CROSSING (R94). A divider rising above CEL_OV1 forces the bypass pattern and latches OV1. -/
  | ov1Crossing
  /-- OV1_RELEASE (R94). Both dividers fall below CEL_OV1 - CEL_OV_HYST and the override ends. -/
  | ov1Release
  /-- OV2_FAULT (R95). A divider above CEL_OV2 for CEL_OV2_FILTER ticks sets OV2 and starts the bypass sequence. -/
  | ov2Fault
  /-- DSAT_FAULT (R96). A desaturation flag held low for the filter time sets its DSAT fault and drives all gates low. -/
  | dsatFault (out : Nat)
  /-- BYP_PULSE_END (R99). The coil pulse of CEL_BYP_PULSE ends. -/
  | bypPulseEnd
  /-- BYP_CONFIRM (R99). The debounced contacts confirm the bypass switch closed and the 10 ms hold begins. -/
  | bypConfirm
  /-- BYP_CONFIRM_WINDOW_END (R100). A confirmation window ends without confirmation, giving a retry or BYP_FAIL or BYP_DISAGREE. -/
  | bypConfirmWindowEnd (aux : Nat)
  /-- BYP_HOLD_END (R99). The 10 ms hold after confirmation ends and all gates go low. -/
  | bypHoldEnd
  /-- BYP_UNCMD (R101). Contacts show the switch closed outside BYPASSED, latching BYP_UNCMD and entering BYPASSED. -/
  | bypUncmd (aux : Nat)
  /-- HELD_TIMEOUT (R103). CEL_HELD_TIME elapses in HELD and the cell blocks with HELD_TIMEOUT. -/
  | heldTimeout
  /-- LAW_EVAL_START (R123). The law engine starts evaluation k at the law start instant. -/
  | lawEvalStart (fails : List Nat) (corrected : Nat) (ecc : Bool)
  /-- LAW_COMMIT (R123). Outputs, states and trace samples commit at start + w_law. -/
  | lawCommit
  /-- LAW_CMD_VALIDATE (R133). VALIDATE checks the graph and bindings and sets LAW_LOAD_STATUS. -/
  | lawCmdValidate
  /-- LAW_CMD_START (R130). START moves the engine from STOPPED to RUNNING from the next P-mark. -/
  | lawCmdStart
  /-- LAW_CMD_STOP (R130). STOP moves the engine to STOPPED from the next P-mark when allowed. -/
  | lawCmdStop
  /-- LAW_CMD_SEAL_0 (R127). SEAL_0 checks inactive bank 0, computes its CRC and seals it. -/
  | lawCmdSeal0
  /-- LAW_CMD_SEAL_1 (R127). SEAL_1 checks inactive bank 1, computes its CRC and seals it. -/
  | lawCmdSeal1
  /-- LAW_CMD_CLEAR_ERR (R117). CLEAR_ERR clears LAW_ELEM_ERR. -/
  | lawCmdClearErr
  /-- LAW_BANK_REQ (R128). A swap request to a sealed inactive bank is checked and scheduled for the next evaluation. -/
  | lawBankReq (v : Nat)
  /-- LAW_TRC_ARM (R135). ARM moves the trace unit to ARMED and restarts recording. -/
  | lawTrcArm
  /-- LAW_TRC_FORCE (R136). FORCE triggers the trace unit. -/
  | lawTrcForce
  /-- LAW_TRC_STOP (R135). STOP moves the trace unit to IDLE and keeps the samples. -/
  | lawTrcStop
  /-- LNK_ENABLE_WRITE (R140). A write of LNK_ENABLE starts a lane into L0 or powers it down. -/
  | lnkEnableWrite (n : Nat) (v : Nat)
  /-- LANE_PRESENCE_LOCK (R165). 64 consecutive valid PRESENCE with back-off over take a lane from L0 to L1. -/
  | lanePresenceLock (n : Nat) (inverted : Bool)
  /-- LANE_L0_TIMEOUT (R165). No valid PRESENCE for LNK_L0_TIMEOUT sets NO_PARTNER. -/
  | laneL0Timeout (n : Nat)
  /-- CAP_RX (R165). A CAP ladder frame arrives, giving pairing check, rate agreement and entry to L2. -/
  | capRx (n : Nat) (b : List Nat)
  /-- RATE_GO_RX (R164). A RATE_GO ladder frame carrying the agreed rate arrives. -/
  | rateGoRx (n : Nat) (b : List Nat)
  /-- LANE_L1_TIMEOUT (R165). No answered CAP within LNK_L1_TIMEOUT returns the lane to L0 with back-off. -/
  | laneL1Timeout (n : Nat)
  /-- LANE_RX_LOCK (R165). The receiver locks at the agreed rate and starts sending LOCKED. -/
  | laneRxLock (n : Nat)
  /-- LOCKED_RX (R165). A LOCKED frame received with own lock held takes the lane to L3 and PRBS. -/
  | lockedRx (n : Nat) (b : List Nat)
  /-- LANE_L2_TIMEOUT (R165). A lane not in L3 by LNK_L2_TIMEOUT fails training. -/
  | laneL2Timeout (n : Nat)
  /-- LANE_PRBS_END (R165). The L3 PRBS and error window end and the lane sends its RESULT. -/
  | lanePrbsEnd (n : Nat) (errors : Nat)
  /-- RESULT_RX (R165). A RESULT frame arrives and the lane enters L4 or fails training. -/
  | resultRx (n : Nat) (b : List Nat)
  /-- LANE_L3_NO_RESULT (R165). No partner RESULT by the L3 limit fails training. -/
  | laneL3NoResult (n : Nat)
  /-- LANE_TIME_LOCK (R182). A lane in L4 meets the time lock criterion and enters L5. -/
  | laneTimeLock (n : Nat)
  /-- LANE_L4_TIMEOUT (R165). A lane not in L5 by LNK_L4_TIMEOUT returns to L0 with back-off. -/
  | laneL4Timeout (n : Nat)
  /-- RETRAIN_RX (R166). A RETRAIN frame takes the lane to L1, clearing ceilings when RESTORE is set. -/
  | retrainRx (n : Nat) (b : List Nat)
  /-- LNK_CMD_RETRAIN (R165). RETRAIN sends RETRAIN four times and takes the lane to L1. -/
  | lnkCmdRetrain (n : Nat)
  /-- LNK_CMD_RESTORE_RATE (R166). RESTORE_RATE sends RETRAIN with RESTORE down the piste and retrains. -/
  | lnkCmdRestoreRate (n : Nat)
  /-- LNK_CMD_CLEAR_COUNTERS (R175). CLEAR_COUNTERS sets the lane's counters to 0. -/
  | lnkCmdClearCounters (n : Nat)
  /-- LANE_LOS (R168). LOS is asserted and the lane returns to L0 with back-off. -/
  | laneLos (n : Nat)
  /-- LANE_LOS_CLEAR (R168). LOS clears after 10 us of input above the threshold. -/
  | laneLosClear (n : Nat)
  /-- LANE_LOL (R168). LOL is asserted and the lane returns to L0 with back-off. -/
  | laneLol (n : Nat)
  /-- LANE_HIBER (R168). A high code error rate in a 125 us window takes the lane to L0. -/
  | laneHiber (n : Nat)
  /-- LANE_BACKOFF_END (R166). The back-off time ends and the lane sends PRESENCE with HOLDOFF 0. -/
  | laneBackoffEnd (n : Nat)
  /-- LANE_L5_STABLE (R166). 10 s continuously in L5 resets the consecutive back-off count. -/
  | laneL5Stable (n : Nat)
  /-- LOOP_NONE (R170). LNK_LOOP 0 ends a loop and returns the lane to L0 without back-off. -/
  | loopNone (n : Nat)
  /-- LOOP_NEAR_PMA (R170). LNK_LOOP NEAR_PMA loops the serial stream inside the PMA and checks the pattern. -/
  | loopNearPma (n : Nat)
  /-- LOOP_NEAR_PCS (R170). LNK_LOOP NEAR_PCS loops at the PCS boundary and checks the pattern. -/
  | loopNearPcs (n : Nat)
  /-- LOOP_FAR (R171). LNK_LOOP FAR sends LOOP_REQ from L5. -/
  | loopFar (n : Nat)
  /-- LOOP_REQ_RX (R171). A partner receives LOOP_REQ and answers LOOP_ACK or LOOP_NAK. -/
  | loopReqRx (n : Nat) (b : List Nat)
  /-- LOOP_ACK_RX (R171). LOOP_ACK received puts both lanes in LOOP. -/
  | loopAckRx (n : Nat) (b : List Nat)
  /-- LOOP_NAK_RX (R171). LOOP_NAK received clears LNK_LOOP and sets LOOP_REFUSED. -/
  | loopNakRx (n : Nat) (b : List Nat)
  /-- LINK_STATE_RX (R172). A LINK_STATE symbol updates reach, far length and piste position. -/
  | linkStateRx (n : Nat) (hops : Nat) (behind : Nat)
  /-- LINK_STATE_SEND (R172). An unchanged LINK_STATE is resent in an idle gap at least every 64 us. -/
  | linkStateSend (n : Nat)
  /-- LINK_STATE_TIMEOUT (R172). No LINK_STATE for 1 ms makes both values unknown. -/
  | linkStateTimeout (n : Nat)
  /-- PISTE_WHOLE (R174). A known far length held for LNK_WHOLE_HOLD makes the piste WHOLE. -/
  | pisteWhole (k : Nat)
  /-- SCHUSS_RX (R155). A schuss is accepted, forwarded and handed to the kettle. -/
  | schussRx (n : Nat) (l : List (Option (List Nat)))
  /-- SCHUSS_REPEAT (R155). The originator repeats its schuss burst every 2 us while its request holds. -/
  | schussRepeat
  /-- FRAME_RX (R150). A frame ends on a lane and is checked, counted and passed on or discarded. -/
  | frameRx (n : Nat) (prev : Nat) (line : List Nat)
  /-- FRAME_TX_END (R151). A frame transmission ends and the transmitter starts the next waiting frame or resumes one. -/
  | frameTxEnd (n : Nat)
  /-- SUSPEND_TIMEOUT (R152). A suspended frame not resumed within 64 us is discarded. -/
  | suspendTimeout (n : Nat)
  /-- PCS_PARITY_ERROR (R397). A PCS parity error takes the lane to L0 and may swap in a spare slice. -/
  | pcsParityError (n : Nat) (bad : Bool)
  /-- ROUTER_PARITY_ERROR (R397). A router slice parity error aborts frames and replaces the slice. -/
  | routerParityError (r : Nat) (lanes : List Nat)
  /-- PDELAY_REQ_SEND (R181). A lane in L4 or L5 sends PDELAY_REQ on its interval. -/
  | pdelayReqSend (n : Nat)
  /-- PDELAY_REQ_RX (R181). A lane answers a PDELAY_REQ with PDELAY_RESP. -/
  | pdelayReqRx (n : Nat) (seq : Nat) (frac : Nat) (turn : Nat)
  /-- PDELAY_RESP_RX (R181). The requester computes delay, spread and ratio from a response. -/
  | pdelayRespRx (n : Nat) (frac : Nat) (p : PdResp)
  /-- SYNC_SEND (R184). A device sends SYNC every 50 us on its downstream lanes. -/
  | syncSend
  /-- SYNC_RX (R187). A valid SYNC runs the servo and the valve-time state transitions. -/
  | syncRx (n : Nat) (frac : Nat) (y : Sync)
  /-- SYNC_TIMEOUT (R188). No valid SYNC for 200 us moves the device to HOLDOVER. -/
  | syncTimeout (lineageB : Bool)
  /-- LINEAGE_RETURN (R185). A cell returns to lineage A after 100 ms of valid A SYNCs. -/
  | lineageReturn
  /-- APEX_PEER_WAIT (R186). An apex's wait for its duplicate ends and it may become master. -/
  | apexPeerWait
  /-- PEER_SYNC_LOSS (R186). A secondary apex without peer SYNC for 200 us becomes master. -/
  | peerSyncLoss
  /-- REF_HOLDOVER_END (R189). A cell with no uplink after 1 s returns REF to the bootstrap oscillator. -/
  | refHoldoverEnd
  /-- PARAM_SEND (R191). The apex or a node sends a PARAM frame on change, per period or every 1 ms. -/
  | paramSend
  /-- PARAM_RX (R191). A device receives a PARAM frame and holds it as a pending or current set. -/
  | paramRx (n : Nat) (p : ParamSet)
  /-- STATION_SEND (R195). A node sends STATION mapping frames to its children every 1 ms. -/
  | stationSend
  /-- STATION_RX (R195). A node stores a received station-time mapping. -/
  | stationRx (m : Station)
  /-- STATION_STALE (R194). No STATION frame for 10 ms sets STALE. -/
  | stationStale
  /-- PTP_SYNC_RX (R193). A Sync from the selected master runs the station-time servo and state table. -/
  | ptpSyncRx (h : PtpHdr) (twoStep : Bool) (origin : Nat) (corr : Int)
  /-- PTP_FOLLOW_UP_RX (R192). A two-step Follow_Up completes a Sync's origin timestamp. -/
  | ptpFollowUpRx (h : PtpHdr) (origin : Nat) (corr : Int)
  /-- PTP_ANNOUNCE_RX (R192). An Announce feeds the best master clock algorithm. -/
  | ptpAnnounceRx (h : PtpHdr) (a : Announce)
  /-- PTP_PDELAY_REQ_SEND (R192). Each port sends one peer delay request per second. -/
  | ptpPdelayReqSend (port : Nat)
  /-- PTP_PDELAY_REQ_RX (R192). The apex answers Pdelay_Req with Pdelay_Resp and Follow_Up. -/
  | ptpPdelayReqRx (h : PtpHdr)
  /-- PTP_PDELAY_RESP_RX (R192). A peer delay response updates the port's peer delay. -/
  | ptpPdelayRespRx (h : PtpHdr) (t2 : Nat) (t3 : Nat) (corr : Int)
  /-- PTP_ANNOUNCE_TIMEOUT (R193). No qualified master for the receipt timeout moves station time to HOLDOVER. -/
  | ptpAnnounceTimeout
  /-- ST_SLEW_END (R193). The planned station-time slew ends and the state returns to LOCKED. -/
  | stSlewEnd
  /-- ST_HOLD_LIMIT (R193). HOLDOVER beyond TIM_ST_HOLD_LIMIT sets HOLD_EXPIRED. -/
  | stHoldLimit
  /-- SYNTONISE (R197). Once per second the master apex steers its valve rate toward station rate. -/
  | syntonise
  /-- ALLOW_STEP (R193). TIM_ST_CMD ALLOW_STEP arms a step at the next confirmed jump. -/
  | stAllowStep
  /-- RESTART (R193). TIM_ST_CMD RESTART returns station time to FREERUN. -/
  | stRestart
  /-- SET_LOCKED (R193). TIM_ST_CMD SET_LOCKED marks station time LOCKED in INCREMENT mode. -/
  | stSetLocked
  /-- CLEAR_LOCKED (R193). TIM_ST_CMD CLEAR_LOCKED clears the LOCKED state in INCREMENT mode. -/
  | stClearLocked
  /-- TIM_ST_ADJUST (R193). A write steps station time by the signed amount in INCREMENT mode. -/
  | timStAdjust (v : Int)
  /-- TIM_ST_INC (R193). A write sets the station increment in INCREMENT mode. -/
  | timStInc (v : Nat)
  /-- TIM_ASYM (R182). A write of a lane's asymmetry changes d_in and d_out and is reported to the apex. -/
  | timAsym (n : Nat) (v : Int)
  /-- RED_CMD_RETURN (R203). RETURN moves a node in RETURNING to SERVICE when in step. -/
  | redCmdReturn
  /-- RED_CMD_RESTORE (R203). RESTORE moves a node in OUT to STARTING. -/
  | redCmdRestore
  /-- RED_CMD_DEMOTE (R203). DEMOTE moves a node in SERVICE to DEMOTED. -/
  | redCmdDemote
  /-- RED_CMD_CLEAR_COUNTERS (R222). CLEAR_COUNTERS sets the duplication counters to 0. -/
  | redCmdClearCounters
  /-- CLAIM_NOTICE_SEND (R202). A node sends its claim notice to each child at a change and every 1 ms. -/
  | claimNoticeSend
  /-- RED_PARENT_CLAIM (R202). A child accepts its parent's claim and K_X from the parent only. -/
  | redParentClaim (src : Nat) (srcSide : Bool) (claim : Nat) (kx : Nat)
  /-- NOTICE_TIMEOUT (R202). No parent notice for 10 ms sets parent base 0x2 and health 0. -/
  | noticeTimeout
  /-- HEALTH_UPDATE (R201). The published health changes at most once per 1 ms. -/
  | healthUpdate
  /-- REVERT_HOLD_EXPIRY (R203). The revert hold elapses in RETURNING. -/
  | revertHoldExpiry
  /-- DIGEST_LAUNCH (R210). A node launches the DIGEST of period k after its outputs, at the latest at E(k) - G. -/
  | digestLaunch
  /-- DIGEST_RX (R209). A node receives its duplicate's DIGEST and compares the period. -/
  | digestRx (d : Digest)
  /-- DIGEST_DEADLINE (R210). A DIGEST not received by E(k+1) is counted missing. -/
  | digestDeadline
  /-- CHECK_WINDOW_END (R213). The check window's periods complete and the verdict is set. -/
  | checkWindowEnd
  /-- CHECK_VERDICT_TIMEOUT (R214). Without a duplicate verdict by E(CHECK_END + 1) a side decides alone. -/
  | checkVerdictTimeout
  /-- INPUTS_SEND (R211). The leader sends INPUTS frames once its ADC inputs of the period are complete. -/
  | inputsSend
  /-- INPUTS_RX (R211). The follower receives the leader's raw inputs. -/
  | inputsRx (p : Inputs)
  /-- CADDY_SEND (R217). The leader sends its caddy image after its DIGEST. -/
  | caddySend
  /-- CADDY_RX (R217). The follower receives caddy fragments and compares the image CRC when complete. -/
  | caddyRx (c : CaddyPart)
  /-- RED_CADDY_LIST (R216). A write to the caddy list is checked and sets RED_CADDY_STATUS. -/
  | redCaddyList (n : Nat) (v : Nat)
  /-- WIRING_SEND (R220). A node sends its WIRING record at enumeration and every 100 ms. -/
  | wiringSend
  /-- WIRING_RX (R220). A node compares its duplicate's WIRING record and reports differences. -/
  | wiringRx (w : Wiring)
  /-- ADC_CONVERSION_END (R224). A slice conversion completes and its result is written. -/
  | adcConversionEnd (slice : Nat) (cs : List Int) (shadow : List Int) (sat : Bool)
  /-- ADC_RUN_END (R229). A sequencer run ends, starting a pending, continuous or chained run. -/
  | adcRunEnd (q : Nat)
  /-- ADC_SEQ_TIMER (R229). A TIMER sequencer starts a run at a multiple of ADC_SEQ_TIMER. -/
  | adcSeqTimer (q : Nat)
  /-- ADC_SEQ_START (R229). ADC_SEQ_CMD START starts a run of a SOFTWARE sequencer. -/
  | adcSeqStart (q : Nat)
  /-- ADC_SEQ_STOP (R229). ADC_SEQ_CMD STOP ends the run in progress after its current conversion. -/
  | adcSeqStop (q : Nat)
  /-- ADC_SEQ_TRIG (R229). A write of the trigger kind changes how runs start. -/
  | adcSeqTrig (q : Nat) (v : Nat)
  /-- ADC_HOLD_RESERVE (R232). From P(k) - 100 ns, slices needed by held rounds start no other conversion. -/
  | adcHoldReserve
  /-- ADC_HOLD_ROUND (R232). A round of held entries starts on the reserved slices. -/
  | adcHoldRound
  /-- ADC_PRIO_REQ (R233). A priority request converts once on an idle slice or is dropped. -/
  | adcPrioReq (v : Nat)
  /-- ADC_INPUT_CHANGE (R234). A change of gain or filter takes effect and opens a settling interval. -/
  | adcInputChange (n : Nat)
  /-- ADC_SETTLING_END (R234). The settling interval after an input change ends. -/
  | adcSettlingEnd (n : Nat)
  /-- ADC_PAIR_WRITE (R236). A write turns an interleaved pair on or off. -/
  | adcPairWrite (p : Nat) (v : Nat)
  /-- OPEN_WIRE_TEST_START (R237). An open-wire test switches on its current at the interval. -/
  | openWireTestStart (n : Nat)
  /-- OPEN_WIRE_TEST_CONVERT (R237). After 20 us the test conversion starts and the current is switched off. -/
  | openWireTestConvert (n : Nat)
  /-- COMPARATOR_TRIP (R239). An input beyond a comparator threshold for the filter time trips. -/
  | comparatorTrip (n : Nat) (code : Int) (stood : Nat)
  /-- ADC_CALIBRATION_END (R240). Calibration completes, mapping out failing slices and setting READY. -/
  | adcCalibrationEnd (l : List CalEntry) (checks : List CalCheck)
  /-- ADC_CMD_CALIBRATE (R240). CALIBRATE repeats the calibration. -/
  | adcCmdCalibrate
  /-- ADC_CMD_CLEAR_COUNTERS (R245). CLEAR_COUNTERS sets the analogue counters to 0. -/
  | adcCmdClearCounters
  /-- ADC_SWAP_DUE (R242). A logical slice's conversion count reaches 65,536 and a swap falls due. -/
  | adcSwapDue (l : Nat)
  /-- ADC_SLICE_RECAL_END (R242). A retired slice finishes its 1.2 ms calibration and becomes the spare. -/
  | adcSliceRecalEnd (l : List CalEntry) (check : CalCheck)
  /-- ACQ_CMD_ARM (R255). ARM takes a slot and starts a record. -/
  | acqCmdArm
  /-- ACQ_CMD_STOP (R255). STOP ends recording, freeing or truncating the slot. -/
  | acqCmdStop
  /-- ACQ_CMD_FORCE (R257). FORCE triggers the recorder at the next row. -/
  | acqCmdForce
  /-- ACQ_CMD_CLEAR_COUNTERS (R266). CLEAR_COUNTERS sets the recorder counters to 0. -/
  | acqCmdClearCounters
  /-- ACQ_ROW (R250). A row instant stores one row and steps the recorder states. -/
  | acqRow
  /-- PATTERN_TRIGGER (R260). A digital sample matching the pattern fires the pattern trigger. -/
  | patternTrigger
  /-- XTRIG_RX (R262). A node receives an XTRIG and marks its instant as a CROSS trigger. -/
  | xtrigRx (n : Nat) (x : Xtrig)
  /-- XTRIG_INSTANT_DUE (R262). A held future cross-tree instant is reached and triggers. -/
  | xtrigInstantDue
  /-- ACQ_REC_LOCK (R253). A write locks a DONE slot. -/
  | acqRecLock (v : Nat)
  /-- ACQ_REC_RELEASE (R253). A write frees a DONE or LOCKED slot. -/
  | acqRecRelease (v : Nat)
  /-- ACQ_MEM_WRITE (R252). A write of the record memory, area or slot count frees every slot. -/
  | acqMemWrite (item : Nat) (v : Nat)
  /-- DDR_OUT_OF_SERVICE (R254). The LPDDR4X leaves service, truncating a record and raising the capture source. -/
  | ddrOutOfService
  /-- KETTLE_SOURCE_RISE (R269). A source's LIVE rises, latching it and starting its reactions. -/
  | kettleSourceRise (n : Nat) (data : Nat)
  /-- KETTLE_SOURCE_FALL (R269). A source's LIVE falls, ending DEGRADE and queueing a FALL. -/
  | kettleSourceFall (n : Nat)
  /-- KETTLE_BROKEN_PATH (R268). A dual-rail code held broken for 4 cycles is treated as a fault. -/
  | kettleBrokenPath (n : Nat) (on : Bool)
  /-- KETTLE_ESCALATE_TIME (R274). A source LIVE for KET_ESC_TIME escalates. -/
  | kettleEscalateTime (n : Nat)
  /-- KET_CLEAR (R276). A write of KET_CLEAR clears addressed latched sources whose LIVE is 0. -/
  | ketClear (v : Nat)
  /-- KET_CMD_CLEAR_COUNTERS (R295). CLEAR_COUNTERS sets the kettle counters to 0. -/
  | ketCmdClearCounters
  /-- KETTLE_TOKEN_REFILL (R278). A source's bucket gains a token, possibly buying a SUPPRESSED event. -/
  | kettleTokenRefill (n : Nat)
  /-- EVENTS_FRAME_SEND (R280). A device drains queued events into an EVENTS frame when the gap and queue room allow. -/
  | eventsFrameSend
  /-- EVENTS_RX (R281). The apex places received event entries in its queue and checks FSEQ. -/
  | eventsRx (src : Nat) (side : Bool) (e : Events)
  /-- KET_Q_POP (R281). A write removes the oldest entry of the apex queue. -/
  | ketQPop (v : Nat)
  /-- SAF_CHANNEL_CHANGE (R283). A safety channel changes and the function's state is evaluated. -/
  | safChannelChange
  /-- SAF_DISCREPANCY_TIME (R283). Channels differing for SAF_DISC_TIME make the function DISCREPANT. -/
  | safDiscrepancyTime (f : Nat)
  /-- COMMISSION (R294). SAF_CMD COMMISSION enters COMMISSIONING. -/
  | safCommission (right : Bool)
  /-- CONFIRM (R294). SAF_CMD CONFIRM stores the safety set when the check value matches. -/
  | safConfirm (right : Bool)
  /-- ABORT (R285). SAF_CMD ABORT reloads the safety set and leaves COMMISSIONING. -/
  | safAbort (right : Bool)
  /-- RELEASE (R290). SAF_CMD RELEASE at the apex releases safe block and sends release notices. -/
  | safRelease (right : Bool)
  /-- RESET_FN (R284). SAF_CMD RESET_FN moves a function in WAIT_RESET to IDLE. -/
  | safResetFn (right : Bool) (f : Nat)
  /-- SAF_DEGRADED_EXPIRY (R291). The degraded timer reaches 0 and the node enters SAFE. -/
  | safDegradedExpiry
  /-- SAF_DEGRADED_RECOVER (R285). No degraded cause for 100 ms returns the node to RUN. -/
  | safDegradedRecover
  /-- SAFE_STATUS_SEND (R292). A node sends SAFE_STATUS on P0 and P1 every 1 ms. -/
  | safeStatusSend
  /-- SAFE_STATUS_RX (R292). A node compares its duplicate's SAFE_STATUS. -/
  | safeStatusRx (p : SafeStatus)
  /-- SAF_PEER_TIMEOUT (R291). No SAFE_STATUS for SAF_PEER_TIMEOUT makes the node DEGRADED. -/
  | safPeerTimeout
  /-- SAF_STATE_REPORT (R290). A node reports SAF_STATE to its apex at changes and every 100 ms. -/
  | safStateReport
  /-- SAF_NODE_SILENT (R290). A node not heard for 300 ms sets its bit in SAF_BLOCK_NODES. -/
  | safNodeSilent (n : Nat)
  /-- ENABLE (R301). TSK_CMD ENABLE checks a task and moves it to IDLE. -/
  | taskEnable (n : Nat)
  /-- DISABLE (R302). TSK_CMD DISABLE aborts the task and makes it DORMANT. -/
  | taskDisable (n : Nat)
  /-- SIGNAL (R303). TSK_CMD SIGNAL fires the SIGNAL event source. -/
  | taskSignal (n : Nat)
  /-- TSK_CMD_CLEAR_COUNTERS (R313). CLEAR_COUNTERS sets the dispatcher counters to 0. -/
  | tskCmdClearCounters
  /-- DONE (R310). A write of DONE ends the instance and applies its commit. -/
  | taskDone (c : Nat)
  /-- DELAY (R302). A write of DELAY makes the task wait n dispatcher ticks. -/
  | taskDelay (c : Nat) (n : Nat)
  /-- PORT_SIGNAL (R303). A write of SIGNAL at a dispatcher port releases the named task. -/
  | portSignal (c : Nat) (v : Nat)
  /-- WIN_STATUS (R298). A write of 1 clears bits of WIN_STATUS. -/
  | winStatus (c : Nat) (v : Nat)
  /-- OBJECT_WINDOW_ACCESS (R298). A core access to the object window stalls, checks and latches wide values. -/
  | objectWindowAccess (c : Nat) (a : Nat) (size : Nat) (v : Option Nat)
  /-- PERIOD_RELEASE (R303). A PERIOD task is released at its offset after a P-mark. -/
  | periodRelease (n : Nat)
  /-- DISPATCHER_TICK (R307). A dispatcher tick releases due TICK tasks and wakes DELAY waits. -/
  | dispatcherTick
  /-- TASK_DEADLINE (R308). An instance without DONE at its deadline is aborted. -/
  | taskDeadline (n : Nat)
  /-- TASK_FAULT (R299). An exception or illegal access aborts the running instance with cause FAULT. -/
  | taskFault (c : Nat) (ecc : Bool)
  /-- TSK_TICK (R307). A write of the dispatcher tick length, accepted only with every application task DORMANT. -/
  | tskTick (v : Nat)
  /-- DMA_START (R323). DMA_CMD START fetches the first descriptor of the chain. -/
  | dmaStart (c : Nat) (fw : Bool)
  /-- DMA_PAUSE (R323). PAUSE stops a running channel at the next burst boundary. -/
  | dmaPause (c : Nat) (moved : Nat) (fw : Bool)
  /-- DMA_RESUME (R323). RESUME continues a paused channel or retries a resumable error. -/
  | dmaResume (c : Nat) (fw : Bool)
  /-- DMA_SKIP (R323). SKIP fetches NEXT after an error. -/
  | dmaSkip (c : Nat) (fw : Bool)
  /-- DMA_ABORT (R323). ABORT returns a channel to IDLE. -/
  | dmaAbort (c : Nat) (moved : Nat) (fw : Bool)
  /-- DMA_GCMD_CLEAR_COUNTERS (R326). CLEAR_COUNTERS sets the data mover counters to 0. -/
  | dmaGcmdClearCounters
  /-- DMA_DESCRIPTOR_FETCH (R318). A descriptor and its pair lists are fetched and checked. -/
  | dmaDescriptorFetch (c : Nat) (ecc : Option Bool)
  /-- DMA_DESCRIPTOR_DONE (R322). A descriptor completes, with its barrier arrival, raising events and fetching NEXT. -/
  | dmaDescriptorDone (c : Nat) (ecc : Option Nat)
  /-- DMA_PD_WAIT_EXPIRY (R324). DMA_PD_WAIT expires and the channel enters ERROR with DOMAIN_OFF. -/
  | dmaPdWaitExpiry (moved : Nat)
  /-- FIO_DOWN_FRAME (R328). The die launches a down frame to the island every 2 us. -/
  | fioDownFrame
  /-- ISLAND_DOWN_FRAME_RX (R328). The island receives a down frame and takes its outputs, parameters and events. -/
  | islandDownFrameRx (w : Nat)
  /-- MAIN_FRAME_RX (R331). The die checks a MAIN up frame and takes its values. -/
  | mainFrameRx (w : Nat)
  /-- MAIN_FRAME_DEADLINE (R331). A MAIN frame not complete by S(n) + 1.56 us counts as bad. -/
  | mainFrameDeadline
  /-- FAST_FRAME_RX (R329). The die checks a FAST up frame and takes its DI field. -/
  | fastFrameRx (w : Nat)
  /-- ISLAND_SILENCE (R333). No valid down frame for FIO_SILENCE puts the island in its safe state. -/
  | islandSilence
  /-- FIELD_VL_LOW (R327). FLD_VL below 9 V holds the island in reset with outputs off. -/
  | fieldVlLow
  /-- DI_COMPARATOR_CHANGE (R334). A DI comparator changes level and restarts its strainer count. -/
  | diComparatorChange (n : Nat) (mv : Int)
  /-- STRAINER_SETTLE (R335). A level held for FIO_DI_DEBOUNCE changes the strainer output. -/
  | strainerSettle (n : Nat)
  /-- DO_SHORT (R339). An output in current limit for 100 us switches off for FIO_DO_RETRY. -/
  | doShort (n : Nat)
  /-- DO_RETRY_END (R339). The SHORT off-time ends and the output turns on again if commanded. -/
  | doRetryEnd (n : Nat)
  /-- DO_OVERTEMP (R339). A driver above its temperature limit switches off. -/
  | doOvertemp (n : Nat)
  /-- DO_OVERTEMP_COOLED (R339). A driver cooled by 15 C returns to its commanded level. -/
  | doOvertempCooled (n : Nat)
  /-- DO_OPEN (R339). Load current below 3 mA for 10 ms flags OPEN. -/
  | doOpen (n : Nat) (cond : Bool)
  /-- FIELD_SUPPLY_MEASURE (R341). The island measures L+ every 10 us. -/
  | fieldSupplyMeasure (mv : Int)
  /-- FIELD_SUPPLY_CONDITION (R341). A threshold passed for 100 us sets or clears LOW, MISSING or REVERSE. -/
  | fieldSupplyCondition
  /-- ENCODER_EDGE (R344). A filtered encoder edge counts or flags an illegal transition. -/
  | encoderEdge (e : Nat) (a : Bool) (b : Bool)
  /-- ENCODER_Z_EDGE (R345). A rising Z edge latches or homes the count. -/
  | encoderZEdge (e : Nat) (rising : Bool)
  /-- ISLAND_PMARK_LATCH (R346). The island latches both counts at the P-mark offset. -/
  | islandPmarkLatch
  /-- SSI_TRANSFER_START (R348). An SSI transfer starts after a P-mark, checking the data line. -/
  | ssiTransferStart (dat : Bool)
  /-- SSI_TRANSFER_END (R348). The SSI transfer and recovery end and the position is decoded. -/
  | ssiTransferEnd (bits : Nat) (stopErr : Bool)
  /-- PROBE_EDGE (R349). A selected probe edge latches the encoder count and its clock. -/
  | probeEdge (p : Nat) (rising : Bool)
  /-- CLEAR_FAULTS (R339). FIO_CMD CLEAR_FAULTS ends every SHORT off-time. -/
  | fioClearFaults
  /-- FIO_CMD_CLEAR_COUNTERS (R352). FIO_CMD CLEAR_COUNTERS sets the field counters to 0. -/
  | fioCmdClearCounters
  /-- CLEAR_ERR (R344). POS_CMD CLEAR_ERR clears an encoder's ERR. -/
  | posClearErr (e : Nat)
  /-- ARM_Z (R345). POS_CMD ARM_Z arms homing on the next Z edge. -/
  | posArmZ (e : Nat)
  /-- PRB_ARM (R349). POS_PRB_CMD ARM arms a SINGLE probe. -/
  | prbArm (p : Nat)
  /-- FIO_DO_PAIR (R338). A write parallels output pairs, refused when their levels would differ. -/
  | fioDoPair (v : Nat)
  /-- OBJ_REQ_READ (R357). A target executes a remote READ and returns OBJ_RESP. -/
  | objReqRead (h : Hdr) (m : ObjMsg)
  /-- OBJ_REQ_WRITE (R357). A target executes a remote WRITE, or resends a cached response. -/
  | objReqWrite (h : Hdr) (m : ObjMsg)
  /-- OBJ_REQ_NOTICE (R357). A target executes a write without response. -/
  | objReqNotice (h : Hdr) (m : ObjMsg)
  /-- OBJ_REQ_ATTEST (R383). A target builds a signed attestation report for the nonce. -/
  | objReqAttest (h : Hdr) (m : ObjMsg)
  /-- OBJ_RESP_RX (R358). A requester receives the response to its request. -/
  | objRespRx (m : ObjMsg)
  /-- REMOTE_TIMEOUT (R358). No response within TREE_REM_TIMEOUT sends a retry or ends UNREACHABLE. -/
  | remoteTimeout (id : Nat)
  /-- LANE_REPORT_SEND (R362). A node sends its LANE report at L5 entry, on delay change and every 100 ms. -/
  | laneReportSend
  /-- REPORT_LANE_RX (R362). The apex receives a node's lane delays. -/
  | reportLaneRx (node : Nat) (l : List LaneEntry)
  /-- REPORT_WIRING_RX (R362). The apex receives a node's wiring difference. -/
  | reportWiringRx (node : Nat) (diff : Nat)
  /-- REPORT_SAF_STATE_RX (R362). The apex receives a node's safety state and updates SAF_BLOCK_NODES. -/
  | reportSafStateRx (n : Nat) (state : Nat) (checkDiffers : Bool) (stored : Nat)
  /-- REPORT_RELEASE_RX (R362). A node acts on the first copy of a release notice. -/
  | reportReleaseRx (rseq : Nat)
  /-- TREE_REM_READ (R363). TREE_REM_CMD READ issues a remote read from the cores. -/
  | treeRemRead
  /-- TREE_REM_WRITE (R363). TREE_REM_CMD WRITE issues a remote write from the cores. -/
  | treeRemWrite
  /-- READ_REQ_RX (R365). A holder answers a BULK READ_REQ with DATA frames and END. -/
  | readReqRx (h : Hdr) (b : Bulk)
  /-- BULK_DATA_RX (R365). A receiver stores a BULK DATA frame. -/
  | bulkDataRx (h : Hdr) (b : Bulk)
  /-- BULK_ACK_RX (R365). A writer resends missing ranges named in an ACK. -/
  | bulkAckRx (h : Hdr) (b : Bulk)
  /-- BULK_END_RX (R365). A receiver answers END with ACK or completes a read. -/
  | bulkEndRx (h : Hdr) (b : Bulk)
  /-- ARP_RX (R367). A host port answers ARP. -/
  | arpRx (port : Nat) (ip : Nat) (vlan : Option Nat)
  /-- ICMP_ECHO_RX (R367). A host port answers ICMP echo at most 100 times per second. -/
  | icmpEchoRx (f : HostFrom) (data : List Nat)
  /-- DISCOVER (R369). JOP DISCOVER returns identity in the clear. -/
  | jopDiscover (f : HostFrom) (seq : Nat)
  /-- OPEN (R370). JOP OPEN starts a session key exchange with a signed reply. -/
  | jopOpen (f : HostFrom) (seq : Nat) (slot : Nat) (nh : List Nat) (qh : Nat) (ql : Nat)
  /-- JOP_CONFIRM (R370). JOP CONFIRM verifies the host signature and opens the session. -/
  | jopConfirm (a : JopAuth) (sigH : Nat)
  /-- CLOSE (R371). JOP CLOSE closes a session. -/
  | jopClose (a : JopAuth)
  /-- READ (R369). JOP READ reads objects of a target. -/
  | jopRead (a : JopAuth) (tgt : Nat) (index : Nat) (sub : Nat) (count : Nat)
  /-- WRITE (R369). JOP WRITE writes objects of a target. -/
  | jopWrite (a : JopAuth) (tgt : Nat) (index : Nat) (sub : Nat) (count : Nat) (data : List Nat)
  /-- EVENT_READ (R369). JOP EVENT_READ returns entries of the apex event queue. -/
  | jopEventRead (a : JopAuth) (n : Nat)
  /-- EVENT_ACK (R369). JOP EVENT_ACK removes entries when the head matches. -/
  | jopEventAck (a : JopAuth) (n : Nat) (origin : Nat) (eseq : Nat)
  /-- BULK_READ (R369). JOP BULK_READ reads a range of a bulk region. -/
  | jopBulkRead (a : JopAuth) (tgt : Nat) (region : Nat) (off : Nat) (len : Nat)
  /-- BULK_WRITE (R379). JOP BULK_WRITE writes into the image slot not running. -/
  | jopBulkWrite (a : JopAuth) (tgt : Nat) (region : Nat) (off : Nat) (data : List Nat)
  /-- CORE_MSG (R369). JOP CORE_MSG hands a message to the cores and releases event 19. -/
  | jopCoreMsg (a : JopAuth) (data : List Nat)
  /-- ATTEST (R383). JOP ATTEST returns a signed attestation report. -/
  | jopAttest (a : JopAuth) (tgt : Nat) (nonce : List Nat)
  /-- JOP_OPEN_EXPIRY (R370). An OPEN not confirmed within 1 s is discarded. -/
  | jopOpenExpiry (id : Nat)
  /-- SESSION_IDLE_TIMEOUT (R371). A session without an accepted request for SYS_SESSION_IDLE closes. -/
  | sessionIdleTimeout (id : Nat)
  /-- AUTH_RATE_END (R371). 10 s after the last over-limit second, SECURITY falls. -/
  | authRateEnd
  /-- SYS_CORE_MSG_LEN (R369). A write of 0 frees the host message slot. -/
  | sysCoreMsgLen (v : Nat)
  /-- STORE (R374). NVM_CMD STORE snapshots every RWS object into the older store copy. -/
  | nvmStore
  /-- NVM_STORE_DONE (R374). A store write completes or fails. -/
  | nvmStoreDone (good : Bool)
  /-- RESTORE_DEFAULTS (R375). NVM_CMD RESTORE_DEFAULTS invalidates both store copies. -/
  | nvmRestoreDefaults
  /-- VERIFY (R377). NVM_CMD VERIFY checks an image slot. -/
  | nvmVerify
  /-- ACTIVATE (R379). NVM_CMD ACTIVATE names a valid slot for a trial boot. -/
  | nvmActivate
  /-- COMMIT (R379). NVM_CMD COMMIT ends the trial and raises SEC_SVN_MIN. -/
  | nvmCommit
  /-- DISTRIBUTE (R380). NVM_CMD DISTRIBUTE broadcasts an image to every indexed cell below the leaf node. -/
  | nvmDistribute
  /-- SLOT_ERASE_DONE (R379). The erase of the slot not running completes. -/
  | slotEraseDone (good : Bool)
  /-- INSTALL_HOST (R373). SEC_CMD INSTALL_HOST installs the staged key in a slot. -/
  | secInstallHost (right : Bool) (slot : Nat)
  /-- REMOVE_HOST (R373). SEC_CMD REMOVE_HOST erases a host key slot. -/
  | secRemoveHost (right : Bool) (slot : Nat)
  /-- INSTALL_IMAGE_KEY (R373). SEC_CMD INSTALL_IMAGE_KEY installs the owner image key. -/
  | secInstallImageKey (right : Bool)
  /-- DISOWN (R372). SEC_CMD DISOWN erases host and image keys and makes the device UNOWNED. -/
  | secDisown (right : Bool)
  /-- SYS_CMD_RESET (R379). SYS_CMD RESET resets the device when no served arm is deblocked. -/
  | sysCmdReset
  /-- SCRUB_PASS (R394). The scrubber reads and corrects SRAM words and repairs repeating rows. -/
  | scrubPass (rows : List (Nat × Nat)) (words : List (Nat × Nat))
  /-- SHELF (R403). SYS_POWER_CMD SHELF saves counters and drives PWR_EN low. -/
  | sysShelf
  /-- DDR_OFF (R402). SYS_POWER_CMD DDR_OFF puts the LPDDR4X in self-refresh and powers the domain down. -/
  | sysDdrOff
  /-- DDR_ON (R402). SYS_POWER_CMD DDR_ON returns the DDR domain to service. -/
  | sysDdrOn
  /-- CAPTURE_OFF (R402). SYS_POWER_CMD CAPTURE_OFF powers down the capture SRAM and frees its slots. -/
  | sysCaptureOff
  /-- CAPTURE_ON (R402). SYS_POWER_CMD CAPTURE_ON returns the capture SRAM. -/
  | sysCaptureOn
  /-- WAKE (R404). WAKE_N low for 10 ms drives PWR_EN high. -/
  | sysWake
  /-- TAMPER_EVENT (R405). The AON domain records a tamper event in its store. -/
  | tamperEvent (kind : Nat) (time : Nat)
  /-- SYS_TAMPER_ACK (R405). A write acknowledges tamper entries and may clear SECURITY. -/
  | sysTamperAck (v : Nat)
  /-- OVERTEMP_READING (R428). The die temperature sensor is read every 1 ms for OVERTEMP. -/
  | overtempReading (t : Int)
  /-- EXTEST (R427). The EXTEST instruction drives and samples the boundary-scan chain. -/
  | jtagExtest (balls : List Bool) (drive : List Bool)
  /-- SAMPLE_PRELOAD (R427). SAMPLE/PRELOAD samples the balls and preloads the chain. -/
  | jtagSamplePreload (balls : List Bool) (load : List Bool)
  /-- IDCODE (R427). IDCODE selects the identification register. -/
  | jtagIdcode
  /-- HIGHZ (R427). HIGHZ places the chained outputs in high impedance. -/
  | jtagHighz
  /-- CLAMP (R427). CLAMP drives the preloaded values with BYPASS selected. -/
  | jtagClamp
  /-- BYPASS (R427). BYPASS selects the one-bit bypass register. -/
  | jtagBypass (code : Nat)
  /-- OBJECT_WRITE (R9). A write to an object without a row of its own is checked and changes the live value. -/
  | objectWrite (w : Who) (index : Nat) (sub : Nat) (v : Nat)
  /-- PRESENCE_RX (R165). A PRESENCE symbol received on a lane in L1 to L5 or WIRING returns the lane to L0 with back-off, LNK_LAST_FAIL PRESENCE. -/
  | presenceRx (n : Nat) (holdoff : Bool)
  /-- CAP_SEND (R165). A lane in L1 sends a CAP ladder frame every 10 us. -/
  | capSend (n : Nat)
  /-- LOCKED_SEND (R165). A lane in L2 with its receiver locked sends LOCKED every 1 us. -/
  | lockedSend (n : Nat)
  /-- RELEASE_REPEAT (R362). The apex sends the second and third copies of a RELEASE notice, 1 ms apart, with the same RSEQ. -/
  | releaseRepeat
  /-- CORE_CHECK_FAILURE (R296). The parity, residue or register-file ECC checks find an application core defective in service, and it is replaced by the spare, or the task is aborted with CORE_LOST, or a cell resets. -/
  | coreCheckFailure (c : Nat)
  /-- ISLAND_POWER_UP (R333). FLD_VL rises to 9 V or above and the island leaves reset, with its outputs off and in its safe state until a full parameter cycle arrives. -/
  | islandPowerUp
  /-- ON_DECK_LOOK_AHEAD (R306). A DORMANT or IDLE task whose PERIOD or TICK release comes within TSK_PREFETCH is loaded into a core's on-deck slot. -/
  | onDeckLookAhead (n : Nat)
  /-- DDR_BACK_IN_SERVICE (R402). The DDR domain finishes training and returns to service, up to 200 us after DDR_ON. -/
  | ddrBackInService
  /-- TEST_LOGIC_RESET (R427). The test access port enters test-logic reset and selects IDCODE. -/
  | jtagReset
  /-- JOP_DATAGRAM_MALFORMED (R368). A datagram malformed in MAGIC, VERSION or length is dropped and SYS_JOP_BAD is incremented. -/
  | jopDatagramMalformed
deriving DecidableEq, Repr

end Sys2Proof
end

