-- ==== Sys2Proof/Machine/Bits.lean ====
section
/-! DEFINITION. Bit fields, two's complement, saturation, byte order: the small helpers over numbers that every family uses (R6, R8, R12). -/
namespace Sys2Proof.Machine

/-- x[m:l] of R12: bits m down to l as an unsigned value. -/
def fld (x m l : Nat) : Nat := x / 2 ^ l % 2 ^ (m + 1 - l)

/-- Bit i of x. -/
def bit (x i : Nat) : Bool := x.testBit i

/-- 1 or 0. -/
def b2n (b : Bool) : Nat := if b then 1 else 0

/-- x with bit i set. -/
def setBit (x i : Nat) : Nat := x ||| 2 ^ i

/-- x with bit i cleared. -/
def clrBit (x i : Nat) : Nat := if bit x i then x - 2 ^ i else x

/-- x with bit i equal to b. -/
def putBit (x i : Nat) (b : Bool) : Nat := if b then setBit x i else clrBit x i

/-- The low w bits. -/
def low (w x : Nat) : Nat := x % 2 ^ w

/-- The signed value a w-bit two's complement pattern stands for. -/
def toI (w x : Nat) : Int := if low w x < 2 ^ (w - 1) then (low w x : Int) else (low w x : Int) - (2 ^ w : Nat)

/-- The w-bit two's complement pattern of z, wrapping. -/
def ofI (w : Nat) (z : Int) : Nat := (z % ((2 ^ w : Nat) : Int)).toNat

/-- clamp of R12. -/
def clampI (x lo hi : Int) : Int := if x < lo then lo else if x > hi then hi else x

/-- z limited to what w-bit two's complement holds. -/
def satI (w : Nat) (z : Int) : Int := clampI z (-((2 ^ (w - 1) : Nat) : Int)) (((2 ^ (w - 1) : Nat) : Int) - 1)

/-- x limited to w bits: the value of a saturating counter or field. -/
def satU (w x : Nat) : Nat := if x < 2 ^ w then x else 2 ^ w - 1

/-- a / b rounded to the nearest integer, ties away from zero; b positive. -/
def rndAway (a : Int) (b : Nat) : Int :=
  if a < 0 then -(((2 * a.natAbs + b) / (2 * b) : Nat) : Int) else (((2 * a.natAbs + b) / (2 * b) : Nat) : Int)

/-- a / b rounded to the nearest integer, ties to even; b positive. -/
def rndEven (a : Int) (b : Nat) : Int :=
  let q := a.natAbs / b
  let r := a.natAbs % b
  let q' := if 2 * r > b || (2 * r == b && q % 2 == 1) then q + 1 else q
  if a < 0 then -(q' : Int) else (q' : Int)

/-- a / b rounded up. -/
def ceilDiv (a b : Nat) : Nat := (a + b - 1) / b

/-- Element i of a list, or d beyond its end. -/
def nth (l : List α) (i : Nat) (d : α) : α := l.getD i d

/-- The n bytes of x, most significant first (R8). -/
def beBytes : Nat → Nat → List Nat
  | 0, _ => []
  | n + 1, x => x / 256 ^ n % 256 :: beBytes n x

/-- The number that bytes spell, most significant first (R8). -/
def ofBe (l : List Nat) : Nat := l.foldl (fun a b => a * 256 + b % 256) 0

/-- The n bytes of x, least significant first (R8, the object window and the cores' memory). -/
def leBytes : Nat → Nat → List Nat
  | 0, _ => []
  | n + 1, x => x % 256 :: leBytes n (x / 256)

/-- The number that bytes spell, least significant first. -/
def ofLe : List Nat → Nat
  | [] => 0
  | b :: t => b % 256 + 256 * ofLe t

/-- The first n elements, filled up with d. -/
def padTo (n : Nat) (d : α) (l : List α) : List α := (l ++ List.replicate n d).take n

/-- Number of set bits among the low n. -/
def popcount (n x : Nat) : Nat := ((List.range n).filter (bit x)).length

/-- An element put behind those that do not come after it. -/
def insBy (le : α → α → Bool) (x : α) : List α → List α
  | [] => [x]
  | y :: t => if le y x then y :: insBy le x t else x :: y :: t

/-- A list sorted by le, equal elements in their order. -/
def sortBy (le : α → α → Bool) (l : List α) : List α := l.foldl (fun a x => insBy le x a) []

/-- The largest of a list, 0 for none. -/
def maxL (l : List Nat) : Nat := l.foldl max 0

/-- The sum of a list. -/
def sumL (l : List Nat) : Nat := l.foldl (· + ·) 0

/-- Insert or replace the entry of a key in an association list, newest first. -/
def aset [BEq κ] (l : List (κ × α)) (k : κ) (v : α) : List (κ × α) := (k, v) :: l.filter (fun e => !(e.1 == k))

/-- The entry of a key. -/
def aget [BEq κ] (l : List (κ × α)) (k : κ) : Option α := (l.find? (fun e => e.1 == k)).map (·.2)

/-- The association list without a key. -/
def adel [BEq κ] (l : List (κ × α)) (k : κ) : List (κ × α) := l.filter (fun e => !(e.1 == k))

/-- Set membership kept as a list without repeats. -/
def addTo [BEq α] (l : List α) (x : α) : List α := if l.contains x then l else l ++ [x]

end Sys2Proof.Machine
end

