-- ==== Sys2Proof/Machine/Float.lean ====
section
/-! DEFINITION. Binary floating point by exact arithmetic: binary32 as R109 states it (round to nearest even, subnormal operands and results as zero), binary64 for the listings that declare F64 (R12, R181, R187). -/
namespace Sys2Proof.Machine

/-- The value of a pattern: not a number, an infinity, or (-1)^neg * m * 2^e. -/
inductive Fv where | nan | inf (neg : Bool) | fin (neg : Bool) (m : Nat) (e : Int)
deriving DecidableEq, Repr

/-- A binary format: precision in bits (hidden bit included), exponent field width, and whether subnormals count as zero. -/
structure Fmt where
  p : Nat
  eb : Nat
  ftz : Bool
deriving DecidableEq, Repr

/-- binary32 as the device computes in it (R109). -/
def fmt32 : Fmt := ⟨24, 8, true⟩

/-- binary64. -/
def fmt64 : Fmt := ⟨53, 11, false⟩

/-- The exponent bias. -/
def Fmt.bias (f : Fmt) : Nat := 2 ^ (f.eb - 1) - 1

/-- The exponent of the least normal number's unit in the last place. -/
def Fmt.tmin (f : Fmt) : Int := 1 - (f.bias : Int) - ((f.p : Int) - 1)

/-- Pattern of a zero. -/
def Fmt.zero (f : Fmt) (neg : Bool) : Nat := if neg then 2 ^ (f.eb + f.p - 1) else 0

/-- Pattern of an infinity. -/
def Fmt.infinity (f : Fmt) (neg : Bool) : Nat := f.zero neg + (2 ^ f.eb - 1) * 2 ^ (f.p - 1)

/-- Pattern of the quiet NaN that an operation answers; the spec gives no bits of a NaN (log entry 5). -/
def Fmt.nan (f : Fmt) : Nat := (2 ^ f.eb - 1) * 2 ^ (f.p - 1) + 2 ^ (f.p - 2)

/-- The value of a pattern; with ftz a subnormal operand is zero (R109). -/
def fdec (f : Fmt) (x : Nat) : Fv :=
  let neg := bit x (f.eb + f.p - 1)
  let e := fld x (f.eb + f.p - 2) (f.p - 1)
  let m := low (f.p - 1) x
  if e == 2 ^ f.eb - 1 then (if m == 0 then .inf neg else .nan)
  else if e == 0 then (if f.ftz then .fin neg 0 0 else .fin neg m f.tmin)
  else .fin neg (m + 2 ^ (f.p - 1)) ((e : Int) - (f.bias : Int) - ((f.p : Int) - 1))

/-- m * 2^e with a sticky bit below it (m > 0), rounded to nearest even into f; with ftz the exponent range has no lower limit before the flush (R109). -/
def frnd (f : Fmt) (neg : Bool) (m : Nat) (e : Int) (sticky : Bool) : Nat :=
  if m == 0 then f.zero neg else
  let k : Int := (m.log2 : Int) + e
  let t0 : Int := k - ((f.p : Int) - 1)
  let t : Int := if f.ftz then t0 else max t0 f.tmin
  let q : Nat :=
    if t ≤ e then m * 2 ^ (e - t).toNat
    else
      let d := (t - e).toNat
      let q0 := m / 2 ^ d
      let r := m % 2 ^ d
      let half := 2 ^ (d - 1)
      if r > half || (r == half && (sticky || q0 % 2 == 1)) then q0 + 1 else q0
  if q == 0 then f.zero neg else
  let q1 : Nat := if q.log2 ≥ f.p then q / 2 else q
  let t1 : Int := if q.log2 ≥ f.p then t + 1 else t
  if q1 < 2 ^ (f.p - 1) then f.zero neg + q1
  else
    let ex : Int := t1 + ((f.p : Int) - 1) + (f.bias : Int)
    if ex ≥ ((2 ^ f.eb - 1 : Nat) : Int) then f.infinity neg
    else if ex ≤ 0 then f.zero neg
    else f.zero neg + ex.toNat * 2 ^ (f.p - 1) + (q1 - 2 ^ (f.p - 1))

/-- A signed integer times 2^e, rounded; zero takes the given sign. -/
def fofI (f : Fmt) (z : Int) (e : Int) (zneg : Bool) : Nat :=
  if z == 0 then f.zero zneg else frnd f (decide (z < 0)) z.natAbs e false

/-- The signed integer m or -m. -/
def sgnm (neg : Bool) (m : Nat) : Int := if neg then -(m : Int) else (m : Int)

/-- Sum of two values as a pattern. -/
def faddv (f : Fmt) (a b : Fv) : Nat :=
  match a, b with
  | .nan, _ => f.nan
  | _, .nan => f.nan
  | .inf s, .inf t => if s == t then f.infinity s else f.nan
  | .inf s, _ => f.infinity s
  | _, .inf t => f.infinity t
  | .fin s m e, .fin t n g =>
    let k := min e g
    let z := sgnm s m * ((2 ^ (e - k).toNat : Nat) : Int) + sgnm t n * ((2 ^ (g - k).toNat : Nat) : Int)
    fofI f z k (s && t)

/-- Exact product of two values. -/
def fmulv (a b : Fv) : Fv :=
  match a, b with
  | .nan, _ => .nan
  | _, .nan => .nan
  | .inf s, .inf t => .inf (s != t)
  | .inf s, .fin t n _ => if n == 0 then .nan else .inf (s != t)
  | .fin s m _, .inf t => if m == 0 then .nan else .inf (s != t)
  | .fin s m e, .fin t n g => .fin (s != t) (m * n) (e + g)

/-- A value as a pattern. -/
def fenc (f : Fmt) (a : Fv) : Nat :=
  match a with
  | .nan => f.nan
  | .inf s => f.infinity s
  | .fin s m e => if m == 0 then f.zero s else frnd f s m e false

/-- Correctly rounded sum. -/
def fadd (f : Fmt) (a b : Nat) : Nat := faddv f (fdec f a) (fdec f b)

/-- The negated pattern. -/
def fneg (f : Fmt) (a : Nat) : Nat := let s := 2 ^ (f.eb + f.p - 1); if bit a (f.eb + f.p - 1) then a - s else a + s

/-- The pattern without its sign. -/
def fabs (f : Fmt) (a : Nat) : Nat := low (f.eb + f.p - 1) a

/-- Correctly rounded difference. -/
def fsub (f : Fmt) (a b : Nat) : Nat := fadd f a (fneg f b)

/-- Correctly rounded product. -/
def fmul (f : Fmt) (a b : Nat) : Nat := fenc f (fmulv (fdec f a) (fdec f b))

/-- p * q + r with one rounding (R109). -/
def ffma (f : Fmt) (p q r : Nat) : Nat := faddv f (fmulv (fdec f p) (fdec f q)) (fdec f r)

/-- Correctly rounded quotient of two naturals times 2^e. -/
def fratio (f : Fmt) (neg : Bool) (m n : Nat) (e : Int) : Nat :=
  if m == 0 then f.zero neg else
  let d := f.p + 2 + n.log2 - m.log2
  let a := m * 2 ^ d
  frnd f neg (2 * (a / n) + b2n (a % n != 0)) (e - (d : Int) - 1) false

/-- Correctly rounded quotient (R109). -/
def fdiv (f : Fmt) (a b : Nat) : Nat :=
  match fdec f a, fdec f b with
  | .nan, _ => f.nan
  | _, .nan => f.nan
  | .inf _, .inf _ => f.nan
  | .inf s, .fin t _ _ => f.infinity (s != t)
  | .fin s _ _, .inf t => f.zero (s != t)
  | .fin s m e, .fin t n g =>
    if n == 0 then (if m == 0 then f.nan else f.infinity (s != t)) else fratio f (s != t) m n (e - g)

/-- floor of the square root, by fuel bits from bit i downward. -/
def isqrtAux (n : Nat) : Nat → Nat → Nat
  | 0, r => r
  | i + 1, r => let c := r + 2 ^ i; isqrtAux n i (if c * c ≤ n then c else r)

/-- floor of the square root. -/
def isqrt (n : Nat) : Nat := isqrtAux n (n.log2 / 2 + 1) 0

/-- Correctly rounded square root (R109). -/
def fsqrt (f : Fmt) (a : Nat) : Nat :=
  match fdec f a with
  | .nan => f.nan
  | .inf s => if s then f.nan else f.infinity false
  | .fin s m e =>
    if m == 0 then f.zero s else if s then f.nan else
    let m1 := if e % 2 == 0 then m else 2 * m
    let e1 := if e % 2 == 0 then e else e - 1
    let d := f.p + 2
    let a1 := m1 * 2 ^ (2 * d)
    let r := isqrt a1
    frnd f false (2 * r + b2n (r * r != a1)) (e1 / 2 - (d : Int) - 1) false

/-- Ordering of two values: none where an operand is NaN. -/
def fcmp (f : Fmt) (a b : Nat) : Option Ordering :=
  match fdec f a, fdec f b with
  | .nan, _ => none
  | _, .nan => none
  | .inf s, .inf t => some (if s == t then .eq else if s then .lt else .gt)
  | .inf s, _ => some (if s then .lt else .gt)
  | _, .inf t => some (if t then .gt else .lt)
  | .fin s m e, .fin t n g =>
    let k := min e g
    some (compare (sgnm s m * ((2 ^ (e - k).toNat : Nat) : Int)) (sgnm t n * ((2 ^ (g - k).toNat : Nat) : Int)))

/-- a < b; false with a NaN operand (R109). -/
def flt (f : Fmt) (a b : Nat) : Bool := fcmp f a b == some .lt

/-- a ≤ b; false with a NaN operand. -/
def fle (f : Fmt) (a b : Nat) : Bool := fcmp f a b == some .lt || fcmp f a b == some .eq

/-- a = b as numbers; false with a NaN operand. -/
def feq (f : Fmt) (a b : Nat) : Bool := fcmp f a b == some .eq

/-- Not a number. -/
def fisNan (f : Fmt) (a : Nat) : Bool := fdec f a == .nan

/-- Neither an infinity nor a NaN. -/
def ffinite (f : Fmt) (a : Nat) : Bool := fld a (f.eb + f.p - 2) (f.p - 1) != 2 ^ f.eb - 1

/-- A subnormal pattern as the zero of its sign where the format counts it as zero (R109). -/
def fflush (f : Fmt) (a : Nat) : Nat := if f.ftz && fld a (f.eb + f.p - 2) (f.p - 1) == 0 then f.zero (bit a (f.eb + f.p - 1)) else a

/-- min; NaN when either operand is (R109). -/
def fmin (f : Fmt) (a b : Nat) : Nat := if fisNan f a || fisNan f b then f.nan else fflush f (if flt f b a then b else a)

/-- max; NaN when either operand is (R109). -/
def fmax (f : Fmt) (a b : Nat) : Nat := if fisNan f a || fisNan f b then f.nan else fflush f (if flt f a b then b else a)

/-- clamp of R12 in F32 or F64; x NaN gives NaN (R109). -/
def fclamp (f : Fmt) (x lo hi : Nat) : Nat :=
  if fisNan f x then f.nan else fflush f (if flt f x lo then lo else if flt f hi x then hi else x)

/-- Numerator over a power of two, as an exact pair (m, e) of a finite pattern: value m * 2^e. -/
def fexact (f : Fmt) (a : Nat) : Int × Int :=
  match fdec f a with
  | .fin s m e => (sgnm s m, e)
  | _ => (0, 0)

/-- The integer nearest to m * 2^e, ties away from zero. -/
def rndAwayE (m e : Int) : Int := if e ≥ 0 then m * ((2 ^ e.toNat : Nat) : Int) else rndAway m (2 ^ (-e).toNat)

/-- floor of m * 2^e. -/
def floorE (m e : Int) : Int := if e ≥ 0 then m * ((2 ^ e.toNat : Nat) : Int) else Int.fdiv m ((2 ^ (-e).toNat : Nat) : Int)

/-- An integer as F32. -/
def f32OfI (z : Int) : Nat := fofI fmt32 z 0 false

/-- F32 addition. -/
def addF (a b : Nat) : Nat := fadd fmt32 a b
/-- F32 subtraction. -/
def subF (a b : Nat) : Nat := fsub fmt32 a b
/-- F32 multiplication. -/
def mulF (a b : Nat) : Nat := fmul fmt32 a b
/-- F32 division. -/
def divF (a b : Nat) : Nat := fdiv fmt32 a b
/-- F32 fused multiply-add. -/
def fmaF (p q r : Nat) : Nat := ffma fmt32 p q r
/-- F32 negation. -/
def negF (a : Nat) : Nat := fneg fmt32 a
/-- F32 magnitude. -/
def absF (a : Nat) : Nat := fabs fmt32 a
/-- F32 comparison. -/
def ltF (a b : Nat) : Bool := flt fmt32 a b
/-- F32 comparison. -/
def leF (a b : Nat) : Bool := fle fmt32 a b
/-- F32 equality of numbers. -/
def eqF (a b : Nat) : Bool := feq fmt32 a b
/-- F32 1.0. -/
def oneF : Nat := 0x3f800000
/-- F32 0.0. -/
def zeroF : Nat := 0

end Sys2Proof.Machine
end

