-- ==== Sys2Proof/Machine/Crc.lean ====
section
/-! DEFINITION. The cyclic redundancy checks the spec names, over bytes, most significant bit first or reflected as each definition says. -/
namespace Sys2Proof.Machine

/-- One bit of a reflected 32-bit CRC with reversed polynomial poly. -/
def crcBit32 (poly c : Nat) : Nat := if c % 2 == 1 then Nat.xor (c / 2) poly else c / 2

/-- One byte of a reflected 32-bit CRC. -/
def crcByte32 (poly c b : Nat) : Nat := it8 (crcBit32 poly) (Nat.xor c (b % 256))
where
  /-- Eight applications. -/
  it8 (f : Nat → Nat) (x : Nat) : Nat := f (f (f (f (f (f (f (f x)))))))

/-- Reflected 32-bit CRC with initial value and final complement 0xFFFF_FFFF. -/
def crc32With (poly : Nat) (l : List Nat) : Nat := Nat.xor (l.foldl (crcByte32 poly) 0xFFFFFFFF) 0xFFFFFFFF

/-- CRC-32C (Castagnoli). -/
def crc32c (l : List Nat) : Nat := crc32With 0x82F63B78 l

/-- CRC-32 of IEEE 802.3. -/
def crc32 (l : List Nat) : Nat := crc32With 0xEDB88320 l

/-- One bit of CRC-16 with polynomial poly, most significant bit first. -/
def crcBit16 (poly c : Nat) : Nat := if bit c 15 then Nat.xor (c * 2 % 65536) poly else c * 2 % 65536

/-- CRC-16 over bytes, most significant bit first, from initial value init. -/
def crc16With (poly init : Nat) (l : List Nat) : Nat :=
  l.foldl (fun c b => let g := crcBit16 poly; g (g (g (g (g (g (g (g (Nat.xor c (b % 256 * 256)))))))))) init

end Sys2Proof.Machine
end

