-- ==== Sys2Proof/Machine/Operands.lean ====
section
/-! DEFINITION. The byte layouts of the payload tables and of the header of Table 5.3, frame lengths, and the reserved encodings that make a frame invalid (R8, R45, R46, R51, R59, R65, R146 to R149). -/
namespace Sys2Proof.Machine

/-- TS80 of a count of nanoseconds (Table 0.4). -/
def ts80 (ns : Nat) : List Nat := beBytes 6 (ns / 1000000000) ++ beBytes 4 (ns % 1000000000)

/-- TS96 of a count of 2^-16 ns (Table 0.4). -/
def ts96 (f : Nat) : List Nat := ts80 (f / 65536) ++ beBytes 2 (f % 65536)

/-- The 96-bit pattern of a count of 2^-16 ns: seconds, nanoseconds, fraction (Table 0.4). -/
def ts96N (f : Nat) : Nat := ofBe (ts96 f)

/-- n reserved bytes. -/
def rsv (n : Nat) : List Nat := List.replicate n 0

/-- A byte from its bits, most significant first. -/
def bits8 (b7 b6 b5 b4 b3 b2 b1 b0 : Bool) : Nat :=
  b2n b7 * 128 + b2n b6 * 64 + b2n b5 * 32 + b2n b4 * 16 + b2n b3 * 8 + b2n b2 * 4 + b2n b1 * 2 + b2n b0

/-- Counts packed at w bits each without gaps, each most significant bit first (Table 2.9); the total is a whole number of bytes. -/
def packBits (w : Nat) (l : List Nat) : List Nat := beBytes (w * l.length / 8) (l.foldl (fun a c => a * 2 ^ w + low w c) 0)

/-- Table 3.2. -/
def CellStatus.bytes (s : CellStatus) : List Nat :=
  beBytes 2 s.tDie ++ beBytes 2 s.tBoard ++ beBytes 2 s.vAux ++ beBytes 2 s.lateCount ++ beBytes 4 s.faults ++ beBytes 4 s.tc
    ++ [s.ov1, s.dsat, bits8 s.coil false false s.aux1 s.aux2 false false false, bits8 s.u0 s.u1 s.onB false false false false false] ++ rsv 4

/-- Table 2.4. -/
def Report.bytes (r : Report) : List Nat :=
  beBytes 4 r.period ++ beBytes 2 r.vKey ++ beBytes 2 r.vChk
    ++ [bits8 r.avail r.maskOk r.fb (bit r.insPrev 1) (bit r.insPrev 0) r.carvePrev r.shortfall r.latePrev, ofI 8 r.w, r.cellState, 0]
    ++ beBytes 4 r.swHi ++ beBytes 2 r.cellIndex ++ beBytes 2 r.claimSeen ++ r.status.bytes

/-- Table 2.2. -/
def RefEntry.bytes (e : RefEntry) : List Nat :=
  [e.arm, e.dir * 64 + b2n e.binValid * 32, e.binShift, e.stick] ++ beBytes 4 (ofI 40 e.m) ++ beBytes 2 e.binBase ++ beBytes 4 e.wearRef
    ++ [e.wearGain, ofI 40 e.m / 2 ^ 32]

/-- Table 2.1, bytes 16 to 123. -/
def Reference.bytes (r : Reference) : List Nat :=
  padTo 108 0 (beBytes 4 r.period ++ [r.entries.length] ++ rsv 3 ++ r.entries.flatMap RefEntry.bytes)

/-- Table 2.6 with Table 3.3, bytes 16 to 123. -/
def Command.bytes (c : Command) : List Nat :=
  beBytes 4 c.period ++ ts80 c.exec ++ [c.dir * 64 + b2n c.pol * 32 + b2n c.carveEn * 16 + b2n c.sat * 8, c.stick]
    ++ beBytes 4 c.kTh ++ beBytes 4 c.kCarve ++ beBytes 2 c.tCarve ++ beBytes 2 c.exclude ++ beBytes 4 c.slalomNext ++ beBytes 4 c.wearRef
    ++ [c.wearGain, 0] ++ beBytes 2 c.claim ++ beBytes 2 (c.originNode * 256 + c.originLink) ++ [b2n c.deblock * 128, 0]
    ++ padTo 16 0 c.orders ++ rsv 48

/-- Table 2.10, one entry. -/
def ArmSum.bytes (a : ArmSum) : List Nat :=
  [a.arm, b2n a.sat * 64 + b2n a.part * 32] ++ beBytes 2 a.nAv ++ beBytes 2 a.nFb ++ beBytes 2 a.nIns ++ beBytes 2 a.nInsNeg ++ beBytes 4 a.vSum ++ rsv 2

/-- Tables 2.9 and 2.10, bytes 16 to 251. -/
def Summary.bytes : Summary → List Nat
  | .group p g =>
    beBytes 4 p ++ [0, 1, g.a.arm, b2n g.hpol * 128 + b2n g.a.sat * 64 + b2n g.a.part * 32 + b2n g.hinc * 16]
      ++ beBytes 2 g.a.nAv ++ beBytes 2 g.a.nFb ++ beBytes 2 g.a.nIns ++ beBytes 2 g.a.nInsNeg ++ beBytes 4 g.a.vSum ++ beBytes 2 g.binBase
      ++ [g.binShift, 0] ++ beBytes 6 g.swSum ++ beBytes 4 g.swMin ++ beBytes 4 g.swMax
      ++ packBits 11 (padTo 64 0 g.histC) ++ packBits 11 (padTo 64 0 g.histD) ++ packBits 11 (padTo 16 0 g.histH)
  | .arms p l => padTo 236 0 (beBytes 4 p ++ [1, l.length] ++ rsv 2 ++ l.flatMap ArmSum.bytes)

/-- Table 6.2. -/
def Sync.bytes (s : Sync) : List Nat := ts96 s.vt ++ [s.steps, b2n s.valid * 128 + b2n s.lineageB * 64] ++ rsv 14

/-- Table 6.3. -/
def PdResp.bytes (p : PdResp) : List Nat := [p.reqSeq] ++ rsv 7 ++ beBytes 8 p.t2 ++ beBytes 4 p.turn ++ rsv 8

/-- Table 6.6. -/
def ParamSet.bytes (p : ParamSet) : List Nat :=
  beBytes 8 p.kEff ++ ts80 p.pEff ++ beBytes 2 p.g ++ beBytes 4 p.t ++ beBytes 4 p.l ++ beBytes 4 p.lawStart ++ beBytes 4 p.slalom
    ++ beBytes 8 p.deblock ++ beBytes 4 p.pseq ++ rsv 4

/-- Table 6.8. -/
def Station.bytes (s : Station) : List Nat := ts80 s.vM ++ ts80 s.sM ++ beBytes 4 (ofI 32 s.rho) ++ [s.quality, 0] ++ beBytes 2 (ofI 16 s.utc)

/-- Table 7.6. -/
def Digest.bytes (d : Digest) : List Nat :=
  beBytes 4 d.period ++ beBytes 2 d.claim
    ++ [d.state, bits8 d.abandoned d.ownInputs d.inDisc d.checking (bit d.verdict 1) (bit d.verdict 0) d.primaryB d.inStep]
    ++ beBytes 4 d.dOut ++ beBytes 4 d.dSum ++ beBytes 4 d.dLaw ++ beBytes 4 d.dRefIn ++ beBytes 4 d.misses ++ beBytes 4 d.bankCrc
    ++ beBytes 4 d.caddyCrc ++ beBytes 4 d.caddyPeriod ++ beBytes 4 d.checkEnd

/-- Table 7.7, INPUTS. -/
def Inputs.bytes (i : Inputs) : List Nat :=
  padTo 524 0 (beBytes 4 i.period ++ beBytes 2 i.first ++ beBytes 2 i.words.length ++ i.words.flatMap (beBytes 4))

/-- Table 7.7, CADDY. -/
def CaddyPart.bytesOf (c : CaddyPart) : List Nat :=
  padTo 524 0 (beBytes 4 c.period ++ beBytes 2 c.first ++ beBytes 2 c.bytes.length ++ c.bytes)

/-- Table 7.10. -/
def Wiring.bytes (w : Wiring) : List Nat :=
  padTo 108 0 ([w.node, w.level, 0, 0] ++ packBits 2 (padTo 64 0 w.kinds) ++ padTo 64 0 w.details)

/-- Table 10.3, most significant byte first. -/
def Event.bytes (e : Event) : List Nat :=
  beBytes 2 e.origin ++ [e.oflags, e.kind] ++ beBytes 2 e.source ++ [e.cls, 0] ++ ts96 e.instant ++ beBytes 4 e.count ++ beBytes 4 e.data ++ beBytes 4 e.eseq

/-- Table 10.4. -/
def Events.bytes (e : Events) : List Nat :=
  beBytes 4 e.fseq ++ [e.entries.length, 0, 0, 0] ++ e.entries.flatMap Event.bytes ++ rsv 4

/-- Table 10.7. -/
def SafeStatus.bytes (s : SafeStatus) : List Nat :=
  beBytes 4 s.sseq ++ [s.state, b2n s.blockHeld * 128 + b2n s.urgentHeld * 64, 0, 0] ++ beBytes 4 s.check ++ beBytes 4 s.fnState
    ++ beBytes 4 s.degLeft ++ rsv 24

/-- Bytes 0 to 27 of a ladder frame (Table 5.7). -/
def Ladder.bytes28 (l : Ladder) : List Nat :=
  [l.msg, l.ver, bits8 l.roleNode l.sideB l.restore false false false false false, l.lane, low 4 l.rateMax, low 4 l.target,
   bits8 l.partnerOk l.refReady l.pass false false false false false, l.rate] ++ beBytes 4 l.errors ++ [l.node] ++ rsv 3 ++ beBytes 8 l.serial ++ rsv 4

/-- The 32 bytes of a ladder frame (Table 5.7, R148). -/
def Ladder.bytes (l : Ladder) : List Nat := l.bytes28 ++ beBytes 4 (crc32c l.bytes28)

/-- The fields of a ladder frame's bytes (Table 5.7). -/
def ladderOf (b : List Nat) : Ladder :=
  let x (i : Nat) : Nat := nth b i 0
  { msg := x 0, ver := x 1, roleNode := bit (x 2) 7, sideB := bit (x 2) 6, restore := bit (x 2) 5, lane := x 3, rateMax := low 4 (x 4),
    target := low 4 (x 5), partnerOk := bit (x 6) 7, refReady := bit (x 6) 6, pass := bit (x 6) 5, rate := x 7, errors := ofBe ((b.drop 8).take 4),
    node := x 12, serial := ofBe ((b.drop 16).take 8) }

/-- Table 9.4. -/
def Xtrig.bytes (x : Xtrig) : List Nat := ts96 x.instant ++ [x.node, b2n x.sideB * 128 + x.source] ++ beBytes 2 x.seq ++ rsv 12

/-- Table 14.5. -/
def ObjMsg.bytes (m : ObjMsg) : List Nat :=
  beBytes 2 m.reqId ++ [m.op, m.status] ++ beBytes 2 m.index ++ [m.sub, m.count] ++ beBytes 2 m.data.length
    ++ [m.tryN, b2n m.commission * 2 + b2n m.proxy] ++ beBytes 4 m.tgt ++ m.data

/-- Table 14.6. -/
def NodeReport.bytes : NodeReport → List Nat
  | .lanes l => [1] ++ rsv 7 ++ l.flatMap fun e => [e.lane, e.rate, e.cells, e.kind] ++ beBytes 4 e.dIn ++ beBytes 4 e.dOut ++ rsv 4
  | .wiring d => [2] ++ rsv 7 ++ beBytes 8 d
  | .safState st d c => [3] ++ rsv 7 ++ [st, b2n d, 0, 0] ++ beBytes 4 c
  | .release r => [4] ++ rsv 7 ++ beBytes 4 r

/-- Table 14.7. -/
def Bulk.bytes (b : Bulk) : List Nat :=
  beBytes 2 b.xfer ++ [b.status, b.ranges.length] ++ beBytes 2 b.region ++ rsv 2 ++ beBytes 8 b.offset ++ beBytes 4 b.len ++ rsv 4
    ++ b.ranges.flatMap (fun r => beBytes 8 r.1 ++ beBytes 4 r.2 ++ rsv 4) ++ b.data

/-- The payload bytes of a frame, from byte 16 up to the padding before its CRC-32C. -/
def Pay.bytes : Pay → List Nat
  | .report r => r.bytes
  | .command c => c.bytes
  | .reference r => r.bytes
  | .summary s => s.bytes
  | .sync s => s.bytes
  | .pdReq => rsv 12
  | .pdResp p => p.bytes
  | .param p => p.bytes
  | .station s => s.bytes
  | .digest d => d.bytes
  | .inputs i => i.bytes
  | .caddy c => c.bytesOf
  | .wiring w => w.bytes
  | .events e => e.bytes
  | .safe s => s.bytes
  | .xtrig x => x.bytes
  | .obj m => m.bytes
  | .nreport r => r.bytes
  | .bulk b => b.bytes
  | .raw l => l

/-- LEN_B of a frame with this payload: header, payload, CRC-32C, rounded up to a multiple of 8 (R146), no less than its class allows (Table 5.4). -/
def Pay.len (p : Pay) : Nat :=
  let n := 8 * ceilDiv (20 + p.bytes.length) 8
  match p with
  | .bulk _ => max 64 n
  | _ => max 32 n

/-- Bytes 0 to 13 of the header (Table 5.3). -/
def Hdr.bytes14 (h : Hdr) (len : Nat) : List Nat :=
  [h.cls * 32 + b2n h.hop * 16 + h.typ, len / 8 - 1] ++ beBytes 2 h.dst ++ beBytes 2 h.src
    ++ [bits8 h.dstSide h.srcSide h.relayed h.dstNode h.srcNode h.bcast false false, h.seq] ++ rsv 6

/-- HCRC (R148). -/
def hcrc (b14 : List Nat) : Nat := crc16With 0x1021 0xFFFF b14

/-- The bytes of a frame as sent, header to CRC-32C (R147, R148). -/
def Frame.bytes (f : Frame) : List Nat :=
  let h := f.hdr.bytes14 f.len
  let body := padTo (f.len - 4) 0 (h ++ beBytes 2 (hcrc h) ++ f.pay.bytes)
  body ++ beBytes 4 (crc32c body)

/-- The header that bytes 0 to 7 spell; HCRC is checked apart. -/
def hdrOf (b : List Nat) : Hdr :=
  let ct := nth b 0 0
  let fl := nth b 6 0
  { cls := ct / 32, hop := bit ct 4, typ := ct % 16, dst := ofBe ((b.drop 2).take 2), src := ofBe ((b.drop 4).take 2),
    dstSide := bit fl 7, srcSide := bit fl 6, relayed := bit fl 5, dstNode := bit fl 4, srcNode := bit fl 3, bcast := bit fl 2, seq := nth b 7 0 }

/-- LEN and TYPE agree with Table 5.4 and the payload tables of the class. -/
def classOk (cls typ len : Nat) : Bool :=
  match cls with
  | 1 => (typ == 0 && len == 48) || (typ == 1 && len == 32) || (typ == 2 && len == 48) || (typ == 3 && len == 72) || (typ == 4 && len == 48)
  | 2 => len == 128 && typ ≤ 1
  | 3 => (typ == 0 && len == 64) || (typ == 1 && len == 256)
  | 4 => (typ == 0 && 64 ≤ len && len ≤ 256 && len % 32 == 0) || (typ == 14 && len == 64) || (typ == 15 && len == 48)
  | 5 => typ ≤ 2 && 32 ≤ len && len ≤ 1024
  | 6 => typ ≤ 3 && 64 ≤ len && len ≤ 1024
  | 7 => (typ == 0 && len == 64) || (typ == 1 && len == 544) || (typ == 2 && len == 544) || (typ == 3 && len == 128)
  | _ => false

/-- A claim's base is listed in Table 7.1 (R199). -/
def claimOk (c : Nat) : Bool := [0xC, 0x8, 0x6, 0x4, 0x2, 0x0].contains (fld c 15 12)

/-- No reserved encoding in a reference entry (R46). -/
def RefEntry.valid (e : RefEntry) : Bool := e.arm ≤ 63 && e.dir ≤ 2 && e.binShift ≤ 10

/-- No reserved encoding in a reference frame (R45, R46). -/
def Reference.valid (r : Reference) : Bool := 1 ≤ r.entries.length && r.entries.length ≤ 6 && r.entries.all RefEntry.valid

/-- No reserved encoding in a report (R46). -/
def Report.valid (r : Report) : Bool := r.insPrev ≤ 2 && r.cellState ≤ 6 && (r.cellIndex ≤ 1023 || r.cellIndex == 0xFFFF)

/-- An order byte: NONE with TAG 0, or codes 1 to 3 with TAG 1 to 15 (Table 3.3). -/
def ordOk (o : Nat) : Bool := (o / 16 == 0 && o % 16 == 0) || (1 ≤ o / 16 && o / 16 ≤ 3 && 1 ≤ o % 16)

/-- A key field: a 26-bit key or the value for no cell (R56). -/
def keyOk (k : Nat) : Bool := k ≤ 0x03FFFFFF || k == 0xFFFFFFFF

/-- No reserved encoding in a command frame (R46, R59, R199). -/
def Command.valid (c : Command) : Bool :=
  c.dir ≤ 2 && keyOk c.kTh && keyOk c.kCarve && (c.carveEn == (c.kCarve != 0xFFFFFFFF)) && (c.carveEn || c.tCarve == 0) && claimOk c.claim && c.originLink ≤ 63
    && c.originNode ≤ 63 && c.slalomNext < 2 ^ 31 && c.orders.all ordOk

/-- No reserved encoding in a summary frame (R46, R65). -/
def Summary.valid : Summary → Bool
  | .group _ g => g.a.arm ≤ 63 && g.binShift ≤ 10
  | .arms _ l => 1 ≤ l.length && l.length ≤ 6 && l.all fun a => a.arm ≤ 63

/-- PERIOD of a summary. -/
def Summary.period : Summary → Nat
  | .group p _ => p
  | .arms p _ => p

end Sys2Proof.Machine
end

