-- ==== Sys2Proof/Config.lean ====
section
/-! DEFINITION. What an implementation fixes and what the spec leaves open: constants without a body, so that no proof can see a value (log entries 3 to 6). -/
namespace Sys2Proof.Config

/-- A free value: applied to the counter State.free, once per open value. -/
opaque freeNat : Nat → Nat

/-- Manufacture constants: what the maker writes into each part (SYS_SERIAL, SYS_SILICON_REV, SYS_ROM_VERSION, SYS_FW_VERSION, SYS_MAC, ...), by object key; 0 is the public part of the maker's firmware key, 1 the private identity key of the part. -/
opaque made : Nat → Nat

/-- Bytes of the firmware image that every part carries from manufacture (R4), by offset in its slot. -/
opaque image : Nat → Nat

/-- Byte of the map of a map block (R399), whose coding the spec leaves open, by what the map says and by its place. -/
opaque mapByte : List Nat → Nat → Nat

/-- Trigonometric functions of R109 in binary32: 0 sin, 1 cos; the spec bounds their error and gives no bits. -/
opaque trig : Nat → Nat → Nat

/-- atan2 of R109 in binary32. -/
opaque atan2 : Nat → Nat → Nat

end Sys2Proof.Config
end

