-- ==== Sys2Proof/Machine/ObjNames.lean ====
section
/-! DEFINITION. The objects of the dictionary by name, each as its key index * 256 + sub-index (R8, R353; the object tables of spec/).
One name per row of the object tables 1.8 to 15.8; a row over several sub-indices or indices is a function of its item. -/
namespace Sys2Proof.Machine.O


/- Table 1.8 -/
/-- 0x3100:01: Control period T [2.5 ns ticks]; limits in R28 -/
def TIM_PERIOD : Nat := 0x310001
/-- 0x3100:02: Apply lag L [ticks]; limits in R39 -/
def TIM_APPLY_LAG : Nat := 0x310002
/-- 0x3100:03: Command guard G [ticks], 100 ns to 1 µs -/
def TIM_CMD_GUARD : Nat := 0x310003
/-- 0x3100:04: Minimum apply lag [ticks] under R37; 0 while UNKNOWN -/
def TIM_LAG_MIN : Nat := 0x310004
/-- 0x3100:05: Law start [ticks after P-mark]; 0 selects automatic -/
def TIM_LAW_START : Nat := 0x310005
/-- 0x3100:06: Law start in use [ticks] -/
def TIM_LAW_START_EFF : Nat := 0x310006
/-- 0x3100:07: Period number k of the latest P-mark -/
def TIM_PERIOD_NUMBER : Nat := 0x310007
/-- 0x3100:08: 0 OK; 1 SHORT; 2 UNKNOWN -/
def TIM_LAG_STATUS : Nat := 0x310008
/-- 0x3100:09: Periods abandoned by this node, saturating -/
def TIM_LATE_PERIODS : Nat := 0x310009
/-- 0x3100:0A: Stage minimum period [ticks] under R38 -/
def TIM_STAGE_MIN : Nat := 0x31000a

/- Table 1.9 -/
/-- 0xE000:01: Sampled straps: [0] ROLE, [1] HOSTEN, [2] SIDE, [3] BOOTSEL -/
def TREE_ROLE : Nat := 0xe00001
/-- 0xE000:02: Own node number; in a cell, that of its leaf node; 0xFF before enumeration -/
def TREE_NODE_NUMBER : Nat := 0xe00002
/-- 0xE000:03: Own level; cells are 0 -/
def TREE_LEVEL : Nat := 0xe00003
/-- 0xE000:04: Levels in the tree including cells; 0 before enumeration -/
def TREE_DEPTH : Nat := 0xe00004
/-- 0xE000:05: 0 none; 1 pistes; 2 groups -/
def TREE_DOWNLINK_KIND : Nat := 0xe00005
/-- 0xE000:06: Nodes enumerated in this system, at the apex -/
def TREE_NODE_COUNT : Nat := 0xe00006
/-- 0xE000:07: Indexed cells below this node -/
def TREE_CELL_COUNT : Nat := 0xe00007
/-- 0xE000:08: Own cell index (R15); 0xFFFF in nodes and unindexed cells -/
def TREE_CELL_INDEX : Nat := 0xe00008
/-- 0xE000:09: 0 NOT_STARTED; 1 RUNNING; 2 COMPLETE; 3 TOO_DEEP; 4 TOO_MANY; 5 MIXED -/
def TREE_ENUM_STATUS : Nat := 0xe00009
/-- 0xE000:0B: Bit k set: piste on Dk has more than 16 cells -/
def TREE_PISTE_OVERLONG : Nat := 0xe0000b
/-- 0xE000:0C: Bit k set: measured length differs from TREE_PISTE_LEN -/
def TREE_PISTE_MISMATCH : Nat := 0xe0000c
/-- 0xE010:01 to 0xE010:40: Commissioned cell count of the piste on D0 to D63; 0 unknown -/
def TREE_PISTE_LEN (n : Nat) : Nat := 0xe01001 + n

/- Table 2.13 -/
/-- 0x4000:01: LFSR state of period 0, or of the K_EFF of a later write (R50); apex only -/
def BAL_SLALOM_SEED : Nat := 0x400001
/-- 0x4000:02: LFSR state of the latest P-mark -/
def BAL_SLALOM_STATE : Nat := 0x400002
/-- 0x4000:03: Report and summary deadline margin [ticks] -/
def BAL_REPORT_MARGIN : Nat := 0x400003
/-- 0x4000:04: Periods withheld under R58, saturating -/
def BAL_LOCKSTEP_MISMATCH : Nat := 0x400004
/-- 0x4000:05: Bit k set: piste on Dk broken (R54) -/
def BAL_SPLIT_PISTES : Nat := 0x400005
/-- 0x4010:01 to 0x4010:40: Arm slot of D0 to D63; 0xFE several arms; 0xFF none -/
def BAL_LINK_ARM (n : Nat) : Nat := 0x401001 + n
/-- 0x4020:01 to 0x4020:06: Arm number of slot j = sub-index − 1 -/
def BAL_ARM_ID (n : Nat) : Nat := 0x402001 + n

/- Table 2.14 -/
/-- 0x4100+j:01: Stickiness S [codes]; head only -/
def BAL_STICK (j : Nat) : Nat := 0x410001 + j * 256
/-- 0x4100+j:02: Wear gain; head only -/
def BAL_WEAR_GAIN (j : Nat) : Nat := 0x410002 + j * 256
/-- 0x4100+j:03: 0 AUTO; 1 FIXED; head only -/
def BAL_BIN_MODE (j : Nat) : Nat := 0x410003 + j * 256
/-- 0x4100+j:04: CHARGE histogram base [codes] -/
def BAL_BIN_BASE (j : Nat) : Nat := 0x410004 + j * 256
/-- 0x4100+j:05: Bin width 2^shift [codes] -/
def BAL_BIN_SHIFT (j : Nat) : Nat := 0x410005 + j * 256
/-- 0x4100+j:06: Wear-spread limit [4096 switchings] -/
def BAL_WEAR_LIMIT (j : Nat) : Nat := 0x410006 + j * 256

/- Table 2.15 -/
/-- 0x4120+j:01: Whole insertions of the latest period -/
def BAL_N (j : Nat) : Nat := 0x412001 + j * 256
/-- 0x4120+j:02: Fraction F -/
def BAL_F (j : Nat) : Nat := 0x412002 + j * 256
/-- 0x4120+j:03: Threshold key; leaf only -/
def BAL_K_TH (j : Nat) : Nat := 0x412003 + j * 256
/-- 0x4120+j:04: Carve key; leaf only -/
def BAL_K_CARVE (j : Nat) : Nat := 0x412004 + j * 256
/-- 0x4120+j:05: Carve insertion time [ticks] -/
def BAL_T_CARVE (j : Nat) : Nat := 0x412005 + j * 256
/-- 0x4120+j:06: [1:0] DIR; [2] POL; [3] SAT -/
def BAL_DIR_POL (j : Nat) : Nat := 0x412006 + j * 256
/-- 0x4120+j:07: Counted cells below this node -/
def BAL_N_AV (j : Nat) : Nat := 0x412007 + j * 256
/-- 0x4120+j:08: Counted full-bridge cells -/
def BAL_N_FB (j : Nat) : Nat := 0x412008 + j * 256
/-- 0x4120+j:09: Counted cells inserted at the P-mark -/
def BAL_N_INS (j : Nat) : Nat := 0x412009 + j * 256
/-- 0x4120+j:0A: Sum of V_KEY [62.5 mV] -/
def BAL_V_SUM (j : Nat) : Nat := 0x41200a + j * 256
/-- 0x4120+j:0B: 1: this node heads the arm (R43) -/
def BAL_HEAD (j : Nat) : Nat := 0x41200b + j * 256
/-- 0x4120+j:0C: Base in use -/
def BAL_BIN_BASE_EFF (j : Nat) : Nat := 0x41200c + j * 256
/-- 0x4120+j:0D: Shift in use -/
def BAL_BIN_SHIFT_EFF (j : Nat) : Nat := 0x41200d + j * 256
/-- 0x4120+j:0E: WEAR_REF in use [4096 switchings] -/
def BAL_WEAR_REF (j : Nat) : Nat := 0x41200e + j * 256
/-- 0x4120+j:0F: SW_MAX − SW_MIN; head only -/
def BAL_WEAR_SPREAD (j : Nat) : Nat := 0x41200f + j * 256
/-- 0x4120+j:10: M of the latest entry, 40 bits with 16 fractional bits [cells] -/
def BAL_M (j : Nat) : Nat := 0x412010 + j * 256

/- Table 2.16 -/
/-- 0x4140+j:01: Reports not counted (R52) -/
def BAL_MISSING (j : Nat) : Nat := 0x414001 + j * 256
/-- 0x4140+j:02: Reports with MASK_OK = 0 -/
def BAL_MASK_EXCLUDED (j : Nat) : Nat := 0x414002 + j * 256
/-- 0x4140+j:03: Reports with SHORTFALL = 1 (R62) -/
def BAL_SHORTFALL (j : Nat) : Nat := 0x414003 + j * 256
/-- 0x4140+j:04: Saturated periods -/
def BAL_SAT_PERIODS (j : Nat) : Nat := 0x414004 + j * 256
/-- 0x4140+j:05: Periods decided by the mask (R73) -/
def BAL_TIE_PERIODS (j : Nat) : Nat := 0x414005 + j * 256
/-- 0x4140+j:06: Group summaries missing (R70) -/
def BAL_GROUP_MISSING (j : Nat) : Nat := 0x414006 + j * 256
/-- 0x4140+j:07: Periods apportioned by count (R71) -/
def BAL_POL_MISMATCH (j : Nat) : Nat := 0x414007 + j * 256
/-- 0x4140+j:08: Boundary bin at an edge (R72) -/
def BAL_EDGE_PERIODS (j : Nat) : Nat := 0x414008 + j * 256
/-- 0x4140+j:09: Relayed reports past deadline (R54) -/
def BAL_SPLIT_LATE (j : Nat) : Nat := 0x414009 + j * 256
/-- 0x4140+j:0A: 0 none; 1 group on a shared arm sends ARMS; 2 entry for an unmapped arm -/
def BAL_CFG_ERROR (j : Nat) : Nat := 0x41400a + j * 256
/-- 0x4140+j:0B: Periods apportioned by count because a group's histograms were not usable (R67) -/
def BAL_HIST_SAT (j : Nat) : Nat := 0x41400b + j * 256

/- Table 2.17 -/
/-- 0x4200:01 to 0x4200:40: Hold band B [A] (R44) -/
def BAL_HOLD_BAND (n : Nat) : Nat := 0x420001 + n
/-- 0x4210:01 to 0x4210:40: Counted cells of arm a -/
def BAL_ARM_NAV (n : Nat) : Nat := 0x421001 + n
/-- 0x4220:01 to 0x4220:40: Sum of V_KEY of arm a [62.5 mV] -/
def BAL_ARM_VSUM (n : Nat) : Nat := 0x422001 + n
/-- 0x4230:01 to 0x4230:40: [0] SAT; [1] PARTIAL; [3:2] DIR; [4] POL -/
def BAL_ARM_FLAGS (n : Nat) : Nat := 0x423001 + n
/-- 0x4240:01 to 0x4240:40: Non-finite law outputs (R44), saturating -/
def BAL_REF_INVALID (n : Nat) : Nat := 0x424001 + n

/- Table 3.8 -/
/-- 0x6000:01: 0 half-bridge; 1 full-bridge -/
def CEL_TOPOLOGY : Nat := 0x600001
/-- 0x6000:02: Dead time [ticks] -/
def CEL_DEAD_TIME : Nat := 0x600002
/-- 0x6000:03: Shortest kept interval [ticks]; 0 keeps all -/
def CEL_MIN_PULSE : Nat := 0x600003
/-- 0x6000:04: Full-bridge bypass: 0 lower; 1 upper -/
def CEL_FB_BYPASS : Nat := 0x600004
/-- 0x6000:05: HELD time-out [µs] -/
def CEL_HELD_TIME : Nat := 0x600005
/-- 0x6010:01 to 0x6010:04: Trim of GATE_HA, GATE_LA, GATE_HB, GATE_LB [ticks] -/
def CEL_TRIM (n : Nat) : Nat := 0x601001 + n
/-- 0x6020:01 to 0x6020:04: Reaction to DSAT_HA, LA, HB, LB: 0 BLOCK; 1 BYPASS_PERM -/
def CEL_DSAT_REACT (n : Nat) : Nat := 0x602001 + n
/-- 0x6020:05: Blanking after turn-on [ticks] -/
def CEL_DSAT_BLANK : Nat := 0x602005
/-- 0x6020:06: Desaturation filter [ticks] -/
def CEL_DSAT_FILTER : Nat := 0x602006

/- Table 3.9 -/
/-- 0x6030:01: Override threshold [62.5 mV], 2800 V; refused above CEL_OV2 -/
def CEL_OV1 : Nat := 0x603001
/-- 0x6030:02: Bypass threshold [62.5 mV], 3000 V; refused below CEL_OV1 -/
def CEL_OV2 : Nat := 0x603002
/-- 0x6030:03: Override hysteresis [62.5 mV] -/
def CEL_OV_HYST : Nat := 0x603003
/-- 0x6030:04: Second-level filter [ticks] -/
def CEL_OV2_FILTER : Nat := 0x603004
/-- 0x6030:05: Least V_KEY for READY [62.5 mV] -/
def CEL_V_READY : Nat := 0x603005
/-- 0x6030:06: Undervoltage in ACTIVE and HELD [62.5 mV] -/
def CEL_V_MIN : Nat := 0x603006
/-- 0x6030:07: Divider discrepancy limit [62.5 mV] -/
def CEL_VCHK_TOL : Nat := 0x603007
/-- 0x6030:08: Consecutive discrepancies for VCHK -/
def CEL_VCHK_COUNT : Nat := 0x603008
/-- 0x6030:09: 0 BLOCK; 1 BYPASS_PERM -/
def CEL_VCHK_REACT : Nat := 0x603009
/-- 0x6030:0A: Auxiliary undervoltage [mV] -/
def CEL_VAUX_MIN : Nat := 0x60300a
/-- 0x6030:0B: Counter save threshold [mV] -/
def CEL_VAUX_WARN : Nat := 0x60300b
/-- 0x6030:0C: Overtemperature [0.0625 °C], 110 °C -/
def CEL_T_MAX : Nat := 0x60300c
/-- 0x6040:01: Key divider gain [V/LSB]; limited by R94 -/
def CEL_VKEY_GAIN : Nat := 0x604001
/-- 0x6040:02: Key divider offset [LSB] -/
def CEL_VKEY_OFFSET : Nat := 0x604002
/-- 0x6040:03: Check divider gain [V/LSB]; limited by R94 -/
def CEL_VCHK_GAIN : Nat := 0x604003
/-- 0x6040:04: Check divider offset [LSB] -/
def CEL_VCHK_OFFSET : Nat := 0x604004
/-- 0x6040:05: 0 die; 1 board -/
def CEL_TC_SOURCE : Nat := 0x604005
/-- 0x6040:06: Thermal-cycle hysteresis [0.0625 °C], 20 °C -/
def CEL_TC_DELTA : Nat := 0x604006

/- Table 3.10 -/
/-- 0x6050:01: Coil pulse [0.1 ms] -/
def CEL_BYP_PULSE : Nat := 0x605001
/-- 0x6050:02: Confirmation window [0.1 ms] -/
def CEL_BYP_CONFIRM : Nat := 0x605002
/-- 0x6050:03: Contact debounce [0.1 ms] -/
def CEL_AUX_FILTER : Nat := 0x605003
/-- 0x6050:04: Further pulses after the first -/
def CEL_BYP_RETRY : Nat := 0x605004

/- Table 3.11 -/
/-- 0x6100:01: State code (R83) -/
def CEL_STATE : Nat := 0x610001
/-- 0x6100:02: Latched faults, Table 3.6 -/
def CEL_FAULT_LATCHED : Nat := 0x610002
/-- 0x6100:03: Faults whose cause is present -/
def CEL_FAULT_LIVE : Nat := 0x610003
/-- 0x6100:04: V_KEY of the latest P-mark [62.5 mV] -/
def CEL_V_KEY : Nat := 0x610004
/-- 0x6100:05: V_CHK of the latest P-mark [62.5 mV] -/
def CEL_V_CHK : Nat := 0x610005
/-- 0x6100:06: Auxiliary supply [mV] -/
def CEL_VAUX : Nat := 0x610006
/-- 0x6100:07: Die temperature [0.0625 °C] -/
def CEL_T_DIE : Nat := 0x610007
/-- 0x6100:08: Board temperature [0.0625 °C] -/
def CEL_T_BOARD : Nat := 0x610008
/-- 0x6100:09: Gate outputs now: [3] HA; [2] LA; [1] HB; [0] LB -/
def CEL_GATE : Nat := 0x610009
/-- 0x6100:0A: Debounced contacts: [1] AUX1 closed; [0] AUX2 closed -/
def CEL_AUX : Nat := 0x61000a
/-- 0x6100:0B: Write 1: clear as the CLEAR order -/
def CEL_CLEAR : Nat := 0x61000b
/-- 0x6120:01: Switchings (R105) -/
def CEL_SW_COUNT : Nat := 0x612001
/-- 0x6120:02: Thermal cycles (R106), saturating -/
def CEL_TC_COUNT : Nat := 0x612002
/-- 0x6120:03: Late periods (R34), saturating -/
def CEL_LATE_PERIODS : Nat := 0x612003
/-- 0x6120:04: Consecutive late periods -/
def CEL_LATE_CONSEC : Nat := 0x612004
/-- 0x6120:05: Commands refused under R85, saturating -/
def CEL_CMD_REJECT : Nat := 0x612005
/-- 0x6120:06: Edge pairs removed (R93), saturating -/
def CEL_PULSE_MERGED : Nat := 0x612006
/-- 0x6120:07: Turn-on edges delayed (R91), saturating -/
def CEL_INTERLOCK : Nat := 0x612007
/-- 0x6120:08: Overvoltage overrides, saturating -/
def CEL_OV1_EVENTS : Nat := 0x612008
/-- 0x6120:09: Desaturation faults, saturating -/
def CEL_DSAT_EVENTS : Nat := 0x612009
/-- 0x6120:0A: Entries to HELD, saturating -/
def CEL_HELD_ENTRIES : Nat := 0x61200a
/-- 0x6120:0B: Coil pulses driven -/
def CEL_BYP_ATTEMPTS : Nat := 0x61200b

/- Table 3.12 -/
/-- 0x6800:01: Bit a: arm a deblocked (R87); apex only -/
def CEL_ARM_DEBLOCK : Nat := 0x680001
/-- 0x6800:02: [19:16] order code; [9:0] cell index (R88) -/
def CEL_ORDER : Nat := 0x680002
/-- 0x6800:03: Periods each order is sent -/
def CEL_ORDER_REPEAT : Nat := 0x680003
/-- 0x6C00+k:01 to 0x6C00+k:10: V_KEY of the latest report from position sub − 1 on Dk [62.5 mV] -/
def CEL_MIRROR_V (k n : Nat) : Nat := 0x6c0001 + k * 256 + n
/-- 0x6C40+k:01 to 0x6C40+k:10: CELL_STATE of the same report; 0 when none received -/
def CEL_MIRROR_STATE (k n : Nat) : Nat := 0x6c4001 + k * 256 + n

/- Table 4.13 -/
/-- 0x5100 to 0x5101: Binding of input i -/
def LAW_IN_BIND (n : Nat) : Nat := 0x510001 + n / 128 * 256 + n % 128
/-- 0x5102 to 0x5103: Scale of input i -/
def LAW_IN_GAIN (n : Nat) : Nat := 0x510201 + n / 128 * 256 + n % 128
/-- 0x5104 to 0x5105: Offset of input i -/
def LAW_IN_OFFSET (n : Nat) : Nat := 0x510401 + n / 128 * 256 + n % 128
/-- 0x5106 to 0x5107: Least good value -/
def LAW_IN_MIN (n : Nat) : Nat := 0x510601 + n / 128 * 256 + n % 128
/-- 0x5108 to 0x5109: Greatest good value -/
def LAW_IN_MAX (n : Nat) : Nat := 0x510801 + n / 128 * 256 + n % 128
/-- 0x510A to 0x510B: Bits of R114; [7] HELD -/
def LAW_IN_STATUS (n : Nat) : Nat := 0x510a01 + n / 128 * 256 + n % 128
/-- 0x5180:01 to 0x5180:40: Words written by application cores -/
def LAW_MAILBOX (n : Nat) : Nat := 0x518001 + n
/-- 0x5190:01 to 0x5190:40: RESULT outputs -/
def LAW_RESULT (n : Nat) : Nat := 0x519001 + n
/-- 0x5200:01 to 0x5200:80: Binding of output o -/
def LAW_OUT_BIND (n : Nat) : Nat := 0x520001 + n
/-- 0x5C00 to 0x5C0F: Committed value of signal s -/
def LAW_SIGNAL (n : Nat) : Nat := 0x5c0001 + n / 128 * 256 + n % 128

/- Table 4.14 -/
/-- 0x5000:01: 1 VALIDATE; 2 START; 3 STOP; 4 SEAL_0; 5 SEAL_1; 6 CLEAR_ERR, clears LAW_ELEM_ERR -/
def LAW_CMD : Nat := 0x500001
/-- 0x5000:02: Engine state (R130) -/
def LAW_STATE : Nat := 0x500002
/-- 0x5000:03: Table 4.12 -/
def LAW_LOAD_STATUS : Nat := 0x500003
/-- 0x5000:04: First failing item -/
def LAW_LOAD_ITEM : Nat := 0x500004
/-- 0x5000:05: w_law [ticks] -/
def LAW_WCET : Nat := 0x500005
/-- 0x5000:06: Margin [cycles] -/
def LAW_MARGIN : Nat := 0x500006
/-- 0x5000:07: Elements in the graph -/
def LAW_ELEMENTS : Nat := 0x500007
/-- 0x5000:08: Inputs bound -/
def LAW_INPUTS : Nat := 0x500008
/-- 0x5000:09: Outputs bound -/
def LAW_OUTPUTS : Nat := 0x500009
/-- 0x5000:0A: Active bank; writable in STOPPED only -/
def LAW_ACTIVE_BANK : Nat := 0x50000a
/-- 0x5000:0B: Swap request (R128) -/
def LAW_BANK_REQ : Nat := 0x50000b
/-- 0x5000:0C: [0] bank 0 sealed; [1] bank 1 sealed -/
def LAW_BANK_STATUS : Nat := 0x50000c
/-- 0x5000:0D: Fallback swap mode: 0 KEEP; 1 PRESET -/
def LAW_FB_MODE : Nat := 0x50000d
/-- 0x5000:0E: Start at a non-apex node [ticks after P-mark] -/
def LAW_LOCAL_START : Nat := 0x50000e
/-- 0x5000:0F: Cycles of the latest completed evaluation -/
def LAW_LAST_CYCLES : Nat := 0x50000f
/-- 0x5000:10: Abandoned evaluations, saturating -/
def LAW_ABANDONED : Nat := 0x500010
/-- 0x5000:11: States kept under R117, saturating -/
def LAW_NONFINITE : Nat := 0x500011
/-- 0x5000:12: 0 none; 1 no fallback bank; 2 loss in FALLBACK -/
def LAW_FAULT_CAUSE : Nat := 0x500012
/-- 0x5000:13: Entries to FALLBACK, saturating -/
def LAW_FALLBACKS : Nat := 0x500013
/-- 0x5000:14: Completed evaluations -/
def LAW_EVAL_COUNT : Nat := 0x500014
/-- 0x5000:15: CRC-32 of bank 0 at its latest seal -/
def LAW_BANK_CRC0 : Nat := 0x500015
/-- 0x5000:16: CRC-32 of bank 1 at its latest seal -/
def LAW_BANK_CRC1 : Nat := 0x500016
/-- 0x5040:01: Bit e: element e kept a state under R117 -/
def LAW_ELEM_ERR : Nat := 0x504001

/- Table 4.15 -/
/-- 0x5010:01: Bad evaluations to HOLD -/
def LAW_LOSS_HOLD : Nat := 0x501001
/-- 0x5010:02: Bad evaluations to FALLBACK; refused below LAW_LOSS_HOLD -/
def LAW_LOSS_FALLBACK : Nat := 0x501002
/-- 0x5010:03: Bad evaluations in FALLBACK to FAULT; 0 never -/
def LAW_LOSS_FAULT : Nat := 0x501003
/-- 0x5010:04: Good evaluations to leave HOLD or FALLBACK -/
def LAW_LOSS_RECOVER : Nat := 0x501004
/-- 0x5010:05: Identical raw values for FROZEN -/
def LAW_FRZ_COUNT : Nat := 0x501005
/-- 0x5010:06: Lowest bad watched input -/
def LAW_BAD_INPUT : Nat := 0x501006
/-- 0x5010:07: Consecutive bad evaluations, saturating -/
def LAW_BAD_COUNT : Nat := 0x501007
/-- 0x5010:08: Consecutive evaluations with every CRIT input good (R130), saturating -/
def LAW_GOOD_COUNT : Nat := 0x501008
/-- 0x5010:09: Law starts before a mailbox word is STALE -/
def LAW_MBX_AGE : Nat := 0x501009
/-- 0x5020:01: σ of the latest evaluation -/
def LAW_SCH_SIGMA : Nat := 0x502001
/-- 0x5020:02: Region in use (R129) -/
def LAW_SCH_REGION : Nat := 0x502002
/-- 0x5020:03: Non-finite σ, saturating -/
def LAW_SCH_INVALID : Nat := 0x502003

/- Table 4.16 -/
/-- 0x5400 to 0x5403: Descriptor of element e -/
def LAW_ELEMENT (n : Nat) : Nat := 0x540001 + n / 128 * 256 + n % 128
/-- 0x5800 to 0x581F, +0x20 for bank 1: Coefficient word c -/
def LAW_COEF (b n : Nat) : Nat := 0x580001 + b * 0x2000 + n / 128 * 256 + n % 128
/-- 0x5900:01 to 0x5900:08, +1 for bank 1: Breakpoints bp_0 to bp_7 -/
def LAW_SCH_BP (b n : Nat) : Nat := 0x590001 + b * 256 + n
/-- 0x5900:09, +1 for bank 1: Breakpoints used; 0 no scheduling -/
def LAW_SCH_POINTS (b : Nat) : Nat := 0x590009 + b * 256
/-- 0x5900:0A, +1 for bank 1: Signal address of σ -/
def LAW_SCH_SIGNAL (b : Nat) : Nat := 0x59000a + b * 256
/-- 0x5900:0B, +1 for bank 1: Region hysteresis -/
def LAW_SCH_HYST (b : Nat) : Nat := 0x59000b + b * 256
/-- 0x5900:0C, +1 for bank 1: Schedule entries used -/
def LAW_SCH_COUNT (b : Nat) : Nat := 0x59000c + b * 256
/-- 0x5A00 to 0x5A01, +2 for bank 1: Schedule entry s -/
def LAW_SCH_ENTRY (b n : Nat) : Nat := 0x5a0001 + b * 0x200 + n / 128 * 256 + n % 128

/- Table 4.17 -/
/-- 0x5030:01: 1 ARM; 2 FORCE; 3 STOP -/
def LAW_TRC_CMD : Nat := 0x503001
/-- 0x5030:02: IDLE, ARMED, TRIGGERED, DONE -/
def LAW_TRC_STATE : Nat := 0x503002
/-- 0x5030:03: Periods per sample -/
def LAW_TRC_DECIM : Nat := 0x503003
/-- 0x5030:04: Pre-trigger samples -/
def LAW_TRC_PRE : Nat := 0x503004
/-- 0x5030:05: Trigger source (R136) -/
def LAW_TRC_SRC : Nat := 0x503005
/-- 0x5030:06: Level trigger signal -/
def LAW_TRC_SIG : Nat := 0x503006
/-- 0x5030:07: Level trigger threshold -/
def LAW_TRC_LEVEL : Nat := 0x503007
/-- 0x5030:08: 0 rising; 1 falling; 2 either -/
def LAW_TRC_EDGE : Nat := 0x503008
/-- 0x5030:09: Period number of the trigger sample -/
def LAW_TRC_TRIG_PERIOD : Nat := 0x503009
/-- 0x5030:0A: Buffer position of the trigger sample -/
def LAW_TRC_TRIG_INDEX : Nat := 0x50300a
/-- 0x5030:0B: Pre-trigger samples held -/
def LAW_TRC_PRE_ACTUAL : Nat := 0x50300b
/-- 0x5030:0C: Ignored triggers, saturating -/
def LAW_TRC_TRIG_IGNORED : Nat := 0x50300c
/-- 0x5038:01 to 0x5038:20: Signal of channel sub − 1; 0xFFFF unbound -/
def LAW_TRC_CH (n : Nat) : Nat := 0x503801 + n

/- Table 5.12 -/
/-- 0x2000:01: First back-off [ms] -/
def LNK_BACKOFF_MIN : Nat := 0x200001
/-- 0x2000:02: Back-off limit [ms]; refused below LNK_BACKOFF_MIN -/
def LNK_BACKOFF_MAX : Nat := 0x200002
/-- 0x2000:03: Time without PRESENCE before NO_PARTNER [ms] -/
def LNK_L0_TIMEOUT : Nat := 0x200003
/-- 0x2000:04: L1 without answered CAP [ms] -/
def LNK_L1_TIMEOUT : Nat := 0x200004
/-- 0x2000:05: L2 limit and L3 result wait [µs] -/
def LNK_L2_TIMEOUT : Nat := 0x200005
/-- 0x2000:06: Error window of 2^value bits -/
def LNK_L3_WINDOW : Nat := 0x200006
/-- 0x2000:07: Bit errors allowed in the window -/
def LNK_L3_MAX_ERR : Nat := 0x200007
/-- 0x2000:08: Further attempts at one rate -/
def LNK_L3_RETRY : Nat := 0x200008
/-- 0x2000:09: L4 limit [ms] -/
def LNK_L4_TIMEOUT : Nat := 0x200009
/-- 0x2000:0A: 1: repeated training failure lowers LNK_CEILING -/
def LNK_RATE_FALLBACK : Nat := 0x20000a
/-- 0x2000:0B: Code errors per 125 µs that take a lane down -/
def LNK_HIBER_LIMIT : Nat := 0x20000b
/-- 0x2000:0C: Known far length needed for WHOLE [µs] -/
def LNK_WHOLE_HOLD : Nat := 0x20000c
/-- 0x2000:0D: Frames without a route (R160); node -/
def LNK_NO_ROUTE : Nat := 0x20000d

/- Table 5.13 -/
/-- 0x2010:01 to 0x2010:44: Lane enabled -/
def LNK_ENABLE (n : Nat) : Nat := 0x201001 + n
/-- 0x2020:01 to 0x2020:44: Highest rate code; on a piste downlink, the piste target -/
def LNK_RATE_CFG (n : Nat) : Nat := 0x202001 + n
/-- 0x2030:01 to 0x2030:44: 1: NO_PARTNER or loss of L5 raises the lane-down source -/
def LNK_EXPECT (n : Nat) : Nat := 0x203001 + n
/-- 0x2040:01 to 0x2040:44: 1: transmit pair inverted -/
def LNK_TX_POL (n : Nat) : Nat := 0x204001 + n
/-- 0x2050:01 to 0x2050:44: 0 NONE; 1 NEAR_PMA; 2 NEAR_PCS; 3 FAR -/
def LNK_LOOP (n : Nat) : Nat := 0x205001 + n
/-- 0x2060:01 to 0x2060:44: Loop pattern: 0 PRBS31; 1 PRBS7; 2 square wave of 8 ones and 8 zeros -/
def LNK_PATTERN (n : Nat) : Nat := 0x206001 + n
/-- 0x2070:01 to 0x2070:44: 1 RETRAIN; 2 RESTORE_RATE; 3 CLEAR_COUNTERS -/
def LNK_CMD (n : Nat) : Nat := 0x207001 + n

/- Table 5.14 -/
/-- 0x2100:01 to 0x2100:44: 0 to 5 are L0 to L5; 6 WIRING; 7 LOOP; 8 OFF -/
def LNK_STAGE (n : Nat) : Nat := 0x210001 + n
/-- 0x2110:01 to 0x2110:44: Rate code in use -/
def LNK_RATE (n : Nat) : Nat := 0x211001 + n
/-- 0x2120:01 to 0x2120:44: Fallback ceiling (R166) -/
def LNK_CEILING (n : Nat) : Nat := 0x212001 + n
/-- 0x2130:01 to 0x2130:44: 0 none; 1 L1_TIMEOUT; 2 L2_TIMEOUT; 3 L3_ERRORS; 4 L3_NO_RESULT; 5 L4_TIMEOUT; 6 LOS; 7 LOL; 8 HIBER; 9 PRESENCE -/
def LNK_LAST_FAIL (n : Nat) : Nat := 0x213001 + n
/-- 0x2140:01 to 0x2140:44: [0] LOS; [1] LOL; [2] receive pair inverted; [3] NO_PARTNER; [4] own HOLDOFF; [5] partner HOLDOFF; [6] alignment held; [7] REF_READY; [8] LOOP_REFUSED -/
def LNK_STATUS (n : Nat) : Nat := 0x214001 + n
/-- 0x2150:01 to 0x2150:44: From the latest CAP: [31:24] LANE; [23] ROLE; [22] SIDE; [15:8] NODE; [3:0] RATE_MAX -/
def LNK_PARTNER (n : Nat) : Nat := 0x215001 + n
/-- 0x2160:01 to 0x2160:44: Back-off in force [ms] -/
def LNK_BACKOFF_NOW (n : Nat) : Nat := 0x216001 + n
/-- 0x2170:01 to 0x2170:44: Bit errors in the latest L3 window -/
def LNK_L3_ERRORS (n : Nat) : Nat := 0x217001 + n

/- Table 5.15 -/
/-- 0x2200:01 to 0x2200:44: Entries to L5 -/
def LNK_L5_ENTRIES (n : Nat) : Nat := 0x220001 + n
/-- 0x2201:01 to 0x2201:44: Training failures and L1 and L4 timeouts -/
def LNK_TRAIN_FAIL (n : Nat) : Nat := 0x220101 + n
/-- 0x2203:01 to 0x2203:44: LOS assertions -/
def LNK_LOS_COUNT (n : Nat) : Nat := 0x220301 + n
/-- 0x2204:01 to 0x2204:44: LOL assertions -/
def LNK_LOL_COUNT (n : Nat) : Nat := 0x220401 + n
/-- 0x2205:01 to 0x2205:44: High error rate findings -/
def LNK_HIBER_COUNT (n : Nat) : Nat := 0x220501 + n
/-- 0x2206:01 to 0x2206:44: Header check failures -/
def LNK_HCRC_ERR (n : Nat) : Nat := 0x220601 + n
/-- 0x2207:01 to 0x2207:44: Frame check failures -/
def LNK_CRC_ERR (n : Nat) : Nat := 0x220701 + n
/-- 0x2208:01 to 0x2208:44: Frames received with EOF_BAD -/
def LNK_RX_ABORTED (n : Nat) : Nat := 0x220801 + n
/-- 0x2209:01 to 0x2209:44: Invalid frames (R150, R152) -/
def LNK_RX_INVALID (n : Nat) : Nat := 0x220901 + n
/-- 0x220A:01 to 0x220A:44: Code errors (R145) -/
def LNK_CODE_ERR (n : Nat) : Nat := 0x220a01 + n
/-- 0x220B:01 to 0x220B:44: Frames without an output in L5 (R157) -/
def LNK_FWD_DISCARD (n : Nat) : Nat := 0x220b01 + n
/-- 0x220C:01 to 0x220C:44: Suspensions sent -/
def LNK_PREEMPT (n : Nat) : Nat := 0x220c01 + n
/-- 0x220D:01 to 0x220D:44: Loop checker bit errors -/
def LNK_LOOP_ERR (n : Nat) : Nat := 0x220d01 + n
/-- 0x220E:01 to 0x220E:44: Schusses accepted -/
def LNK_SCHUSS_RX (n : Nat) : Nat := 0x220e01 + n
/-- 0x220F:01 to 0x220F:44: Schuss symbols rejected -/
def LNK_SCHUSS_BAD (n : Nat) : Nat := 0x220f01 + n
/-- 0x2210:01 to 0x2210:44: Duplicate's frames crossing a piste (R160); node -/
def LNK_RX_OTHER (n : Nat) : Nat := 0x221001 + n
/-- 0x2211:01 to 0x2211:44: Loop checker bits -/
def LNK_LOOP_BITS (n : Nat) : Nat := 0x221101 + n
/-- 0x2311 to 0x2317, :01 to :44: Frames sent, class c = index − 0x2310 -/
def LNK_TX_FRAMES (c n : Nat) : Nat := 0x231001 + c * 256 + n
/-- 0x2321 to 0x2327, :01 to :44: Valid frames received, class c = index − 0x2320 -/
def LNK_RX_FRAMES (c n : Nat) : Nat := 0x232001 + c * 256 + n
/-- 0x2331 to 0x2337, :01 to :44: Frames dropped for queue room or lane loss, class c = index − 0x2330 -/
def LNK_TX_DROP (c n : Nat) : Nat := 0x233001 + c * 256 + n

/- Table 5.16 -/
/-- 0x2400:01 to 0x2400:40: State of the piste on Dk (R174); node -/
def LNK_PISTE_STATE (n : Nat) : Nat := 0x240001 + n
/-- 0x2410:01 to 0x2410:40: CELLS_BEHIND received on Dk; node -/
def LNK_PISTE_REACH (n : Nat) : Nat := 0x241001 + n
/-- 0x2420:01 to 0x2420:40: ORIGIN_HOPS received on Dk; 31 unknown; node -/
def LNK_PISTE_FAR_LEN (n : Nat) : Nat := 0x242001 + n
/-- 0x2430:01: ORIGIN_HOPS received on U0; 31 unknown; cell -/
def LNK_CELL_POS_A : Nat := 0x243001
/-- 0x2430:02: ORIGIN_HOPS received on U1; 31 unknown; cell -/
def LNK_CELL_HOPS_B : Nat := 0x243002

/- Table 6.10 -/
/-- 0x3000:01: Ticks since reset release -/
def TIM_COUNTER : Nat := 0x300001
/-- 0x3000:02: Valve time at the read -/
def TIM_VALVE_NOW : Nat := 0x300002
/-- 0x3000:03: Station time at the read; node -/
def TIM_STATION_NOW : Nat := 0x300003
/-- 0x3010:01: 0 UNLOCKED; 1 LOCKED; 2 HOLDOVER; 3 SLEWING -/
def TIM_VT_STATE : Nat := 0x301001
/-- 0x3010:02: Source lane; 0xFE master apex; 0xFF none -/
def TIM_VT_SOURCE : Nat := 0x301002
/-- 0x3010:03: Latest e of R187 [ps], saturating -/
def TIM_VT_OFFSET : Nat := 0x301003
/-- 0x3010:04: Valve INC [2^−30 ns per tick] -/
def TIM_VT_INC : Nat := 0x301004
/-- 0x3010:05: Hops from the master apex; 0xFF unknown -/
def TIM_VT_STEPS : Nat := 0x301005
/-- 0x3010:06: Lock window [ps] -/
def TIM_LOCK_WINDOW : Nat := 0x301006
/-- 0x3010:07: Largest error removed by slewing alone [ns] -/
def TIM_SLEW_WINDOW : Nat := 0x301007
/-- 0x3010:08: Phase correction limit [ppm] -/
def TIM_VT_SLEW_RATE : Nat := 0x301008
/-- 0x3010:09: Re-anchors (R188) -/
def TIM_VT_REANCHORS : Nat := 0x301009
/-- 0x3010:0A: Departures from LOCKED -/
def TIM_VT_LOCK_LOSSES : Nat := 0x30100a
/-- 0x3010:0B: Lineage A minus B [ps]; cell -/
def TIM_LINEAGE_OFFSET : Nat := 0x30100b
/-- 0x3010:0C: Lineage difference limit [ps]; cell -/
def TIM_LINEAGE_TOL : Nat := 0x30100c
/-- 0x3010:0D: Wait for a running duplicate [ms]; apex -/
def TIM_PEER_WAIT : Nat := 0x30100d
/-- 0x3010:0E: 0 follower; 1 master apex; 2 secondary apex -/
def TIM_VT_ROLE : Nat := 0x30100e
/-- 0x3010:0F: Steer valve rate to station rate (R197); apex -/
def TIM_VT_SYNTONISE : Nat := 0x30100f
/-- 0x3010:10: Duplicate's SYNC offset on P0 or P1 [ps]; node -/
def TIM_PEER_OFFSET : Nat := 0x301010
/-- 0x3010:11: PSEQ of the set in force -/
def TIM_PARAM_SEQ : Nat := 0x301011
/-- 0x3010:12: Differing PARAM sets (R191); cell -/
def TIM_PARAM_CONFLICT : Nat := 0x301012

/- Table 6.11 -/
/-- 0x3200:01 to 0x3200:44: Asymmetry of lane n (R180) [ps] -/
def TIM_ASYM (n : Nat) : Nat := 0x320001 + n
/-- 0x3210:01 to 0x3210:44: Mean path delay d [ps] -/
def TIM_LANE_DELAY (n : Nat) : Nat := 0x321001 + n
/-- 0x3220:01 to 0x3220:44: Spread of the latest 64 exchanges [ps] -/
def TIM_LANE_SPREAD (n : Nat) : Nat := 0x322001 + n
/-- 0x3230:01 to 0x3230:44: Own rate relative to partner, minus 1 [ppb] -/
def TIM_LANE_RATIO (n : Nat) : Nat := 0x323001 + n

/- Table 6.12 -/
/-- 0x3020:01: 0 INCREMENT; 1 STEP_THEN_SLEW; apex -/
def TIM_ST_MODE : Nat := 0x302001
/-- 0x3020:02: 0 FREERUN; 1 ACQUIRING; 2 LOCKED; 3 SLEWING; 4 HOLDOVER -/
def TIM_ST_STATE : Nat := 0x302002
/-- 0x3020:03: Bits of R194 -/
def TIM_ST_QUALITY : Nat := 0x302003
/-- 0x3020:04: Station INC; written in INCREMENT only; apex -/
def TIM_ST_INC : Nat := 0x302004
/-- 0x3020:05: Step [ns]; INCREMENT only; apex -/
def TIM_ST_ADJUST : Nat := 0x302005
/-- 0x3020:06: Latest e [ns] -/
def TIM_ST_OFFSET : Nat := 0x302006
/-- 0x3020:07: Slew rate [ppm]; apex -/
def TIM_ST_SLEW_RATE : Nat := 0x302007
/-- 0x3020:08: Outlier limit [ns]; apex -/
def TIM_ST_OUTLIER : Nat := 0x302008
/-- 0x3020:09: Outliers confirming a jump; apex -/
def TIM_ST_CONFIRM : Nat := 0x302009
/-- 0x3020:0A: HOLDOVER before HOLD_EXPIRED [s]; apex -/
def TIM_ST_HOLD_LIMIT : Nat := 0x30200a
/-- 0x3020:0B: 1 ALLOW_STEP; 2 RESTART; 3 SET_LOCKED; 4 CLEAR_LOCKED, the last two in INCREMENT only; apex -/
def TIM_ST_CMD : Nat := 0x30200b
/-- 0x3020:0C: currentUtcOffset [s] -/
def TIM_ST_UTC_OFFSET : Nat := 0x30200c
/-- 0x3020:0D: Confirmed jumps -/
def TIM_ST_JUMPS : Nat := 0x30200d
/-- 0x3020:0E: Syncs not used -/
def TIM_ST_OUTLIERS : Nat := 0x30200e
/-- 0x3020:0F: Steps applied, saturating -/
def TIM_ST_STEPS_DONE : Nat := 0x30200f
/-- 0x3020:10: clockIdentity and portNumber of the master -/
def TIM_ST_MASTER : Nat := 0x302010

/- Table 6.13 -/
/-- 0x3030:01: domainNumber -/
def TIM_PTP_DOMAIN : Nat := 0x303001
/-- 0x3030:02: [0] port 0; [1] port 1 -/
def TIM_PTP_ENABLE : Nat := 0x303002
/-- 0x3030:03: VLAN identifier; 0xFFFF untagged -/
def TIM_PTP_VLAN : Nat := 0x303003
/-- 0x3030:04 to 0x3030:05: Peer delay of port 0, port 1 [ns] -/
def TIM_PTP_PDELAY (n : Nat) : Nat := 0x303004 + n
/-- 0x3030:06 to 0x3030:07: delayAsymmetry of port 0, port 1 [ps] -/
def TIM_PTP_ASYM (n : Nat) : Nat := 0x303006 + n
/-- 0x3030:08: announceReceiptTimeout [intervals] -/
def TIM_PTP_ANNOUNCE_TO : Nat := 0x303008
/-- 0x3030:09: Latest originTimestamp plus correction -/
def TIM_PTP_T1 : Nat := 0x303009
/-- 0x3030:0A: Station time at receipt of that Sync -/
def TIM_PTP_T2 : Nat := 0x30300a
/-- 0x3030:0B: sequenceId of that Sync -/
def TIM_PTP_SYNC_SEQ : Nat := 0x30300b

/- Table 7.11 -/
/-- 0xC000:01: 0 DUPLEX; 1 SIMPLEX -/
def RED_MODE : Nat := 0xc00001
/-- 0xC000:02: Primary side: 0 A; 1 B; apex -/
def RED_PRIMARY_SIDE : Nat := 0xc00002
/-- 0xC000:03: Consecutive mismatches that start a check -/
def RED_MISMATCH_PERIODS : Nat := 0xc00003
/-- 0xC000:04: Check window [periods] -/
def RED_CHECK_PERIODS : Nat := 0xc00004
/-- 0xC000:05: Periods from decision to K_X -/
def RED_XOVER_LEAD : Nat := 0xc00005
/-- 0xC000:06: Both fail: 0 DEMOTED; 1 OUT -/
def RED_BOTH_REACT : Nat := 0xc00006
/-- 0xC000:07: Clean compared periods to leave DEMOTED -/
def RED_RECOVER_PERIODS : Nat := 0xc00007
/-- 0xC000:08: Revert hold [ms] -/
def RED_REVERT_HOLD : Nat := 0xc00008
/-- 0xC000:09: 1: return without a command -/
def RED_REVERT_ENABLE : Nat := 0xc00009
/-- 0xC000:0A: Matching images needed for CADDY_IN_STEP -/
def RED_INSTEP_PERIODS : Nat := 0xc0000a
/-- 0xC000:0B: 1 RETURN; 2 RESTORE; 3 DEMOTE; 4 CLEAR_COUNTERS -/
def RED_CMD : Nat := 0xc0000b

/- Table 7.12 -/
/-- 0xC200 to 0xC201: Leader–follower tolerance of input i; 0.0 not compared -/
def RED_IN_TOL (n : Nat) : Nat := 0xc20001 + n / 128 * 256 + n % 128
/-- 0xC202 to 0xC203: Reference signal of input i; 0xFFFF not checked -/
def RED_CHK_REF (n : Nat) : Nat := 0xc20201 + n / 128 * 256 + n % 128
/-- 0xC204 to 0xC205: Check tolerance of input i -/
def RED_CHK_TOL (n : Nat) : Nat := 0xc20401 + n / 128 * 256 + n % 128

/- Table 7.13 -/
/-- 0xC100:01 to 0xC100:20: Caddy entries -/
def RED_CADDY_LIST (n : Nat) : Nat := 0xc10001 + n
/-- 0xC100:21: Image size [bytes] -/
def RED_CADDY_SIZE : Nat := 0xc10021
/-- 0xC100:22: 0 VALID; 1 TOO_LARGE; 2 TOO_SLOW; 3 BAD_ENTRY -/
def RED_CADDY_STATUS : Nat := 0xc10022

/- Table 7.14 -/
/-- 0xC010:01: 0 STARTING; 1 SERVICE; 2 DEMOTED; 3 RETURNING; 4 OUT -/
def RED_STATE : Nat := 0xc01001
/-- 0xC010:02: Claim in commands of the latest period -/
def RED_CLAIM : Nat := 0xc01002
/-- 0xC010:03: Duplicate's latest claim -/
def RED_PEER_CLAIM : Nat := 0xc01003
/-- 0xC010:04: Own health (R201) -/
def RED_HEALTH : Nat := 0xc01004
/-- 0xC010:05: 0 SIMPLEX; 1 LEADER; 2 FOLLOWER -/
def RED_ROLE : Nat := 0xc01005
/-- 0xC010:06: [0] a peer lane in L5; [1] DIGESTs arriving; [2] CADDY_IN_STEP -/
def RED_PEER_STATUS : Nat := 0xc01006
/-- 0xC010:07: Consecutive mismatches -/
def RED_MISMATCH_CONSEC : Nat := 0xc01007
/-- 0xC010:08: 0 IDLE; 1 WINDOW; 2 AWAITING VERDICT -/
def RED_CHECK_STATE : Nat := 0xc01008
/-- 0xC010:09: Own verdict: 0 none; 1 PASS; 2 FAIL -/
def RED_VERDICT : Nat := 0xc01009
/-- 0xC010:0A: Table 7.8 codes; 0 none; 6 kettle DEMOTE; 7 RED_CMD DEMOTE -/
def RED_LAST_DECISION : Nat := 0xc0100a
/-- 0xC010:0B: Revert hold remaining [ms] -/
def RED_REVERT_LEFT : Nat := 0xc0100b
/-- 0xC010:0C: Consecutive matching images -/
def RED_INSTEP_RUN : Nat := 0xc0100c
/-- 0xC010:0D: Bit k: downlink k differs from the duplicate -/
def RED_WIRING_DIFF : Nat := 0xc0100d
/-- 0xC010:0E: Bit n: node n reports a difference; apex -/
def RED_WIRING_NODES : Nat := 0xc0100e
/-- 0xC020:01: Parent's claim (R202); not used at the apex -/
def RED_PARENT_CLAIM : Nat := 0xc02001
/-- 0xC020:02: K_X of that claim -/
def RED_PARENT_KX : Nat := 0xc02002

/- Table 7.15 -/
/-- 0xC030:01: Mismatched periods -/
def RED_MISMATCHES : Nat := 0xc03001
/-- 0xC030:02: Duplicate DIGESTs not received in time -/
def RED_DIGEST_MISSING : Nat := 0xc03002
/-- 0xC030:03: Periods differing in D_SUM only -/
def RED_SUM_DIFF : Nat := 0xc03003
/-- 0xC030:04: Periods with differing D_REF_IN -/
def RED_UPSTREAM_DIFF : Nat := 0xc03004
/-- 0xC030:05: Evaluations on own inputs as follower -/
def RED_INPUTS_LATE : Nat := 0xc03005
/-- 0xC030:06: Evaluations with input discrepancy -/
def RED_IN_DISC : Nat := 0xc03006
/-- 0xC030:07: Images discarded as late -/
def RED_CADDY_LATE : Nat := 0xc03007
/-- 0xC030:08: Images discarded for size -/
def RED_CADDY_REJECT : Nat := 0xc03008
/-- 0xC030:09: Check decisions -/
def RED_CHECKS : Nat := 0xc03009
/-- 0xC030:0A: Checks decided without the duplicate's verdict -/
def RED_CHECK_INCOMPLETE : Nat := 0xc0300a
/-- 0xC030:0B: Entries to DEMOTED or OUT -/
def RED_DEMOTIONS : Nat := 0xc0300b
/-- 0xC030:0C: Returns from RETURNING to SERVICE -/
def RED_RETURNS : Nat := 0xc0300c
/-- 0xC030:0D: Parent notices applied one period late -/
def RED_NOTICE_LATE : Nat := 0xc0300d

/- Table 7.16 -/
/-- 0xC800:01: Stream of the latest accepted command: 0 A; 1 B; 0xFF none -/
def RED_OBEYED : Nat := 0xc80001
/-- 0xC800:02: Claim in force on stream A; 0 when none -/
def RED_CELL_CLAIM_A : Nat := 0xc80002
/-- 0xC800:03: Claim in force on stream B; 0 when none -/
def RED_CELL_CLAIM_B : Nat := 0xc80003
/-- 0xC800:04: Late periods with an outranked candidate (R206) -/
def RED_OUTRANKED : Nat := 0xc80004
/-- 0xC800:05: Changes of obeyed stream -/
def RED_STREAM_CHANGES : Nat := 0xc80005

/- Table 8.9 -/
/-- 0x7000:01: 1 CALIBRATE (R240); 2 CLEAR_COUNTERS -/
def ADC_CMD : Nat := 0x700001
/-- 0x7000:02: 0 OFF; 1 CALIBRATING; 2 READY -/
def ADC_STATE : Nat := 0x700002
/-- 0x7000:03: 0 IDLE; 1 RUNNING; 2 NO_SPARE -/
def ADC_CAL_STATE : Nat := 0x700003
/-- 0x7000:04: Physical slice of logical slices 0 to 3 in [2:0], [6:4], [10:8], [14:12]; spare in [18:16]; 7 none -/
def ADC_SLICE_MAP : Nat := 0x700004
/-- 0x7000:05: Bit p: physical slice p mapped out -/
def ADC_SLICE_OUT : Nat := 0x700005
/-- 0x7000:06: Shadow conversion tolerance [LSB] -/
def ADC_SWAP_TOL : Nat := 0x700006
/-- 0x7000:07: Open-wire test interval [ms] -/
def ADC_OW_INTERVAL : Nat := 0x700007
/-- 0x7000:08: Settling after the test current [µs] -/
def ADC_OW_SETTLE : Nat := 0x700008
/-- 0x7000:09: Open-wire difference [LSB] -/
def ADC_OW_THRESH : Nat := 0x700009
/-- 0x7010:01: Priority requests dropped (R233) -/
def ADC_PRIO_DROPPED : Nat := 0x701001
/-- 0x7010:02: Background swaps made -/
def ADC_SWAPS : Nat := 0x701002
/-- 0x7010:03: Swaps abandoned on tolerance -/
def ADC_SWAP_REJECT : Nat := 0x701003
/-- 0x7010:04: Swaps that waited for the spare -/
def ADC_CAL_DEFERRED : Nat := 0x701004
/-- 0x7010:05: Periods an open-wire test moved on -/
def ADC_OW_SKIPPED : Nat := 0x701005

/- Table 8.10 -/
/-- 0x7100:01 to 0x7100:10: Gain code, Table 8.1 -/
def ADC_IN_GAIN (n : Nat) : Nat := 0x710001 + n
/-- 0x7110:01 to 0x7110:10: Filter: 0 20 MHz; 1 1 MHz; 2 100 kHz -/
def ADC_IN_BW (n : Nat) : Nat := 0x711001 + n
/-- 0x7120:01 to 0x7120:10: 0 HOUSEKEEPING; 1 PROTECTION -/
def ADC_IN_CLASS (n : Nat) : Nat := 0x712001 + n
/-- 0x7130:01 to 0x7130:10: Test current: 0 off; 1 2 µA; 2 10 µA; 3 50 µA -/
def ADC_IN_OW (n : Nat) : Nat := 0x713001 + n
/-- 0x7140:01 to 0x7140:10: [0] OPEN; [1] SETTLING; [2] below CMP_LO; [3] above CMP_HI -/
def ADC_IN_STATUS (n : Nat) : Nat := 0x714001 + n
/-- 0x7150:01 to 0x7150:10: Upper comparator threshold [LSB] -/
def ADC_IN_CMP_HI (n : Nat) : Nat := 0x715001 + n
/-- 0x7160:01 to 0x7160:10: Lower comparator threshold [LSB] -/
def ADC_IN_CMP_LO (n : Nat) : Nat := 0x716001 + n
/-- 0x7170:01 to 0x7170:10: Comparator filter [ticks] -/
def ADC_IN_CMP_FILT (n : Nat) : Nat := 0x717001 + n

/- Table 8.11 -/
/-- 0x7200+s:01: Trigger (R229) -/
def ADC_SEQ_TRIG (s : Nat) : Nat := 0x720001 + s * 256
/-- 0x7200+s:02: Entries in a run -/
def ADC_SEQ_LEN (s : Nat) : Nat := 0x720002 + s * 256
/-- 0x7200+s:03: TIMER interval [ticks] -/
def ADC_SEQ_TIMER (s : Nat) : Nat := 0x720003 + s * 256
/-- 0x7200+s:04: Logical slice mask -/
def ADC_SEQ_SLICES (s : Nat) : Nat := 0x720004 + s * 256
/-- 0x7200+s:05: 1 START; 2 STOP -/
def ADC_SEQ_CMD (s : Nat) : Nat := 0x720005 + s * 256
/-- 0x7200+s:06: 0 IDLE; 1 RUNNING; 2 PENDING -/
def ADC_SEQ_STATE (s : Nat) : Nat := 0x720006 + s * 256
/-- 0x7200+s:07: Runs completed, wrapping -/
def ADC_SEQ_RUNS (s : Nat) : Nat := 0x720007 + s * 256
/-- 0x7200+s:08: P_MARK runs cut short (R230) -/
def ADC_SEQ_OVERRUN (s : Nat) : Nat := 0x720008 + s * 256
/-- 0x7200+s:09: Triggers dropped (R230) -/
def ADC_SEQ_TRIG_LOST (s : Nat) : Nat := 0x720009 + s * 256
/-- 0x7200+s:0A: Valve-time sample instant of entry 0 in the latest completed run -/
def ADC_SEQ_STAMP (s : Nat) : Nat := 0x72000a + s * 256
/-- 0x7200+s:0B: Period number of that run; P_MARK only -/
def ADC_SEQ_PERIOD (s : Nat) : Nat := 0x72000b + s * 256

/- Table 8.12 -/
/-- 0x7300+s:01 to 0x7300+s:40: Entry e = sub-index − 1 -/
def ADC_SEQ_ENTRY (s n : Nat) : Nat := 0x730001 + s * 256 + n
/-- 0x7400+s:01 to 0x7400+s:40: Result of entry e; MISSED and BAD until first converted -/
def ADC_RESULT (s n : Nat) : Nat := 0x740001 + s * 256 + n

/- Table 8.13 -/
/-- 0x7020:01: Convert this input once (R233) -/
def ADC_PRIO_REQ : Nat := 0x702001
/-- 0x7020:02: Latest priority result -/
def ADC_PRIO_RESULT : Nat := 0x702002
/-- 0x7020:03: Its sample instant in valve time -/
def ADC_PRIO_STAMP : Nat := 0x702003
/-- 0x7030:01: Input interleaved on slices 0 and 1 -/
def ADC_PAIR0 : Nat := 0x703001
/-- 0x7030:02: Input interleaved on slices 2 and 3 -/
def ADC_PAIR1 : Nat := 0x703002
/-- 0x7030:03: Latest sample of pair 0 -/
def ADC_PAIR0_RESULT : Nat := 0x703003
/-- 0x7030:04: Latest sample of pair 1 -/
def ADC_PAIR1_RESULT : Nat := 0x703004

/- Table 9.5 -/
/-- 0x8000:01: 1 ARM; 2 STOP; 3 FORCE; 4 CLEAR_COUNTERS -/
def ACQ_CMD : Nat := 0x800001
/-- 0x8000:02: 0 IDLE; 1 ARMING; 2 ARMED; 3 TRIGGERED; 4 STOPPED; 5 FULL -/
def ACQ_STATE : Nat := 0x800002
/-- 0x8000:03: 0 SINGLE; 1 REPEAT -/
def ACQ_MODE : Nat := 0x800003
/-- 0x8000:04: Row interval [ticks]; 0 one row per period -/
def ACQ_INTERVAL : Nat := 0x800004
/-- 0x8000:05: Pre-trigger rows -/
def ACQ_PRE : Nat := 0x800005
/-- 0x8000:06: Post-trigger rows -/
def ACQ_POST : Nat := 0x800006
/-- 0x8000:07: 1: later triggers extend the record (R256) -/
def ACQ_EXTEND : Nat := 0x800007
/-- 0x8000:08: Enabled sources (R257) -/
def ACQ_TRIG_EN : Nat := 0x800008
/-- 0x8000:09: R251 -/
def ACQ_CFG_STATUS : Nat := 0x800009
/-- 0x8000:0A: Bytes per row (R249) -/
def ACQ_ROW_BYTES : Nat := 0x80000a
/-- 0x8000:0B: Rows per slot ring -/
def ACQ_ROW_CAP : Nat := 0x80000b
/-- 0x8000:0C: REC_ID of the latest record begun -/
def ACQ_REC_ID : Nat := 0x80000c
/-- 0x8010:01: 0 on-chip SRAM; 1 LPDDR4X -/
def ACQ_MEM : Nat := 0x801001
/-- 0x8010:02: LPDDR4X area [MiB]; refused beyond the fitted device -/
def ACQ_AREA : Nat := 0x801002
/-- 0x8010:03: Slots -/
def ACQ_SLOTS : Nat := 0x801003
/-- 0x8010:04: Slot size [bytes] -/
def ACQ_SLOT_BYTES : Nat := 0x801004
/-- 0x8010:05: 1: arming reuses the oldest DONE slot -/
def ACQ_OVERWRITE : Nat := 0x801005
/-- 0x8010:06: Window base in LPDDR4X [64 KiB] -/
def ACQ_DDR_WINDOW : Nat := 0x801006
/-- 0x8600:01 to 0x8600:40: 0 FREE; 1 FILLING; 2 DONE; 3 LOCKED -/
def ACQ_SLOT_STATE (n : Nat) : Nat := 0x860001 + n
/-- 0x8610:01 to 0x8610:40: REC_ID in slot s; 0 none -/
def ACQ_SLOT_REC (n : Nat) : Nat := 0x861001 + n
/-- 0x8620:01: Lock slot s (R253) -/
def ACQ_REC_LOCK : Nat := 0x862001
/-- 0x8620:02: Release slot s -/
def ACQ_REC_RELEASE : Nat := 0x862002
/-- 0x8020:01: Records completed -/
def ACQ_RECORDS : Nat := 0x802001
/-- 0x8020:02: Triggers taken by no record -/
def ACQ_TRIG_LOST : Nat := 0x802002
/-- 0x8020:03: Triggers during TRIGGERED -/
def ACQ_TRIG_MARKED : Nat := 0x802003
/-- 0x8020:04: Records lost to overwrite -/
def ACQ_OVERWRITTEN : Nat := 0x802004
/-- 0x8020:05: XTRIG originated -/
def ACQ_XT_SENT : Nat := 0x802005
/-- 0x8020:06: XTRIG accepted -/
def ACQ_XT_RECEIVED : Nat := 0x802006
/-- 0x8020:07: Instants older than the ring -/
def ACQ_XT_EARLY : Nat := 0x802007
/-- 0x8020:08: XTRIG withheld by hold-off -/
def ACQ_XT_SUPPRESSED : Nat := 0x802008
/-- 0x8020:09: Largest XTRIG arrival delay [ns] -/
def ACQ_XT_MAX_AGE : Nat := 0x802009

/- Table 9.6 -/
/-- 0x8100:01 to 0x8100:20: Source -/
def ACQ_ACH_SRC (n : Nat) : Nat := 0x810001 + n
/-- 0x8110:01 to 0x8110:20: 0 PLAIN; 1 MINMAX -/
def ACQ_ACH_MODE (n : Nat) : Nat := 0x811001 + n
/-- 0x8120:01 to 0x8120:20: Scale to engineering units -/
def ACQ_ACH_SCALE (n : Nat) : Nat := 0x812001 + n
/-- 0x8130:01 to 0x8130:20: Offset in engineering units -/
def ACQ_ACH_OFFSET (n : Nat) : Nat := 0x813001 + n
/-- 0x8140:01 to 0x8140:20: Unit text -/
def ACQ_ACH_UNIT (n : Nat) : Nat := 0x814001 + n
/-- 0x8150:01 to 0x8150:20: Channel name -/
def ACQ_ACH_NAME (n : Nat) : Nat := 0x815001 + n

/- Table 9.7 -/
/-- 0x8200:01 to 0x8200:40: Source -/
def ACQ_DCH_SRC (n : Nat) : Nat := 0x820001 + n
/-- 0x8210:01 to 0x8210:40: Channel name -/
def ACQ_DCH_NAME (n : Nat) : Nat := 0x821001 + n

/- Table 9.8 -/
/-- 0x8300+u:01: Analogue channel watched -/
def ACQ_LVL_CH (u : Nat) : Nat := 0x830001 + u * 256
/-- 0x8300+u:02: θ, in codes or law units -/
def ACQ_LVL_THRESH (u : Nat) : Nat := 0x830002 + u * 256
/-- 0x8300+u:03: h -/
def ACQ_LVL_HYST (u : Nat) : Nat := 0x830003 + u * 256
/-- 0x8300+u:04: 0 rising; 1 falling; 2 either -/
def ACQ_LVL_EDGE (u : Nat) : Nat := 0x830004 + u * 256
/-- 0x8400:01: Pattern value -/
def ACQ_PAT_VALUE : Nat := 0x840001
/-- 0x8400:02: Bit set: compared -/
def ACQ_PAT_CARE : Nat := 0x840002
/-- 0x8400:03: 0 ENTRY; 1 PRESENT -/
def ACQ_PAT_MODE : Nat := 0x840003
/-- 0x8500:01: Local sources that originate XTRIG -/
def ACQ_XT_SEND : Nat := 0x850001
/-- 0x8500:02: Least time between XTRIG sent [ms] -/
def ACQ_XT_HOLDOFF : Nat := 0x850002

/- Table 10.10 -/
/-- 0x9000:01: 2 CLEAR_COUNTERS -/
def KET_CMD : Nat := 0x900001
/-- 0x9000:02: Clear sources -/
def KET_CLEAR : Nat := 0x900002
/-- 0x9000:03: Sources latched -/
def KET_LATCHED_N : Nat := 0x900003
/-- 0x9000:04: 1: FAULT_N low -/
def KET_FAULTN : Nat := 0x900004
/-- 0x9000:05: Tokens per source -/
def KET_BURST : Nat := 0x900005
/-- 0x9000:06: Token refill [ms] -/
def KET_REFILL : Nat := 0x900006
/-- 0x9000:07: Least time between EVENTS frames [µs] -/
def KET_TX_GAP : Nat := 0x900007
/-- 0x9000:08: Entries queued -/
def KET_Q_FILL : Nat := 0x900008
/-- 0x9000:09: Greatest fill since CLEAR_COUNTERS -/
def KET_Q_PEAK : Nat := 0x900009
/-- 0x9000:0A: Sources left latched by a clear -/
def KET_CLEAR_REFUSED : Nat := 0x90000a
/-- 0x9000:0B: Broken paths (R268) -/
def KET_PATH_BROKEN : Nat := 0x90000b
/-- 0x9000:0C: EVENTS frames missing (R281); apex -/
def KET_RX_GAP : Nat := 0x90000c
/-- 0x9000:0D: Oldest entry; apex -/
def KET_Q_HEAD : Nat := 0x90000d
/-- 0x9000:0E: Remove the oldest entry; apex -/
def KET_Q_POP : Nat := 0x90000e

/- Table 10.11 -/
/-- 0x9100 to 0x9101: [0] LIVE; [1] LATCHED; [2] PATH; [3] ESCALATED; [4] SUPPRESSING -/
def KET_SRC_STATUS (n : Nat) : Nat := 0x910001 + n / 128 * 256 + n % 128
/-- 0x9102 to 0x9103: Rises since reset or CLEAR_COUNTERS -/
def KET_SRC_COUNT (n : Nat) : Nat := 0x910201 + n / 128 * 256 + n % 128
/-- 0x9104 to 0x9105: First rise since clear -/
def KET_SRC_FIRST (n : Nat) : Nat := 0x910401 + n / 128 * 256 + n % 128
/-- 0x9106 to 0x9107: Latest rise -/
def KET_SRC_LAST (n : Nat) : Nat := 0x910601 + n / 128 * 256 + n % 128
/-- 0x9108 to 0x9109: Events lost to the bucket -/
def KET_SRC_SUPPRESSED (n : Nat) : Nat := 0x910801 + n / 128 * 256 + n % 128
/-- 0x910A to 0x910B: Rises since clear -/
def KET_SRC_RISES (n : Nat) : Nat := 0x910a01 + n / 128 * 256 + n % 128
/-- 0x9110 to 0x9111: Reactions -/
def KET_REACT (n : Nat) : Nat := 0x911001 + n / 128 * 256 + n % 128
/-- 0x9112 to 0x9113: Escalation time [ms]; 0 off -/
def KET_ESC_TIME (n : Nat) : Nat := 0x911201 + n / 128 * 256 + n % 128
/-- 0x9114 to 0x9115: Escalation count; 0 off -/
def KET_ESC_COUNT (n : Nat) : Nat := 0x911401 + n / 128 * 256 + n % 128
/-- 0x9116 to 0x9117: Reactions added at escalation -/
def KET_ESC_REACT (n : Nat) : Nat := 0x911601 + n / 128 * 256 + n % 128

/- Table 10.12 -/
/-- 0x9200:01 to 0x9200:0D: Events lost to buckets -/
def KET_CLASS_SUPPRESSED (n : Nat) : Nat := 0x920001 + n
/-- 0x9210:01 to 0x9210:0D: Events lost to a full queue -/
def KET_CLASS_DROPPED (n : Nat) : Nat := 0x921001 + n
/-- 0x9220:01 to 0x9220:0D: Events queued -/
def KET_CLASS_LOGGED (n : Nat) : Nat := 0x922001 + n

/- Table 10.13 -/
/-- 0x9800:01: 1 COMMISSION; 2 CONFIRM; 3 ABORT; 4 RELEASE; 5 RESET_FN, function in [15:8] -/
def SAF_CMD : Nat := 0x980001
/-- 0x9800:02: R285 -/
def SAF_STATE : Nat := 0x980002
/-- 0x9800:03: Check value of the live set -/
def SAF_CHECK_COMPUTED : Nat := 0x980003
/-- 0x9800:04: Value for CONFIRM; COMMISSIONING only -/
def SAF_CHECK_CONFIRM : Nat := 0x980004
/-- 0x9800:05: Confirmed check value -/
def SAF_CHECK_STORED : Nat := 0x980005
/-- 0x9800:06: Degraded timer [ms] -/
def SAF_DEGRADED_LEFT : Nat := 0x980006
/-- 0x9800:07: Cause of the latest safe block -/
def SAF_BLOCK_CAUSE : Nat := 0x980007
/-- 0x9800:08: Bit n: node n prevents deblock (R290); apex -/
def SAF_BLOCK_NODES : Nat := 0x980008
/-- 0x9800:09: Function states -/
def SAF_FN_STATE : Nat := 0x980009
/-- 0x9800:0A: Confirmations -/
def SAF_CONFIRMS : Nat := 0x98000a
/-- 0x9800:0B: CONFIRM refused -/
def SAF_CONFIRM_FAIL : Nat := 0x98000b
/-- 0x9810:01 to 0x9810:08: Function f = sub-index − 1 -/
def SAF_FN_CFG (n : Nat) : Nat := 0x981001 + n
/-- 0x9820:01 to 0x9820:08: Discrepancy time [ms] -/
def SAF_DISC_TIME (n : Nat) : Nat := 0x982001 + n
/-- 0x9830:01: Degraded mode limit [ms] -/
def SAF_DEGRADED_TIME : Nat := 0x983001
/-- 0x9830:02: SAFE_STATUS absence [ms] -/
def SAF_PEER_TIMEOUT : Nat := 0x983002
/-- 0x9830:03: Bit i: DOi driven on URGENT_TRIP -/
def SAF_TRIP_DO : Nat := 0x983003
/-- 0x9830:04: Bit i: trip level of DOi -/
def SAF_TRIP_LEVEL : Nat := 0x983004
/-- 0x9830:05: Identifier of the safety set -/
def SAF_SET_ID : Nat := 0x983005

/- Table 11.7 -/
/-- 0xA000:01: Dispatcher tick [2.5 ns ticks] (R307) -/
def TSK_TICK : Nat := 0xa00001
/-- 0xA000:02: [15:8] task; [7:0] 1 ENABLE, 2 DISABLE, 3 SIGNAL, 4 CLEAR_COUNTERS -/
def TSK_CMD : Nat := 0xa00002
/-- 0xA000:03: On-deck look-ahead [ticks] (R306) -/
def TSK_PREFETCH : Nat := 0xa00003
/-- 0xA000:04: Physical core of logical core c in [4c+3:4c]; 0xF none -/
def TSK_CORE_MAP : Nat := 0xa00004
/-- 0xA000:05: Spare physical core; 0xF none -/
def TSK_SPARE : Nat := 0xa00005
/-- 0xA000:06: Tasks READY or ON_DECK -/
def TSK_READY_N : Nat := 0xa00006
/-- 0xA000:08: Commit pool entries not allotted -/
def TSK_COMMIT_FREE : Nat := 0xa00008
/-- 0xA010:01 to 0xA010:08: Task running on core c; 0xFFFF none -/
def TSK_CORE_TASK (n : Nat) : Nat := 0xa01001 + n
/-- 0xA020:01 to 0xA020:08: Task on deck of core c -/
def TSK_CORE_ONDECK (n : Nat) : Nat := 0xa02001 + n
/-- 0xA030:01 to 0xA030:08: Dispatches from the own slot -/
def TSK_ONDECK_HITS (n : Nat) : Nat := 0xa03001 + n
/-- 0xA040:01 to 0xA040:08: Other dispatches -/
def TSK_ONDECK_MISSES (n : Nat) : Nat := 0xa04001 + n
/-- 0xA050:01 to 0xA050:08: CORE cycles with a task running -/
def TSK_CORE_BUSY (n : Nat) : Nat := 0xa05001 + n

/- Table 11.8 -/
/-- 0xA100 to 0xA101: Entry address -/
def TSK_ENTRY (n : Nat) : Nat := 0xa10001 + n / 128 * 256 + n % 128
/-- 0xA102 to 0xA103: Initial stack pointer -/
def TSK_STACK (n : Nat) : Nat := 0xa10201 + n / 128 * 256 + n % 128
/-- 0xA104 to 0xA105: Priority; 0 highest -/
def TSK_PRIO (n : Nat) : Nat := 0xa10401 + n / 128 * 256 + n % 128
/-- 0xA106 to 0xA107: Bit c: core c allowed -/
def TSK_AFFINITY (n : Nat) : Nat := 0xa10601 + n / 128 * 256 + n % 128
/-- 0xA108 to 0xA109: 0 NONE; 1 PERIOD; 2 TICK; 3 EVENT -/
def TSK_KIND (n : Nat) : Nat := 0xa10801 + n / 128 * 256 + n % 128
/-- 0xA10A to 0xA10B: Periods per release -/
def TSK_DIV (n : Nat) : Nat := 0xa10a01 + n / 128 * 256 + n % 128
/-- 0xA10C to 0xA10D: Period phase -/
def TSK_PHASE (n : Nat) : Nat := 0xa10c01 + n / 128 * 256 + n % 128
/-- 0xA10E to 0xA10F: Release after P-mark [ticks] -/
def TSK_OFFSET (n : Nat) : Nat := 0xa10e01 + n / 128 * 256 + n % 128
/-- 0xA110 to 0xA111: TICK interval [dispatcher ticks] -/
def TSK_INTERVAL (n : Nat) : Nat := 0xa11001 + n / 128 * 256 + n % 128
/-- 0xA112 to 0xA113: Event source, Table 11.4 -/
def TSK_EVENT (n : Nat) : Nat := 0xa11201 + n / 128 * 256 + n % 128
/-- 0xA114 to 0xA115: Deadline after release [ticks]; 0 as R308 -/
def TSK_DEADLINE (n : Nat) : Nat := 0xa11401 + n / 128 * 256 + n % 128
/-- 0xA116 to 0xA117: Commit buffer entries -/
def TSK_COMMIT_MAX (n : Nat) : Nat := 0xa11601 + n / 128 * 256 + n % 128
/-- 0xA118 to 0xA119: [3:0] 0 DORMANT, 1 IDLE, 2 READY, 3 ON_DECK, 4 RUNNING, 5 DELAYED; [7] PENDING -/
def TSK_STATE (n : Nat) : Nat := 0xa11801 + n / 128 * 256 + n % 128
/-- 0xA11A to 0xA11B: Core of the latest dispatch; 0xFF none -/
def TSK_LAST_CORE (n : Nat) : Nat := 0xa11a01 + n / 128 * 256 + n % 128
/-- 0xA11C to 0xA11D: Releases -/
def TSK_RELEASES (n : Nat) : Nat := 0xa11c01 + n / 128 * 256 + n % 128
/-- 0xA11E to 0xA11F: Deadline aborts -/
def TSK_OVERRUNS (n : Nat) : Nat := 0xa11e01 + n / 128 * 256 + n % 128
/-- 0xA120 to 0xA121: Aborts under R299 -/
def TSK_FAULTS (n : Nat) : Nat := 0xa12001 + n / 128 * 256 + n % 128
/-- 0xA122 to 0xA123: Event releases lost (R304) -/
def TSK_RELEASE_LOST (n : Nat) : Nat := 0xa12201 + n / 128 * 256 + n % 128
/-- 0xA124 to 0xA125: Commit buffers discarded -/
def TSK_COMMIT_DROPPED (n : Nat) : Nat := 0xa12401 + n / 128 * 256 + n % 128
/-- 0xA126 to 0xA127: Commit entries skipped (R310) -/
def TSK_COMMIT_ERR (n : Nat) : Nat := 0xa12601 + n / 128 * 256 + n % 128
/-- 0xA128 to 0xA129: Greatest release-to-DONE time [ns] -/
def TSK_RESP_MAX (n : Nat) : Nat := 0xa12801 + n / 128 * 256 + n % 128
/-- 0xA12A to 0xA12B: Latest abort: 0 none; 1 DEADLINE; 2 FAULT; 3 COMMIT_OVF; 4 CORE_LOST; 5 DISABLE -/
def TSK_LAST_CAUSE (n : Nat) : Nat := 0xa12a01 + n / 128 * 256 + n % 128

/- Table 12.8 -/
/-- 0xA800+c:01: 1 START; 2 PAUSE; 3 RESUME; 4 SKIP; 5 ABORT -/
def DMA_CMD (c : Nat) : Nat := 0xa80001 + c * 256
/-- 0xA800+c:02: First descriptor of the chain -/
def DMA_DESC_HEAD (c : Nat) : Nat := 0xa80002 + c * 256
/-- 0xA800+c:03: Arbitration priority (R315) -/
def DMA_PRIO (c : Nat) : Nat := 0xa80003 + c * 256
/-- 0xA800+c:04: 0 IDLE; 1 RUNNING; 2 PAUSED; 3 ERROR -/
def DMA_STATE (c : Nat) : Nat := 0xa80004 + c * 256
/-- 0xA800+c:05: Descriptor in progress -/
def DMA_CUR_DESC (c : Nat) : Nat := 0xa80005 + c * 256
/-- 0xA800+c:06: Stream bytes done in that descriptor -/
def DMA_CUR_OFFSET (c : Nat) : Nat := 0xa80006 + c * 256
/-- 0xA800+c:07: Table 12.5 -/
def DMA_ERR_CODE (c : Nat) : Nat := 0xa80007 + c * 256
/-- 0xA800+c:08: Descriptor of the latest error -/
def DMA_ERR_DESC (c : Nat) : Nat := 0xa80008 + c * 256
/-- 0xA800+c:09: Stream offset of the failing burst -/
def DMA_ERR_OFFSET (c : Nat) : Nat := 0xa80009 + c * 256
/-- 0xA800+c:0A: Differing bytes of the latest COMPARE -/
def DMA_CMP_MISMATCH (c : Nat) : Nat := 0xa8000a + c * 256
/-- 0xA800+c:0B: First differing offset; 0xFFFF_FFFF none -/
def DMA_CMP_FIRST (c : Nat) : Nat := 0xa8000b + c * 256
/-- 0xA800+c:0C: Descriptors completed -/
def DMA_DONE_COUNT (c : Nat) : Nat := 0xa8000c + c * 256
/-- 0xA800+c:0D: Bytes moved or compared -/
def DMA_BYTES (c : Nat) : Nat := 0xa8000d + c * 256
/-- 0xA800+c:0E: Entries to ERROR -/
def DMA_ERRORS (c : Nat) : Nat := 0xa8000e + c * 256

/- Table 12.9 -/
/-- 0xA880:01: 1 CLEAR_COUNTERS -/
def DMA_GCMD : Nat := 0xa88001
/-- 0xA880:02: Wait for a descriptor before a power-down [µs] (R324) -/
def DMA_PD_WAIT : Nat := 0xa88002
/-- 0xA880:03: Bit c: channel c RUNNING or PAUSED -/
def DMA_ACTIVE : Nat := 0xa88003

/- Table 13.7 -/
/-- 0xB000:01: 0 DOWN; 1 UP (R331) -/
def FIO_LINK_STATE : Nat := 0xb00001
/-- 0xB000:02: 1: link DOWN raises FIELD_LINK -/
def FIO_EXPECT : Nat := 0xb00002
/-- 0xB000:03: Bad MAIN frames to DOWN -/
def FIO_LINK_MISS : Nat := 0xb00003
/-- 0xB000:04: Logic-silence timeout [0.1 ms] -/
def FIO_SILENCE : Nat := 0xb00004
/-- 0xB000:05: S(n) − F(n) [ps] -/
def FIO_LINK_DELAY : Nat := 0xb00005
/-- 0xB000:06: Bad up frames -/
def FIO_FRAMES_BAD : Nat := 0xb00006
/-- 0xB000:07: Entries to DOWN -/
def FIO_LINK_DOWNS : Nat := 0xb00007
/-- 0xB000:08: PARAM_CRC differences (R332) -/
def FIO_PARAM_MISMATCH : Nat := 0xb00008
/-- 0xB000:09: Latest SILENCE item -/
def FIO_SILENCE_ENTRIES : Nat := 0xb00009
/-- 0xB000:0A: [0] LOW; [1] MISSING; [2] REVERSE -/
def FIO_SUPPLY : Nat := 0xb0000a
/-- 0xB000:0B: L+ [mV] -/
def FIO_SUPPLY_MV : Nat := 0xb0000b
/-- 0xB000:0C: Island temperature [0.0625 °C] -/
def FIO_TEMP : Nat := 0xb0000c
/-- 0xB000:0D: 1 CLEAR_FAULTS; 2 CLEAR_COUNTERS -/
def FIO_CMD : Nat := 0xb0000d
/-- 0xB000:0E: Die-side input states (R336) -/
def FIO_DI : Nat := 0xb0000e
/-- 0xB000:10: Levels of OBJECT-owned outputs -/
def FIO_DO_SET : Nat := 0xb00010
/-- 0xB000:11: Levels at the balls -/
def FIO_DO_STATE : Nat := 0xb00011
/-- 0xB000:12: Bit p: DO2p and DO2p+1 paralleled -/
def FIO_DO_PAIR : Nat := 0xb00012
/-- 0xB000:13: Safe-state levels -/
def FIO_SAFE_LEVEL : Nat := 0xb00013
/-- 0xB000:14: SHORT off-time [ms] -/
def FIO_DO_RETRY : Nat := 0xb00014
/-- 0xB010:01 to 0xB010:10: Strainer time [µs] -/
def FIO_DI_DEBOUNCE (n : Nat) : Nat := 0xb01001 + n
/-- 0xB020:01 to 0xB020:10: IEC 61131-2 type -/
def FIO_DI_TYPE (n : Nat) : Nat := 0xb02001 + n
/-- 0xB030:01 to 0xB030:10: Invert strainer output -/
def FIO_DI_INVERT (n : Nat) : Nat := 0xb03001 + n
/-- 0xB050:01 to 0xB050:08: 0 OBJECT; 1 LAW -/
def FIO_DO_OWNER (n : Nat) : Nat := 0xb05001 + n
/-- 0xB060:01 to 0xB060:08: Open-load detection -/
def FIO_DO_OPENLOAD (n : Nat) : Nat := 0xb06001 + n
/-- 0xB070:01 to 0xB070:08: [0] SHORT; [1] OPEN; [2] OVERTEMP -/
def FIO_DO_DIAG (n : Nat) : Nat := 0xb07001 + n
/-- 0xB080:01 to 0xB080:08: SHORT switch-offs -/
def FIO_DO_TRIPS (n : Nat) : Nat := 0xb08001 + n

/- Table 13.8 -/
/-- 0xB100+e:01: 0 OFF; 1 TTL; 2 HTL -/
def POS_ENC_MODE (e : Nat) : Nat := 0xb10001 + e * 256
/-- 0xB100+e:02: N [island clocks] -/
def POS_ENC_FILTER (e : Nat) : Nat := 0xb10002 + e * 256
/-- 0xB100+e:03: Reverse count sign -/
def POS_ENC_DIR (e : Nat) : Nat := 0xb10003 + e * 256
/-- 0xB100+e:04: 0 IGNORE; 1 LATCH; 2 HOME -/
def POS_Z_MODE (e : Nat) : Nat := 0xb10004 + e * 256
/-- 0xB100+e:05: Speed window [µs] -/
def POS_SPEED_WIN (e : Nat) : Nat := 0xb10005 + e * 256
/-- 0xB100+e:06: Standstill time [µs] -/
def POS_STANDSTILL (e : Nat) : Nat := 0xb10006 + e * 256
/-- 0xB100+e:07: 1 CLEAR_ERR; 2 ARM_Z -/
def POS_CMD (e : Nat) : Nat := 0xb10007 + e * 256
/-- 0xB100+e:08: Count, wrapping -/
def POS_COUNT (e : Nat) : Nat := 0xb10008 + e * 256
/-- 0xB100+e:09: Count at the latest P-mark -/
def POS_COUNT_PMARK (e : Nat) : Nat := 0xb10009 + e * 256
/-- 0xB100+e:0A: Count at the latest Z latch -/
def POS_COUNT_Z (e : Nat) : Nat := 0xb1000a + e * 256
/-- 0xB100+e:0B: Speed [counts/s] (R347) -/
def POS_SPEED (e : Nat) : Nat := 0xb1000b + e * 256
/-- 0xB100+e:0C: [0] ERR; [1] STANDSTILL; [2] REVERSED; [3] Z_ARMED -/
def POS_ENC_STATUS (e : Nat) : Nat := 0xb1000c + e * 256
/-- 0xB100+e:0D: Frames with ILL -/
def POS_ENC_ILLEGAL (e : Nat) : Nat := 0xb1000d + e * 256

/- Table 13.9 -/
/-- 0xB110:01: 0 OFF; 1 PERIOD -/
def POS_SSI_MODE : Nat := 0xb11001
/-- 0xB110:02: Data bits -/
def POS_SSI_BITS : Nat := 0xb11002
/-- 0xB110:03: Clock [kHz] -/
def POS_SSI_CLOCK : Nat := 0xb11003
/-- 0xB110:04: 0 binary; 1 Gray -/
def POS_SSI_CODE : Nat := 0xb11004
/-- 0xB110:05: Periods per transfer -/
def POS_SSI_DIV : Nat := 0xb11005
/-- 0xB110:06: Start after P-mark [ticks] -/
def POS_SSI_OFFSET : Nat := 0xb11006
/-- 0xB110:07: Recovery time [µs] -/
def POS_SSI_MONO : Nat := 0xb11007
/-- 0xB110:08: Decoded position -/
def POS_SSI_POS : Nat := 0xb11008
/-- 0xB110:09: Latch instant in valve time -/
def POS_SSI_STAMP : Nat := 0xb11009
/-- 0xB110:0A: [0] START_ERR; [1] STOP_ERR; [2] SKIPPED, of the latest transfer -/
def POS_SSI_STATUS : Nat := 0xb1100a
/-- 0xB110:0B: Transfers with an error or skipped -/
def POS_SSI_ERRORS : Nat := 0xb1100b
/-- 0xB120+p:01: 0 OFF; 1 SINGLE; 2 CONTINUOUS -/
def POS_PRB_MODE (p : Nat) : Nat := 0xb12001 + p * 256
/-- 0xB120+p:02: 0 rising; 1 falling; 2 both -/
def POS_PRB_EDGE (p : Nat) : Nat := 0xb12002 + p * 256
/-- 0xB120+p:03: Encoder latched -/
def POS_PRB_SRC (p : Nat) : Nat := 0xb12003 + p * 256
/-- 0xB120+p:04: Filter [island clocks] -/
def POS_PRB_FILTER (p : Nat) : Nat := 0xb12004 + p * 256
/-- 0xB120+p:05: Latched count -/
def POS_PRB_COUNT (p : Nat) : Nat := 0xb12005 + p * 256
/-- 0xB120+p:06: Latch instant in valve time -/
def POS_PRB_STAMP (p : Nat) : Nat := 0xb12006 + p * 256
/-- 0xB120+p:07: [0] ARMED; [1] LATCHED since last read -/
def POS_PRB_STATUS (p : Nat) : Nat := 0xb12007 + p * 256
/-- 0xB120+p:08: 1 ARM -/
def POS_PRB_CMD (p : Nat) : Nat := 0xb12008 + p * 256
/-- 0xB120+p:09: Latches received -/
def POS_PRB_LATCHES (p : Nat) : Nat := 0xb12009 + p * 256
/-- 0xB120+p:0A: Latches replaced before delivery -/
def POS_PRB_OVERRUNS (p : Nat) : Nat := 0xb1200a + p * 256
/-- 0xB130:01: 0 OFF; 1 REPEAT (R350) -/
def POS_PT_MODE : Nat := 0xb13001

/- Table 14.17 -/
/-- 0xE000:0D: Second HOSTEN device; apex -/
def TREE_APEX_CONFLICT : Nat := 0xe0000d
/-- 0xE100:01: Target of a core request; node -/
def TREE_REM_TARGET : Nat := 0xe10001
/-- 0xE100:02: [31:16] index; [15:8] sub-index; node -/
def TREE_REM_OBJECT : Nat := 0xe10002
/-- 0xE100:03: Value written or read; node -/
def TREE_REM_DATA : Nat := 0xe10003
/-- 0xE100:04: Bytes in TREE_REM_DATA; node -/
def TREE_REM_LEN : Nat := 0xe10004
/-- 0xE100:05: 1 READ; 2 WRITE; node -/
def TREE_REM_CMD : Nat := 0xe10005
/-- 0xE100:06: 0 IDLE; 1 BUSY; 2 DONE; node -/
def TREE_REM_STATE : Nat := 0xe10006
/-- 0xE100:07: Table 14.3; node -/
def TREE_REM_RESULT : Nat := 0xe10007
/-- 0xE100:08: Response wait [µs]; node -/
def TREE_REM_TIMEOUT : Nat := 0xe10008
/-- 0xE100:09: Retries (R358); node -/
def TREE_REM_RETRIES : Nat := 0xe10009
/-- 0xE100:0A: Retries sent; node -/
def TREE_REM_RETRIED : Nat := 0xe1000a
/-- 0xE100:0B: Requests ended UNREACHABLE; node -/
def TREE_REM_FAILED : Nat := 0xe1000b
/-- 0xE100:0C: Responses sent from the cache (R359) -/
def TREE_REM_CACHED : Nat := 0xe1000c

/- Table 14.18 -/
/-- 0x1000:01: Vendor -/
def SYS_VENDOR : Nat := 0x100001
/-- 0x1000:02: Part -/
def SYS_PART : Nat := 0x100002
/-- 0x1000:03: Serial number -/
def SYS_SERIAL : Nat := 0x100003
/-- 0x1000:04: Silicon revision; also IDCODE [31:28] (R427) -/
def SYS_SILICON_REV : Nat := 0x100004
/-- 0x1000:05: ROM version -/
def SYS_ROM_VERSION : Nat := 0x100005
/-- 0x1000:06: FW_VERSION of the running image -/
def SYS_FW_VERSION : Nat := 0x100006
/-- 0x1000:07: 1 RESET (R379) -/
def SYS_CMD : Nat := 0x100007
/-- 0x1010:01 to 0x1010:02: IPv4 address of port 0, port 1; apex -/
def SYS_IP_ADDR (n : Nat) : Nat := 0x101001 + n
/-- 0x1010:03 to 0x1010:04: Subnet mask of port 0, port 1; apex -/
def SYS_IP_MASK (n : Nat) : Nat := 0x101003 + n
/-- 0x1010:05: Gateway; 0 none; apex -/
def SYS_IP_GATEWAY : Nat := 0x101005
/-- 0x1010:06: JOP UDP port; apex -/
def SYS_JOP_PORT : Nat := 0x101006
/-- 0x1010:07: VLAN identifier; 0xFFFF untagged; apex -/
def SYS_VLAN : Nat := 0x101007
/-- 0x1010:08 to 0x1010:09: MAC address of port 0, port 1; apex -/
def SYS_MAC (n : Nat) : Nat := 0x101008 + n
/-- 0x1010:0A: [0] port 0 link; [1] port 1 link; apex -/
def SYS_PORT_STATUS : Nat := 0x10100a
/-- 0x1020:01: Idle time before close [s]; apex -/
def SYS_SESSION_IDLE : Nat := 0x102001
/-- 0x1020:02: Open sessions; apex -/
def SYS_SESSIONS : Nat := 0x102002
/-- 0x1020:03: Invalid TAG or signature; apex -/
def SYS_JOP_AUTH_FAIL : Nat := 0x102003
/-- 0x1020:04: Replays dropped; apex -/
def SYS_JOP_REPLAY : Nat := 0x102004
/-- 0x1020:05: Datagrams for no session; apex -/
def SYS_JOP_NO_SESSION : Nat := 0x102005
/-- 0x1020:06: Malformed datagrams; apex -/
def SYS_JOP_BAD : Nat := 0x102006
/-- 0x1020:07: Bytes of the host message; write 0 frees; apex -/
def SYS_CORE_MSG_LEN : Nat := 0x102007
/-- 0x1020:08: Bytes of the reply; apex -/
def SYS_CORE_REPLY_LEN : Nat := 0x102008
/-- 0x1030:01 to 0x1030:08: Host message, 32 bytes per sub-index; apex -/
def SYS_CORE_MSG (n : Nat) : Nat := 0x103001 + n
/-- 0x1031:01 to 0x1031:08: Reply to the host; apex -/
def SYS_CORE_REPLY (n : Nat) : Nat := 0x103101 + n

/- Table 14.19 -/
/-- 0xD000:01: 1 STORE; 2 RESTORE_DEFAULTS; 3 VERIFY; 4 ACTIVATE; 5 COMMIT; 6 DISTRIBUTE -/
def NVM_CMD : Nat := 0xd00001
/-- 0xD000:02: 0 IDLE; 1 BUSY -/
def NVM_STORE_STATE : Nat := 0xd00002
/-- 0xD000:03: [0] STORE_FAILED; [1] COPY_BAD; [2] STORE_LOST; [4] SLOT_BAD -/
def NVM_STATUS : Nat := 0xd00003
/-- 0xD000:04: Stores made in the device's life -/
def NVM_STORE_COUNT : Nat := 0xd00004
/-- 0xD000:05: Generation of the copy in force -/
def NVM_STORE_GEN : Nat := 0xd00005
/-- 0xD000:06: Entries skipped at load (R375) -/
def NVM_LOAD_SKIPPED : Nat := 0xd00006
/-- 0xD000:07: Slot running -/
def NVM_RUN_SLOT : Nat := 0xd00007
/-- 0xD000:08: Slot for the next boot -/
def NVM_BOOT_SLOT : Nat := 0xd00008
/-- 0xD000:09: 1: the next boot is a trial not yet committed -/
def NVM_TRIAL : Nat := 0xd00009
/-- 0xD000:0A: 0 NORMAL; 1 BOOTSEL; 2 TRIAL_REVERTED; 3 SLOT_INVALID -/
def NVM_BOOT_CAUSE : Nat := 0xd0000a
/-- 0xD010:01 to 0xD010:02: 0 EMPTY; 1 WRITING; 2 UNVERIFIED; 3 VALID; 4 INVALID -/
def NVM_SLOT_STATUS (n : Nat) : Nat := 0xd01001 + n
/-- 0xD010:03 to 0xD010:04: FW_VERSION in each slot -/
def NVM_SLOT_VERSION (n : Nat) : Nat := 0xd01003 + n
/-- 0xD010:05 to 0xD010:06: SVN in each slot -/
def NVM_SLOT_SVN (n : Nat) : Nat := 0xd01005 + n
/-- 0xD010:07 to 0xD010:08: 0 none; 1 FORMAT; 2 SIZE; 3 DIGEST; 4 VENDOR_SIG; 5 APP_SIG; 6 ROLLBACK -/
def NVM_SLOT_ERROR (n : Nat) : Nat := 0xd01007 + n
/-- 0xD020:01: Slot distributed (R380); node -/
def NVM_DIST_SLOT : Nat := 0xd02001
/-- 0xD020:02: 0 IDLE; 1 SENDING; 2 REPAIRING; 3 DONE; 4 FAILED; node -/
def NVM_DIST_STATE : Nat := 0xd02002
/-- 0xD020:03: Cells addressed; node -/
def NVM_DIST_CELLS : Nat := 0xd02003
/-- 0xD020:04: Cells ending VALID; node -/
def NVM_DIST_OK : Nat := 0xd02004
/-- 0xD020:05: Cells not VALID; node -/
def NVM_DIST_FAILED : Nat := 0xd02005

/- Table 14.20 -/
/-- 0xD100:01: 0 UNOWNED; 1 OWNED -/
def SEC_OWNER_STATE : Nat := 0xd10001
/-- 0xD100:02: 1 INSTALL_HOST; 2 REMOVE_HOST; 3 INSTALL_IMAGE_KEY; 4 DISOWN; [15:8] slot 0 to 7 -/
def SEC_CMD : Nat := 0xd10002
/-- 0xD100:03: Least SVN booted -/
def SEC_SVN_MIN : Nat := 0xd10003
/-- 0xD100:04: [0] AUTH_RATE; [1] ROLLBACK_REFUSED; [2] TAMPER -/
def SEC_STATUS : Nat := 0xd10004
/-- 0xD100:05: Verification failures per second before AUTH_RATE -/
def SEC_AUTH_LIMIT : Nat := 0xd10005
/-- 0xD100:06: Identity public key -/
def SEC_ID_PUBKEY : Nat := 0xd10006
/-- 0xD100:07: Key to install (R373) -/
def SEC_KEY_STAGE : Nat := 0xd10007
/-- 0xD100:08: Rights to install, Table 14.11 -/
def SEC_RIGHTS_STAGE : Nat := 0xd10008
/-- 0xD100:09: Owner image key; 0 none -/
def SEC_IMAGE_KEY : Nat := 0xd10009
/-- 0xD100:0A: Reports signed -/
def SEC_ATTEST_COUNT : Nat := 0xd1000a
/-- 0xD110:01 to 0xD110:08: Host key of slot sub − 1; 0 empty -/
def SEC_HOST_KEY (n : Nat) : Nat := 0xd11001 + n
/-- 0xD118:01 to 0xD118:08: Rights of each slot -/
def SEC_HOST_RIGHTS (n : Nat) : Nat := 0xd11801 + n

/- Table 15.7 -/
/-- 0x1100:01: Cause of the latest reset (R387) -/
def SYS_RESET_CAUSE : Nat := 0x110001
/-- 0x1100:02: Reset release to firmware start [µs] -/
def SYS_BOOT_TIME : Nat := 0x110002
/-- 0x1100:03: 0 RUN; other states leave no reader -/
def SYS_POWER_STATE : Nat := 0x110003
/-- 0x1100:04: 1 SHELF; 2 DDR_OFF; 3 DDR_ON; 4 CAPTURE_OFF; 5 CAPTURE_ON -/
def SYS_POWER_CMD : Nat := 0x110004
/-- 0x1100:05: [16:0] LANE 0 to 16; [17] DDR; [18] CAPTURE; [19] FIELD link up -/
def SYS_DOMAINS : Nat := 0x110005
/-- 0x1100:06: R388 -/
def SYS_STRAP_UNSTABLE : Nat := 0x110006
/-- 0x1100:07: 0 none; 1 NO_IMAGE; 2 MEMORY; 3 CORE (R391) -/
def SYS_RECOVERY : Nat := 0x110007
/-- 0x1100:08: WAKE_N starts the device (R404) -/
def SYS_WAKE_ARM : Nat := 0x110008
/-- 0x1100:09: Tamper entries since manufacture -/
def SYS_TAMPER_COUNT : Nat := 0x110009
/-- 0x1100:0A: Entries acknowledged -/
def SYS_TAMPER_ACK : Nat := 0x11000a
/-- 0x1100:0B: 1: VBAT joined to VDD_IO, no battery fitted (R405) -/
def SYS_NO_BATTERY : Nat := 0x11000b

/- Table 15.8 -/
/-- 0x1110:01 to 0x1110:10: Spares remaining (R392) -/
def SYS_SPARES (n : Nat) : Nat := 0x111001 + n
/-- 0x1120:01 to 0x1120:10: Spares at manufacture -/
def SYS_SPARES_INIT (n : Nat) : Nat := 0x112001 + n
/-- 0x1130:01 to 0x1130:10: Swaps since manufacture -/
def SYS_SWAPS (n : Nat) : Nat := 0x113001 + n
/-- 0x1140:01: 0 FULL; 1 EXHAUSTED, a class at 0; 2 IMPAIRED -/
def SYS_HEALTH_STATE : Nat := 0x114001
/-- 0x1140:02: Bit c: class c exhausted -/
def SYS_EXHAUSTED : Nat := 0x114002
/-- 0x1140:03: Bit c: class c impaired -/
def SYS_IMPAIRED : Nat := 0x114003
/-- 0x1140:04: Ledger entries written -/
def SYS_LEDGER_ENTRIES : Nat := 0x114004
/-- 0x1140:05: Entries not written (R399) -/
def SYS_LEDGER_LOST : Nat := 0x114005
/-- 0x1140:06: Corrected SRAM errors since reset -/
def SYS_ECC_CORR : Nat := 0x114006
/-- 0x1140:07: Uncorrectable SRAM errors since reset -/
def SYS_ECC_UNCORR : Nat := 0x114007
/-- 0x1140:08: Scrub pass [s] -/
def SYS_SCRUB_PERIOD : Nat := 0x114008
/-- 0x1140:09: Scrub passes completed -/
def SYS_SCRUB_PASSES : Nat := 0x114009
/-- 0x1140:0A: Balancer triages (R395); node -/
def SYS_TRIAGES : Nat := 0x11400a

end Sys2Proof.Machine.O
end

