-- ==== Sys2Proof/Machine/ObjTable.lean ====
section
/-! DEFINITION. The object tables of spec/ (Tables 1.8 to 15.8) as rows: the rectangle of indices and sub-indices, type, access class, default, range and place. -/
namespace Sys2Proof.Machine

/-- The types of Table 14.1 that the object tables use; the width in bits of an integer. -/
inductive Ty where | bool | u (w : Nat) | i (w : Nat) | f32 | ts96 | octet (n : Nat) | str (n : Nat)
deriving DecidableEq, Repr

/-- The access classes of Table 14.2. -/
inductive Acc where | ro | rw | wo | rws | saf
deriving DecidableEq, Repr

/-- The Range column: no limit beyond the type, the listed closed intervals, finite F32, or an F32 interval given by its bit patterns. -/
inductive Rng where | any | ints (l : List (Int × Int)) | finite | f32 (lo hi : Nat)
deriving DecidableEq, Repr

/-- Where an object exists (R24, R41, R75, R108, R137, R175, R198, R222, R245, R266, R295, R313, R326, R352, R384, R406).
apexWrites: exists everywhere, writes at the apex only; nodeApexWrites: the same within node role. -/
inductive Place where | all | node | cell | apex | apexWrites | nodeApexWrites
deriving DecidableEq, Repr

/-- One row of an object table. -/
structure ObjRow where
  i0 : Nat
  i1 : Nat
  s0 : Nat
  s1 : Nat
  ty : Ty
  acc : Acc
  dflt : Nat
  rng : Rng
  place : Place
deriving DecidableEq, Repr

/-- The row covers this index and sub-index. -/
def ObjRow.covers (r : ObjRow) (i s : Nat) : Bool := r.i0 ≤ i && i ≤ r.i1 && r.s0 ≤ s && s ≤ r.s1

/-- Rows of the object tables, area 0x1. -/
def objRowsX1p0 : List ObjRow := [
  ⟨0x1000, 0x1000, 0x1, 0x1, .str 8, .ro, 0x50656c6b6f766900, .any, .all⟩, -- SYS_VENDOR
  ⟨0x1000, 0x1000, 0x2, 0x2, .str 8, .ro, 0x5554443634383000, .any, .all⟩, -- SYS_PART
  ⟨0x1000, 0x1000, 0x3, 0x3, .octet 8, .ro, 0x0, .any, .all⟩, -- SYS_SERIAL
  ⟨0x1000, 0x1000, 0x4, 0x4, .u 8, .ro, 0x0, .ints [(0, 15)], .all⟩, -- SYS_SILICON_REV
  ⟨0x1000, 0x1000, 0x5, 0x5, .u 32, .ro, 0x0, .any, .all⟩, -- SYS_ROM_VERSION
  ⟨0x1000, 0x1000, 0x6, 0x6, .u 32, .ro, 0x0, .any, .all⟩, -- SYS_FW_VERSION
  ⟨0x1000, 0x1000, 0x7, 0x7, .u 8, .wo, 0x0, .ints [(1, 1)], .all⟩, -- SYS_CMD
  ⟨0x1010, 0x1010, 0x1, 0x2, .u 32, .rws, 0xc0a80a40, .any, .apex⟩, -- SYS_IP_ADDR
  ⟨0x1010, 0x1010, 0x3, 0x4, .u 32, .rws, 0xffffff00, .any, .apex⟩, -- SYS_IP_MASK
  ⟨0x1010, 0x1010, 0x5, 0x5, .u 32, .rws, 0x0, .any, .apex⟩, -- SYS_IP_GATEWAY
  ⟨0x1010, 0x1010, 0x6, 0x6, .u 16, .rws, 0xb9f0, .ints [(1024, 65535)], .apex⟩, -- SYS_JOP_PORT
  ⟨0x1010, 0x1010, 0x7, 0x7, .u 16, .rws, 0xffff, .ints [(0, 4094), (65535, 65535)], .apex⟩, -- SYS_VLAN
  ⟨0x1010, 0x1010, 0x8, 0x9, .octet 6, .ro, 0x0, .any, .apex⟩, -- SYS_MAC
  ⟨0x1010, 0x1010, 0xa, 0xa, .u 8, .ro, 0x0, .ints [(0, 3)], .apex⟩, -- SYS_PORT_STATUS
  ⟨0x1020, 0x1020, 0x1, 0x1, .u 16, .rws, 0x1e, .ints [(1, 3600)], .apex⟩, -- SYS_SESSION_IDLE
  ⟨0x1020, 0x1020, 0x2, 0x2, .u 8, .ro, 0x0, .ints [(0, 4)], .apex⟩, -- SYS_SESSIONS
  ⟨0x1020, 0x1020, 0x3, 0x3, .u 32, .ro, 0x0, .any, .apex⟩, -- SYS_JOP_AUTH_FAIL
  ⟨0x1020, 0x1020, 0x4, 0x4, .u 32, .ro, 0x0, .any, .apex⟩, -- SYS_JOP_REPLAY
  ⟨0x1020, 0x1020, 0x5, 0x5, .u 32, .ro, 0x0, .any, .apex⟩, -- SYS_JOP_NO_SESSION
  ⟨0x1020, 0x1020, 0x6, 0x6, .u 32, .ro, 0x0, .any, .apex⟩, -- SYS_JOP_BAD
  ⟨0x1020, 0x1020, 0x7, 0x7, .u 16, .rw, 0x0, .ints [(0, 256)], .apex⟩, -- SYS_CORE_MSG_LEN
  ⟨0x1020, 0x1020, 0x8, 0x8, .u 16, .rw, 0x0, .ints [(0, 256)], .apex⟩, -- SYS_CORE_REPLY_LEN
  ⟨0x1030, 0x1030, 0x1, 0x8, .octet 32, .ro, 0x0, .any, .apex⟩, -- SYS_CORE_MSG
  ⟨0x1031, 0x1031, 0x1, 0x8, .octet 32, .rw, 0x0, .any, .apex⟩, -- SYS_CORE_REPLY
  ⟨0x1100, 0x1100, 0x1, 0x1, .u 8, .ro, 0x0, .ints [(0, 5)], .all⟩, -- SYS_RESET_CAUSE
  ⟨0x1100, 0x1100, 0x2, 0x2, .u 32, .ro, 0x0, .any, .all⟩, -- SYS_BOOT_TIME
  ⟨0x1100, 0x1100, 0x3, 0x3, .u 8, .ro, 0x0, .ints [(0, 0)], .all⟩, -- SYS_POWER_STATE
  ⟨0x1100, 0x1100, 0x4, 0x4, .u 8, .wo, 0x0, .ints [(1, 5)], .all⟩, -- SYS_POWER_CMD
  ⟨0x1100, 0x1100, 0x5, 0x5, .u 32, .ro, 0x0, .any, .all⟩, -- SYS_DOMAINS
  ⟨0x1100, 0x1100, 0x6, 0x6, .bool, .ro, 0x0, .any, .all⟩, -- SYS_STRAP_UNSTABLE
  ⟨0x1100, 0x1100, 0x7, 0x7, .u 8, .ro, 0x0, .ints [(0, 3)], .all⟩, -- SYS_RECOVERY
  ⟨0x1100, 0x1100, 0x8, 0x8, .bool, .rws, 0x1, .any, .all⟩, -- SYS_WAKE_ARM
  ⟨0x1100, 0x1100, 0x9, 0x9, .u 32, .ro, 0x0, .any, .all⟩, -- SYS_TAMPER_COUNT
  ⟨0x1100, 0x1100, 0xa, 0xa, .u 32, .rw, 0x0, .any, .all⟩, -- SYS_TAMPER_ACK
  ⟨0x1100, 0x1100, 0xb, 0xb, .bool, .rws, 0x0, .any, .all⟩, -- SYS_NO_BATTERY
  ⟨0x1110, 0x1110, 0x1, 0x10, .u 8, .ro, 0x0, .ints [(0, 254), (255, 255)], .all⟩, -- SYS_SPARES
  ⟨0x1120, 0x1120, 0x1, 0x10, .u 8, .ro, 0x0, .ints [(0, 254), (255, 255)], .all⟩, -- SYS_SPARES_INIT
  ⟨0x1130, 0x1130, 0x1, 0x10, .u 16, .ro, 0x0, .any, .all⟩, -- SYS_SWAPS
  ⟨0x1140, 0x1140, 0x1, 0x1, .u 8, .ro, 0x0, .ints [(0, 2)], .all⟩, -- SYS_HEALTH_STATE
  ⟨0x1140, 0x1140, 0x2, 0x2, .u 16, .ro, 0x0, .any, .all⟩] -- SYS_EXHAUSTED

/-- Rows of the object tables, area 0x1. -/
def objRowsX1p1 : List ObjRow := [
  ⟨0x1140, 0x1140, 0x3, 0x3, .u 16, .ro, 0x0, .any, .all⟩, -- SYS_IMPAIRED
  ⟨0x1140, 0x1140, 0x4, 0x4, .u 32, .ro, 0x0, .ints [(0, 7936)], .all⟩, -- SYS_LEDGER_ENTRIES
  ⟨0x1140, 0x1140, 0x5, 0x5, .u 32, .ro, 0x0, .any, .all⟩, -- SYS_LEDGER_LOST
  ⟨0x1140, 0x1140, 0x6, 0x6, .u 32, .ro, 0x0, .any, .all⟩, -- SYS_ECC_CORR
  ⟨0x1140, 0x1140, 0x7, 0x7, .u 32, .ro, 0x0, .any, .all⟩, -- SYS_ECC_UNCORR
  ⟨0x1140, 0x1140, 0x8, 0x8, .u 16, .rws, 0x4, .ints [(1, 3600)], .all⟩, -- SYS_SCRUB_PERIOD
  ⟨0x1140, 0x1140, 0x9, 0x9, .u 32, .ro, 0x0, .any, .all⟩, -- SYS_SCRUB_PASSES
  ⟨0x1140, 0x1140, 0xa, 0xa, .u 32, .ro, 0x0, .any, .all⟩] -- SYS_TRIAGES

def objRowsX1 : List ObjRow := objRowsX1p0 ++ objRowsX1p1

/-- Rows of the object tables, area 0x2. -/
def objRowsX2p0 : List ObjRow := [
  ⟨0x2000, 0x2000, 0x1, 0x1, .u 16, .rws, 0x1, .ints [(1, 1000)], .all⟩, -- LNK_BACKOFF_MIN
  ⟨0x2000, 0x2000, 0x2, 0x2, .u 16, .rws, 0x3e8, .ints [(1, 60000)], .all⟩, -- LNK_BACKOFF_MAX
  ⟨0x2000, 0x2000, 0x3, 0x3, .u 16, .rws, 0x64, .ints [(1, 60000)], .all⟩, -- LNK_L0_TIMEOUT
  ⟨0x2000, 0x2000, 0x4, 0x4, .u 16, .rws, 0xa, .ints [(1, 1000)], .all⟩, -- LNK_L1_TIMEOUT
  ⟨0x2000, 0x2000, 0x5, 0x5, .u 16, .rws, 0x7d0, .ints [(100, 20000)], .all⟩, -- LNK_L2_TIMEOUT
  ⟨0x2000, 0x2000, 0x6, 0x6, .u 8, .rws, 0x1b, .ints [(20, 36)], .all⟩, -- LNK_L3_WINDOW
  ⟨0x2000, 0x2000, 0x7, 0x7, .u 32, .rws, 0x0, .any, .all⟩, -- LNK_L3_MAX_ERR
  ⟨0x2000, 0x2000, 0x8, 0x8, .u 8, .rws, 0x2, .ints [(0, 15)], .all⟩, -- LNK_L3_RETRY
  ⟨0x2000, 0x2000, 0x9, 0x9, .u 16, .rws, 0x64, .ints [(10, 10000)], .all⟩, -- LNK_L4_TIMEOUT
  ⟨0x2000, 0x2000, 0xa, 0xa, .bool, .rws, 0x1, .any, .all⟩, -- LNK_RATE_FALLBACK
  ⟨0x2000, 0x2000, 0xb, 0xb, .u 8, .rws, 0x10, .ints [(4, 255)], .all⟩, -- LNK_HIBER_LIMIT
  ⟨0x2000, 0x2000, 0xc, 0xc, .u 16, .rws, 0x3e8, .ints [(10, 60000)], .all⟩, -- LNK_WHOLE_HOLD
  ⟨0x2000, 0x2000, 0xd, 0xd, .u 32, .ro, 0x0, .any, .node⟩, -- LNK_NO_ROUTE
  ⟨0x2010, 0x2010, 0x1, 0x44, .bool, .rws, 0x1, .any, .all⟩, -- LNK_ENABLE
  ⟨0x2020, 0x2020, 0x1, 0x44, .u 8, .rws, 0x3, .ints [(0, 3)], .all⟩, -- LNK_RATE_CFG
  ⟨0x2030, 0x2030, 0x1, 0x44, .bool, .rws, 0x0, .any, .all⟩, -- LNK_EXPECT
  ⟨0x2040, 0x2040, 0x1, 0x44, .bool, .rws, 0x0, .any, .all⟩, -- LNK_TX_POL
  ⟨0x2050, 0x2050, 0x1, 0x44, .u 8, .rw, 0x0, .ints [(0, 3)], .all⟩, -- LNK_LOOP
  ⟨0x2060, 0x2060, 0x1, 0x44, .u 8, .rw, 0x0, .ints [(0, 2)], .all⟩, -- LNK_PATTERN
  ⟨0x2070, 0x2070, 0x1, 0x44, .u 8, .wo, 0x0, .ints [(1, 3)], .all⟩, -- LNK_CMD
  ⟨0x2100, 0x2100, 0x1, 0x44, .u 8, .ro, 0x8, .ints [(0, 8)], .all⟩, -- LNK_STAGE
  ⟨0x2110, 0x2110, 0x1, 0x44, .u 8, .ro, 0x0, .ints [(0, 3)], .all⟩, -- LNK_RATE
  ⟨0x2120, 0x2120, 0x1, 0x44, .u 8, .ro, 0x3, .ints [(0, 3)], .all⟩, -- LNK_CEILING
  ⟨0x2130, 0x2130, 0x1, 0x44, .u 8, .ro, 0x0, .ints [(0, 9)], .all⟩, -- LNK_LAST_FAIL
  ⟨0x2140, 0x2140, 0x1, 0x44, .u 16, .ro, 0x0, .any, .all⟩, -- LNK_STATUS
  ⟨0x2150, 0x2150, 0x1, 0x44, .u 32, .ro, 0xffffffff, .any, .all⟩, -- LNK_PARTNER
  ⟨0x2160, 0x2160, 0x1, 0x44, .u 16, .ro, 0x0, .ints [(0, 60000)], .all⟩, -- LNK_BACKOFF_NOW
  ⟨0x2170, 0x2170, 0x1, 0x44, .u 32, .ro, 0x0, .any, .all⟩, -- LNK_L3_ERRORS
  ⟨0x2200, 0x2200, 0x1, 0x44, .u 32, .ro, 0x0, .any, .all⟩, -- LNK_L5_ENTRIES
  ⟨0x2201, 0x2201, 0x1, 0x44, .u 32, .ro, 0x0, .any, .all⟩, -- LNK_TRAIN_FAIL
  ⟨0x2203, 0x2203, 0x1, 0x44, .u 32, .ro, 0x0, .any, .all⟩, -- LNK_LOS_COUNT
  ⟨0x2204, 0x2204, 0x1, 0x44, .u 32, .ro, 0x0, .any, .all⟩, -- LNK_LOL_COUNT
  ⟨0x2205, 0x2205, 0x1, 0x44, .u 32, .ro, 0x0, .any, .all⟩, -- LNK_HIBER_COUNT
  ⟨0x2206, 0x2206, 0x1, 0x44, .u 32, .ro, 0x0, .any, .all⟩, -- LNK_HCRC_ERR
  ⟨0x2207, 0x2207, 0x1, 0x44, .u 32, .ro, 0x0, .any, .all⟩, -- LNK_CRC_ERR
  ⟨0x2208, 0x2208, 0x1, 0x44, .u 32, .ro, 0x0, .any, .all⟩, -- LNK_RX_ABORTED
  ⟨0x2209, 0x2209, 0x1, 0x44, .u 32, .ro, 0x0, .any, .all⟩, -- LNK_RX_INVALID
  ⟨0x220a, 0x220a, 0x1, 0x44, .u 32, .ro, 0x0, .any, .all⟩, -- LNK_CODE_ERR
  ⟨0x220b, 0x220b, 0x1, 0x44, .u 32, .ro, 0x0, .any, .all⟩, -- LNK_FWD_DISCARD
  ⟨0x220c, 0x220c, 0x1, 0x44, .u 32, .ro, 0x0, .any, .all⟩] -- LNK_PREEMPT

/-- Rows of the object tables, area 0x2. -/
def objRowsX2p1 : List ObjRow := [
  ⟨0x220d, 0x220d, 0x1, 0x44, .u 32, .ro, 0x0, .any, .all⟩, -- LNK_LOOP_ERR
  ⟨0x220e, 0x220e, 0x1, 0x44, .u 32, .ro, 0x0, .any, .all⟩, -- LNK_SCHUSS_RX
  ⟨0x220f, 0x220f, 0x1, 0x44, .u 32, .ro, 0x0, .any, .all⟩, -- LNK_SCHUSS_BAD
  ⟨0x2210, 0x2210, 0x1, 0x44, .u 32, .ro, 0x0, .any, .node⟩, -- LNK_RX_OTHER
  ⟨0x2211, 0x2211, 0x1, 0x44, .u 64, .ro, 0x0, .any, .all⟩, -- LNK_LOOP_BITS
  ⟨0x2311, 0x2317, 0x1, 0x44, .u 32, .ro, 0x0, .any, .all⟩, -- LNK_TX_FRAMES
  ⟨0x2321, 0x2327, 0x1, 0x44, .u 32, .ro, 0x0, .any, .all⟩, -- LNK_RX_FRAMES
  ⟨0x2331, 0x2337, 0x1, 0x44, .u 32, .ro, 0x0, .any, .all⟩, -- LNK_TX_DROP
  ⟨0x2400, 0x2400, 0x1, 0x40, .u 8, .ro, 0x0, .ints [(0, 3)], .node⟩, -- LNK_PISTE_STATE
  ⟨0x2410, 0x2410, 0x1, 0x40, .u 8, .ro, 0x0, .ints [(0, 30)], .node⟩, -- LNK_PISTE_REACH
  ⟨0x2420, 0x2420, 0x1, 0x40, .u 8, .ro, 0x1f, .ints [(0, 31)], .node⟩, -- LNK_PISTE_FAR_LEN
  ⟨0x2430, 0x2430, 0x1, 0x1, .u 8, .ro, 0x1f, .ints [(0, 31)], .cell⟩, -- LNK_CELL_POS_A
  ⟨0x2430, 0x2430, 0x2, 0x2, .u 8, .ro, 0x1f, .ints [(0, 31)], .cell⟩] -- LNK_CELL_HOPS_B

def objRowsX2 : List ObjRow := objRowsX2p0 ++ objRowsX2p1

/-- Rows of the object tables, area 0x3. -/
def objRowsX3p0 : List ObjRow := [
  ⟨0x3100, 0x3100, 0x1, 0x1, .u 32, .rws, 0xfa0, .ints [(1000, 40000)], .apexWrites⟩, -- TIM_PERIOD
  ⟨0x3100, 0x3100, 0x2, 0x2, .u 32, .rws, 0xc80, .ints [(1, 160000)], .apexWrites⟩, -- TIM_APPLY_LAG
  ⟨0x3100, 0x3100, 0x3, 0x3, .u 16, .rws, 0x64, .ints [(40, 400)], .apexWrites⟩, -- TIM_CMD_GUARD
  ⟨0x3100, 0x3100, 0x4, 0x4, .u 32, .ro, 0x0, .ints [(0, 160000)], .all⟩, -- TIM_LAG_MIN
  ⟨0x3100, 0x3100, 0x5, 0x5, .u 32, .rws, 0x0, .ints [(0, 160000)], .apexWrites⟩, -- TIM_LAW_START
  ⟨0x3100, 0x3100, 0x6, 0x6, .u 32, .ro, 0x0, .ints [(0, 160000)], .all⟩, -- TIM_LAW_START_EFF
  ⟨0x3100, 0x3100, 0x7, 0x7, .u 64, .ro, 0x0, .any, .all⟩, -- TIM_PERIOD_NUMBER
  ⟨0x3100, 0x3100, 0x8, 0x8, .u 8, .ro, 0x2, .ints [(0, 2)], .all⟩, -- TIM_LAG_STATUS
  ⟨0x3100, 0x3100, 0x9, 0x9, .u 32, .ro, 0x0, .any, .all⟩, -- TIM_LATE_PERIODS
  ⟨0x3100, 0x3100, 0xa, 0xa, .u 32, .ro, 0x0, .ints [(0, 40000)], .all⟩, -- TIM_STAGE_MIN
  ⟨0x3000, 0x3000, 0x1, 0x1, .u 64, .ro, 0x0, .any, .all⟩, -- TIM_COUNTER
  ⟨0x3000, 0x3000, 0x2, 0x2, .ts96, .ro, 0x0, .any, .all⟩, -- TIM_VALVE_NOW
  ⟨0x3000, 0x3000, 0x3, 0x3, .ts96, .ro, 0x0, .any, .node⟩, -- TIM_STATION_NOW
  ⟨0x3010, 0x3010, 0x1, 0x1, .u 8, .ro, 0x0, .ints [(0, 3)], .all⟩, -- TIM_VT_STATE
  ⟨0x3010, 0x3010, 0x2, 0x2, .u 8, .ro, 0xff, .ints [(0, 67), (254, 254), (255, 255)], .all⟩, -- TIM_VT_SOURCE
  ⟨0x3010, 0x3010, 0x3, 0x3, .i 32, .ro, 0x0, .any, .all⟩, -- TIM_VT_OFFSET
  ⟨0x3010, 0x3010, 0x4, 0x4, .u 32, .ro, 0xa0000000, .ints [(2683817689, 2684891431)], .all⟩, -- TIM_VT_INC
  ⟨0x3010, 0x3010, 0x5, 0x5, .u 8, .ro, 0xff, .ints [(0, 254), (255, 255)], .all⟩, -- TIM_VT_STEPS
  ⟨0x3010, 0x3010, 0x6, 0x6, .u 32, .rws, 0x2710, .ints [(1000, 100000)], .all⟩, -- TIM_LOCK_WINDOW
  ⟨0x3010, 0x3010, 0x7, 0x7, .u 32, .rws, 0x2710, .ints [(100, 1000000)], .all⟩, -- TIM_SLEW_WINDOW
  ⟨0x3010, 0x3010, 0x8, 0x8, .u 16, .rws, 0x64, .ints [(1, 200)], .all⟩, -- TIM_VT_SLEW_RATE
  ⟨0x3010, 0x3010, 0x9, 0x9, .u 32, .ro, 0x0, .any, .all⟩, -- TIM_VT_REANCHORS
  ⟨0x3010, 0x3010, 0xa, 0xa, .u 32, .ro, 0x0, .any, .all⟩, -- TIM_VT_LOCK_LOSSES
  ⟨0x3010, 0x3010, 0xb, 0xb, .i 32, .ro, 0x0, .any, .cell⟩, -- TIM_LINEAGE_OFFSET
  ⟨0x3010, 0x3010, 0xc, 0xc, .u 32, .rws, 0x4e20, .ints [(1000, 1000000)], .cell⟩, -- TIM_LINEAGE_TOL
  ⟨0x3010, 0x3010, 0xd, 0xd, .u 16, .rws, 0xc8, .ints [(10, 10000)], .apexWrites⟩, -- TIM_PEER_WAIT
  ⟨0x3010, 0x3010, 0xe, 0xe, .u 8, .ro, 0x0, .ints [(0, 2)], .all⟩, -- TIM_VT_ROLE
  ⟨0x3010, 0x3010, 0xf, 0xf, .bool, .rws, 0x1, .any, .apexWrites⟩, -- TIM_VT_SYNTONISE
  ⟨0x3010, 0x3010, 0x10, 0x10, .i 32, .ro, 0x0, .any, .node⟩, -- TIM_PEER_OFFSET
  ⟨0x3010, 0x3010, 0x11, 0x11, .u 32, .ro, 0x0, .any, .all⟩, -- TIM_PARAM_SEQ
  ⟨0x3010, 0x3010, 0x12, 0x12, .u 32, .ro, 0x0, .any, .cell⟩, -- TIM_PARAM_CONFLICT
  ⟨0x3200, 0x3200, 0x1, 0x44, .i 32, .rws, 0x0, .ints [(-100000, 100000)], .all⟩, -- TIM_ASYM
  ⟨0x3210, 0x3210, 0x1, 0x44, .u 32, .ro, 0x0, .any, .all⟩, -- TIM_LANE_DELAY
  ⟨0x3220, 0x3220, 0x1, 0x44, .u 32, .ro, 0x0, .any, .all⟩, -- TIM_LANE_SPREAD
  ⟨0x3230, 0x3230, 0x1, 0x44, .i 32, .ro, 0x0, .any, .all⟩, -- TIM_LANE_RATIO
  ⟨0x3020, 0x3020, 0x1, 0x1, .u 8, .rws, 0x1, .ints [(0, 1)], .apexWrites⟩, -- TIM_ST_MODE
  ⟨0x3020, 0x3020, 0x2, 0x2, .u 8, .ro, 0x0, .ints [(0, 4)], .all⟩, -- TIM_ST_STATE
  ⟨0x3020, 0x3020, 0x3, 0x3, .u 8, .ro, 0x0, .any, .all⟩, -- TIM_ST_QUALITY
  ⟨0x3020, 0x3020, 0x4, 0x4, .u 32, .rw, 0xa0000000, .ints [(2683817689, 2684891431)], .apexWrites⟩, -- TIM_ST_INC
  ⟨0x3020, 0x3020, 0x5, 0x5, .i 64, .wo, 0x0, .any, .apexWrites⟩] -- TIM_ST_ADJUST

/-- Rows of the object tables, area 0x3. -/
def objRowsX3p1 : List ObjRow := [
  ⟨0x3020, 0x3020, 0x6, 0x6, .i 64, .ro, 0x0, .any, .all⟩, -- TIM_ST_OFFSET
  ⟨0x3020, 0x3020, 0x7, 0x7, .u 16, .rws, 0xc8, .ints [(1, 200)], .apexWrites⟩, -- TIM_ST_SLEW_RATE
  ⟨0x3020, 0x3020, 0x8, 0x8, .u 32, .rws, 0x2710, .ints [(100, 1000000000)], .apexWrites⟩, -- TIM_ST_OUTLIER
  ⟨0x3020, 0x3020, 0x9, 0x9, .u 8, .rws, 0x3, .ints [(1, 16)], .apexWrites⟩, -- TIM_ST_CONFIRM
  ⟨0x3020, 0x3020, 0xa, 0xa, .u 32, .rws, 0x258, .ints [(1, 1000000)], .apexWrites⟩, -- TIM_ST_HOLD_LIMIT
  ⟨0x3020, 0x3020, 0xb, 0xb, .u 8, .wo, 0x0, .ints [(1, 4)], .apexWrites⟩, -- TIM_ST_CMD
  ⟨0x3020, 0x3020, 0xc, 0xc, .i 16, .ro, 0x0, .any, .all⟩, -- TIM_ST_UTC_OFFSET
  ⟨0x3020, 0x3020, 0xd, 0xd, .u 32, .ro, 0x0, .any, .all⟩, -- TIM_ST_JUMPS
  ⟨0x3020, 0x3020, 0xe, 0xe, .u 32, .ro, 0x0, .any, .all⟩, -- TIM_ST_OUTLIERS
  ⟨0x3020, 0x3020, 0xf, 0xf, .u 8, .ro, 0x0, .any, .all⟩, -- TIM_ST_STEPS_DONE
  ⟨0x3020, 0x3020, 0x10, 0x10, .octet 10, .ro, 0x0, .any, .all⟩, -- TIM_ST_MASTER
  ⟨0x3030, 0x3030, 0x1, 0x1, .u 8, .rws, 0x0, .any, .apexWrites⟩, -- TIM_PTP_DOMAIN
  ⟨0x3030, 0x3030, 0x2, 0x2, .u 8, .rws, 0x3, .ints [(0, 3)], .apexWrites⟩, -- TIM_PTP_ENABLE
  ⟨0x3030, 0x3030, 0x3, 0x3, .u 16, .rws, 0xffff, .ints [(0, 4094), (65535, 65535)], .apexWrites⟩, -- TIM_PTP_VLAN
  ⟨0x3030, 0x3030, 0x4, 0x5, .u 32, .ro, 0x0, .any, .apexWrites⟩, -- TIM_PTP_PDELAY
  ⟨0x3030, 0x3030, 0x6, 0x7, .i 32, .rws, 0x0, .ints [(-1000000, 1000000)], .apexWrites⟩, -- TIM_PTP_ASYM
  ⟨0x3030, 0x3030, 0x8, 0x8, .u 8, .rws, 0x3, .ints [(2, 10)], .apexWrites⟩, -- TIM_PTP_ANNOUNCE_TO
  ⟨0x3030, 0x3030, 0x9, 0x9, .ts96, .ro, 0x0, .any, .apexWrites⟩, -- TIM_PTP_T1
  ⟨0x3030, 0x3030, 0xa, 0xa, .ts96, .ro, 0x0, .any, .apexWrites⟩, -- TIM_PTP_T2
  ⟨0x3030, 0x3030, 0xb, 0xb, .u 16, .ro, 0x0, .any, .apexWrites⟩] -- TIM_PTP_SYNC_SEQ

def objRowsX3 : List ObjRow := objRowsX3p0 ++ objRowsX3p1

/-- Rows of the object tables, area 0x4. -/
def objRowsX4p0 : List ObjRow := [
  ⟨0x4000, 0x4000, 0x1, 0x1, .u 32, .rws, 0x1d872b41, .ints [(1, 2147483647)], .node⟩, -- BAL_SLALOM_SEED
  ⟨0x4000, 0x4000, 0x2, 0x2, .u 32, .ro, 0x0, .ints [(0, 2147483647)], .node⟩, -- BAL_SLALOM_STATE
  ⟨0x4000, 0x4000, 0x3, 0x3, .u 8, .rws, 0x8, .ints [(0, 60)], .node⟩, -- BAL_REPORT_MARGIN
  ⟨0x4000, 0x4000, 0x4, 0x4, .u 32, .ro, 0x0, .any, .node⟩, -- BAL_LOCKSTEP_MISMATCH
  ⟨0x4000, 0x4000, 0x5, 0x5, .u 64, .ro, 0x0, .any, .node⟩, -- BAL_SPLIT_PISTES
  ⟨0x4010, 0x4010, 0x1, 0x40, .u 8, .rws, 0x0, .ints [(0, 5), (254, 254), (255, 255)], .node⟩, -- BAL_LINK_ARM
  ⟨0x4020, 0x4020, 0x1, 0x6, .u 8, .rws, 0x0, .ints [(0, 63)], .node⟩, -- BAL_ARM_ID
  ⟨0x4100, 0x4105, 0x1, 0x1, .u 8, .rws, 0x10, .any, .node⟩, -- BAL_STICK
  ⟨0x4100, 0x4105, 0x2, 0x2, .u 8, .rws, 0x4, .any, .node⟩, -- BAL_WEAR_GAIN
  ⟨0x4100, 0x4105, 0x3, 0x3, .u 8, .rws, 0x0, .ints [(0, 1)], .node⟩, -- BAL_BIN_MODE
  ⟨0x4100, 0x4105, 0x4, 0x4, .u 16, .rws, 0x0, .any, .node⟩, -- BAL_BIN_BASE
  ⟨0x4100, 0x4105, 0x5, 0x5, .u 8, .rws, 0xa, .ints [(0, 10)], .node⟩, -- BAL_BIN_SHIFT
  ⟨0x4100, 0x4105, 0x6, 0x6, .u 32, .rws, 0x400, .ints [(1, 4294967295)], .node⟩, -- BAL_WEAR_LIMIT
  ⟨0x4120, 0x4125, 0x1, 0x1, .u 16, .ro, 0x0, .ints [(0, 64512)], .node⟩, -- BAL_N
  ⟨0x4120, 0x4125, 0x2, 0x2, .u 16, .ro, 0x0, .any, .node⟩, -- BAL_F
  ⟨0x4120, 0x4125, 0x3, 0x3, .u 32, .ro, 0xffffffff, .ints [(0, 67108863), (4294967295, 4294967295)], .node⟩, -- BAL_K_TH
  ⟨0x4120, 0x4125, 0x4, 0x4, .u 32, .ro, 0xffffffff, .any, .node⟩, -- BAL_K_CARVE
  ⟨0x4120, 0x4125, 0x5, 0x5, .u 16, .ro, 0x0, .ints [(0, 39999)], .node⟩, -- BAL_T_CARVE
  ⟨0x4120, 0x4125, 0x6, 0x6, .u 8, .ro, 0x0, .ints [(0, 15)], .node⟩, -- BAL_DIR_POL
  ⟨0x4120, 0x4125, 0x7, 0x7, .u 16, .ro, 0x0, .ints [(0, 64512)], .node⟩, -- BAL_N_AV
  ⟨0x4120, 0x4125, 0x8, 0x8, .u 16, .ro, 0x0, .ints [(0, 64512)], .node⟩, -- BAL_N_FB
  ⟨0x4120, 0x4125, 0x9, 0x9, .u 16, .ro, 0x0, .ints [(0, 64512)], .node⟩, -- BAL_N_INS
  ⟨0x4120, 0x4125, 0xa, 0xa, .u 32, .ro, 0x0, .any, .node⟩, -- BAL_V_SUM
  ⟨0x4120, 0x4125, 0xb, 0xb, .bool, .ro, 0x0, .any, .node⟩, -- BAL_HEAD
  ⟨0x4120, 0x4125, 0xc, 0xc, .u 16, .ro, 0x0, .any, .node⟩, -- BAL_BIN_BASE_EFF
  ⟨0x4120, 0x4125, 0xd, 0xd, .u 8, .ro, 0xa, .ints [(0, 10)], .node⟩, -- BAL_BIN_SHIFT_EFF
  ⟨0x4120, 0x4125, 0xe, 0xe, .u 32, .ro, 0x0, .any, .node⟩, -- BAL_WEAR_REF
  ⟨0x4120, 0x4125, 0xf, 0xf, .u 32, .ro, 0x0, .any, .node⟩, -- BAL_WEAR_SPREAD
  ⟨0x4120, 0x4125, 0x10, 0x10, .i 64, .ro, 0x0, .ints [(-549755813887, 549755813887)], .node⟩, -- BAL_M
  ⟨0x4140, 0x4145, 0x1, 0x1, .u 32, .ro, 0x0, .any, .node⟩, -- BAL_MISSING
  ⟨0x4140, 0x4145, 0x2, 0x2, .u 32, .ro, 0x0, .any, .node⟩, -- BAL_MASK_EXCLUDED
  ⟨0x4140, 0x4145, 0x3, 0x3, .u 32, .ro, 0x0, .any, .node⟩, -- BAL_SHORTFALL
  ⟨0x4140, 0x4145, 0x4, 0x4, .u 32, .ro, 0x0, .any, .node⟩, -- BAL_SAT_PERIODS
  ⟨0x4140, 0x4145, 0x5, 0x5, .u 32, .ro, 0x0, .any, .node⟩, -- BAL_TIE_PERIODS
  ⟨0x4140, 0x4145, 0x6, 0x6, .u 32, .ro, 0x0, .any, .node⟩, -- BAL_GROUP_MISSING
  ⟨0x4140, 0x4145, 0x7, 0x7, .u 32, .ro, 0x0, .any, .node⟩, -- BAL_POL_MISMATCH
  ⟨0x4140, 0x4145, 0x8, 0x8, .u 32, .ro, 0x0, .any, .node⟩, -- BAL_EDGE_PERIODS
  ⟨0x4140, 0x4145, 0x9, 0x9, .u 32, .ro, 0x0, .any, .node⟩, -- BAL_SPLIT_LATE
  ⟨0x4140, 0x4145, 0xa, 0xa, .u 8, .ro, 0x0, .ints [(0, 2)], .node⟩, -- BAL_CFG_ERROR
  ⟨0x4140, 0x4145, 0xb, 0xb, .u 32, .ro, 0x0, .any, .node⟩] -- BAL_HIST_SAT

/-- Rows of the object tables, area 0x4. -/
def objRowsX4p1 : List ObjRow := [
  ⟨0x4200, 0x4200, 0x1, 0x40, .f32, .rws, 0x41200000, .f32 0x0 0x47c35000, .node⟩, -- BAL_HOLD_BAND
  ⟨0x4210, 0x4210, 0x1, 0x40, .u 16, .ro, 0x0, .ints [(0, 64512)], .node⟩, -- BAL_ARM_NAV
  ⟨0x4220, 0x4220, 0x1, 0x40, .u 32, .ro, 0x0, .any, .node⟩, -- BAL_ARM_VSUM
  ⟨0x4230, 0x4230, 0x1, 0x40, .u 8, .ro, 0x0, .ints [(0, 31)], .node⟩, -- BAL_ARM_FLAGS
  ⟨0x4240, 0x4240, 0x1, 0x40, .u 32, .ro, 0x0, .any, .node⟩] -- BAL_REF_INVALID

def objRowsX4 : List ObjRow := objRowsX4p0 ++ objRowsX4p1

/-- Rows of the object tables, area 0x6. -/
def objRowsX6p0 : List ObjRow := [
  ⟨0x6000, 0x6000, 0x1, 0x1, .u 8, .rws, 0x0, .ints [(0, 1)], .cell⟩, -- CEL_TOPOLOGY
  ⟨0x6000, 0x6000, 0x2, 0x2, .u 16, .rws, 0x4b0, .ints [(40, 4000)], .cell⟩, -- CEL_DEAD_TIME
  ⟨0x6000, 0x6000, 0x3, 0x3, .u 16, .rws, 0x640, .ints [(0, 8000)], .cell⟩, -- CEL_MIN_PULSE
  ⟨0x6000, 0x6000, 0x4, 0x4, .u 8, .rws, 0x0, .ints [(0, 1)], .cell⟩, -- CEL_FB_BYPASS
  ⟨0x6000, 0x6000, 0x5, 0x5, .u 32, .rws, 0xc8, .ints [(0, 100000)], .cell⟩, -- CEL_HELD_TIME
  ⟨0x6010, 0x6010, 0x1, 0x4, .i 16, .rws, 0x0, .ints [(-400, 400)], .cell⟩, -- CEL_TRIM
  ⟨0x6020, 0x6020, 0x1, 0x4, .u 8, .rws, 0x0, .ints [(0, 1)], .cell⟩, -- CEL_DSAT_REACT
  ⟨0x6020, 0x6020, 0x5, 0x5, .u 16, .rws, 0x320, .ints [(200, 4000)], .cell⟩, -- CEL_DSAT_BLANK
  ⟨0x6020, 0x6020, 0x6, 0x6, .u 8, .rws, 0x28, .ints [(4, 200)], .cell⟩, -- CEL_DSAT_FILTER
  ⟨0x6030, 0x6030, 0x1, 0x1, .u 16, .rws, 0xaf00, .ints [(1, 65535)], .cell⟩, -- CEL_OV1
  ⟨0x6030, 0x6030, 0x2, 0x2, .u 16, .rws, 0xbb80, .ints [(1, 65535)], .cell⟩, -- CEL_OV2
  ⟨0x6030, 0x6030, 0x3, 0x3, .u 16, .rws, 0xa0, .ints [(0, 4000)], .cell⟩, -- CEL_OV_HYST
  ⟨0x6030, 0x6030, 0x4, 0x4, .u 16, .rws, 0x190, .ints [(4, 40000)], .cell⟩, -- CEL_OV2_FILTER
  ⟨0x6030, 0x6030, 0x5, 0x5, .u 16, .rws, 0x3200, .any, .cell⟩, -- CEL_V_READY
  ⟨0x6030, 0x6030, 0x6, 0x6, .u 16, .rws, 0x1f40, .any, .cell⟩, -- CEL_V_MIN
  ⟨0x6030, 0x6030, 0x7, 0x7, .u 16, .rws, 0x140, .ints [(1, 65535)], .cell⟩, -- CEL_VCHK_TOL
  ⟨0x6030, 0x6030, 0x8, 0x8, .u 8, .rws, 0x3, .ints [(1, 255)], .cell⟩, -- CEL_VCHK_COUNT
  ⟨0x6030, 0x6030, 0x9, 0x9, .u 8, .rws, 0x0, .ints [(0, 1)], .cell⟩, -- CEL_VCHK_REACT
  ⟨0x6030, 0x6030, 0xa, 0xa, .u 16, .rws, 0x2a30, .ints [(0, 20000)], .cell⟩, -- CEL_VAUX_MIN
  ⟨0x6030, 0x6030, 0xb, 0xb, .u 16, .rws, 0x2c88, .ints [(0, 20000)], .cell⟩, -- CEL_VAUX_WARN
  ⟨0x6030, 0x6030, 0xc, 0xc, .i 16, .rws, 0x6e0, .ints [(-640, 2400)], .cell⟩, -- CEL_T_MAX
  ⟨0x6040, 0x6040, 0x1, 0x1, .f32, .rws, 0x3e000000, .f32 0x3a83126f 0x3f800000, .cell⟩, -- CEL_VKEY_GAIN
  ⟨0x6040, 0x6040, 0x2, 0x2, .i 16, .rws, 0x0, .ints [(-4096, 4096)], .cell⟩, -- CEL_VKEY_OFFSET
  ⟨0x6040, 0x6040, 0x3, 0x3, .f32, .rws, 0x3e000000, .f32 0x3a83126f 0x3f800000, .cell⟩, -- CEL_VCHK_GAIN
  ⟨0x6040, 0x6040, 0x4, 0x4, .i 16, .rws, 0x0, .ints [(-4096, 4096)], .cell⟩, -- CEL_VCHK_OFFSET
  ⟨0x6040, 0x6040, 0x5, 0x5, .u 8, .rws, 0x1, .ints [(0, 1)], .cell⟩, -- CEL_TC_SOURCE
  ⟨0x6040, 0x6040, 0x6, 0x6, .u 16, .rws, 0x140, .ints [(16, 1600)], .cell⟩, -- CEL_TC_DELTA
  ⟨0x6050, 0x6050, 0x1, 0x1, .u 16, .rws, 0xc8, .ints [(10, 1000)], .cell⟩, -- CEL_BYP_PULSE
  ⟨0x6050, 0x6050, 0x2, 0x2, .u 16, .rws, 0x12c, .ints [(10, 5000)], .cell⟩, -- CEL_BYP_CONFIRM
  ⟨0x6050, 0x6050, 0x3, 0x3, .u 8, .rws, 0x14, .ints [(1, 100)], .cell⟩, -- CEL_AUX_FILTER
  ⟨0x6050, 0x6050, 0x4, 0x4, .u 8, .rws, 0x1, .ints [(0, 3)], .cell⟩, -- CEL_BYP_RETRY
  ⟨0x6100, 0x6100, 0x1, 0x1, .u 8, .ro, 0x1, .ints [(1, 6)], .cell⟩, -- CEL_STATE
  ⟨0x6100, 0x6100, 0x2, 0x2, .u 32, .ro, 0x0, .any, .cell⟩, -- CEL_FAULT_LATCHED
  ⟨0x6100, 0x6100, 0x3, 0x3, .u 32, .ro, 0x0, .any, .cell⟩, -- CEL_FAULT_LIVE
  ⟨0x6100, 0x6100, 0x4, 0x4, .u 16, .ro, 0x0, .any, .cell⟩, -- CEL_V_KEY
  ⟨0x6100, 0x6100, 0x5, 0x5, .u 16, .ro, 0x0, .any, .cell⟩, -- CEL_V_CHK
  ⟨0x6100, 0x6100, 0x6, 0x6, .u 16, .ro, 0x0, .any, .cell⟩, -- CEL_VAUX
  ⟨0x6100, 0x6100, 0x7, 0x7, .i 16, .ro, 0x0, .any, .cell⟩, -- CEL_T_DIE
  ⟨0x6100, 0x6100, 0x8, 0x8, .i 16, .ro, 0x0, .any, .cell⟩, -- CEL_T_BOARD
  ⟨0x6100, 0x6100, 0x9, 0x9, .u 8, .ro, 0x0, .ints [(0, 15)], .cell⟩] -- CEL_GATE

/-- Rows of the object tables, area 0x6. -/
def objRowsX6p1 : List ObjRow := [
  ⟨0x6100, 0x6100, 0xa, 0xa, .u 8, .ro, 0x0, .ints [(0, 3)], .cell⟩, -- CEL_AUX
  ⟨0x6100, 0x6100, 0xb, 0xb, .bool, .wo, 0x0, .any, .cell⟩, -- CEL_CLEAR
  ⟨0x6120, 0x6120, 0x1, 0x1, .u 64, .ro, 0x0, .any, .cell⟩, -- CEL_SW_COUNT
  ⟨0x6120, 0x6120, 0x2, 0x2, .u 32, .ro, 0x0, .any, .cell⟩, -- CEL_TC_COUNT
  ⟨0x6120, 0x6120, 0x3, 0x3, .u 32, .ro, 0x0, .any, .cell⟩, -- CEL_LATE_PERIODS
  ⟨0x6120, 0x6120, 0x4, 0x4, .u 8, .ro, 0x0, .ints [(0, 3)], .cell⟩, -- CEL_LATE_CONSEC
  ⟨0x6120, 0x6120, 0x5, 0x5, .u 32, .ro, 0x0, .any, .cell⟩, -- CEL_CMD_REJECT
  ⟨0x6120, 0x6120, 0x6, 0x6, .u 32, .ro, 0x0, .any, .cell⟩, -- CEL_PULSE_MERGED
  ⟨0x6120, 0x6120, 0x7, 0x7, .u 32, .ro, 0x0, .any, .cell⟩, -- CEL_INTERLOCK
  ⟨0x6120, 0x6120, 0x8, 0x8, .u 32, .ro, 0x0, .any, .cell⟩, -- CEL_OV1_EVENTS
  ⟨0x6120, 0x6120, 0x9, 0x9, .u 32, .ro, 0x0, .any, .cell⟩, -- CEL_DSAT_EVENTS
  ⟨0x6120, 0x6120, 0xa, 0xa, .u 32, .ro, 0x0, .any, .cell⟩, -- CEL_HELD_ENTRIES
  ⟨0x6120, 0x6120, 0xb, 0xb, .u 8, .ro, 0x0, .ints [(0, 4)], .cell⟩, -- CEL_BYP_ATTEMPTS
  ⟨0x6800, 0x6800, 0x1, 0x1, .u 64, .rw, 0x0, .any, .node⟩, -- CEL_ARM_DEBLOCK
  ⟨0x6800, 0x6800, 0x2, 0x2, .u 32, .wo, 0x0, .any, .node⟩, -- CEL_ORDER
  ⟨0x6800, 0x6800, 0x3, 0x3, .u 8, .rws, 0x8, .ints [(1, 16)], .node⟩, -- CEL_ORDER_REPEAT
  ⟨0x6c00, 0x6c3f, 0x1, 0x10, .u 16, .ro, 0x0, .any, .node⟩, -- CEL_MIRROR_V
  ⟨0x6c40, 0x6c7f, 0x1, 0x10, .u 8, .ro, 0x0, .ints [(0, 6)], .node⟩] -- CEL_MIRROR_STATE

def objRowsX6 : List ObjRow := objRowsX6p0 ++ objRowsX6p1

/-- Rows of the object tables, area 0x7. -/
def objRowsX7p0 : List ObjRow := [
  ⟨0x7000, 0x7000, 0x1, 0x1, .u 8, .wo, 0x0, .ints [(1, 2)], .all⟩, -- ADC_CMD
  ⟨0x7000, 0x7000, 0x2, 0x2, .u 8, .ro, 0x0, .ints [(0, 2)], .all⟩, -- ADC_STATE
  ⟨0x7000, 0x7000, 0x3, 0x3, .u 8, .ro, 0x0, .ints [(0, 2)], .all⟩, -- ADC_CAL_STATE
  ⟨0x7000, 0x7000, 0x4, 0x4, .u 32, .ro, 0x43210, .any, .all⟩, -- ADC_SLICE_MAP
  ⟨0x7000, 0x7000, 0x5, 0x5, .u 8, .ro, 0x0, .ints [(0, 31)], .all⟩, -- ADC_SLICE_OUT
  ⟨0x7000, 0x7000, 0x6, 0x6, .u 8, .rws, 0x4, .ints [(1, 64)], .all⟩, -- ADC_SWAP_TOL
  ⟨0x7000, 0x7000, 0x7, 0x7, .u 16, .rws, 0x64, .ints [(1, 60000)], .all⟩, -- ADC_OW_INTERVAL
  ⟨0x7000, 0x7000, 0x8, 0x8, .u 16, .rws, 0x32, .ints [(2, 10000)], .all⟩, -- ADC_OW_SETTLE
  ⟨0x7000, 0x7000, 0x9, 0x9, .u 16, .rws, 0x1f40, .ints [(16, 32767)], .all⟩, -- ADC_OW_THRESH
  ⟨0x7010, 0x7010, 0x1, 0x1, .u 32, .ro, 0x0, .any, .all⟩, -- ADC_PRIO_DROPPED
  ⟨0x7010, 0x7010, 0x2, 0x2, .u 32, .ro, 0x0, .any, .all⟩, -- ADC_SWAPS
  ⟨0x7010, 0x7010, 0x3, 0x3, .u 32, .ro, 0x0, .any, .all⟩, -- ADC_SWAP_REJECT
  ⟨0x7010, 0x7010, 0x4, 0x4, .u 32, .ro, 0x0, .any, .all⟩, -- ADC_CAL_DEFERRED
  ⟨0x7010, 0x7010, 0x5, 0x5, .u 32, .ro, 0x0, .any, .all⟩, -- ADC_OW_SKIPPED
  ⟨0x7100, 0x7100, 0x1, 0x10, .u 8, .rws, 0x1, .ints [(0, 4)], .all⟩, -- ADC_IN_GAIN
  ⟨0x7110, 0x7110, 0x1, 0x10, .u 8, .rws, 0x0, .ints [(0, 2)], .all⟩, -- ADC_IN_BW
  ⟨0x7120, 0x7120, 0x1, 0x10, .u 8, .rws, 0x0, .ints [(0, 1)], .all⟩, -- ADC_IN_CLASS
  ⟨0x7130, 0x7130, 0x1, 0x10, .u 8, .rws, 0x0, .ints [(0, 3)], .all⟩, -- ADC_IN_OW
  ⟨0x7140, 0x7140, 0x1, 0x10, .u 8, .ro, 0x0, .ints [(0, 15)], .all⟩, -- ADC_IN_STATUS
  ⟨0x7150, 0x7150, 0x1, 0x10, .i 16, .rws, 0x7fff, .ints [(-32767, 32767)], .all⟩, -- ADC_IN_CMP_HI
  ⟨0x7160, 0x7160, 0x1, 0x10, .i 16, .rws, 0x8001, .ints [(-32767, 32767)], .all⟩, -- ADC_IN_CMP_LO
  ⟨0x7170, 0x7170, 0x1, 0x10, .u 8, .rws, 0x8, .ints [(1, 255)], .all⟩, -- ADC_IN_CMP_FILT
  ⟨0x7200, 0x7203, 0x1, 0x1, .u 8, .rws, 0x0, .ints [(0, 5)], .all⟩, -- ADC_SEQ_TRIG
  ⟨0x7200, 0x7203, 0x2, 0x2, .u 8, .rws, 0x0, .ints [(0, 64)], .all⟩, -- ADC_SEQ_LEN
  ⟨0x7200, 0x7203, 0x3, 0x3, .u 32, .rws, 0x61a80, .ints [(40, 400000000)], .all⟩, -- ADC_SEQ_TIMER
  ⟨0x7200, 0x7203, 0x4, 0x4, .u 8, .rws, 0xf, .ints [(1, 15)], .all⟩, -- ADC_SEQ_SLICES
  ⟨0x7200, 0x7203, 0x5, 0x5, .u 8, .wo, 0x0, .ints [(1, 2)], .all⟩, -- ADC_SEQ_CMD
  ⟨0x7200, 0x7203, 0x6, 0x6, .u 8, .ro, 0x0, .ints [(0, 2)], .all⟩, -- ADC_SEQ_STATE
  ⟨0x7200, 0x7203, 0x7, 0x7, .u 32, .ro, 0x0, .any, .all⟩, -- ADC_SEQ_RUNS
  ⟨0x7200, 0x7203, 0x8, 0x8, .u 32, .ro, 0x0, .any, .all⟩, -- ADC_SEQ_OVERRUN
  ⟨0x7200, 0x7203, 0x9, 0x9, .u 32, .ro, 0x0, .any, .all⟩, -- ADC_SEQ_TRIG_LOST
  ⟨0x7200, 0x7203, 0xa, 0xa, .ts96, .ro, 0x0, .any, .all⟩, -- ADC_SEQ_STAMP
  ⟨0x7200, 0x7203, 0xb, 0xb, .u 64, .ro, 0x0, .any, .all⟩, -- ADC_SEQ_PERIOD
  ⟨0x7300, 0x7303, 0x1, 0x40, .u 16, .rws, 0x0, .any, .all⟩, -- ADC_SEQ_ENTRY
  ⟨0x7400, 0x7403, 0x1, 0x40, .u 32, .ro, 0x110000, .any, .all⟩, -- ADC_RESULT
  ⟨0x7020, 0x7020, 0x1, 0x1, .u 8, .wo, 0x0, .ints [(0, 19)], .all⟩, -- ADC_PRIO_REQ
  ⟨0x7020, 0x7020, 0x2, 0x2, .u 32, .ro, 0x110000, .any, .all⟩, -- ADC_PRIO_RESULT
  ⟨0x7020, 0x7020, 0x3, 0x3, .ts96, .ro, 0x0, .any, .all⟩, -- ADC_PRIO_STAMP
  ⟨0x7030, 0x7030, 0x1, 0x1, .u 8, .rws, 0xff, .ints [(0, 15), (255, 255)], .all⟩, -- ADC_PAIR0
  ⟨0x7030, 0x7030, 0x2, 0x2, .u 8, .rws, 0xff, .ints [(0, 15), (255, 255)], .all⟩] -- ADC_PAIR1

/-- Rows of the object tables, area 0x7. -/
def objRowsX7p1 : List ObjRow := [
  ⟨0x7030, 0x7030, 0x3, 0x3, .u 32, .ro, 0x110000, .any, .all⟩, -- ADC_PAIR0_RESULT
  ⟨0x7030, 0x7030, 0x4, 0x4, .u 32, .ro, 0x110000, .any, .all⟩] -- ADC_PAIR1_RESULT

def objRowsX7 : List ObjRow := objRowsX7p0 ++ objRowsX7p1

/-- Rows of the object tables, area 0x8. -/
def objRowsX8p0 : List ObjRow := [
  ⟨0x8000, 0x8000, 0x1, 0x1, .u 8, .wo, 0x0, .ints [(1, 4)], .node⟩, -- ACQ_CMD
  ⟨0x8000, 0x8000, 0x2, 0x2, .u 8, .ro, 0x0, .ints [(0, 5)], .node⟩, -- ACQ_STATE
  ⟨0x8000, 0x8000, 0x3, 0x3, .u 8, .rws, 0x0, .ints [(0, 1)], .node⟩, -- ACQ_MODE
  ⟨0x8000, 0x8000, 0x4, 0x4, .u 32, .rws, 0x28, .ints [(0, 0), (20, 40000)], .node⟩, -- ACQ_INTERVAL
  ⟨0x8000, 0x8000, 0x5, 0x5, .u 32, .rws, 0x7d0, .ints [(0, 4294967294)], .node⟩, -- ACQ_PRE
  ⟨0x8000, 0x8000, 0x6, 0x6, .u 32, .rws, 0x1f40, .ints [(0, 4294967294)], .node⟩, -- ACQ_POST
  ⟨0x8000, 0x8000, 0x7, 0x7, .bool, .rws, 0x0, .any, .node⟩, -- ACQ_EXTEND
  ⟨0x8000, 0x8000, 0x8, 0x8, .u 16, .rws, 0x0, .any, .node⟩, -- ACQ_TRIG_EN
  ⟨0x8000, 0x8000, 0x9, 0x9, .u 8, .ro, 0x0, .ints [(0, 5)], .node⟩, -- ACQ_CFG_STATUS
  ⟨0x8000, 0x8000, 0xa, 0xa, .u 16, .ro, 0x8, .ints [(8, 264)], .node⟩, -- ACQ_ROW_BYTES
  ⟨0x8000, 0x8000, 0xb, 0xb, .u 32, .ro, 0x0, .any, .node⟩, -- ACQ_ROW_CAP
  ⟨0x8000, 0x8000, 0xc, 0xc, .u 32, .ro, 0x0, .any, .node⟩, -- ACQ_REC_ID
  ⟨0x8010, 0x8010, 0x1, 0x1, .u 8, .rws, 0x0, .ints [(0, 1)], .node⟩, -- ACQ_MEM
  ⟨0x8010, 0x8010, 0x2, 0x2, .u 16, .rws, 0x400, .ints [(1, 8192)], .node⟩, -- ACQ_AREA
  ⟨0x8010, 0x8010, 0x3, 0x3, .u 8, .rws, 0x4, .ints [(1, 64)], .node⟩, -- ACQ_SLOTS
  ⟨0x8010, 0x8010, 0x4, 0x4, .u 64, .ro, 0x800000, .ints [(4096, 8589934592)], .node⟩, -- ACQ_SLOT_BYTES
  ⟨0x8010, 0x8010, 0x5, 0x5, .bool, .rws, 0x0, .any, .node⟩, -- ACQ_OVERWRITE
  ⟨0x8010, 0x8010, 0x6, 0x6, .u 32, .rw, 0x0, .ints [(0, 126976)], .node⟩, -- ACQ_DDR_WINDOW
  ⟨0x8600, 0x8600, 0x1, 0x40, .u 8, .ro, 0x0, .ints [(0, 3)], .node⟩, -- ACQ_SLOT_STATE
  ⟨0x8610, 0x8610, 0x1, 0x40, .u 32, .ro, 0x0, .any, .node⟩, -- ACQ_SLOT_REC
  ⟨0x8620, 0x8620, 0x1, 0x1, .u 8, .wo, 0x0, .ints [(0, 63)], .node⟩, -- ACQ_REC_LOCK
  ⟨0x8620, 0x8620, 0x2, 0x2, .u 8, .wo, 0x0, .ints [(0, 63)], .node⟩, -- ACQ_REC_RELEASE
  ⟨0x8020, 0x8020, 0x1, 0x1, .u 32, .ro, 0x0, .any, .node⟩, -- ACQ_RECORDS
  ⟨0x8020, 0x8020, 0x2, 0x2, .u 32, .ro, 0x0, .any, .node⟩, -- ACQ_TRIG_LOST
  ⟨0x8020, 0x8020, 0x3, 0x3, .u 32, .ro, 0x0, .any, .node⟩, -- ACQ_TRIG_MARKED
  ⟨0x8020, 0x8020, 0x4, 0x4, .u 32, .ro, 0x0, .any, .node⟩, -- ACQ_OVERWRITTEN
  ⟨0x8020, 0x8020, 0x5, 0x5, .u 32, .ro, 0x0, .any, .node⟩, -- ACQ_XT_SENT
  ⟨0x8020, 0x8020, 0x6, 0x6, .u 32, .ro, 0x0, .any, .node⟩, -- ACQ_XT_RECEIVED
  ⟨0x8020, 0x8020, 0x7, 0x7, .u 32, .ro, 0x0, .any, .node⟩, -- ACQ_XT_EARLY
  ⟨0x8020, 0x8020, 0x8, 0x8, .u 32, .ro, 0x0, .any, .node⟩, -- ACQ_XT_SUPPRESSED
  ⟨0x8020, 0x8020, 0x9, 0x9, .u 32, .ro, 0x0, .any, .node⟩, -- ACQ_XT_MAX_AGE
  ⟨0x8100, 0x8100, 0x1, 0x20, .u 16, .rws, 0x0, .any, .node⟩, -- ACQ_ACH_SRC
  ⟨0x8110, 0x8110, 0x1, 0x20, .u 8, .rws, 0x0, .ints [(0, 1)], .node⟩, -- ACQ_ACH_MODE
  ⟨0x8120, 0x8120, 0x1, 0x20, .f32, .rws, 0x3f800000, .finite, .node⟩, -- ACQ_ACH_SCALE
  ⟨0x8130, 0x8130, 0x1, 0x20, .f32, .rws, 0x0, .finite, .node⟩, -- ACQ_ACH_OFFSET
  ⟨0x8140, 0x8140, 0x1, 0x20, .str 8, .rws, 0x0, .any, .node⟩, -- ACQ_ACH_UNIT
  ⟨0x8150, 0x8150, 0x1, 0x20, .str 24, .rws, 0x0, .any, .node⟩, -- ACQ_ACH_NAME
  ⟨0x8200, 0x8200, 0x1, 0x40, .u 16, .rws, 0x0, .any, .node⟩, -- ACQ_DCH_SRC
  ⟨0x8210, 0x8210, 0x1, 0x40, .str 14, .rws, 0x0, .any, .node⟩, -- ACQ_DCH_NAME
  ⟨0x8300, 0x8307, 0x1, 0x1, .u 8, .rws, 0x0, .ints [(0, 31)], .node⟩] -- ACQ_LVL_CH

/-- Rows of the object tables, area 0x8. -/
def objRowsX8p1 : List ObjRow := [
  ⟨0x8300, 0x8307, 0x2, 0x2, .f32, .rws, 0x0, .finite, .node⟩, -- ACQ_LVL_THRESH
  ⟨0x8300, 0x8307, 0x3, 0x3, .f32, .rws, 0x0, .f32 0x0 0x7f61b1e6, .node⟩, -- ACQ_LVL_HYST
  ⟨0x8300, 0x8307, 0x4, 0x4, .u 8, .rws, 0x0, .ints [(0, 2)], .node⟩, -- ACQ_LVL_EDGE
  ⟨0x8400, 0x8400, 0x1, 0x1, .u 64, .rws, 0x0, .any, .node⟩, -- ACQ_PAT_VALUE
  ⟨0x8400, 0x8400, 0x2, 0x2, .u 64, .rws, 0xffffffffffffffff, .any, .node⟩, -- ACQ_PAT_CARE
  ⟨0x8400, 0x8400, 0x3, 0x3, .u 8, .rws, 0x0, .ints [(0, 1)], .node⟩, -- ACQ_PAT_MODE
  ⟨0x8500, 0x8500, 0x1, 0x1, .u 16, .rws, 0x0, .any, .node⟩, -- ACQ_XT_SEND
  ⟨0x8500, 0x8500, 0x2, 0x2, .u 16, .rws, 0xa, .ints [(1, 60000)], .node⟩] -- ACQ_XT_HOLDOFF

def objRowsX8 : List ObjRow := objRowsX8p0 ++ objRowsX8p1

/-- Rows of the object tables, area 0x9. -/
def objRowsX9p0 : List ObjRow := [
  ⟨0x9000, 0x9000, 0x1, 0x1, .u 8, .wo, 0x0, .ints [(2, 2)], .all⟩, -- KET_CMD
  ⟨0x9000, 0x9000, 0x2, 0x2, .u 64, .wo, 0x0, .any, .all⟩, -- KET_CLEAR
  ⟨0x9000, 0x9000, 0x3, 0x3, .u 16, .ro, 0x0, .ints [(0, 256)], .all⟩, -- KET_LATCHED_N
  ⟨0x9000, 0x9000, 0x4, 0x4, .bool, .ro, 0x1, .any, .all⟩, -- KET_FAULTN
  ⟨0x9000, 0x9000, 0x5, 0x5, .u 8, .rws, 0x8, .ints [(1, 64)], .all⟩, -- KET_BURST
  ⟨0x9000, 0x9000, 0x6, 0x6, .u 16, .rws, 0x64, .ints [(1, 60000)], .all⟩, -- KET_REFILL
  ⟨0x9000, 0x9000, 0x7, 0x7, .u 16, .rws, 0xa, .ints [(2, 10000)], .all⟩, -- KET_TX_GAP
  ⟨0x9000, 0x9000, 0x8, 0x8, .u 16, .ro, 0x0, .ints [(0, 4096)], .all⟩, -- KET_Q_FILL
  ⟨0x9000, 0x9000, 0x9, 0x9, .u 16, .ro, 0x0, .ints [(0, 4096)], .all⟩, -- KET_Q_PEAK
  ⟨0x9000, 0x9000, 0xa, 0xa, .u 32, .ro, 0x0, .any, .all⟩, -- KET_CLEAR_REFUSED
  ⟨0x9000, 0x9000, 0xb, 0xb, .u 32, .ro, 0x0, .any, .all⟩, -- KET_PATH_BROKEN
  ⟨0x9000, 0x9000, 0xc, 0xc, .u 32, .ro, 0x0, .any, .apex⟩, -- KET_RX_GAP
  ⟨0x9000, 0x9000, 0xd, 0xd, .octet 32, .ro, 0x0, .any, .apex⟩, -- KET_Q_HEAD
  ⟨0x9000, 0x9000, 0xe, 0xe, .bool, .wo, 0x0, .ints [(1, 1)], .apex⟩, -- KET_Q_POP
  ⟨0x9100, 0x9101, 0x1, 0x80, .u 8, .ro, 0x0, .ints [(0, 31)], .all⟩, -- KET_SRC_STATUS
  ⟨0x9102, 0x9103, 0x1, 0x80, .u 32, .ro, 0x0, .any, .all⟩, -- KET_SRC_COUNT
  ⟨0x9104, 0x9105, 0x1, 0x80, .ts96, .ro, 0x0, .any, .all⟩, -- KET_SRC_FIRST
  ⟨0x9106, 0x9107, 0x1, 0x80, .ts96, .ro, 0x0, .any, .all⟩, -- KET_SRC_LAST
  ⟨0x9108, 0x9109, 0x1, 0x80, .u 32, .ro, 0x0, .any, .all⟩, -- KET_SRC_SUPPRESSED
  ⟨0x910a, 0x910b, 0x1, 0x80, .u 32, .ro, 0x0, .any, .all⟩, -- KET_SRC_RISES
  ⟨0x9110, 0x9111, 0x1, 0x80, .u 16, .saf, 0x0, .any, .all⟩, -- KET_REACT
  ⟨0x9112, 0x9113, 0x1, 0x80, .u 32, .saf, 0x0, .ints [(0, 3600000)], .all⟩, -- KET_ESC_TIME
  ⟨0x9114, 0x9115, 0x1, 0x80, .u 32, .saf, 0x0, .any, .all⟩, -- KET_ESC_COUNT
  ⟨0x9116, 0x9117, 0x1, 0x80, .u 16, .saf, 0x0, .any, .all⟩, -- KET_ESC_REACT
  ⟨0x9200, 0x9200, 0x1, 0xd, .u 32, .ro, 0x0, .any, .all⟩, -- KET_CLASS_SUPPRESSED
  ⟨0x9210, 0x9210, 0x1, 0xd, .u 32, .ro, 0x0, .any, .all⟩, -- KET_CLASS_DROPPED
  ⟨0x9220, 0x9220, 0x1, 0xd, .u 32, .ro, 0x0, .any, .all⟩, -- KET_CLASS_LOGGED
  ⟨0x9800, 0x9800, 0x1, 0x1, .u 16, .wo, 0x0, .any, .node⟩, -- SAF_CMD
  ⟨0x9800, 0x9800, 0x2, 0x2, .u 8, .ro, 0x0, .ints [(0, 4)], .node⟩, -- SAF_STATE
  ⟨0x9800, 0x9800, 0x3, 0x3, .u 32, .ro, 0x0, .any, .node⟩, -- SAF_CHECK_COMPUTED
  ⟨0x9800, 0x9800, 0x4, 0x4, .u 32, .wo, 0x0, .any, .node⟩, -- SAF_CHECK_CONFIRM
  ⟨0x9800, 0x9800, 0x5, 0x5, .u 32, .ro, 0x0, .any, .node⟩, -- SAF_CHECK_STORED
  ⟨0x9800, 0x9800, 0x6, 0x6, .u 32, .ro, 0x0, .ints [(0, 600000)], .node⟩, -- SAF_DEGRADED_LEFT
  ⟨0x9800, 0x9800, 0x7, 0x7, .u 16, .ro, 0x0, .any, .node⟩, -- SAF_BLOCK_CAUSE
  ⟨0x9800, 0x9800, 0x8, 0x8, .u 64, .ro, 0x0, .any, .node⟩, -- SAF_BLOCK_NODES
  ⟨0x9800, 0x9800, 0x9, 0x9, .u 32, .ro, 0x0, .any, .node⟩, -- SAF_FN_STATE
  ⟨0x9800, 0x9800, 0xa, 0xa, .u 32, .ro, 0x0, .any, .node⟩, -- SAF_CONFIRMS
  ⟨0x9800, 0x9800, 0xb, 0xb, .u 32, .ro, 0x0, .any, .node⟩, -- SAF_CONFIRM_FAIL
  ⟨0x9810, 0x9810, 0x1, 0x8, .u 32, .saf, 0x0, .any, .node⟩, -- SAF_FN_CFG
  ⟨0x9820, 0x9820, 0x1, 0x8, .u 16, .saf, 0x32, .ints [(1, 10000)], .node⟩] -- SAF_DISC_TIME

/-- Rows of the object tables, area 0x9. -/
def objRowsX9p1 : List ObjRow := [
  ⟨0x9830, 0x9830, 0x1, 0x1, .u 32, .saf, 0x7d0, .ints [(0, 600000)], .node⟩, -- SAF_DEGRADED_TIME
  ⟨0x9830, 0x9830, 0x2, 0x2, .u 16, .saf, 0xa, .ints [(2, 1000)], .node⟩, -- SAF_PEER_TIMEOUT
  ⟨0x9830, 0x9830, 0x3, 0x3, .u 8, .saf, 0x0, .any, .node⟩, -- SAF_TRIP_DO
  ⟨0x9830, 0x9830, 0x4, 0x4, .u 8, .saf, 0x0, .any, .node⟩, -- SAF_TRIP_LEVEL
  ⟨0x9830, 0x9830, 0x5, 0x5, .u 32, .saf, 0x0, .any, .node⟩] -- SAF_SET_ID

def objRowsX9 : List ObjRow := objRowsX9p0 ++ objRowsX9p1

/-- Rows of the object tables, area 0xa. -/
def objRowsXap0 : List ObjRow := [
  ⟨0xa000, 0xa000, 0x1, 0x1, .u 32, .rws, 0x190, .ints [(100, 40000)], .all⟩, -- TSK_TICK
  ⟨0xa000, 0xa000, 0x2, 0x2, .u 16, .wo, 0x0, .any, .all⟩, -- TSK_CMD
  ⟨0xa000, 0xa000, 0x3, 0x3, .u 16, .rws, 0xc8, .ints [(0, 4000)], .all⟩, -- TSK_PREFETCH
  ⟨0xa000, 0xa000, 0x4, 0x4, .u 32, .ro, 0x76543210, .any, .all⟩, -- TSK_CORE_MAP
  ⟨0xa000, 0xa000, 0x5, 0x5, .u 8, .ro, 0x8, .ints [(0, 8), (15, 15)], .all⟩, -- TSK_SPARE
  ⟨0xa000, 0xa000, 0x6, 0x6, .u 16, .ro, 0x0, .ints [(0, 256)], .all⟩, -- TSK_READY_N
  ⟨0xa000, 0xa000, 0x8, 0x8, .u 16, .ro, 0x400, .ints [(0, 1024)], .all⟩, -- TSK_COMMIT_FREE
  ⟨0xa010, 0xa010, 0x1, 0x8, .u 16, .ro, 0xffff, .ints [(0, 255), (65535, 65535)], .all⟩, -- TSK_CORE_TASK
  ⟨0xa020, 0xa020, 0x1, 0x8, .u 16, .ro, 0xffff, .ints [(0, 255), (65535, 65535)], .all⟩, -- TSK_CORE_ONDECK
  ⟨0xa030, 0xa030, 0x1, 0x8, .u 32, .ro, 0x0, .any, .all⟩, -- TSK_ONDECK_HITS
  ⟨0xa040, 0xa040, 0x1, 0x8, .u 32, .ro, 0x0, .any, .all⟩, -- TSK_ONDECK_MISSES
  ⟨0xa050, 0xa050, 0x1, 0x8, .u 64, .ro, 0x0, .any, .all⟩, -- TSK_CORE_BUSY
  ⟨0xa100, 0xa101, 0x1, 0x80, .u 32, .rws, 0x10000000, .any, .all⟩, -- TSK_ENTRY
  ⟨0xa102, 0xa103, 0x1, 0x80, .u 32, .rws, 0x28010000, .any, .all⟩, -- TSK_STACK
  ⟨0xa104, 0xa105, 0x1, 0x80, .u 8, .rws, 0x1f, .ints [(4, 31)], .all⟩, -- TSK_PRIO
  ⟨0xa106, 0xa107, 0x1, 0x80, .u 8, .rws, 0xff, .ints [(1, 255)], .all⟩, -- TSK_AFFINITY
  ⟨0xa108, 0xa109, 0x1, 0x80, .u 8, .rws, 0x0, .ints [(0, 3)], .all⟩, -- TSK_KIND
  ⟨0xa10a, 0xa10b, 0x1, 0x80, .u 8, .rws, 0x1, .ints [(1, 64)], .all⟩, -- TSK_DIV
  ⟨0xa10c, 0xa10d, 0x1, 0x80, .u 8, .rws, 0x0, .ints [(0, 63)], .all⟩, -- TSK_PHASE
  ⟨0xa10e, 0xa10f, 0x1, 0x80, .u 32, .rws, 0x0, .ints [(0, 39999)], .all⟩, -- TSK_OFFSET
  ⟨0xa110, 0xa111, 0x1, 0x80, .u 32, .rws, 0x3e8, .ints [(1, 16777215)], .all⟩, -- TSK_INTERVAL
  ⟨0xa112, 0xa113, 0x1, 0x80, .u 8, .rws, 0x0, .ints [(0, 20)], .all⟩, -- TSK_EVENT
  ⟨0xa114, 0xa115, 0x1, 0x80, .u 32, .rws, 0x0, .any, .all⟩, -- TSK_DEADLINE
  ⟨0xa116, 0xa117, 0x1, 0x80, .u 8, .rws, 0x10, .ints [(0, 64)], .all⟩, -- TSK_COMMIT_MAX
  ⟨0xa118, 0xa119, 0x1, 0x80, .u 8, .ro, 0x0, .any, .all⟩, -- TSK_STATE
  ⟨0xa11a, 0xa11b, 0x1, 0x80, .u 8, .ro, 0xff, .ints [(0, 7), (255, 255)], .all⟩, -- TSK_LAST_CORE
  ⟨0xa11c, 0xa11d, 0x1, 0x80, .u 32, .ro, 0x0, .any, .all⟩, -- TSK_RELEASES
  ⟨0xa11e, 0xa11f, 0x1, 0x80, .u 32, .ro, 0x0, .any, .all⟩, -- TSK_OVERRUNS
  ⟨0xa120, 0xa121, 0x1, 0x80, .u 32, .ro, 0x0, .any, .all⟩, -- TSK_FAULTS
  ⟨0xa122, 0xa123, 0x1, 0x80, .u 32, .ro, 0x0, .any, .all⟩, -- TSK_RELEASE_LOST
  ⟨0xa124, 0xa125, 0x1, 0x80, .u 32, .ro, 0x0, .any, .all⟩, -- TSK_COMMIT_DROPPED
  ⟨0xa126, 0xa127, 0x1, 0x80, .u 32, .ro, 0x0, .any, .all⟩, -- TSK_COMMIT_ERR
  ⟨0xa128, 0xa129, 0x1, 0x80, .u 32, .ro, 0x0, .any, .all⟩, -- TSK_RESP_MAX
  ⟨0xa12a, 0xa12b, 0x1, 0x80, .u 8, .ro, 0x0, .ints [(0, 5)], .all⟩, -- TSK_LAST_CAUSE
  ⟨0xa800, 0xa80f, 0x1, 0x1, .u 8, .wo, 0x0, .ints [(1, 5)], .node⟩, -- DMA_CMD
  ⟨0xa800, 0xa80f, 0x2, 0x2, .u 64, .rw, 0x0, .any, .node⟩, -- DMA_DESC_HEAD
  ⟨0xa800, 0xa80f, 0x3, 0x3, .u 8, .rws, 0x2, .ints [(0, 3)], .node⟩, -- DMA_PRIO
  ⟨0xa800, 0xa80f, 0x4, 0x4, .u 8, .ro, 0x0, .ints [(0, 3)], .node⟩, -- DMA_STATE
  ⟨0xa800, 0xa80f, 0x5, 0x5, .u 64, .ro, 0x0, .any, .node⟩, -- DMA_CUR_DESC
  ⟨0xa800, 0xa80f, 0x6, 0x6, .u 32, .ro, 0x0, .any, .node⟩] -- DMA_CUR_OFFSET

/-- Rows of the object tables, area 0xa. -/
def objRowsXap1 : List ObjRow := [
  ⟨0xa800, 0xa80f, 0x7, 0x7, .u 8, .ro, 0x0, .ints [(0, 8)], .node⟩, -- DMA_ERR_CODE
  ⟨0xa800, 0xa80f, 0x8, 0x8, .u 64, .ro, 0x0, .any, .node⟩, -- DMA_ERR_DESC
  ⟨0xa800, 0xa80f, 0x9, 0x9, .u 32, .ro, 0x0, .any, .node⟩, -- DMA_ERR_OFFSET
  ⟨0xa800, 0xa80f, 0xa, 0xa, .u 32, .ro, 0x0, .any, .node⟩, -- DMA_CMP_MISMATCH
  ⟨0xa800, 0xa80f, 0xb, 0xb, .u 32, .ro, 0xffffffff, .any, .node⟩, -- DMA_CMP_FIRST
  ⟨0xa800, 0xa80f, 0xc, 0xc, .u 32, .ro, 0x0, .any, .node⟩, -- DMA_DONE_COUNT
  ⟨0xa800, 0xa80f, 0xd, 0xd, .u 64, .ro, 0x0, .any, .node⟩, -- DMA_BYTES
  ⟨0xa800, 0xa80f, 0xe, 0xe, .u 32, .ro, 0x0, .any, .node⟩, -- DMA_ERRORS
  ⟨0xa880, 0xa880, 0x1, 0x1, .u 8, .wo, 0x0, .ints [(1, 1)], .node⟩, -- DMA_GCMD
  ⟨0xa880, 0xa880, 0x2, 0x2, .u 16, .rws, 0x64, .ints [(1, 10000)], .node⟩, -- DMA_PD_WAIT
  ⟨0xa880, 0xa880, 0x3, 0x3, .u 16, .ro, 0x0, .any, .node⟩] -- DMA_ACTIVE

def objRowsXa : List ObjRow := objRowsXap0 ++ objRowsXap1

/-- Rows of the object tables, area 0xb. -/
def objRowsXbp0 : List ObjRow := [
  ⟨0xb000, 0xb000, 0x1, 0x1, .u 8, .ro, 0x0, .ints [(0, 1)], .node⟩, -- FIO_LINK_STATE
  ⟨0xb000, 0xb000, 0x2, 0x2, .bool, .rws, 0x0, .any, .node⟩, -- FIO_EXPECT
  ⟨0xb000, 0xb000, 0x3, 0x3, .u 8, .rws, 0x3, .ints [(1, 255)], .node⟩, -- FIO_LINK_MISS
  ⟨0xb000, 0xb000, 0x4, 0x4, .u 16, .rws, 0x64, .ints [(1, 10000)], .node⟩, -- FIO_SILENCE
  ⟨0xb000, 0xb000, 0x5, 0x5, .u 16, .ro, 0x0, .ints [(0, 20000)], .node⟩, -- FIO_LINK_DELAY
  ⟨0xb000, 0xb000, 0x6, 0x6, .u 32, .ro, 0x0, .any, .node⟩, -- FIO_FRAMES_BAD
  ⟨0xb000, 0xb000, 0x7, 0x7, .u 32, .ro, 0x0, .any, .node⟩, -- FIO_LINK_DOWNS
  ⟨0xb000, 0xb000, 0x8, 0x8, .u 32, .ro, 0x0, .any, .node⟩, -- FIO_PARAM_MISMATCH
  ⟨0xb000, 0xb000, 0x9, 0x9, .u 16, .ro, 0x0, .any, .node⟩, -- FIO_SILENCE_ENTRIES
  ⟨0xb000, 0xb000, 0xa, 0xa, .u 8, .ro, 0x0, .ints [(0, 7)], .node⟩, -- FIO_SUPPLY
  ⟨0xb000, 0xb000, 0xb, 0xb, .i 32, .ro, 0x0, .ints [(-40000, 40000)], .node⟩, -- FIO_SUPPLY_MV
  ⟨0xb000, 0xb000, 0xc, 0xc, .i 16, .ro, 0x0, .any, .node⟩, -- FIO_TEMP
  ⟨0xb000, 0xb000, 0xd, 0xd, .u 8, .wo, 0x0, .ints [(1, 2)], .node⟩, -- FIO_CMD
  ⟨0xb000, 0xb000, 0xe, 0xe, .u 16, .ro, 0x0, .any, .node⟩, -- FIO_DI
  ⟨0xb000, 0xb000, 0x10, 0x10, .u 8, .rw, 0x0, .any, .node⟩, -- FIO_DO_SET
  ⟨0xb000, 0xb000, 0x11, 0x11, .u 8, .ro, 0x0, .any, .node⟩, -- FIO_DO_STATE
  ⟨0xb000, 0xb000, 0x12, 0x12, .u 8, .rws, 0x0, .ints [(0, 15)], .node⟩, -- FIO_DO_PAIR
  ⟨0xb000, 0xb000, 0x13, 0x13, .u 8, .rws, 0x0, .any, .node⟩, -- FIO_SAFE_LEVEL
  ⟨0xb000, 0xb000, 0x14, 0x14, .u 16, .rws, 0x64, .ints [(10, 10000)], .node⟩, -- FIO_DO_RETRY
  ⟨0xb010, 0xb010, 0x1, 0x10, .u 16, .rws, 0x3e8, .ints [(1, 65535)], .node⟩, -- FIO_DI_DEBOUNCE
  ⟨0xb020, 0xb020, 0x1, 0x10, .u 8, .rws, 0x3, .ints [(1, 1), (3, 3)], .node⟩, -- FIO_DI_TYPE
  ⟨0xb030, 0xb030, 0x1, 0x10, .bool, .rws, 0x0, .any, .node⟩, -- FIO_DI_INVERT
  ⟨0xb050, 0xb050, 0x1, 0x8, .u 8, .rws, 0x0, .ints [(0, 1)], .node⟩, -- FIO_DO_OWNER
  ⟨0xb060, 0xb060, 0x1, 0x8, .bool, .rws, 0x1, .any, .node⟩, -- FIO_DO_OPENLOAD
  ⟨0xb070, 0xb070, 0x1, 0x8, .u 8, .ro, 0x0, .ints [(0, 7)], .node⟩, -- FIO_DO_DIAG
  ⟨0xb080, 0xb080, 0x1, 0x8, .u 32, .ro, 0x0, .any, .node⟩, -- FIO_DO_TRIPS
  ⟨0xb100, 0xb101, 0x1, 0x1, .u 8, .rws, 0x0, .ints [(0, 2)], .node⟩, -- POS_ENC_MODE
  ⟨0xb100, 0xb101, 0x2, 0x2, .u 8, .rws, 0x4, .ints [(1, 255)], .node⟩, -- POS_ENC_FILTER
  ⟨0xb100, 0xb101, 0x3, 0x3, .bool, .rws, 0x0, .any, .node⟩, -- POS_ENC_DIR
  ⟨0xb100, 0xb101, 0x4, 0x4, .u 8, .rws, 0x0, .ints [(0, 2)], .node⟩, -- POS_Z_MODE
  ⟨0xb100, 0xb101, 0x5, 0x5, .u 32, .rws, 0x3e8, .ints [(2, 100000)], .node⟩, -- POS_SPEED_WIN
  ⟨0xb100, 0xb101, 0x6, 0x6, .u 32, .rws, 0x2710, .ints [(100, 1000000)], .node⟩, -- POS_STANDSTILL
  ⟨0xb100, 0xb101, 0x7, 0x7, .u 8, .wo, 0x0, .ints [(1, 2)], .node⟩, -- POS_CMD
  ⟨0xb100, 0xb101, 0x8, 0x8, .i 32, .ro, 0x0, .any, .node⟩, -- POS_COUNT
  ⟨0xb100, 0xb101, 0x9, 0x9, .i 32, .ro, 0x0, .any, .node⟩, -- POS_COUNT_PMARK
  ⟨0xb100, 0xb101, 0xa, 0xa, .i 32, .ro, 0x0, .any, .node⟩, -- POS_COUNT_Z
  ⟨0xb100, 0xb101, 0xb, 0xb, .f32, .ro, 0x0, .any, .node⟩, -- POS_SPEED
  ⟨0xb100, 0xb101, 0xc, 0xc, .u 8, .ro, 0x0, .ints [(0, 15)], .node⟩, -- POS_ENC_STATUS
  ⟨0xb100, 0xb101, 0xd, 0xd, .u 32, .ro, 0x0, .any, .node⟩, -- POS_ENC_ILLEGAL
  ⟨0xb110, 0xb110, 0x1, 0x1, .u 8, .rws, 0x0, .ints [(0, 1)], .node⟩] -- POS_SSI_MODE

/-- Rows of the object tables, area 0xb. -/
def objRowsXbp1 : List ObjRow := [
  ⟨0xb110, 0xb110, 0x2, 0x2, .u 8, .rws, 0x19, .ints [(8, 32)], .node⟩, -- POS_SSI_BITS
  ⟨0xb110, 0xb110, 0x3, 0x3, .u 16, .rws, 0x3e8, .ints [(100, 2000)], .node⟩, -- POS_SSI_CLOCK
  ⟨0xb110, 0xb110, 0x4, 0x4, .u 8, .rws, 0x1, .ints [(0, 1)], .node⟩, -- POS_SSI_CODE
  ⟨0xb110, 0xb110, 0x5, 0x5, .u 8, .rws, 0x8, .ints [(1, 64)], .node⟩, -- POS_SSI_DIV
  ⟨0xb110, 0xb110, 0x6, 0x6, .u 32, .rws, 0x0, .ints [(0, 39999)], .node⟩, -- POS_SSI_OFFSET
  ⟨0xb110, 0xb110, 0x7, 0x7, .u 16, .rws, 0x14, .ints [(1, 100)], .node⟩, -- POS_SSI_MONO
  ⟨0xb110, 0xb110, 0x8, 0x8, .u 32, .ro, 0x0, .any, .node⟩, -- POS_SSI_POS
  ⟨0xb110, 0xb110, 0x9, 0x9, .ts96, .ro, 0x0, .any, .node⟩, -- POS_SSI_STAMP
  ⟨0xb110, 0xb110, 0xa, 0xa, .u 8, .ro, 0x0, .ints [(0, 7)], .node⟩, -- POS_SSI_STATUS
  ⟨0xb110, 0xb110, 0xb, 0xb, .u 32, .ro, 0x0, .any, .node⟩, -- POS_SSI_ERRORS
  ⟨0xb120, 0xb121, 0x1, 0x1, .u 8, .rws, 0x0, .ints [(0, 2)], .node⟩, -- POS_PRB_MODE
  ⟨0xb120, 0xb121, 0x2, 0x2, .u 8, .rws, 0x0, .ints [(0, 2)], .node⟩, -- POS_PRB_EDGE
  ⟨0xb120, 0xb121, 0x3, 0x3, .u 8, .rws, 0x0, .ints [(0, 1)], .node⟩, -- POS_PRB_SRC
  ⟨0xb120, 0xb121, 0x4, 0x4, .u 8, .rws, 0xa, .ints [(1, 255)], .node⟩, -- POS_PRB_FILTER
  ⟨0xb120, 0xb121, 0x5, 0x5, .i 32, .ro, 0x0, .any, .node⟩, -- POS_PRB_COUNT
  ⟨0xb120, 0xb121, 0x6, 0x6, .ts96, .ro, 0x0, .any, .node⟩, -- POS_PRB_STAMP
  ⟨0xb120, 0xb121, 0x7, 0x7, .u 8, .ro, 0x0, .ints [(0, 3)], .node⟩, -- POS_PRB_STATUS
  ⟨0xb120, 0xb121, 0x8, 0x8, .u 8, .wo, 0x0, .ints [(1, 1)], .node⟩, -- POS_PRB_CMD
  ⟨0xb120, 0xb121, 0x9, 0x9, .u 32, .ro, 0x0, .any, .node⟩, -- POS_PRB_LATCHES
  ⟨0xb120, 0xb121, 0xa, 0xa, .u 32, .ro, 0x0, .any, .node⟩, -- POS_PRB_OVERRUNS
  ⟨0xb130, 0xb130, 0x1, 0x1, .u 8, .rws, 0x0, .ints [(0, 1)], .node⟩] -- POS_PT_MODE

def objRowsXb : List ObjRow := objRowsXbp0 ++ objRowsXbp1

/-- Rows of the object tables, area 0xc. -/
def objRowsXcp0 : List ObjRow := [
  ⟨0xc000, 0xc000, 0x1, 0x1, .u 8, .rws, 0x0, .ints [(0, 1)], .node⟩, -- RED_MODE
  ⟨0xc000, 0xc000, 0x2, 0x2, .u 8, .rws, 0x0, .ints [(0, 1)], .nodeApexWrites⟩, -- RED_PRIMARY_SIDE
  ⟨0xc000, 0xc000, 0x3, 0x3, .u 16, .rws, 0x8, .ints [(1, 1000)], .node⟩, -- RED_MISMATCH_PERIODS
  ⟨0xc000, 0xc000, 0x4, 0x4, .u 16, .rws, 0x40, .ints [(8, 65535)], .node⟩, -- RED_CHECK_PERIODS
  ⟨0xc000, 0xc000, 0x5, 0x5, .u 8, .rws, 0x4, .ints [(2, 16)], .node⟩, -- RED_XOVER_LEAD
  ⟨0xc000, 0xc000, 0x6, 0x6, .u 8, .rws, 0x1, .ints [(0, 1)], .node⟩, -- RED_BOTH_REACT
  ⟨0xc000, 0xc000, 0x7, 0x7, .u 32, .rws, 0x186a0, .ints [(1, 10000000)], .node⟩, -- RED_RECOVER_PERIODS
  ⟨0xc000, 0xc000, 0x8, 0x8, .u 32, .rws, 0x1388, .ints [(0, 3600000)], .node⟩, -- RED_REVERT_HOLD
  ⟨0xc000, 0xc000, 0x9, 0x9, .bool, .rws, 0x1, .any, .node⟩, -- RED_REVERT_ENABLE
  ⟨0xc000, 0xc000, 0xa, 0xa, .u 16, .rws, 0x3e8, .ints [(1, 65535)], .node⟩, -- RED_INSTEP_PERIODS
  ⟨0xc000, 0xc000, 0xb, 0xb, .u 8, .wo, 0x0, .ints [(1, 4)], .node⟩, -- RED_CMD
  ⟨0xc200, 0xc201, 0x1, 0x80, .f32, .rws, 0x0, .f32 0x0 0x7f61b1e6, .node⟩, -- RED_IN_TOL
  ⟨0xc202, 0xc203, 0x1, 0x80, .u 16, .rws, 0xffff, .ints [(0, 1798), (65535, 65535)], .node⟩, -- RED_CHK_REF
  ⟨0xc204, 0xc205, 0x1, 0x80, .f32, .rws, 0x0, .f32 0x0 0x7f61b1e6, .node⟩, -- RED_CHK_TOL
  ⟨0xc100, 0xc100, 0x1, 0x20, .u 64, .rws, 0x0, .any, .node⟩, -- RED_CADDY_LIST
  ⟨0xc100, 0xc100, 0x21, 0x21, .u 16, .ro, 0x0, .any, .node⟩, -- RED_CADDY_SIZE
  ⟨0xc100, 0xc100, 0x22, 0x22, .u 8, .ro, 0x0, .ints [(0, 3)], .node⟩, -- RED_CADDY_STATUS
  ⟨0xc010, 0xc010, 0x1, 0x1, .u 8, .ro, 0x0, .ints [(0, 4)], .node⟩, -- RED_STATE
  ⟨0xc010, 0xc010, 0x2, 0x2, .u 16, .ro, 0x2000, .any, .node⟩, -- RED_CLAIM
  ⟨0xc010, 0xc010, 0x3, 0x3, .u 16, .ro, 0x0, .any, .node⟩, -- RED_PEER_CLAIM
  ⟨0xc010, 0xc010, 0x4, 0x4, .u 16, .ro, 0xfff, .ints [(0, 4095)], .node⟩, -- RED_HEALTH
  ⟨0xc010, 0xc010, 0x5, 0x5, .u 8, .ro, 0x0, .ints [(0, 2)], .node⟩, -- RED_ROLE
  ⟨0xc010, 0xc010, 0x6, 0x6, .u 8, .ro, 0x0, .ints [(0, 7)], .node⟩, -- RED_PEER_STATUS
  ⟨0xc010, 0xc010, 0x7, 0x7, .u 16, .ro, 0x0, .any, .node⟩, -- RED_MISMATCH_CONSEC
  ⟨0xc010, 0xc010, 0x8, 0x8, .u 8, .ro, 0x0, .ints [(0, 2)], .node⟩, -- RED_CHECK_STATE
  ⟨0xc010, 0xc010, 0x9, 0x9, .u 8, .ro, 0x0, .ints [(0, 2)], .node⟩, -- RED_VERDICT
  ⟨0xc010, 0xc010, 0xa, 0xa, .u 8, .ro, 0x0, .ints [(0, 7)], .node⟩, -- RED_LAST_DECISION
  ⟨0xc010, 0xc010, 0xb, 0xb, .u 32, .ro, 0x0, .ints [(0, 3600000)], .node⟩, -- RED_REVERT_LEFT
  ⟨0xc010, 0xc010, 0xc, 0xc, .u 32, .ro, 0x0, .any, .node⟩, -- RED_INSTEP_RUN
  ⟨0xc010, 0xc010, 0xd, 0xd, .u 64, .ro, 0x0, .any, .node⟩, -- RED_WIRING_DIFF
  ⟨0xc010, 0xc010, 0xe, 0xe, .u 64, .ro, 0x0, .any, .nodeApexWrites⟩, -- RED_WIRING_NODES
  ⟨0xc020, 0xc020, 0x1, 0x1, .u 16, .rw, 0x2000, .any, .node⟩, -- RED_PARENT_CLAIM
  ⟨0xc020, 0xc020, 0x2, 0x2, .u 64, .rw, 0x0, .any, .node⟩, -- RED_PARENT_KX
  ⟨0xc030, 0xc030, 0x1, 0x1, .u 32, .ro, 0x0, .any, .node⟩, -- RED_MISMATCHES
  ⟨0xc030, 0xc030, 0x2, 0x2, .u 32, .ro, 0x0, .any, .node⟩, -- RED_DIGEST_MISSING
  ⟨0xc030, 0xc030, 0x3, 0x3, .u 32, .ro, 0x0, .any, .node⟩, -- RED_SUM_DIFF
  ⟨0xc030, 0xc030, 0x4, 0x4, .u 32, .ro, 0x0, .any, .node⟩, -- RED_UPSTREAM_DIFF
  ⟨0xc030, 0xc030, 0x5, 0x5, .u 32, .ro, 0x0, .any, .node⟩, -- RED_INPUTS_LATE
  ⟨0xc030, 0xc030, 0x6, 0x6, .u 32, .ro, 0x0, .any, .node⟩, -- RED_IN_DISC
  ⟨0xc030, 0xc030, 0x7, 0x7, .u 32, .ro, 0x0, .any, .node⟩] -- RED_CADDY_LATE

/-- Rows of the object tables, area 0xc. -/
def objRowsXcp1 : List ObjRow := [
  ⟨0xc030, 0xc030, 0x8, 0x8, .u 32, .ro, 0x0, .any, .node⟩, -- RED_CADDY_REJECT
  ⟨0xc030, 0xc030, 0x9, 0x9, .u 32, .ro, 0x0, .any, .node⟩, -- RED_CHECKS
  ⟨0xc030, 0xc030, 0xa, 0xa, .u 32, .ro, 0x0, .any, .node⟩, -- RED_CHECK_INCOMPLETE
  ⟨0xc030, 0xc030, 0xb, 0xb, .u 32, .ro, 0x0, .any, .node⟩, -- RED_DEMOTIONS
  ⟨0xc030, 0xc030, 0xc, 0xc, .u 32, .ro, 0x0, .any, .node⟩, -- RED_RETURNS
  ⟨0xc030, 0xc030, 0xd, 0xd, .u 32, .ro, 0x0, .any, .node⟩, -- RED_NOTICE_LATE
  ⟨0xc800, 0xc800, 0x1, 0x1, .u 8, .ro, 0xff, .ints [(0, 1), (255, 255)], .cell⟩, -- RED_OBEYED
  ⟨0xc800, 0xc800, 0x2, 0x2, .u 16, .ro, 0x0, .any, .cell⟩, -- RED_CELL_CLAIM_A
  ⟨0xc800, 0xc800, 0x3, 0x3, .u 16, .ro, 0x0, .any, .cell⟩, -- RED_CELL_CLAIM_B
  ⟨0xc800, 0xc800, 0x4, 0x4, .u 32, .ro, 0x0, .any, .cell⟩, -- RED_OUTRANKED
  ⟨0xc800, 0xc800, 0x5, 0x5, .u 32, .ro, 0x0, .any, .cell⟩] -- RED_STREAM_CHANGES

def objRowsXc : List ObjRow := objRowsXcp0 ++ objRowsXcp1

/-- Rows of the object tables, area 0xd. -/
def objRowsXdp0 : List ObjRow := [
  ⟨0xd000, 0xd000, 0x1, 0x1, .u 8, .wo, 0x0, .ints [(1, 6)], .all⟩, -- NVM_CMD
  ⟨0xd000, 0xd000, 0x2, 0x2, .u 8, .ro, 0x0, .ints [(0, 1)], .all⟩, -- NVM_STORE_STATE
  ⟨0xd000, 0xd000, 0x3, 0x3, .u 8, .ro, 0x0, .ints [(0, 31)], .all⟩, -- NVM_STATUS
  ⟨0xd000, 0xd000, 0x4, 0x4, .u 32, .ro, 0x0, .any, .all⟩, -- NVM_STORE_COUNT
  ⟨0xd000, 0xd000, 0x5, 0x5, .u 32, .ro, 0x0, .any, .all⟩, -- NVM_STORE_GEN
  ⟨0xd000, 0xd000, 0x6, 0x6, .u 16, .ro, 0x0, .any, .all⟩, -- NVM_LOAD_SKIPPED
  ⟨0xd000, 0xd000, 0x7, 0x7, .u 8, .ro, 0x0, .ints [(0, 1)], .all⟩, -- NVM_RUN_SLOT
  ⟨0xd000, 0xd000, 0x8, 0x8, .u 8, .ro, 0x0, .ints [(0, 1)], .all⟩, -- NVM_BOOT_SLOT
  ⟨0xd000, 0xd000, 0x9, 0x9, .bool, .ro, 0x0, .any, .all⟩, -- NVM_TRIAL
  ⟨0xd000, 0xd000, 0xa, 0xa, .u 8, .ro, 0x0, .ints [(0, 3)], .all⟩, -- NVM_BOOT_CAUSE
  ⟨0xd010, 0xd010, 0x1, 0x2, .u 8, .ro, 0x0, .ints [(0, 4)], .all⟩, -- NVM_SLOT_STATUS
  ⟨0xd010, 0xd010, 0x3, 0x4, .u 32, .ro, 0x0, .any, .all⟩, -- NVM_SLOT_VERSION
  ⟨0xd010, 0xd010, 0x5, 0x6, .u 32, .ro, 0x0, .any, .all⟩, -- NVM_SLOT_SVN
  ⟨0xd010, 0xd010, 0x7, 0x8, .u 8, .ro, 0x0, .ints [(0, 6)], .all⟩, -- NVM_SLOT_ERROR
  ⟨0xd020, 0xd020, 0x1, 0x1, .u 8, .rw, 0x0, .ints [(0, 1)], .node⟩, -- NVM_DIST_SLOT
  ⟨0xd020, 0xd020, 0x2, 0x2, .u 8, .ro, 0x0, .ints [(0, 4)], .node⟩, -- NVM_DIST_STATE
  ⟨0xd020, 0xd020, 0x3, 0x3, .u 16, .ro, 0x0, .ints [(0, 1024)], .node⟩, -- NVM_DIST_CELLS
  ⟨0xd020, 0xd020, 0x4, 0x4, .u 16, .ro, 0x0, .ints [(0, 1024)], .node⟩, -- NVM_DIST_OK
  ⟨0xd020, 0xd020, 0x5, 0x5, .u 16, .ro, 0x0, .ints [(0, 1024)], .node⟩, -- NVM_DIST_FAILED
  ⟨0xd100, 0xd100, 0x1, 0x1, .u 8, .ro, 0x0, .ints [(0, 1)], .all⟩, -- SEC_OWNER_STATE
  ⟨0xd100, 0xd100, 0x2, 0x2, .u 16, .wo, 0x0, .any, .all⟩, -- SEC_CMD
  ⟨0xd100, 0xd100, 0x3, 0x3, .u 32, .ro, 0x0, .any, .all⟩, -- SEC_SVN_MIN
  ⟨0xd100, 0xd100, 0x4, 0x4, .u 8, .ro, 0x0, .ints [(0, 7)], .all⟩, -- SEC_STATUS
  ⟨0xd100, 0xd100, 0x5, 0x5, .u 16, .rws, 0x14, .ints [(1, 10000)], .all⟩, -- SEC_AUTH_LIMIT
  ⟨0xd100, 0xd100, 0x6, 0x6, .octet 65, .ro, 0x0, .any, .all⟩, -- SEC_ID_PUBKEY
  ⟨0xd100, 0xd100, 0x7, 0x7, .octet 65, .rw, 0x0, .any, .all⟩, -- SEC_KEY_STAGE
  ⟨0xd100, 0xd100, 0x8, 0x8, .u 8, .rw, 0x0, .ints [(1, 127)], .all⟩, -- SEC_RIGHTS_STAGE
  ⟨0xd100, 0xd100, 0x9, 0x9, .octet 65, .ro, 0x0, .any, .all⟩, -- SEC_IMAGE_KEY
  ⟨0xd100, 0xd100, 0xa, 0xa, .u 32, .ro, 0x0, .any, .all⟩, -- SEC_ATTEST_COUNT
  ⟨0xd110, 0xd110, 0x1, 0x8, .octet 65, .ro, 0x0, .any, .all⟩, -- SEC_HOST_KEY
  ⟨0xd118, 0xd118, 0x1, 0x8, .u 8, .ro, 0x0, .ints [(0, 127)], .all⟩] -- SEC_HOST_RIGHTS

def objRowsXd : List ObjRow := objRowsXdp0

/-- Rows of the object tables, area 0xe. -/
def objRowsXep0 : List ObjRow := [
  ⟨0xe000, 0xe000, 0x1, 0x1, .u 8, .ro, 0x0, .ints [(0, 15)], .all⟩, -- TREE_ROLE
  ⟨0xe000, 0xe000, 0x2, 0x2, .u 8, .ro, 0xff, .ints [(0, 63), (255, 255)], .all⟩, -- TREE_NODE_NUMBER
  ⟨0xe000, 0xe000, 0x3, 0x3, .u 8, .ro, 0x0, .ints [(0, 5)], .all⟩, -- TREE_LEVEL
  ⟨0xe000, 0xe000, 0x4, 0x4, .u 8, .ro, 0x0, .ints [(0, 0), (2, 6)], .all⟩, -- TREE_DEPTH
  ⟨0xe000, 0xe000, 0x5, 0x5, .u 8, .ro, 0x0, .ints [(0, 2)], .all⟩, -- TREE_DOWNLINK_KIND
  ⟨0xe000, 0xe000, 0x6, 0x6, .u 8, .ro, 0x0, .ints [(0, 64)], .all⟩, -- TREE_NODE_COUNT
  ⟨0xe000, 0xe000, 0x7, 0x7, .u 32, .ro, 0x0, .ints [(0, 64512)], .all⟩, -- TREE_CELL_COUNT
  ⟨0xe000, 0xe000, 0x8, 0x8, .u 16, .ro, 0xffff, .ints [(0, 1023), (65535, 65535)], .all⟩, -- TREE_CELL_INDEX
  ⟨0xe000, 0xe000, 0x9, 0x9, .u 8, .ro, 0x0, .ints [(0, 5)], .all⟩, -- TREE_ENUM_STATUS
  ⟨0xe000, 0xe000, 0xb, 0xb, .u 64, .ro, 0x0, .any, .all⟩, -- TREE_PISTE_OVERLONG
  ⟨0xe000, 0xe000, 0xc, 0xc, .u 64, .ro, 0x0, .any, .all⟩, -- TREE_PISTE_MISMATCH
  ⟨0xe010, 0xe010, 0x1, 0x40, .u 8, .rws, 0x0, .ints [(0, 16)], .all⟩, -- TREE_PISTE_LEN
  ⟨0xe000, 0xe000, 0xd, 0xd, .u 32, .ro, 0x0, .any, .apex⟩, -- TREE_APEX_CONFLICT
  ⟨0xe100, 0xe100, 0x1, 0x1, .u 32, .rw, 0x0, .any, .node⟩, -- TREE_REM_TARGET
  ⟨0xe100, 0xe100, 0x2, 0x2, .u 32, .rw, 0x0, .any, .node⟩, -- TREE_REM_OBJECT
  ⟨0xe100, 0xe100, 0x3, 0x3, .octet 32, .rw, 0x0, .any, .node⟩, -- TREE_REM_DATA
  ⟨0xe100, 0xe100, 0x4, 0x4, .u 8, .rw, 0x0, .ints [(0, 32)], .node⟩, -- TREE_REM_LEN
  ⟨0xe100, 0xe100, 0x5, 0x5, .u 8, .wo, 0x0, .ints [(1, 2)], .node⟩, -- TREE_REM_CMD
  ⟨0xe100, 0xe100, 0x6, 0x6, .u 8, .ro, 0x0, .ints [(0, 2)], .node⟩, -- TREE_REM_STATE
  ⟨0xe100, 0xe100, 0x7, 0x7, .u 8, .ro, 0x0, .ints [(0, 12)], .node⟩, -- TREE_REM_RESULT
  ⟨0xe100, 0xe100, 0x8, 0x8, .u 16, .rws, 0x7d0, .ints [(100, 60000)], .node⟩, -- TREE_REM_TIMEOUT
  ⟨0xe100, 0xe100, 0x9, 0x9, .u 8, .rws, 0x3, .ints [(0, 15)], .node⟩, -- TREE_REM_RETRIES
  ⟨0xe100, 0xe100, 0xa, 0xa, .u 32, .ro, 0x0, .any, .node⟩, -- TREE_REM_RETRIED
  ⟨0xe100, 0xe100, 0xb, 0xb, .u 32, .ro, 0x0, .any, .node⟩, -- TREE_REM_FAILED
  ⟨0xe100, 0xe100, 0xc, 0xc, .u 32, .ro, 0x0, .any, .all⟩] -- TREE_REM_CACHED

def objRowsXe : List ObjRow := objRowsXep0

/-- Rows of the object tables, area 0x50. -/
def objRowsX50p0 : List ObjRow := [
  ⟨0x5000, 0x5000, 0x1, 0x1, .u 8, .wo, 0x0, .ints [(1, 6)], .node⟩, -- LAW_CMD
  ⟨0x5000, 0x5000, 0x2, 0x2, .u 8, .ro, 0x0, .ints [(0, 4)], .node⟩, -- LAW_STATE
  ⟨0x5000, 0x5000, 0x3, 0x3, .u 8, .ro, 0x0, .ints [(0, 7)], .node⟩, -- LAW_LOAD_STATUS
  ⟨0x5000, 0x5000, 0x4, 0x4, .u 16, .ro, 0xffff, .ints [(0, 511), (65535, 65535)], .node⟩, -- LAW_LOAD_ITEM
  ⟨0x5000, 0x5000, 0x5, 0x5, .u 32, .ro, 0x0, .ints [(0, 40000)], .node⟩, -- LAW_WCET
  ⟨0x5000, 0x5000, 0x6, 0x6, .u 16, .rws, 0x20, .ints [(0, 400)], .node⟩, -- LAW_MARGIN
  ⟨0x5000, 0x5000, 0x7, 0x7, .u 16, .rws, 0x0, .ints [(0, 512)], .node⟩, -- LAW_ELEMENTS
  ⟨0x5000, 0x5000, 0x8, 0x8, .u 16, .rws, 0x0, .ints [(0, 256)], .node⟩, -- LAW_INPUTS
  ⟨0x5000, 0x5000, 0x9, 0x9, .u 8, .rws, 0x0, .ints [(0, 128)], .node⟩, -- LAW_OUTPUTS
  ⟨0x5000, 0x5000, 0xa, 0xa, .u 8, .rws, 0x0, .ints [(0, 1)], .node⟩, -- LAW_ACTIVE_BANK
  ⟨0x5000, 0x5000, 0xb, 0xb, .u 8, .wo, 0x0, .any, .node⟩, -- LAW_BANK_REQ
  ⟨0x5000, 0x5000, 0xc, 0xc, .u 8, .ro, 0x0, .ints [(0, 3)], .node⟩, -- LAW_BANK_STATUS
  ⟨0x5000, 0x5000, 0xd, 0xd, .u 8, .rws, 0x1, .ints [(0, 1)], .node⟩, -- LAW_FB_MODE
  ⟨0x5000, 0x5000, 0xe, 0xe, .u 32, .rws, 0x7d0, .ints [(0, 39999)], .node⟩, -- LAW_LOCAL_START
  ⟨0x5000, 0x5000, 0xf, 0xf, .u 32, .ro, 0x0, .ints [(0, 40000)], .node⟩, -- LAW_LAST_CYCLES
  ⟨0x5000, 0x5000, 0x10, 0x10, .u 32, .ro, 0x0, .any, .node⟩, -- LAW_ABANDONED
  ⟨0x5000, 0x5000, 0x11, 0x11, .u 32, .ro, 0x0, .any, .node⟩, -- LAW_NONFINITE
  ⟨0x5000, 0x5000, 0x12, 0x12, .u 8, .ro, 0x0, .ints [(0, 2)], .node⟩, -- LAW_FAULT_CAUSE
  ⟨0x5000, 0x5000, 0x13, 0x13, .u 32, .ro, 0x0, .any, .node⟩, -- LAW_FALLBACKS
  ⟨0x5000, 0x5000, 0x14, 0x14, .u 64, .ro, 0x0, .any, .node⟩, -- LAW_EVAL_COUNT
  ⟨0x5000, 0x5000, 0x15, 0x15, .u 32, .ro, 0x0, .any, .node⟩, -- LAW_BANK_CRC0
  ⟨0x5000, 0x5000, 0x16, 0x16, .u 32, .ro, 0x0, .any, .node⟩, -- LAW_BANK_CRC1
  ⟨0x5040, 0x5040, 0x1, 0x1, .octet 64, .ro, 0x0, .any, .node⟩, -- LAW_ELEM_ERR
  ⟨0x5010, 0x5010, 0x1, 0x1, .u 16, .rws, 0x1, .ints [(1, 1000)], .node⟩, -- LAW_LOSS_HOLD
  ⟨0x5010, 0x5010, 0x2, 0x2, .u 16, .rws, 0x5, .ints [(1, 10000)], .node⟩, -- LAW_LOSS_FALLBACK
  ⟨0x5010, 0x5010, 0x3, 0x3, .u 32, .rws, 0x64, .ints [(0, 100000)], .node⟩, -- LAW_LOSS_FAULT
  ⟨0x5010, 0x5010, 0x4, 0x4, .u 32, .rws, 0x14, .ints [(1, 100000)], .node⟩, -- LAW_LOSS_RECOVER
  ⟨0x5010, 0x5010, 0x5, 0x5, .u 16, .rws, 0x32, .ints [(2, 65535)], .node⟩, -- LAW_FRZ_COUNT
  ⟨0x5010, 0x5010, 0x6, 0x6, .u 16, .ro, 0xffff, .ints [(0, 255), (65535, 65535)], .node⟩, -- LAW_BAD_INPUT
  ⟨0x5010, 0x5010, 0x7, 0x7, .u 32, .ro, 0x0, .any, .node⟩, -- LAW_BAD_COUNT
  ⟨0x5010, 0x5010, 0x8, 0x8, .u 32, .ro, 0x0, .any, .node⟩, -- LAW_GOOD_COUNT
  ⟨0x5010, 0x5010, 0x9, 0x9, .u 8, .rws, 0x2, .ints [(1, 255)], .node⟩, -- LAW_MBX_AGE
  ⟨0x5020, 0x5020, 0x1, 0x1, .f32, .ro, 0x0, .any, .node⟩, -- LAW_SCH_SIGMA
  ⟨0x5020, 0x5020, 0x2, 0x2, .u 8, .ro, 0x0, .ints [(0, 7)], .node⟩, -- LAW_SCH_REGION
  ⟨0x5020, 0x5020, 0x3, 0x3, .u 32, .ro, 0x0, .any, .node⟩, -- LAW_SCH_INVALID
  ⟨0x5030, 0x5030, 0x1, 0x1, .u 8, .wo, 0x0, .ints [(1, 3)], .node⟩, -- LAW_TRC_CMD
  ⟨0x5030, 0x5030, 0x2, 0x2, .u 8, .ro, 0x0, .ints [(0, 3)], .node⟩, -- LAW_TRC_STATE
  ⟨0x5030, 0x5030, 0x3, 0x3, .u 16, .rws, 0x1, .ints [(1, 256)], .node⟩, -- LAW_TRC_DECIM
  ⟨0x5030, 0x5030, 0x4, 0x4, .u 16, .rws, 0x1000, .ints [(0, 16383)], .node⟩, -- LAW_TRC_PRE
  ⟨0x5030, 0x5030, 0x5, 0x5, .u 8, .rws, 0x0, .ints [(0, 3)], .node⟩] -- LAW_TRC_SRC

/-- Rows of the object tables, area 0x50. -/
def objRowsX50p1 : List ObjRow := [
  ⟨0x5030, 0x5030, 0x6, 0x6, .u 16, .rws, 0x700, .ints [(0, 1798)], .node⟩, -- LAW_TRC_SIG
  ⟨0x5030, 0x5030, 0x7, 0x7, .f32, .rws, 0x0, .finite, .node⟩, -- LAW_TRC_LEVEL
  ⟨0x5030, 0x5030, 0x8, 0x8, .u 8, .rws, 0x0, .ints [(0, 2)], .node⟩, -- LAW_TRC_EDGE
  ⟨0x5030, 0x5030, 0x9, 0x9, .u 64, .ro, 0x0, .any, .node⟩, -- LAW_TRC_TRIG_PERIOD
  ⟨0x5030, 0x5030, 0xa, 0xa, .u 16, .ro, 0x0, .ints [(0, 16383)], .node⟩, -- LAW_TRC_TRIG_INDEX
  ⟨0x5030, 0x5030, 0xb, 0xb, .u 16, .ro, 0x0, .ints [(0, 16383)], .node⟩, -- LAW_TRC_PRE_ACTUAL
  ⟨0x5030, 0x5030, 0xc, 0xc, .u 32, .ro, 0x0, .any, .node⟩, -- LAW_TRC_TRIG_IGNORED
  ⟨0x5038, 0x5038, 0x1, 0x20, .u 16, .rws, 0xffff, .ints [(0, 1798), (65535, 65535)], .node⟩] -- LAW_TRC_CH

def objRowsX50 : List ObjRow := objRowsX50p0 ++ objRowsX50p1

/-- Rows of the object tables, area 0x51. -/
def objRowsX51p0 : List ObjRow := [
  ⟨0x5100, 0x5101, 0x1, 0x80, .u 32, .rws, 0x0, .any, .node⟩, -- LAW_IN_BIND
  ⟨0x5102, 0x5103, 0x1, 0x80, .f32, .rws, 0x3f800000, .finite, .node⟩, -- LAW_IN_GAIN
  ⟨0x5104, 0x5105, 0x1, 0x80, .f32, .rws, 0x0, .finite, .node⟩, -- LAW_IN_OFFSET
  ⟨0x5106, 0x5107, 0x1, 0x80, .f32, .rws, 0xff61b1e6, .finite, .node⟩, -- LAW_IN_MIN
  ⟨0x5108, 0x5109, 0x1, 0x80, .f32, .rws, 0x7f61b1e6, .finite, .node⟩, -- LAW_IN_MAX
  ⟨0x510a, 0x510b, 0x1, 0x80, .u 8, .ro, 0x0, .any, .node⟩, -- LAW_IN_STATUS
  ⟨0x5180, 0x5180, 0x1, 0x40, .f32, .rw, 0x0, .any, .node⟩, -- LAW_MAILBOX
  ⟨0x5190, 0x5190, 0x1, 0x40, .f32, .ro, 0x0, .any, .node⟩] -- LAW_RESULT

def objRowsX51 : List ObjRow := objRowsX51p0

/-- Rows of the object tables, area 0x52. -/
def objRowsX52p0 : List ObjRow := [
  ⟨0x5200, 0x5200, 0x1, 0x80, .u 32, .rws, 0x0, .any, .node⟩] -- LAW_OUT_BIND

def objRowsX52 : List ObjRow := objRowsX52p0

/-- Rows of the object tables, area 0x54. -/
def objRowsX54p0 : List ObjRow := [
  ⟨0x5400, 0x5403, 0x1, 0x80, .octet 16, .rws, 0x0, .any, .node⟩] -- LAW_ELEMENT

def objRowsX54 : List ObjRow := objRowsX54p0

/-- Rows of the object tables, area 0x58. -/
def objRowsX58p0 : List ObjRow := [
  ⟨0x5800, 0x583f, 0x1, 0x80, .f32, .rws, 0x0, .finite, .node⟩] -- LAW_COEF

def objRowsX58 : List ObjRow := objRowsX58p0

/-- Rows of the object tables, area 0x59. -/
def objRowsX59p0 : List ObjRow := [
  ⟨0x5900, 0x5901, 0x1, 0x8, .f32, .rws, 0x0, .finite, .node⟩, -- LAW_SCH_BP
  ⟨0x5900, 0x5901, 0x9, 0x9, .u 8, .rws, 0x0, .ints [(0, 0), (2, 8)], .node⟩, -- LAW_SCH_POINTS
  ⟨0x5900, 0x5901, 0xa, 0xa, .u 16, .rws, 0x700, .ints [(0, 1798)], .node⟩, -- LAW_SCH_SIGNAL
  ⟨0x5900, 0x5901, 0xb, 0xb, .f32, .rws, 0x0, .f32 0x0 0x7f61b1e6, .node⟩, -- LAW_SCH_HYST
  ⟨0x5900, 0x5901, 0xc, 0xc, .u 16, .rws, 0x0, .ints [(0, 256)], .node⟩] -- LAW_SCH_COUNT

def objRowsX59 : List ObjRow := objRowsX59p0

/-- Rows of the object tables, area 0x5a. -/
def objRowsX5ap0 : List ObjRow := [
  ⟨0x5a00, 0x5a03, 0x1, 0x80, .octet 36, .rws, 0x0, .any, .node⟩] -- LAW_SCH_ENTRY

def objRowsX5a : List ObjRow := objRowsX5ap0

/-- Rows of the object tables, area 0x5c. -/
def objRowsX5cp0 : List ObjRow := [
  ⟨0x5c00, 0x5c0f, 0x1, 0x80, .f32, .ro, 0x0, .any, .node⟩] -- LAW_SIGNAL

def objRowsX5c : List ObjRow := objRowsX5cp0

/-- The rows of an index's area (area: bits [15:12], in 0x5000 bits [15:8]). -/
def objRowsOf (i : Nat) : List ObjRow :=
  match i / 4096 with
  | 1 => objRowsX1
  | 2 => objRowsX2
  | 3 => objRowsX3
  | 4 => objRowsX4
  | 6 => objRowsX6
  | 7 => objRowsX7
  | 8 => objRowsX8
  | 9 => objRowsX9
  | 10 => objRowsXa
  | 11 => objRowsXb
  | 12 => objRowsXc
  | 13 => objRowsXd
  | 14 => objRowsXe
  | 5 =>
    match i / 256 with
    | 80 => objRowsX50
    | 81 => objRowsX51
    | 82 => objRowsX52
    | 84 => objRowsX54
    | 88 => objRowsX58
    | 89 => objRowsX59
    | 90 => objRowsX5a
    | 92 => objRowsX5c
    | _ => []
  | _ => []

/-- The row that lists an object key, if any (R10). -/
def objRow? (k : Nat) : Option ObjRow := (objRowsOf (k / 256)).find? fun r => r.covers (k / 256) (k % 256)

end Sys2Proof.Machine
end

