-- ==== Sys2Proof/Machine/ObjDefault.lean ====
section
/-! DEFINITION. The value an object has while nothing has written it (R9): the Default column of its row, and the rows whose default depends on the straps, the item or the maker. -/
namespace Sys2Proof.Machine

/-- All straps low: a cell of side A. -/
def Straps.low : Straps := ⟨false, false, false, false, false⟩

/-- The apex role (R2). -/
def Straps.apex (p : Straps) : Bool := p.node && p.hosten

/-- TREE_ROLE of the sampled straps (Table 1.9). -/
def Straps.role (p : Straps) : Nat := b2n p.node + 2 * b2n p.hosten + 4 * b2n p.sideB + 8 * b2n p.bootsel

/-- Where R24 keeps a lane of this role on: every lane of a node, U0 and U1 of a cell. -/
def Straps.laneOn (p : Straps) (lane : Nat) : Bool :=
  if p.node then (if p.hosten then lane != 64 && lane != 65 else true) else lane == 64 || lane == 65

/-- The class of a source (Table 10.1). -/
def srcClass (n : Nat) : Nat :=
  if n ≤ 16 then 0 else if n < 32 then 12 else if n < 100 then 1 else if n < 164 then 2 else if n < 196 then 3 else if n < 202 then 4
  else (nth [1, 4, 6, 4, 5, 5, 5, 5, 6, 6, 7, 7, 7, 7, 10, 2, 9, 12, 8, 8, 8, 8, 8, 9, 9, 11, 11, 11, 11, 12, 12, 12, 12, 12] (n - 202) 12)

/-- Table 10.1 gives the source to the role. -/
def srcOfRole (node : Bool) (n : Nat) : Bool :=
  if n ≤ 16 then !node else if n < 32 then false
  else if n < 100 then node || n == 96 || n == 97
  else if n < 164 then node
  else if n < 196 then true
  else if n < 202 then node
  else if n == 202 || n == 217 || n == 218 || n == 219 || n == 225 || n == 226 || n == 231 || n == 233 || n == 234 then n != 217 || node
  else if n == 211 then !node
  else n < 236 && node

/-- The source exists: Table 10.1 gives it to the role, and no lane that R24 keeps off drives it (R267). -/
def srcExists (p : Straps) (n : Nat) : Bool := srcOfRole p.node n && (n < 32 || 99 < n || p.laneOn (n - 32))

/-- KET_REACT of source n by Table 10.1; 0 for a source reserved or absent. -/
def ketReact0 (node : Bool) (n : Nat) : Nat :=
  if !srcOfRole node n then 0
  else if n ≤ 16 then 3 else if n < 202 then 1
  else nth [3, 3, 3, 7, 1, 5, 7, 7, 3, 1, 5, 7, 3, 3, 1, 1, 1, 3, 7, 3, 3, 3, 3, 3, 1, 3, 1, 1, 1, 1, 1, 3, 3, 3] (n - 202) 0

/-- Spares of a class at manufacture (Table 15.3); 0xFF for a class absent from the role (R392). -/
def sparesInit (node : Bool) (c : Nat) : Nat := if !node && c < 2 then 0xFF else nth [1, 2, 1, 1, 16, 4, 4, 2] c 0xFF

/-- The cell engine's sequencer configuration where it differs from the defaults (Table 8.8). -/
def cellAdc : List (Nat × Nat) :=
  [(0x720001, 1), (0x720002, 2), (0x720004, 3), (0x720101, 2), (0x720102, 3), (0x720104, 12), (0x730001, 0x8000), (0x730002, 0x8001),
   (0x730101, 0x4002), (0x730102, 0x4003), (0x730103, 0x4010), (0x712001, 1), (0x712002, 1)]

/-- The default of an object. -/
def objDefault (p : Straps) (k : Nat) : Nat :=
  match objRow? k with
  | none => 0
  | some r =>
    let i := k / 256
    if k == 0xE00001 then p.role
    else if i == 0x4020 then k % 256 - 1
    else if i == 0x6020 && k % 256 ≤ 4 then (k + 1) % 2
    else if i == 0x2010 then b2n (p.laneOn (k % 256 - 1))
    else if i == 0x2020 then (if p.node then 3 else 2)
    else if 0x9110 ≤ i && i ≤ 0x9111 then ketReact0 p.node ((i - 0x9110) * 128 + k % 256 - 1)
    else if 0xA106 ≤ i && i ≤ 0xA107 then (if p.node then 0xFF else 0x01)
    else if i == 0x1110 || i == 0x1120 then sparesInit p.node (k % 256 - 1)
    else if k == 0x101002 then 0xC0A80B40
    else if k == 0xD01001 then 3
    else if k == 0x80000B then 1048062
    else match (if p.node then none else cellAdc.find? fun e => e.1 == k) with
    | some e => e.2
    | none => r.dflt

end Sys2Proof.Machine
end

