-- ==== Sys2Proof/Machine/StAcq.lean ====
section
/-! DEFINITION. The disturbance recorder's own state beside the objects of Tables 9.5 to 9.8 (chapter 9). Instants are valve time in 2^-16 ns. -/
namespace Sys2Proof.Machine

/-- A row held: its period, grid index, instant, and its interval in ticks. -/
structure RowInfo where
  k : Nat
  j : Nat
  inst : Nat
  dur : Nat
deriving DecidableEq, Repr

/-- An extra trigger of a record (R256): row number since arming, fraction, source, instant. -/
structure ExtraTrig where
  row : Nat
  frac : Nat
  src : Nat
  inst : Nat
deriving DecidableEq, Repr

/-- The trigger of a record: row numbers count from arming; first is row 0 of the record, stop its last row. -/
structure TrigRec where
  row : Nat
  frac : Nat
  src : Nat
  sources : Nat
  inst : Nat
  origin : Nat
  pre : Nat
  stop : Nat
  early : Bool
  extended : Bool
  capped : Bool
  extras : List ExtraTrig
  extraN : Nat
deriving DecidableEq, Repr

/-- The record being taken: slot, number, memory base, ring size and row size, rows stored, the rows still in the ring newest first, the trigger, T when it began, and once its last row is known the instant up to which its source samples lie. -/
structure RecSt where
  slot : Nat
  id : Nat
  base : Nat
  cap : Nat
  rowBytes : Nat
  n : Nat
  rows : List RowInfo
  trig : Option TrigRec
  t : Nat
  lim : Option Nat
deriving DecidableEq, Repr

/-- A row of the record whose words source samples still reach: its number since arming, its instant, per channel the least and greatest word of its interval and the latest word of it (R246, R247). -/
structure RowAcc where
  n : Nat
  inst : Nat
  acc : List (Option (Nat × Nat))
  any : List (Option Nat)
deriving DecidableEq, Repr

/-- A level unit (R258): last sample as instant and F32 value, readiness for a rising and a falling crossing. -/
structure LvlSt where
  last : Option (Nat × Nat)
  rise : Bool
  fall : Bool
deriving DecidableEq, Repr

/-- The recorder. cmds: commands that wait for a row instant, with the tick of their write; hist: rows of the record that late results can still reach, newest first; gridK, gridJ: the next row's period and index; xtSeen: triples accepted with their counter value. -/
structure AcqSt where
  cmds : List (Nat × Nat)
  cur : Option RecSt
  hist : List RowAcc
  lvl : List LvlSt
  lawVal : List Nat
  patPrev : Option Bool
  patFresh : Bool
  gridK : Option Nat
  gridJ : Nat
  xtSeq : Nat
  xtSeen : List ((Nat × Bool × Nat) × Nat)
  xtLast : Option Nat
  xtHeld : List (Nat × Nat)
deriving DecidableEq, Repr

/-- A level unit at reset. -/
def LvlSt.init : LvlSt := { last := none, rise := false, fall := false }

/-- The recorder at reset. -/
def AcqSt.init : AcqSt :=
  { cmds := [], cur := none, hist := [], lvl := List.replicate 8 LvlSt.init,
    lawVal := List.replicate 32 0, patPrev := none, patFresh := false, gridK := none, gridJ := 0, xtSeq := 0, xtSeen := [], xtLast := none, xtHeld := [] }

end Sys2Proof.Machine
end

