-- ==== Sys2Proof/Machine/StAdc.lean ====
section
/-! DEFINITION. The analogue subsystem's own state beside the objects of Tables 8.9 to 8.13 (chapter 8). Instants of conversions, settling and releases are half ticks of valve time, since an ADC clock is 2.5 ticks; other times are ticks. -/
namespace Sys2Proof.Machine

/-- What a conversion is for: an entry of a run, a priority request, an open-wire test. -/
inductive AdcUse where
  | entry (seq e run : Nat)
  | prio (n : Nat)
  | openWire
deriving DecidableEq, Repr

/-- A conversion under way or not yet delivered: logical slice, physical slice, input, use, start, conversions of the mean, first sample instant, held, the spare that converts in parallel, the gain codes with the instants from which they act, and whether OPEN has been set meanwhile (R224, R227, R242). -/
structure AdcConv where
  slice : Nat
  phys : Nat
  input : Nat
  use : AdcUse
  start : Nat
  n : Nat
  sample : Nat
  held : Bool
  shadow : Option Nat
  gains : List (Nat × Nat)
  opn : Bool
deriving DecidableEq, Repr

/-- A run: its number, entries not started, entries started and not delivered, whether it was stopped, sample instant of entry 0, its period, when its latest entry started. -/
structure AdcRun where
  num : Nat
  todo : List Nat
  out : List Nat
  stopped : Bool
  stamp : Option Nat
  period : Option Nat
  ready : Nat
deriving DecidableEq, Repr

/-- A sequencer: the run in progress, a pending trigger, runs started, latest TIMER instant. -/
structure AdcSeq where
  run : Option AdcRun
  pend : Bool
  started : Nat
deriving DecidableEq, Repr

/-- A pair: its input while on, whether it goes off at the next P-mark, the next sample number, the P-mark its grid starts from, and samples of the period before whose results are still to come: input, instant, slice. -/
structure AdcPair where
  on : Option Nat
  off : Bool
  j : Nat
  base : Option Nat
  late : List (Nat × Nat × Nat)
deriving DecidableEq, Repr

/-- The open-wire test of an input: since when the current flows, when the latest test began, consecutive open tests, latest period skipped. -/
structure OwSt where
  since : Option Nat
  last : Nat
  opens : Nat
  skipK : Option Nat
deriving DecidableEq, Repr

/-- A round of held conversions: logical slice, sequencer, entry. -/
abbrev AdcRound := List (Nat × Nat × Nat)

/-- The analogue subsystem. rounds: those not started, roundAt: their P-mark, roundN: number of the next; release: slice to the instant it returns to R231; pairWait: pair, sequencer, entry, run, instant from which a pair sample serves; settle: input, from, to; gainEff, bwEff: settings in effect; chg: inputs whose change waits for a held sample; heldEnd: end of the latest held conversion by input; good: latest good code by input; counts: conversions of each logical slice; due: logical slices whose swap is due, with the instant; spareCal: until when the spare calibrates; rejects: rejections in a row by physical slice; prioN: priority requests served; calAt: start of the calibration running; calBoot: it is that of reset release. -/
structure AdcSt where
  convs : List AdcConv
  seqs : List AdcSeq
  rounds : List AdcRound
  roundAt : Nat
  roundN : Nat
  release : List (Nat × Nat)
  pairs : List AdcPair
  pairWait : List (Nat × Nat × Nat × Nat × Nat)
  settle : List (Nat × Nat × Nat)
  gainEff : List Nat
  bwEff : List Nat
  chg : List Nat
  heldEnd : List (Nat × Nat)
  ow : List OwSt
  good : List (Nat × Int)
  cal : List CalEntry
  counts : List Nat
  due : List (Nat × Nat)
  spareCal : Option Nat
  rejects : List Nat
  prioN : Nat
  calAt : Option Nat
  calBoot : Bool
deriving DecidableEq, Repr

/-- A sequencer at reset. -/
def AdcSeq.init : AdcSeq := { run := none, pend := false, started := 0 }

/-- A pair at reset. -/
def AdcPair.init : AdcPair := { on := none, off := false, j := 0, base := none, late := [] }

/-- The open-wire test at reset. -/
def OwSt.init : OwSt := { since := none, last := 0, opens := 0, skipK := none }

/-- The analogue subsystem at reset: OFF. -/
def AdcSt.init : AdcSt :=
  { convs := [], seqs := List.replicate 4 AdcSeq.init, rounds := [], roundAt := 0, roundN := 0, release := [], pairs := List.replicate 2 AdcPair.init,
    pairWait := [], settle := [], gainEff := List.replicate 16 1, bwEff := List.replicate 16 0, chg := [], heldEnd := [],
    ow := List.replicate 16 OwSt.init, good := [], cal := [], counts := [0, 0, 0, 0], due := [], spareCal := none, rejects := [0, 0, 0, 0, 0],
    prioN := 0, calAt := none, calBoot := false }

end Sys2Proof.Machine
end

