-- ==== Sys2Proof/Machine/StBal.lean ====
section
/-! DEFINITION. The balancer's own state beside the objects of Tables 2.13 to 2.17 and 3.12 (chapter 2, R88, R395). -/
namespace Sys2Proof.Machine

/-- The result of the listing of R56 with what the command frame of the slot carries beside it. -/
structure Sel where
  n : Nat
  f : Nat
  sat : Bool
  kTh : Nat
  kCarve : Nat
  tCarve : Nat
  entry : RefEntry
  stick : Nat
  wearRef : Nat
  wearGain : Nat
deriving DecidableEq, Repr

/-- The work of one control period at a node. heard: the first report in time of each index; direct: indices heard on their own downlink; sums, lost: group summaries by the group's first downlink, and those missed; bins: the binning that the entries of the period carry, by slot, once the period's own summaries have moved it on; splitLate: indices whose relayed report came late; out, refOut, sumOut, refIn: payload bytes for the digests of R209. -/
structure PeriodWork where
  k : Nat
  slalom : Nat
  claim : Nat
  sticks : List Nat
  heard : List (Nat × Report)
  direct : List Nat
  closed : List Nat
  inputAt : Nat
  refs : Option (List RefEntry)
  refAt : Nat
  sel : List (Nat × Sel)
  sums : List (Nat × Summary)
  lost : List Nat
  launched : List Nat
  apportioned : Bool
  sumSent : Bool
  ended : Bool
  bins : List (Nat × Nat × Nat)
  splitLate : List Nat
  out : List (Nat × List Nat)
  refOut : List (Nat × List Nat)
  sumOut : List (List Nat)
  refIn : List (Nat × List Nat)
deriving DecidableEq, Repr

/-- A new period's work. -/
def PeriodWork.init (k slalom claim : Nat) (sticks : List Nat) : PeriodWork :=
  { k := k, slalom := slalom, claim := claim, sticks := sticks, heard := [], direct := [], closed := [], inputAt := 0, refs := none, refAt := 0,
    sel := [], sums := [], lost := [], launched := [], apportioned := false, sumSent := false, ended := false, bins := [], splitLate := [], out := [], refOut := [],
    sumOut := [], refIn := [] }

/-- What an arm slot keeps from period to period: the configuration in effect (Table 2.14, in order), the latest entry, its binning, SAT, the run of R68, the allocation of R70. -/
structure SlotSt where
  cfg : List Nat
  last : Option RefEntry
  bin : Option (Nat × Nat)
  sat : Bool
  narrow : Nat
  held : List (Nat × Nat)
deriving DecidableEq, Repr

/-- A slot at reset: the defaults of Table 2.14. -/
def SlotSt.init : SlotSt := { cfg := [16, 4, 0, 0, 10, 1024], last := none, bin := none, sat := false, narrow := 0, held := [] }

/-- An order waiting in the node (R88): cell index, code, tag, periods left. -/
structure CellOrder where
  idx : Nat
  code : Nat
  tag : Nat
  left : Nat
deriving DecidableEq, Repr

/-- The balancer. armPrev: the apex's latest entry of each arm; groupArms: arms a 0xFE link reported in its latest summary; abandonAt: ticks of abandoned periods; triage: first period of the triage running (R395). -/
structure BalSt where
  works : List PeriodWork
  slots : List SlotSt
  armPrev : List (Nat × RefEntry)
  groupArms : List (Nat × List Nat)
  orders : List CellOrder
  tag : Nat
  lateRun : Nat
  abandonAt : List Nat
  withheldK : Option Nat
  triage : Option Nat
deriving DecidableEq, Repr

/-- The balancer at reset. -/
def BalSt.init : BalSt :=
  { works := [], slots := List.replicate 6 SlotSt.init, armPrev := [], groupArms := [], orders := [], tag := 0, lateRun := 0,
    abandonAt := [], withheldK := none, triage := none }

end Sys2Proof.Machine
end

