-- ==== Sys2Proof/Machine/StCell.lean ====
section
/-! DEFINITION. The cell engine's own state beside the objects of Tables 3.8 to 3.11 and 7.16 (chapter 3, R204 to R206). -/
namespace Sys2Proof.Machine

/-- What one leg drives: neither output, the upper or the lower one; both high cannot be written (R91). -/
inductive Leg where | off | upper | lower
deriving DecidableEq, Repr

/-- Terminal states of Table 3.4; the bypass pattern is lower or upper by CEL_FB_BYPASS. -/
inductive Terminal where | block | insPos | insNeg | bypLower | bypUpper
deriving DecidableEq, Repr

/-- The decision of R60. -/
inductive Decision where | bypass | insert (neg : Bool) | carve (neg : Bool) (t : Nat)
deriving DecidableEq, Repr

/-- A scheduled gate edge: instant in valve ticks, output 0 HA, 1 LA, 2 HB, 3 LB, level (R90, R431). -/
structure Edge where
  t : Nat
  out : Nat
  on : Bool
deriving DecidableEq, Repr

/-- A scheduled change of terminal state of period k at valve tick t; due: its edges have been taken; ran: its scheduled instant has passed (R90, R93). -/
structure Change where
  k : Nat
  t : Nat
  target : Terminal
  carveEnd : Bool
  due : Bool
  ran : Bool
deriving DecidableEq, Repr

/-- An accepted command with its decision (R30, R60). -/
structure Accepted where
  k : Nat
  cmd : Command
  dec : Decision
  streamB : Bool
deriving DecidableEq, Repr

/-- A candidate command of R205. -/
structure Cand where
  k : Nat
  streamB : Bool
  cmd : Command
deriving DecidableEq, Repr

/-- The latest valid command of a stream (R205). -/
structure Seen where
  claim : Nat
  period : Nat
deriving DecidableEq, Repr

/-- The bypass switch sequence of R99 and R100. -/
inductive BypPhase where
  | idle
  | closedAtStart
  | pulsing
  | confirmed
  | failed
  | complete
deriving DecidableEq, Repr

/-- The counter record of R107. -/
structure CounterRecord where
  sw : Nat
  tc : Nat
  late : Nat
  rising : Bool
  ext : Int
  started : Bool
deriving DecidableEq, Repr

/-- The cell engine. Instants named Tick are values of TIM_COUNTER. -/
structure CellSt where
  legA : Leg
  legB : Leg
  planned : Terminal
  lastSw : Option Nat
  offAt : List Nat
  onAt : List Nat
  edges : List Edge
  changes : List Change
  ov1 : Bool
  suppressed : Bool
  cmds : List Accepted
  cands : List Cand
  seenA : Option Seen
  seenB : Option Seen
  lastStream : Option Bool
  claimSeen : Nat
  reps : List (Nat × Report)
  slalom : List (Nat × Nat)
  maskOk : Bool
  wearSeen : Bool
  wearRef : Nat
  wearGain : Nat
  insPrev : Nat
  carvePrev : Bool
  shortfall : Bool
  lateLast : Bool
  heldTick : Option Nat
  vchkRun : Nat
  lastOrder : Option (Nat × Nat)
  lateCount : Nat
  ov1Count : Nat
  dsatCount : Nat
  rising : Bool
  ext : Int
  tcStarted : Bool
  byp : BypPhase
  coil : Bool
  semi : Bool
  pulseEnd : Option Nat
  windowEnd : Option Nat
  holdEnd : Option Nat
  tries : Nat
  noDeblock : Option Nat
  record : CounterRecord
deriving DecidableEq, Repr

/-- The engine at reset: outputs low, nothing scheduled, no command, report or contact seen (R77, R102). -/
def CellSt.init : CellSt :=
  { legA := .off, legB := .off, planned := .block, lastSw := none, offAt := [0, 0, 0, 0], onAt := [0, 0, 0, 0], edges := [], changes := [],
    ov1 := false, suppressed := false, cmds := [], cands := [], seenA := none, seenB := none, lastStream := none, claimSeen := 0, reps := [],
    slalom := [], maskOk := false, wearSeen := false, wearRef := 0, wearGain := 0, insPrev := 0, carvePrev := false, shortfall := false,
    lateLast := false, heldTick := none, vchkRun := 0, lastOrder := none, lateCount := 0, ov1Count := 0, dsatCount := 0, rising := false,
    ext := 0, tcStarted := false, byp := .idle, coil := false, semi := false, pulseEnd := none, windowEnd := none,
    holdEnd := none, tries := 0, noDeblock := none,
    record := { sw := 0, tc := 0, late := 0, rising := false, ext := 0, started := false } }

end Sys2Proof.Machine
end

