-- ==== Sys2Proof/Machine/StDma.lean ====
section
/-! DEFINITION. The data movers' own state beside the objects of Tables 12.8 and 12.9 (chapter 12). -/
namespace Sys2Proof.Machine

/-- A fetched descriptor with its pairs (Table 12.3); snap: the source bytes of a copy whose one pair overlaps the other, as they stood at its first burst (R321). Writes arrive as they are accepted here, so BARRIER delays nothing (R319). -/
structure DmaDesc where
  addr : Nat
  op : Nat
  swap : Nat
  barrier : Bool
  evt : Bool
  wb : Bool
  stopDiff : Bool
  src : List (Nat × Nat)
  dst : List (Nat × Nat)
  pattern : List Nat
  snap : Option (List Nat)
deriving DecidableEq, Repr

/-- A channel: the descriptor in progress, the one to fetch, NEXT of the latest descriptor read. -/
structure DmaChan where
  cur : Option DmaDesc
  fetchAt : Option Nat
  next : Nat
deriving DecidableEq, Repr

/-- The data movers. pd: domains whose power-down waits, with the tick of the request (R324). -/
structure DmaSt where
  chans : List DmaChan
  pd : List (Nat × Nat)
deriving DecidableEq, Repr

/-- A channel at reset. -/
def DmaChan.init : DmaChan := { cur := none, fetchAt := none, next := 0 }

/-- At reset: every channel IDLE. -/
def DmaSt.init : DmaSt := { chans := List.replicate 16 DmaChan.init, pd := [] }

end Sys2Proof.Machine
end

