-- ==== Sys2Proof/Machine/StFio.lean ====
section
/-! DEFINITION. The field island and the die's side of the isolation link beside the objects of Tables 13.7 to 13.9 (chapter 13). -/
namespace Sys2Proof.Machine

/-- An encoder at the island: filtered A and B as 2A + B, filtered Z, count, tick of the latest counted edge, illegal transition since the last MAIN frame, Z armed (R343 to R345); past: the latest changes, newest first, each with its tick, the count after it and the lines as 4A + 2B + Z (R349, R350). -/
structure EncSt where
  ab : Nat
  z : Bool
  count : Nat
  edgeAt : Option Nat
  ill : Bool
  armed : Bool
  past : List (Nat × Nat × Nat)
deriving DecidableEq, Repr

/-- An encoder as the die follows it: latest ENC field, latest non-zero change was negative, edge history newest first as valve-time ticks and count (R347). -/
structure EncDie where
  prev : Option Nat
  neg : Option Bool
  hist : List (Nat × Int)
deriving DecidableEq, Repr

/-- The island. safe: in its safe state; leftSafe: it has left it since power-up; lastDown: tick of the latest valid down frame; sAt, seq: S(n) and SEQ of the frame under answer; cyc: parameters in consecutive valid frames; doCmd, params: the DO field and its copy of the parameters by number, in force before S(n) + 1.0 us; doNew, parNew: those of the frame at S(n), in force from then on; cmp, cmpAt: comparator levels and since when; str: strainer outputs before inversion; off: ends of SHORT off-times; hot, opn: outputs in OVERTEMP and OPEN; mv: L+; flags: LOW, MISSING, REVERSE; cond: conditions about to change with the tick of the crossing; slots: pending items; rot: next of items 10 to 14; silence: safe-state entries; pmAt, ssiAt: instants that the latest down frames set, oldest first; ssiRun: start of a transfer; ssiFree: when its recovery ends; prbArm: probes armed; main, fast: up frames of the latest down frame. -/
structure IslandSt where
  up : Bool
  safe : Bool
  leftSafe : Bool
  lastDown : Nat
  sAt : Nat
  seq : Nat
  cyc : List Nat
  doCmd : Nat
  doNew : Nat
  params : List (Nat × Nat)
  parNew : Option (Nat × Nat)
  cmp : Nat
  cmpAt : List Nat
  str : Nat
  off : List (Option Nat)
  hot : Nat
  opn : Nat
  mv : Int
  flags : Nat
  cond : List (Nat × Nat)
  enc : List EncSt
  slots : List (Nat × Nat)
  rot : Nat
  silence : Nat
  pmAt : List Nat
  ssiAt : List Nat
  ssiRun : Option Nat
  ssiFree : Nat
  prbArm : List Bool
  main : Nat
  fast : Nat
deriving DecidableEq, Repr

/-- The field island and the die's side. pmPrev: POS_COUNT_PMARK of the P-mark before; lastF: tick of the latest down frame, down: its word; await: its MAIN frame has not come; good, bad: consecutive good and bad MAIN frames; changed: parameters to send first; pos: next of the cycle; clear: CLEAR_FAULTS waits; enc: encoders; faults: latest DO_FAULT; ssiStamp: valve time of the latest transfer start in ticks. -/
structure FioSt where
  pmPrev : List Nat
  island : IslandSt
  lastF : Option Nat
  down : Option Nat
  await : Bool
  good : Nat
  bad : Nat
  changed : List Nat
  pos : Nat
  clear : Bool
  enc : List EncDie
  faults : Nat
  ssiStamp : Nat
deriving DecidableEq, Repr

/-- An encoder at power-up. -/
def EncSt.init : EncSt := { ab := 0, z := false, count := 0, edgeAt := none, ill := false, armed := false, past := [] }

/-- An encoder as the die sees it first. -/
def EncDie.init : EncDie := { prev := none, neg := none, hist := [] }

/-- The island held in reset: every output off (R327). -/
def IslandSt.init : IslandSt :=
  { up := false, safe := true, leftSafe := false, lastDown := 0, sAt := 0, seq := 0, cyc := [], doCmd := 0, doNew := 0, params := [], parNew := none, cmp := 0,
    cmpAt := List.replicate 16 0, str := 0, off := List.replicate 8 none, hot := 0, opn := 0, mv := 0, flags := 0, cond := [],
    enc := List.replicate 2 EncSt.init, slots := [], rot := 10, silence := 0, pmAt := [], ssiAt := [], ssiRun := none, ssiFree := 0,
    prbArm := [false, false], main := 0, fast := 0 }

/-- At reset: the link DOWN, the island without supply. -/
def FioSt.init : FioSt :=
  { pmPrev := [0, 0], island := IslandSt.init, lastF := none, down := none, await := false, good := 0, bad := 0, changed := [], pos := 0,
    clear := false, enc := List.replicate 2 EncDie.init, faults := 0, ssiStamp := 0 }

end Sys2Proof.Machine
end

