-- ==== Sys2Proof/Machine/StJop.lean ====
section
/-! DEFINITION. Host ports and JOP sessions beside the objects of Table 14.18 (R367 to R371). -/
namespace Sys2Proof.Machine

/-- A reply datagram as sent (Table 14.9): port and host address, KIND, SESSION, own SEQ, OP, STATUS, ECHO, body, TAG. -/
structure Reply where
  port : Nat
  addr : Nat
  auth : Bool
  session : Nat
  seq : Nat
  op : Nat
  status : Nat
  echo : Nat
  body : List Nat
  tag : Nat
deriving DecidableEq, Repr

/-- What a host port has sent last. -/
inductive HostOut where
  | jop (r : Reply)
  | arp (port ip mac : Nat)
  | echo (port addr : Nat) (data : List Nat)
deriving DecidableEq, Repr

/-- A held OPEN (R370): number, key slot, long-term key carried, T and SIG_D in bytes, both session keys, when it came. -/
structure OpenSt where
  id : Nat
  slot : Nat
  ql : Nat
  t : List Nat
  sigD : Nat
  keyHd : Nat
  keyDh : Nat
  at_ : Nat
deriving DecidableEq, Repr

/-- A request in progress: SEQ, op, port and address it came from. -/
structure Waiting where
  seq : Nat
  op : Nat
  port : Nat
  addr : Nat
deriving DecidableEq, Repr

/-- An open session (R371): rights, keys, greatest SEQ accepted and those accepted among the 64 below it, own SEQ sent, its latest 16 requests, the replies to them, requests in progress, tick of the latest accepted request. -/
structure Session where
  id : Nat
  rights : Nat
  keyHd : Nat
  keyDh : Nat
  top : Nat
  seen : List Nat
  sent : Nat
  latest : List Nat
  replies : List (Nat × Reply)
  waiting : List Waiting
  last : Nat
deriving DecidableEq, Repr

/-- Addressing in effect since the latest reset (R367): addresses, JOP port, VLAN. -/
structure NetCfg where
  ip0 : Nat
  ip1 : Nat
  jopPort : Nat
  vlan : Nat
deriving DecidableEq, Repr

/-- The host ports. fails: ticks of the verification and TAG failures of the latest second; authEnd: when the rate condition ends; pings: ticks of the echoes answered in the latest second; out: what was sent last. -/
structure JopSt where
  net : NetCfg
  nextId : Nat
  opens : List OpenSt
  sessions : List Session
  fails : List Nat
  authEnd : Option Nat
  pings : List Nat
  out : Option HostOut
deriving DecidableEq, Repr

/-- At reset: the default addressing of Table 14.18, no session. -/
def JopSt.init : JopSt :=
  { net := { ip0 := 0xC0A80A40, ip1 := 0xC0A80B40, jopPort := 47600, vlan := 0xFFFF }, nextId := 1, opens := [], sessions := [], fails := [],
    authEnd := none, pings := [], out := none }

end Sys2Proof.Machine
end

