-- ==== Sys2Proof/Machine/StJtag.lean ====
section
/-! DEFINITION. The test access port (R427). -/
namespace Sys2Proof.Machine

/-- What the chained outputs show: the function of the device, the update stage of the chain, or high impedance. -/
inductive PinMode where | system | chain | highz
deriving DecidableEq, Repr

/-- The port. ir: instruction code; chain: the update stage of the boundary-scan chain; captured: the balls captured last; dr: the register between TDI and TDO of IDCODE, none for the chain or the bypass bit; bypass: that bit; pins: what drives the outputs. -/
structure JtagSt where
  ir : Nat
  chain : List Bool
  captured : List Bool
  dr : Option Nat
  bypass : Bool
  pins : PinMode
deriving DecidableEq, Repr

/-- In test-logic reset with IDCODE selected. -/
def JtagSt.init : JtagSt := { ir := 2, chain := [], captured := [], dr := none, bypass := false, pins := .system }

end Sys2Proof.Machine
end

