-- ==== Sys2Proof/Machine/StKet.lean ====
section
/-! DEFINITION. The kettle's and the safety unit's own state beside the objects of Tables 10.10 to 10.13 (chapter 10). -/
namespace Sys2Proof.Machine

/-- A source's token bucket and escalation timer (R274, R278): tokens held, events lost since the last SUPPRESSED event, next refill, escalation instant, source data. -/
structure KSrc where
  n : Nat
  tokens : Nat
  lost : Nat
  refill : Option Nat
  escAt : Option Nat
  data : Nat
deriving DecidableEq, Repr

/-- The kettle. broken: the sources with a broken path (R268); cond: the sources whose own condition of R432 stands; live, latched: the sources whose LIVE, whose LATCHED is 1; dropped: events lost to a full queue in the present episode (R279); rxFseq: latest FSEQ of each originator, keyed by (SRC, side). -/
structure KetSt where
  srcs : List KSrc
  queue : List Event
  eseq : Nat
  fseq : Nat
  lastFrame : Option Nat
  rxFseq : List ((Nat × Bool) × Nat)
  pathTested : Bool
  broken : List Nat
  cond : List Nat
  live : List Nat
  latched : List Nat
  dropped : Nat
deriving DecidableEq, Repr

/-- The kettle at reset. -/
def KetSt.init : KetSt :=
  { srcs := [], queue := [], eseq := 0, fseq := 0, lastFrame := none, rxFseq := [], pathTested := false, broken := [], cond := [], live := [], latched := [], dropped := 0 }

/-- One safety function's own state (R283, R284): channel values, since when they differ, since when it differs from the duplicate's. -/
structure FnSt where
  discAt : Option Nat
  bothSeen : Bool
  peerDiffAt : Option Nat
deriving DecidableEq, Repr

/-- A function at reset. -/
def FnSt.init : FnSt := { discAt := none, bothSeen := false, peerDiffAt := none }

/-- A present schuss request of this node (R286): which cause holds it. -/
inductive Cause where | fn (f : Nat) | src (n : Nat) | degraded
deriving DecidableEq, Repr

/-- The confirmed safety set in the parameter store: values by object key, and the check value (R293, R294). -/
structure SafetySet where
  vals : List (Nat × Nat)
  check : Nat
deriving DecidableEq, Repr

/-- The safety unit. causes: the present requests for a schuss, each with whether it calls for URGENT_TRIP (R286); degEnd: the valve time, in ticks, at which the degraded timer reaches 0 (R291); degFrozen: the ticks left when DEGRADED was left, and when that was. -/
structure SafSt where
  fns : List FnSt
  causes : List (Cause × Bool)
  seq : Nat
  repeatAt : Option Nat
  degEnd : Option Nat
  degFrozen : Option (Nat × Nat)
  noCauseAt : Option Nat
  expired : Bool
  tripHeld : Bool
  confirmVal : Nat
  sseq : Nat
  peer : Option SafeStatus
  peerLast : Option Nat
  peerMissing : Bool
  checkDiffers : Bool
  nodes : List (Nat × Nat)
  nodeBad : List (Nat × Bool)
  rseq : Nat
  rseqSeen : Option Nat
  relLeft : Nat
  relAt : Option Nat
  schMem : List (Nat × Nat)
  stored : Option SafetySet
deriving DecidableEq, Repr

/-- The safety unit at reset. -/
def SafSt.init : SafSt :=
  { fns := List.replicate 8 FnSt.init, causes := [], seq := 0, repeatAt := none, degEnd := none, degFrozen := none,
    noCauseAt := none, expired := false, tripHeld := false, confirmVal := 0, sseq := 0, peer := none, peerLast := none, peerMissing := false,
    checkDiffers := false, nodes := [], nodeBad := [], rseq := 0, rseqSeen := none, relLeft := 0, relAt := none, schMem := [], stored := none }

end Sys2Proof.Machine
end

