-- ==== Sys2Proof/Machine/StLaw.lean ====
section
/-! DEFINITION. The law engine's own state beside the objects of Tables 4.13 to 4.17 (chapter 4). -/
namespace Sys2Proof.Machine

/-- A period that awaits its law start: result words of the ADC inputs latched at P(k) by input, whether those sampled at P(k) are among them, the role for the period (R113, R207). -/
structure LawWait where
  k : Nat
  adc : List (Nat × Nat)
  held : Bool
  role : Nat
deriving DecidableEq, Repr

/-- An evaluation in flight: its shadow results (R36, R123). sig: new signal values by address; states, c0s, ramps: by element; err: elements that kept a state; cycles: its length; lost: it cannot complete; idle: the engine does not evaluate in this period. -/
structure LawEval where
  k : Nat
  start : Nat
  sig : List (Nat × Nat)
  states : List (Nat × List Nat)
  c0s : List (Nat × Nat)
  ramps : List (Nat × (Nat × Nat × Nat))
  err : List Nat
  cycles : Nat
  lost : Bool
  idle : Bool
deriving DecidableEq, Repr

/-- The trace unit's counters (R134, R135): commits and samples since ARM, samples still to record, a trigger that waits for the next sample, the latest value of the level signal. -/
structure TrcSt where
  commits : Nat
  n : Nat
  left : Nat
  trig : Bool
  prev : Option Nat
deriving DecidableEq, Repr

/-- The law engine. cross: marked instants of the cross-tree trigger; pendCmd: 1 START, 2 STOP from the next P-mark, 0 none; swap: accepted requests as bank, PRESET, first evaluation; undo: states and c0 as they were before a PRESET of the evaluation in flight; states: committed states by element; c0: coefficient c0 of each element's latest evaluation; ramps: old value, new value, period by element; sched: scheduled coefficients of the latest evaluation; good: last good value by input; frz: latest raw value and its run by input, frzOwn the same of the own values (R213); mbx: law starts before the latest write, by mailbox word; starts: law start instants so far; runs: evaluations in a row in which an input was bad, by input; lanesOut: failed lanes to be mapped out at the next P-mark; doVal: latest FIELD_DO commits. -/
structure LawSt where
  cross : List Nat
  pendCmd : Nat
  swap : List (Nat × Bool × Nat)
  undo : Option (List (Nat × List Nat) × List (Nat × Nat))
  states : List (Nat × List Nat)
  c0 : List (Nat × Nat)
  ramps : List (Nat × (Nat × Nat × Nat))
  sched : List (Nat × Nat)
  good : List (Nat × Nat)
  frz : List (Nat × (Nat × Nat))
  frzOwn : List (Nat × (Nat × Nat))
  mbx : List (Nat × Nat)
  starts : Nat
  runs : List (Nat × Nat)
  waits : List LawWait
  eval : Option LawEval
  lanesOut : List Nat
  doVal : List (Nat × Nat)
  trc : TrcSt
deriving DecidableEq, Repr

/-- The trace unit at reset. -/
def TrcSt.init : TrcSt := { commits := 0, n := 0, left := 0, trig := false, prev := none }

/-- The law engine at reset: STOPPED. -/
def LawSt.init : LawSt :=
  { cross := [], pendCmd := 0, swap := [], undo := none, states := [], c0 := [], ramps := [], sched := [], good := [], frz := [], frzOwn := [], mbx := [], starts := 0,
    runs := [], waits := [], eval := none, lanesOut := [], doVal := [], trc := TrcSt.init }

end Sys2Proof.Machine
end

