-- ==== Sys2Proof/Machine/StLnk.lean ====
section
/-! DEFINITION. The lane subsystem's own state beside the objects of Tables 5.12 to 5.16 (chapter 5). -/
namespace Sys2Proof.Machine

/-- What a queue entry holds: a frame of this device, or the bytes of one passed on, with the mark of a bad end (R159, R397). -/
inductive TxBody where
  | own (f : Frame) (bad : Bool)
  | fwd (bytes : List Nat) (bad : Bool)
deriving DecidableEq, Repr

/-- A queued frame: class, length in bytes, body, whether the reserve of class 4 on a peer lane is open to it (R292), whether it goes ahead of its class (R202), and the tick in which its SOF reached the output (R158). -/
structure TxItem where
  cls : Nat
  len : Nat
  reserve : Bool
  ahead : Bool
  born : Nat
  body : TxBody
deriving DecidableEq, Repr

/-- A symbol of Table 5.2 as received or sent: a data block or data characters, a schuss with its bytes, or a code error (bad). -/
inductive Sym where
  | idle
  | presence (holdoff : Bool)
  | sof (cls : Nat)
  | eof
  | eofBad
  | resume (cls : Nat)
  | linkState (hops behind : Nat)
  | schuss (bytes : List Nat)
  | data (bytes : List Nat)
  | bad
deriving DecidableEq, Repr

/-- What a lane sends beside frames of classes 1 to 7: a ladder frame by its 32 bytes, a symbol, a pattern, each with the number of times (R154). -/
inductive LaneOut where
  | ladder (bytes : List Nat) (times : Nat)
  | sym (y : Sym) (times : Nat)
  | prbs
  | pattern (p : Nat)
deriving DecidableEq, Repr

/-- A frame being received: the class of its SOF, its bytes so far, and the tick in which its SOF was taken. -/
structure RxFrame where
  cls : Nat
  bytes : List Nat
  born : Nat
deriving DecidableEq, Repr

/-- One lane. Instants are counter ticks. q, cur and susp are the transmitter's frames, wait what waits for a gap between frames, out what it sent last beside frames, sent the line units of the frame sent last; rx and rxSusp are the receiver's frame and its stack with the ticks of suspension; code counts the code errors of a window of 125 us by its number; loopAt is the tick to which a loop has been counted, loopLeave when a looped partner leaves; lsSaid the LINK_STATE sent last. -/
structure LaneSt where
  entered : Nat
  presence : Option Nat
  holdoffRx : Bool
  cap : Option Ladder
  capAt : Option Nat
  capSent : Bool
  rate : Option Nat
  tries : List Nat
  consecutive : Nat
  b : Nat
  backoffEnd : Option Nat
  rxLocked : Bool
  partnerLocked : Bool
  ownPass : Option Bool
  partnerPass : Option Bool
  everL5 : Bool
  q : List TxItem
  cur : Option TxItem
  susp : List TxItem
  wait : List LaneOut
  out : List LaneOut
  sent : List Nat
  rx : Option RxFrame
  rxSusp : List (RxFrame × Nat)
  code : Nat × Nat
  lsAt : Option Nat
  hops : Nat
  behind : Nat
  knownAt : Option Nat
  lsSaid : Option (Nat × Nat)
  loopPartner : Bool
  loopAt : Nat
  loopLeave : Option Nat
deriving DecidableEq, Repr

/-- A lane at reset. -/
def LaneSt.init : LaneSt :=
  { entered := 0, presence := none, holdoffRx := false, cap := none, capAt := none, capSent := false, rate := none, tries := [0, 0, 0, 0],
    consecutive := 0, b := 0, backoffEnd := none, rxLocked := false, partnerLocked := false, ownPass := none, partnerPass := none, everL5 := false,
    q := [], cur := none, susp := [], wait := [], out := [], sent := [], rx := none, rxSusp := [], code := (0, 0), lsAt := none, hops := 31,
    behind := 0, knownAt := none, lsSaid := none, loopPartner := false, loopAt := 0, loopLeave := none }

/-- The lanes, and the frames of each class this device has originated (R147). consumed: the latest frame taken by the device itself. -/
structure LnkSt where
  lanes : List LaneSt
  seqs : List Nat
  consumed : Option (Nat × Hdr × List Nat)
deriving DecidableEq, Repr

/-- The lane subsystem at reset. -/
def LnkSt.init : LnkSt := { lanes := List.replicate 68 LaneSt.init, seqs := [0, 0, 0, 0, 0, 0, 0, 0], consumed := none }

end Sys2Proof.Machine
end

