-- ==== Sys2Proof/Machine/StNvm.lean ====
section
/-! DEFINITION. The non-volatile store beside the objects of Tables 14.19 and 14.20 (R374 to R380). -/
namespace Sys2Proof.Machine

/-- A copy of the parameter store: its generation, whether its CRC-32C passes, the straps of the device that stored it, and the RWS values that differ from their defaults under them (R374). -/
structure StoreCopy where
  gen : Nat
  good : Bool
  straps : Straps
  vals : List (Nat × Nat)
deriving DecidableEq, Repr

/-- A piste of a distribution (R380): its downlink, the indices of its cells, those whose ACK is outstanding, those that ended VALID, the union of missing ranges of the round, the round, and whether it has ended. -/
structure DistPiste where
  link : Nat
  cells : List Nat
  wait : List Nat
  valid : List Nat
  missing : List (Nat × Nat)
  round : Nat
  ended : Bool
deriving DecidableEq, Repr

/-- The NVM. factory: slots that hold the image written at manufacture; opened: the slot not running has been erased since the latest VERIFY or ACTIVATE; eraseEnd: latest end of the erase running; held: bytes that wait for it; eraseBad: the erase failed; trialBooted: the slot of NVM_BOOT_SLOT has been booted since ACTIVATE; copies: the two copies; made: a store has been made; busy: the snapshot being written and the latest end; loaded: the copy in force; dist: the pistes of a distribution, xfer its transfer number. -/
structure NvmSt where
  factory : List Nat
  opened : Bool
  eraseEnd : Option Nat
  held : List (Nat × List Nat)
  eraseBad : Bool
  trialBooted : Bool
  copies : List (Option StoreCopy)
  made : Bool
  busy : Option (StoreCopy × Nat)
  loaded : Option StoreCopy
  dist : List DistPiste
  xfer : Nat
deriving DecidableEq, Repr

/-- At manufacture: slot 0 holds the factory image (R4), no store has been made. -/
def NvmSt.init : NvmSt :=
  { factory := [0], opened := false, eraseEnd := none, held := [], eraseBad := false, trialBooted := false, copies := [none, none], made := false,
    busy := none, loaded := none, dist := [], xfer := 0 }

end Sys2Proof.Machine
end

