-- ==== Sys2Proof/Machine/StRed.lean ====
section
/-! DEFINITION. The duplication unit's own state beside the objects of Tables 7.11 to 7.15 (chapter 7). -/
namespace Sys2Proof.Machine

/-- The two digests of a period; done once it is compared or given up (R210). -/
structure DigestPair where
  k : Nat
  own : Option Digest
  peer : Option Digest
  done : Bool
deriving DecidableEq, Repr

/-- A caddy image being received: its period, and the parts by offset (R217). -/
structure CaddyImage where
  k : Nat
  parts : List (Nat × List Nat)
deriving DecidableEq, Repr

/-- A check window (R213): first and last period, whether this side followed at its start, failed periods of each input, the miss counters at its start, MISSES, whether the verdict has stood in a digest. -/
structure CheckSt where
  start : Nat
  last : Nat
  follower : Bool
  fails : List (Nat × Nat)
  misses0 : Nat
  misses : Nat
  sent : Bool
deriving DecidableEq, Repr

/-- The duplication unit. lastCheck: the window decided last, its verdict not yet in a digest; base: base in the frames, basePend the next with its K_X; health: own health as evaluated at the latest P-mark, healthAt when it was published; mism: a compared period has been a mismatch since the latest P-mark; inputsK: period whose INPUTS went last; evalK: latest evaluation begun; notice: tick of the latest parent notice, none before the first, lost after 10 ms; peerPend: the duplicate's base as decided and its K_X; inputs: the leader's words by period; own: own scaled value and badness by period; ownInputs, inDisc, abandoned: periods with these flags; dLaw: digest of the law outputs by period; images: own caddy images by period; rx: image being received; ready: the leader's image that waits to be applied; caddyK: CADDY_PERIOD; sentK: latest period whose image was sent; nextP1: the next INPUTS or CADDY frame goes on P1; peerWiring: the duplicate's latest record, wiringAt: when the own one was sent; lastEnd: end of the window decided last; lostK: caddy period whose parts are discarded. -/
structure RedSt where
  pairs : List DigestPair
  enteredAt : Nat
  revertEnd : Option Nat
  base : Nat
  basePend : Option (Nat × Nat)
  health : Nat
  healthAt : Option Nat
  mism : Bool
  inputsK : Nat
  evalK : Nat
  noticeAt : Option Nat
  noticeLost : Bool
  cleanRun : Nat
  check : Option CheckSt
  lastCheck : Option CheckSt
  peerVerdict : Option (Nat × Nat × Nat)
  peerState : Nat
  peerPend : Option (Nat × Nat)
  peerPrimaryB : Option Bool
  inputs : List (Nat × List (Nat × Nat))
  own : List (Nat × List (Nat × (Nat × Bool)))
  ownInputs : List Nat
  inDisc : List Nat
  abandoned : List Nat
  digestAt : Option Nat
  simplexAt : Option Nat
  dLaw : List (Nat × Nat)
  images : List (Nat × List Nat)
  rx : Option CaddyImage
  ready : Option (Nat × List Nat)
  caddyK : Nat
  sentK : Nat
  nextP1 : Bool
  peerWiring : Option Wiring
  wiringAt : Option Nat
  lastEnd : Nat
  lostK : Option Nat
deriving DecidableEq, Repr

/-- The duplication unit at reset: STARTING, base 0x2, no notice. -/
def RedSt.init : RedSt :=
  { pairs := [], enteredAt := 0, revertEnd := none, base := 2, basePend := none, health := 4095, healthAt := none, mism := false, inputsK := 0, evalK := 0, noticeAt := none, noticeLost := false,
    cleanRun := 0, check := none, lastCheck := none, peerVerdict := none, peerState := 0, peerPend := none, peerPrimaryB := none, inputs := [],
    own := [], ownInputs := [], inDisc := [], abandoned := [], digestAt := none, simplexAt := none, dLaw := [], images := [], rx := none,
    ready := none, caddyK := 0, sentK := 0, nextP1 := false, peerWiring := none, wiringAt := none,
    lastEnd := 0, lostK := none }

end Sys2Proof.Machine
end

