-- ==== Sys2Proof/Machine/StRem.lean ====
section
/-! DEFINITION. Requests to other devices, the response cache and bulk transfers (R357 to R366). -/
namespace Sys2Proof.Machine

/-- For whom a request runs: the cores, a JOP request of a session, or a proxied request of the other apex. -/
inductive ReqBy where
  | core
  | jop (session seq op : Nat)
  | proxy (h : Hdr) (m : ObjMsg)
deriving DecidableEq, Repr

/-- An outstanding request: its frame's target (node number, side, cell index), the message last sent, when, the wait in ticks, the retries left (R358, R361). -/
structure RemReq where
  by_ : ReqBy
  node : Nat
  side : Bool
  cell : Option Nat
  msg : ObjMsg
  sentAt : Nat
  wait : Nat
  left : Nat
deriving DecidableEq, Repr

/-- A cached response (R359): the requester's SRC, side and kind, and its response with the tick of launch. -/
structure RespEntry where
  src : Nat
  srcSide : Bool
  srcNode : Bool
  resp : ObjMsg
  at_ : Nat
deriving DecidableEq, Repr

/-- Why a device sends bulk data: an answer to READ_REQ, a write for a JOP request, or a distribution on a piste's downlink. -/
inductive OutWhy where
  | answer
  | write (session seq : Nat)
  | dist (link : Nat)
deriving DecidableEq, Repr

/-- Bulk data being sent (R365): address, side, kind and broadcast of its frames, lane, region and source, ranges still to send, whole range, whether END is due, status of END, rounds of repair; data: the bytes of a JOP write with their offset. -/
structure OutXfer where
  id : Nat
  dst : Nat
  side : Bool
  dstNode : Bool
  bcast : Bool
  lane : Nat
  region : Nat
  todo : List (Nat × Nat)
  offset : Nat
  len : Nat
  ended : Bool
  status : Nat
  round : Nat
  why : OutWhy
  data : List Nat
deriving DecidableEq, Repr

/-- Bulk data being received (R365): the other end, transfer number, ranges received; of an own READ_REQ also the request it serves, its range, the data and the rounds. -/
structure InXfer where
  src : Nat
  srcSide : Bool
  srcNode : Bool
  id : Nat
  region : Nat
  got : List (Nat × Nat)
  read : Option (Nat × Nat)
  offset : Nat
  len : Nat
  data : List (Nat × List Nat)
  round : Nat
deriving DecidableEq, Repr

/-- Requests and transfers. -/
structure RemSt where
  nextId : Nat
  reqs : List RemReq
  cache : List RespEntry
  nextXfer : Nat
  outs : List OutXfer
  ins : List InXfer
deriving DecidableEq, Repr

/-- At reset: nothing outstanding. -/
def RemSt.init : RemSt := { nextId := 0, reqs := [], cache := [], nextXfer := 0, outs := [], ins := [] }

end Sys2Proof.Machine
end

