-- ==== Sys2Proof/Machine/StSys.lean ====
section
/-! DEFINITION. The start-up, power and repair state beside the objects of Tables 15.7 and 15.8 (chapter 15). -/
namespace Sys2Proof.Machine

/-- A ledger entry (Table 15.4). -/
structure LedgerEntry where
  eseq : Nat
  cycle : Nat
  counter : Nat
  cls : Nat
  kind : Nat
  phase : Nat
  cause : Nat
  phys : Nat
  logical : Nat
  detail : Nat
deriving DecidableEq, Repr

/-- The physical instance behind each logical instance of a class, and the spares left (R392, R399). -/
structure ClassMap where
  cls : Nat
  map : List (Option Nat)
  spares : List Nat
deriving DecidableEq, Repr

/-- A map block of the ledger (R399): generation, the maps of the classes no object shows, the instances mapped out for life, the spares used per SRAM array, and the values of TSK_CORE_MAP, TSK_SPARE, ADC_SLICE_MAP and ADC_SLICE_OUT. -/
structure MapBlock where
  gen : Nat
  maps : List ClassMap
  dead : List (Nat × Nat)
  rows : List (Nat × Nat)
  cols : List (Nat × Nat)
  cores : Nat
  spareCore : Nat
  slices : Nat
  sliceOut : Nat
deriving DecidableEq, Repr

/-- A tamper entry: kind 1 a level change of TAMPER_N, 2 a stop of the AON oscillator, 3 VBAT low; AON time (R405). -/
structure TamperEntry where
  kind : Nat
  time : Nat
deriving DecidableEq, Repr

/-- Start-up, power and repair. ddrMiB: size of the LPDDR4X fitted, 0 none; gen: generation of the map in force; blocks: the two map blocks, none one that is not valid; dead: instances mapped out for life as class and number; rowsUsed, colsUsed: spares used per SRAM array; lastRows: rows corrected in the latest pass; bad: words marked as (array, row); aon: the tamper store of the AON domain; tamper: the record in NVM; pwrEn: PWR_EN; refHeld: REFCLK is absent and the root PLL of a running node holds its frequency; ddrBack: latest tick at which the DDR domain is back; held: reset is held, cause its cause; wake: a wake has driven PWR_EN high; retryAt: the phases start again. -/
structure SysSt where
  ddrMiB : Nat
  cycles : Nat
  gen : Nat
  blocks : List (Option MapBlock)
  ledger : List LedgerEntry
  maps : List ClassMap
  dead : List (Nat × Nat)
  rowsUsed : List (Nat × Nat)
  colsUsed : List (Nat × Nat)
  lastRows : List (Nat × Nat)
  bad : List (Nat × Nat)
  aon : List TamperEntry
  aonOver : Nat
  tamper : List TamperEntry
  pwrEn : Bool
  refHeld : Bool
  ddrBack : Option Nat
  held : Bool
  cause : Nat
  wake : Bool
  retryAt : Option Nat
deriving DecidableEq, Repr

/-- The factory maps of the classes whose map no object shows (Table 15.3). -/
def factoryMaps : List ClassMap :=
  [⟨0, [some 0, some 1], [2]⟩, ⟨1, (List.range 16).map some, [16, 17]⟩, ⟨6, (List.range 68).map some, [68, 69, 70, 71]⟩, ⟨7, (List.range 16).map some, [16, 17]⟩]

/-- The factory map (R399, Table 15.3). -/
def MapBlock.factory : MapBlock :=
  { gen := 0, maps := factoryMaps, dead := [], rows := [], cols := [], cores := 0x76543210, spareCore := 8, slices := 0x43210, sliceOut := 0 }

/-- At reset: main rails on, nothing mapped out, no tamper entry. -/
def SysSt.init : SysSt :=
  { ddrMiB := 0, cycles := 0, gen := 0, blocks := [some MapBlock.factory, none], ledger := [], maps := factoryMaps, dead := [], rowsUsed := [], colsUsed := [], lastRows := [], bad := [],
    aon := [], aonOver := 0, tamper := [], pwrEn := true, refHeld := false, ddrBack := none, held := true, cause := 0, wake := false,
    retryAt := none }

end Sys2Proof.Machine
end

