-- ==== Sys2Proof/Machine/StTim.lean ====
section
/-! DEFINITION. The time unit's own state beside the objects of Tables 6.10 to 6.13 (chapter 6). -/
namespace Sys2Proof.Machine

/-- A timescale: base counter C_B, base time X_B in units of 2^-30 ns, increment INC (R177). -/
structure Scale where
  cB : Nat
  xB : Int
  inc : Nat
deriving DecidableEq, Repr

/-- Valve-time states of Table 6.4, by the codes of TIM_VT_STATE. -/
inductive VtState where | unlocked | locked | holdover | slewing
deriving DecidableEq, Repr

/-- One servo of R187 with its estimate and state; f is a binary64 pattern; prev is the latest SYNC as (own counter in 1/32 tick, VT in 2^-16 ns). -/
structure Servo where
  st : VtState
  est : Scale
  f : Nat
  good : Nat
  bad : Nat
  last : Option Nat
  since : Option Nat
  prev : Option (Nat × Nat)
  steps : Nat
deriving DecidableEq, Repr

/-- One delay exchange (R181), stamps in 1/32 tick; dx is its d_x in nanoseconds as binary64. -/
structure PdEx where
  t1 : Nat
  t2 : Nat
  turn : Nat
  dx : F64
deriving DecidableEq, Repr

/-- Delay measurement of one lane: own request number, its t1, the latest 64 exchanges newest first. -/
structure PdLane where
  lane : Nat
  seq : Nat
  t1 : Option Nat
  ex : List PdEx
  reported : Nat
deriving DecidableEq, Repr

/-- A master heard in Announce messages (R192): port, clockIdentity and portNumber, its latest Announce, and when last heard. -/
structure PtpMaster where
  port : Nat
  ident : Nat
  ann : Announce
  last : Nat
deriving DecidableEq, Repr

/-- A message a host port has sent: messageType 2 Pdelay_Req, 3 Pdelay_Resp or 10 Pdelay_Resp_Follow_Up, with its EtherType, destination address, VLAN tag, domainNumber, sequenceId, the port identity it answers, and the timestamp it carries in 2^-16 ns: t2 in Pdelay_Resp, t3 in its Follow_Up (R192). -/
structure PtpMsg where
  typ : Nat
  etype : Nat
  mac : Nat
  vlan : Option Nat
  domain : Nat
  seq : Nat
  req : Nat
  ts : Nat
deriving DecidableEq, Repr

/-- The state of one IEEE 1588 port: pending two-step Sync (sequence, station time at its receipt, stamp of its receipt in 1/32 tick), peer-delay request (sequence, t1), delay known, messages sent last. -/
structure PtpPort where
  sync : Option (Nat × Nat × Nat)
  pdSeq : Nat
  pdT1 : Option Nat
  known : Bool
  out : List PtpMsg
deriving DecidableEq, Repr

/-- The time unit. Instants named Tick, and last, since, are values of TIM_COUNTER. realised is the latest scheduled instant as its fine delay realises it, in 1/32 tick of the counter; ends the latest set received on each lane; stAdj the station steps that wait for their tick, in 2^-30 ns; stSync the tick of the latest Sync of the selected master; stCourse what a slew began with: e_j in nanoseconds and the stamp of its start in 1/32 tick. -/
structure TimSt where
  valve : Scale
  realised : Nat
  ends : List (Nat × ParamSet)
  station : Scale
  stAdj : List (Nat × Int)
  stSync : Option Nat
  stCourse : Option (Int × Nat)
  srvA : Servo
  srvB : Servo
  onB : Bool
  inForce : Option ParamSet
  pend : Option ParamSet
  wasLocked : Bool
  waits : Nat
  waitEnd : Option Nat
  peerP0 : Option Nat
  peerP1 : Option Nat
  up0 : Option Nat
  linRun : Nat
  linGood : Nat
  pd : List PdLane
  refLane : Option Nat
  refHoldEnd : Option Nat
  masters : List PtpMaster
  master : Option (Nat × Nat)
  ports : List PtpPort
  stF : Nat
  stPrev : Option (Nat × Nat)
  stGood : Nat
  stOut : List Int
  stAllow : Bool
  stSlewEnd : Option Nat
  stHoldSince : Option Nat
  stTraceable : Bool
  stUtcValid : Bool
  maps : List Station
  lastMap : Option Nat
  synt : List (Nat × Nat)
  slalomWritten : Option Nat
deriving DecidableEq, Repr

/-- The nominal INC of R177. -/
def nomInc : Nat := 0xA0000000

/-- A timescale at reset release. -/
def Scale.init : Scale := { cB := 0, xB := 0, inc := nomInc }

/-- A servo at reset. -/
def Servo.init : Servo := { st := .unlocked, est := Scale.init, f := 0, good := 0, bad := 0, last := none, since := none, prev := none, steps := 255 }

/-- A host port's clock at reset. -/
def PtpPort.init : PtpPort := { sync := none, pdSeq := 0, pdT1 := none, known := false, out := [] }

/-- The time unit at reset. -/
def TimSt.init : TimSt :=
  { valve := Scale.init, realised := 0, ends := [], station := Scale.init, stAdj := [], stSync := none, stCourse := none, srvA := Servo.init, srvB := Servo.init, onB := false, inForce := none, pend := none,
    wasLocked := false, waits := 0, waitEnd := none, peerP0 := none, peerP1 := none,
    up0 := none, linRun := 0, linGood := 0, pd := [], refLane := none, refHoldEnd := none, masters := [],
    master := none, ports := [PtpPort.init, PtpPort.init], stF := 0, stPrev := none, stGood := 0, stOut := [], stAllow := false,
    stSlewEnd := none, stHoldSince := none, stTraceable := false, stUtcValid := false, maps := [],
    lastMap := none, synt := [], slalomWritten := none }

end Sys2Proof.Machine
end

