-- ==== Sys2Proof/Machine/StTree.lean ====
section
/-! DEFINITION. The tree as enumeration found it, and what the apex computes the apply lag from (chapter 1, R362). -/
namespace Sys2Proof.Machine

/-- A node of the system: its number, parent's number, the parent's downlinks of U0 and U1, its distance from the apex, the downlinks on which enumeration found its pistes. -/
structure TreeNode where
  num : Nat
  parent : Nat
  link : Nat
  link1 : Option Nat
  dist : Nat
  pistes : List Nat
deriving DecidableEq, Repr

/-- A lane delay report held at the apex (R362): node, lane, and its entry. -/
structure LaneRep where
  node : Nat
  entry : LaneEntry
deriving DecidableEq, Repr

/-- The tree. routes: node number to own downlink; kids: own downlinks that carry a group, with the child's number; pistes: own downlinks that carry a piste, with the length taken; cells: indexed cells of a leaf node; held: numbers held for positions (parent, downlink). -/
structure TreeSt where
  nodes : List TreeNode
  held : List ((Nat × Nat) × Nat)
  routes : List (Nat × Nat)
  kids : List (Nat × Nat)
  pistes : List (Nat × Nat)
  cells : List Nat
  reps : List LaneRep
  parent : Nat
  tIn : Nat
  peerLagMin : Nat
  peerStageMin : Nat
  conflict : Bool
deriving DecidableEq, Repr

/-- Before enumeration. -/
def TreeSt.init : TreeSt :=
  { nodes := [], held := [], routes := [], kids := [], pistes := [], cells := [], reps := [], parent := 0xFF, tIn := 0, peerLagMin := 0,
    peerStageMin := 0, conflict := false }

end Sys2Proof.Machine
end

