-- ==== Sys2Proof/Machine/StTsk.lean ====
section
/-! DEFINITION. The task dispatcher's own state beside the objects of Tables 11.7 and 11.8 (chapter 11). -/
namespace Sys2Proof.Machine

/-- An enabled task: instance release in counter ticks with entry address and stack of its context, wake tick of a DELAY, commit buffer in program order, next TICK release, and the latest period that released it (R302, R303, R307, R309). -/
structure TaskRec where
  n : Nat
  rel : Nat
  entry : Nat
  stack : Nat
  wake : Option Nat
  buf : List (Nat × Nat)
  nextTick : Option Nat
  lastK : Option Nat
deriving DecidableEq, Repr

/-- A core's dispatcher port and busy clock (R298, Table 11.2): WIN_STATUS, the 128 bytes of WIDE, and since which counter value a task runs. -/
structure PortSt where
  winErr : Bool
  commitFull : Bool
  wide : List Nat
  busySince : Option Nat
deriving DecidableEq, Repr

/-- The dispatcher. order: tasks READY or ON_DECK, queue order. -/
structure TskSt where
  tasks : List TaskRec
  order : List Nat
  ports : List PortSt
deriving DecidableEq, Repr

/-- A dispatcher port at reset. -/
def PortSt.init : PortSt := { winErr := false, commitFull := false, wide := List.replicate 128 0, busySince := none }

/-- The dispatcher at reset. -/
def TskSt.init : TskSt := { tasks := [], order := [], ports := List.replicate 8 PortSt.init }

end Sys2Proof.Machine
end

