-- ==== Sys2Proof/Machine/State.lean ====
section
/-! DEFINITION. The state of the block: straps, TIM_COUNTER, the object dictionary, the cores' memory, and each unit's own state; the queue of waiting commands; the state after reset. -/
namespace Sys2Proof.Machine

/-- Why the block would stop. The spec gives every command an effect, so no meaning raises a fault and the type has no constructor. -/
inductive Fault
deriving DecidableEq, Repr

/-- Why a command has no meaning. -/
inductive Refusal where
  /-- Raised by an arm of exec for a command without a meaning; safe, since no claim follows from it. -/
  | notModelled (mnemonic : String)
deriving DecidableEq, Repr

/-- The state. objs: values of the objects that differ from their defaults, keys rising; mem: the cores' memory, addresses rising, no zero byte; free: how many free values have been taken (the model's own); resp: the status codes and the data of the latest access from outside. -/
structure State where
  straps : Straps
  tick : Nat
  pending : List Instr
  objs : List (Nat × Nat)
  mem : List Host.Cell
  free : Nat
  resp : List Nat
  tree : TreeSt
  cell : CellSt
  bal : BalSt
  lnk : LnkSt
  tim : TimSt
  red : RedSt
  law : LawSt
  adc : AdcSt
  acq : AcqSt
  ket : KetSt
  saf : SafSt
  tsk : TskSt
  dma : DmaSt
  fio : FioSt
  rem : RemSt
  jop : JopSt
  nvm : NvmSt
  sys : SysSt
  jtag : JtagSt
deriving DecidableEq, Repr

/-- Every unit at reset, for given straps. -/
def State.fresh (p : Straps) : State :=
  { straps := p, tick := 0, pending := [], objs := [], mem := [], free := 0, resp := [], tree := TreeSt.init, cell := CellSt.init,
    bal := BalSt.init, lnk := LnkSt.init, tim := TimSt.init, red := RedSt.init, law := LawSt.init, adc := AdcSt.init, acq := AcqSt.init,
    ket := KetSt.init, saf := SafSt.init, tsk := TskSt.init, dma := DmaSt.init, fio := FioSt.init, rem := RemSt.init, jop := JopSt.init,
    nvm := NvmSt.init, sys := SysSt.init, jtag := JtagSt.init }

/-- The block right after reset, before its straps are sampled: every object at its default, nothing stored (R9; straps low is the model's choice). -/
def State.reset : State := State.fresh Straps.low

end Sys2Proof.Machine
end

