-- ==== Sys2Proof/Machine/Ops.lean ====
section
/-! DEFINITION. The shared operations: reading and writing objects and the cores' memory, counters, roles, free values, the time base (R9, R176 to R178). -/
namespace Sys2Proof.Machine

/-- Drop a key from a list of key and value pairs. -/
def eraseKey (k : Nat) (l : List (Nat × α)) : List (Nat × α) := l.filter fun e => e.1 != k

/-- Put an entry where its key belongs in a rising list that does not hold the key. -/
def insKey (k : Nat) (v : α) : List (Nat × α) → List (Nat × α)
  | [] => [(k, v)]
  | e :: t => if k < e.1 then (k, v) :: e :: t else e :: insKey k v t

/-- The list with the value of k equal to v, keeping keys rising and no entry equal to the default d. -/
def putKey [DecidableEq α] (d : α) (k : Nat) (v : α) (l : List (Nat × α)) : List (Nat × α) :=
  if v = d then eraseKey k l else insKey k v (eraseKey k l)

/-- The value of k, d where no entry has it. -/
def getKey (d : α) (k : Nat) (l : List (Nat × α)) : α := ((l.find? fun e => e.1 == k).map (·.2)).getD d

/-- Keys strictly rising. -/
def rising : List (Nat × α) → Bool
  | [] => true
  | e :: t => (t.all fun x => e.1 < x.1) && rising t

/-- The canonical form of the cores' memory: addresses rising, no byte equal to what an unlisted address reads as. -/
def Memory.wf (m : List Host.Cell) : Bool := rising m && m.all fun c => c.2 != 0

/-- The canonical form of the objects: keys rising, no value equal to its default. -/
def State.objsWf (s : State) : Bool := rising s.objs && s.objs.all fun e => e.2 != objDefault s.straps e.1

/-- Memory and objects are in canonical form. -/
def State.wf (s : State) : Bool := Memory.wf s.mem && s.objsWf

/-- The stored value of an object. -/
def rd (k : Nat) (s : State) : Nat := getKey (objDefault s.straps k) k s.objs

/-- The state with the stored value of an object replaced. -/
def wr (k v : Nat) (s : State) : State := { s with objs := putKey (objDefault s.straps k) k v s.objs }

/-- The width of an object's type in bits. -/
def Ty.bits : Ty → Nat
  | .bool => 1
  | .u w => w
  | .i w => w
  | .f32 => 32
  | .ts96 => 96
  | .octet n => 8 * n
  | .str n => 8 * n

/-- Width of an object in bits; 32 where no row has the key. -/
def objBits (k : Nat) : Nat := match objRow? k with | some r => r.ty.bits | none => 32

/-- A counter object incremented by n, saturating at its width. -/
def bumpN (n k : Nat) (s : State) : State := wr k (satU (objBits k) (rd k s + n)) s

/-- A counter object incremented, saturating. -/
def bump (k : Nat) (s : State) : State := bumpN 1 k s

/-- Bit b of an object set to v. -/
def wrBit (k b : Nat) (v : Bool) (s : State) : State := wr k (putBit (rd k s) b v) s

/-- Bit b of an object. -/
def rdBit (k b : Nat) (s : State) : Bool := bit (rd k s) b

/-- The signed value of an object of w bits. -/
def rdI (w k : Nat) (s : State) : Int := toI w (rd k s)

/-- The objects of a list all set to 0 (a CLEAR_COUNTERS command). -/
def clearAll (ks : List Nat) (s : State) : State := ks.foldl (fun s k => wr k 0 s) s

/-- Apply f for each item of a list in turn. -/
def each (l : List α) (f : α → State → State) (s : State) : State := l.foldl (fun s x => f x s) s

/-- f where the condition holds, nothing otherwise. -/
def onlyIf (c : Bool) (f : State → State) (s : State) : State := if c then f s else s

/-- A state as an outcome. -/
def ok (s : State) : Host.Outcome State Fault Refusal := .next s

/-- The device has node role (R1). -/
def isNode (s : State) : Bool := s.straps.node

/-- The device has cell role (R1). -/
def isCell (s : State) : Bool := !s.straps.node

/-- The device is an apex (R2). -/
def isApex (s : State) : Bool := s.straps.node && s.straps.hosten

/-- The device is a B side by its SIDE strap (R14). -/
def sideB (s : State) : Bool := s.straps.sideB

/-- The next free value of w bits, and the state with the counter advanced (log entry 3). -/
def takeFree (w : Nat) (s : State) : Nat × State := (low w (Config.freeNat s.free), { s with free := s.free + 1 })

/-- Record what an access answers: a status code and data. -/
def answer (st : Nat) (data : List Nat) (s : State) : State := { s with resp := st :: data }

/-- Where the model's memory holds image slot i of the NVM (Table 14.12). -/
def slotBase (i : Nat) : Nat := 2 ^ 50 + i * 2 ^ 24

/-- Byte of an image slot; the image of manufacture where nothing has erased it (R4). -/
def slotByte (i off : Nat) (s : State) : Nat :=
  if s.nvm.factory.contains i then Config.image off % 256 else (getKey (0 : Byte) (slotBase i + off) s.mem).toNat

/-- n bytes of an image slot. -/
def slotBytes (i off n : Nat) (s : State) : List Nat := (List.range n).map fun j => slotByte i (off + j) s

/-- A little-endian field of the header of an image slot (Table 14.13). -/
def slotField (i off n : Nat) (s : State) : Nat := ofLe (slotBytes i off n s)

/-- The application part does not fit the code SRAM of a cell, which runs the vendor part alone and releases no application task (R376). -/
def appLeftOut (s : State) : Bool := isCell s && 131072 < slotField (rd O.NVM_RUN_SLOT s) 20 4 s

/-- Byte of the code SRAM: the two parts of the running image at their load addresses (R297, R376). -/
def codeByte (off : Nat) (s : State) : Nat :=
  let r := rd O.NVM_RUN_SLOT s
  let v := slotField r 16 4 s
  let a := slotField r 20 4 s
  if rd O.SYS_RECOVERY s == 1 then 0
  else if off < 0x60000 then (if off < v then slotByte r (512 + off) s else 0)
  else if off - 0x60000 < a && !appLeftOut s then slotByte r (512 + v + (off - 0x60000)) s
  else 0

/-- A byte of the cores' memory; zero where nothing has written it (log entry 7). The code SRAM shows the running image. -/
def ldByte (a : Nat) (s : State) : Nat :=
  if 0x10000000 ≤ a && a < 0x10200000 then codeByte (a - 0x10000000) s else (getKey (0 : Byte) a s.mem).toNat

/-- A byte stored. -/
def stByte (a v : Nat) (s : State) : State := { s with mem := putKey (0 : Byte) a (BitVec.ofNat 8 v) s.mem }

/-- n bytes from address a upward. -/
def ldBytes (a n : Nat) (s : State) : List Nat := (List.range n).map fun i => ldByte (a + i) s

/-- Bytes stored from address a upward. -/
def stBytes (a : Nat) : List Nat → State → State
  | [], s => s
  | b :: t, s => stBytes (a + 1) t (stByte a b s)

/-- One tick of valve time in units of 2^-30 ns. -/
def vtick : Nat := 0xA0000000

/-- X(C) of a timescale in units of 2^-30 ns, exact (R177). -/
def Scale.at (x : Scale) (c : Nat) : Int := x.xB + ((c : Int) - (x.cB : Int)) * (x.inc : Int)

/-- A new INC from counter value c on: the timescale does not move (R177). -/
def Scale.setInc (x : Scale) (c inc : Nat) : Scale := { cB := c, xB := x.at c, inc := inc }

/-- A step by z units of 2^-30 ns at counter value c (R177). -/
def Scale.step (x : Scale) (z : Int) : Scale := { x with xB := x.xB + z }

/-- The least counter value at which the timescale has reached z. -/
def Scale.when (x : Scale) (z : Int) : Nat := ((x.cB : Int) + -(Int.fdiv (-(z - x.xB)) (max x.inc 1 : Nat))).toNat

/-- A timescale at a stamp in 1/32 tick, in units of 2^-35 ns. -/
def Scale.at32 (x : Scale) (t : Nat) : Int := x.xB * 32 + ((t : Int) - ((32 * x.cB : Nat) : Int)) * (x.inc : Int)

/-- The instant at which the timescale reaches z, in 1/32 tick of the counter, rounded to the nearest (R178). -/
def Scale.when32 (x : Scale) (z : Int) : Nat := (((32 * x.cB : Nat) : Int) + Int.fdiv (2 * 32 * (z - x.xB) + (x.inc : Int)) (2 * max x.inc 1 : Nat)).toNat

/-- Valve time now in units of 2^-30 ns. -/
def vt30 (s : State) : Int := s.tim.valve.at s.tick

/-- Valve time now in 2^-16 ns, truncated (R177). -/
def vtFrac (s : State) : Nat := (vt30 s / 16384).toNat

/-- Valve time now in whole ticks of 2.5 ns. -/
def vtTicks (s : State) : Nat := (vt30 s / (vtick : Int)).toNat

/-- The detection instant of R269: valve time rounded down to a tick, in 2^-16 ns. -/
def instNow (s : State) : Nat := vtTicks s * 163840

/-- The counter value at which valve time reaches n ticks of 2.5 ns (R178). -/
def tickOfVt (n : Nat) (s : State) : Nat := s.tim.valve.when ((n : Int) * (vtick : Int))

/-- Let the counter reach c; it never runs backward (R176). -/
def advTo (c : Nat) (s : State) : State := { s with tick := max s.tick c }

/-- Let valve time reach n ticks of 2.5 ns: the scheduled instant n, converted with the mapping in force before it and realised to 1/32 tick (R178). -/
def advVt (n : Nat) (s : State) : State :=
  let w := s.tim.valve.when32 ((n : Int) * (vtick : Int))
  advTo (tickOfVt n s) { s with tim := { s.tim with realised := w } }

/-- Ticks of the counter in n microseconds, nominal. -/
def us (n : Nat) : Nat := 400 * n

/-- Ticks of the counter in n milliseconds, nominal. -/
def ms (n : Nat) : Nat := 400000 * n

/-- Nanoseconds of valve time, whole, of a number of ticks (truncated). -/
def nsOfTicks (n : Nat) : Nat := 5 * n / 2

/-- The least number of ticks that is no less than ns nanoseconds. -/
def ticksOfNs (ns : Nat) : Nat := ceilDiv (2 * ns) 5

/-- Own node number; 0xFF before enumeration. -/
def nodeNum (s : State) : Nat := rd O.TREE_NODE_NUMBER s

end Sys2Proof.Machine
end

