-- ==== Sys2Proof/Machine/OpsLine.lean ====
section
/-! DEFINITION. The line of a lane: the symbols of Table 5.2, 64b/66b blocks with their scrambler, the 8b/10b code, and a frame as it is sent (R144 to R146, R155). -/
namespace Sys2Proof.Machine

/-- Bytes 0 to 7 of the payload of a control block (Table 5.2), reserved bytes 0. -/
def Sym.ctrl : Sym → List Nat
  | .idle => [0x1E]
  | .sof c => [0x66, low 3 c * 32]
  | .eof => [0x87]
  | .eofBad => [0x99]
  | .resume c => [0xAA, low 3 c * 32]
  | .linkState h b => [0xB4, low 8 h, low 8 b]
  | .schuss l => 0xD2 :: l
  | _ => []

/-- The sync header and the unscrambled payload of a symbol's block, byte 0 in the bits sent first (R144). -/
def Sym.block (y : Sym) : Nat × Nat :=
  match y with
  | .data l => (1, ofLe (padTo 8 0 l))
  | _ => (2, ofLe (padTo 8 0 y.ctrl))

/-- The symbol of a block; a block type that Table 5.2 does not list, or a sync header that is neither, is a code error (R145). -/
def symOfBlock (hdr p : Nat) : Sym :=
  let b := leBytes 8 p
  if hdr == 1 then .data b
  else if hdr != 2 then .bad
  else match nth b 0 0 with
  | 0x1E => .idle
  | 0x66 => .sof (nth b 1 0 / 32)
  | 0x87 => .eof
  | 0x99 => .eofBad
  | 0xAA => .resume (nth b 1 0 / 32)
  | 0xB4 => .linkState (nth b 1 0) (nth b 2 0)
  | 0xD2 => .schuss ((b.drop 1).take 6)
  | _ => .bad

/-- One scrambled payload after the 58 scrambled bits h sent before it, the latest at bit 57: x^58 + x^39 + 1, 39 bits and then the other 25. -/
def scramble (h p : Nat) : Nat :=
  let a := low 39 (p ^^^ h ^^^ (h / 2 ^ 19))
  let t := h + a * 2 ^ 58
  a + low 25 (p / 2 ^ 39 ^^^ t / 2 ^ 39 ^^^ t / 2 ^ 58) * 2 ^ 39

/-- The payload of a received block after the 58 bits received before it. -/
def descramble (h p : Nat) : Nat := 
  let t := h + p * 2 ^ 58
  low 64 (p ^^^ t ^^^ t / 2 ^ 19)

/-- The 58 bits a scrambler keeps once payload p has passed. -/
def scrNext (p : Nat) : Nat := p / 64

/-- The 66-bit blocks of symbols, sync header in the upper two bits. -/
def blocksOf (h : Nat) : List Sym → List Nat
  | [] => []
  | y :: t =>
    let p := scramble h y.block.2
    (y.block.1 * 2 ^ 64 + p) :: blocksOf (scrNext p) t

/-- The symbols of 66-bit blocks. -/
def symsOfBlocks (h : Nat) : List Nat → List Sym
  | [] => []
  | u :: t => symOfBlock (u / 2 ^ 64) (descramble h (low 64 u)) :: symsOfBlocks (scrNext (low 64 u)) t

/-- The 5b/6b code at negative running disparity, bit a first (IEEE 802.3 Clause 36). -/
def code6 : List Nat :=
  [0b100111, 0b011101, 0b101101, 0b110001, 0b110101, 0b101001, 0b011001, 0b111000, 0b111001, 0b100101, 0b010101, 0b110100, 0b001101, 0b101100, 0b011100, 0b010111]
    ++ [0b011011, 0b100011, 0b010011, 0b110010, 0b001011, 0b101010, 0b011010, 0b111010, 0b110011, 0b100110, 0b010110, 0b110110, 0b001110, 0b101110, 0b011110, 0b101011]

/-- The 3b/4b code of data characters at negative running disparity. -/
def code4 : List Nat := [0b1011, 0b1001, 0b0101, 0b1100, 0b1101, 0b1010, 0b0110, 0b1110]

/-- The 3b/4b code of control characters at negative running disparity; it is complemented at positive. -/
def code4k : List Nat := [0b1011, 0b0110, 0b1010, 0b1100, 0b1101, 0b0101, 0b1001, 0b0111]

/-- A sub-block of w bits at running disparity pos, and the disparity after it: unequal ones and zeros, and the two balanced ones that alternate (alt), are complemented. -/
def subBlock (w c : Nat) (alt pos : Bool) : Nat × Bool :=
  let even : Bool := 2 * popcount w c == w
  (if pos && (!even || alt) then 2 ^ w - 1 - c else c, if even then pos else !pos)

/-- The code group of a character, control (k) or data, bit a first, and the running disparity after it; x.7 takes its alternate form where the bits would run on. -/
def code10 (pos : Bool) (k : Bool) (c : Nat) : Nat × Bool :=
  let x := c % 32
  let y := c / 32 % 8
  let s6 := subBlock 6 (if k && x == 28 then 0b001111 else nth code6 x 0) (x == 7) pos
  let a7 : Bool := y == 7 && !k && (if s6.2 then [11, 13, 14].contains x else [17, 18, 20].contains x)
  let s4 := if k then subBlock 4 (nth code4k y 0) true s6.2 else subBlock 4 (if a7 then 0b0111 else nth code4 y 0) (y == 3) s6.2
  (s6.1 * 16 + s4.1, s4.2)

/-- The control characters of Table 5.2. -/
def ctrlChars : List Nat := [0xBC, 0xFB, 0xFD, 0xFE, 0x5C, 0x7C, 0x9C]

/-- The character of a code group at running disparity pos: control or data, and the disparity after it; none where no character has the group. -/
def char10 (pos : Bool) (g : Nat) : Option ((Bool × Nat) × Bool) :=
  match ctrlChars.find? fun c => (code10 pos true c).1 == g with
  | some c => some ((true, c), (code10 pos true c).2)
  | none =>
    match (List.range 32).find? fun x => (code10 pos false x).1 / 16 == g / 16 with
    | none => none
    | some x =>
      match (List.range 8).find? fun y => (code10 pos false (32 * y + x)).1 == g with
      | some y => some ((false, 32 * y + x), (code10 pos false (32 * y + x)).2)
      | none => none

/-- The characters of code groups; none for a group without one. -/
def charsOf (pos : Bool) : List Nat → List (Option (Bool × Nat))
  | [] => []
  | g :: t => match char10 pos g with
    | some r => some r.1 :: charsOf r.2 t
    | none => none :: charsOf pos t

/-- The characters of a symbol at 8b/10b (Table 5.2). -/
def Sym.chars : Sym → List (Bool × Nat)
  | .idle => [(true, 0xBC), (false, 0x50), (false, 0x50), (false, 0x50)]
  | .presence h => [(true, 0xBC), (false, 0xB5), (false, b2n h), (false, 0)]
  | .sof c => [(true, 0xFB), (false, low 3 c * 32), (false, 0), (false, 0)]
  | .eof => [(true, 0xFD), (false, 0), (false, 0), (false, 0)]
  | .eofBad => [(true, 0xFE), (false, 0), (false, 0), (false, 0)]
  | .resume c => [(true, 0x5C), (false, low 3 c * 32), (false, 0), (false, 0)]
  | .linkState h b => [(true, 0x7C), (false, low 8 h), (false, low 8 b), (false, 0)]
  | .schuss l => (true, 0x9C) :: (l.take 3).map fun b => (false, b)
  | .data l => l.map fun b => (false, b)
  | .bad => []

/-- The code groups of characters. -/
def groupsOf (pos : Bool) : List (Bool × Nat) → List Nat
  | [] => []
  | c :: t => (code10 pos c.1 c.2).1 :: groupsOf (code10 pos c.1 c.2).2 t

/-- The symbol of an ordered set; a set Table 5.2 does not list is a code error (R145). -/
def symOfSet (k a b c : Nat) : Sym :=
  match k with
  | 0xBC => if a == 0x50 && b == 0x50 && c == 0x50 then .idle else if a == 0xB5 then .presence (bit b 0) else .bad
  | 0xFB => .sof (a / 32)
  | 0xFD => .eof
  | 0xFE => .eofBad
  | 0x5C => .resume (a / 32)
  | 0x7C => .linkState a b
  | 0x9C => .schuss [a, b, c]
  | _ => .bad

/-- The symbols of received characters: ordered sets of four, data characters in fours between them (Table 5.1); a character without a code group is a code error. -/
def symsOfChars : List (Option (Bool × Nat)) → List Sym
  | some (true, k) :: some (false, a) :: some (false, b) :: some (false, c) :: t => symOfSet k a b c :: symsOfChars t
  | some (false, a) :: some (false, b) :: some (false, c) :: some (false, d) :: t => .data [a, b, c, d] :: symsOfChars t
  | some (false, a) :: t => .data [a] :: symsOfChars t
  | _ :: t => .bad :: symsOfChars t
  | [] => []

/-- The symbols of line units received at a rate code: 66-bit blocks after the 58 bits prev at 64b/66b; code groups after running disparity prev (1 positive) at 8b/10b. -/
def lineSyms (rate prev : Nat) (line : List Nat) : List Sym :=
  if rate ≥ 2 then symsOfBlocks (low 58 prev) line else symsOfChars (charsOf (bit prev 0) line)

/-- The line units of symbols, by the same rule. -/
def symsLine (rate prev : Nat) (l : List Sym) : List Nat :=
  if rate ≥ 2 then blocksOf (low 58 prev) l else groupsOf (bit prev 0) (l.flatMap Sym.chars)

/-- Bytes in symbols of n bytes each. -/
def dataSyms (n : Nat) : Nat → List Nat → List Sym
  | 0, _ => []
  | c + 1, l => if l.isEmpty then [] else .data (l.take n) :: dataSyms n c (l.drop n)

/-- The symbols of a frame: SOF, its bytes in order, EOF or EOF_BAD (R146). -/
def frameSyms (rate cls : Nat) (b : List Nat) (bad : Bool) : List Sym :=
  .sof cls :: dataSyms (if rate ≥ 2 then 8 else 4) b.length b ++ [if bad then .eofBad else .eof]

/-- The six bytes of a schuss symbol: its fields and their complements (Table 5.2). -/
def schussBytes (kind origin seq : Nat) : List Nat :=
  [low 8 kind, low 8 origin, low 8 seq, 255 - low 8 kind, 255 - low 8 origin, 255 - low 8 seq]

/-- What a valid schuss symbol says, KIND, ORIGIN and SEQ in one number: its complement bytes match at 64b/66b; its KIND is not reserved (R155). -/
def schussKey (l : List Nat) : Option Nat :=
  let k := nth l 0 0
  if (k == 0x5A || k == 0xA5) && (l.length == 3 || l == schussBytes k (nth l 1 0) (nth l 2 0)) then some (k * 65536 + low 8 (nth l 1 0) * 256 + low 8 (nth l 2 0)) else none

/-- One symbol position of a receiver: the symbols of the last eight positions with their ages and whether each is matched; how many were rejected; the schusses accepted, latest first (R155). -/
def schussPos (y : Option (List Nat)) (x : List (Nat × Nat × Bool) × Nat × List Nat) : List (Nat × Nat × Bool) × Nat × List Nat :=
  let aged := x.1.map fun e => (e.1, e.2.1 + 1, e.2.2)
  let keep := aged.filter fun e => e.2.1 ≤ 7
  let bad := x.2.1 + ((aged.filter fun e => e.2.1 > 7 && !e.2.2).length)
  match y with
  | none => (keep, bad, x.2.2)
  | some l =>
    match schussKey l with
    | none => (keep, bad + 1, x.2.2)
    | some k =>
      let rest := keep.filter fun e => e.1 != k
      match keep.find? fun e => e.1 == k with
      | none => ((k, 0, false) :: rest, bad, x.2.2)
      | some e => ((k, 0, true) :: rest, bad, if e.2.2 then x.2.2 else k :: x.2.2)

/-- The schuss symbols among consecutive positions: how many are rejected, and the schusses accepted in order. The further symbols of an accepted burst are matched by it. -/
def schussScan (l : List (Option (List Nat))) : Nat × List Nat :=
  let r := l.foldl (fun x y => schussPos y x) ([], 0, [])
  (r.2.1 + (r.1.filter fun e => !e.2.2).length, r.2.2.reverse)

/-- The schuss symbol at a position. -/
def Sym.asSchuss : Sym → Option (List Nat)
  | .schuss l => some l
  | _ => none

end Sys2Proof.Machine
end

