-- ==== Sys2Proof/Machine/OpsLink.lean ====
section
/-! DEFINITION. Lane queues, priority and preemption, frame headers and routes: how a unit sends a frame (R147, R149, R151, R153, R158, R160). -/
namespace Sys2Proof.Machine

/-- Lane numbers of the uplinks and the peer lanes (R138). -/
def laneU0 : Nat := 64
/-- U1. -/
def laneU1 : Nat := 65
/-- P0. -/
def laneP0 : Nat := 66
/-- P1. -/
def laneP1 : Nat := 67

/-- The state of lane n. -/
def lane (n : Nat) (s : State) : LaneSt := s.lnk.lanes.getD n LaneSt.init

/-- The state of lane n changed. -/
def updLane (n : Nat) (f : LaneSt → LaneSt) (s : State) : State := { s with lnk := { s.lnk with lanes := s.lnk.lanes.modify n f } }

/-- Stage code of lane n. -/
def stage (n : Nat) (s : State) : Nat := rd (O.LNK_STAGE n) s

/-- Lane n is in L5. -/
def inL5 (n : Nat) (s : State) : Bool := stage n s == 5

/-- Lanes in L5 among a list. -/
def upOf (l : List Nat) (s : State) : List Nat := l.filter fun n => inL5 n s

/-- Bytes a class may queue on a lane (Table 5.4). -/
def queueCap (node : Bool) (n c : Nat) : Nat :=
  if node then
    (if n ≥ 66 then nth [0, 1024, 2048, 16384, 8192, 8192, 16384, 32768] c 0 else nth [0, 1024, 2048, 8192, 8192, 8192, 16384, 0] c 0)
  else nth [0, 512, 512, 2048, 1024, 2048, 2048, 0] c 0

/-- Bytes of class c that lane n holds, from the SOF to the end of sending (R153). -/
def queueUsed (n c : Nat) (s : State) : Nat :=
  let l := lane n s
  sumL (((l.q ++ l.cur.toList ++ l.susp).filter fun i => i.cls == c).map fun i => i.len)

/-- The class queue has room for a frame: on a peer lane the last 512 bytes of class 4 are kept for SAFE_STATUS (R292). -/
def queueRoom (n cls len : Nat) (reserve : Bool) (s : State) : Bool :=
  let cap := queueCap s.straps.node n cls
  let cap := if cls == 4 && n ≥ 66 && !reserve then cap - 512 else cap
  queueUsed n cls s + len ≤ cap

/-- A frame the device originates. -/
def TxItem.isOwn (i : TxItem) : Bool := match i.body with | .own _ _ => true | .fwd _ _ => false

/-- Whether a frame goes before another of its class: the one that reached the output first, in one tick the device's own before one passed on (R151, R158); a notice ahead of the rest (R202). -/
def TxItem.before (a b : TxItem) : Bool :=
  if a.ahead != b.ahead then a.ahead else a.born < b.born || (a.born == b.born && a.isOwn && !b.isOwn)

/-- Put an entry where its class and its place in the class have it. -/
def insClass (it : TxItem) : List TxItem → List TxItem
  | [] => [it]
  | e :: t => if it.cls < e.cls || (it.cls == e.cls && it.before e) then it :: e :: t else e :: insClass it t

/-- The set that governs period k at this device (R191). -/
def paramsFor (k : Nat) (s : State) : Option ParamSet :=
  match s.tim.pend with
  | some p => if p.kEff ≤ k then some p else s.tim.inForce
  | none => s.tim.inForce

/-- P(k) in ticks of valve time from a set (R191). -/
def ParamSet.pmark (p : ParamSet) (k : Nat) : Nat := ticksOfNs p.pEff + (k - p.kEff) * p.t

/-- P(k) in ticks of valve time; 0 while no set is held. -/
def pOf (k : Nat) (s : State) : Nat := match paramsFor k s with | some p => p.pmark k | none => 0

/-- T of period k [ticks]; the configured value while no set is held. -/
def tOf (k : Nat) (s : State) : Nat := match paramsFor k s with | some p => p.t | none => rd O.TIM_PERIOD s

/-- L of period k [ticks]. -/
def lOf (k : Nat) (s : State) : Nat := match paramsFor k s with | some p => p.l | none => rd O.TIM_APPLY_LAG s

/-- G of period k [ticks]. -/
def gOf (k : Nat) (s : State) : Nat := match paramsFor k s with | some p => p.g | none => rd O.TIM_CMD_GUARD s

/-- The law start of period k [ticks after the P-mark]. -/
def lawStartOf (k : Nat) (s : State) : Nat := match paramsFor k s with | some p => p.lawStart | none => rd O.TIM_LAW_START_EFF s

/-- E(k) in ticks of valve time (R30). -/
def eOf (k : Nat) (s : State) : Nat := pOf k s + lOf k s

/-- The period of the latest P-mark. -/
def kNow (s : State) : Nat := rd O.TIM_PERIOD_NUMBER s

/-- A period grid exists and its first P-mark has passed. -/
def hasGrid (s : State) : Bool := s.tim.inForce.isSome

/-- A CADDY frame of this device. -/
def TxItem.isCaddy (i : TxItem) : Bool := match i.body with | .own f _ => f.hdr.cls == 7 && f.hdr.typ == 2 | .fwd _ _ => false

/-- No CADDY frame may start: the 600 ns before a P-mark at the leader, and after it until its INPUTS frames of the period have gone (R211). -/
def caddyHeld (s : State) : Bool :=
  isNode s && rd O.RED_ROLE s == 1 && hasGrid s
    && (pOf (kNow s + 1) s ≤ vtTicks s + 240
      || (rd O.LAW_LOAD_STATUS s == 1 && rd O.LAW_INPUTS s != 0 && s.red.inputsK != kNow s))

/-- The next waiting frame that may start, and what waits after it. -/
def pickTx (hold : Bool) (q : List TxItem) : Option (TxItem × List TxItem) :=
  (q.find? fun i => !(hold && i.isCaddy)).map fun i => (i, q.erase i)

/-- The transmitter with a new frame ready: it starts on a free lane, suspends a frame of a higher class number, or waits (R151). A frame that was first at the output has been sent cut through before one of its class, so that one waits again (R158). -/
def LaneSt.offer (hold : Bool) (l : LaneSt) (it : TxItem) : LaneSt × Bool :=
  match l.cur with
  | none => if hold && it.isCaddy then ({ l with q := insClass it l.q }, false) else ({ l with cur := some it }, false)
  | some c =>
    if it.cls < c.cls then ({ l with cur := some it, susp := c :: l.susp }, true)
    else if it.cls == c.cls && !it.isOwn && it.born < c.born then ({ l with cur := some it, q := insClass c l.q }, false)
    else ({ l with q := insClass it l.q }, false)

/-- The transmitter after the frame it was sending: a waiting frame of a better class than the one suspended last, else that one, else the next waiting (R151). -/
def LaneSt.endFrame (hold : Bool) (l : LaneSt) : LaneSt :=
  match l.susp, pickTx hold l.q with
  | [], none => { l with cur := none }
  | [], some (i, t) => { l with cur := some i, q := t }
  | x :: r, none => { l with cur := some x, susp := r }
  | x :: r, some (i, t) => if i.cls < x.cls then { l with cur := some i, q := t } else { l with cur := some x, susp := r }

/-- A LINK_STATE symbol. -/
def LaneOut.isLinkState : LaneOut → Bool
  | .sym (.linkState _ _) _ => true
  | _ => false

/-- A LINK_STATE or a ladder frame is sent at once on a lane without a frame begun, and waits for a gap between frames otherwise, a newer LINK_STATE in place of one that waits (R154, R172). -/
def LaneSt.say (o : LaneOut) (l : LaneSt) : LaneSt :=
  if l.cur.isNone && l.susp.isEmpty then { l with out := [o] }
  else { l with wait := (l.wait.filter fun x => !(x.isLinkState && o.isLinkState)) ++ [o] }

/-- The node's router has fewer slices than it needs: its lanes carry ladder symbols and schuss alone (R398). -/
def routerDown (s : State) : Bool := isNode s && rdBit O.SYS_IMPAIRED 7 s

/-- The time unit's own state changed. -/
def updTim (f : TimSt → TimSt) (s : State) : State := { s with tim := f s.tim }

/-- Stamp of now in 1/32 tick with a fraction. -/
def stamp (frac : Nat) (s : State) : Nat := 32 * s.tick + frac % 32

/-- The delay record of lane n. -/
def pdLane (n : Nat) (s : State) : PdLane := (s.tim.pd.find? fun p => p.lane == n).getD ⟨n, 0, none, [], 0⟩

/-- The delay record of lane n replaced. -/
def setPd (p : PdLane) (s : State) : State := updTim (fun t => { t with pd := p :: t.pd.filter fun x => x.lane != p.lane }) s

/-- The servo of a lineage: A for false, B for true; a node has one (R184). -/
def servo (b : Bool) (s : State) : Servo := if b then s.tim.srvB else s.tim.srvA

/-- The lineage is the one applied (R185). -/
def applied (b : Bool) (s : State) : Bool := isNode s || b == s.tim.onB

/-- The timescale a servo steers: valve time where applied, else its estimate. -/
def scaleOf (b : Bool) (s : State) : Scale := if applied b s then s.tim.valve else (servo b s).est

/-- What is inserted as a frame leaves, by the stamp t of its SOF in 1/32 tick: VT of SYNC, t1 of the request kept, TURN of the response (R179, R181, R183). -/
def stampFrame (n t : Nat) (f : Frame) (s : State) : Frame × State :=
  match f.pay with
  | .sync y => ({ f with pay := .sync { y with vt := ((scaleOf (isCell s && y.lineageB) s).at32 t / 2 ^ 19).toNat } }, s)
  | .pdReq => (f, setPd { pdLane n s with seq := f.hdr.seq, t1 := some t } s)
  | .pdResp p => ({ f with pay := .pdResp { p with turn := max p.turn (low 32 (t - p.t2)) } }, s)
  | _ => (f, s)

/-- The SOF of the frame being sent on lane n leaves: a frame that carries a transmit stamp takes it now, its fraction of a tick a free value (R176, R179). -/
def leave (n : Nat) (s : State) : State :=
  match (lane n s).cur with
  | some it =>
    match it.body with
    | .own f bad =>
      if f.hdr.cls == 1 && f.hdr.typ ≤ 2 then
        let q := takeFree 5 s
        let r := stampFrame n (stamp q.1 s) f q.2
        updLane n (fun l => { l with cur := some { it with body := .own r.1 bad } }) r.2
      else s
    | .fwd _ _ => s
  | none => s

/-- The next frame of lane n starts or resumes where the lane carries frames and sends none (R151). -/
def startTx (n : Nat) (s : State) : State :=
  let l := lane n s
  if (inL5 n s || stage n s == 4) && l.cur.isNone then
    let s := updLane n (LaneSt.endFrame (caddyHeld s)) s
    if (lane n s).susp.length == l.susp.length then leave n s else s
  else s

/-- Queue a frame on a lane, or drop it entire for want of room (R153). -/
def enqueue (n : Nat) (it : TxItem) (s : State) : State :=
  if routerDown s then s
  else if queueRoom n it.cls it.len it.reserve s then
    let r := (lane n s).offer (caddyHeld s) it
    let s := updLane n (fun _ => r.1) s
    let s := if r.2 then bump (O.LNK_PREEMPT n) s else s
    if r.1.cur == some it then leave n s else s
  else bump (O.LNK_TX_DROP it.cls n) s

/-- A frame that goes ahead of its class: a claim notice (R202), and INPUTS, for which CADDY frames wait (R211). -/
def Frame.ahead (f : Frame) : Bool :=
  match f.pay with
  | .inputs _ => true
  | .obj m => f.hdr.typ == 0 && m.op == 3 && m.index == 0xC020
  | _ => false

/-- A frame this device originates, on a lane that carries its class: L5, or L4 for the types of R181. -/
def sendOn (n : Nat) (f : Frame) (s : State) : State :=
  if inL5 n s || (stage n s == 4 && f.hdr.cls == 1 && f.hdr.typ ≤ 2) then
    enqueue n { cls := f.hdr.cls, len := f.len, reserve := f.hdr.cls == 4 && f.hdr.typ == 14, ahead := f.ahead, born := s.tick, body := .own f false } s
  else s

/-- Own address in a header (Table 5.3). -/
def ownAddr (s : State) : Nat := if isNode s then low 6 (nodeNum s) * 1024 else low 6 (nodeNum s) * 1024 + low 10 (rd O.TREE_CELL_INDEX s)

/-- A header of this device, and the state with the frame counted in its class. -/
def mkHdr (cls typ : Nat) (hop : Bool) (dst : Nat) (dstSide dstNode bcast : Bool) (s : State) : Hdr × State :=
  ({ cls := cls, hop := hop, typ := typ, dst := dst, src := ownAddr s, dstSide := dstSide, srcSide := sideB s, relayed := false,
     dstNode := dstNode, srcNode := isNode s, bcast := bcast, seq := s.lnk.seqs.getD cls 0 },
   { s with lnk := { s.lnk with seqs := s.lnk.seqs.modify cls fun x => (x + 1) % 256 } })

/-- Build a frame and send it on each lane of a list. -/
def sendFrame (cls typ : Nat) (hop : Bool) (dst : Nat) (dstSide dstNode bcast : Bool) (p : Pay) (lanes : List Nat) (s : State) : State :=
  let r := mkHdr cls typ hop dst dstSide dstNode bcast s
  each lanes (fun n => sendOn n { hdr := r.1, len := p.len, pay := p }) r.2

/-- The header address of a node. -/
def nodeAddr (n : Nat) : Nat := low 6 n * 1024

/-- The peer lane in use: P0, or P1 when P0 is not in L5 (R160). -/
def peerLane (s : State) : Nat := if inL5 laneP0 s then laneP0 else laneP1

/-- The uplink in use: U0, or U1 when U0 is not in L5 (R160). -/
def upLane (s : State) : Nat := if inL5 laneU0 s then laneU0 else laneU1

/-- The downlinks of a node. -/
def downlinks : List Nat := List.range 64

/-- Downlinks that carry pistes. -/
def pisteLinks (s : State) : List Nat := s.tree.pistes.map (·.1)

/-- Downlinks that carry groups. -/
def groupLinks (s : State) : List Nat := s.tree.kids.map (·.1)

/-- Where a node sends a frame for a node of a side (R160): a lane. -/
def routeNode (n : Nat) (side : Bool) (s : State) : Nat :=
  if n == nodeNum s && side != sideB s then peerLane s
  else match s.tree.routes.find? (fun r => r.1 == n) with
  | some r => r.2
  | none => upLane s

/-- The lane for a frame of this device to a node of a side: by the router in a node; U0 for side A and U1 for side B in a cell (R158, R160). -/
def laneTo (n : Nat) (side : Bool) (s : State) : Nat :=
  if isNode s then routeNode n side s else if side then laneU1 else laneU0

/-- Send a frame to a node of a side by its route. -/
def sendToNode (cls typ n : Nat) (side : Bool) (p : Pay) (s : State) : State :=
  sendFrame cls typ false (nodeAddr n) side true false p [laneTo n side s] s

/-- Send a frame to a cell of this node's system. -/
def sendToCell (cls typ n idx : Nat) (p : Pay) (s : State) : State :=
  let l := if n == nodeNum s then idx / 16 else routeNode n (sideB s) s
  sendFrame cls typ false (nodeAddr n + idx) (sideB s) false false p [l] s

end Sys2Proof.Machine
end

