-- ==== Sys2Proof/Machine/OpsParam.lean ====
section
/-! DEFINITION. The period parameters, the grid of P-marks, the deblock mask, and station-time conversion (R27, R29, R30, R50, R87, R191, R195). -/
namespace Sys2Proof.Machine

/-- One step of the slalom LFSR (R50). -/
def lfsr (x : Nat) : Nat := low 31 (2 * x) + b2n (bit x 30 != bit x 27)

/-- n steps of the slalom LFSR. -/
def lfsrN : Nat → Nat → Nat
  | 0, x => x
  | n + 1, x => lfsrN n (lfsr x)

/-- The slalom mask of a state: mask[j] = s[3j], j = 0 to 9 (R50). -/
def maskOf (x : Nat) : Nat := (List.range 10).foldl (fun a j => a + b2n (bit x (3 * j)) * 2 ^ j) 0

/-- The deblock masks this device holds, in force and pending, joined; at the apex the written mask too (R87). -/
def deblockHeld (s : State) : Nat :=
  let m (o : Option ParamSet) := match o with | some p => p.deblock | none => 0
  m s.tim.inForce ||| m s.tim.pend ||| (if isApex s then rd O.CEL_ARM_DEBLOCK s else 0)

/-- Arm a is deblocked at this device (R87). -/
def armDeblocked (a : Nat) (s : State) : Bool := bit (deblockHeld s) a

/-- Any arm is deblocked at this device. -/
def anyDeblocked (s : State) : Bool := deblockHeld s != 0

/-- The slalom state of period k by a set and, where a newer seed waits, by it (R50). -/
def slalomFor (k : Nat) (s : State) : Nat :=
  match s.tim.slalomWritten with
  | some x => x
  | none => match paramsFor k s with | some p => lfsrN (k - p.kEff) p.slalom | none => rd O.BAL_SLALOM_SEED s

/-- The first period whose P-mark is no earlier than the valve tick v, on the grid of a set. -/
def ParamSet.firstAt (p : ParamSet) (v : Nat) : Nat :=
  let p0 := ticksOfNs p.pEff
  if v ≤ p0 then p.kEff else p.kEff + ceilDiv (v - p0) (max p.t 1)

/-- What the apex has accepted, as a set that begins with period k at valve tick v. -/
def acceptedSet (k v slalom pseq : Nat) (s : State) : ParamSet :=
  { kEff := k, pEff := nsOfTicks v, g := rd O.TIM_CMD_GUARD s, t := rd O.TIM_PERIOD s, l := rd O.TIM_APPLY_LAG s,
    lawStart := rd O.TIM_LAW_START_EFF s, slalom := slalom, deblock := rd O.CEL_ARM_DEBLOCK s, pseq := low 32 pseq }

/-- The apex builds a new set at an accepted change: K_EFF is the first P-mark at least 4 T (old) after now and no earlier than that of a pending set, and it lies on the grid in force (R29, R87, R191). Before P(0) the change enters the set of period 0. -/
def buildSet (s : State) : State :=
  match s.tim.inForce, s.tim.pend with
  | none, none => s
  | none, some p =>
    { s with tim := { s.tim with pend := some { acceptedSet p.kEff 0 (slalomFor p.kEff s) (p.pseq + 1) s with pEff := p.pEff } } }
  | some f, pend =>
    let k0 := f.firstAt (vtTicks s + 4 * f.t)
    let k := max k0 (match pend with | some p => p.kEff | none => 0)
    let seq := (match pend with | some p => p.pseq | none => f.pseq) + 1
    { s with tim := { s.tim with pend := some (acceptedSet k (f.pmark k) (slalomFor k s) seq s) } }

/-- The first set of a system, at the first whole multiple of T after the apex is LOCKED (R27, log entry 10). -/
def firstSet (s : State) : State :=
  match s.tim.inForce, s.tim.pend with
  | none, none =>
    let t := max (rd O.TIM_PERIOD s) 1
    let p0 := (vtTicks s / t + 1) * t
    { s with tim := { s.tim with pend := some (acceptedSet 0 p0 (rd O.BAL_SLALOM_SEED s) 1 s) } }
  | _, _ => s

/-- Clear CEL_ARM_DEBLOCK at the apex (R132, R272, R287). -/
def clearDeblock (s : State) : State :=
  if isApex s && rd O.CEL_ARM_DEBLOCK s != 0 then buildSet (wr O.CEL_ARM_DEBLOCK 0 s) else s

/-- RHO of R195. -/
def rhoNow (s : State) : Int :=
  let v := s.tim.valve.inc
  rndAway (((s.tim.station.inc : Int) - (v : Int)) * (2 ^ 40 : Nat)) (max v 1)

/-- The apex's station timescale with the steps that have come due (R177, R193). -/
def stScale (s : State) : Scale := s.tim.station.step ((s.tim.stAdj.filter fun a => a.1 ≤ s.tick).foldl (fun x a => x + a.2) 0)

/-- The mapping of the apex now: V_M in whole nanoseconds, and station time at that instant (R195). -/
def apexMap (s : State) : Station :=
  let v := vtFrac s
  let rest : Int := ((v % 65536 : Nat) : Int)
  let st := (stScale s).at s.tick / 16384 - rest - Int.fdiv (rest * rhoNow s) (2 ^ 40 : Nat)
  { vM := v / 65536, sM := (st / 65536).toNat, rho := satI 32 (rhoNow s), quality := rd O.TIM_ST_QUALITY s, utc := rdI 16 O.TIM_ST_UTC_OFFSET s }

/-- Station time of a valve instant by a mapping; both in 2^-16 ns (R195). -/
def Station.conv (m : Station) (v : Nat) : Nat :=
  let d : Int := (v : Int) - ((m.vM * 65536 : Nat) : Int)
  (((m.sM * 65536 : Nat) : Int) + d + d * m.rho / (2 ^ 40 : Nat)).toNat

/-- The mapping for a valve instant: the latest whose V_M is not after it, else the oldest held (R195). -/
def mapFor (v : Nat) (s : State) : Option Station :=
  match s.tim.maps.find? (fun m => m.vM * 65536 ≤ v) with
  | some m => some m
  | none => s.tim.maps.getLast?

/-- Station time of a valve instant in 2^-16 ns, with quality and UTC offset. -/
def stationOf (v : Nat) (s : State) : Nat × Nat × Int :=
  match mapFor v s with
  | some m => (m.conv v, m.quality, m.utc)
  | none => if isApex s then ((apexMap s).conv v, (apexMap s).quality, (apexMap s).utc) else (0, 0, 0)

/-- Station time now in 2^-16 ns: the apex's own, or by the mappings of R195. -/
def stNow (s : State) : Nat := if isApex s then ((stScale s).at s.tick / 16384).toNat else (stationOf (vtFrac s) s).1

/-- POS_SSI settings whose transfer does not fit its periods (R348); T in ticks. -/
def ssiTooLong (bits clock mono div t : Nat) : Bool := div * t * clock < (bits + 1) * 400000 + mono * 400 * clock

end Sys2Proof.Machine
end

