-- ==== Sys2Proof/Machine/OpsTask.lean ====
section
/-! DEFINITION. Task release, the ready queues, dispatch and the on-deck slots (R302 to R306). -/
namespace Sys2Proof.Machine

/-- The record of task n. -/
def taskRec? (n : Nat) (s : State) : Option TaskRec := s.tsk.tasks.find? fun t => t.n == n

/-- The record of task n changed. -/
def updTask (n : Nat) (f : TaskRec → TaskRec) (s : State) : State :=
  { s with tsk := { s.tsk with tasks := s.tsk.tasks.map fun t => if t.n == n then f t else t } }

/-- State code of task n: 0 DORMANT, 1 IDLE, 2 READY, 3 ON_DECK, 4 RUNNING, 5 DELAYED. -/
def taskState (n : Nat) (s : State) : Nat := rd (O.TSK_STATE n) s % 16

/-- PENDING of task n. -/
def taskPending (n : Nat) (s : State) : Bool := rdBit (O.TSK_STATE n) 7 s

/-- Set the state code, keeping PENDING. -/
def setTaskState (n v : Nat) (s : State) : State := wr (O.TSK_STATE n) (v + 128 * b2n (taskPending n s)) s

/-- Set PENDING. -/
def setTaskPending (n : Nat) (b : Bool) (s : State) : State := wrBit (O.TSK_STATE n) 7 b s

/-- The list of READY and ON_DECK tasks, and TSK_READY_N with it. -/
def setOrder (l : List Nat) (s : State) : State := wr O.TSK_READY_N l.length { s with tsk := { s.tsk with order := l } }

/-- A task enters its queue at the tail. -/
def enqTail (n : Nat) (s : State) : State := setOrder (s.tsk.order.filter (· != n) ++ [n]) s

/-- A task enters its queue at the head. -/
def enqHead (n : Nat) (s : State) : State := setOrder (n :: s.tsk.order.filter (· != n)) s

/-- A task leaves the queues. -/
def deq (n : Nat) (s : State) : State := setOrder (s.tsk.order.filter (· != n)) s

/-- Task running on core c; 0xFFFF none. -/
def coreTask (c : Nat) (s : State) : Nat := rd (O.TSK_CORE_TASK c) s

/-- Task on deck of core c; 0xFFFF none. -/
def coreDeck (c : Nat) (s : State) : Nat := rd (O.TSK_CORE_ONDECK c) s

/-- Logical cores that have a powered physical core behind them (R296). -/
def liveCores (s : State) : List Nat :=
  (if isCell s then [0] else List.range 8).filter fun c => fld (rd O.TSK_CORE_MAP s) (4 * c + 3) (4 * c) != 15

/-- A port changed. -/
def updPort (c : Nat) (f : PortSt → PortSt) (s : State) : State :=
  { s with tsk := { s.tsk with ports := s.tsk.ports.modify c f } }

/-- The port of core c. -/
def port (c : Nat) (s : State) : PortSt := s.tsk.ports.getD c PortSt.init

/-- Core c starts running task n. -/
def coreStart (c n : Nat) (s : State) : State :=
  updPort c (fun p => { p with busySince := some (p.busySince.getD s.tick) }) (wr (O.TSK_CORE_TASK c) n s)

/-- Core c runs no task: TSK_CORE_BUSY takes the CORE cycles, two per tick. -/
def coreStop (c : Nat) (s : State) : State :=
  let d := match (port c s).busySince with | some t => 2 * (s.tick - t) | none => 0
  updPort c (fun p => { p with busySince := none }) (bumpN d (O.TSK_CORE_BUSY c) (wr (O.TSK_CORE_TASK c) 0xFFFF s))

/-- Priority of a task. -/
def prio (n : Nat) (s : State) : Nat := rd (O.TSK_PRIO n) s

/-- READY and ON_DECK tasks, priority 0 first, queue order within a priority (R305). -/
def candidates (s : State) : List Nat := (List.range 32).flatMap fun p => s.tsk.order.filter fun n => prio n s == p

/-- Empty the slot of core c; an ON_DECK occupant goes to the head of its priority queue (Table 11.3). -/
def unDeck (c : Nat) (s : State) : State :=
  let q := coreDeck c s
  if q == 0xFFFF then s else
  let s := wr (O.TSK_CORE_ONDECK c) 0xFFFF s
  if taskState q s == 3 then enqHead q (setTaskState q 2 s) else s

/-- Put task n into the slot of core c, displacing another. -/
def onDeck (c n : Nat) (s : State) : State :=
  if coreDeck c s == n then s else
  let s := wr (O.TSK_CORE_ONDECK c) n (unDeck c s)
  if taskState n s == 2 then setTaskState n 3 s else s

/-- The core whose slot holds task n. -/
def deckOf (n : Nat) (s : State) : Option Nat := (List.range 8).find? fun c => coreDeck c s == n

/-- Dispatch task t on core c: a running task goes to the slot of its core (R305, R306). -/
def dispatchOn (t c : Nat) (s : State) : State :=
  let p := coreTask c s
  let hit := coreDeck c s == t
  let s := match deckOf t s with | some d => wr (O.TSK_CORE_ONDECK d) 0xFFFF s | none => s
  let s := if p == 0xFFFF then s else onDeck c p (enqHead p (setTaskState p 2 s))
  let s := wr (O.TSK_LAST_CORE t) c (setTaskState t 4 (deq t s))
  bump (if hit then O.TSK_ONDECK_HITS c else O.TSK_ONDECK_MISSES c) (coreStart c t s)

/-- The core the listing of R305 chooses for task t. -/
def chooseCore (t : Nat) (s : State) : Option Nat :=
  let aff := (liveCores s).filter (bit (rd (O.TSK_AFFINITY t) s))
  let free := aff.filter fun c => coreTask c s == 0xFFFF
  let weak := aff.filter fun c => coreTask c s != 0xFFFF && prio (coreTask c s) s > prio t s
  let last := rd (O.TSK_LAST_CORE t) s
  if free.contains last then some last
  else match free with
  | c :: _ => some c
  | [] =>
    if weak.contains last then some last
    else
      let w := maxL (weak.map fun c => prio (coreTask c s) s)
      weak.find? fun c => prio (coreTask c s) s == w

/-- The placement loop of R305 over the candidates of the pass. -/
def placeAll : List Nat → State → State
  | [], s => s
  | t :: r, s => placeAll r (match chooseCore t s with | some c => dispatchOn t c s | none => s)

/-- The release instant of task n for period k in valve ticks (R303). -/
def relAt (n k : Nat) (s : State) : Nat := pOf k s + min (rd (O.TSK_OFFSET n) s) (tOf k s - 1)

/-- The first period no earlier than k that releases task n. -/
def relPeriodFrom (n k : Nat) (s : State) : Nat :=
  let d := max (rd (O.TSK_DIV n) s) 1
  k + (rd (O.TSK_PHASE n) s + d - k % d) % d

/-- The period of the next PERIOD release of task n (R303). -/
def nextRelPeriod (n : Nat) (s : State) : Nat :=
  let from_ := match taskRec? n s with | some t => (match t.lastK with | some k => k + 1 | none => 0) | none => 0
  relPeriodFrom n (max from_ (kNow s)) s

/-- The counter value of the next PERIOD or TICK release of an IDLE task. -/
def nextRelease (n : Nat) (s : State) : Option Nat :=
  match taskRec? n s with
  | none => none
  | some t =>
    match rd (O.TSK_KIND n) s with
    | 1 => if hasGrid s then some (tickOfVt (relAt n (nextRelPeriod n s) s) s) else none
    | 2 => t.nextTick.map fun x => x * rd O.TSK_TICK s
    | _ => none

/-- IDLE tasks whose PERIOD or TICK release is due within TSK_PREFETCH (R306). -/
def dueIdle (s : State) : List Nat :=
  (s.tsk.tasks.map (·.n)).filter fun n => taskState n s == 1 && (match nextRelease n s with | some t => t ≤ s.tick + rd O.TSK_PREFETCH s | none => false)

/-- The tasks that qualify for the slot of core c (R306): READY and ON_DECK tasks on no other slot, and tasks soon released whose priority beats that of the task on c. -/
def deckCands (c : Nat) (s : State) : List Nat :=
  let r := coreTask c s
  (candidates s ++ (dueIdle s).filter fun n => r == 0xFFFF || prio n s < prio r s).filter fun n =>
    bit (rd (O.TSK_AFFINITY n) s) c && (match deckOf n s with | some d => d == c | none => true)

/-- The occupant the slot of core c should have (R306): the first of the best priority, the one whose latest core is c before its equals; the present occupant stays unless that one is better. -/
def deckChoice (c : Nat) (s : State) : Nat :=
  let l := deckCands c s
  match (List.range 32).find? fun p => l.any fun n => prio n s == p with
  | none => 0xFFFF
  | some p =>
    let top := l.filter fun n => prio n s == p
    let home (n : Nat) : Bool := rd (O.TSK_LAST_CORE n) s == c
    let best := (top.find? home).getD (nth top 0 0xFFFF)
    let q := coreDeck c s
    if top.contains q && (home q || !home best) then q else best

/-- Refill the slots after a pass. -/
def fillDecks (s : State) : State :=
  each (liveCores s) (fun c s => let n := deckChoice c s; if n == 0xFFFF then unDeck c s else onDeck c n s) s

/-- A dispatcher pass (R305, R306). -/
def dispatchPass (s : State) : State := fillDecks (placeAll (candidates s) s)

/-- The dispatcher runs, and again while a task displaced from its slot has become READY (R305, Table 11.3); f bounds the passes. -/
def dispatchN : Nat → State → State
  | 0, s => s
  | f + 1, s =>
    let u := dispatchPass s
    if u.tsk.order.any fun n => taskState n u == 2 && taskState n s != 2 then dispatchN f u else u

/-- The dispatcher runs (R305, R306). -/
def dispatch (s : State) : State := dispatchN 256 s

/-- A task becomes READY by a release: context, buffer and release instant are set (Table 11.3). -/
def startInstance (n : Nat) (s : State) : State :=
  let e := rd (O.TSK_ENTRY n) s
  let sp := rd (O.TSK_STACK n) s
  enqTail n (setTaskState n 2 (bump (O.TSK_RELEASES n)
    (updTask n (fun t => { t with rel := s.tick, entry := e, stack := sp, wake := none, buf := [] }) s)))

/-- A release of task n (R304); a cell without its application part releases no application task (R376). -/
def release (n : Nat) (s : State) : State :=
  if 16 ≤ n && appLeftOut s then s else
  match taskState n s with
  | 0 => s
  | 1 =>
    let s := startInstance n s
    match deckOf n s with | some _ => setTaskState n 3 s | none => s
  | _ =>
    if rd (O.TSK_KIND n) s != 3 then s
    else if taskPending n s then bump (O.TSK_RELEASE_LOST n) s
    else setTaskPending n true s

/-- Event source e fires (R303): every enabled task bound to it is released, and the dispatcher runs. -/
def fireEvent (e : Nat) (s : State) : State :=
  let ns := (s.tsk.tasks.map (·.n)).filter fun n => rd (O.TSK_KIND n) s == 3 && rd (O.TSK_EVENT n) s == e && taskState n s != 0
  if ns.isEmpty then s else dispatch (each ns release s)

end Sys2Proof.Machine
end

