-- ==== Sys2Proof/Machine/OpsAcq.lean ====
section
/-! DEFINITION. The disturbance recorder's shared operations: configuration check, rows, triggers, records and the cross-tree trigger (R246 to R263). -/
namespace Sys2Proof.Machine

/-- The LPDDR4X is in service. -/
def ddrUp (s : State) : Bool := rdBit O.SYS_DOMAINS 17 s

/-- The capture SRAM is powered. -/
def captureUp (s : State) : Bool := rdBit O.SYS_DOMAINS 18 s

/-- The address of LPDDR4X byte 0 in the model's memory: above every core address. -/
def ddrBase : Nat := 2 ^ 40

/-- The committed value of a signal (Table 4.1). -/
def sigVal (a : Nat) (s : State) : Nat := if a == 1793 then oneF else if a == 1792 || a ≥ 1799 then 0 else rd (O.LAW_SIGNAL a) s

/-- KIND of an analogue source. -/
def achKind (c : Nat) (s : State) : Nat := fld (rd (O.ACQ_ACH_SRC c) s) 15 12

/-- Words a channel takes in a row (R249). -/
def achWords (c : Nat) (s : State) : Nat :=
  if achKind c s == 0 then 0 else if rd (O.ACQ_ACH_MODE c) s == 1 then 2 else 1

/-- Bytes of a row (R249). -/
def rowBytesOf (s : State) : Nat := 4 * sumL ((List.range 32).map fun c => achWords c s) + 8

/-- Bytes of a slot (R252). -/
def slotBytesOf (s : State) : Nat :=
  let total := if rd O.ACQ_MEM s == 0 then 2 ^ 25 else rd O.ACQ_AREA s * 2 ^ 20
  total / max (rd O.ACQ_SLOTS s) 1 / 4096 * 4096

/-- Rows of a slot's ring (R252). -/
def rowCapOf (s : State) : Nat := (slotBytesOf s - 4112) / max (rowBytesOf s) 1

/-- Interval of a row in ticks: T when ACQ_INTERVAL is 0 (R250). -/
def rowStep (s : State) : Nat := if rd O.ACQ_INTERVAL s == 0 then max (tOf (kNow s) s) 1 else rd O.ACQ_INTERVAL s

/-- A legal analogue source word (R251, BAD_SOURCE). -/
def achSrcOk (x : Nat) (s : State) : Bool :=
  match fld x 15 12 with
  | 0 => fld x 11 0 == 0
  | 1 => fld x 11 10 == 0 && fld x 7 6 == 0
  | 2 => fld x 11 1 == 0 && rd (if bit x 0 then O.ADC_PAIR1 else O.ADC_PAIR0) s != 0xFF
  | 3 => fld x 11 0 == 0
  | _ => false

/-- A legal digital source word (R251, BAD_SOURCE). -/
def dchSrcOk (x : Nat) : Bool :=
  match fld x 15 12 with
  | 0 => fld x 11 0 == 0
  | 1 => fld x 11 4 == 0
  | 2 => fld x 11 3 == 0
  | 3 => fld x 11 8 == 0
  | 4 => fld x 11 5 == 0
  | 5 => fld x 11 11 == 0
  | 6 => fld x 11 7 == 0 && fld x 6 0 ≤ 67
  | _ => false

/-- The code of ACQ_CFG_STATUS: the first check of R251 that fails, 0 where all pass (order DEDUCED from the codes). -/
def acqCheckCode (s : State) : Nat :=
  let n := rowBytesOf s
  let ddr := rd O.ACQ_MEM s == 1
  if rd O.ACQ_PRE s + 1 + rd O.ACQ_POST s > rowCapOf s then 1
  else if n > (if ddr then 8 else 16) * rowStep s then 2
  else if !((List.range 32).all fun c => achSrcOk (rd (O.ACQ_ACH_SRC c) s) s) || !((List.range 64).all fun c => dchSrcOk (rd (O.ACQ_DCH_SRC c) s)) then 3
  else if (List.range 32).any (fun c => achKind c s == 2) && rd O.ACQ_INTERVAL s % 20 != 0 then 4
  else if ddr && !ddrUp s then 5 else 0

/-- The derived objects after a write to the recorder's configuration (R249, R251, R252). -/
def acqCheck (s : State) : State :=
  wr O.ACQ_CFG_STATUS (acqCheckCode s) (wr O.ACQ_ROW_CAP (rowCapOf s) (wr O.ACQ_SLOT_BYTES (slotBytesOf s) (wr O.ACQ_ROW_BYTES (rowBytesOf s) s)))

/-- The recorder's own state changed. -/
def updAcq (f : AcqSt → AcqSt) (s : State) : State := { s with acq := f s.acq }

/-- The plain word of an analogue channel at this instant (Table 9.1). -/
def achWord (c : Nat) (s : State) : Nat :=
  let x := rd (O.ACQ_ACH_SRC c) s
  match fld x 15 12 with
  | 1 => rd (O.ADC_RESULT (fld x 9 8) (fld x 5 0)) s
  | 2 => rd (if bit x 0 then O.ADC_PAIR1_RESULT else O.ADC_PAIR0_RESULT) s
  | 3 => s.acq.lawVal.getD c 0
  | _ => 0

/-- The sample of a digital channel (Table 9.2). -/
def dchBit (n : Nat) (s : State) : Bool :=
  let x := rd (O.ACQ_DCH_SRC n) s
  match fld x 15 12 with
  | 1 => rdBit O.FIO_DI (fld x 3 0) s
  | 2 => rdBit O.FIO_DO_STATE (fld x 2 0) s
  | 3 => rdBit (O.KET_SRC_STATUS (fld x 7 0)) 0 s
  | 4 => rdBit (O.ADC_IN_STATUS (fld x 3 0)) (if bit x 4 then 3 else 2) s
  | 5 => leF 0x3f000000 (sigVal (fld x 10 0) s)
  | 6 => inL5 (fld x 6 0) s
  | _ => false

/-- The 64 digital samples as one word. -/
def digital (s : State) : Nat := (List.range 64).foldl (fun a n => a + b2n (dchBit n s) * 2 ^ n) 0

/-- a is less than b as the channel kind compares (R247). -/
def achLt (kind a b : Nat) : Bool := if kind == 3 then ltF a b else decide (toI 16 a < toI 16 b)

/-- A word of a kind that the least and greatest words leave out (R246). -/
def sampleBad (kind word : Nat) : Bool := if kind == 3 then !ffinite fmt32 word else bit word 16

/-- A source sample joins the least and greatest words of a row's interval; flagged and non-finite ones do not (R246, R247). -/
def joinRow (kind c word : Nat) (h : RowAcc) : RowAcc :=
  { h with
    any := h.any.set c (some word)
    acc := if sampleBad kind word then h.acc else h.acc.set c (some (match h.acc.getD c none with
      | none => (word, word)
      | some m => (if achLt kind word m.1 then word else m.1, if achLt kind m.2 word then word else m.2))) }

/-- The two words of a channel for a row whose interval holds a sample (R246, R247). -/
def RowAcc.words (c : Nat) (h : RowAcc) : List Nat :=
  match h.acc.getD c none, h.any.getD c none with
  | some m, _ => [m.1, m.2]
  | none, some w => [w, w]
  | none, none => []

/-- The address of a row of the ring. -/
def RecSt.rowAddr (r : RecSt) (n : Nat) : Nat := r.base + 4096 + n % max r.cap 1 * r.rowBytes

/-- First word index of a channel in a row. -/
def achIndex (c : Nat) (s : State) : Nat := sumL ((List.range c).map fun i => achWords i s)

/-- A sample reaches the rows: the row whose interval holds its instant takes it into its least and greatest words; rows at or after its instant have it as their latest sample so far, which is their plain value (Table 9.1, R246, R247). -/
def takeSample (c word inst : Nat) (s : State) : State :=
  match s.acq.cur with
  | none => s
  | some r =>
    let own := (s.acq.hist.find? fun h => h.inst ≤ inst).map (·.n)
    let s := updAcq (fun a => { a with hist := a.hist.map fun h => if own == some h.n then joinRow (achKind c s) c word h else h }) s
    let pos := 4 * achIndex c s
    let two : Bool := achWords c s == 2
    each (s.acq.hist.filter fun h => r.n ≤ h.n + r.cap) (fun h s =>
      let a := r.rowAddr h.n + pos
      if !two then (if inst ≤ h.inst then stBytes a (leBytes 4 word) s else s)
      else if own == some h.n then stBytes a ((h.words c).flatMap (leBytes 4)) s
      else if inst < h.inst && (h.any.getD c none).isNone then stBytes a (leBytes 4 word ++ leBytes 4 word) s
      else s) s

/-- No result comes this long after its sample instant [ns]: an entry takes up to 16 conversions (R224, R227). -/
def lateNs : Nat := 4000

/-- A new row at this instant (R249). -/
def storeRow (i : RowInfo) (s : State) : State :=
  match s.acq.cur with
  | none => s
  | some r =>
    let words := (List.range 32).flatMap fun c => (List.replicate (achWords c s) (achWord c s)).flatMap (leBytes 4)
    let s := stBytes (r.rowAddr r.n) (words ++ leBytes 8 (digital s)) s
    let h : RowAcc := { n := r.n, inst := i.inst, acc := List.replicate 32 none, any := List.replicate 32 none }
    updAcq (fun a => { a with cur := some { r with n := r.n + 1, rows := (i :: r.rows).take (max r.cap 1) }, hist := h :: a.hist.filter fun x => i.inst < x.inst + lateNs * 65536 }) s

/-- A STR or OCTET object as bytes, first byte first. -/
def strBytes (k : Nat) (s : State) : List Nat := beBytes (objBits k / 8) (rd k s)

/-- A TS96 stored little-endian (R8). -/
def ts96le (f : Nat) : List Nat := (ts96 f).reverse

/-- A TS80 stored little-endian (R8). -/
def ts80le (ns : Nat) : List Nat := (ts80 ns).reverse

/-- Record length in rows so far. -/
def TrigRec.rowsOf (t : TrigRec) (n : Nat) : Nat := min (n - 1) t.stop - (t.row - t.pre) + 1

/-- The record header of Table 9.10 as far as it is known. -/
def recHeader (r : RecSt) (trunc : Bool) (s : State) : List Nat :=
  let rowInfo (n : Nat) : RowInfo := r.rows.getD (r.n - 1 - n) ⟨0, 0, 0, 0⟩
  let first := match r.trig with | some t => rowInfo (t.row - t.pre) | none => ⟨0, 0, 0, 0⟩
  let pre := rd O.ACQ_PRE s
  let st (v : Nat) := stationOf v s
  let tp : List Nat := match r.trig with
    | some t =>
      let f := b2n (sideB s) + 2 * b2n (t.pre < pre) + 4 * b2n t.early + 8 * b2n t.extended + 16 * b2n t.capped + 32 * b2n trunc
      [f, (List.range 32).foldl (fun a c => a + b2n (achKind c s != 0)) 0] ++ leBytes 4 r.rowBytes ++ leBytes 4 (rd O.ACQ_INTERVAL s)
        ++ leBytes 4 r.t ++ leBytes 8 first.k ++ leBytes 4 first.j ++ ts96le first.inst ++ leBytes 4 (t.rowsOf r.n)
        ++ leBytes 4 t.pre ++ leBytes 4 ((t.row - t.pre) % max r.cap 1) ++ [t.frac, t.src] ++ leBytes 2 t.sources ++ ts96le t.inst
        ++ ts80le ((st t.inst).1 / 65536) ++ [(st t.inst).2.1, satU 8 t.extraN] ++ leBytes 2 (ofI 16 (st t.inst).2.2) ++ leBytes 2 t.origin
        ++ ts80le ((st first.inst).1 / 65536) ++ [0, 0]
        ++ padTo 300 0 (t.extras.flatMap fun e => leBytes 4 (e.row - (t.row - t.pre)) ++ [e.frac, e.src, 0, 0] ++ ts96le e.inst)
    | none =>
      padTo 394 0 ([b2n (sideB s) + 32 * b2n trunc, (List.range 32).foldl (fun a c => a + b2n (achKind c s != 0)) 0] ++ leBytes 4 r.rowBytes
        ++ leBytes 4 (rd O.ACQ_INTERVAL s) ++ leBytes 4 r.t)
  let ach := (List.range 32).flatMap fun c =>
    leBytes 2 (rd (O.ACQ_ACH_SRC c) s) ++ [rd (O.ACQ_ACH_MODE c) s, achIndex c s] ++ leBytes 4 (rd (O.ACQ_ACH_SCALE c) s)
      ++ leBytes 4 (rd (O.ACQ_ACH_OFFSET c) s) ++ strBytes (O.ACQ_ACH_UNIT c) s ++ strBytes (O.ACQ_ACH_NAME c) s ++ rsv 4
  let dch := (List.range 64).flatMap fun c => leBytes 2 (rd (O.ACQ_DCH_SRC c) s) ++ strBytes (O.ACQ_DCH_NAME c) s
  let body := padTo 512 0 (leBytes 4 0x52454331 ++ leBytes 4 r.id ++ [1, nodeNum s] ++ tp) ++ ach ++ dch ++ rsv 1020
  body ++ leBytes 4 (crc32c body)

/-- Write the header of the record being taken. -/
def writeHeader (trunc : Bool) (s : State) : State :=
  match s.acq.cur with | some r => stBytes r.base (recHeader r trunc s) s | none => s

/-- End the record: trailer, slot DONE, ACQ_RECORDS, event source 20 (Table 9.3, Table 11.4). -/
def endRecord (trunc : Bool) (s : State) : State :=
  match s.acq.cur with
  | none => s
  | some r =>
    let s := writeHeader trunc s
    let t := r.trig.getD ⟨0, 0, 0, 0, 0, 0, 0, 0, false, false, false, [], 0⟩
    let n := t.rowsOf r.n
    let data := (List.range n).flatMap fun i => ldBytes (r.rowAddr (t.row - t.pre + i)) r.rowBytes s
    let s := stBytes (r.base + 4096 + r.cap * r.rowBytes) (leBytes 4 r.id ++ leBytes 4 n ++ leBytes 4 (crc32c data) ++ leBytes 4 0) s
    let s := bump O.ACQ_RECORDS (wr (O.ACQ_SLOT_STATE r.slot) 2 s)
    fireEvent 20 (updAcq (fun a => { a with cur := none }) s)

/-- The slot that arming takes (R253): the lowest FREE, else with ACQ_OVERWRITE the DONE slot of the lowest REC_ID. -/
def slotToArm (s : State) : Option (Nat × Bool) :=
  let l := List.range (rd O.ACQ_SLOTS s)
  match l.find? (fun i => rd (O.ACQ_SLOT_STATE i) s == 0) with
  | some i => some (i, false)
  | none =>
    if rd O.ACQ_OVERWRITE s == 0 then none
    else
      let done := l.filter fun i => rd (O.ACQ_SLOT_STATE i) s == 2
      done.foldl (fun b i => match b with
        | none => some (i, true)
        | some x => if rd (O.ACQ_SLOT_REC i) s < rd (O.ACQ_SLOT_REC x.1) s then some (i, true) else b) none

/-- Arming: a slot is taken and the record begins with an empty ring, or the recorder is FULL (Table 9.3). -/
def armRecord (s : State) : State :=
  match slotToArm s with
  | none => wr O.ACQ_STATE 5 (updAcq (fun a => { a with cur := none }) s)
  | some (i, past) =>
    let s := onlyIf past (bump O.ACQ_OVERWRITTEN) s
    let id := low 32 (rd O.ACQ_REC_ID s + 1)
    let s := wr O.ACQ_REC_ID id (wr (O.ACQ_SLOT_REC i) id (wr (O.ACQ_SLOT_STATE i) 1 (wr O.ACQ_STATE 1 s)))
    let base := (if rd O.ACQ_MEM s == 0 then 0x50000000 else ddrBase) + i * slotBytesOf s
    let r : RecSt := { slot := i, id := id, base := base, cap := rowCapOf s, rowBytes := rowBytesOf s, n := 0, rows := [], trig := none,
                        t := tOf (kNow s) s, lim := none }
    writeHeader false (updAcq (fun a => { a with patFresh := true, hist := [], cur := some r }) s)

/-- Row number of the last row at or before an instant, among the rows held. -/
def RecSt.rowAt (r : RecSt) (inst : Nat) : Option Nat :=
  (r.rows.findIdx? fun i => i.inst ≤ inst).map fun j => r.n - 1 - j

/-- The fraction of a trigger in its row (R259). -/
def trigFrac (i : RowInfo) (inst : Nat) : Nat := min 255 (256 * (inst - i.inst) / max (i.dur * 163840) 1)

/-- Distribute an XTRIG down the own tree, and from the apex to its duplicate (R261). -/
def xtrigDown (x : Xtrig) (toPeer : Bool) (s : State) : State :=
  let s := each (upOf (groupLinks s) s) (fun l s =>
    sendFrame 4 15 true (nodeAddr (getKey 0 l s.tree.kids)) (sideB s) true false (.xtrig x) [l] s) s
  if isApex s && toPeer then sendFrame 4 15 true (nodeAddr 0) (!sideB s) true false (.xtrig x) [peerLane s] s else s

/-- Originate a cross-tree trigger for a local trigger that took a record (R261). -/
def originateXtrig (src inst : Nat) (s : State) : State :=
  if !rdBit O.ACQ_XT_SEND src s then s
  else
    let hold : Bool := match s.acq.xtLast with | some t => decide (s.tick < t + ms (rd O.ACQ_XT_HOLDOFF s)) | none => false
    if hold then bump O.ACQ_XT_SUPPRESSED s
    else
      let x : Xtrig := { instant := inst, node := nodeNum s, sideB := sideB s, source := src, seq := s.acq.xtSeq }
      let s := updAcq (fun a => { a with xtSeq := low 16 (a.xtSeq + 1), xtLast := some s.tick }) s
      let s := bump O.ACQ_XT_SENT s
      let s := { s with law := { s.law with cross := s.law.cross ++ [inst] } }
      if isApex s then xtrigDown x true s else sendToNode 4 15 0 (sideB s) (.xtrig x) s

/-- A trigger takes the record being armed: trigger row, fraction, rows before it (R255, R259, R262). -/
def takeTrigger (src inst origin : Nat) (r : RecSt) (s : State) : State :=
  let oldest := r.n - r.rows.length
  let early := (r.rowAt inst).isNone
  let row := (r.rowAt inst).getD oldest
  let info := r.rows.getD (r.n - 1 - row) ⟨0, 0, 0, 0⟩
  let pre := if early then 0 else min (rd O.ACQ_PRE s) (row - oldest)
  let t : TrigRec := { row := row, frac := if early then 0 else trigFrac info inst, src := src, sources := 2 ^ src, inst := inst, origin := origin,
                       pre := pre, stop := row + rd O.ACQ_POST s, early := early, extended := false, capped := false, extras := [], extraN := 0 }
  let s := onlyIf early (bump O.ACQ_XT_EARLY) s
  let s := wr O.ACQ_STATE 3 (updAcq (fun a => { a with cur := some { r with trig := some t } }) s)
  let s := writeHeader false s
  if src == 9 then s else originateXtrig src inst s

/-- A further trigger of a record: joined to the trigger row, or marked, with the extension of R256; one older than the ring lies in the oldest row of the record (R262). -/
def furtherTrigger (src inst origin : Nat) (r : RecSt) (t : TrigRec) (s : State) : State :=
  let early := (r.rowAt inst).isNone
  let row := (r.rowAt inst).getD (max (r.n - r.rows.length) (t.row - t.pre))
  let frac := if early then 0 else trigFrac (r.rows.getD (r.n - 1 - row) ⟨0, 0, 0, 0⟩) inst
  let t := { t with early := t.early || early }
  let s := onlyIf early (bump O.ACQ_XT_EARLY) s
  if row == t.row then
    let better := inst < t.inst || (inst == t.inst && src < t.src)
    let t := { t with sources := t.sources ||| 2 ^ src }
    let t := if better then { t with inst := inst, src := src, frac := frac, origin := origin } else t
    updAcq (fun a => { a with cur := some { r with trig := some t } }) s
  else
    let e : ExtraTrig := { row := row, frac := frac, src := src, inst := inst }
    let t := { t with extras := if t.extras.length < 15 then t.extras ++ [e] else t.extras, extraN := satU 8 (t.extraN + 1) }
    let limit := t.row - t.pre + r.cap - 1
    let want := r.n - 1 + rd O.ACQ_POST s
    let longer : Bool := rd O.ACQ_EXTEND s == 1
    let t := if longer then { t with extended := true, stop := min want limit, capped := t.capped || limit < want } else t
    bump O.ACQ_TRIG_MARKED (updAcq (fun a => { a with cur := some { r with trig := some t, lim := if longer then none else r.lim } }) s)

/-- A trigger source is enabled (R257); FORCE always is. -/
def trigEnabled (src : Nat) (s : State) : Bool := src == 10 || rdBit O.ACQ_TRIG_EN src s

/-- A trigger of a source at an instant (R255 to R257, R262). -/
def acqTrigger (src inst origin : Nat) (s : State) : State :=
  if !isNode s || !trigEnabled src s then s
  else match s.acq.cur with
  | none => bump O.ACQ_TRIG_LOST s
  | some r =>
    match r.trig with
    | some t => furtherTrigger src inst origin r t s
    | none =>
      let tooOld := r.rows.isEmpty || (r.rows.length == r.n && (r.rowAt inst).isNone)
      if tooOld || ((r.rowAt inst).isNone && src != 9) then bump O.ACQ_TRIG_LOST s else takeTrigger src inst origin r s

/-- A sample reaches a level unit that watches its channel (R258, R259); v as F32. -/
def lvlSample (u v inst : Nat) (bad : Bool) (s : State) : State :=
  let l := s.acq.lvl.getD u LvlSt.init
  if bad then updAcq (fun a => { a with lvl := a.lvl.set u LvlSt.init }) s
  else
    let th := rd (O.ACQ_LVL_THRESH u) s
    let h := rd (O.ACQ_LVL_HYST u) s
    let e := rd (O.ACQ_LVL_EDGE u) s
    let up := l.rise && leF th v && e != 1
    let dn := l.fall && leF v th && e != 0
    let rise := (l.rise && !up) || leF v (subF th h)
    let fall := (l.fall && !dn) || leF (addF th h) v
    let s := updAcq (fun a => { a with lvl := a.lvl.set u { last := some (inst, v), rise := rise, fall := fall } }) s
    if up || dn then
      let at_ := match l.last with
        | some (t0, v0) =>
          let a := fexact fmt32 v0
          let b := fexact fmt32 v
          let c := fexact fmt32 th
          let g := min a.2 (min b.2 c.2)
          let n (x : Int × Int) : Int := x.1 * ((2 ^ (x.2 - g).toNat : Nat) : Int)
          t0 + (Int.fdiv ((n c - n a) * ((inst - t0 : Nat) : Int)) (n b - n a)).toNat
        | none => inst
      acqTrigger u at_ 0xFFFF s
    else s

/-- A source sample of an analogue channel: interval content and level units. -/
def acqChannel (c word inst : Nat) (s : State) : State :=
  let kind := achKind c s
  let s := takeSample c word inst s
  let bad := sampleBad kind word
  let v := if kind == 3 then word else f32OfI (toI 16 word)
  each ((List.range 8).filter fun u => rd (O.ACQ_LVL_CH u) s == c) (fun u => lvlSample u v inst bad) s

/-- A sample of an ADC entry or a pair reaches every channel bound to it. -/
def acqSource (src word inst : Nat) (s : State) : State :=
  if !isNode s then s
  else each ((List.range 32).filter fun c => rd (O.ACQ_ACH_SRC c) s == src) (fun c => acqChannel c word inst) s

/-- A CAPTURE output of the law engine commits on a channel (R124, R246). -/
def acqLaw (c word inst : Nat) (s : State) : State :=
  if achKind c s != 3 then s
  else acqChannel c word inst (updAcq (fun a => { a with lawVal := a.lawVal.set c word }) s)

/-- A source sample that lies before instant x is still to come: a conversion of a bound entry, or the next sample of a bound pair (R246, R247). -/
def sampleToCome (x : Nat) (s : State) : Bool :=
  let bound (src : Nat) : Bool := (List.range 32).any fun c => rd (O.ACQ_ACH_SRC c) s == src
  s.adc.convs.any (fun c => c.sample * 81920 < x && (match c.use with | .entry q e _ => bound (0x1000 + 256 * q + e) | _ => false))
    || (List.range 2).any fun p =>
      let y := s.adc.pairs.getD p AdcPair.init
      bound (0x2000 + p) && (match y.late, y.on, y.base with
        | z :: _, _, _ => z.2.1 * 163840 < x
        | [], some _, some b => min (b + 20 * y.j) (pOf (kNow s + 1) s) * 163840 < x
        | _, _, _ => false)

/-- The record has its last row, and every sample of its rows is in (Table 9.3). -/
def acqComplete (s : State) : State :=
  match s.acq.cur with
  | some { trig := some _, lim := some x, .. } =>
    if sampleToCome x s then s else wr O.ACQ_STATE (if rd O.ACQ_MODE s == 1 then 1 else 4) (endRecord false s)
  | _ => s

/-- The recorder at a P-mark: the grid restarts; where T changes a record ends as TRUNCATED, and one without its trigger begins again (R250, R263, log entry 72). -/
def acqPMark (k : Nat) (changed : Bool) (s : State) : State :=
  let st := rd O.ACQ_STATE s
  let s := if !changed then s
    else if st == 3 then wr O.ACQ_STATE (if rd O.ACQ_MODE s == 1 then 1 else 4) (endRecord true s)
    else match s.acq.cur with
      | some r => wr O.ACQ_STATE 1 (updAcq (fun a => { a with cur := some { r with n := 0, rows := [], t := tOf k s }, hist := [] }) s)
      | none => s
  updAcq (fun a => { a with gridK := some k, gridJ := 0 }) s

end Sys2Proof.Machine
end

