-- ==== Sys2Proof/Machine/Flags.lean ====
section
/-! DEFINITION. The fault flags: every source of the kettle with its latch, count, instants, reactions, events and escalation; FAULT_N; and the safety state that reactions drive (R267 to R279, R285 to R291, R432). -/
namespace Sys2Proof.Machine

/-- The kettle's own state changed. -/
def updKet (f : KetSt → KetSt) (s : State) : State := { s with ket := f s.ket }

/-- The safety unit's own state changed. -/
def updSaf (f : SafSt → SafSt) (s : State) : State := { s with saf := f s.saf }

/-- LIVE of source n. -/
def isLive (n : Nat) (s : State) : Bool := rdBit (O.KET_SRC_STATUS n) 0 s

/-- LATCHED of source n. -/
def isLatched (n : Nat) (s : State) : Bool := rdBit (O.KET_SRC_STATUS n) 1 s

/-- ESCALATED of source n. -/
def isEscalated (n : Nat) (s : State) : Bool := rdBit (O.KET_SRC_STATUS n) 3 s

/-- The reactions of a source at present: KET_REACT, with KET_ESC_REACT once escalated (R272, R274). -/
def reactOf (n : Nat) (s : State) : Nat := rd (O.KET_REACT n) s ||| (if isEscalated n s then rd (O.KET_ESC_REACT n) s else 0)

/-- FAULT_N is low (R275, R391): until the path test has completed, in ROM service mode, while a latched source has the reaction, and in a cell while any local fault is latched. -/
def faultNLow (s : State) : Bool :=
  !s.ket.pathTested || rd O.SYS_RECOVERY s != 0 || s.ket.latched.any (fun n => bit (reactOf n s) 1) || (isCell s && rd O.CEL_FAULT_LATCHED s != 0)

/-- FAULT_N driven. -/
def updFaultN (s : State) : State := wr O.KET_FAULTN (b2n (faultNLow s)) s

/-- Own state of a source; absent entries have a full bucket and no timer. -/
def kSrc (n : Nat) (s : State) : KSrc := (s.ket.srcs.find? fun k => k.n == n).getD ⟨n, rd O.KET_BURST s, 0, none, none, 0⟩

/-- Own state of a source replaced. -/
def setKSrc (k : KSrc) (s : State) : State := updKet (fun t => { t with srcs := k :: t.srcs.filter fun x => x.n != k.n }) s

/-- ORIGIN of this device's events (Table 10.3). -/
def eventOrigin (s : State) : Nat := ownAddr s

/-- Put an event in the queue, or drop it: the last 16 entries are kept for kinds 6 to 8 (R279). -/
def queueEvent (kind source cls instant count data : Nat) (s : State) : State :=
  let n := s.ket.queue.length
  let reserved := 6 ≤ kind
  if reserved && n ≥ 4096 then bump (O.KET_CLASS_DROPPED 9) s
  else if !reserved && n ≥ 4080 then bump (O.KET_CLASS_DROPPED cls) (updKet (fun t => { t with dropped := t.dropped + 1 }) s)
  else
    let e : Event := { origin := eventOrigin s, oflags := b2n (sideB s) * 128 + b2n (isNode s) * 64, kind := kind, source := source, cls := cls,
                       instant := instant, count := count, data := data, eseq := low 32 (s.ket.eseq + 1) }
    let s := updKet (fun t => { t with queue := t.queue ++ [e], eseq := low 32 (t.eseq + 1) }) s
    let s := wr O.KET_Q_PEAK (max (rd O.KET_Q_PEAK s) (n + 1)) (wr O.KET_Q_FILL (n + 1) s)
    bump (O.KET_CLASS_LOGGED cls) s

/-- An event of a source under its token bucket, which holds KET_BURST tokens at most (R278). -/
def logEvent (n kind instant : Nat) (s : State) : State :=
  let k := { kSrc n s with tokens := min (kSrc n s).tokens (rd O.KET_BURST s) }
  if k.tokens == 0 then
    let s := setKSrc { k with lost := k.lost + 1, refill := some (k.refill.getD (s.tick + ms (rd O.KET_REFILL s))) } s
    wrBit (O.KET_SRC_STATUS n) 4 true (bump (O.KET_CLASS_SUPPRESSED (srcClass n)) (bump (O.KET_SRC_SUPPRESSED n) s))
  else
    let s := setKSrc { k with tokens := k.tokens - 1, refill := some (k.refill.getD (s.tick + ms (rd O.KET_REFILL s))) } s
    queueEvent kind n (srcClass n) instant (rd (O.KET_SRC_COUNT n) s) k.data s

/-- An event when LOG is among the source's reactions. -/
def logIf (n kind instant : Nat) (s : State) : State := if bit (reactOf n s) 0 then logEvent n kind instant s else s

/-- In safe block: UNCONFIRMED, COMMISSIONING or SAFE (R285). -/
def inSafeBlock (s : State) : Bool := let x := rd O.SAF_STATE s; isNode s && (x == 0 || x == 1 || x == 4)

/-- ACTION of safety function f. -/
def fnAction (f : Nat) (s : State) : Nat := fld (rd (O.SAF_FN_CFG f) s) 29 28

/-- State code of safety function f (R283). -/
def fnState (f : Nat) (s : State) : Nat := fld (rd O.SAF_FN_STATE s) (4 * f + 3) (4 * f)

/-- Functions whose state satisfies a test. -/
def fnsIn (p : Nat → Bool) (s : State) : List Nat := (List.range 8).filter fun f => p (fnState f s)

/-- RED_MODE is DUPLEX. -/
def isDuplex (s : State) : Bool := rd O.RED_MODE s == 0

/-- A cause of degraded mode is present (R291). -/
def degradeCause (s : State) : Bool :=
  s.ket.live.any (fun n => bit (reactOf n s) 7) || (fnsIn (fun x => x == 2 || x == 3) s).any (fun f => fnAction f s == 2)
    || (isDuplex s && (s.saf.peerMissing || (List.range 8).any fun f =>
      match (s.saf.fns.getD f FnSt.init).peerDiffAt with
      | some t => t + ms (rd (O.SAF_DISC_TIME f) s) ≤ s.tick
      | none => false))

/-- The bursts of a schuss on every lane in L5: four identical symbols, at once and inside any frame (R154 to R156, R286). -/
def sendSchuss (kind origin seq : Nat) (except_ : Nat) (s : State) : State :=
  each ((List.range 68).filter fun n => n != except_ && inL5 n s) (fun n => updLane n fun l => { l with out := [.sym (.schuss (schussBytes kind origin seq)) 4] }) s

/-- Ticks of valve time left on the degraded timer (R291). -/
def degTicks (s : State) : Nat := match s.saf.degEnd with | some t => t - vtTicks s | none => 0

/-- SAF_DEGRADED_LEFT: the degraded timer in ms, a part of one counting as one, or the value at which it stopped (R291). -/
def degLeft (s : State) : Nat := if s.saf.degEnd.isSome then ceilDiv (degTicks s) (ms 1) else rd O.SAF_DEGRADED_LEFT s

/-- A present cause calls for URGENT_TRIP (R286). -/
def urgentHeld (s : State) : Bool := s.saf.causes.any (·.2)

/-- What a source's rise or fall may set going; sl is the operation on the sources it raises in turn. -/
def setSafState (sl : Nat → Bool → Nat → State → State) (new : Nat) (s : State) : State :=
  let old := rd O.SAF_STATE s
  if old == new then s
  else
    let s := wr O.SAF_STATE new s
    let s := queueEvent 7 0xFFFF 8 (instNow s) 0 (new + 256 * old) s
    let s := sl 224 (new == 0) 0 (sl 222 (new == 3) 0 s)
    let s := if old == 3 then updSaf (fun x => { x with degFrozen := some (degTicks s, s.tick), degEnd := none, noCauseAt := none }) (wr O.SAF_DEGRADED_LEFT (degLeft s) s) else s
    if inSafeBlock s then clearDeblock s else s

/-- Entry to SAFE from RUN or DEGRADED with the cause of the block (R287). -/
def enterSafe (sl : Nat → Bool → Nat → State → State) (node : Nat) (side urgent : Bool) (s : State) : State :=
  let x := rd O.SAF_STATE s
  if x == 2 || x == 3 then setSafState sl 4 (wr O.SAF_BLOCK_CAUSE (low 8 node * 256 + b2n side * 128 + b2n urgent) s) else s

/-- A cause of a schuss arises in this node (R286): a first request, or one that raises it to URGENT_TRIP, sends a new SEQ. -/
def originate (sl : Nat → Bool → Nat → State → State) (c : Cause) (urgent : Bool) (source : Nat) (s : State) : State :=
  if !isNode s then s
  else
    let fresh := s.saf.causes.isEmpty || (urgent && !urgentHeld s)
    let s := updSaf (fun x => { x with causes := aset x.causes c (urgent || (aget x.causes c).getD false) }) s
    let urg := urgentHeld s
    let s := if urg then updSaf (fun x => { x with tripHeld := true }) s else s
    if fresh then
      let kind := if urg then 0xA5 else 0x5A
      let seq := low 8 (s.saf.seq + 1)
      let s := updSaf (fun x => { x with seq := seq, repeatAt := some (s.tick + us 2) }) s
      let s := sendSchuss kind (nodeNum s) seq 68 s
      let s := queueEvent 8 source 8 (instNow s) 0 (kind * 256 + seq) s
      enterSafe sl (nodeNum s) (sideB s) urg s
    else s

/-- The degraded timer has run out (R291, Table 10.6). -/
def degradeExpire (sl : Nat → Bool → Nat → State → State) (s : State) : State :=
  let s := wr O.SAF_DEGRADED_LEFT 0 (updSaf (fun x => { x with expired := true, degEnd := none, degFrozen := none, noCauseAt := none }) s)
  originate sl .degraded false 222 s

/-- Entry to DEGRADED: the timer is loaded, or resumed where the node left DEGRADED less than 10 s before; with SAF_DEGRADED_TIME 0 the cause leads to SAFE (R291). -/
def enterDegraded (sl : Nat → Bool → Nat → State → State) (s : State) : State :=
  if rd O.SAF_DEGRADED_TIME s == 0 then degradeExpire sl s
  else
    let load := ms (rd O.SAF_DEGRADED_TIME s)
    let left := match s.saf.degFrozen with | some (l, t) => if s.tick < t + ms 10000 then l else load | none => load
    let s := updSaf (fun x => { x with degEnd := some (vtTicks s + left), degFrozen := none, noCauseAt := none }) s
    setSafState sl 3 (wr O.SAF_DEGRADED_LEFT (degLeft s) s)

/-- RUN and DEGRADED by the causes of R291. -/
def evalDegrade (sl : Nat → Bool → Nat → State → State) (s : State) : State :=
  if !isNode s then s
  else if rd O.SAF_STATE s == 2 && degradeCause s then enterDegraded sl s
  else if rd O.SAF_STATE s == 3 then
    if degradeCause s then updSaf (fun x => { x with noCauseAt := none }) s
    else updSaf (fun x => { x with noCauseAt := some (x.noCauseAt.getD s.tick) }) s
  else s

/-- The reactions of a mask at a rise of source n (Table 10.2). LOG and the level reactions FAULT_N and DEMOTE are read where they act. -/
def react (sl : Nat → Bool → Nat → State → State) (n mask instant : Nat) (s : State) : State :=
  let s := updFaultN s
  let s := onlyIf (bit mask 2) (acqTrigger 11 instant 0xFFFF) s
  let s := onlyIf (bit mask 4) clearDeblock s
  let s := onlyIf (bit mask 6) (originate sl (.src n) true n) s
  let s := onlyIf (bit mask 5 && !bit mask 6) (originate sl (.src n) false n) s
  let s := onlyIf (bit mask 7) (evalDegrade sl) s
  onlyIf (bit mask 8) (fireEvent 1) s

/-- Escalation of a source (R274). -/
def escalate (sl : Nat → Bool → Nat → State → State) (n : Nat) (s : State) : State :=
  if isEscalated n s then s
  else
    let s := wrBit (O.KET_SRC_STATUS n) 3 true s
    let s := setKSrc { kSrc n s with escAt := none } s
    let s := if bit (rd (O.KET_REACT n) s ||| rd (O.KET_ESC_REACT n) s) 0 then logEvent n 4 (instNow s) s else s
    react sl n (rd (O.KET_ESC_REACT n) s) (instNow s) s

/-- LIVE of source n follows its rails (R269, R272, R273): inst is the detection instant of a rise, data the source data of its events. -/
def liveCore (sl : Nat → Bool → Nat → State → State) (n : Nat) (b : Bool) (data inst : Nat) (s : State) : State :=
  if !srcExists s.straps n || isLive n s == b then s
  else if b then
    let first := rd (O.KET_SRC_RISES n) s == 0
    let s := wr (O.KET_SRC_STATUS n) (rd (O.KET_SRC_STATUS n) s ||| 3) s
    let s := updKet (fun t => { t with live := addTo t.live n, latched := addTo t.latched n }) s
    let s := bump (O.KET_SRC_RISES n) (bump (O.KET_SRC_COUNT n) (wr O.KET_LATCHED_N s.ket.latched.length s))
    let s := wr (O.KET_SRC_LAST n) (ts96N inst) (if first then wr (O.KET_SRC_FIRST n) (ts96N inst) s else s)
    let et := rd (O.KET_ESC_TIME n) s
    let s := setKSrc { kSrc n s with data := data, escAt := if et == 0 then none else some (s.tick + ms et) } s
    let s := logIf n 1 inst s
    let s := react sl n (reactOf n s) inst s
    let ec := rd (O.KET_ESC_COUNT n) s
    if ec != 0 && rd (O.KET_SRC_RISES n) s ≥ ec then escalate sl n s else s
  else
    let s := wrBit (O.KET_SRC_STATUS n) 0 false s
    let s := updKet (fun t => { t with live := t.live.filter (· != n) }) s
    let s := setKSrc { kSrc n s with escAt := none } s
    evalDegrade sl (logIf n 2 (instNow s) s)

/-- The condition of source n stands or not; a broken path keeps LIVE 1 whatever it does (R268, R432). -/
def condLive (sl : Nat → Bool → Nat → State → State) (n : Nat) (b : Bool) (data : Nat) (s : State) : State :=
  let s := updKet (fun t => { t with cond := if b then addTo t.cond n else t.cond.filter (· != n) }) s
  liveCore sl n (b || s.ket.broken.contains n) data (instNow s) s

/-- An event dropped on the way makes EVENT_OVERFLOW live (R279). -/
def overflowed (sl : Nat → Bool → Nat → State → State) (s : State) : State :=
  if s.ket.dropped != 0 && !isLive 226 s then condLive sl 226 true 0 s else s

/-- LIVE with the reactions of reactions to a depth that covers every chain of Tables 10.2 and 10.6. -/
def liveN : Nat → Nat → Bool → Nat → State → State
  | 0, _, _, _, s => s
  | f + 1, n, b, data, s => overflowed (liveN f) (condLive (liveN f) n b data s)

/-- LIVE of source n follows a condition. -/
def setLive (n : Nat) (b : Bool) (data : Nat) (s : State) : State := liveN 8 n b data s

/-- LIVE of source n follows the codes on its path, whose first cycle was at inst (R268, R269). -/
def setPath (n : Nat) (b : Bool) (inst : Nat) (s : State) : State := overflowed setLive (liveCore setLive n b 0 inst s)

/-- An event source: LIVE for one CTRL cycle (R432). -/
def pulse (n data : Nat) (s : State) : State := setLive n false data (setLive n true data s)

/-- Safety-state operations for the families. -/
def safState (new : Nat) (s : State) : State := setSafState setLive new s

/-- Clear one source (R276): whether it was refused, and the state. -/
def clearSource (n : Nat) (check : Option Nat) (s : State) : Bool × State :=
  if !isLatched n s then (false, s)
  else if isLive n s || (match check with | some e => rd (O.KET_SRC_RISES n) s != e | none => false) then (true, bump O.KET_CLEAR_REFUSED s)
  else
    let logs := bit (reactOf n s) 0
    let s := wr (O.KET_SRC_STATUS n) (clrBit (clrBit (rd (O.KET_SRC_STATUS n) s) 1) 3) s
    let s := updKet (fun t => { t with latched := t.latched.filter (· != n) }) s
    let s := wr (O.KET_SRC_FIRST n) 0 (wr (O.KET_SRC_RISES n) 0 (wr O.KET_LATCHED_N s.ket.latched.length s))
    let s := if logs then logEvent n 3 (instNow s) s else s
    let s := updSaf (fun x => { x with causes := x.causes.filter (·.1 != .src n) }) s
    (false, updFaultN s)

/-- Clear several sources: whether any was refused. -/
def clearSources (l : List Nat) (check : Option Nat) (s : State) : Bool × State :=
  l.foldl (fun r n => let x := clearSource n check r.2; (r.1 || x.1, x.2)) (false, s)

/-- The queue after entries have left it: EVENT_OVERFLOW falls below 3072 entries and an OVERFLOW event records the loss (R279). -/
def queueShrunk (s : State) : State :=
  let s := wr O.KET_Q_FILL s.ket.queue.length s
  if s.ket.dropped != 0 && s.ket.queue.length < 3072 then
    let lost := s.ket.dropped
    let s := updKet (fun t => { t with dropped := 0 }) s
    let s := setLive 226 false 0 s
    queueEvent 6 0xFFFF 9 (instNow s) lost 0 s
  else s

end Sys2Proof.Machine
end

