-- ==== Sys2Proof/Machine/OpsAccess.lean ====
section
/-! DEFINITION. Access to objects: place, class, range and the order of the checks of R355; the frame of every command that is a write of one object. -/
namespace Sys2Proof.Machine

/-- What an access answers: the status of Table 14.3 and the state after it. -/
abbrev Res := Nat × State

/-- Status codes of Table 14.3. -/
def stOk : Nat := 0
/-- NO_OBJECT. -/
def stNoObject : Nat := 1
/-- BLOCK_OFF. -/
def stBlockOff : Nat := 2
/-- RIGHTS. -/
def stRights : Nat := 3
/-- ACCESS. -/
def stAccess : Nat := 4
/-- LENGTH. -/
def stLength : Nat := 5
/-- STATE. -/
def stState : Nat := 6
/-- RANGE. -/
def stRange : Nat := 7
/-- BUSY. -/
def stBusy : Nat := 8
/-- UNREACHABLE. -/
def stUnreachable : Nat := 9
/-- NVM. -/
def stNvm : Nat := 10
/-- AUTH. -/
def stAuth : Nat := 11
/-- NO_SESSION. -/
def stNoSession : Nat := 12

/-- Whether an object with this place exists at the device (R24). -/
def Place.here (p : Place) (s : State) : Bool :=
  match p with
  | .all => true
  | .node => isNode s
  | .cell => isCell s
  | .apex => isApex s
  | .apexWrites => true
  | .nodeApexWrites => isNode s

/-- Whether writes to an object with this place are accepted at the device (R29, R198). -/
def Place.writes (p : Place) (s : State) : Bool :=
  match p with
  | .apexWrites => isApex s
  | .nodeApexWrites => isApex s
  | _ => true

/-- A value an object's type and Range column admit (R7, R353). -/
def ObjRow.inRange (r : ObjRow) (v : Nat) : Bool :=
  let val : Int := match r.ty with | .i w => toI w v | _ => (v : Int)
  (v < 2 ^ r.ty.bits) &&
  (match r.ty with | .ts96 => fld v 47 16 ≤ 999999999 | _ => true) &&
  (match r.rng with
   | .any => true
   | .ints l => l.any fun p => p.1 ≤ val && val ≤ p.2
   | .finite => ffinite fmt32 v
   | .f32 lo hi => ffinite fmt32 v && leF lo v && leF v hi)

/-- What ROM service mode lets be written: VERIFY, ACTIVATE and RESET with NO_IMAGE, RESET with CORE (R391). -/
def romWrites (k v : Nat) (s : State) : Bool :=
  let m := rd O.SYS_RECOVERY s
  (m == 1 && k == O.NVM_CMD && (v == 3 || v == 4)) || ((m == 1 || m == 3) && k == O.SYS_CMD)

/-- ROM service mode refuses a write of v to object k (R391). -/
def romRefuses (k v : Nat) (s : State) : Bool := rd O.SYS_RECOVERY s != 0 && !romWrites k v s

/-- A write of one object by the checks of R355 after ACCESS: place, ROM service mode, the device's state (st, 0 where it allows the write), range, then its effect. -/
def writeBy (k v st : Nat) (f : State → Res) (s : State) : Res :=
  match objRow? k with
  | none => (stNoObject, s)
  | some r =>
    if !r.place.here s then (stBlockOff, s)
    else if romRefuses k v s || !r.place.writes s then (stState, s)
    else if st != 0 then (st, s)
    else if !r.inRange v then (stRange, s)
    else f s

/-- A completed write. -/
def done (s : State) : Res := (stOk, s)

/-- The state after an access, with its answer recorded. -/
def finish (r : Res) : State := answer r.1 [] r.2

/-- STATE where a refusal condition holds. -/
def stIf (c : Bool) : Nat := if c then stState else stOk

end Sys2Proof.Machine
end

