-- ==== Sys2Proof/Machine/OpsSaf.lean ====
section
/-! DEFINITION. The safety functions, degraded mode, release and the duplicate's status as shared operations (R282 to R292). -/
namespace Sys2Proof.Machine

/-- Downlinks assigned to arm slot j (R42). -/
def slotLinks (j : Nat) (s : State) : List Nat := downlinks.filter fun k => rd (O.BAL_LINK_ARM k) s == j

/-- The arm of slot j. -/
def slotArm (j : Nat) (s : State) : Nat := rd (O.BAL_ARM_ID j) s

/-- Arms a node serves: those of slots with a downlink, and those its 0xFE links reported (R42). -/
def servedArms (s : State) : List Nat :=
  ((List.range 6).filter fun j => !(slotLinks j s).isEmpty).map (fun j => slotArm j s) ++ s.bal.groupArms.flatMap (·.2)

/-- An arm the node serves is deblocked; at the apex, any arm of the system (R87). -/
def servesDeblocked (s : State) : Bool :=
  if isApex s then anyDeblocked s else isNode s && (servedArms s).any fun a => armDeblocked a s

/-- The isolation link is up (R331). -/
def fieldUp (s : State) : Bool := rd O.FIO_LINK_STATE s == 1

/-- Whether a channel of a function demands: src is a SRC field, pol the level that demands (R283). -/
def chanDemand (src : Nat) (pol : Bool) (s : State) : Bool :=
  if bit src 7 then rdBit (O.ADC_IN_STATUS (fld src 3 0)) (if bit src 4 then 3 else 2) s == pol
  else !fieldUp s || rdBit O.FIO_DI (fld src 3 0) s == pol

/-- State of function f set, and the sources and the schuss cause that depend on it (R283, R286). -/
def setFnState (f v data : Nat) (s : State) : State :=
  let x := rd O.SAF_FN_STATE s
  let s := wr O.SAF_FN_STATE (x - fld x (4 * f + 3) (4 * f) * 2 ^ (4 * f) + v * 2 ^ (4 * f)) s
  let s := setLive 220 (!(fnsIn (· == 2) s).isEmpty) data s
  let s := setLive 221 (!(fnsIn (· == 3) s).isEmpty) data s
  if v == 2 || v == 3 then s else updSaf (fun y => { y with causes := y.causes.filter (·.1 != .fn f) }) s

/-- Act under ACTION at the entry to DEMAND or DISCREPANT (R283, R286). -/
def actFn (f : Nat) (s : State) : State :=
  match fnAction f s with
  | 0 => originate setLive (.fn f) false 220 s
  | 1 => originate setLive (.fn f) true 220 s
  | 2 => evalDegrade setLive s
  | _ => s

/-- Since when the state of each function differs from the duplicate's (R291). -/
def updPeerDiff (s : State) : State :=
  match s.saf.peer with
  | none => s
  | some p =>
    let upd (f : Nat) (r : FnSt) : FnSt :=
      if fld p.fnState (4 * f + 3) (4 * f) == fnState f s then { r with peerDiffAt := none }
      else { r with peerDiffAt := some (r.peerDiffAt.getD s.tick) }
    updSaf (fun x => { x with fns := x.fns.mapIdx upd }) s

/-- A function's state on the latest channel values (R283, R284). -/
def evalFn (f : Nat) (s : State) : State :=
  let cfg := rd (O.SAF_FN_CFG f) s
  let r := s.saf.fns.getD f FnSt.init
  let st := fnState f s
  if !bit cfg 31 then (if st == 0 then s else updPeerDiff (setFnState f 0 f s))
  else
    let a := chanDemand (fld cfg 15 8) (bit cfg 26) s
    let b := chanDemand (fld cfg 7 0) (bit cfg 25) s
    let disc := if a != b then some (r.discAt.getD s.tick) else none
    let r' : FnSt := { r with discAt := disc, bothSeen := st == 3 && (r.bothSeen || (a && b)) }
    let s := updSaf (fun x => { x with fns := x.fns.set f r' }) s
    let new := if st == 2 then (if a || b then 2 else if bit cfg 27 then 1 else 4)
      else if st == 3 then (if r'.bothSeen && !a && !b then 4 else 3)
      else if a || b then 2
      else if st == 4 then 4 else 1
    if new == st then s
    else
      let s := setFnState f new f s
      let s := if new == 2 then actFn f s else evalDegrade setLive s
      updPeerDiff s

/-- Every function on the latest channel values. -/
def evalFns (s : State) : State := if isNode s then each (List.range 8) evalFn s else s

/-- The conditions of R290 for a release at this node. -/
def releaseOk (s : State) : Bool :=
  (fnsIn (fun x => x == 2 || x == 3 || x == 4) s).isEmpty && !(s.ket.latched.any fun n => fld (reactOf n s) 6 5 != 0) && !s.saf.expired

/-- A release accepted: requests and trip levels end, and SAFE is left for RUN, or for DEGRADED if a cause is present (Table 10.6). -/
def doRelease (s : State) : State :=
  let s := updSaf (fun x => { x with causes := x.causes.filter (·.1 != .degraded), tripHeld := false, expired := false }) s
  if rd O.SAF_STATE s != 4 then s else if degradeCause s then enterDegraded setLive s else safState 2 s

/-- A release as a node meets it: accepted in SAFE where the conditions hold. -/
def tryRelease (s : State) : State := if releaseOk s then doRelease s else s

/-- SAF_BLOCK_NODES from what the apex has heard (R290). -/
def updBlockNodes (s : State) : State :=
  wr O.SAF_BLOCK_NODES (s.saf.nodeBad.foldl (fun a e => if e.2 then setBit a e.1 else a) 0) s

/-- What the apex knows of node n changed: heard now, and whether it prevents deblock. -/
def nodeHeard (n : Nat) (bad : Bool) (s : State) : State :=
  updBlockNodes (updSaf (fun x => { x with nodes := aset x.nodes n s.tick, nodeBad := aset x.nodeBad n bad }) s)

/-- The causes of SAF_PEER (R292): a status missing, another check value, a function state that has differed for its time. -/
def peerCause (s : State) : Option Nat :=
  if !isDuplex s then none
  else if s.saf.peerMissing then some 1
  else if s.saf.checkDiffers then some 2
  else (List.range 8).findSome? fun f =>
    match (s.saf.fns.getD f FnSt.init).peerDiffAt with
    | some t => if t + ms (rd (O.SAF_DISC_TIME f) s) ≤ s.tick then some (3 + f) else none
    | none => none

/-- SAF_PEER and degraded mode by the duplicate's status. -/
def evalPeer (s : State) : State :=
  let c := peerCause s
  evalDegrade setLive (setLive 223 c.isSome (c.getD 0) s)

/-- Keys of the safety set in the order of R293, each with its width in bytes. -/
def safKeys : List (Nat × Nat) :=
  (List.range 256).map (fun n => (O.KET_REACT n, 2)) ++ (List.range 256).map (fun n => (O.KET_ESC_TIME n, 4))
    ++ (List.range 256).map (fun n => (O.KET_ESC_COUNT n, 4)) ++ (List.range 256).map (fun n => (O.KET_ESC_REACT n, 2))
    ++ (List.range 8).map (fun f => (O.SAF_FN_CFG f, 4)) ++ (List.range 8).map (fun f => (O.SAF_DISC_TIME f, 2))
    ++ [(O.SAF_DEGRADED_TIME, 4), (O.SAF_PEER_TIMEOUT, 2), (O.SAF_TRIP_DO, 1), (O.SAF_TRIP_LEVEL, 1), (O.SAF_SET_ID, 4)]

/-- The serialised safety set (R293). -/
def safBytes (s : State) : List Nat := safKeys.flatMap fun e => leBytes e.2 (rd e.1 s)

/-- SAF_CHECK_COMPUTED (R293). -/
def safCheck (s : State) : Nat := crc32 (safBytes s)

/-- A schuss accepted by a node (R285, R287, R289). -/
def nodeSchuss (urgent : Bool) (origin : Nat) (s : State) : State :=
  let s := if urgent then updSaf (fun x => { x with tripHeld := true }) s else s
  -- The symbol carries no side; SAF_BLOCK_CAUSE [7] takes this node's (log entry 20).
  enterSafe setLive origin (sideB s) urgent s

end Sys2Proof.Machine
end

