-- ==== Sys2Proof/Machine/OpsCell.lean ====
section
/-! DEFINITION. The cell engine as shared operations: gate edges and changes of terminal state, local faults and their reactions, cell states, the bypass sequence, the choice and decision of a command (R47 to R49, R60 to R63, R80 to R107, R205, R288, R431). -/
namespace Sys2Proof.Machine

/-- The cell engine's own state changed. -/
def updCell (f : CellSt → CellSt) (s : State) : State := { s with cell := f s.cell }

/-- CEL_STATE: 1 BOOT, 2 BLOCKED, 3 READY, 4 ACTIVE, 5 HELD, 6 BYPASSED (R83). -/
def celState (s : State) : Nat := rd O.CEL_STATE s

/-- ACTIVE or HELD. -/
def celLive (s : State) : Bool := celState s == 4 || celState s == 5

/-- Full-bridge cell. -/
def fullBridge (s : State) : Bool := rd O.CEL_TOPOLOGY s == 1

/-- Time lock of a cell: LOCKED (R187). -/
def timeLock (s : State) : Bool := rd O.TIM_VT_STATE s == 1

/-- The cell has an index (R400). -/
def indexed (s : State) : Bool := rd O.TREE_CELL_INDEX s != 0xFFFF

/-- The latched DSAT fault of output o: 0 HA, 1 LA, 2 HB, 3 LB. -/
def dsatLatched (o : Nat) (s : State) : Bool := rdBit O.CEL_FAULT_LATCHED (2 + o) s

/-- What the legs drive in a terminal state (Table 3.4). -/
def legsOf (fb : Bool) : Terminal → Leg × Leg
  | .block => (.off, .off)
  | .insPos => (.upper, if fb then .lower else .off)
  | .insNeg => if fb then (.lower, .upper) else (.off, .off)
  | .bypLower => (.lower, if fb then .lower else .off)
  | .bypUpper => if fb then (.upper, .upper) else (.lower, .off)

/-- The bypass pattern that CEL_FB_BYPASS selects (R89). -/
def bypTerm (s : State) : Terminal := if fullBridge s && rd O.CEL_FB_BYPASS s == 1 then .bypUpper else .bypLower

/-- The terminal states whose changes R105 counts: 0 bypass, 1 insert positive, 2 insert negative. -/
def swCode : Terminal → Option Nat
  | .block => none
  | .insPos => some 1
  | .insNeg => some 2
  | .bypLower => some 0
  | .bypUpper => some 0

/-- CEL_TRIM of output o. -/
def trimOf (o : Nat) (s : State) : Int := rdI 16 (O.CEL_TRIM o) s

/-- The output of leg b (A 0, B 1) that a drive turns on. -/
def outOf (b : Nat) : Leg → Option Nat
  | .off => none
  | .upper => some (2 * b)
  | .lower => some (2 * b + 1)

/-- The drive of leg b. -/
def legOf (b : Nat) (s : State) : Leg := if b == 0 then s.cell.legA else s.cell.legB

/-- Set the drive of leg b. -/
def setLeg (b : Nat) (d : Leg) (s : State) : State :=
  updCell (fun c => if b == 0 then { c with legA := d } else { c with legB := d }) s

/-- Output o is high. -/
def outHigh (o : Nat) (s : State) : Bool := outOf (o / 2) (legOf (o / 2) s) == some o

/-- An output switched at valve tick t. -/
def driveEdge (e : Edge) (s : State) : State :=
  let b := e.out / 2
  if e.on then
    if legOf b s == .off then
      let d := if e.out % 2 == 0 then Leg.upper else Leg.lower
      updCell (fun c => { c with onAt := c.onAt.set e.out e.t }) (setLeg b d s)
    else s
  else if outHigh e.out s then updCell (fun c => { c with offAt := c.offAt.set e.out e.t }) (setLeg b .off s)
  else s

/-- Insert an edge behind those no later. -/
def insEdge (e : Edge) : List Edge → List Edge
  | [] => [e]
  | x :: t => if e.t < x.t then e :: x :: t else x :: insEdge e t

/-- Schedule an edge. -/
def addEdge (e : Edge) (s : State) : State := updCell (fun c => { c with edges := insEdge e c.edges }) s

/-- The turn-off edge of output o scheduled or driven last. -/
def lastOff (o : Nat) (s : State) : Nat :=
  match s.cell.edges.find? (fun e => e.out == o && !e.on) with
  | some e => e.t
  | none => s.cell.offAt.getD o 0

/-- A turn-on edge at t, or later where R91 demands it. -/
def addOn (o t : Nat) (s : State) : State :=
  let least := lastOff (if o % 2 == 0 then o + 1 else o - 1) s + 40
  let bound := lastOff (if o % 2 == 0 then o + 1 else o - 1) s != 0
  if bound && t < least then bump O.CEL_INTERLOCK (addEdge { t := least, out := o, on := true } s)
  else addEdge { t := t, out := o, on := true } s

/-- A valve tick moved by a trim. -/
def plusT (t : Nat) (d : Int) : Nat := ((t : Int) + d).toNat

/-- The edges of leg b to drive d at scheduled instant t, from the outputs as they stand (R90, R431); none earlier than now. -/
def legEdges (b : Nat) (d : Leg) (t now : Nat) (forced : Bool) (s : State) : State :=
  let cur := legOf b s
  let leaving := s.cell.edges.any fun e => !e.on && outOf b cur == some e.out
  if cur == d && !leaving then s
  else
    let s := match outOf b cur with
      | some o => if leaving then s else addEdge { t := max now (if forced then t else plusT t (trimOf o s)), out := o, on := false } s
      | none => s
    match outOf b d with
    | some o =>
      let on := t + rd O.CEL_DEAD_TIME s
      addOn o (max now (if forced then on else plusT on (trimOf o s))) s
    | none => s

/-- Both legs to a terminal state: pending turn-on edges are cancelled first (R90). -/
def toTerminal (x : Terminal) (t now : Nat) (forced : Bool) (s : State) : State :=
  let s := updCell (fun c => { c with edges := c.edges.filter fun e => !e.on && !forced, planned := x }) s
  let l := legsOf (fullBridge s) x
  legEdges 1 l.2 t now forced (legEdges 0 l.1 t now forced s)

/-- Take every edge up to valve tick v, in order. -/
def takeEdges (v : Nat) (s : State) : State :=
  let s := each (s.cell.edges.filter fun e => e.t ≤ v) driveEdge s
  updCell (fun c => { c with edges := c.edges.filter fun e => v < e.t }) s

/-- A forced change at once (R431). -/
def forceTo (x : Terminal) (s : State) : State :=
  let now := vtTicks s
  takeEdges now (toTerminal x now now true s)

/-- The Block of R92 at once. -/
def blockNow (s : State) : State :=
  let now := vtTicks s
  takeEdges now (toTerminal .block now now false s)

/-- All gate outputs low at once, and nothing scheduled (R96, R99). -/
def allLow (s : State) : State :=
  let now := vtTicks s
  let s := updCell (fun c => { c with edges := [], planned := .block }) s
  each [0, 1, 2, 3] (fun o => driveEdge { t := now, out := o, on := false }) s

/-- Save the counter record (R107). -/
def saveRecord (s : State) : State :=
  updCell (fun c => { c with record := { sw := rd O.CEL_SW_COUNT s, tc := rd O.CEL_TC_COUNT s, late := rd O.CEL_LATE_PERIODS s,
                                         rising := c.rising, ext := c.ext, started := c.tcStarted } }) s

/-- The counter record restored (R107). -/
def restoreRecord (s : State) : State :=
  let r := s.cell.record
  let s := wr O.CEL_SW_COUNT r.sw (wr O.CEL_TC_COUNT r.tc (wr O.CEL_LATE_PERIODS r.late s))
  updCell (fun c => { c with rising := r.rising, ext := r.ext, tcStarted := r.started }) s

/-- CEL_SW_COUNT for a change to terminal state x (R105). -/
def countSw (x : Terminal) (s : State) : State :=
  match swCode x with
  | none => s
  | some n =>
    let s' := updCell (fun c => { c with lastSw := some n }) s
    match s.cell.lastSw with
    | none => s'
    | some m =>
      if m == n then s'
      else
        let v := low 64 (rd O.CEL_SW_COUNT s + 1)
        let s := wr O.CEL_SW_COUNT v s'
        if v % 2 ^ 24 == 0 then saveRecord s else s

/-- A terminal state that inserts the capacitor. -/
def Terminal.inserts (x : Terminal) : Bool := x == .insPos || x == .insNeg

/-- The override of R94 holds: a divider has not fallen again, in ACTIVE or HELD. -/
def override (s : State) : Bool := s.cell.ov1 && celLive s

/-- When a change falls due: its earliest edge by the patterns it leaves and takes (R93). -/
def dueAt (ch : Change) (s : State) : Nat :=
  let fb := fullBridge s
  let a := legsOf fb s.cell.planned
  let b := legsOf fb ch.target
  let one (n : Nat) (x y : Leg) : List Nat :=
    if x == y then []
    else
      (match outOf n x with | some o => [plusT ch.t (trimOf o s)] | none => [])
        ++ (match outOf n y with | some o => [plusT (ch.t + rd O.CEL_DEAD_TIME s) (trimOf o s)] | none => [])
  match one 0 a.1 b.1 ++ one 1 a.2 b.2 with
  | [] => ch.t
  | x :: l => l.foldl min x

/-- The first change not yet due. -/
def nextChange (s : State) : Option Change := s.cell.changes.find? fun c => !c.due

/-- Changes settled: those whose edges were taken and whose instant has passed are counted and dropped. -/
def settle (s : State) : State :=
  let d := s.cell.changes.filter fun c => c.due && c.ran
  each d (fun c => countSw c.target) (updCell (fun x => { x with changes := x.changes.filter fun c => !(c.due && c.ran) }) s)

/-- The first change falls due (R93): dropped where the state takes no scheduled edge, where the override holds or where nothing changes; merged with its return; or its edges taken. -/
def fallDue (ch : Change) (now : Nat) (s : State) : State :=
  let rest := s.cell.changes.filter (· != ch)
  let drop := updCell (fun c => { c with changes := rest }) s
  let st := celState s
  if !(st == 3 || st == 4 || st == 5) then drop
  else if ch.target != .block && override s then
    updCell (fun c => { c with suppressed := c.suppressed || ch.target.inserts }) drop
  else if ch.target == s.cell.planned then drop
  else
    match (rest.filter fun c => !c.due).find? (fun c => c.target != ch.target) with
    | some c2 =>
      if c2.target == s.cell.planned && c2.t - ch.t < rd O.CEL_MIN_PULSE s then
        bump O.CEL_PULSE_MERGED (updCell (fun c => { c with changes := rest.filter fun x => x.due || c2.t < x.t }) s)
      else mark s
    | none => mark s
where
  /-- The edges of the change. -/
  mark (s : State) : State :=
    let s := updCell (fun c => { c with changes := c.changes.map fun x => if x == ch then { x with due := true, ran := x.ran || decide (x.t ≤ now) } else x }) s
    settle (toTerminal ch.target ch.t now false s)

/-- The next instant at which the gate engine acts. -/
def nextGate (s : State) : Option Nat :=
  match nextChange s, s.cell.edges with
  | some c, e :: _ => some (min (dueAt c s) e.t)
  | some c, [] => some (dueAt c s)
  | none, e :: _ => some e.t
  | none, [] => none

/-- The gate engine up to valve tick v: due changes and edges in order. -/
def gatesTo : Nat → Nat → State → State
  | 0, _, s => s
  | f + 1, v, s =>
    match nextGate s with
    | none => s
    | some t =>
      if v < t then s
      else
        match nextChange s with
        | some c => if dueAt c s ≤ t then gatesTo f v (fallDue c t s) else gatesTo f v (takeEdges t s)
        | none => gatesTo f v (takeEdges t s)

/-- The gate engine up to now. -/
def gatesNow (s : State) : State := gatesTo 64 (vtTicks s) s

/-- A change's scheduled instant has passed: counted where its edges have been taken (R105). -/
def ranAt (v : Nat) (s : State) : State :=
  settle (updCell (fun c => { c with changes := c.changes.map fun x => { x with ran := x.ran || decide (x.t ≤ v) } }) s)

/-- Put a change in order of its instant. -/
def insChange (c : Change) : List Change → List Change
  | [] => [c]
  | x :: t => if c.t < x.t then c :: x :: t else x :: insChange c t

/-- Schedule a change; a carve's end is void from the execute time of a later command (R63). -/
def addChange (c : Change) (s : State) : State :=
  updCell (fun x =>
    let l := insChange c x.changes
    { x with changes := l.filter fun e => !(e.carveEnd && l.any fun d => !d.carveEnd && e.k < d.k && d.t ≤ e.t) }) s

/-- The ready conditions of R102. -/
def readyOk (s : State) : Bool :=
  rd O.CEL_FAULT_LATCHED s == 0 && rd O.CEL_V_READY s ≤ rd O.CEL_V_KEY s && rd O.CEL_V_KEY s < rd O.CEL_OV1 s
    && rd O.CEL_VAUX_MIN s ≤ rd O.CEL_VAUX s && timeLock s && indexed s && (s.tim.inForce.isSome || s.tim.pend.isSome) && rd O.CEL_AUX s == 1

/-- Enter a state (Table 3.7, R107). -/
def celGo (st : Nat) (s : State) : State :=
  if celState s == st then s
  else
    let s := wr O.CEL_STATE st s
    let s := updCell (fun c => { c with heldTick := if st == 5 then some s.tick else none,
                                        maskOk := if st == 4 then timeLock s else if st == 5 then c.maskOk else false,
                                        wearSeen := if st == 5 then c.wearSeen else false }) s
    let s := if st == 5 then bump O.CEL_HELD_ENTRIES s else s
    if st == 2 || st == 6 then saveRecord s else s

/-- BLOCKED and READY by the ready conditions (Table 3.7). -/
def readyEval (s : State) : State :=
  if !isCell s then s
  else if celState s == 2 && readyOk s then celGo 3 s
  else if celState s == 3 && !readyOk s then celGo 2 s
  else s

/-- Leave ACTIVE, HELD or READY for BLOCKED with the Block of R92. -/
def celBlock (s : State) : State :=
  let st := celState s
  if st == 3 || st == 4 || st == 5 then celGo 2 (blockNow s) else s

/-- A local fault latched with its cause present or gone at once; each bit is a kettle source (R97, R432). -/
def latchFault (n : Nat) (present : Bool) (s : State) : State :=
  let s := wrBit O.CEL_FAULT_LATCHED n true s
  updFaultN (if present then setLive n true 0 (wrBit O.CEL_FAULT_LIVE n true s) else pulse n 0 s)

/-- The cause of a local fault is gone. -/
def endFault (n : Nat) (s : State) : State := if rdBit O.CEL_FAULT_LIVE n s then setLive n false 0 (wrBit O.CEL_FAULT_LIVE n false s) else s

/-- The live condition of a local fault as it stands (Table 3.6): CEL_FAULT_LIVE shows it, latched or not; the kettle source rises at detection alone (log entry 22). -/
def causeIs (n : Nat) (b : Bool) (s : State) : State := if b then wrBit O.CEL_FAULT_LIVE n true s else endFault n s

/-- The bypass pattern of step 1 of R99, none where no pair of switches is free of a latched DSAT fault. -/
def bypPattern (s : State) : Option Terminal :=
  if fullBridge s then
    let lowerOk := !dsatLatched 1 s && !dsatLatched 3 s
    let upperOk := !dsatLatched 0 s && !dsatLatched 2 s
    let up := rd O.CEL_FB_BYPASS s == 1
    if up then (if upperOk then some .bypUpper else if lowerOk then some .bypLower else none)
    else if lowerOk then some .bypLower else if upperOk then some .bypUpper else none
  else if dsatLatched 1 s then none else some .bypLower

/-- Drive the bypass pattern of R99, or all outputs low. -/
def driveBypass (s : State) : State :=
  match bypPattern s with
  | some x => updCell (fun c => { c with semi := true }) (forceTo x s)
  | none => updCell (fun c => { c with semi := false }) (allLow s)

/-- 0.1 ms in counter ticks. -/
def tenth (n : Nat) : Nat := 40000 * n

/-- A coil pulse and its confirmation window begin (R99, R100). -/
def coilPulse (s : State) : State :=
  let s := bump O.CEL_BYP_ATTEMPTS s
  updCell (fun c => { c with coil := true, byp := .pulsing, pulseEnd := some (s.tick + tenth (rd O.CEL_BYP_PULSE s)),
                             windowEnd := some (s.tick + tenth (rd O.CEL_BYP_CONFIRM s)) }) s

/-- The bypass sequence (R99). -/
def bypStart (s : State) : State :=
  if celState s == 6 then s
  else
    let s := updCell (fun c => { c with changes := [], tries := 0 }) s
    coilPulse (driveBypass (celGo 6 s))

/-- CEL_HELD_TIME has run in HELD (R103). -/
def heldOut (s : State) : State := if celState s == 5 then celBlock (latchFault 10 false s) else s

/-- Entry to HELD; a CEL_HELD_TIME of 0 leads on to BLOCKED at once (R103). -/
def celHold (s : State) : State :=
  if celState s == 4 then
    let s := celGo 5 s
    if rd O.CEL_HELD_TIME s == 0 then heldOut s else s
  else s

/-- The strength of a fault's reaction: 3 BYPASS_PERM, 2 BLOCK, 1 HELD, 0 none (Table 3.6, R98). -/
def reactionOf (n : Nat) (s : State) : Nat :=
  if n == 1 then 3
  else if 2 ≤ n && n ≤ 5 then (if rd (O.CEL_DSAT_REACT (n - 2)) s == 1 then 3 else 2)
  else if n == 6 then (if rd O.CEL_VCHK_REACT s == 1 then 3 else 2)
  else if n == 7 || n == 8 || n == 10 || n == 14 || n == 15 then 2
  else if n == 9 || n == 16 then 1
  else 0

/-- The strongest reaction of the faults of a tick acts (R97, R98, Table 3.7); in BOOT only OV2 does. -/
def celReact (l : List Nat) (s : State) : State :=
  let l := if celState s == 1 then l.filter (· == 1) else l
  match maxL (l.map fun n => reactionOf n s) with
  | 3 => bypStart s
  | 2 => celBlock s
  | 1 => celHold s
  | _ => s

/-- Faults of one tick, each with whether its cause stays present. -/
def celFaults (l : List (Nat × Bool)) (s : State) : State :=
  if l.isEmpty then s else celReact (l.map (·.1)) (each l (fun e => latchFault e.1 e.2) s)

/-- CLEAR (R88): each latched bit whose cause is gone. -/
def celClear (s : State) : State :=
  let keep := (List.range 32).foldl (fun a n => if rdBit O.CEL_FAULT_LIVE n s && rdBit O.CEL_FAULT_LATCHED n s then setBit a n else a) 0
  readyEval (updFaultN (wr O.CEL_FAULT_LATCHED keep s))

/-- The debounced contacts of CEL_AUX seen as they are; the live conditions of the bypass faults follow (Table 3.6). -/
def setAux (a : Nat) (s : State) : State :=
  let s := wr O.CEL_AUX (low 2 a) s
  let s := causeIs 11 (s.cell.byp == .failed && low 2 a != 2) s
  let s := causeIs 12 (low 2 a == 0 || low 2 a == 3) s
  causeIs 13 (low 2 a != 1) s

/-- Leaving LOCKED is the detection of TIME_LOST (R187, Table 3.6). -/
def cellTimeLost (s : State) : State :=
  if !isCell s || celState s ≤ 1 then s
  else readyEval (celFaults [(16, true)] (updCell (fun c => { c with maskOk := false }) (gatesNow s)))

/-- Time lock gained. -/
def cellTimeLock (s : State) : State := if isCell s then readyEval (endFault 16 s) else s

/-- A schuss at a cell (R288): Block in ACTIVE and HELD, held commands discarded, DEBLOCK taken as 0 up to four periods on. -/
def cellSchuss (s : State) : State :=
  let s := gatesNow s
  let s := if celLive s then celGo 2 (blockNow s) else s
  let kAcc := kNow s
  updCell (fun c => { c with cmds := [], cands := [], changes := [], noDeblock := some (kAcc + 4) }) s

/-- A voltage code from a divider's raw value (R80). -/
def voltCode (raw : Nat) (offset gain : Nat) : Nat :=
  let g := fexact fmt32 gain
  (clampI (rndAwayE ((toI 16 raw - toI 16 offset) * 16 * g.1) g.2) 0 65535).toNat

/-- A threshold converts to no more than raw 32,767 on a divider (R94). The spec states no rounding of the conversion: the exact quotient is compared (log entry 50). -/
def thrFits (thr offset gain : Nat) : Bool :=
  let g := fexact fmt32 gain
  decide ((thr : Int) ≤ floorE ((32767 - toI 16 offset) * 16 * g.1) g.2)

/-- The raw value of a threshold on a divider, to the nearest code (R94, log entry 50). -/
def thrRaw (thr offset gain : Nat) : Int :=
  let g := fexact fmt32 gain
  let m := 16 * g.1.toNat
  clampI ((if g.2 < 0 then rndAway ((thr * 2 ^ (-g.2).toNat : Nat) : Int) m else rndAway (thr : Int) (m * 2 ^ g.2.toNat)) + toI 16 offset) (-32767) 32767

/-- Thresholds and calibration of the cell's dividers, which the cell engine loads without firmware (R94). -/
def thresholdKeys : List Nat :=
  [O.CEL_OV1, O.CEL_OV2, O.CEL_OV_HYST, O.CEL_OV2_FILTER, O.CEL_VKEY_GAIN, O.CEL_VKEY_OFFSET, O.CEL_VCHK_GAIN, O.CEL_VCHK_OFFSET]

/-- The upper thresholds of AIN0 and AIN1 as the cell engine loads them, those of the first level (R239, log entry 71). -/
def loadComparators (s : State) : State :=
  if isCell s then
    wr (O.ADC_IN_CMP_HI 0) (ofI 16 (thrRaw (rd O.CEL_OV1 s) (rd O.CEL_VKEY_OFFSET s) (rd O.CEL_VKEY_GAIN s)))
      (wr (O.ADC_IN_CMP_HI 1) (ofI 16 (thrRaw (rd O.CEL_OV1 s) (rd O.CEL_VCHK_OFFSET s) (rd O.CEL_VCHK_GAIN s))) s)
  else s

/-- Both thresholds fit both dividers. -/
def thrOk (ov1 ov2 kg ko cg co : Nat) : Bool := thrFits ov1 ko kg && thrFits ov2 ko kg && thrFits ov1 co cg && thrFits ov2 co cg

/-- make_key of R47; dir 0 HOLD, 1 CHARGE, 2 DISCHARGE. -/
def makeKey (dir v : Nat) (ins : Bool) (w : Int) (stick idx mask : Nat) : Nat :=
  let si : Int := ((stick * b2n ins : Nat) : Int)
  let a : Int := match dir with
    | 1 => (v : Int) - si + w
    | 2 => 65535 - ((v : Int) + si - w)
    | _ => 32768 - si + w
  (clampI a 0 65535).toNat * 1024 + Nat.xor idx mask % 1024

/-- The period whose low 32 bits are p, nearest to the latest P-mark. -/
def fullK (p : Nat) (s : State) : Nat :=
  let n := kNow s
  let d := (low 32 p + 2 ^ 32 - low 32 n) % 2 ^ 32
  if d < 2 ^ 31 then n + d else if n ≥ 2 ^ 32 - d then n + d - 2 ^ 32 else n + d

/-- The copy of the slalom state for period k (R61). -/
def cellSlalom (k : Nat) (s : State) : Nat := (aget s.cell.slalom k).getD 0

/-- The terminal state a decision takes at EXEC. -/
def Decision.target (s : State) : Decision → Terminal
  | .bypass => bypTerm s
  | .insert n => if n then .insNeg else .insPos
  | .carve n _ => if n then .insNeg else .insPos

/-- The decision inserts. -/
def Decision.inserts : Decision → Bool
  | .bypass => false
  | _ => true

/-- INS_PREV of an executed decision; a carve counts as not inserted (R48). -/
def Decision.insPrev : Decision → Nat
  | .insert n => if n then 2 else 1
  | _ => 0

/-- The decision is a carve. -/
def Decision.isCarve : Decision → Bool
  | .carve _ _ => true
  | _ => false

/-- The listing of R60. -/
def decide60 (k : Nat) (c : Command) (s : State) : Decision :=
  let idx := rd O.TREE_CELL_INDEX s
  match aget s.cell.reps k with
  | none => .bypass
  | some r =>
    if !r.avail || !r.maskOk || bit c.exclude (idx % 16) || (c.pol && !r.fb) then .bypass
    else
      let ins : Bool := r.insPrev == (if c.pol then 2 else 1)
      let key := makeKey c.dir r.vKey ins r.w c.stick idx (maskOf (cellSlalom k s))
      if c.kTh != 0xFFFFFFFF && key ≤ c.kTh then .insert c.pol
      else if c.carveEn && key == c.kCarve then .carve c.pol c.tCarve
      else .bypass

/-- Accept a command of period k (R60, R85, R206). -/
def acceptCmd (k : Nat) (b : Bool) (c : Command) (s : State) : State :=
  let c : Command := { c with deblock := c.deblock && !(match s.cell.noDeblock with | some n => decide (k ≤ n) | none => false) }
  let d := decide60 k c s
  let e := eOf k s
  let changed : Bool := match s.cell.lastStream with | some x => x != b | none => false
  let s := if changed then bump O.RED_STREAM_CHANGES s else s
  let s := wr O.RED_OBEYED (b2n b) s
  let act : Bool := celState s == 4
  let s := updCell (fun x => { x with cmds := x.cmds ++ [{ k := k, cmd := c, dec := d, streamB := b }], lastStream := some b, claimSeen := c.claim,
                                      slalom := aset x.slalom (k + 1) c.slalomNext, wearRef := c.wearRef, wearGain := c.wearGain,
                                      maskOk := x.maskOk || (act && timeLock s), wearSeen := x.wearSeen || act }) s
  if !c.deblock then addChange { k := k, t := e, target := .block, carveEnd := false, due := false, ran := false } s
  else
    let s := addChange { k := k, t := e, target := d.target s, carveEnd := false, due := false, ran := false } s
    match d with
    | .carve _ t => addChange { k := k, t := e + t, target := bypTerm s, carveEnd := true, due := false, ran := false } s
    | _ => s

/-- The stream the cell prefers by its SIDE strap (R204). -/
def rankOf (claim : Nat) (b : Bool) (s : State) : Nat := 2 * claim + b2n (b == sideB s)

/-- The claims in force for period k (R205). -/
def floorOf (k : Nat) (s : State) : Nat :=
  let f (x : Option Seen) (b : Bool) : Nat := match x with | some e => if k ≤ e.period + 2 then rankOf e.claim b s else 0 | none => 0
  max (f s.cell.seenA false) (f s.cell.seenB true)

/-- RED_CELL_CLAIM_A and RED_CELL_CLAIM_B at the latest P-mark (Table 7.16). -/
def updCellClaims (s : State) : State :=
  let f (x : Option Seen) : Nat := match x with | some e => if kNow s ≤ e.period + 2 then e.claim else 0 | none => 0
  wr O.RED_CELL_CLAIM_A (f s.cell.seenA) (wr O.RED_CELL_CLAIM_B (f s.cell.seenB) s)

/-- The conditions of R85 apart from the stream, lateness and an earlier acceptance. -/
def cmdMatches (k : Nat) (c : Command) (s : State) : Bool :=
  let idx := rd O.TREE_CELL_INDEX s
  c.valid && indexed s && c.originNode == nodeNum s && c.originLink == idx / 16 && (paramsFor k s).isSome && c.exec == nsOfTicks (eOf k s)

/-- The listing of R205 on a command frame of a stream. -/
def commandRx (crcOk b : Bool) (c : Command) (s : State) : State :=
  if !isCell s then s
  else
    let s := gatesNow s
    let k := fullK c.period s
    if !crcOk || !cmdMatches k c s then bump O.CEL_CMD_REJECT s
    else
      let seen (x : Option Seen) : Option Seen := match x with | some e => if e.period ≤ k then some ⟨c.claim, k⟩ else some e | none => some ⟨c.claim, k⟩
      let s := updCellClaims (updCell (fun x => if b then { x with seenB := seen x.seenB } else { x with seenA := seen x.seenA }) s)
      if vtTicks s ≥ eOf k s - gOf k s then s
      else
        let had := s.cell.cmds.any fun a => a.k == k
        let s := updCell (fun x => { x with cands := { k := k, streamB := b, cmd := c } :: x.cands.filter fun a => !(a.k == k && a.streamB == b) }) s
        if had then s
        else
          let best (x y : Cand) : Cand := if rankOf x.cmd.claim x.streamB s < rankOf y.cmd.claim y.streamB s then y else x
          match s.cell.cands.filter fun a => a.k == k with
          | [] => s
          | a :: l =>
            let t := l.foldl best a
            if t.cmd.claim / 4096 != 0 && floorOf k s ≤ rankOf t.cmd.claim t.streamB s then acceptCmd k t.streamB t.cmd s else s

/-- E(k) - G at a cell (R34, R103, R206). -/
def acceptanceInstant (k : Nat) (s : State) : State :=
  if !isCell s then s
  else
    let s := gatesNow (advVt (eOf k s - gOf k s) s)
    let got := s.cell.cmds.any fun a => a.k == k
    let cand := s.cell.cands.any fun a => a.k == k
    let s := updCell (fun x => { x with cands := x.cands.filter fun a => k < a.k }) s
    if got || !celLive s then onlyIf got (wr O.CEL_LATE_CONSEC 0) (updCell (fun x => { x with lateLast := false }) s)
    else
      let s := if cand then bump O.RED_OUTRANKED s else s
      let n := rd O.CEL_LATE_CONSEC s
      let s := wr O.CEL_LATE_CONSEC (min 3 (n + 1)) (bump O.CEL_LATE_PERIODS s)
      let s := updCell (fun x => { x with lateLast := true, lateCount := satU 16 (x.lateCount + 1) }) s
      if n == 2 then readyEval (celFaults [(9, false)] s) else s

/-- The order a command carries for this cell: its code, 0 for none or a repeat (R88). -/
def orderOf (c : Command) (s : State) : Nat × State :=
  let o := c.orders.getD (rd O.TREE_CELL_INDEX s % 16) 0
  if o / 16 == 0 || s.cell.lastOrder == some (o % 16, c.claim) then (0, s)
  else (o / 16, updCell (fun x => { x with lastOrder := some (o % 16, c.claim) }) s)

/-- E(k) of the earliest command held: its transition, its decision and its order (R60, R62, R63, R88, Table 3.7). -/
def commandExecute (s : State) : State :=
  match s.cell.cmds with
  | [] => s
  | a0 :: l =>
    let a := l.foldl (fun x y => if y.k < x.k then y else x) a0
    let e := eOf a.k s
    let s := advVt e s
    let s := ranAt e (gatesTo 64 e s)
    let s := updCell (fun x => { x with cmds := x.cmds.filter (· != a) }) s
    let st := celState s
    let r := orderOf a.cmd s
    let s := if r.1 == 1 then celClear r.2 else r.2
    let s :=
      if a.cmd.deblock then
        let s := if st == 3 || st == 5 then celGo 4 s else s
        if celState s == 4 then
          let s := updCell (fun x => { x with insPrev := a.dec.insPrev, carvePrev := a.dec.isCarve }) s
          if s.cell.ov1 && s.cell.planned != bypTerm s then countSw (bypTerm s) (forceTo (bypTerm s) s) else s
        else if a.dec.inserts then updCell (fun x => { x with shortfall := true }) s
        else s
      else if st == 4 || st == 5 then readyEval (celGo 3 s)
      else s
    match r.1 with
    | 2 => readyEval (celFaults [(15, false)] s)
    | 3 => if celState s == 1 then s else bypStart s
    | _ => s

/-- E(k) + T_CARVE: the scheduled bypass of a carve (R63). -/
def carveEnd (s : State) : State :=
  match s.cell.changes.find? (fun c => c.carveEnd) with
  | none => s
  | some c =>
    let s := advVt c.t s
    ranAt c.t (gatesTo 64 c.t s)

/-- The next gate edge or due change. -/
def gateEdge (s : State) : State :=
  match nextGate s with
  | none => s
  | some t =>
    let s := advVt t s
    gatesTo 64 t s

/-- A divider rises above CEL_OV1 (R94, R105). -/
def ov1Crossing (s : State) : State :=
  if !isCell s || celState s == 0 || s.cell.ov1 then s
  else
    let s := gatesNow s
    let s := updCell (fun c => { c with ov1 := true, ov1Count := low 8 (c.ov1Count + 1) }) (bump O.CEL_OV1_EVENTS s)
    let s := latchFault 0 true s
    if celLive s then
      let ins := s.cell.planned.inserts
      let s := updCell (fun c => { c with suppressed := c.suppressed || ins }) s
      countSw (bypTerm s) (forceTo (bypTerm s) s)
    else readyEval s

/-- Both dividers are below CEL_OV1 - CEL_OV_HYST again, and so below CEL_OV2 (R94, Table 3.6). -/
def ov1Release (s : State) : State :=
  if !isCell s then s else endFault 1 (endFault 0 (updCell (fun c => { c with ov1 := false }) (gatesNow s)))

/-- A divider has stayed above CEL_OV2: in every state except OFF (R95). -/
def ov2Fault (s : State) : State := if !isCell s || celState s == 0 then s else celFaults [(1, true)] (gatesNow s)

/-- Output o was high as this tick began, where it switched low in the tick itself: a desaturation resolves before a scheduled edge, and two desaturations of one tick are both taken (R96, R98). -/
def highInTick (o : Nat) (s : State) : Bool :=
  outHigh o s || (s.cell.offAt.getD o 0 == vtTicks s && s.cell.onAt.getD o 0 < s.cell.offAt.getD o 0)

/-- The flag of output o has been low for CEL_DSAT_FILTER outside blanking (R96). -/
def dsatFault (o : Nat) (s : State) : State :=
  if !isCell s || celState s == 0 then s
  else
    let s := gatesTo 64 (vtTicks s - 1) s
    if !highInTick o s || vtTicks s < s.cell.onAt.getD o 0 + rd O.CEL_DSAT_BLANK s + rd O.CEL_DSAT_FILTER s then s
    else
      let s := updCell (fun c => { c with dsatCount := low 8 (c.dsatCount + 1), changes := [] }) (bump O.CEL_DSAT_EVENTS s)
      let s := allLow (latchFault (2 + o) true s)
      if celState s == 6 then (if s.cell.semi then driveBypass s else s)
      else readyEval (celReact [2 + o] s)

/-- The coil pulse ends; a further one waiting for it starts (R99, R100). -/
def bypPulseEnd (s : State) : State :=
  match s.cell.pulseEnd with
  | none => s
  | some t =>
    let s := updCell (fun c => { c with coil := false, pulseEnd := none }) (gatesNow (advTo t s))
    if s.cell.byp == .pulsing && s.cell.windowEnd.isNone then coilPulse s else s

/-- The contacts confirm within a window (R99). -/
def bypConfirm (s : State) : State :=
  if s.cell.byp == .pulsing && s.cell.windowEnd.isSome then
    updCell (fun c => { c with byp := .confirmed, windowEnd := none, holdEnd := some (s.tick + ms 10) }) (setAux 2 (gatesNow s))
  else s

/-- A confirmation window ends with the contacts at aux (R100). -/
def bypWindowEnd (aux : Nat) (s : State) : State :=
  match s.cell.windowEnd with
  | none => s
  | some t =>
    let s := setAux aux (gatesNow (advTo t s))
    let a := low 2 aux
    if a == 2 then updCell (fun c => { c with byp := .confirmed, windowEnd := none, holdEnd := some (t + ms 10) }) s
    else
      let s := updCell (fun c => { c with windowEnd := none }) s
      let s := if a == 0 || a == 3 then latchFault 12 true s else s
      if s.cell.tries < rd O.CEL_BYP_RETRY s then
        let s := updCell (fun c => { c with tries := c.tries + 1 }) s
        if s.cell.coil then s else coilPulse s
      else
        let s := updCell (fun c => { c with byp := .failed }) s
        if a == 1 then latchFault 11 true s else s

/-- The 10 ms hold after confirmation ends (R99). -/
def bypHoldEnd (s : State) : State :=
  match s.cell.holdEnd with
  | none => s
  | some t =>
    let s := allLow (gatesNow (advTo t s))
    updCell (fun c => { c with byp := .complete, semi := false, holdEnd := none }) s

/-- The contacts show the switch closed outside the sequence; R101 gives the pattern driven no end, so it is held until the cell leaves BYPASSED (log entry 50). -/
def bypUncmd (aux : Nat) (s : State) : State :=
  let st := celState s
  if !isCell s || low 2 aux == 1 then s
  else if st == 6 then setAux aux s
  else if st ≤ 1 then updCell (fun c => { c with byp := .closedAtStart }) (celGo 6 (setAux aux s))
  else
    let s := latchFault 13 true (setAux aux (gatesNow s))
    driveBypass (celGo 6 (updCell (fun c => { c with changes := [] }) s))

/-- One sample of the thermal-cycle tracker (R106). -/
def tcSample (t : Int) (s : State) : State :=
  let c := s.cell
  let d : Int := (rd O.CEL_TC_DELTA s : Nat)
  if !c.tcStarted then updCell (fun c => { c with tcStarted := true, rising := false, ext := t }) s
  else if !c.rising then
    let m := min c.ext t
    if t ≥ m + d then updCell (fun c => { c with rising := true, ext := t }) s else updCell (fun c => { c with ext := m }) s
  else
    let m := max c.ext t
    if t ≤ m - d then updCell (fun c => { c with rising := false, ext := t }) (bump O.CEL_TC_COUNT s) else updCell (fun c => { c with ext := m }) s

/-- The samples of R82, with the contacts as debounced. -/
def housekeeping (tDie tBoard vAux aux : Nat) (s : State) : State :=
  if !isCell s then s
  else
    let s := gatesNow s
    let warn : Bool := vAux < rd O.CEL_VAUX_WARN s && !decide (rd O.CEL_VAUX s < rd O.CEL_VAUX_WARN s)
    let s := wr O.CEL_T_DIE (low 16 tDie) (wr O.CEL_T_BOARD (low 16 tBoard) (wr O.CEL_VAUX (low 16 vAux) s))
    let s := if low 2 aux == 1 || celState s == 6 then setAux aux s else bypUncmd aux s
    let s := tcSample (toI 16 (if rd O.CEL_TC_SOURCE s == 1 then tBoard else tDie)) s
    let s := if warn then saveRecord s else s
    let tm := rdI 16 O.CEL_T_MAX s
    let hot := max (toI 16 tDie) (toI 16 tBoard)
    let lowV : Bool := low 16 vAux < rd O.CEL_VAUX_MIN s
    let s := causeIs 14 (decide (hot > tm - 80)) (causeIs 8 lowV s)
    let f1 := if lowV && !rdBit O.CEL_FAULT_LATCHED 8 s then [(8, true)] else []
    let f2 := if hot > tm && !rdBit O.CEL_FAULT_LATCHED 14 s then [(14, true)] else []
    readyEval (celFaults (f1 ++ f2) s)

/-- The CELL_STATUS block (Table 3.2). -/
def cellStatus (s : State) : CellStatus :=
  { tDie := rd O.CEL_T_DIE s, tBoard := rd O.CEL_T_BOARD s, vAux := rd O.CEL_VAUX s, lateCount := s.cell.lateCount,
    faults := rd O.CEL_FAULT_LATCHED s, tc := rd O.CEL_TC_COUNT s, ov1 := s.cell.ov1Count, dsat := s.cell.dsatCount, coil := s.cell.coil,
    aux1 := rdBit O.CEL_AUX 1 s, aux2 := rdBit O.CEL_AUX 0 s, u0 := inL5 laneU0 s, u1 := inL5 laneU1 s, onB := s.cell.lastStream == some true }

/-- The wear term (R49). -/
def wearTerm (s : State) : Int :=
  if celState s == 4 && s.cell.wearSeen then
    clampI ((((rd O.CEL_SW_COUNT s / 4096 % 2 ^ 32 : Nat) : Int) - (s.cell.wearRef : Int)) * (s.cell.wearGain : Int) / 16) (-128) 127
  else 0

/-- The cell reports (R83). -/
def reports (s : State) : Bool := 2 ≤ celState s && timeLock s && indexed s

/-- A P-mark at a cell: the slalom copy, and the report of k latched as the cell stands at P(k), its two voltage codes to come (R49, R61, R83). -/
def cellPMark (k : Nat) (s : State) : State :=
  if !isCell s || celState s ≤ 1 then s
  else
    let s := gatesNow s
    let prev := aget s.cell.slalom k
    let step := match prev with | some x => some x | none => (aget s.cell.slalom (k - 1)).map lfsr
    let s := updCell (fun c => { c with slalom := (match step with | some x => aset c.slalom k x | none => c.slalom).filter fun e => k ≤ e.1 + 5 }) s
    let s := updCellClaims s
    if !reports s then s
    else
      let r : Report :=
        { period := low 32 k, vKey := rd O.CEL_V_KEY s, vChk := rd O.CEL_V_CHK s, avail := celState s == 4 && !override s,
          maskOk := s.cell.maskOk && timeLock s, fb := fullBridge s, insPrev := s.cell.insPrev,
          carvePrev := s.cell.carvePrev, shortfall := s.cell.shortfall || s.cell.suppressed, latePrev := s.cell.lateLast, w := wearTerm s,
          cellState := celState s, swHi := rd O.CEL_SW_COUNT s / 4096 % 2 ^ 32, cellIndex := rd O.TREE_CELL_INDEX s,
          claimSeen := s.cell.claimSeen, status := cellStatus s }
      updCell (fun c => { c with reps := (aset c.reps k r).take 8, shortfall := false, suppressed := false }) s

/-- Both dividers of P(k) converted: the voltage codes, which the report of k takes, and the faults they show (R80, R81, R97). -/
def cellSampled (k raw0 raw1 : Nat) (s : State) : State :=
  if !isCell s || celState s ≤ 1 then s
  else
    let s := gatesNow s
    let vk := voltCode raw0 (rd O.CEL_VKEY_OFFSET s) (rd O.CEL_VKEY_GAIN s)
    let vc := voltCode raw1 (rd O.CEL_VCHK_OFFSET s) (rd O.CEL_VCHK_GAIN s)
    let s := wr O.CEL_V_KEY vk (wr O.CEL_V_CHK vc s)
    let s := updCell (fun c => { c with reps := c.reps.map fun r => if r.1 == k then (k, { r.2 with vKey := vk, vChk := vc }) else r }) s
    let disc : Bool := (max vk vc) - (min vk vc) > rd O.CEL_VCHK_TOL s
    let s := causeIs 6 disc (updCell (fun c => { c with vchkRun := if disc then c.vchkRun + 1 else 0 }) s)
    let uv : Bool := vk < rd O.CEL_V_MIN s
    let s := causeIs 7 uv s
    let f1 := if disc && rd O.CEL_VCHK_COUNT s ≤ s.cell.vchkRun && !rdBit O.CEL_FAULT_LATCHED 6 s then [(6, true)] else []
    let f2 := if uv && celLive s then [(7, true)] else []
    readyEval (celFaults (f1 ++ f2) s)

/-- The report of the latest P-mark on U0 and U1 at P(k) + 250 ns (R32, R51, R83). -/
def cellReportLaunch (s : State) : State :=
  let k := kNow s
  match aget s.cell.reps k with
  | none => s
  | some r =>
    if !isCell s then s
    else
      let s := advVt (pOf k s + 100) s
      let h := mkHdr 3 0 false (nodeAddr (nodeNum s)) false true false s
      let f (b : Bool) : Frame := { hdr := { h.1 with dstSide := b }, len := (Pay.report r).len, pay := .report r }
      sendOn laneU1 (f true) (sendOn laneU0 (f false) h.2)

end Sys2Proof.Machine
end

