-- ==== Sys2Proof/Machine/OpsSys.lean ====
section
/-! DEFINITION. Spares, the map and the ledger: how an instance is mapped out and what the health objects show (R392, R395 to R399). -/
namespace Sys2Proof.Machine

/-- The unit's own state changed. -/
def updSys (f : SysSt → SysSt) (s : State) : State := { s with sys := f s.sys }

/-- Most entries the ledger holds (R399). -/
def ledgerMax : Nat := 7936

/-- An entry written to the ledger, or counted where it is full (R399). -/
def ledger (cls kind phase cause phys logical detail : Nat) (s : State) : State :=
  if s.sys.ledger.length ≥ ledgerMax then bump O.SYS_LEDGER_LOST s
  else
    let e : LedgerEntry := { eseq := s.sys.ledger.length + 1, cycle := s.sys.cycles, counter := s.tick, cls := cls, kind := kind, phase := phase,
                             cause := cause, phys := phys, logical := logical, detail := detail }
    let s := updSys (fun x => { x with ledger := x.ledger ++ [e] }) s
    wr O.SYS_LEDGER_ENTRIES s.sys.ledger.length s

/-- The map in force as a block of generation g. -/
def mapNow (g : Nat) (s : State) : MapBlock :=
  { gen := g, maps := s.sys.maps, dead := s.sys.dead, rows := s.sys.rowsUsed, cols := s.sys.colsUsed, cores := rd O.TSK_CORE_MAP s,
    spareCore := rd O.TSK_SPARE s, slices := rd O.ADC_SLICE_MAP s, sliceOut := rd O.ADC_SLICE_OUT s }

/-- The map has changed: the other block is written with the next generation (R399). -/
def mapChanged (s : State) : State :=
  let g := low 32 (s.sys.gen + 1)
  updSys (fun x => { x with gen := g, blocks := x.blocks.set (g % 2) (some (mapNow g s)) }) s

/-- SYS_HEALTH_STATE and source 219 by the two bit fields (R392). -/
def updHealth (s : State) : State :=
  let e := rd O.SYS_EXHAUSTED s
  let i := rd O.SYS_IMPAIRED s
  let c := ((List.range 8).find? fun c => bit (e ||| i) c).getD 0
  setLive 219 (e != 0 || i != 0) c (wr O.SYS_HEALTH_STATE (if i != 0 then 2 else if e != 0 then 1 else 0) s)

/-- A spare of class c is used up or mapped out. -/
def spareGone (c phase cause phys : Nat) (s : State) : State :=
  let n := rd (O.SYS_SPARES c) s
  let s := wr (O.SYS_SPARES c) (n - 1) s
  if n == 1 then updHealth (ledger c 3 phase cause phys 0 0 (wrBit O.SYS_EXHAUSTED c true s)) else s

/-- Class c has fewer working instances than Table 15.3 lists. -/
def impaired (c phase cause phys logical : Nat) (s : State) : State :=
  if rdBit O.SYS_IMPAIRED c s then s else updHealth (ledger c 4 phase cause phys logical 0 (wrBit O.SYS_IMPAIRED c true s))

/-- Spares left in class c. -/
def spares (c : Nat) (s : State) : Nat := let n := rd (O.SYS_SPARES c) s; if n == 0xFF then 0 else n

/-- Instance phys of class c at logical lg has failed; repl is the spare that takes its place, if any (R392, R399). -/
def mapOut (c lg phys : Nat) (repl : Option Nat) (phase cause detail : Nat) (s : State) : State :=
  let s := updSys (fun x => { x with dead := addTo x.dead (c, phys) }) s
  let s := ledger c 1 phase cause phys lg detail s
  let s := match repl with
    | some r => spareGone c phase cause r (ledger c 2 phase cause r lg detail (bump (O.SYS_SWAPS c) s))
    | none => impaired c phase cause phys lg s
  mapChanged s

/-- A spare of class c has failed: it is mapped out and counted off (R393). -/
def mapOutSpare (c phys phase cause detail : Nat) (s : State) : State :=
  let s := updSys (fun x => { x with dead := addTo x.dead (c, phys) }) s
  mapChanged (spareGone c phase cause phys (ledger c 1 phase cause phys 0xFFFF detail s))

/-- The map of class c. -/
def classMap (c : Nat) (s : State) : ClassMap := (s.sys.maps.find? fun m => m.cls == c).getD ⟨c, [], []⟩

/-- The map of class c replaced. -/
def setClassMap (m : ClassMap) (s : State) : State := updSys (fun x => { x with maps := x.maps.map fun y => if y.cls == m.cls then m else y }) s

/-- The working instance behind a logical one. -/
def physOf (c lg : Nat) (s : State) : Option Nat := (classMap c s).map.getD lg none

/-- Logical instances of class c that work. -/
def working (c : Nat) (s : State) : List Nat := (List.range (classMap c s).map.length).filter fun i => (physOf c i s).isSome

/-- The instance behind a logical one fails in a class whose map the ledger alone shows: its first spare takes over. -/
def failLogical (c lg phase cause detail : Nat) (s : State) : State :=
  let m := classMap c s
  match m.map.getD lg none with
  | none => s
  | some p =>
    let r := m.spares.head?
    let s := setClassMap { m with map := m.map.set lg r, spares := m.spares.drop 1 } s
    mapOut c lg p r phase cause detail s

/-- A spare of such a class fails. -/
def failSpare (c phys phase cause detail : Nat) (s : State) : State :=
  let m := classMap c s
  if m.spares.contains phys then mapOutSpare c phys phase cause detail (setClassMap { m with spares := m.spares.filter (· != phys) } s) else s

end Sys2Proof.Machine
end

