-- ==== Sys2Proof/Machine/OpsAdc.lean ====
section
/-! DEFINITION. The analogue subsystem's shared operations: slices, arbitration, runs, results, settling, swaps and repair (R223 to R244). -/
namespace Sys2Proof.Machine

/-- The subsystem's own state changed. -/
def updAdc (f : AdcSt → AdcSt) (s : State) : State := { s with adc := f s.adc }

/-- Sequencer q. -/
def seqSt (q : Nat) (s : State) : AdcSeq := s.adc.seqs.getD q AdcSeq.init

/-- Sequencer q changed. -/
def updSeq (q : Nat) (f : AdcSeq → AdcSeq) (s : State) : State := updAdc (fun a => { a with seqs := a.seqs.modify q f }) s

/-- The subsystem is READY. -/
def adcReady (s : State) : Bool := rd O.ADC_STATE s == 2

/-- The physical slice of logical slice l (R223). -/
def slicePhys (l : Nat) (s : State) : Option Nat := let p := fld (rd O.ADC_SLICE_MAP s) (4 * l + 2) (4 * l); if p == 7 then none else some p

/-- The spare (R223). -/
def spareSlice (s : State) : Option Nat := slicePhys 4 s

/-- ADC_SLICE_MAP with the field of l set; 4 is the spare. -/
def setSlice (l : Nat) (p : Option Nat) (s : State) : State :=
  let m := rd O.ADC_SLICE_MAP s
  wr O.ADC_SLICE_MAP (m - fld m (4 * l + 2) (4 * l) * 2 ^ (4 * l) + p.getD 7 * 2 ^ (4 * l)) s

/-- The pair that input n feeds, if any. -/
def pairOf (n : Nat) (s : State) : Option Nat := (List.range 2).find? fun p => (s.adc.pairs.getD p AdcPair.init).on == some n

/-- The pair of logical slice l is on. -/
def pairSlice (l : Nat) (s : State) : Bool := (s.adc.pairs.getD (l / 2) AdcPair.init).on.isSome

/-- Logical slices that R231 and the rounds may use. -/
def usableSlices (s : State) : List Nat := (List.range 4).filter fun l => (slicePhys l s).isSome && !pairSlice l s

/-- Entry e of sequencer q. -/
def seqEntry (q e : Nat) (s : State) : Nat := rd (O.ADC_SEQ_ENTRY q e) s

/-- INPUT of an entry. -/
def entInput (x : Nat) : Nat := fld x 4 0

/-- Conversions of an entry. -/
def entN (x : Nat) : Nat := 2 ^ fld x 14 12

/-- The entry is sampled at the P-mark. -/
def entHeld (x : Nat) : Bool := bit x 15

/-- Slices that sequencer q may use. -/
def seqSlices (q : Nat) (s : State) : List Nat := (usableSlices s).filter fun l => rdBit (O.ADC_SEQ_SLICES q) l s

/-- Trigger kind of sequencer q. -/
def seqTrig (q : Nat) (s : State) : Nat := rd (O.ADC_SEQ_TRIG q) s

/-- Now in half ticks of valve time. -/
def halfNow (s : State) : Nat := 2 * vtTicks s

/-- The first ADC clock edge at or after t; P(k) is an edge, since the held rounds start there (R224, R232, log entry 71). -/
def adcEdge (t : Nat) (s : State) : Nat := let b := 2 * pOf (kNow s) s; b + 5 * ceilDiv (t - b) 5

/-- The place of a held entry: the first round from r on in which a slice of its mask is free, another than that of the sequencer's entry before where the mask holds two (R232). -/
def holdPlace (used : List (Nat × Nat)) (slices : List Nat) (r : Nat) (before : Option Nat) : Option (Nat × Nat) :=
  (List.range 130).findSome? fun d =>
    (slices.find? fun l => !used.contains (r + d, l) && (slices.length < 2 || before != some l)).map fun l => (r + d, l)

/-- The held entries of sequencer q placed in rounds after those before it: round, slice, sequencer, entry (R232). -/
def holdSeq (q : Nat) (s : State) (acc : List (Nat × Nat × Nat × Nat)) : List (Nat × Nat × Nat × Nat) :=
  if seqTrig q s != 1 then acc
  else
    let es := (List.range (rd (O.ADC_SEQ_LEN q) s)).filter fun e => entHeld (seqEntry q e s) && (pairOf (entInput (seqEntry q e s)) s).isNone
    (es.foldl (fun (a : List (Nat × Nat × Nat × Nat) × (Nat × Option Nat)) e =>
      match holdPlace (a.1.map fun x => (x.1, x.2.1)) (seqSlices q s) a.2.1 a.2.2 with
      | some (r, l) => (a.1 ++ [(r, l, q, e)], (r, some l))
      | none => a) (acc, (0, none))).1

/-- Every held entry of the P_MARK sequencers with its round and slice (R232). -/
def holdLayout (s : State) : List (Nat × Nat × Nat × Nat) := (List.range 4).foldl (fun a q => holdSeq q s a) []

/-- Slice l may start n conversions at t beside the held rounds, the last before P(k) - 100 ns of the next (R232). -/
def mayStart (l t n : Nat) (s : State) : Bool :=
  let held : Bool := (holdLayout s).any fun x => x.2.1 == l
  (aget s.adc.release l).getD 0 ≤ t && (!held || !hasGrid s || t + 80 * n < 2 * pOf (kNow s + 1) s)

/-- When logical slice l has ended its latest conversion. -/
def sliceFree (l : Nat) (s : State) : Nat := maxL ((s.adc.convs.filter fun c => c.slice == l).map fun c => c.start + 80 * c.n)

/-- The spare may convert in parallel: it neither calibrates nor does so already (R242). -/
def shadowSlice (s : State) : Option Nat :=
  if s.adc.spareCal.isSome || s.adc.convs.any fun c => c.shadow.isSome then none else spareSlice s

/-- A swap of logical slice l fell due at or before t. -/
def swapIsDue (l t : Nat) (s : State) : Bool := s.adc.due.any fun d => d.1 == l && d.2 ≤ t

/-- The gain code in effect at an input; internal inputs have fixed scaling. -/
def gainOf (n : Nat) (s : State) : Nat := if n < 16 then s.adc.gainEff.getD n 1 else 0

/-- OPEN of an input. -/
def isOpen (n : Nat) (s : State) : Bool := n < 16 && rdBit (O.ADC_IN_STATUS n) 0 s

/-- A conversion starts; a due swap makes the spare convert the same sample (R224, R242). -/
def beginConv (l input : Nat) (use : AdcUse) (start n sample : Nat) (held : Bool) (s : State) : State :=
  match slicePhys l s with
  | none => s
  | some p =>
    let sh := if swapIsDue l start s then shadowSlice s else none
    let c : AdcConv := { slice := l, phys := p, input := input, use := use, start := start, n := n, sample := sample, held := held, shadow := sh,
                         gains := [(0, gainOf input s)], opn := isOpen input s }
    updAdc (fun a => { a with convs := a.convs ++ [c], counts := a.counts.modify l (· + n),
                              due := if sh.isSome then a.due.filter (·.1 != l) else a.due }) s

/-- Entry e of the run of sequencer q has started at t; stamp for entry 0. -/
def entStarted (q e t sample : Nat) (s : State) : State :=
  updSeq q (fun x => { x with run := x.run.map fun r =>
    { r with todo := r.todo.filter (· != e), out := addTo r.out e, ready := max r.ready t, stamp := if e == 0 then some sample else r.stamp } }) s

/-- The entry that the sequencer would start next outside the rounds. -/
def nextEntry (q : Nat) (s : State) : Option (Nat × AdcRun) :=
  match (seqSt q s).run with
  | some r => match r.todo.head? with
    | some e => if entHeld (seqEntry q e s) then none else some (e, r)
    | none => none
  | none => none

/-- Entries that name a paired input take pair samples and occupy no slice (R235). -/
def pairEntries (s : State) : State :=
  each (List.range 4) (fun q s =>
    match nextEntry q s with
    | some (e, r) =>
      match pairOf (entInput (seqEntry q e s)) s with
      | some p => entStarted q e r.ready r.ready (updAdc (fun a => { a with pairWait := a.pairWait ++ [(p, q, e, r.num, r.ready)] }) s)
      | none => s
    | none => s) s

/-- The next start of R231 no later than lim: time, slice, sequencer, entry. -/
def nextStart (lim : Nat) (s : State) : Option (Nat × Nat × Nat × Nat) :=
  (usableSlices s).foldl (fun b l =>
    (List.range 4).foldl (fun b q =>
      match nextEntry q s with
      | some (e, r) =>
        let t := adcEdge (max (sliceFree l s) (max r.ready ((aget s.adc.release l).getD 0))) s
        if rdBit (O.ADC_SEQ_SLICES q) l s && t ≤ lim && mayStart l t (entN (seqEntry q e s)) s && (match b with | some x => t < x.1 | none => true)
        then some (t, l, q, e) else b
      | none => b) b) none

/-- Slices take work up to time lim (R231). -/
def adcCatch : Nat → Nat → State → State
  | 0, _, s => s
  | f + 1, lim, s =>
    let s := pairEntries s
    match nextStart lim s with
    | some (t, l, q, e) =>
      let x := seqEntry q e s
      let num := match (seqSt q s).run with | some r => r.num | none => 0
      adcCatch f lim (entStarted q e t t (beginConv l (entInput x) (.entry q e num) t (entN x) t false s))
    | none => s

/-- Slices take work up to now. -/
def adcNow (s : State) : State := if adcReady s then adcCatch 64 (halfNow s) s else s

/-- ADC_SEQ_STATE of sequencer q. -/
def showSeq (q : Nat) (s : State) : State :=
  let x := seqSt q s
  wr (O.ADC_SEQ_STATE q) (if x.pend then 2 else if x.run.isSome then 1 else 0) s

/-- A run of sequencer q starts (R226, R229). -/
def startRun (q : Nat) (period : Option Nat) (s : State) : State :=
  let n := (seqSt q s).started + 1
  let r : AdcRun := { num := low 8 n, todo := List.range (rd (O.ADC_SEQ_LEN q) s), out := [], stopped := false, stamp := none, period := period,
                      ready := halfNow s }
  showSeq q (updSeq q (fun x => { x with run := some r, started := n }) s)

/-- The run of sequencer q has no entry left. -/
def runOver (q : Nat) (s : State) : Bool := match (seqSt q s).run with | some r => r.todo.isEmpty && r.out.isEmpty | none => false

/-- What the end of a run shows (Table 8.11); a stopped run is not complete (DEDUCED). -/
def closeRun (q : Nat) (s : State) : State :=
  match (seqSt q s).run with
  | none => s
  | some r =>
    let s := if r.stopped then s
      else
        let s := wr (O.ADC_SEQ_RUNS q) (low 32 (rd (O.ADC_SEQ_RUNS q) s + 1)) s
        let s := match r.stamp with | some t => wr (O.ADC_SEQ_STAMP q) (ts96N (t * 81920)) s | none => s
        match r.period with | some k => wr (O.ADC_SEQ_PERIOD q) k s | none => s
    showSeq q (updSeq q (fun x => { x with run := none }) s)

/-- A trigger of kind TIMER, SOFTWARE or CHAIN (R230); f counts the chain. -/
def trigSeq (q : Nat) (s : State) : State :=
  if !adcReady s then s
  else if (seqSt q s).run.isSome then
    if (seqSt q s).pend then bump (O.ADC_SEQ_TRIG_LOST q) s else showSeq q (updSeq q (fun x => { x with pend := true }) s)
  else startRun q none s

/-- A run of sequencer q has ended: the trigger CHAIN of the next (R229). -/
def chainNext (q : Nat) (s : State) : State := if q < 3 && seqTrig (q + 1) s == 5 then trigSeq (q + 1) s else s

/-- The run of sequencer q ends: its record, then the pending, continuous or chained run (R229, R230). -/
def runEnd (q : Nat) (s : State) : State :=
  if !runOver q s then s
  else
    let s := closeRun q s
    let s := if (seqSt q s).pend || seqTrig q s == 4 then startRun q none (updSeq q (fun x => { x with pend := false }) s) else s
    chainNext q s

/-- Every entry of the run not started keeps its CODE with MISSED set (R226, R230). -/
def abandonRun (q : Nat) (s : State) : State :=
  match (seqSt q s).run with
  | none => s
  | some r =>
    let s := each r.todo (fun e s => wr (O.ADC_RESULT q e) (low 24 (rd (O.ADC_RESULT q e) s) ||| 0x00110000 ||| r.num * 2 ^ 24) s) s
    let s := updAdc (fun a => { a with rounds := a.rounds.map fun x => x.filter fun y => y.2.1 != q }) s
    updSeq q (fun x => { x with run := some { r with todo := [] } }) s

/-- OFF, or STOP (R229). -/
def stopSeq (q : Nat) (off : Bool) (s : State) : State :=
  let s := abandonRun q (adcNow s)
  let s := updSeq q (fun x => { x with run := x.run.map fun r => { r with stopped := true }, pend := x.pend && !off }) s
  runEnd q (showSeq q s)

/-- The intervals in which samples of input n settle at time t. -/
def settlingAt (n t : Nat) (s : State) : Bool := s.adc.settle.any fun x => x.1 == n && x.2.1 ≤ t && t < x.2.2

/-- ADC_IN_STATUS [1] of input n now. -/
def showSettle (n : Nat) (s : State) : State := if n < 16 then wrBit (O.ADC_IN_STATUS n) 1 (settlingAt n (halfNow s) s) s else s

/-- A settling interval of input n (R234, R237); those long past are dropped. -/
def openSettle (n from_ to_ : Nat) (s : State) : State :=
  let now := halfNow s
  showSettle n (updAdc (fun a => { a with settle := (n, from_, to_) :: a.settle.filter fun x => now < x.2.2 + 4000 }) s)

/-- x of R227 in 2^-32 of a code at gain g, where the path is calibrated. -/
def calibrated (phys n g : Nat) (c : Int) (s : State) : Option Int :=
  (s.adc.cal.find? fun e => e.phys == phys && e.input == n && e.gain == g).map fun e => (e.g : Int) * (256 * c - e.o)

/-- The mean of calibrated values as CODE, and whether the clamp acted in any conversion (R227). -/
def meanCode (xs : List Int) : Int × Bool :=
  let m := rndAway (xs.foldl (· + ·) 0) (max 1 xs.length * 2 ^ 32)
  (clampI m (-32767) 32767, xs.any fun x => let r := rndAway x (2 ^ 32); r < -32767 || 32767 < r)

/-- CODE of a result on a physical slice from its conversions, each with its gain code, and the clamp: a free code where the path has no calibration (log entry 3). -/
def codeOf (phys n : Nat) (cs : List (Int × Nat)) (s : State) : (Int × Bool) × State :=
  let xs := cs.filterMap fun c => calibrated phys n c.2 c.1 s
  if xs.length == cs.length then (meanCode xs, s)
  else let r := takeFree 16 s; ((clampI (toI 16 r.1) (-32767) 32767, false), r.2)

/-- The gain code at instant t of a conversion. -/
def AdcConv.gainAt (c : AdcConv) (t : Nat) : Nat := ((c.gains.filter fun g => g.1 ≤ t).getLastD (0, 0)).2

/-- Its uncalibrated values with their gain codes. -/
def AdcConv.values (c : AdcConv) (cs : List Int) : List (Int × Nat) :=
  (List.range c.n).map fun i => (cs.getD i 0, c.gainAt (c.sample + 80 * i))

/-- A result word (Table 8.3). -/
def resultWord (run phys : Nat) (clip opn settling : Bool) (code : Int) : Nat :=
  run % 256 * 2 ^ 24 + phys * 2 ^ 21 + b2n clip * 2 ^ 19 + b2n opn * 2 ^ 18 + b2n settling * 2 ^ 17 + b2n (clip || opn || settling) * 2 ^ 16
    + ofI 16 code

/-- A result of input n that is not BAD is its last good one (R237). -/
def keepGood (n w : Nat) (code : Int) (s : State) : State := if bit w 16 then s else updAdc (fun a => { a with good := aset a.good n code }) s

/-- An entry's register takes a result, and what reads it is told (R226, R246). -/
def putResult (q e run phys n sample : Nat) (clip opn settling : Bool) (code : Int) (s : State) : State :=
  let w := resultWord run phys clip opn settling code
  let s := keepGood n w code s
  let s := updSeq q (fun x => { x with run := x.run.map fun r => if r.num == run then { r with out := r.out.filter (· != e) } else r }) s
  acqSource (0x1000 + 256 * q + e) w (sample * 81920) (wr (O.ADC_RESULT q e) w s)

/-- The result of an open-wire test (R237, R238). -/
def owResult (n : Nat) (clip : Bool) (code : Int) (s : State) : State :=
  let diff : Bool := match aget s.adc.good n with | some g => (rd O.ADC_OW_THRESH s : Int) < (code - g).natAbs | none => false
  let o := s.adc.ow.getD n OwSt.init
  let k := if clip || diff then o.opens + 1 else 0
  let opn : Bool := k ≥ 2 || (k == 1 && isOpen n s)
  let s := updAdc (fun a => { a with ow := a.ow.set n { o with opens := k },
                                     convs := a.convs.map fun c => if c.input == n then { c with opn := c.opn || opn } else c }) s
  setLive (164 + n) opn n (wrBit (O.ADC_IN_STATUS n) 0 opn s)

/-- An input is named by an enabled entry or a pair (R241). -/
def inputUsed (n : Nat) (s : State) : Bool :=
  (pairOf n s).isSome || (List.range 4).any fun q =>
    seqTrig q s != 0 && (List.range (rd (O.ADC_SEQ_LEN q) s)).any fun e => entInput (seqEntry q e s) == n

/-- ADC_CAL_STATE (R241, R243). -/
def updCalState (s : State) : State :=
  let protect : Bool := (List.range 16).any fun n => rd (O.ADC_IN_CLASS n) s == 1 && inputUsed n s
  wr O.ADC_CAL_STATE (if (spareSlice s).isNone && s.adc.spareCal.isNone then 2 else b2n (protect && adcReady s)) s

/-- Physical slice p is mapped out; the spare takes its place, or logical slice 3 is left without one (R240, R243). -/
def adcMapOut (p phase : Nat) (s : State) : State :=
  let s := wrBit O.ADC_SLICE_OUT p true s
  if spareSlice s == some p then updCalState (mapOutSpare 3 p phase 6 0 (setSlice 4 none (updAdc (fun a => { a with spareCal := none }) s)))
  else match (List.range 4).find? fun l => slicePhys l s == some p with
  | none => s
  | some l =>
    let s := updAdc (fun a => { a with counts := a.counts.set l 0, due := a.due.filter (·.1 != l) }) s
    match spareSlice s with
    | some x => updCalState (mapOut 3 l p (some x) phase 6 0 (setSlice 4 none (setSlice l (some x) (updAdc (fun a => { a with spareCal := none }) s))))
    | none =>
      let top := ((List.range 4).filter fun i => (slicePhys i s).isSome).getLastD l
      let s := if top == l then setSlice l none s else setSlice top none (setSlice l (slicePhys top s) s)
      updCalState (mapOut 3 l p none phase 6 0 s)

/-- The shadow conversion of a swap of logical slice l, ended at half tick e, compared with the present slice's (R242). Conversions the slice has begun since are the spare's. -/
def swapCompare (l ph n e x : Nat) (code : Int) (shadow : List (Int × Nat)) (s : State) : State :=
  let r := codeOf x n shadow s
  let s := r.2
  let until_ := some (ceilDiv e 2 + 480000)
  if (code - r.1.1).natAbs ≤ rd O.ADC_SWAP_TOL s then
    let s := setSlice 4 (some ph) (setSlice l (some x) (bump O.ADC_SWAPS s))
    let since (c : AdcConv) : Bool := c.slice == l && e ≤ c.start
    updAdc (fun a => { a with
      spareCal := until_
      counts := a.counts.set l (sumL ((a.convs.filter since).map (·.n)))
      convs := a.convs.map fun c => if since c then { c with phys := x } else c
      rejects := a.rejects.set x 0 }) s
  else
    let n := s.adc.rejects.getD x 0 + 1
    let s := bump O.ADC_SWAP_REJECT (updAdc (fun a => { a with spareCal := until_, rejects := a.rejects.set x n }) s)
    if n ≥ 3 then adcMapOut x 0 s else s

/-- Input n holds a sample not yet converted (R234). -/
def holdsSample (n : Nat) (s : State) : Bool :=
  s.adc.convs.any (fun c => c.held && c.input == n) || s.adc.rounds.any fun r => r.any fun y => entInput (seqEntry y.2.1 y.2.2 s) == n

/-- Settling interval of a filter code in half ticks (Table 8.5). -/
def bwSettle (b : Nat) : Nat := nth [80, 1600, 16000] b 16000

/-- The change of input n takes effect at half tick t; conversions under way take the gain from there (R234). -/
def applyChange (n t : Nat) (s : State) : State :=
  let g := rd (O.ADC_IN_GAIN n) s
  let b := rd (O.ADC_IN_BW n) s
  let g0 := s.adc.gainEff.getD n 1
  let b0 := s.adc.bwEff.getD n 0
  let d := max (if g == g0 then 0 else 800) (if b == b0 then 0 else max (bwSettle b) (bwSettle b0))
  let s := updAdc (fun a => { a with gainEff := a.gainEff.set n g, bwEff := a.bwEff.set n b, chg := a.chg.filter (· != n),
                                     convs := a.convs.map fun c => if c.input == n then { c with gains := c.gains ++ [(t, g)] } else c }) s
  if d == 0 then s else openSettle n t (t + d) s

/-- Both results of the P-mark have been delivered in a cell, whose engine takes their codes (R80, R226). -/
def cellTakes (c : AdcConv) (s : State) : State :=
  match c.use, (seqSt 0 s).run with
  | .entry 0 _ run, some r =>
    if isCell s && r.num == run && r.todo.isEmpty && r.out.isEmpty then
      match r.period with
      | some k => cellSampled k (low 16 (rd (O.ADC_RESULT 0 0) s)) (low 16 (rd (O.ADC_RESULT 0 1) s)) s
      | none => s
    else s
  | _, _ => s

/-- A conversion ends and its result is delivered (R224, R226, R227, R238, R242); cs: uncalibrated values, shadow: those of the spare, sat: the slice saturated. -/
def deliver (c : AdcConv) (cs shadow : List Int) (sat : Bool) (s : State) : State :=
  let r := codeOf c.phys c.input (c.values cs) s
  let code := r.1.1
  let clip := sat || r.1.2
  let set_ : Bool := c.input < 16 && (List.range c.n).any fun i => settlingAt c.input (c.sample + 80 * i) r.2
  let opn := c.opn || isOpen c.input r.2
  let s := updAdc (fun a => { a with convs := a.convs.erase c }) r.2
  let s := match c.use with
    | .entry q e run => putResult q e run c.phys c.input c.sample clip opn set_ code s
    | .prio n =>
      let w := resultWord n c.phys clip opn set_ code
      wr O.ADC_PRIO_STAMP (ts96N (c.sample * 81920)) (wr O.ADC_PRIO_RESULT w (keepGood c.input w code s))
    | .openWire => owResult c.input clip code s
  let ends := c.start + 80 * c.n
  let s := match c.shadow with | some x => swapCompare c.slice c.phys c.input ends x code (c.values shadow) s | none => s
  let s := if s.adc.chg.contains c.input && !holdsSample c.input s then applyChange c.input ends s else s
  cellTakes c (showSettle c.input s)

/-- The next sample of a pair: its input, instant and logical slice; those of the period before come first (R235). -/
def nextSample (p : Nat) (s : State) : Option (Nat × Nat × Nat) :=
  let x := s.adc.pairs.getD p AdcPair.init
  match x.late, x.on, x.base with
  | y :: _, _, _ => some y
  | [], some n, some b =>
    let t := b + 20 * x.j
    if hasGrid s && pOf (kNow s + 1) s ≤ t then none else some (n, t, 2 * p + x.j % 2)
  | _, _, _ => none

/-- That sample has been taken. -/
def AdcPair.past (x : AdcPair) : AdcPair := if x.late.isEmpty then { x with j := x.j + 1 } else { x with late := x.late.drop 1 }

/-- Entry 0 of a run that takes a pair sample has its sample instant (R235, Table 8.11). -/
def stampPaired (q e run t : Nat) (s : State) : State :=
  if e == 0 then updSeq q (fun x => { x with run := x.run.map fun r => if r.num == run then { r with stamp := some (2 * t) } else r }) s else s

/-- The entries that wait for a sample of pair p not before t take it (R235). -/
def pairServe (p n t ph : Nat) (clip set_ : Bool) (code : Int) (s : State) : State :=
  let due := s.adc.pairWait.filter fun y => y.1 == p && y.2.2.2.2 ≤ 2 * t
  each due (fun y s => putResult y.2.1 y.2.2.1 y.2.2.2.1 ph n (2 * t) clip (isOpen n s) set_ code (stampPaired y.2.1 y.2.2.1 y.2.2.2.1 t s))
    (updAdc (fun a => { a with pairWait := a.pairWait.filter fun y => !(y.1 == p && y.2.2.2.2 ≤ 2 * t) }) s)

/-- A pair sample is the shadow conversion of a swap that is due on logical slice l (R242). -/
def pairShadow (n t l ph : Nat) (code : Int) (shadow : List (Int × Nat)) (s : State) : State :=
  match (if swapIsDue l (2 * t) s then shadowSlice s else none) with
  | some x => swapCompare l ph n (2 * t + 80) x code shadow (updAdc (fun a => { a with due := a.due.filter (·.1 != l) }) s)
  | none => s

/-- The result of pair p's sample of input n at t in its register and for what reads it (R226, R235, R246). -/
def pairPut (p n t w : Nat) (code : Int) (s : State) : State :=
  acqSource (0x2000 + p) w (t * 163840) (wr (if p == 0 then O.ADC_PAIR0_RESULT else O.ADC_PAIR1_RESULT) w (keepGood n w code s))

/-- Pair p's sample of input n at t, converted by slice ph in the place of logical slice l (R235, R242); RUN of a pair is stated nowhere and is free. -/
def pairTake (p n t l ph : Nat) (cs shadow : List Int) (sat : Bool) (s : State) : State :=
  let s := advVt (t + 50) (updAdc (fun a => { a with counts := a.counts.modify l (· + 1) }) s)
  let g := gainOf n s
  let r := codeOf ph n [(cs.getD 0 0, g)] s
  let clip := sat || r.1.2
  let set_ := settlingAt n (2 * t) r.2
  let run := takeFree 8 r.2
  let w := resultWord run.1 ph clip (isOpen n run.2) set_ r.1.1
  pairShadow n t l ph r.1.1 [(shadow.getD 0 0, g)] (pairServe p n t ph clip set_ r.1.1 (pairPut p n t w r.1.1 run.2))

/-- The next sample of pair p (R235, R242): at P(k) + 50 ns × j, not used from P(k + 1) on. -/
def pairSample (p : Nat) (cs shadow : List Int) (sat : Bool) (s : State) : State :=
  match nextSample p s with
  | none => s
  | some (n, t, l) =>
    let s := updAdc (fun a => { a with pairs := a.pairs.modify p AdcPair.past }) s
    match slicePhys l s with
    | none => s
    | some ph => pairTake p n t l ph cs shadow sat s

/-- ADC_CONVERSION_END of a logical slice: its oldest conversion, or the next sample of its pair. -/
def convEnd (l : Nat) (cs shadow : List Int) (sat : Bool) (s : State) : State :=
  match s.adc.convs.find? fun c => c.slice == l with
  | some c => let s := advVt (ceilDiv (c.start + 80 * c.n + 20) 2) s; adcNow (deliver c cs shadow sat (adcNow s))
  | none => pairSample (l / 2) cs shadow sat s

/-- The rounds of a period with the release of each slice (R232). -/
def setRounds (p : Nat) (s : State) : State :=
  let l := holdLayout s
  let top := maxL (l.map (·.1))
  let rounds := if l.isEmpty then [] else (List.range (top + 1)).map fun r => (l.filter fun x => x.1 == r).map fun x => (x.2.1, x.2.2.1, x.2.2.2)
  let rel := (List.range 4).filterMap fun i =>
    if l.any (fun x => x.2.1 == i) then some (i, 2 * p + 80 * (if l.any (fun x => x.2.1 == i && x.1 == top) then top + 1 else top)) else none
  updAdc (fun a => { a with rounds := rounds, roundAt := p, roundN := 0, release := rel }) s

/-- A P_MARK sequencer at a P-mark: a run not ended is cut short, and the new one starts (R229, R230, R235). -/
def seqPMark (k q : Nat) (s : State) : State :=
  if seqTrig q s != 1 then s
  else
    let s := runEnd q s
    let s := if (seqSt q s).run.isSome then chainNext q (bump (O.ADC_SEQ_OVERRUN q) (abandonRun q s)) else s
    startRun q (some k) s

/-- A pair at a P-mark of tick now: samples whose results are still to come stay, the grid restarts, and an OFF takes effect (R235, R236). -/
def AdcPair.pMark (p now : Nat) (x : AdcPair) : AdcPair :=
  let old := match x.on, x.base with
    | some n, some b =>
      ((List.range (ceilDiv (now - b) 20 - x.j)).map fun i => (n, b + 20 * (x.j + i), 2 * p + (x.j + i) % 2)).filter fun y => now < y.2.1 + 50
    | _, _ => []
  { on := if x.off then none else x.on, off := false, j := 0, base := some now, late := x.late ++ old }

/-- The subsystem at P(k) (R229, R230, R232, R235, R236); what could start before it has, as of the period before. -/
def adcPMark (k : Nat) (s : State) : State :=
  if !adcReady s then s
  else
    let now := vtTicks s
    let s := updAdc (fun a => { a with pairs := a.pairs.mapIdx fun p x => x.pMark p now }) s
    let s := each (List.range 4) (seqPMark k) s
    let held := (List.range 4).flatMap fun q => if seqTrig q s == 1 then
      (List.range (rd (O.ADC_SEQ_LEN q) s)).filterMap (fun e =>
        let x := seqEntry q e s
        if entHeld x then (pairOf (entInput x) s).map fun p => (p, q, e) else none) else []
    let s := each held (fun h s =>
      let num := match (seqSt h.2.1 s).run with | some r => r.num | none => 0
      entStarted h.2.1 h.2.2 (2 * now) (2 * now) (updAdc (fun a => { a with pairWait := a.pairWait ++ [(h.1, h.2.1, h.2.2, num, 2 * now)] }) s)) s
    adcNow (updCalState (setRounds now s))

/-- The settings of the inputs and the pairs act from start-up as the objects have them (R225, R235). -/
def adcLoad (s : State) : State :=
  let on (p v : Nat) : Option Nat := if v < 16 && (slicePhys (2 * p) s).isSome && (slicePhys (2 * p + 1) s).isSome then some v else none
  let pair (p v : Nat) : AdcPair := { AdcPair.init with on := on p v }
  updAdc (fun a => { a with
    gainEff := (List.range 16).map fun n => rd (O.ADC_IN_GAIN n) s
    bwEff := (List.range 16).map fun n => rd (O.ADC_IN_BW n) s
    pairs := [pair 0 (rd O.ADC_PAIR0 s), pair 1 (rd O.ADC_PAIR1 s)] }) s

/-- What the subsystem's state makes of a write (R228, R229, R239, R244). -/
def adcGuard (k v : Nat) (s : State) : Nat :=
  let i := k / 256
  let n := k % 256 - 1
  let seqOf : Option Nat :=
    if 0x7300 ≤ i && i ≤ 0x7303 then some (i - 0x7300)
    else if 0x7200 ≤ i && i ≤ 0x7203 && 2 ≤ k % 256 && k % 256 ≤ 4 then some (i - 0x7200) else none
  match seqOf with
  | some q =>
    if isCell s && q < 2 then stState
    else if seqTrig q s != 0 then stState
    else if 0x7300 ≤ i && (20 ≤ entInput v || 4 < fld v 14 12 || (entHeld v && fld v 14 12 != 0)) then stRange
    else stOk
  | none =>
    if isCell s && i == 0x7120 && n < 4 then stState
    else if isCell s && (i == 0x7100 || i == 0x7110) && n < 2 then stIf (!(rd O.CEL_STATE s == 2 || rd O.CEL_STATE s == 3))
    else if isCell s && (i == 0x7150 || i == 0x7160 || i == 0x7170) && n < 2 then stState
    else stOk

/-- What a completed write of a subsystem object brings: the class or an entry may change ADC_CAL_STATE; a test current switched on waits an interval. -/
def adcWritten (k : Nat) (s : State) : State :=
  let i := k / 256
  let n := k % 256 - 1
  if i == 0x7120 then updCalState s
  else if i == 0x7130 then updAdc (fun a => { a with ow := a.ow.modify n fun o => if o.since.isSome then o else { o with last := vtTicks s } }) s
  else s

end Sys2Proof.Machine
end

