-- ==== Sys2Proof/Machine/OpsDma.lean ====
section
/-! DEFINITION. The data movers' shared operations: addresses, fetch, moving, errors and domains that power down (R314 to R325). -/
namespace Sys2Proof.Machine

/-- Channel c. -/
def chan (c : Nat) (s : State) : DmaChan := s.dma.chans.getD c DmaChan.init

/-- Channel c changed. -/
def updChan (c : Nat) (f : DmaChan → DmaChan) (s : State) : State := { s with dma := { s.dma with chans := s.dma.chans.modify c f } }

/-- State of channel c: 0 IDLE, 1 RUNNING, 2 PAUSED, 3 ERROR. -/
def chanState (c : Nat) (s : State) : Nat := rd (O.DMA_STATE c) s

/-- DMA_STATE and its bit of DMA_ACTIVE. -/
def setChanState (c v : Nat) (s : State) : State := wrBit O.DMA_ACTIVE c (v == 1 || v == 2) (wr (O.DMA_STATE c) v s)

/-- A place in the mover address map: the model's memory address, write allowed, its domain (17 DDR, 18 CAPTURE, 0 MAIN), offset in LPDDR4X (Table 12.2). -/
structure DmaPlace where
  at_ : Nat
  writable : Bool
  domain : Nat
  ddr : Option Nat
deriving DecidableEq, Repr

/-- The place of a 40-bit address (Table 12.2). -/
def dmaPlace (a : Nat) (s : State) : Option DmaPlace :=
  let fitted := s.sys.ddrMiB * 2 ^ 20
  if 0x10000000 ≤ a && a < 0x10200000 then some ⟨a, false, 0, none⟩
  else if 0x20000000 ≤ a && a < 0x20400000 then some ⟨a, true, 0, none⟩
  else if 0x48000000 ≤ a && a < 0x48200000 then some ⟨a, false, 0, none⟩
  else if 0x50000000 ≤ a && a < 0x52000000 then some ⟨a, false, 18, none⟩
  else if 0x60000000 ≤ a && a < 0x70000000 then
    let o := rd O.ACQ_DDR_WINDOW s * 65536 + (a - 0x60000000)
    if o < fitted then some ⟨ddrBase + o, true, 17, some o⟩ else none
  else if 0x100000000 ≤ a && a - 0x100000000 < fitted then some ⟨ddrBase + (a - 0x100000000), true, 17, some (a - 0x100000000)⟩
  else none

/-- The domain is off, or being taken off (R324). -/
def domainOffNow (d : Nat) (s : State) : Bool := d != 0 && (!rdBit O.SYS_DOMAINS d s || s.dma.pd.any fun p => p.1 == d)

/-- Error code of an access by channel c: 0 none, 4 ADDRESS, 5 PERMISSION, 7 DOMAIN_OFF (R316, R324). -/
def dmaAccess (c a : Nat) (write : Bool) (s : State) : Nat :=
  match dmaPlace a s with
  | none => 4
  | some p =>
    if write && !p.writable then 5
    else if c % 8 != 0 && 0x20000000 ≤ a && a < 0x20100000 then 5
    else if write && rd O.ACQ_MEM s == 1 && (match p.ddr with | some o => o < rd O.ACQ_AREA s * 2 ^ 20 | none => false) then 5
    else if p.domain != 0 && !rdBit O.SYS_DOMAINS p.domain s then 7 else 0

/-- A byte read by a mover. -/
def dmaLd (a : Nat) (s : State) : Nat := match dmaPlace a s with | some p => ldByte p.at_ s | none => 0

/-- A byte written by a mover. -/
def dmaSt (a v : Nat) (s : State) : State := match dmaPlace a s with | some p => stByte p.at_ v s | none => s

/-- n bytes read by a mover. -/
def dmaLds (a n : Nat) (s : State) : List Nat := (List.range n).map fun i => dmaLd (a + i) s

/-- The addresses of a stream in order. -/
def streamAddrs (l : List (Nat × Nat)) : List Nat := l.flatMap fun p => (List.range p.2).map fun i => p.1 + i

/-- Total length of a list of pairs. -/
def streamLen (l : List (Nat × Nat)) : Nat := sumL (l.map (·.2))

/-- Bytes that a descriptor's streams hold. -/
def DmaDesc.total (d : DmaDesc) : Nat := streamLen d.dst

/-- Two pairs share bytes. -/
def pairsMeet (a b : Nat × Nat) : Bool := a.1 < b.1 + b.2 && b.1 < a.1 + a.2

/-- An address obeys the memory rule of R317: shared data SRAM or LPDDR4X. -/
def dmaTableOk (a align : Nat) (s : State) : Bool :=
  a % align == 0 && (match dmaPlace a s with | some p => p.writable | none => false)

/-- The first error of accesses at a list of addresses, 0 for none. -/
def firstAccess (c : Nat) (l : List Nat) (write : Bool) (s : State) : Nat := ((l.map fun a => dmaAccess c a write s).find? (· != 0)).getD 0

/-- A list of addresses lies in a domain that is off or being taken off. -/
def anyOff (l : List Nat) (s : State) : Bool := l.any fun a => match dmaPlace a s with | some p => domainOffNow p.domain s | none => false

/-- A pair list at an address. -/
def readPairs (a n : Nat) (s : State) : List (Nat × Nat) :=
  (List.range n).map fun i => let b := dmaLds (a + 16 * i) 16 s; (ofLe (b.take 5), ofLe ((b.drop 8).take 4))

/-- Fields that R319 calls an error. -/
def descFieldBad (c ctrl srcN dstN : Nat) : Bool :=
  let op := fld ctrl 31 28
  2 < op || (0 < op && c < 8) || (fld ctrl 27 26 != 0 && 8 ≤ c) || dstN < 1 || 256 < dstN
    || (if op == 1 then srcN != 0 else srcN < 1 || 256 < srcN)

/-- Lengths that R319 calls an error. -/
def descLenBad (d : DmaDesc) : Bool :=
  let unit := nth [1, 2, 4, 4] d.swap 1
  (d.src ++ d.dst).any (fun p => p.2 < 1 || 2 ^ 24 < p.2) || (d.op != 1 && streamLen d.src != streamLen d.dst) || streamLen d.dst % unit != 0

/-- The overlap error of R321. -/
def descOverlap (d : DmaDesc) : Bool :=
  d.op == 0 && !(d.src.length == 1 && d.dst.length == 1) && d.src.any fun x => d.dst.any fun y => pairsMeet x y

/-- A descriptor read from an address: an error code, or the descriptor; NEXT where it could be read (R316 to R321, R324). -/
def readDesc (c a : Nat) (s : State) : Option Nat × (Nat ⊕ DmaDesc) :=
  if !dmaTableOk a 64 s then (none, .inl 1)
  else
    let own := (List.range 8).map fun i => a + 8 * i
    let e := firstAccess c own false s
    if e != 0 then (none, .inl e)
    else if anyOff own s then (none, .inl 7)
    else
      let b := dmaLds a 64 s
      let u (o n : Nat) : Nat := ofLe ((b.drop o).take n)
      let ctrl := u 0 4
      let next := some (u 24 8)
      let sa := low 40 (u 8 8)
      let da := low 40 (u 16 8)
      let op := fld ctrl 31 28
      let srcN := if op == 1 then 0 else u 4 2
      if descFieldBad c ctrl (u 4 2) (u 6 2) then (next, .inl 2)
      else if (op != 1 && !dmaTableOk sa 16 s) || !dmaTableOk da 16 s then (next, .inl 1)
      else
        let lists := (List.range (2 * srcN)).map (fun i => sa + 8 * i) ++ (List.range (2 * u 6 2)).map fun i => da + 8 * i
        let e := firstAccess c lists false s
        if e != 0 then (next, .inl e)
        else if anyOff lists s then (next, .inl 7)
        else
          let d : DmaDesc := { addr := a, op := op, swap := fld ctrl 27 26, barrier := bit ctrl 25, evt := bit ctrl 24, wb := bit ctrl 23,
                               stopDiff := bit ctrl 22, src := readPairs sa srcN s, dst := readPairs da (u 6 2) s, pattern := (b.drop 32).take 8, snap := none }
          if descLenBad d then (next, .inl 2)
          else if descOverlap d then (next, .inl 3)
          else if anyOff ((d.src ++ d.dst).flatMap fun p => [p.1, p.1 + p.2 - 1]) s then (next, .inl 7)
          else (next, .inr d)

/-- A channel enters ERROR (Table 12.4). -/
def chanError (c code desc off : Nat) (s : State) : State :=
  let s := wr (O.DMA_ERR_CODE c) code (wr (O.DMA_ERR_DESC c) desc (wr (O.DMA_ERR_OFFSET c) (satU 32 off) s))
  fireEvent (2 + c) (pulse 232 c (bump (O.DMA_ERRORS c) (setChanState c 3 s)))

/-- Source index of destination byte o under SWAP (R320). -/
def swapIndex (swap o : Nat) : Nat := Nat.xor o (nth [0, 1, 3, 2] swap 0)

/-- The first stream offset from a on at which an access of descriptor d fails, with its code. -/
def firstFail (c : Nat) (d : DmaDesc) (a : Nat) (s : State) : Option (Nat × Nat) :=
  let rdA := streamAddrs d.src
  let dA := streamAddrs d.dst
  ((List.range d.total).drop a).findSome? fun o =>
    let e1 := match rdA[o]? with | some x => dmaAccess c x false s | none => 0
    let e2 := match dA[o]? with | some x => dmaAccess c x (d.op != 2) s | none => 0
    if e1 != 0 then some (o, e1) else if e2 != 0 then some (o, e2) else none

/-- Bytes [a, b) of the streams are moved or compared (R320, R321). -/
def dmaMove (c a b : Nat) (d : DmaDesc) (s : State) : State :=
  let sA := streamAddrs d.src
  let dA := streamAddrs d.dst
  let offs := (List.range (b - a)).map fun i => a + i
  let s := bumpN (b - a) (O.DMA_BYTES c) (wr (O.DMA_CUR_OFFSET c) b s)
  match d.op with
  | 0 =>
    let meet : Bool := d.src.any fun x => d.dst.any fun y => pairsMeet x y
    let snap := match d.snap with | some l => l | none => if meet then sA.map fun x => dmaLd x s else []
    let val (o : Nat) : Nat := let i := swapIndex d.swap o; if meet then snap.getD i 0 else dmaLd (sA.getD i 0) s
    let vals := offs.map fun o => (dA.getD o 0, val o)
    let s := updChan c (fun x => { x with cur := some { d with snap := if meet then some snap else none } }) s
    each vals (fun v => dmaSt v.1 v.2) s
  | 1 => each offs (fun o => dmaSt (dA.getD o 0) (d.pattern.getD (o % 8) 0)) s
  | _ =>
    let diff := offs.filter fun o => dmaLd (sA.getD o 0) s != dmaLd (dA.getD o 0) s
    let s := bumpN diff.length (O.DMA_CMP_MISMATCH c) s
    match diff.head? with
    | some o => if rd (O.DMA_CMP_FIRST c) s == 0xFFFFFFFF then wr (O.DMA_CMP_FIRST c) o s else s
    | none => s

/-- Bytes up to offset `to_`, stopping before the first failing burst; ecc is the offset of an uncorrectable error among the source bytes (R323). Answers the failure. -/
def dmaRun (c to_ : Nat) (ecc : Option Nat) (d : DmaDesc) (s : State) : Option (Nat × Nat) × State :=
  let a := rd (O.DMA_CUR_OFFSET c) s
  let f := firstFail c d a s
  let e := match ecc with | some o => if d.op != 1 && a ≤ o && o < d.total then some (o, 6) else none | none => none
  let bad := match f, e with
    | some x, some y => if x.1 ≤ y.1 then some x else some y
    | some x, none => some x
    | none, y => y
  match bad with
  | some (o, code) => let stop := o / 64 * 64; if stop < to_ then (some (stop, code), dmaMove c a (max a stop) d s) else (none, dmaMove c a (max a to_) d s)
  | none => (none, dmaMove c a (max a (min to_ d.total)) d s)

/-- Addresses that a descriptor's channel touches: itself and its pairs. -/
def DmaDesc.ends (d : DmaDesc) : List Nat := d.addr :: (d.src ++ d.dst).flatMap fun p => [p.1, p.1 + p.2 - 1]

/-- Channel c's descriptor in progress touches a domain. -/
def touches (c dom : Nat) (s : State) : Bool :=
  match (chan c s).cur with
  | some d => d.ends.any fun a => match dmaPlace a s with | some p => p.domain == dom | none => false
  | none => false

/-- Channels whose descriptor in progress touches a domain, in a state. -/
def touching (dom st : Nat) (s : State) : List Nat := (List.range 16).filter fun c => chanState c s == st && touches c dom s

/-- The recorder's memory has left service (R254). -/
def recorderLost (s : State) : State :=
  if rd O.ACQ_MEM s != 1 then s
  else
    let s := if rd O.ACQ_STATE s == 3 then endRecord true s
      else match s.acq.cur with
        | some r => wr (O.ACQ_SLOT_STATE r.slot) 0 (wr (O.ACQ_SLOT_REC r.slot) 0 (updAcq (fun a => { a with cur := none }) s))
        | none => s
    pulse 216 0 (wr O.ACQ_CFG_STATUS 5 (wr O.ACQ_STATE 0 s))

/-- A domain powers down: its bit, and what it held (R254, R402). -/
def domainOff (dom : Nat) (s : State) : State :=
  let s := wrBit O.SYS_DOMAINS dom false { s with dma := { s.dma with pd := s.dma.pd.filter fun p => p.1 != dom } }
  if dom == 18 then
    let s := { s with mem := s.mem.filter fun c => c.1 < 0x50000000 || 0x52000000 ≤ c.1 }
    if rd O.ACQ_MEM s == 0 then each (List.range 64) (fun i s => wr (O.ACQ_SLOT_STATE i) 0 (wr (O.ACQ_SLOT_REC i) 0 s)) s else s
  else recorderLost s

/-- Power-downs that no running descriptor holds up proceed (R324). -/
def pdProceed (s : State) : State := each (s.dma.pd.map (·.1)) (fun d s => if (touching d 1 s).isEmpty then domainOff d s else s) s

/-- A request to power a domain down (R324). -/
def pdRequest (dom : Nat) (s : State) : State :=
  let s := { s with dma := { s.dma with pd := s.dma.pd.filter (fun p => p.1 != dom) ++ [(dom, s.tick)] } }
  let s := each (touching dom 2 s) (fun c s => chanError c 7 (rd (O.DMA_CUR_DESC c) s) (rd (O.DMA_CUR_OFFSET c) s) s) s
  pdProceed s

/-- A domain has left service without a request (R325). -/
def domainLost (dom : Nat) (s : State) : State :=
  let s := wrBit O.SYS_DOMAINS dom false s
  each (touching dom 1 s) (fun c s => chanError c 8 (rd (O.DMA_CUR_DESC c) s) (rd (O.DMA_CUR_OFFSET c) s) s) s

/-- Channel c ends its descriptor: write-back, counts, event, the next one (R318, R320, R322). -/
def descDone (c : Nat) (d : DmaDesc) (s : State) : State :=
  let mis := if d.op == 2 then rd (O.DMA_CMP_MISMATCH c) s else 0
  let wbBytes := leBytes 4 (2 ^ 31 + 256 * b2n (mis != 0)) ++ leBytes 4 mis ++ leBytes 4 (if d.op == 2 then rd (O.DMA_CMP_FIRST c) s else 0xFFFFFFFF)
  let wbErr := if d.wb then firstAccess c [d.addr + 40, d.addr + 48] true s else 0
  if wbErr != 0 then chanError c wbErr d.addr d.total s
  else
    let s := if d.wb then each ((List.range 12).map fun i => (d.addr + 40 + i, wbBytes.getD i 0)) (fun v => dmaSt v.1 v.2) s else s
    let s := bump (O.DMA_DONE_COUNT c) s
    let next := if d.op == 2 && d.stopDiff && mis != 0 then 0 else low 40 (chan c s).next
    let s := updChan c (fun x => { x with cur := none, fetchAt := if next == 0 then none else some next }) s
    let s := if next == 0 then setChanState c 0 s else s
    pdProceed (if d.evt || next == 0 then fireEvent (2 + c) s else s)

/-- What the unit's state makes of a write by a task or over JOP (R314, R326). -/
def dmaGuard (fw : Bool) (k : Nat) (s : State) : Nat :=
  let i := k / 256
  let c := i - 0xA800
  if 0xA800 ≤ i && i ≤ 0xA80F then
    (if c % 8 == 0 && !fw then stRights else if k % 256 == 2 || k % 256 == 3 then stIf (chanState c s != 0) else stOk)
  else stOk

end Sys2Proof.Machine
end

