-- ==== Sys2Proof/Machine/Acq.lean ====
section
/-! DEFINITION. The commands of the disturbance recorder (chapter 9). -/
namespace Sys2Proof.Machine

/-- The counters of Table 9.5 that CLEAR_COUNTERS sets to 0 (R266). -/
def acqCounters : List Nat :=
  [O.ACQ_RECORDS, O.ACQ_TRIG_LOST, O.ACQ_TRIG_MARKED, O.ACQ_OVERWRITTEN, O.ACQ_XT_SENT, O.ACQ_XT_RECEIVED, O.ACQ_XT_EARLY, O.ACQ_XT_SUPPRESSED,
   O.ACQ_XT_MAX_AGE]

/-- The configuration is checked at a write (R251). -/
def acqChecked (s : State) : State := if isNode s then acqCheck s else s

/-- A write of ACQ_CMD: it takes effect at the next row instant (R251, R255, R257, R266). -/
def writeAcqCmd (v : Nat) (s : State) : Res :=
  let s := acqChecked s
  writeBy O.ACQ_CMD v (stIf (v == 1 && rd O.ACQ_CFG_STATUS s != 0))
    (fun s => done (updAcq (fun a => { a with cmds := a.cmds ++ [(v, vtTicks s)] }) s)) s

/-- ACQ_CMD ARM (R255). -/
def execAcqCmdArm (s : State) : Host.Outcome State Fault Refusal := ok (finish (writeAcqCmd 1 s))

/-- ACQ_CMD STOP (R255). -/
def execAcqCmdStop (s : State) : Host.Outcome State Fault Refusal := ok (finish (writeAcqCmd 2 s))

/-- ACQ_CMD FORCE (R257). -/
def execAcqCmdForce (s : State) : Host.Outcome State Fault Refusal := ok (finish (writeAcqCmd 3 s))

/-- ACQ_CMD CLEAR_COUNTERS (R266). -/
def execAcqCmdClearCounters (s : State) : Host.Outcome State Fault Refusal := ok (finish (writeAcqCmd 4 s))

/-- IDLE or STOPPED. -/
def acqIdle (s : State) : Bool := let x := rd O.ACQ_STATE s; x == 0 || x == 4

/-- STOP at a row instant (Table 9.3). -/
def acqStop (s : State) : State :=
  match rd O.ACQ_STATE s, s.acq.cur with
  | 3, some _ => wr O.ACQ_STATE 0 (endRecord true s)
  | 3, none => wr O.ACQ_STATE 0 s
  | 5, _ => s
  | _, some r => wr O.ACQ_STATE 0 (wr (O.ACQ_SLOT_STATE r.slot) 0 (wr (O.ACQ_SLOT_REC r.slot) 0 (updAcq (fun a => { a with cur := none }) s)))
  | _, none => if acqIdle s then s else wr O.ACQ_STATE 0 s

/-- ARMING holds ACQ_PRE rows (Table 9.3). -/
def acqArmed (s : State) : State :=
  match s.acq.cur with
  | some r => if rd O.ACQ_STATE s == 1 && rd O.ACQ_PRE s ≤ r.n then wr O.ACQ_STATE 2 s else s
  | none => s

/-- Some channel stores two words. -/
def anyMinmax (s : State) : Bool := (List.range 32).any fun c => achWords c s == 2

/-- Offset of row j from P(k) in ticks (R250). -/
def rowOffset (j : Nat) (s : State) : Option Nat :=
  if rd O.ACQ_INTERVAL s == 0 then (if j == 0 then some 0 else none) else some (j * rd O.ACQ_INTERVAL s)

/-- The grid taken up within a period: its next row is the first after now (R250). -/
def regrid (s : State) : State :=
  let d := vtTicks s - pOf (kNow s) s
  updAcq (fun a => { a with gridK := some (kNow s), gridJ := d / max 1 (rd O.ACQ_INTERVAL s) + 1 }) s

/-- The next row instant of the present period: its tick and the row's interval; none from P(k + 1) on (R250). -/
def rowDue (s : State) : Option (Nat × Nat) :=
  let k := kNow s
  match rowOffset s.acq.gridJ s with
  | some x => if x < tOf k s then some (pOf k s + x, min (rowStep s) (tOf k s - x)) else none
  | none => none

/-- A slot is FREE. -/
def slotFree (s : State) : Bool := (List.range (rd O.ACQ_SLOTS s)).any fun i => rd (O.ACQ_SLOT_STATE i) s == 0

/-- The last row of the record is known, with the instant up to which its samples lie (R247). -/
def setLim (x : Nat) (s : State) : State :=
  updAcq (fun a => { a with cur := a.cur.map fun r => match r.trig with
    | some t => if t.stop < r.n && r.lim.isNone then { r with lim := some x } else r
    | none => r }) s

/-- The transition of Table 9.3 at a row instant by the commands ARM and STOP that take effect there; the row nearest its end wins. -/
def rowStep1 (arm stop : Bool) (s : State) : State :=
  let st := rd O.ACQ_STATE s
  if st == 5 then (if slotFree s then armRecord s else s)
  else if stop && !acqIdle s then acqStop s
  else if acqIdle s then (if arm then armRecord s else s)
  else
    let s := acqComplete s
    if rd O.ACQ_STATE s == 1 && s.acq.cur.isNone then armRecord s else s

/-- The ring has room for a row beside those of a record already triggered. -/
def rowFits (s : State) : Bool :=
  match s.acq.cur with
  | some r => match r.trig with | some t => r.n < t.row - t.pre + r.cap | none => true
  | none => true

/-- A row instant: the interval before it ends, commands take effect, a row is stored, the recorder steps (R247, R250, R255, R257). -/
def rowAt (t dur : Nat) (s : State) : State :=
  let s := adcNow (advVt t s)
  let due := s.acq.cmds.filter fun c => c.2 < t
  let has (v : Nat) : Bool := due.any fun c => c.1 == v
  let s := onlyIf (has 4) (clearAll acqCounters) (updAcq (fun a => { a with cmds := a.cmds.filter fun c => !(c.2 < t) }) s)
  let x := t * 163840
  let s := rowStep1 (has 1) (has 2) (setLim x s)
  let s := if rowFits s then storeRow { k := kNow s, j := s.acq.gridJ, inst := x, dur := dur } s else s
  let s := acqArmed (updAcq (fun a => { a with gridJ := a.gridJ + 1 }) s)
  let s := if has 3 then acqTrigger 10 x 0xFFFF s else s
  if anyMinmax s then s else acqComplete (setLim (x + 1) s)

/-- The next row instant of the period. -/
def acqRowNow (s : State) : State :=
  if isNode s && hasGrid s then
    let s := if s.acq.gridK == some (kNow s) then s else regrid s
    match rowDue s with
    | some r => rowAt r.1 r.2 s
    | none => s
  else s

/-- ACQ_ROW (R250). -/
def execAcqRow (s : State) : Host.Outcome State Fault Refusal := ok (acqRowNow s)

/-- A digital sample matches the pattern (R260). -/
def patMatch (s : State) : Bool := (Nat.xor (digital s) (rd O.ACQ_PAT_VALUE s)) &&& rd O.ACQ_PAT_CARE s == 0

/-- A digital sample is taken and compared with the pattern (R248, R260); its instant lies on the 5 ns grid. -/
def patSample (s : State) : State :=
  if !isNode s then s
  else
    let m := patMatch s
    let fire : Bool := m && (s.acq.patPrev == some false || (s.acq.patFresh && rd O.ACQ_PAT_MODE s == 1))
    let inst := (vtTicks s - (vtTicks s - pOf (kNow s) s) % 2) * 163840
    let s := updAcq (fun a => { a with patPrev := some m, patFresh := false }) s
    if fire then acqTrigger 8 inst 0xFFFF s else s

/-- PATTERN_TRIGGER (R260). -/
def execPatternTrigger (s : State) : Host.Outcome State Fault Refusal := ok (patSample s)

/-- The triple of an XTRIG has been accepted in the latest 1 s (R261). -/
def xtSeen (x : Xtrig) (s : State) : Bool := s.acq.xtSeen.any fun e => e.1 == (x.node, x.sideB, x.seq) && s.tick < e.2 + ms 1000

/-- An accepted instant: trace unit, counts, and the CROSS trigger now or when due (R262). -/
def xtTake (x : Xtrig) (s : State) : State :=
  let s := { s with law := { s.law with cross := s.law.cross ++ [x.instant] } }
  if !rdBit O.ACQ_TRIG_EN 9 s then s
  else
    let origin := x.node * 256 + b2n x.sideB
    let now := vtFrac s
    let age := satU 32 ((now - x.instant) / 65536)
    let s := bump O.ACQ_XT_RECEIVED (wr O.ACQ_XT_MAX_AGE (max age (rd O.ACQ_XT_MAX_AGE s)) s)
    if now < x.instant then updAcq (fun a => { a with xtHeld := a.xtHeld ++ [(x.instant, origin)] }) s
    else acqTrigger 9 x.instant origin s

/-- An XTRIG arrives on lane n: distributed on, and taken (R261, R262). -/
def xtArrive (n : Nat) (x : Xtrig) (s : State) : State :=
  if !isNode s || xtSeen x s then s
  else
    let s := updAcq (fun a => { a with xtSeen := (((x.node, x.sideB, x.seq), s.tick) :: a.xtSeen).take 16 }) s
    let peer : Bool := n == laneP0 || n == laneP1
    let s := xtrigDown x (!peer) s
    xtTake x s

/-- XTRIG_RX (R262). -/
def execXtrigRx (n : Nat) (x : Xtrig) (s : State) : Host.Outcome State Fault Refusal := ok (xtArrive n x s)

/-- The least of the held instants. -/
def xtNext (l : List (Nat × Nat)) : Option (Nat × Nat) :=
  l.foldl (fun b e => match b with | none => some e | some x => if e.1 < x.1 then some e else b) none

/-- A held instant is reached (R262). -/
def xtDue (s : State) : State :=
  match xtNext s.acq.xtHeld with
  | some e =>
    let s := advVt (ceilDiv e.1 163840) s
    acqTrigger 9 e.1 e.2 (updAcq (fun a => { a with xtHeld := a.xtHeld.erase e }) s)
  | none => s

/-- XTRIG_INSTANT_DUE (R262). -/
def execXtrigInstantDue (s : State) : Host.Outcome State Fault Refusal := ok (xtDue s)

/-- A write of ACQ_REC_LOCK (R253). -/
def writeRecLock (v : Nat) (s : State) : Res :=
  writeBy O.ACQ_REC_LOCK v (stIf (v < 64 && rd (O.ACQ_SLOT_STATE v) s != 2)) (fun s => done (wr (O.ACQ_SLOT_STATE v) 3 s)) (acqChecked s)

/-- ACQ_REC_LOCK (R253). -/
def execAcqRecLock (v : Nat) (s : State) : Host.Outcome State Fault Refusal := ok (finish (writeRecLock v s))

/-- A write of ACQ_REC_RELEASE (R253): a slot in another state is left as it is. -/
def writeRecRelease (v : Nat) (s : State) : Res :=
  writeBy O.ACQ_REC_RELEASE v stOk (fun s =>
    let st := rd (O.ACQ_SLOT_STATE v) s
    done (if st == 2 || st == 3 then wr (O.ACQ_SLOT_STATE v) 0 (wr (O.ACQ_SLOT_REC v) 0 s) else s)) (acqChecked s)

/-- ACQ_REC_RELEASE (R253). -/
def execAcqRecRelease (v : Nat) (s : State) : Host.Outcome State Fault Refusal := ok (finish (writeRecRelease v s))

/-- Every slot FREE. -/
def freeSlots (s : State) : State := each (List.range 64) (fun i s => wr (O.ACQ_SLOT_STATE i) 0 (wr (O.ACQ_SLOT_REC i) 0 s)) s

/-- A write of ACQ_MEM (item 0), ACQ_AREA (1) or ACQ_SLOTS (2) (R252). -/
def writeAcqMem (item v : Nat) (s : State) : Res :=
  let k := nth [O.ACQ_MEM, O.ACQ_AREA, O.ACQ_SLOTS] item O.ACQ_MEM
  if item ≥ 3 then (stNoObject, s)
  else
    let locked : Bool := (List.range 64).any fun i => rd (O.ACQ_SLOT_STATE i) s == 3
    let st := if !acqIdle s || locked then stState else if item == 1 && s.sys.ddrMiB < v then stRange else stOk
    writeBy k v st (fun s => done (acqCheck (freeSlots (wr k v s)))) s

/-- ACQ_MEM_WRITE (R252). -/
def execAcqMemWrite (item v : Nat) (s : State) : Host.Outcome State Fault Refusal := ok (finish (writeAcqMem item v s))

/-- The LPDDR4X leaves service without a request (R254, R325). -/
def ddrLost (s : State) : State := if isNode s then recorderLost (domainLost 17 s) else s

/-- DDR_OUT_OF_SERVICE (R254). -/
def execDdrOutOfService (s : State) : Host.Outcome State Fault Refusal := ok (ddrLost s)

/-- Objects of the recorder's configuration that only IDLE or STOPPED lets be written (R266). -/
def acqGuard (k : Nat) (s : State) : Nat :=
  let i := k / 256
  let cfg : Bool := (0x8100 ≤ i && i ≤ 0x8500) || k == O.ACQ_MODE || k == O.ACQ_INTERVAL || k == O.ACQ_PRE || k == O.ACQ_POST || k == O.ACQ_EXTEND
  stIf (cfg && !acqIdle s)

/-- A completed write of the configuration is checked (R251); a new interval has its rows from now on (R250). -/
def acqWritten (k : Nat) (s : State) : State :=
  let i := k / 256
  let s := onlyIf (k == O.ACQ_INTERVAL && hasGrid s) regrid s
  if 0x8000 ≤ i && i ≤ 0x8500 then acqCheck s else s

end Sys2Proof.Machine
end

