-- ==== Sys2Proof/Machine/LawElem.lean ====
section
/-! DEFINITION. The element library of the law engine: descriptors, sizes, costs and the equations of R116, in F32 (R109, R111, R115, R116, R433). -/
namespace Sys2Proof.Machine

/-- A descriptor's fields (Table 4.2). -/
structure Elem where
  typ : Nat
  rate : Nat
  phase : Nat
  bumpless : Bool
  freeze : Bool
  ramp : Bool
  coef : Nat
  ins : List Nat
  param : Nat
deriving DecidableEq, Repr

/-- The fields of a 128-bit descriptor (Table 4.2). -/
def Elem.of (d : Nat) : Elem :=
  { typ := fld d 127 120, rate := fld d 119 117, phase := fld d 116 111, bumpless := bit d 110, freeze := bit d 109, ramp := bit d 108,
    coef := fld d 107 96, ins := [fld d 87 77, fld d 76 66, fld d 65 55, fld d 54 44], param := fld d 43 28 }

/-- Outputs of a type (Table 4.3). -/
def elemOutputs (t : Nat) : Nat := nth [0, 1, 1, 1, 3, 1, 1, 1, 2, 1, 3, 3, 3, 2, 1, 1, 3, 1, 1] t 0

/-- Coefficient words of an element (Table 4.3). -/
def Elem.words (e : Elem) : Nat := if e.typ == 13 then 2 * e.param else nth [0, 5, 2, 2, 5, 7, 7, 4, 2, 3, 0, 0, 7, 0, 0, 2, 2, 1, 0] e.typ 0

/-- States of a type (Table 4.3). -/
def elemStates (t : Nat) : Nat := nth [0, 0, 0, 0, 1, 2, 2, 1, 0, 1, 0, 0, 2, 0, 0, 1, 2, 1, 0] t 0

/-- Cycles of a type on one lane (Table 4.3). -/
def elemCost (t : Nat) : Nat := nth [0, 4, 2, 8, 8, 16, 6, 3, 2, 3, 16, 16, 14, 12, 2, 2, 2, 1, 8] t 0

/-- TYPE, RATE, PHASE and PARAM are as R119 and R433 admit them, for a graph of n inputs. -/
def Elem.typeOk (e : Elem) (n : Nat) : Bool :=
  let p := e.param
  let paramOk : Bool :=
    if e.typ == 4 || e.typ == 5 || e.typ == 8 then p ≤ 1
    else if e.typ == 13 then 2 ≤ p && p ≤ 64
    else if e.typ == 16 then p == 2 ^ 15 || p < min n 256
    else if e.typ == 18 then p ≤ 7
    else p == 0
  1 ≤ e.typ && e.typ ≤ 18 && e.rate ≤ 6 && e.phase < 2 ^ e.rate && paramOk

/-- The element runs in period k (R119). -/
def Elem.runs (e : Elem) (k : Nat) : Bool := k % 2 ^ e.rate == e.phase

/-- 0.5, 2.0, 3.0, -0.5, 1/sqrt(3), sqrt(3)/2, 2 pi, 65535.0 in F32. -/
def halfF : Nat := 0x3F000000
/-- 2.0. -/
def twoF : Nat := 0x40000000
/-- 3.0. -/
def threeF : Nat := 0x40400000
/-- -0.5. -/
def mhalfF : Nat := 0xBF000000
/-- 0.57735027. -/
def k3F : Nat := 0x3F13CD3A
/-- 0.8660254. -/
def k8F : Nat := 0x3F5DB3D7
/-- 6.2831855. -/
def tauF : Nat := 0x40C90FDB
/-- 65535.0. -/
def maxAgeF : Nat := 0x477FFF00

/-- clamp with hi = lo when lo > hi (R116). -/
def clampF (x lo hi : Nat) : Nat := fclamp fmt32 x lo (if ltF hi lo then lo else hi)

/-- floor in F32. -/
def floorF (x : Nat) : Nat :=
  match fdec fmt32 x with
  | .fin _ m _ => let z := fexact fmt32 x; if m == 0 then x else fofI fmt32 (floorE z.1 z.2) 0 false
  | _ => x

/-- pi * 2^100, truncated. -/
def piFix : Nat := 3982441812995697363688351113952

/-- The sum of n terms of a power series in fixed point at 2^-100: term i + 1 is term i times z / (d i), z the square of the argument with its sign changed. -/
def series (z : Int) (d : Nat → Nat) : Nat → Nat → Int → Int
  | 0, _, _ => 0
  | n + 1, i, t => t + series z d n (i + 1) (t * z / ((2 ^ 100 * d i : Nat) : Int))

/-- sin of an angle from 0 to 2 pi, both times 2^100. -/
def sinFix (a : Int) : Int := series (-(a * a / 2 ^ 100)) (fun i => (2 * i + 2) * (2 * i + 3)) 32 0 a

/-- cos of an angle from 0 to 2 pi, both times 2^100. -/
def cosFix (a : Int) : Int := series (-(a * a / 2 ^ 100)) (fun i => (2 * i + 1) * (2 * i + 2)) 32 0 (2 ^ 100)

/-- The sum of n terms of arctan's series: power p, its quotient by 2 i + 1. -/
def atanSeries (z : Int) : Nat → Nat → Int → Int
  | 0, _, _ => 0
  | n + 1, i, p => p / ((2 * i + 1 : Nat) : Int) + atanSeries z n (i + 1) (p * z / 2 ^ 100)

/-- Half the angle of a tangent: t / (1 + sqrt (1 + t^2)). -/
def halfTan (t : Nat) : Nat := t * 2 ^ 100 / (2 ^ 100 + isqrt (2 ^ 200 + t * t))

/-- arctan of a tangent from 0 to 1, both times 2^100. -/
def atanFix (t : Nat) : Int := let h := halfTan (halfTan t); 4 * atanSeries (-((h * h / 2 ^ 100 : Nat) : Int)) 28 0 h

/-- A finite pattern times 2^100, truncated. -/
def fixF (x : Nat) : Int := let z := fexact fmt32 x; floorE z.1 (z.2 + 100)

/-- The angle of the point (x, y), two finite patterns, times 2^100, in the range -pi to pi; the sign of a zero y counts, and the origin has angle 0 or pi by the sign of x. -/
def atan2Fix (y x : Nat) : Int :=
  let p := fexact fmt32 y
  let q := fexact fmt32 x
  let k := min p.2 q.2
  let a := p.1.natAbs * 2 ^ (p.2 - k).toNat
  let b := q.1.natAbs * 2 ^ (q.2 - k).toNat
  let t : Int := if a == 0 && b == 0 then 0 else if a ≤ b then atanFix (a * 2 ^ 100 / b) else (piFix : Int) / 2 - atanFix (b * 2 ^ 100 / a)
  let h := if bit x 31 then (piFix : Int) - t else t
  if bit y 31 then -h else h

/-- A free value v where it is finite and within 2^-22 of the value a (times 2^100), else a itself rounded: what R109 leaves a trigonometric result (log entry 5). -/
def within22 (a : Int) (v : Nat) : Nat :=
  if ffinite fmt32 v && (fixF v - a).natAbs ≤ 2 ^ 78 then fflush fmt32 v else fofI fmt32 a (-100) false

/-- 2^15 in F32. -/
def trigArgF : Nat := 0x47000000
/-- pi. -/
def piF : Nat := 0x40490FDB

/-- A finite argument of magnitude at most 2^15 (R109). -/
def trigArg (x : Nat) : Bool := leF (absF x) trigArgF

/-- sin: free within the error that R109 allows, free beyond its arguments (log entry 5). -/
def sinF (x : Nat) : Nat :=
  let v := fflush fmt32 (low 32 (Config.trig 0 x))
  if trigArg x then within22 (sinFix (fixF x % (2 * piFix : Nat))) v else v
/-- cos. -/
def cosF (x : Nat) : Nat :=
  let v := fflush fmt32 (low 32 (Config.trig 1 x))
  if trigArg x then within22 (cosFix (fixF x % (2 * piFix : Nat))) v else v
/-- atan2, in the range of R109. -/
def atan2F (y x : Nat) : Nat :=
  let v := fflush fmt32 (low 32 (Config.atan2 y x))
  if trigArg y && trigArg x then clampF (within22 (atan2Fix y x) v) (negF piF) piF
  else if ffinite fmt32 y && ffinite fmt32 x && !leF (absF v) piF then 0 else v

/-- A truth value as F32. -/
def boolF (b : Bool) : Nat := if b then oneF else zeroF

/-- Word i of a list of F32 values. -/
def wordAt (l : List Nat) (i : Nat) : Nat := l.getD i 0

/-- The largest index i of a list's first n words with word i at most x. -/
def lastLe (l : List Nat) (n x : Nat) : Nat := ((List.range n).filter fun i => leF (wordAt l i) x).getLastD 0

/-- The outputs and new states of an element: x inputs, c block, s states, te its step in seconds, good whether the input PARAM[7:0] is good (R116). -/
def Elem.eval (e : Elem) (x c s : List Nat) (te : Nat) (good : Bool) : List Nat × List Nat :=
  let x0 := wordAt x 0
  let x1 := wordAt x 1
  let x2 := wordAt x 2
  let x3 := wordAt x 3
  let c0 := wordAt c 0
  let c1 := wordAt c 1
  let c2 := wordAt c 2
  let c3 := wordAt c 3
  let c4 := wordAt c 4
  let s0 := wordAt s 0
  let s1 := wordAt s 1
  let p0 := bit e.param 0
  match e.typ with
  | 1 => ([fmaF c4 x3 (fmaF c3 x2 (fmaF c2 x1 (fmaF c1 x0 c0)))], [])
  | 2 => ([fmaF (mulF c0 x0) x1 c1], [])
  | 3 => ([if ltF (absF x1) c0 then c1 else divF x0 x1], [])
  | 4 =>
    let lo := if p0 then x2 else c2
    let hi := if p0 then x3 else c3
    let u := fmaF c0 x0 s0
    let d := mulF c1 x0
    let stop : Bool := (ltF hi u && ltF 0 d) || (ltF u lo && ltF d 0) || (leF halfF x1 && ltF 0 (mulF d u))
    ([clampF u lo hi, s0, boolF (ltF u lo || ltF hi u)], [if stop then s0 else clampF (addF s0 d) lo hi])
  | 5 =>
    let w := mulF (if p0 then x1 else c1) te
    let cs := cosF w
    let sn := sinF w
    let k := subF oneF c2
    ([fmaF c3 s0 (negF (mulF c4 s1))],
     [fmaF c0 x0 (mulF k (subF (mulF cs s0) (mulF sn s1))), mulF k (addF (mulF sn s0) (mulF cs s1))])
  | 6 =>
    let y := fmaF c0 x0 s0
    ([y], [fmaF c1 x0 (fmaF (negF c3) y s1), fmaF c2 x0 (negF (mulF c4 y))])
  | 7 =>
    let y := fmaF c0 x0 s0
    ([y], [fmaF c1 x0 (negF (mulF c2 y))])
  | 8 =>
    let y := clampF x0 (if p0 then x1 else c0) (if p0 then x2 else c1)
    ([y, boolF (ltF y x0 || ltF x0 y)], [])
  | 9 =>
    let y := addF s0 (clampF (subF x0 s0) (negF (fmax fmt32 c1 0)) (fmax fmt32 c0 0))
    ([y], [y])
  | 10 =>
    let al := divF (subF (subF (mulF twoF x0) x1) x2) threeF
    let be := mulF (subF x1 x2) k3F
    let cs := cosF x3
    let sn := sinF x3
    ([fmaF al cs (mulF be sn), fmaF be cs (negF (mulF al sn)), divF (addF (addF x0 x1) x2) threeF], [])
  | 11 =>
    let cs := cosF x3
    let sn := sinF x3
    let al := fmaF x0 cs (negF (mulF x1 sn))
    let be := fmaF x0 sn (mulF x1 cs)
    let h := mulF mhalfF al
    ([addF al x2, addF (fmaF k8F be h) x2, addF (fmaF (negF k8F) be h) x2], [])
  | 12 =>
    let v := addF c0 (fmaF c1 x0 s0)
    let w := clampF v c3 c4
    let d := mulF c2 x0
    let stop : Bool := (ltF c4 v && ltF 0 d) || (ltF v c3 && ltF d 0)
    let t := fmaF w te s1
    ([s1, w, x0], [if stop then s0 else addF s0 d, subF t (mulF tauF (floorF (divF t tauF)))])
  | 13 =>
    let n := e.param
    let y : Nat × Nat :=
      if fisNan fmt32 x0 then (fmt32.nan, 0)
      else if ltF x0 c0 then (wordAt c n, 0)
      else if leF (wordAt c (n - 1)) x0 then (wordAt c (2 * n - 1), n - 1)
      else
        let i := lastLe c n x0
        (fmaF (subF (wordAt c (n + i + 1)) (wordAt c (n + i))) (divF (subF x0 (wordAt c i)) (subF (wordAt c (i + 1)) (wordAt c i))) (wordAt c (n + i)), i)
    ([y.1, f32OfI y.2], [])
  | 14 =>
    let z := fexact fmt32 (addF x0 halfF)
    let i := if ffinite fmt32 x0 then (clampI (floorE z.1 z.2) 0 2).toNat else 0
    ([wordAt x (1 + i)], [])
  | 15 =>
    let n := if eqF s0 0 && ltF (addF x1 c0) x0 then oneF else if eqF s0 oneF && ltF x0 (subF x1 c0) then zeroF else s0
    ([n], [n])
  | 16 =>
    let fresh : Bool := if bit e.param 15 then leF halfF x1 else good
    if fresh then ([x0, 0, oneF], [x0, 0])
    else
      let a := fmin fmt32 (addF s1 oneF) maxAgeF
      ([s0, a, 0], [s0, a])
  | 17 => ([s0], [x0])
  | 18 =>
    let y := match e.param with
      | 0 => absF x0
      | 1 => fsqrt fmt32 (fmax fmt32 x0 0)
      | 2 => sinF x0
      | 3 => cosF x0
      | 4 => atan2F x0 x1
      | 5 => fmin fmt32 x0 x1
      | 6 => fmax fmt32 x0 x1
      | _ => fsqrt fmt32 (fmaF x0 x0 (mulF x1 x1))
    ([y], [])
  | _ => ([], [])

/-- The same with no subnormal among outputs and states (R109). -/
def Elem.evalFlush (e : Elem) (x c s : List Nat) (te : Nat) (good : Bool) : List Nat × List Nat :=
  let r := e.eval x c s te good
  (r.1.map (fflush fmt32), r.2.map (fflush fmt32))

/-- The compensation of R118: the state s0 of PI, LL and BIQ for a changed c0. -/
def Elem.compensate (e : Elem) (c0old c0new x0 : Nat) (s : List Nat) : List Nat :=
  if e.bumpless && (e.typ == 4 || e.typ == 6 || e.typ == 7) && c0old != c0new then
    match s with
    | s0 :: t => fmaF (subF c0old c0new) x0 s0 :: t
    | [] => []
  else s

/-- Te of an element for a period of t ticks, in seconds (R115). -/
def Elem.step (e : Elem) (t : Nat) : Nat := fratio fmt32 false (2 ^ e.rate * t) 400000000 0

/-- Output 0 in period k0 + j of a ramp (R120). -/
def rampValue (old new rate j : Nat) : Nat :=
  addF old (divF (mulF (subF new old) (f32OfI (min (j + 1) (2 ^ rate) : Nat))) (f32OfI (2 ^ rate : Nat)))

/-- The position of a level packing (R121): accumulated cycles per lane. -/
def placeLane (loads : List Nat) : Nat :=
  let m := loads.foldl min (loads.getD 0 0)
  (List.range loads.length).find? (fun i => loads.getD i 0 == m) |>.getD 0

end Sys2Proof.Machine
end

