-- ==== Sys2Proof/Machine/OpsLag.lean ====
section
/-! DEFINITION. The minimum apply lag, the stage minimum, the arrival bound and TIM_LAG_STATUS at the apex (R33, R37 to R40), in picoseconds. -/
namespace Sys2Proof.Machine

/-- The slot of a frame of len bytes at a rate code (R146), in picoseconds, exact for every rate of Table 5.1. -/
def slotPs (len rate : Nat) : Nat :=
  match rate with
  | 0 => (len + 8) * 8000
  | 1 => (len + 8) * 4000
  | 2 => (len / 8 + 2) * 12800
  | _ => (len / 8 + 2) * 6400

/-- KIND of lane n in a LANE report: 0 piste, 1 group, 2 parent, 3 peer (R362). -/
def laneKind (n : Nat) (s : State) : Nat :=
  if n ≥ 66 then 3 else if n ≥ 64 then 2 else if (groupLinks s).contains n then 1 else 0

/-- Piste length taken on a downlink; 0 where unknown. -/
def pisteLen (n : Nat) (s : State) : Nat := (aget s.tree.pistes n).getD 0

/-- A one-way delay as the LANE report carries it: picoseconds, none below 0. -/
def delayPs (d : Nat) (asym : Int) : Nat := low 32 ((d : Int) + asym).toNat

/-- The entry of an own lane (R180, R362). -/
def ownEntry (n : Nat) (s : State) : LaneEntry :=
  let d := rd (O.TIM_LANE_DELAY n) s
  let a := rdI 32 (O.TIM_ASYM n) s
  { lane := n, rate := rd (O.LNK_RATE n) s, cells := pisteLen n s, kind := laneKind n s, dIn := delayPs d a, dOut := delayPs d (-a) }

/-- The downlink entries of a node of the system as the apex holds them. -/
def entriesOf (node : Nat) (s : State) : List LaneEntry :=
  if node == nodeNum s then (s.tree.pistes ++ s.tree.kids).map fun e => ownEntry e.1 s
  else ((s.tree.reps.filter fun r => r.node == node).map (·.entry)).filter fun e => e.kind ≤ 1

/-- The child on a downlink of a node, by enumeration. -/
def childOn (node link : Nat) (s : State) : Option Nat := (s.tree.nodes.find? fun t => t.parent == node && t.link == link && t.num != node).map (·.num)

/-- report_done of R37. -/
def reportDone : Nat → Nat → State → Nat
  | 0, _, _ => 0
  | f + 1, node, s =>
    maxL ((entriesOf node s).map fun e =>
      if e.kind == 0 then 250000 + e.cells * slotPs 64 e.rate + e.dIn
      else match childOn node e.lane s with
        | some c => reportDone f c s + 100000 + e.dIn + slotPs 256 e.rate
        | none => 0)

/-- cmd_done of R37. -/
def cmdDone : Nat → Nat → Nat → State → Nat
  | 0, _, _, _ => 0
  | f + 1, node, tRef, s =>
    maxL ((entriesOf node s).map fun e =>
      if e.kind == 0 then max tRef (reportDone 6 node s) + 600000 + e.dOut + slotPs 128 e.rate
      else match childOn node e.lane s with
        | some c => cmdDone f c (tRef + 300000 + e.dOut + slotPs 128 e.rate) s
        | none => 0)

/-- t_cmd of R37 for law outputs at law1; an apex with pistes forwards nothing. -/
def cmdAll (law1 : Nat) (s : State) : Nat :=
  if s.tree.kids.isEmpty then cmdDone 6 (nodeNum s) law1 s
  else maxL ((entriesOf (nodeNum s) s).map fun e =>
    match childOn (nodeNum s) e.lane s with
    | some c => cmdDone 6 c (law1 + e.dOut + slotPs 128 e.rate) s
    | none => 0)

/-- A node is known to serve pistes. -/
def servesPistes (node : Nat) (s : State) : Bool :=
  (entriesOf node s).any (fun e => e.kind == 0) || s.tree.nodes.any fun t => t.num == node && !t.pistes.isEmpty

/-- From the launch of a node's frames to the end of the command at its farthest cell: hops, slots, and the stages of R32 in the nodes between, as far as this node holds delays [ps] (R35, log entry 67). -/
def reachPs : Nat → Nat → State → Nat
  | 0, _, _ => 0
  | f + 1, node, s =>
    maxL ((entriesOf node s).map fun e =>
      e.dOut + slotPs 128 e.rate + (if e.kind == 0 then 0 else match childOn node e.lane s with
        | some c => (if servesPistes c s then 600000 else 300000) + reachPs f c s
        | none => 0))

/-- Ticks in picoseconds. -/
def tickPs (n : Nat) : Nat := n * 2500

/-- The stage minimum of R38 [ticks]. -/
def stageMin (s : State) : Nat :=
  let hop (e : LaneEntry) : Nat :=
    if e.kind == 0 then e.cells * slotPs 64 e.rate + slotPs 128 e.rate + 200000
    else max (slotPs 256 e.rate) (slotPs 128 e.rate) + 200000
  let nodes := nodeNum s :: (s.tree.nodes.map (·.num)).filter (· != nodeNum s)
  max (rd O.LAW_WCET s) (ceilDiv (maxL (nodes.flatMap fun n => (entriesOf n s).map hop)) 2500)

/-- The downlinks on which a node's lane to its parent and its pistes lie have been reported (R362). -/
def laneReported (node link : Nat) (s : State) : Bool := (entriesOf node s).any fun e => e.lane == link

/-- Every lane of the apex's system has passed L4 at least once (R40): each own downlink that carries a piste or a group, and of every other node a LANE report with each of its pistes, and its lanes to its parent in the parent's; the peer lanes join two systems and do not count (log entry 33). -/
def lagKnown (s : State) : Bool :=
  !s.tree.nodes.isEmpty && !(s.tree.pistes ++ s.tree.kids).isEmpty
    && (s.tree.pistes ++ s.tree.kids).all (fun e => (lane e.1 s).everL5)
    && s.tree.nodes.all (fun t => t.num == nodeNum s ||
        (s.tree.reps.any (fun r => r.node == t.num) && t.pistes.all (fun k => laneReported t.num k s)
          && (t.parent == nodeNum s || (t.link :: t.link1.toList).all fun k => laneReported t.parent k s)))

/-- t_in of R37 [ps]. -/
def tInPs (s : State) : Nat := reportDone 6 (nodeNum s) s

/-- The automatic law start of R33 [ticks]. -/
def autoStart (t : Nat) : Nat := ceilDiv t 250000 * 100

/-- TIM_LAG_MIN of R37 [ticks]. -/
def lagMin (s : State) : Nat :=
  let st := rd O.TIM_LAW_START s
  let law0 := if st == 0 then tickPs (autoStart (tInPs s)) else tickPs st
  ceilDiv (cmdAll (law0 + tickPs (rd O.LAW_WCET s)) s + tickPs (rd O.TIM_CMD_GUARD s)) 2500

/-- TIM_LAG_STATUS and LAG_SHORT by the figures held (R40). -/
def lagStatus (s : State) : State :=
  if !lagKnown s then setLive 204 false 0 (wr O.TIM_LAG_STATUS 2 (wr O.TIM_LAG_MIN 0 (wr O.TIM_STAGE_MIN 0 s)))
  else
    let short : Bool := rd O.TIM_LAG_MIN s > rd O.TIM_APPLY_LAG s || rd O.TIM_STAGE_MIN s > rd O.TIM_PERIOD s
      || s.tree.tIn > tickPs (rd O.TIM_LAW_START_EFF s)
    setLive 204 short 0 (wr O.TIM_LAG_STATUS (b2n short) s)

/-- A notice of an object's own value to the duplicate (R39, R357, log entry 49). -/
def noticePeer (k : Nat) (s : State) : State :=
  let m : ObjMsg := { reqId := s.rem.nextId, op := 3, status := 0, index := k / 256, sub := k % 256, count := 1, tryN := 0, proxy := false, commission := false,
                      tgt := 0, data := beBytes 4 (rd k s) }
  sendToNode 5 0 (nodeNum s) (!sideB s) (.obj m) { s with rem := { s.rem with nextId := (s.rem.nextId + 1) % 65536 } }

/-- The apex sends its figures to its duplicate (R39). -/
def sendFigures (s : State) : State :=
  if inL5 (peerLane s) s then noticePeer O.TIM_STAGE_MIN (noticePeer O.TIM_LAG_MIN s) else s

/-- The recomputation of R40 at the apex. A figure above its object's range is cut to it, 160,000 and 40,000, in the comparison of R40 too (log entry 33). -/
def lagRecompute (s : State) : State :=
  if !isApex s then s
  else if !lagKnown s then sendFigures (lagStatus s)
  else
    let t := tInPs s
    let s := { s with tree := { s.tree with tIn := t } }
    let s := wr O.TIM_LAG_MIN (min 160000 (lagMin s)) (wr O.TIM_STAGE_MIN (min 40000 (stageMin s)) s)
    let s :=
      if rd O.TIM_LAW_START s == 0 && !anyDeblocked s then
        let e := min 160000 (autoStart t)
        if e == rd O.TIM_LAW_START_EFF s then s else buildSet (wr O.TIM_LAW_START_EFF e s)
      else s
    sendFigures (lagStatus s)

/-- The number for the node at a position: the one held for it, else the lowest not yet given (R23); with all of 1 to 63 given there is none, and the node is refused (log entry 34). -/
def joinNumber (held : List ((Nat × Nat) × Nat)) (parent link : Nat) : Option Nat :=
  match aget held (parent, link) with
  | some n => some n
  | none => (List.range 64).find? fun n => n != 0 && !(held.any fun h => h.2 == n)

/-- Where TREE_ENUM_STATUS has more than one refusal to show, MIXED stands before TOO_DEEP before TOO_MANY (log entry 34). -/
def refusalRank (c : Nat) : Nat := if c == 5 then 3 else if c == 3 then 2 else if c == 4 then 1 else 0

/-- A refusal after enumeration has completed (R18, R21, R22). -/
def enumRefuse (c : Nat) (s : State) : State :=
  let x := rd O.TREE_ENUM_STATUS s
  if 2 ≤ x && refusalRank x < refusalRank c then wr O.TREE_ENUM_STATUS c s else s

/-- The downlink of a node already taken whose U0 lane has the partner that a downlink's U1 lane has, by the serial number of CAP (R19). -/
def sameNode (link : Nat) (s : State) : Option (Nat × Nat) :=
  match (lane link s).cap with
  | some c => if c.lane == laneU1 then s.tree.kids.find? (fun e => match (lane e.1 s).cap with | some d => d.lane == laneU0 && d.serial == c.serial | none => false) else none
  | none => none

/-- A child of this node is on a downlink that carries none yet: the apex numbers it, a node that serves pistes refuses it (R18, R21 to R23). A node below another node joins by the ENUMERATION that lists it. -/
def nodeJoin (link : Nat) (s : State) : State :=
  if s.tree.nodes.isEmpty || (aget s.tree.kids link).isSome then s
  else if !s.tree.pistes.isEmpty then enumRefuse 5 s
  else if !isApex s then s
  else match sameNode link s with
  | some e =>
    { s with tree := { s.tree with kids := aset s.tree.kids link e.2,
                                   nodes := s.tree.nodes.map fun t => if t.num == e.2 then { t with link1 := some link } else t } }
  | none =>
    if s.tree.nodes.length ≥ 64 then enumRefuse 4 s
    else match joinNumber s.tree.held (nodeNum s) link with
    | none => enumRefuse 4 s
    | some n =>
      let t : TreeNode := { num := n, parent := nodeNum s, link := link, link1 := none, dist := 1, pistes := [] }
      let s := { s with tree := { s.tree with nodes := s.tree.nodes ++ [t], held := aset s.tree.held (nodeNum s, link) n,
                                              routes := aset s.tree.routes n link, kids := aset s.tree.kids link n } }
      wr O.TREE_DOWNLINK_KIND 2 (wr O.TREE_NODE_COUNT s.tree.nodes.length s)

end Sys2Proof.Machine
end

