-- ==== Sys2Proof/Machine/OpsLnk.lean ====
section
/-! DEFINITION. Lanes as shared operations: stages of the lift ladder, back-off, training failures, pairings and rates, pistes and positions, routes, and what follows from a lane that enters or leaves L5 (R16, R17, R26, R149 to R174, R218, R400). -/
namespace Sys2Proof.Machine

/-- The lane exists and is not held off by R24. -/
def laneHere (n : Nat) (s : State) : Bool := n < 68 && s.straps.laneOn n

/-- The highest rate code of the role (R140). -/
def roleRate (s : State) : Nat := if isNode s then 3 else 2

/-- The partner of the latest CAP is a node. -/
def partnerNode (n : Nat) (s : State) : Bool := match (lane n s).cap with | some c => c.roleNode | none => false

/-- The partner of the latest CAP is a cell. -/
def partnerCell (n : Nat) (s : State) : Bool := match (lane n s).cap with | some c => !c.roleNode | none => false

/-- Lane n is a piste hop: a lane of a cell, or a downlink with a cell behind it (R164). -/
def pisteHop (n : Nat) (s : State) : Bool := isCell s || (n < 64 && partnerCell n s)

/-- Downlink k carries a piste (R174). -/
def carriesPiste (k : Nat) (s : State) : Bool := isNode s && k < 64 && (partnerCell k s || (aget s.tree.pistes k).isSome)

/-- LANE_DOWN of lane n: LNK_EXPECT is 1, and NO_PARTNER is set or the lane has been in L5 and is not now (R432). -/
def updLaneDown (n : Nat) (s : State) : State :=
  setLive (32 + n) (rd (O.LNK_EXPECT n) s == 1 && (rdBit (O.LNK_STATUS n) 3 s || ((lane n s).everL5 && !inL5 n s))) n s

/-- WIRING: a lane is in WIRING, or RED_WIRING_DIFF is not 0 (R432). -/
def updWiring (s : State) : State :=
  setLive 202 ((List.range 68).any (fun n => stage n s == 6) || rd O.RED_WIRING_DIFF s != 0) 0 s

/-- The peer is lost: P0 and P1 both out of L5 after one of them has been in it (R218, R432). -/
def updPeerLost (s : State) : State :=
  if !isNode s then s
  else
    let lost := !inL5 laneP0 s && !inL5 laneP1 s
    let ever := (lane laneP0 s).everL5 || (lane laneP1 s).everL5
    let s := setLive 214 (lost && ever) 0 s
    if lost then wr O.RED_INSTEP_RUN 0 s else s

/-- Bit k of BAL_SPLIT_PISTES and the source of the piste (R174). -/
def updSplit (k : Nat) (s : State) : State :=
  let st := rd (O.LNK_PISTE_STATE k) s
  let b : Bool := (st == 2 || st == 3) && rd (O.BAL_LINK_ARM k) s ≤ 5
  setLive (100 + k) b k (wrBit O.BAL_SPLIT_PISTES k b s)

/-- LNK_PISTE_STATE of downlink k on what its lane shows; WHOLE is entered by the hold alone (R174). -/
def updPiste (k : Nat) (s : State) : State :=
  if !isNode s || k ≥ 64 then s
  else
    let l := lane k s
    let st := if !carriesPiste k s then 0 else if !inL5 k s then 3 else if l.hops == 31 then 2 else if rd (O.LNK_PISTE_STATE k) s == 1 then 1 else 2
    updSplit k (wr (O.LNK_PISTE_REACH k) (min 30 l.behind) (wr (O.LNK_PISTE_FAR_LEN k) l.hops (wr (O.LNK_PISTE_STATE k) st s)))

/-- A cell's index from its position and its piste, kept once taken (R15 to R17, R173, R400). -/
def cellIndex (s : State) : State :=
  match s.tree.pistes with
  | (k, len) :: _ =>
    if indexed s || nodeNum s == 0xFF || !(inL5 laneU0 s || inL5 laneU1 s) then s
    else
      let p := rd O.LNK_CELL_POS_A s
      let h := rd O.LNK_CELL_HOPS_B s
      let pos := if p != 31 then some p else if h != 31 && len != 0 && h < len then some (len - 1 - h) else none
      match pos with
      | some q => if q ≤ 15 then readyEval (wr O.TREE_CELL_INDEX (k * 16 + q) s) else s
      | none => s
  | [] => s

/-- A leaf node takes a piste's length and the cells it can index from what its downlink hears (R16, R17, R400). -/
def pisteLearn (k : Nat) (s : State) : State :=
  if !isNode s || !carriesPiste k s || !inL5 k s then s
  else if !s.tree.kids.isEmpty then enumRefuse 5 s
  else
    let l := lane k s
    let cfg := rd (O.TREE_PISTE_LEN k) s
    let whole := l.hops != 31
    let len := if whole then l.hops else cfg
    let s := { s with tree := { s.tree with pistes := if len == 0 then (if (aget s.tree.pistes k).isSome then s.tree.pistes else aset s.tree.pistes k 0) else aset s.tree.pistes k len } }
    let s := if l.behind > 16 || (whole && l.hops > 16) then wrBit O.TREE_PISTE_OVERLONG k true s else s
    let s := if whole && cfg != 0 then wrBit O.TREE_PISTE_MISMATCH k (cfg != l.hops) s else s
    let s := setLive 217 (rd O.TREE_PISTE_MISMATCH s != 0) k s
    let reach := min 16 l.behind
    let pos := if !sideB s then List.range reach
      else if len == 0 then [] else (List.range reach).filterMap fun h => if h < len && len - 1 - h ≤ 15 then some (len - 1 - h) else none
    let cells := pos.foldl (fun c p => addTo c (k * 16 + p)) s.tree.cells
    let s := if rd O.TREE_ENUM_STATUS s ≥ 2 then wr O.TREE_DOWNLINK_KIND 1 s else s
    wr O.TREE_CELL_COUNT cells.length { s with tree := { s.tree with cells := cells } }

/-- REF of a cell (R26, R189): the first uplink to reach L1; the uplink of the lineage applied, where it is in L2 or above; the other one once the REF lane is out of lock; the last frequency held for 1 s where neither serves. -/
def refEval (s : State) : State :=
  if !isCell s then s
  else
    let lin := if s.tim.onB then laneU1 else laneU0
    let oth := if s.tim.onB then laneU0 else laneU1
    let up (n : Nat) : Bool := 2 ≤ stage n s && stage n s ≤ 5
    let low (n : Nat) : Bool := 1 ≤ stage n s && stage n s ≤ 6
    match s.tim.refLane with
    | none =>
      let r := if low laneU0 then some laneU0 else if low laneU1 then some laneU1 else none
      match r with
      | some n =>
        let s := { s with tim := { s.tim with refLane := some n, refHoldEnd := none } }
        wrBit (O.LNK_STATUS laneU0) 7 true (wrBit (O.LNK_STATUS laneU1) 7 true s)
      | none => s
    | some n =>
      if up lin then { s with tim := { s.tim with refLane := some lin, refHoldEnd := none } }
      else if low n then { s with tim := { s.tim with refHoldEnd := none } }
      else if up oth then { s with tim := { s.tim with refLane := some oth, refHoldEnd := none } }
      else { s with tim := { s.tim with refHoldEnd := some (s.tim.refHoldEnd.getD (s.tick + ms 1000)) } }

/-- A frame that has crossed the piste from the duplicate (R160). -/
def crossed (n : Nat) (h : Hdr) (s : State) : Bool := n < 64 && carriesPiste n s && h.dstSide != sideB s

/-- The lanes a node's router passes a frame on to (R160). -/
def nodeOut (h : Hdr) (s : State) : List Nat :=
  let num := h.dst / 1024
  if num == nodeNum s && h.dstNode && h.dstSide != sideB s then [peerLane s]
  else if num == nodeNum s && h.bcast then upOf downlinks s
  else if num == nodeNum s && h.dstNode then []
  else if num == nodeNum s then [fld h.dst 9 4]
  else match s.tree.routes.find? (fun r => r.1 == num) with
  | some r => [r.2]
  | none => if isApex s then [] else [upLane s]

/-- The lanes a frame that arrives on lane n with SOF class cls is passed on to: a cell's other lane whatever its DST, a node's by its header (R149, R157, R160). -/
def passLanes (n cls : Nat) (b : List Nat) (s : State) : List Nat :=
  let h := hdrOf b
  if cls == 0 || h.hop then []
  else if isCell s then [if n == laneU0 then laneU1 else laneU0]
  else if b.length < 8 || crossed n h s then []
  else nodeOut h s

/-- Ticks that a frame takes on lane n, from the first bit of its SOF to its end (R146). -/
def slotTicks (n len : Nat) (s : State) : Nat := slotPs len (rd (O.LNK_RATE n) s) / 2500

/-- A frame passed on to lane o, with the mark of a bad end, or discarded where o is not in L5 (R157, R160). It reached the output with its SOF, and takes room for the whole of LEN_B (R153, R158). -/
def passOn (n : Nat) (f : RxFrame) (bad : Bool) (o : Nat) (s : State) : State :=
  let len := if f.bytes.length < 2 then f.bytes.length else 8 * (nth f.bytes 1 0 + 1)
  let born := if f.born == s.tick then s.tick - slotTicks n f.bytes.length s else f.born
  if inL5 o s then enqueue o { cls := f.cls, len := len, reserve := false, ahead := false, born := born, body := .fwd f.bytes bad } s
  else bump (O.LNK_FWD_DISCARD n) s

/-- A frame of lane n that is cut off, or suspended and not resumed: discarded and counted once, and a copy being passed on ends with EOF_BAD (R152, R159). -/
def discardRx (n : Nat) (f : RxFrame) (s : State) : State :=
  each (passLanes n f.cls f.bytes s) (passOn n f true) (bump (O.LNK_RX_INVALID n) s)

/-- The frames in progress on the receiver of lane n are cut off (R159). -/
def cutRx (n : Nat) (s : State) : State :=
  let l := lane n s
  each (l.rx.toList ++ l.rxSusp.map (·.1)) (discardRx n) (updLane n (fun x => { x with rx := none, rxSusp := [] }) s)

/-- The frames begun on the transmitter of lane n are cut off, and what waits for a gap goes with them (R157). -/
def cutTx (n : Nat) (s : State) : State :=
  let l := lane n s
  let s := each (l.cur.toList ++ l.susp) (fun i => bump (O.LNK_TX_DROP i.cls n)) s
  updLane n (fun x => { x with cur := none, susp := [], wait := [] }) s

/-- What a lane loses with its line: its queued frames, counted, and the frames it was receiving (R159, Table 5.9). -/
def dropQueues (n : Nat) (s : State) : State :=
  let s := cutRx n (cutTx n s)
  let s := each (lane n s).q (fun i => bump (O.LNK_TX_DROP i.cls n)) s
  updLane n (fun x => { x with q := [] }) s

/-- The LINK_STATE that lane n sends (R172). -/
def linkStateOf (n : Nat) (s : State) : Nat × Nat :=
  if isNode s then (0, 0)
  else
    let f := if n == laneU0 then laneU1 else laneU0
    if inL5 f s then
      let l := lane f s
      (if l.hops == 31 then 31 else min 30 (l.hops + 1), min 30 (1 + l.behind))
    else (31, 1)

/-- LINK_STATE sent on lane n at the next point R154 allows. -/
def sayLinkState (n : Nat) (s : State) : State :=
  let v := linkStateOf n s
  updLane n (fun x => { x.say (.sym (.linkState v.1 v.2) 1) with lsSaid := some v }) s

/-- A LINK_STATE value that has changed is sent on each piste lane in L5 (R172). -/
def lsChange (l : List Nat) (s : State) : State :=
  each l (fun n s => if inL5 n s && pisteHop n s && (lane n s).lsSaid != some (linkStateOf n s) then sayLinkState n s else s) s

/-- The piste lanes whose LINK_STATE may change with lane n: a cell's two, a node's own. -/
def lsLanes (n : Nat) (s : State) : List Nat := if isCell s then [laneU0, laneU1] else [n]

/-- After lane n has changed its stage: what was in progress on a lane that has left L5 is cut off (R157, R159). -/
def afterStage (n : Nat) (was5 : Bool) (s : State) : State :=
  let s := if was5 && !inL5 n s then cutRx n (cutTx n (updLane n (fun x => { x with hops := 31, behind := 0, knownAt := none, lsAt := none, lsSaid := none }) s))
    else updLane n (fun x => { x with rx := none, rxSusp := [] }) s
  let s := refEval (updWiring (updLaneDown n s))
  let s := if n ≥ 66 then updPeerLost s else if isNode s then updPiste n s else s
  lsChange (lsLanes n s) s

/-- Lane n enters a stage. -/
def goStage (n st : Nat) (s : State) : State :=
  let was := inL5 n s
  let s := updLane n (fun x => { x with entered := s.tick }) (wr (O.LNK_STAGE n) st s)
  afterStage n was s

/-- The state of a lane below L2: what its partner has said is forgotten. -/
def forget (n : Nat) (s : State) : State :=
  updLane n (fun x => { x with capSent := false, capAt := none, rate := none, rxLocked := false, partnerLocked := false, ownPass := none, partnerPass := none }) s

/-- L0 without back-off: PRESENCE with HOLDOFF 0, and no back-off in force. -/
def toL0 (n : Nat) (s : State) : State :=
  let s := wr (O.LNK_STATUS n) (clrBit (clrBit (rd (O.LNK_STATUS n) s) 4) 6) (wr (O.LNK_RATE n) 0 (wr (O.LNK_BACKOFF_NOW n) 0 (forget n s)))
  updLane n (fun x => { x with out := [.sym (.presence false) 1] }) (goStage n 0 (updLane n (fun x => { x with presence := none, backoffEnd := none }) s))

/-- L0 with back-off (R166); LNK_BACKOFF_NOW shows b. -/
def backoffL0 (n : Nat) (s : State) : State :=
  let l := lane n s
  let b := if l.consecutive == 0 then rd O.LNK_BACKOFF_MIN s else min (2 * l.b) (rd O.LNK_BACKOFF_MAX s)
  let s := toL0 n s
  let s := updLane n (fun x => { x with b := b, consecutive := x.consecutive + 1, backoffEnd := some (s.tick + ms b), out := [.sym (.presence true) 1] }) s
  wrBit (O.LNK_STATUS n) 4 true (wr (O.LNK_BACKOFF_NOW n) b s)

/-- Loss of the line in L1 to L5 or WIRING (Table 5.9): the cause, back-off, queued frames counted. -/
def lineLost (n cause : Nat) (s : State) : State :=
  if 1 ≤ stage n s && stage n s ≤ 6 then backoffL0 n (dropQueues n (wr (O.LNK_LAST_FAIL n) cause s)) else s

/-- A ladder frame of this device on lane n. -/
def ladder (msg n : Nat) (s : State) : Ladder :=
  let l := lane n s
  let own := min (min (rd (O.LNK_RATE_CFG n) s) (rd (O.LNK_CEILING n) s)) (roleRate s)
  let tgt := fun x => match (lane x s).cap with | some c => c.target | none => 0xF
  let target :=
    if isCell s then
      (if tgt laneU0 == 0xF && tgt laneU1 == 0xF then 0xF
       else min (min (tgt laneU0) (tgt laneU1)) (min (rd (O.LNK_CEILING laneU0) s) (rd (O.LNK_CEILING laneU1) s)))
    else if n < 64 then min (min (rd (O.LNK_RATE_CFG n) s) (rd (O.LNK_CEILING n) s)) (tgt n) else 0xF
  { msg := msg, ver := 1, roleNode := isNode s, sideB := sideB s, restore := false, lane := n, rateMax := own, target := target,
    partnerOk := (match l.capAt with | some t => decide (s.tick ≤ t + us 30) | none => false),
    refReady := isNode s || s.tim.refLane.isSome, pass := l.ownPass == some true, rate := l.rate.getD 0, errors := rd (O.LNK_L3_ERRORS n) s,
    node := low 8 (nodeNum s), serial := low 64 (Config.made O.SYS_SERIAL) }

/-- L1: at 1.25 Gb/s again, sending CAP. -/
def toL1 (n : Nat) (s : State) : State :=
  let s := wrBit (O.LNK_STATUS n) 6 false (wr (O.LNK_RATE n) 0 (forget n s))
  goStage n 1 s

/-- The far-end loop at the partner: LOOP (R171). -/
def toLoop (partner : Bool) (n : Nat) (s : State) : State :=
  goStage n 7 (updLane n (fun x => { x with loopPartner := partner, loopAt := s.tick, loopLeave := none }) s)

/-- What follows once a lane has sent its ladder frames: L1 after RETRAIN, LOOP after LOOP_ACK (R171, Table 5.9). -/
def said (n : Nat) (o : LaneOut) (s : State) : State :=
  match o with
  | .ladder b _ => if nth b 0 0 == 5 && 2 ≤ stage n s && stage n s ≤ 5 then toL1 n s else if nth b 0 0 == 7 && inL5 n s then toLoop true n s else s
  | _ => s

/-- Send a ladder message a number of times: at once, or in the next gap between frames (R154). -/
def sendLadder (m : Ladder) (times n : Nat) (s : State) : State :=
  let o := LaneOut.ladder m.bytes times
  let l := lane n s
  let s := updLane n (LaneSt.say o) s
  if l.cur.isNone && l.susp.isEmpty then said n o s else s

/-- The pairing of own lane n with the sender of a CAP is listed in Table 5.8. -/
def pairingOk (n : Nat) (c : Ladder) (s : State) : Bool :=
  let same := c.sideB == sideB s
  if isNode s then
    if n < 64 then (if c.roleNode then (c.lane == 64 || c.lane == 65) && same else c.lane == (if sideB s then 65 else 64))
    else if n < 66 then c.roleNode && c.lane < 64 && same
    else c.roleNode && c.lane == n && !same
  else if n == 64 then (c.roleNode && c.lane < 64 && !c.sideB) || (!c.roleNode && c.lane == 65)
  else (c.roleNode && c.lane < 64 && c.sideB) || (!c.roleNode && c.lane == 64)

/-- The rate lane n agrees with its partner's CAP; none while a piste hop knows no target (R164). -/
def agreedRate (n : Nat) (c : Ladder) (s : State) : Option Nat :=
  let m := ladder 1 n s
  let r := min m.rateMax c.rateMax
  if pisteHop n s then (if m.target == 0xF && c.target == 0xF then none else some (min r (min m.target c.target))) else some r

/-- L2 at rate r: train anew; pre is what is sent before IDLE at r. -/
def enterL2 (pre : List LaneOut) (n r : Nat) (s : State) : State :=
  let s := updLane n (fun x => { x with rate := some r, rxLocked := false, partnerLocked := false, ownPass := none, partnerPass := none }) s
  updLane n (fun x => { x with out := pre ++ [.sym .idle 1] }) (goStage n 2 (wrBit (O.LNK_STATUS n) 6 false (wr (O.LNK_RATE n) r s)))

/-- L2 from L1: 16 RATE_GO frames that carry r, back to back, and then IDLE at r (Table 5.9). -/
def goL2 (n r : Nat) (s : State) : State := enterL2 [.ladder ({ ladder 2 n s with rate := r } : Ladder).bytes 16] n r s

/-- CAP with PARTNER_OK has been received and sent since lane n entered L1. -/
def capAnswered (n : Nat) (s : State) : Bool :=
  let l := lane n s
  l.capSent && l.capAt.isSome && (match l.cap with | some c => c.partnerOk | none => false)

/-- L1 to L2 where CAP with PARTNER_OK has been received and sent and the rate is known (Table 5.9). -/
def tryL2 (n : Nat) (s : State) : State :=
  match (lane n s).cap with
  | some c =>
    if stage n s == 1 && capAnswered n s then
      match agreedRate n c s with
      | some r => goL2 n r s
      | none => s
    else s
  | none => s

/-- RETRAIN sent four times on lane n, and L1 once it is sent (Table 5.9, R164). -/
def retrain (restore : Bool) (n : Nat) (s : State) : State :=
  if 2 ≤ stage n s && stage n s ≤ 5 then sendLadder { ladder 5 n s with restore := restore } 4 n s else s

/-- A cell's target has fallen below the rate of one of its lanes (R164). -/
def cellTarget (s : State) : State :=
  if !isCell s then s
  else each [laneU0, laneU1] (fun n s =>
    let t := (ladder 1 n s).target
    if 2 ≤ stage n s && stage n s ≤ 5 && t < rd (O.LNK_RATE n) s then retrain false n s else s) s

/-- The training failure rule of R166. -/
def trainFail (n cause : Nat) (s : State) : State :=
  let l := lane n s
  let r := l.rate.getD 0
  let s := bump (O.LNK_TRAIN_FAIL n) (wr (O.LNK_LAST_FAIL n) cause s)
  let tries := l.tries.modify r (· + 1)
  let s := updLane n (fun x => { x with tries := tries }) s
  if tries.getD r 0 ≤ rd O.LNK_L3_RETRY s then enterL2 [] n r s
  else if rd O.LNK_RATE_FALLBACK s == 1 && r > 0 then
    let s := updLane n (fun x => { x with tries := x.tries.set (r - 1) 0 }) (wr (O.LNK_CEILING n) (r - 1) s)
    cellTarget (toL1 n s)
  else backoffL0 n s

/-- The end of L3 once the results are known (Table 5.9). -/
def evalL3 (n : Nat) (s : State) : State :=
  let l := lane n s
  if stage n s != 3 then s
  else if l.ownPass == some false || l.partnerPass == some false then trainFail n 3 s
  else if l.ownPass == some true && l.partnerPass == some true && (isNode s || s.tim.refLane.isSome) then
    goStage n 4 s
  else s

/-- Ticks that 2^w bits take at a rate code. -/
def windowTicks (w r : Nat) : Nat :=
  match r with
  | 0 => ceilDiv (2 ^ w * 8) 25
  | 1 => ceilDiv (2 ^ w * 4) 25
  | 2 => ceilDiv (2 ^ w * 64) 825
  | _ => ceilDiv (2 ^ w * 32) 825

/-- A write that takes lane n out of L5 is refused (R169). -/
def laneBusy (n : Nat) (s : State) : Bool :=
  if isCell s then celState s ≥ 4
  else if n < 64 then
    let a := rd (O.BAL_LINK_ARM n) s
    if a ≤ 5 then armDeblocked (slotArm a s) s else a == 0xFE && deblockHeld s != 0
  else deblockHeld s != 0

/-- Entry of lane n to L5: frames of all classes; the leaf learns its piste, the apex recomputes, a node joins (R23, R40, R400, Table 5.9). -/
def enterL5 (n : Nat) (s : State) : State :=
  let s := updLane n (fun x => { x with everL5 := true, hops := 31, behind := 0, lsAt := some s.tick }) (bump (O.LNK_L5_ENTRIES n) s)
  let s := startTx n (goStage n 5 s)
  let s := if isNode s && n < 64 && partnerNode n s then nodeJoin n s else s
  let s := if isNode s then pisteLearn n s else cellIndex s
  readyEval (lagRecompute s)

/-- A LINK_STATE value taken on lane n. -/
def takeLinkState (n hops behind : Nat) (s : State) : State :=
  let known : Bool := hops != 31
  let s := updLane n (fun x => { x with hops := hops, behind := behind, lsAt := some s.tick,
                                        knownAt := if known then some (x.knownAt.getD s.tick) else none }) s
  if isNode s then lagRecompute (updPiste n (pisteLearn n s))
  else
    let s := if n == laneU0 then (if known then wr O.LNK_CELL_POS_A hops s else s) else wr O.LNK_CELL_HOPS_B hops s
    cellIndex (lsChange [laneU0, laneU1] s)

/-- Payload bytes of a class free of reserved encodings (R46, R59, R65); other classes are checked where they are read. -/
def payOk (cls typ : Nat) (b : List Nat) : Bool :=
  let x (i : Nat) : Nat := nth b (i - 16) 0
  let w32 (i : Nat) : Nat := ofBe ((b.drop (i - 16)).take 4)
  let w16 (i : Nat) : Nat := ofBe ((b.drop (i - 16)).take 2)
  if cls == 2 && typ == 0 then
    x 30 / 64 ≤ 2 && keyOk (w32 32) && keyOk (w32 36) && (bit (x 30) 4 == (w32 36 != 0xFFFFFFFF)) && (bit (x 30) 4 || w16 40 == 0) && claimOk (w16 54) && w32 44 < 2 ^ 31
      && (List.range 16).all fun p => ordOk (x (60 + p))
  else if cls == 2 then
    1 ≤ x 20 && x 20 ≤ 6 && (List.range (x 20)).all fun e => x (24 + 16 * e) ≤ 63 && x (25 + 16 * e) / 64 ≤ 2 && x (26 + 16 * e) ≤ 10
  else if cls == 3 && typ == 0 then fld (x 24) 4 3 ≤ 2 && x 26 ≤ 6 && (w16 32 ≤ 1023 || w16 32 == 0xFFFF)
  else if cls == 3 then
    (x 20 == 0 && x 22 ≤ 63 && x 38 ≤ 10) || (x 20 == 1 && 1 ≤ x 21 && x 21 ≤ 6 && (List.range (x 21)).all fun e => x (24 + 16 * e) ≤ 63)
  else true

/-- The header check of a frame's bytes fails; a frame that ends before it has none to pass (R148). -/
def hcrcFails (b : List Nat) : Bool := b.length < 16 || hcrc (b.take 14) != ofBe ((b.drop 14).take 2)

/-- LEN_B of a frame's bytes. -/
def lenB (b : List Nat) : Nat := 8 * (nth b 1 0 + 1)

/-- The frame check over LEN_B bytes fails, where they have arrived (R148). -/
def crcFails (b : List Nat) : Bool := lenB b ≤ b.length && crc32c (b.take (lenB b - 4)) != ofBe ((b.drop (lenB b - 4)).take 4)

/-- How a received frame is counted when it is discarded (R150): the first matching counter, none for a frame that passes. -/
def rxFault (n sof : Nat) (b : List Nat) (bad : Bool) : Option Nat :=
  let h := hdrOf b
  if bad then some (O.LNK_RX_ABORTED n)
  else if hcrcFails b then some (O.LNK_HCRC_ERR n)
  else if crcFails b then some (O.LNK_CRC_ERR n)
  else if h.cls != sof || h.cls == 0 || !classOk h.cls h.typ (lenB b) || b.length != lenB b || (h.cls == 7 && n < 66) || !payOk h.cls h.typ (b.drop 16) then some (O.LNK_RX_INVALID n)
  else none

/-- A frame passed on leaves with EOF_BAD: it arrived so, a check of it has failed, or it ended before the check could pass (R159). -/
def spoils (b : List Nat) (bad : Bool) : Bool := bad || hcrcFails b || crcFails b || b.length < lenB b

/-- The device takes a frame itself. -/
def consume (n : Nat) (b : List Nat) (s : State) : State := { s with lnk := { s.lnk with consumed := some (n, hdrOf b, b.drop 16) } }

/-- A valid frame is addressed to the device: HOP, BCAST or DST (R157, R160). -/
def addressed (h : Hdr) (s : State) : Bool :=
  if isCell s then h.hop || h.bcast || (!h.dstNode && h.dst == ownAddr s && indexed s)
  else h.hop || (h.dst / 1024 == nodeNum s && (h.bcast || h.dstNode) && (h.dstSide == sideB s || !h.dstNode))

/-- What a valid frame does here beside being passed on (R157, R160). -/
def takeFrame (n : Nat) (b : List Nat) (s : State) : State :=
  let h := hdrOf b
  if isNode s && !h.hop && crossed n h s then bump (O.LNK_RX_OTHER n) s
  else if addressed h s then consume n b s
  else if isNode s && (nodeOut h s).isEmpty && h.dst / 1024 != nodeNum s then bump O.LNK_NO_ROUTE s
  else s

/-- A complete frame on lane n: checked, counted, taken, and passed on cut through (R150, R157, R159, R160). -/
def frameEnd (n : Nat) (f : RxFrame) (bad : Bool) (s : State) : State :=
  let outs := passLanes n f.cls f.bytes s
  let s := match rxFault n f.cls f.bytes bad with
    | some c => bump c s
    | none => takeFrame n f.bytes (bump (O.LNK_RX_FRAMES (hdrOf f.bytes).cls n) s)
  each outs (passOn n f (spoils f.bytes bad)) s

end Sys2Proof.Machine
end

