-- ==== Sys2Proof/Machine/OpsTree.lean ====
section
/-! DEFINITION. Enumeration: node numbers, levels, refusals, routes, pistes and cells (R3, R15 to R23, R364). -/
namespace Sys2Proof.Machine

/-- The result of a walk of the tree: nodes taken with their entries, the numbers held for positions, and what was refused. -/
structure Walk where
  nodes : List (Nat × TreeNode)
  held : List ((Nat × Nat) × Nat)
  deep : Bool
  many : Bool
  conflict : Option (Nat × Nat)
deriving DecidableEq, Repr

/-- The entry of a list, an empty node beyond it. -/
def entry (l : List FoundNode) (i : Nat) : FoundNode := l.getD i { num := none, parent := 0, link := 0, link1 := none, hosten := false, pistes := [] }

/-- Entries whose U0 lands on entry p, by downlink. -/
def childEntries (l : List FoundNode) (p : Nat) : List Nat :=
  let c := (List.range l.length).filter fun i => i != 0 && (entry l i).parent == p
  sortBy (fun a b => (entry l a).link ≤ (entry l b).link) c

/-- The least of a list. -/
def minOf : List Nat → Option Nat
  | [] => none
  | x :: t => some (t.foldl min x)

/-- Entry p keeps its groups: no piste lies on a lower downlink than its first group (R18). -/
def groupsFirst (l : List FoundNode) (p : Nat) : Bool :=
  match minOf ((childEntries l p).flatMap fun c => (entry l c).link :: (entry l c).link1.toList), minOf ((entry l p).pistes.map (·.link)) with
  | some g, some x => g < x
  | some _, none => true
  | none, _ => false

/-- Both a cell and a node lie on the downlinks of entry p (R18). -/
def mixed (l : List FoundNode) (p : Nat) : Bool := !(childEntries l p).isEmpty && !(entry l p).pistes.isEmpty

/-- Take one child of node p, or refuse it (R21, R23, R364). -/
def walkChild (l : List FoundNode) (p : TreeNode) (w : Walk) (c : Nat) : Walk :=
  let e := entry l c
  if e.hosten then { w with conflict := match w.conflict with | some x => some x | none => some (p.num, e.link) }
  else if p.dist + 1 ≥ 5 then { w with deep := true }
  else
    let held := match e.num with | some n => aset w.held (p.num, e.link) n | none => w.held
    match joinNumber held p.num e.link with
    | none => { w with many := true }
    | some n =>
      if w.nodes.length ≥ 64 then { w with many := true }
      else
        let t : TreeNode := { num := n, parent := p.num, link := e.link, link1 := e.link1, dist := p.dist + 1,
                              pistes := if groupsFirst l c then [] else (entry l c).pistes.map (·.link) }
        { w with nodes := w.nodes ++ [(c, t)], held := aset held (p.num, e.link) n }

/-- The nodes of one distance give those of the next, in the order of their numbers (R23). -/
def walkLevel (l : List FoundNode) (d : Nat) (w : Walk) : Walk :=
  (sortBy (fun a b => a.2.num ≤ b.2.num) (w.nodes.filter fun n => n.2.dist == d)).foldl (fun w n => if groupsFirst l n.1 then (childEntries l n.1).foldl (walkChild l n.2) w else w) w

/-- The whole walk from the apex down, with the numbers that positions already hold (R23). -/
def walk (held : List ((Nat × Nat) × Nat)) (l : List FoundNode) : Walk :=
  let apex : TreeNode := { num := 0, parent := 0, link := 0, link1 := none, dist := 0, pistes := if groupsFirst l 0 then [] else (entry l 0).pistes.map (·.link) }
  [0, 1, 2, 3, 4].foldl (fun w d => walkLevel l d w) { nodes := [(0, apex)], held := held, deep := false, many := false, conflict := none }

/-- Node numbers strictly below node n, with the children of n first; f levels suffice. -/
def below : Nat → List TreeNode → Nat → List Nat
  | 0, _, _ => []
  | f + 1, l, n => (l.filter fun t => t.num != 0 && t.parent == n).flatMap fun t => t.num :: below f l t.num

/-- Levels of nodes from n down to its deepest node. -/
def height : Nat → List TreeNode → Nat → Nat
  | 0, _, _ => 0
  | f + 1, l, n => 1 + maxL ((l.filter fun t => t.num != 0 && t.parent == n).map fun t => height f l t.num)

/-- Positions of a piste that this node indexes: from its own end, by the hop counts or the commissioned length (R15 to R17). -/
def pistePositions (p : FoundPiste) (cfg : Nat) (s : State) : List Nat :=
  let n := min 16 p.len
  if p.whole || !sideB s then List.range n
  else if cfg == 0 then [] else (List.range n).filterMap fun h => if h < cfg && cfg - 1 - h ≤ 15 then some (cfg - 1 - h) else none

/-- One piste of this node taken at enumeration (R15 to R17). -/
def takePiste (p : FoundPiste) (s : State) : State :=
  let cfg := rd (O.TREE_PISTE_LEN p.link) s
  let len := if p.whole then p.len else cfg
  let cells := (pistePositions p cfg s).foldl (fun c q => addTo c (p.link * 16 + q)) s.tree.cells
  let s := { s with tree := { s.tree with pistes := aset s.tree.pistes p.link (min 16 len), cells := cells } }
  let s := onlyIf (p.len > 16) (wrBit O.TREE_PISTE_OVERLONG p.link true) s
  let s := wrBit O.TREE_PISTE_MISMATCH p.link (p.whole && cfg != 0 && cfg != p.len) s
  updPiste p.link (setLive 217 (rd O.TREE_PISTE_MISMATCH s != 0) p.link s)

/-- A conflict of apexes: status RUNNING, and the record at the apex (R3, R364). -/
def enumConflict (c : Nat × Nat) (num : Nat) (s : State) : State :=
  let s := wr O.TREE_ENUM_STATUS 1 (wr O.TREE_NODE_NUMBER num s)
  if isApex s then wr O.TREE_APEX_CONFLICT (2 ^ 31 + c.1 * 256 + c.2) s else s

/-- What a node takes from the walk: its own entry e and number t. MIXED stands before TOO_DEEP before TOO_MANY (log entry 34). -/
def enumNode (l : List FoundNode) (w : Walk) (e : Nat) (t : TreeNode) (s : State) : State :=
  let ns := w.nodes.map (·.2)
  let kids := (ns.filter fun x => x.num != 0 && x.parent == t.num).flatMap fun x => (x.link, x.num) :: (match x.link1 with | some j => [(j, x.num)] | none => [])
  let direct := (ns.filter fun x => x.num != 0 && x.parent == t.num)
  let routes := direct.flatMap fun x => (x.num :: below 5 ns x.num).map fun n => (n, x.link)
  let s := { s with tree := { s.tree with nodes := ns, held := w.held.filter (fun h => h.1.1 < 64), routes := routes, kids := kids, pistes := [], cells := [], parent := t.parent } }
  let own := if groupsFirst l e then [] else (entry l e).pistes
  let s := each own takePiste s
  let sub := below 5 ns t.num
  let far := sumL ((w.nodes.filter fun x => sub.contains x.2.num && !groupsFirst l x.1).flatMap fun x => (entry l x.1).pistes.map (·.cells))
  let s := wr O.TREE_DOWNLINK_KIND (if !own.isEmpty then 1 else if !direct.isEmpty then 2 else 0) s
  let s := wr O.TREE_CELL_COUNT (s.tree.cells.length + far) (wr O.TREE_LEVEL (height 5 ns t.num) (wr O.TREE_NODE_NUMBER t.num s))
  let st := if mixed l e then 5 else if isApex s && w.deep then 3 else if isApex s && w.many then 4 else 2
  let s := wr O.TREE_ENUM_STATUS st (wr O.TREE_DEPTH (maxL (ns.map (·.dist)) + 2) s)
  let s := onlyIf (isApex s) (wr O.TREE_NODE_COUNT ns.length) s
  lagRecompute s

/-- What a cell on downlink link of entry e takes: its leaf node's number, its piste, its index (R15 to R17). -/
def enumCell (l : List FoundNode) (w : Walk) (e link : Nat) (t : TreeNode) (s : State) : State :=
  match (if groupsFirst l e then none else (entry l e).pistes.find? fun p => p.link == link) with
  | none => s
  | some p =>
    let s := { s with tree := { s.tree with pistes := [(link, if p.whole then p.len else p.cfg)] } }
    let s := wr O.TREE_ENUM_STATUS 2 (wr O.TREE_DEPTH (maxL (w.nodes.map (·.2.dist)) + 2) (wr O.TREE_NODE_NUMBER t.num s))
    readyEval (cellIndex s)

/-- Numbers the apex has given, beside the positions of a tree, so that no other node takes one (R23). -/
def givenNumbers (l : List FoundNode) : List ((Nat × Nat) × Nat) := (l.filterMap (·.num)).map fun n => ((64 + n, 64), n)

/-- Enumeration as it completes at this device, entry self of the devices found; link is a cell's downlink at it (R3, R15 to R23, R364). -/
def enumeration (l : List FoundNode) (self link : Nat) (s : State) : State :=
  let w := if isApex s then walk s.tree.held (l.map fun e => { e with num := none }) else walk (s.tree.held ++ givenNumbers l) l
  match w.nodes.find? fun n => n.1 == self with
  | none => s
  | some n =>
    match w.conflict with
    | some c => enumConflict c n.2.num s
    | none => if isNode s then enumNode l w self n.2 s else enumCell l w self link n.2 s

end Sys2Proof.Machine
end

