-- ==== Sys2Proof/Machine/OpsBal.lean ====
section
/-! DEFINITION. The balancer's shared operations: slots and groups, counting, selection, summaries, apportioning, binning, and the comparator (R42 to R74, R395). -/
namespace Sys2Proof.Machine

/-- The balancer's own state changed. -/
def updBal (f : BalSt → BalSt) (s : State) : State := { s with bal := f s.bal }

/-- The work of period k. -/
def work? (k : Nat) (s : State) : Option PeriodWork := s.bal.works.find? fun w => w.k == k

/-- The work of period k changed. -/
def updWork (k : Nat) (f : PeriodWork → PeriodWork) (s : State) : State :=
  updBal (fun b => { b with works := b.works.map fun w => if w.k == k then f w else w }) s

/-- The oldest work with a property. -/
def oldest (p : PeriodWork → Bool) (s : State) : Option PeriodWork := s.bal.works.reverse.find? p

/-- The slot record j. -/
def slotSt (j : Nat) (s : State) : SlotSt := s.bal.slots.getD j SlotSt.init

/-- Slot j changed. -/
def updSlot (j : Nat) (f : SlotSt → SlotSt) (s : State) : State := updBal (fun b => { b with slots := b.slots.modify j f }) s

/-- Value in effect of a row of Table 2.14: 0 STICK, 1 WEAR_GAIN, 2 BIN_MODE, 3 BIN_BASE, 4 BIN_SHIFT, 5 WEAR_LIMIT. -/
def slotCfg (j n : Nat) (s : State) : Nat := (slotSt j s).cfg.getD n 0

/-- The six values of slot j as the objects hold them. -/
def slotObjs (j : Nat) (s : State) : List Nat :=
  [rd (O.BAL_STICK j) s, rd (O.BAL_WEAR_GAIN j) s, rd (O.BAL_BIN_MODE j) s, rd (O.BAL_BIN_BASE j) s, rd (O.BAL_BIN_SHIFT j) s, rd (O.BAL_WEAR_LIMIT j) s]

/-- Pistes of slot j: downlink and length taken (R42). -/
def slotPistes (j : Nat) (s : State) : List (Nat × Nat) := s.tree.pistes.filter fun p => rd (O.BAL_LINK_ARM p.1) s == j

/-- The first downlink of the group that a downlink carries (R19). -/
def groupLink (k : Nat) (s : State) : Option Nat :=
  match aget s.tree.kids k with
  | some c => (s.tree.kids.find? fun e => e.2 == c).map (·.1)
  | none => none

/-- The first downlink of every group. -/
def allGroups (s : State) : List Nat := (downlinks.filter fun k => groupLink k s == some k)

/-- The downlinks of the group whose first downlink is g. -/
def linksOf (g : Nat) (s : State) : List Nat := (s.tree.kids.map (·.1)).filter fun k => groupLink k s == some g

/-- Groups mapped to slot j, in downlink order (R42). -/
def slotGroups (j : Nat) (s : State) : List Nat := (allGroups s).filter fun k => rd (O.BAL_LINK_ARM k) s == j

/-- Groups on 0xFE links (R42). -/
def feGroups (s : State) : List Nat := (allGroups s).filter fun k => rd (O.BAL_LINK_ARM k) s == 0xFE

/-- Slots that carry pistes or groups. -/
def slotsHere (s : State) : List Nat := (List.range 6).filter fun j => !(slotPistes j s).isEmpty || !(slotGroups j s).isEmpty

/-- Arms of a summary. -/
def Summary.counts : Summary → List ArmSum
  | .group _ g => [g.a]
  | .arms _ l => l

/-- Arms the node carries (R65): those of its slots, then those its 0xFE links reported. -/
def armsHere (s : State) : List Nat :=
  ((feGroups s).flatMap fun g => (aget s.bal.groupArms g).getD []).foldl addTo (((slotsHere s).map fun j => slotArm j s).foldl addTo [])

/-- The slot of an arm. -/
def slotOf (a : Nat) (s : State) : Option Nat := (slotsHere s).find? fun j => slotArm j s == a

/-- The entry of arm a in the work of period k. -/
def entryOf (a : Nat) (w : PeriodWork) : Option RefEntry := (w.refs.getD []).find? fun e => e.arm == a

/-- The node heads the arm of slot j on this entry (R43). -/
def heads (j : Nat) (e : RefEntry) (s : State) : Bool :=
  (isApex s || !e.binValid) && (!(slotPistes j s).isEmpty || 2 ≤ (slotGroups j s).length)

/-- The report deadline of a piste in picoseconds after the P-mark (R52). -/
def pisteDeadline (p : Nat × Nat) (s : State) : Nat :=
  250000 + p.2 * slotPs 64 (rd (O.LNK_RATE p.1) s) + (ownEntry p.1 s).dIn + tickPs (rd O.BAL_REPORT_MARGIN s)

/-- Picoseconds of valve time since P(k). -/
def sinceP (k : Nat) (s : State) : Nat := tickPs (vtTicks s - pOf k s)

/-- Indices awaited of slot j: every position within the length of its pistes. -/
def awaited (j : Nat) (s : State) : List Nat := (slotPistes j s).flatMap fun p => (List.range (min 16 p.2)).map fun q => p.1 * 16 + q

/-- A report that R52 lets be counted. -/
def Report.countable (r : Report) : Bool := r.avail && r.maskOk

/-- Counted reports of slot j (R52). -/
def countedOf (j : Nat) (w : PeriodWork) (s : State) : List (Nat × Report) :=
  let l := (slotPistes j s).map (·.1)
  w.heard.filter fun h => l.contains (h.1 / 16) && h.2.countable

/-- STICK of period k in slot j: the node's own at a head; below it that of the entry of period k - 1, else of the latest entry (R55). -/
def stickOf (j : Nat) (w : PeriodWork) (head : Bool) (s : State) : Nat :=
  if head then w.sticks.getD j 0
  else match (s.bal.works.find? fun x => x.k + 1 == w.k).bind (entryOf (slotArm j s)) with
  | some e => e.stick
  | none => match (slotSt j s).last with | some e => e.stick | none => w.sticks.getD j 0

/-- ins of R48. -/
def insFor (r : Report) (neg : Bool) : Bool := r.insPrev == (if neg then 2 else 1)

/-- The keys of the counted cells for a polarity and a direction (R47, R55). -/
def keysOf (l : List (Nat × Report)) (neg : Bool) (dir stick mask : Nat) : List Nat :=
  (l.filter fun h => !neg || h.2.fb).map fun h => makeKey dir h.2.vKey (insFor h.2 neg) h.2.w stick h.1 mask

/-- The counts of the counted cells (R65). -/
def countsOf (a : Nat) (sat part : Bool) (l : List (Nat × Report)) : ArmSum :=
  { arm := a, sat := sat, part := part, nAv := l.length, nFb := (l.filter (·.2.fb)).length, nIns := (l.filter fun h => h.2.insPrev == 1).length,
    nInsNeg := (l.filter fun h => h.2.insPrev == 2).length, vSum := low 32 (sumL (l.map fun h => h.2.vKey)) }

/-- The mean switching count of the counted cells (R43). -/
def meanSw (l : List (Nat × Report)) : Nat := sumL (l.map fun h => h.2.swHi) / max 1 l.length

/-- Counts shown for slot j. -/
def showCounts (j : Nat) (a : ArmSum) (s : State) : State :=
  wr (O.BAL_N_AV j) a.nAv (wr (O.BAL_N_FB j) a.nFb (wr (O.BAL_N_INS j) a.nIns (wr (O.BAL_V_SUM j) a.vSum s)))

/-- The n-th smallest of a rising list, counted from 1. -/
def nthKey (keys : List Nat) (n : Nat) : Nat := keys.getD (n - 1) 0xFFFFFFFF

/-- The listing of R56 over rising keys: count, fraction, SAT, threshold and carve keys, carve time, and whether the mask made the choice. -/
def selectKeys (keys : List Nat) (mag t : Nat) : Nat × Nat × Bool × Nat × Nat × Nat × Bool :=
  let nReq := mag / 65536
  let f0 := mag % 65536
  let elig := keys.length
  let sat : Bool := nReq > elig || (nReq == elig && f0 != 0)
  let n := if sat then elig else nReq
  let f := if sat then 0 else f0
  let kTh := if n == 0 then 0xFFFFFFFF else nthKey keys n
  let tc := if f != 0 && n < elig then min ((f * t + 32768) / 65536) (t - 1) else 0
  let kCarve := if 0 < tc then nthKey keys (n + 1) else 0xFFFFFFFF
  let tie : Bool := 0 < n && n < elig && nthKey keys n / 1024 == nthKey keys (n + 1) / 1024
  (n, f, sat, kTh, kCarve, tc, tie)

/-- Whether an entry asks for negative insertion. -/
def RefEntry.neg (e : RefEntry) : Bool := e.m < 0

/-- BAL_DIR_POL of a result. -/
def dirPol (e : RefEntry) (sat : Bool) : Nat := e.dir + 4 * b2n e.neg + 8 * b2n sat

/-- The selection of slot j for period k, once reference and report close are present (R56, R73). -/
def selectSlot (k j : Nat) (s : State) : State :=
  match work? k s with
  | none => s
  | some w =>
    if !w.closed.contains j || (aget w.sel j).isSome || w.ended then s
    else match entryOf (slotArm j s) w with
    | none => s
    | some e =>
      let head := heads j e s
      let st := stickOf j w head s
      let cnt := countedOf j w s
      let keys := sortBy (· ≤ ·) (keysOf cnt e.neg e.dir st (maskOf w.slalom))
      let (n, f, sat, kTh, kCarve, tc, tie) := selectKeys keys e.m.natAbs (tOf k s)
      let wref := if head then meanSw cnt else e.wearRef
      let r : Sel := { n := n, f := f, sat := sat, kTh := kTh, kCarve := kCarve, tCarve := tc, entry := e, stick := st, wearRef := wref,
                       wearGain := if head then slotCfg j 1 s else e.wearGain }
      let s := updSlot j (fun x => { x with sat := sat }) (updWork k (fun x => { x with sel := (j, r) :: x.sel }) s)
      let s := onlyIf sat (bump (O.BAL_SAT_PERIODS j)) (onlyIf tie (bump (O.BAL_TIE_PERIODS j)) s)
      let s := wr (O.BAL_N j) n (wr (O.BAL_F j) f (wr (O.BAL_K_TH j) kTh (wr (O.BAL_K_CARVE j) kCarve s)))
      wr (O.BAL_WEAR_REF j) wref (wr (O.BAL_T_CARVE j) tc (wr (O.BAL_DIR_POL j) (dirPol e sat) s))

/-- How a position of slot j that was not counted is charged (R52): 0 nothing, 1 BAL_MASK_EXCLUDED, 2 BAL_MISSING. -/
def chargeOf (idx : Nat) (w : PeriodWork) : Nat :=
  match aget w.heard idx with
  | none => 2
  | some r => if !r.avail then 0 else if !r.maskOk then 1 else 0

/-- PARTIAL of slot j: a position went uncounted for a reason other than AVAIL = 0 (R65). -/
def slotPartial (j : Nat) (w : PeriodWork) (s : State) : Bool := (awaited j s).any fun i => chargeOf i w != 0

/-- Bin of a key field a (R66). -/
def binOf (dir base shift a : Nat) : Nat :=
  let c (z : Int) (hi : Int) : Nat := (clampI z 0 hi).toNat
  match dir with
  | 1 => c (((a : Int) - (base : Int)) / ((2 ^ shift : Nat) : Int)) 63
  | 2 => c (((a : Int) - (65536 - (base : Int) - ((64 * 2 ^ shift : Nat) : Int))) / ((2 ^ shift : Nat) : Int)) 63
  | _ => c (((a : Int) - 32512) / 32) 15

/-- A histogram of key fields over n bins. -/
def histOf (n : Nat) (bins : List Nat) : List Nat := (List.range n).map fun b => satU 11 ((bins.filter (· == b)).length)

/-- The three histograms of the counted cells of slot j (R66). -/
def leafHists (l : List (Nat × Report)) (neg : Bool) (stick mask base shift : Nat) : List Nat × List Nat × List Nat :=
  let h (d n : Nat) := histOf n ((keysOf l neg d stick mask).map fun k => binOf d base shift (k / 1024))
  (h 1 64, h 2 64, h 0 16)

/-- HPOL of slot j: the polarity of the latest entry (R66). -/
def hpolOf (j : Nat) (s : State) : Bool := match (slotSt j s).last with | some e => e.neg | none => false

/-- BIN_BASE and BIN_SHIFT of slot j (R66). -/
def binPair (j : Nat) (s : State) : Nat × Nat :=
  match (slotSt j s).bin with
  | some b => if rd (O.BAL_HEAD j) s == 1 then (slotCfg j 3 s, slotCfg j 4 s) else b
  | none => (slotCfg j 3 s, slotCfg j 4 s)

/-- An empty summary of an arm. -/
def ArmSum.zero (a : Nat) : ArmSum := { arm := a, sat := false, part := false, nAv := 0, nFb := 0, nIns := 0, nInsNeg := 0, vSum := 0 }

/-- Two counts of one arm joined. -/
def ArmSum.add (x y : ArmSum) : ArmSum :=
  { x with sat := x.sat || y.sat, part := x.part || y.part, nAv := x.nAv + y.nAv, nFb := x.nFb + y.nFb, nIns := x.nIns + y.nIns,
           nInsNeg := x.nInsNeg + y.nInsNeg, vSum := low 32 (x.vSum + y.vSum) }

/-- Reconstruction of one histogram, none where two bins are at 2047 (R67). -/
def rebuild (h : List Nat) (elig : Nat) : Option (List Nat) :=
  match (h.filter (· == 2047)).length with
  | 0 => some h
  | 1 => let rest := sumL (h.filter (· != 2047)); some (h.map fun c => if c == 2047 then elig - rest else c)
  | _ => none

/-- The histograms of a group, reconstructed; none where they are not usable (R67). -/
def usable (g : GroupSum) : Option (List Nat × List Nat × List Nat) :=
  let e := if g.hpol then g.a.nFb else g.a.nAv
  if g.hinc then none
  else match rebuild g.histC e, rebuild g.histD e, rebuild g.histH e with
  | some c, some d, some h => some (c, d, h)
  | _, _, _ => none

/-- The summary of a group of slot j in a work; an ARMS summary on a slot of several groups counts as missing (R42, R70). -/
def groupSum (g j : Nat) (w : PeriodWork) (s : State) : Option Summary :=
  match aget w.sums g with
  | some (.arms p l) => if 2 ≤ (slotGroups j s).length then none else some (.arms p l)
  | o => o

/-- Two lists added element by element. -/
def addL (a b : List Nat) : List Nat := (List.range (max a.length b.length)).map fun i => a.getD i 0 + b.getD i 0

/-- The summary of slot j at a node with groups (R65, R67). -/
def mergeSlot (j : Nat) (w : PeriodWork) (s : State) : GroupSum :=
  let gs := slotGroups j s
  let a := slotArm j s
  let hp := hpolOf j s
  let bp := binPair j s
  let z : GroupSum := { a := { ArmSum.zero a with sat := 2 ≤ gs.length && (slotSt j s).sat }, hpol := hp, hinc := false, binBase := bp.1, binShift := bp.2,
                        swSum := 0, swMin := 0xFFFFFFFF, swMax := 0, histC := List.replicate 64 0, histD := List.replicate 64 0, histH := List.replicate 16 0 }
  gs.foldl (fun m g =>
    match groupSum g j w s with
    | none => { m with a := { m.a with part := true } }
    | some (.arms _ l) =>
      let e := (l.find? fun x => x.arm == a).getD (ArmSum.zero a)
      { m with a := { (m.a.add e) with part := true }, hinc := true }
    | some (.group _ x) =>
      let e := if 2 ≤ gs.length then { x.a with sat := false } else x.a
      let m := { m with a := m.a.add e, swSum := low 48 (m.swSum + x.swSum), swMin := if x.a.nAv == 0 then m.swMin else min m.swMin x.swMin,
                        swMax := if x.a.nAv == 0 then m.swMax else max m.swMax x.swMax }
      match usable x with
      | some (c, d, h) => if x.hpol == hp then { m with histC := addL m.histC c, histD := addL m.histD d, histH := addL m.histH h }
                          else { m with hinc := true, a := { m.a with part := true } }
      | none => { m with hinc := true, a := { m.a with part := true } }) z

/-- The summary of slot j at a leaf node (R55, R65, R66). -/
def leafSum (j : Nat) (w : PeriodWork) (s : State) : GroupSum :=
  let l := countedOf j w s
  let bp := binPair j s
  let hp := hpolOf j s
  let st := stickOf j w (rd (O.BAL_HEAD j) s == 1) s
  let (c, d, h) := leafHists l hp st (maskOf w.slalom) bp.1 bp.2
  { a := countsOf (slotArm j s) (slotSt j s).sat (slotPartial j w s) l, hpol := hp, hinc := false, binBase := bp.1, binShift := bp.2,
    swSum := low 48 (sumL (l.map fun x => x.2.swHi)), swMin := l.foldl (fun m x => min m x.2.swHi) 0xFFFFFFFF, swMax := maxL (l.map fun x => x.2.swHi),
    histC := c, histD := d, histH := h }

/-- The summary of slot j. -/
def slotSum (j : Nat) (w : PeriodWork) (s : State) : GroupSum := if (slotPistes j s).isEmpty then mergeSlot j w s else leafSum j w s

/-- AUTO binning from a merged HIST_C (R68): base, shift and run after the period. -/
def autoBin (base shift run : Nat) (h : List Nat) : Nat × Nat × Nat :=
  match (List.range 64).filter fun b => h.getD b 0 != 0 with
  | [] => (base, shift, run)
  | lo :: t =>
    let hi := (lo :: t).getLastD lo
    let run := if hi - lo < 16 then run + 1 else 0
    let widen : Bool := (lo == 0 || hi == 63) && shift < 10
    let narrow : Bool := !widen && 64 ≤ run && 0 < shift
    let sh := if widen then shift + 1 else if narrow then shift - 1 else shift
    let run := if sh != shift then 0 else run
    if sh != shift || lo < 8 || 55 < hi then
      let c := base + (lo + hi + 1) * 2 ^ shift / 2
      ((clampI ((c : Int) - ((32 * 2 ^ sh : Nat) : Int)) 0 ((65536 - 64 * 2 ^ sh : Nat) : Int)).toNat, sh, run)
    else (base, sh, run)

/-- The node heads slot j: the slot carries pistes or two or more groups, and it is the apex or the latest entry said so (R43). -/
def isHead (j : Nat) (s : State) : Bool := (isApex s || rd (O.BAL_HEAD j) s == 1) && (!(slotPistes j s).isEmpty || 2 ≤ (slotGroups j s).length)

/-- Every input of slot j in a period has come or has passed its deadline. -/
def slotDone (j : Nat) (w : PeriodWork) (s : State) : Bool :=
  ((slotPistes j s).isEmpty || w.closed.contains j) && (slotGroups j s).all fun g => (aget w.sums g).isSome || w.lost.contains g

/-- BIN_BASE_EFF and BIN_SHIFT_EFF of slot j. -/
def binEff (j : Nat) (s : State) : Nat × Nat := (rd (O.BAL_BIN_BASE_EFF j) s, rd (O.BAL_BIN_SHIFT_EFF j) s)

/-- The binning that a head's entries of a period carry: FIXED the pair in effect, AUTO what the period before left (R68). -/
def binSent (j : Nat) (w : PeriodWork) (s : State) : Nat × Nat :=
  if slotCfg j 2 s == 0 then (aget w.bins j).getD (binEff j s) else (slotCfg j 3 s, slotCfg j 4 s)

/-- What a head does with the merged summary of its slot after a period: binning and wear spread (R68, R74). -/
def headStats (j : Nat) (g : GroupSum) (s : State) : State :=
  let spread := if g.a.nAv == 0 then 0 else g.swMax - g.swMin
  let s := setLive (196 + j) (spread > slotCfg j 5 s) j (wr (O.BAL_WEAR_SPREAD j) spread s)
  if slotCfg j 2 s == 0 then
    let (b, sh, run) := autoBin (rd (O.BAL_BIN_BASE_EFF j) s) (rd (O.BAL_BIN_SHIFT_EFF j) s) (slotSt j s).narrow g.histC
    updSlot j (fun x => { x with narrow := run }) (wr (O.BAL_BIN_BASE_EFF j) b (wr (O.BAL_BIN_SHIFT_EFF j) sh s))
  else wr (O.BAL_BIN_BASE_EFF j) (slotCfg j 3 s) (wr (O.BAL_BIN_SHIFT_EFF j) (slotCfg j 4 s) s)

/-- The inputs of slot j in period k are complete: at a head the binning and the wear spread follow, once a period, whether or not it is launched (R68, R74). -/
def slotStats (k j : Nat) (s : State) : State :=
  match work? k s with
  | none => s
  | some w =>
    if !isHead j s || (aget w.bins j).isSome || !slotDone j w s then s
    else headStats j (slotSum j w s) (updWork k (fun x => { x with bins := aset x.bins j (binEff j s) }) s)

/-- Report close of slot j in period k (R52, R56). -/
def closeSlot (k j : Nat) (s : State) : State :=
  match work? k s with
  | none => s
  | some w =>
    if w.closed.contains j then s
    else
      let s := updWork k (fun x => { x with closed := j :: x.closed, inputAt := max x.inputAt (vtTicks s) }) s
      let s := each (awaited j s) (fun i s => match chargeOf i w with | 1 => bump (O.BAL_MASK_EXCLUDED j) s | 2 => bump (O.BAL_MISSING j) s | _ => s) s
      let s := showCounts j (countsOf (slotArm j s) false false (countedOf j w s)) s
      selectSlot k j (slotStats k j s)

/-- The counts of every arm the node carries; an arm whose group has sent no summary is PARTIAL (R65). -/
def armSums (w : PeriodWork) (s : State) : List ArmSum :=
  let own := (slotsHere s).map fun j => (slotSum j w s).a
  let fe := (feGroups s).flatMap fun g => match aget w.sums g with
    | some x => x.counts
    | none => ((aget s.bal.groupArms g).getD []).map fun a => { ArmSum.zero a with part := true }
  fe.foldl (fun l e => if l.any (fun x => x.arm == e.arm) then l.map (fun x => if x.arm == e.arm then x.add e else x) else l ++ [e]) own

/-- The apex shows the counts of its arms before the law engine starts (R75). -/
def fillArms (w : PeriodWork) (s : State) : State :=
  let l := armSums w s
  each (List.range 64) (fun a s =>
    let e := (l.find? fun x => x.arm == a).getD (ArmSum.zero a)
    let p := (aget s.bal.armPrev a)
    let dp := match p with | some r => r.dir * 4 + b2n r.neg * 16 | none => 0
    if (l.any fun x => x.arm == a) || rd (O.BAL_ARM_NAV a) s != 0 then
      wr (O.BAL_ARM_NAV a) e.nAv (wr (O.BAL_ARM_VSUM a) e.vSum (wr (O.BAL_ARM_FLAGS a) (b2n e.sat + 2 * b2n e.part + dp) s))
    else s) s

/-- A node has heard a summary of arm a or a report of one of its cells in period k (R114). -/
def armHeard (a : Nat) (w : PeriodWork) (s : State) : Bool :=
  w.sums.any (fun e => e.2.counts.any fun x => x.arm == a)
    || (match slotOf a s with | some j => w.heard.any fun h => (slotPistes j s).any fun p => p.1 == h.1 / 16 | none => false)

/-- A period abandoned or withheld counts (R35, R36, R58); three in a row of the node raise its source. -/
def countLate (k : Nat) (own : Bool) (s : State) : State :=
  let s := bump O.TIM_LATE_PERIODS s
  let s := updBal (fun b => { b with abandonAt := (s.tick :: b.abandonAt).take 16, lateRun := if own then b.lateRun + 1 else b.lateRun }) s
  let s := { s with red := { s.red with abandoned := (addTo s.red.abandoned k).take 16 } }
  if own && s.bal.lateRun ≥ 3 then setLive 203 true (low 32 k) s else s

/-- A period whose frames have been launched. -/
def periodLaunched (k : Nat) (s : State) : State :=
  let s := setLive 203 false 0 (updBal (fun b => { b with lateRun := 0 }) s)
  match s.bal.withheldK with
  | some h => if h < k then setLive 205 false 0 (updBal (fun b => { b with withheldK := none }) s) else s
  | none => s

/-- Period k is withheld under R58. -/
def withhold (k : Nat) (s : State) : State :=
  match work? k s with
  | none => s
  | some w =>
    if w.ended then s
    else
      let s := updBal (fun b => { b with withheldK := some k }) (updWork k (fun x => { x with ended := true }) s)
      setLive 205 true (low 32 k) (countLate k true (bump O.BAL_LOCKSTEP_MISMATCH s))

/-- The comparator's verdict on the frames of period k: whether they go out. vote: 0 equal, 1 and 2 the first or second instance of the pair differs, 3 the spare differs, 4 all differ (R58, R395, R398). -/
def compare (k vote : Nat) (s : State) : Bool × State :=
  match work? k s with
  | none => (false, s)
  | some w =>
    if w.ended then (false, s)
    else if (working 0 s).length < 2 then (false, withhold k s)
    else match s.bal.triage with
    | some t =>
      if k < t then (if vote == 0 || vote == 3 then (true, s) else (false, withhold k s))
      else if vote == 4 then (false, withhold k (updBal (fun b => { b with triage := some (k + 1) }) s))
      else if vote == 0 then (true, s)
      else
        let s := updBal (fun b => { b with triage := none }) s
        (true, if vote == 3 then (match (classMap 0 s).spares.head? with | some p => failSpare 0 p 0 2 (low 32 k) s | none => s)
               else failLogical 0 (vote - 1) 0 2 (low 32 k) s)
    | none =>
      if vote == 0 || vote == 3 then (true, s)
      else
        let s := withhold k s
        (false, if (classMap 0 s).spares.isEmpty then s else bump O.SYS_TRIAGES (updBal (fun b => { b with triage := some (k + 1) }) s))

/-- Orders for the cells of a piste: the bytes ORD (R86, R88). -/
def ordersFor (p : Nat × Nat) (s : State) : List Nat :=
  (List.range 16).map fun q => if q < p.2 then (match s.bal.orders.find? fun o => o.idx == p.1 * 16 + q with | some o => o.code * 16 + o.tag | none => 0) else 0

/-- The slalom state of period k + 1, by the set that governs it (R50). -/
def slalomNext (w : PeriodWork) (s : State) : Nat :=
  match paramsFor (w.k + 1) s with
  | some p => if p.kEff == w.k + 1 then p.slalom else lfsr w.slalom
  | none => lfsr w.slalom

/-- Bit a of the deblock mask that governs period k (R87). -/
def maskBit (a k : Nat) (s : State) : Bool := match paramsFor k s with | some p => bit p.deblock a | none => false

/-- The cell of an index was counted. -/
def counted (i : Nat) (w : PeriodWork) : Bool := match aget w.heard i with | some x => x.countable | none => false

/-- EXCLUDE of a piste (R53). -/
def exclude (p : Nat × Nat) (w : PeriodWork) : Nat :=
  ((List.range (min 16 p.2)).filter fun q => !counted (p.1 * 16 + q) w).foldl (fun a q => a + 2 ^ q) 0

/-- The command frame of a piste (R53, R59, R86, R87, R287). -/
def commandFor (p : Nat × Nat) (j : Nat) (w : PeriodWork) (r : Sel) (s : State) : Command :=
  { period := low 32 w.k, exec := nsOfTicks (eOf w.k s), dir := r.entry.dir, pol := r.entry.neg, carveEn := r.kCarve != 0xFFFFFFFF, sat := r.sat,
    stick := r.stick, kTh := r.kTh, kCarve := r.kCarve, tCarve := if r.kCarve != 0xFFFFFFFF then r.tCarve else 0, exclude := exclude p w,
    slalomNext := slalomNext w s, wearRef := r.wearRef, wearGain := r.wearGain, claim := w.claim, originNode := nodeNum s, originLink := p.1,
    deblock := maskBit (slotArm j s) w.k s && !inSafeBlock s, orders := ordersFor p s }

/-- One repeat of every order for the pistes of slot j is used (R88). -/
def ordersUsed (j : Nat) (s : State) : State :=
  let l := (slotPistes j s).map (·.1)
  updBal (fun b => { b with orders := (b.orders.map fun o => if l.contains (o.idx / 16) then { o with left := o.left - 1 } else o).filter fun o => o.left != 0 }) s

/-- Groups of an apportioning, by position: eligible count, HPOL, the histogram of the direction where usable (R69). -/
structure AppGroup where
  link : Nat
  elig : Nat
  hpol : Bool
  h : Option (List Nat)
deriving DecidableEq, Repr

/-- Positions 0 to m - 1 by a remainder descending, then by the rotated order ascending. -/
def ranking (m start : Nat) (rem : List Nat) : List Nat :=
  let ord (i : Nat) : Nat := (i + m - start % max m 1) % max m 1
  sortBy (fun a b => rem.getD a 0 > rem.getD b 0 || (rem.getD a 0 == rem.getD b 0 && ord a ≤ ord b)) (List.range m)

/-- apportion_by_counts of R69: the allocation, and the position that carries the carve. -/
def byCounts (n f : Nat) (w : List Nat) (start : Nat) : List Nat × Option Nat :=
  let tot := max 1 (sumL w)
  let q := w.map fun x => n * x / tot
  let sorted := ranking w.length start (w.map fun x => n * x % tot)
  let left := n - sumL q
  let got := sorted.take left
  let a := (List.range w.length).map fun i => q.getD i 0 + b2n (got.contains i)
  (a, if f == 0 then none else (sorted.drop left ++ sorted.take left).find? fun i => a.getD i 0 < w.getD i 0)

/-- The result of R69: allocation, carve position, SAT, whether a polarity mismatch or a histogram cause made it go by counts, whether the boundary bin is at an edge. -/
structure AppOut where
  n : List Nat
  carve : Option Nat
  sat : Bool
  mism : Bool
  hsat : Bool
  edge : Bool
deriving DecidableEq, Repr

/-- The histogram path of R69. -/
def byHist (nReq f start : Nat) (hs : List (List Nat)) : AppOut :=
  let m := hs.length
  let bins := maxL (hs.map List.length)
  let col (b : Nat) : Nat := sumL (hs.map fun h => h.getD b 0)
  let upto (b : Nat) : Nat := sumL ((List.range b).map col)
  let bs := if nReq == 0 then none else (List.range bins).find? fun b => nReq ≤ upto (b + 1)
  let r := match bs with | some b => nReq - upto b | none => 0
  let base := hs.map fun h => match bs with | some b => sumL (h.take b) | none => 0
  let hb (i : Nat) : Nat := match bs with | some b => (hs.getD i []).getD b 0 | none => 0
  let big := match bs with | some b => max 1 (col b) | none => 1
  let q := (List.range m).map fun i => r * hb i / big
  let sorted := ranking m start ((List.range m).map fun i => r * hb i % big)
  let got := sorted.take (r - sumL q)
  let ext (i : Nat) : Nat := b2n (got.contains i)
  let n := (List.range m).map fun i => base.getD i 0 + q.getD i 0 + ext i
  let carve :=
    if f == 0 then none
    else if bs.isSome && r < big then
      match sorted.find? fun i => ext i == 0 && hb i > q.getD i 0 with
      | some i => some i
      | none => sorted.find? fun i => hb i > q.getD i 0 + ext i
    else
      let from_ := match bs with | some b => b + 1 | none => 0
      match ((List.range bins).filter (from_ ≤ ·)).find? fun b => col b != 0 with
      | some b2 => (ranking m start (hs.map fun h => h.getD b2 0)).head?
      | none => none
  { n := n, carve := carve, sat := false, mism := false, hsat := false, edge := match bs with | some b => b == 0 || b == 63 | none => false }

/-- The listing of R69 over the groups present, with the cases of R71. -/
def apportion (neg : Bool) (mag start : Nat) (gs : List AppGroup) : AppOut :=
  let nReq := mag / 65536
  let f := mag % 65536
  let el := gs.map (·.elig)
  let tot := sumL el
  if nReq > tot || (nReq == tot && f != 0) then { n := el, carve := none, sat := true, mism := false, hsat := false, edge := false }
  else
    let mism := gs.any fun g => g.hpol != neg
    let bad := gs.any fun g => g.h.isNone
    let hs := gs.map fun g => g.h.getD []
    let few : Bool := sumL (hs.map sumL) < nReq
    if mism || bad || few then
      let r := byCounts nReq f el start
      { n := r.1, carve := r.2, sat := false, mism := mism, hsat := bad || (!mism && few), edge := false }
    else byHist nReq f start hs

/-- Held allocations of missing groups, reduced in downlink order until they fit (R70). -/
def fitHeld : Nat → List (Nat × Nat) → List (Nat × Nat)
  | _, [] => []
  | past, (g, n) :: t => (g, n - min n past) :: fitHeld (past - min n past) t

/-- A group present, as R69 takes it. -/
def appGroup (neg : Bool) (dir g : Nat) (x : GroupSum) : AppGroup :=
  { link := g, elig := if neg then x.a.nFb else x.a.nAv, hpol := x.hpol,
    h := (usable x).map fun u => match dir with | 1 => u.1 | 2 => u.2.1 | _ => u.2.2 }

/-- M_g of an allocation (R69). -/
def mOf (neg : Bool) (n f : Nat) : Int := let z : Int := ((n * 65536 + f : Nat) : Int); if neg then -z else z

/-- The entries for the groups of slot j on its entry e (R43, R69 to R71): by the group's first downlink. -/
def slotEntries (j : Nat) (e : RefEntry) (w : PeriodWork) (s : State) : List (Nat × RefEntry) × State :=
  let gs := slotGroups j s
  match gs with
  | [] => ([], s)
  | [g] => ([(g, e)], s)
  | _ =>
    let mag := e.m.natAbs
    let present := gs.filterMap fun g => match groupSum g j w s with | some (.group _ x) => some (g, x) | _ => none
    let away := gs.filter fun g => !present.any fun p => p.1 == g
    let heldAll := away.map fun g => (g, (aget (slotSt j s).held g).getD 0)
    let held := fitHeld (sumL (heldAll.map (·.2)) - mag / 65536) heldAll
    let rest := mag / 65536 - sumL (held.map (·.2))
    let r := apportion e.neg (rest * 65536 + mag % 65536) (maskOf w.slalom % max 1 present.length) (present.map fun p => appGroup e.neg e.dir p.1 p.2)
    let alloc := held ++ (List.range present.length).map fun i => ((present.getD i (0, mergeSlot j w s)).1, r.n.getD i 0)
    let carve := r.carve.map fun i => (present.getD i (0, mergeSlot j w s)).1
    let f := if carve.isSome then mag % 65536 else 0
    let head := heads j e s
    let nAv := sumL (present.map fun p => p.2.a.nAv)
    let wref := if nAv == 0 then 0 else sumL (present.map fun p => p.2.swSum) / nAv
    let e' : RefEntry := if head then { e with binValid := true, binShift := (binSent j w s).2, binBase := (binSent j w s).1,
                                                stick := w.sticks.getD j 0, wearRef := wref, wearGain := slotCfg j 1 s } else e
    let out := gs.map fun g => (g, { e' with m := mOf e.neg ((aget alloc g).getD 0) (if carve == some g then f else 0) })
    let s := onlyIf r.mism (bump (O.BAL_POL_MISMATCH j)) (onlyIf r.hsat (bump (O.BAL_HIST_SAT j)) s)
    let s := onlyIf r.edge (bump (O.BAL_EDGE_PERIODS j)) (onlyIf r.sat (bump (O.BAL_SAT_PERIODS j)) s)
    let s := updSlot j (fun x => { x with sat := r.sat, held := alloc }) s
    let s := wr (O.BAL_WEAR_REF j) e'.wearRef s
    let s := wr (O.BAL_N j) (sumL (alloc.map (·.2))) (wr (O.BAL_F j) f (wr (O.BAL_DIR_POL j) (dirPol e r.sat) s))
    (out, onlyIf (head && slotCfg j 2 s != 0) (fun s => wr (O.BAL_BIN_BASE_EFF j) e'.binBase (wr (O.BAL_BIN_SHIFT_EFF j) e'.binShift s)) s)

/-- Every entry that goes down, by the group's first downlink, in slot order and then over the 0xFE links (R43). -/
def entriesDown (w : PeriodWork) (s : State) : List (Nat × RefEntry) × State :=
  let r := (slotsHere s).foldl (fun (r : List (Nat × RefEntry) × State) j =>
    match entryOf (slotArm j r.2) w with
    | some e => let x := slotEntries j e w r.2; (r.1 ++ x.1, x.2)
    | none => r) ([], s)
  let fe := (feGroups s).flatMap fun g => ((aget s.bal.groupArms g).getD []).filterMap fun a => (entryOf a w).map fun e => (g, e)
  (r.1 ++ fe, r.2)

/-- Entries for a period are present: they are taken, shown and used where the reports have closed (R42, R43, R56). -/
def takeEntries (k : Nat) (l : List RefEntry) (s : State) : State :=
  let arms := (List.range 6).map (fun j => slotArm j s) ++ (feGroups s).flatMap fun g => (aget s.bal.groupArms g).getD []
  let s := onlyIf (l.any fun e => !arms.contains e.arm) (wr (O.BAL_CFG_ERROR 0) 2) s
  let mine := l.filter fun e => arms.contains e.arm
  let s := updWork k (fun x => { x with refs := some mine, refAt := vtTicks s }) s
  let s := each (slotsHere s) (fun j s =>
    match mine.find? fun e => e.arm == slotArm j s with
    | none => s
    | some e =>
      let s := updSlot j (fun x => { x with last := some e, bin := if e.binValid then some (e.binBase, e.binShift) else x.bin }) s
      wr (O.BAL_HEAD j) (b2n (heads j e s)) (wr (O.BAL_M j) (ofI 64 e.m) s)) s
  each (slotsHere s) (selectSlot k) s

end Sys2Proof.Machine
end

