-- ==== Sys2Proof/Machine/OpsRed.lean ====
section
/-! DEFINITION. Duplication as shared operations: claims, side states, roles, comparison and the plausibility check (R199 to R215, R221). -/
namespace Sys2Proof.Machine

/-- The duplication unit's own state changed. -/
def updRed (f : RedSt → RedSt) (s : State) : State := { s with red := f s.red }

/-- The state limit of a claim (R200), by RED_STATE. -/
def redLimit (st : Nat) : Nat := nth [2, 0xF, 4, 6, 0] st 0

/-- Side B is primary as this apex takes it: the A apex's value where the two differ (R221). -/
def primaryB (s : State) : Bool :=
  match s.red.peerPrimaryB with
  | some p => if sideB s then p else rd O.RED_PRIMARY_SIDE s == 1
  | none => rd O.RED_PRIMARY_SIDE s == 1

/-- The parent base (R200, R202). -/
def parentBase (s : State) : Nat :=
  if isApex s then (if sideB s == primaryB s then 0xC else 8)
  else if s.red.noticeLost then 2 else fld (rd O.RED_PARENT_CLAIM s) 15 12

/-- The parent's health; the apex has its own alone. -/
def parentHealth (s : State) : Nat :=
  if isApex s then 4095 else if s.red.noticeLost then 0 else fld (rd O.RED_PARENT_CLAIM s) 11 0

/-- Own health by Table 7.2 (R201). -/
def ownHealth (s : State) : Nat :=
  let law := rd O.LAW_STATE s
  let lanes := ((List.range 68).filter fun n => rd (O.LNK_EXPECT n) s == 1 && !inL5 n s).length
  let split := (s.tree.pistes.filter fun p => rd (O.BAL_LINK_ARM p.1) s ≤ 5 && rdBit O.BAL_SPLIT_PISTES p.1 s).length
  let late := (s.bal.abandonAt.filter fun t => s.tick < t + ms 1000).length
  4095 - ((if rd O.TIM_VT_STATE s == 1 then 0 else 1024) + (if law == 3 then 512 else if law == 2 then 256 else 0)
    + 128 * popcount 8 (rd O.SYS_EXHAUSTED s) + 64 * lanes + 16 * split + 16 * min 16 late)

/-- The health of the claim (R200): the published own health, no more than the parent's. -/
def claimHealth (s : State) : Nat := min (rd O.RED_HEALTH s) (parentHealth s)

/-- The claim the node would carry in SERVICE. -/
def resultingClaim (s : State) : Nat := min 0xF (parentBase s) * 4096 + claimHealth s

/-- The base in the frames of period k. -/
def baseOf (k : Nat) (s : State) : Nat :=
  match s.red.basePend with
  | some b => if b.2 ≤ k then b.1 else s.red.base
  | none => s.red.base

/-- The claim of period k. -/
def claimOf (k : Nat) (s : State) : Nat := baseOf k s * 4096 + claimHealth s

/-- A work none of whose frames has gone. -/
def PeriodWork.untouched (w : PeriodWork) : Bool := w.launched.isEmpty && !w.apportioned && !w.sumSent

/-- The base that state limit and parent base give takes effect in period kx; works of that period or later that have sent nothing carry it (R200, R202). -/
def setBase (kx : Nat) (s : State) : State :=
  let b := min (redLimit (rd O.RED_STATE s)) (parentBase s)
  let planned := match s.red.basePend with | some p => p.1 | none => s.red.base
  if b == planned then s
  else
    let s := updRed (fun r => { r with basePend := some (b, kx) }) s
    updBal (fun x => { x with works := x.works.map fun w => if kx ≤ w.k && w.untouched then { w with claim := claimOf w.k s } else w }) s

/-- RED_STATE goes to a state whose base change has K_X kx (Table 7.3). -/
def redTo (new kx : Nat) (s : State) : State :=
  let old := rd O.RED_STATE s
  let out (x : Nat) : Bool := x == 2 || x == 4
  let s := wr O.RED_STATE new s
  let s := setLive 212 (out new) new s
  let s := onlyIf (out old && !out new) (setLive 213 false 0) s
  let s := onlyIf (out new) (bump O.RED_DEMOTIONS) s
  let hold := rd O.RED_REVERT_HOLD s
  let s := updRed (fun r => { r with
    revertEnd := if new == 3 then some (vtTicks s + ms hold) else none
    mism := false
    enteredAt := if new == 0 then s.tick else r.enteredAt
    cleanRun := if new == 2 then 0 else r.cleanRun }) s
  setBase kx (wr O.RED_REVERT_LEFT (if new == 3 then hold else 0) s)

/-- K_X of a row of Table 7.3 that states no other. -/
def leadK (s : State) : Nat := kNow s + rd O.RED_XOVER_LEAD s

/-- A latched source has the reaction DEMOTE, in DUPLEX (R272). -/
def demotePending (s : State) : Bool := isDuplex s && s.ket.latched.any fun n => bit (reactOf n s) 3

/-- A DIGEST has come since reset. -/
def digestSeen (s : State) : Bool := s.red.digestAt.isSome

/-- The resulting claim lies above the duplicate's claim. -/
def aboveDuplicate (s : State) : Bool := resultingClaim s > rd O.RED_PEER_CLAIM s

/-- In step with the leader long enough (R217). -/
def inStep (s : State) : Bool := rd O.RED_INSTEP_RUN s ≥ rd O.RED_INSTEP_PERIODS s

/-- The rows of Table 7.3 that hang on conditions alone (SIDE_STATE_EVAL). -/
def redEval (s : State) : State :=
  if !isNode s then s
  else
    let st := rd O.RED_STATE s
    let past := digestSeen s && aboveDuplicate s
    if st == 0 then
      let ready : Bool := rd O.TREE_ENUM_STATUS s == 2 && rd O.TIM_VT_STATE s == 1 && s.tim.inForce.isSome && (isApex s || s.red.noticeAt.isSome)
      if !ready then s
      else if !digestSeen s then (if s.red.enteredAt + ms (rd O.RED_REVERT_HOLD s) ≤ s.tick then redTo 1 (kNow s + 2) s else s)
      else if past then redTo 3 (leadK s) s else redTo 1 (kNow s + 2) s
    else if st == 1 then (if demotePending s then redTo 2 (leadK s) (wr O.RED_LAST_DECISION 6 s) else s)
    else if st == 2 then
      if s.red.cleanRun ≥ rd O.RED_RECOVER_PERIODS s && !demotePending s then redTo (if past then 3 else 1) (leadK s) s else s
    else if st == 3 then
      let held : Bool := match s.red.revertEnd with | some t => t ≤ vtTicks s | none => true
      if held && inStep s && rd O.RED_REVERT_ENABLE s == 1 then redTo 1 (leadK s) (bump O.RED_RETURNS s)
      else if !past then redTo 1 (leadK s) s else s
    else s

/-- The rows at a P-mark: a mismatch since the one before takes RETURNING to DEMOTED unless a row nearer the end applies (Table 7.3). -/
def redEvalMark (s : State) : State :=
  let s := redEval s
  let s := if s.red.mism && rd O.RED_STATE s == 3 then redTo 2 (leadK s) s else s
  updRed (fun r => { r with mism := false }) s

/-- The law engine has entered FAULT (the OUT row of Table 7.3). -/
def redLawFault (s : State) : State :=
  let st := rd O.RED_STATE s
  if st == 1 || st == 2 || st == 3 then redTo 4 (kNow s + 2) s else s

/-- The duplicate's claim for period k: its latest, with the base that a decision gave it from its K_X (R215). -/
def peerClaimFor (k : Nat) (s : State) : Nat :=
  let c := rd O.RED_PEER_CLAIM s
  match s.red.peerPend with
  | some p => if p.2 ≤ k then min p.1 (c / 4096) * 4096 + c % 4096 else c
  | none => c

/-- RED_ROLE for period k (R207, R219). -/
def roleFor (k : Nat) (s : State) : Nat :=
  if !isDuplex s then 0
  else
    let o := claimOf k s
    let p := peerClaimFor k s
    if o > p || (o == p && !sideB s) then 1 else 2

/-- A law graph is loaded. -/
def hasGraph (s : State) : Bool := rd O.LAW_LOAD_STATUS s == 1

/-- RED_INSTEP_RUN set. -/
def setInstep (n : Nat) (s : State) : State := wr O.RED_INSTEP_RUN (satU 32 n) s

/-- The sum of the miss counters over all arm slots (R213). -/
def missSum (s : State) : Nat := sumL ((List.range 6).map fun j => rd (O.BAL_MISSING j) s + rd (O.BAL_GROUP_MISSING j) s)

/-- A check window begins with period k (R213). -/
def startCheck (k : Nat) (s : State) : State :=
  let c : CheckSt := { start := k, last := k + rd O.RED_CHECK_PERIODS s - 1, follower := roleFor k s == 2, fails := [], misses0 := missSum s,
                       misses := 0, sent := false }
  wr O.RED_VERDICT 0 (wr O.RED_CHECK_STATE 1 (updRed (fun r => { r with check := some c, lastCheck := none, peerVerdict := none }) s))

/-- A window may start: none is running and both sides are in SERVICE. -/
def mayCheck (s : State) : Bool := s.red.check.isNone && rd O.RED_STATE s == 1 && s.red.peerState == 1

/-- The own verdict at the end of the window (R213). -/
def setVerdict (s : State) : State :=
  match s.red.check with
  | none => s
  | some c =>
    if rd O.RED_CHECK_STATE s != 1 then s
    else
      let n := c.last + 1 - c.start
      let fail := hasGraph s && c.fails.any fun f => 2 * f.2 > n
      let s := updRed (fun r => { r with check := some { c with misses := low 32 (missSum s - c.misses0) } }) s
      wr O.RED_VERDICT (if fail then 2 else 1) (wr O.RED_CHECK_STATE 2 s)

/-- The outcome of a decision for this side, and its code (Table 7.8): 0 unchanged, 2 DEMOTED, 4 OUT. Verdicts 1 PASS, 2 FAIL. -/
def checkOutcome (own peer mOwn mPeer both : Nat) (follower : Bool) : Nat × Nat :=
  match own, peer with
  | 2, 1 => (2, 1)
  | 1, 2 => (0, 2)
  | 2, _ => (if both == 0 then 2 else 4, 3)
  | _, _ => if mOwn != mPeer then (if mOwn > mPeer then 2 else 0, 4) else (if follower then 2 else 0, 5)

/-- What a decision leaves (R214). -/
def endCheck (c : CheckSt) (code : Nat) (s : State) : State :=
  let s := updRed (fun r => { r with check := none, lastCheck := if c.sent then none else some c, peerVerdict := none, lastEnd := c.last }) s
  bump O.RED_CHECKS (wr O.RED_MISMATCH_CONSEC 0 (wr O.RED_CHECK_STATE 0 (if code == 0 then s else wr O.RED_LAST_DECISION code s)))

/-- This side goes to a state by a decision, from the states Table 7.3 lists. -/
def decided (to_ kx : Nat) (s : State) : State :=
  let st := rd O.RED_STATE s
  if to_ == 2 && st == 1 then redTo 2 kx s
  else if to_ == 4 && (st == 1 || st == 2 || st == 3) then redTo 4 kx s else s

/-- Both verdicts held: the decision of Table 7.8 (R214, R215); the OUT row states its own K_X (Table 7.3). -/
def tryDecide (s : State) : State :=
  match s.red.check, s.red.peerVerdict with
  | some c, some (v, m, last) =>
    if rd O.RED_CHECK_STATE s != 2 then s
    else
      let both := rd O.RED_BOTH_REACT s
      let own := rd O.RED_VERDICT s
      let kx := max c.last last + rd O.RED_XOVER_LEAD s
      let r := checkOutcome own v c.misses m both c.follower
      let p := checkOutcome v own m c.misses both (!c.follower)
      let s := endCheck c r.2 s
      let s := onlyIf (r.2 == 3) (setLive 213 true 0) s
      let kOf (st : Nat) : Nat := if st == 4 then kNow s + 2 else kx
      let s := onlyIf (p.1 != 0) (updRed fun x => { x with peerPend := some (redLimit p.1, kOf p.1) }) s
      decided r.1 (kOf r.1) s
  | _, _ => s

/-- Period k compared with result (R210, R213). -/
def comparedAs (k : Nat) (mismatch : Bool) (s : State) : State :=
  if mismatch then
    let s := bump O.RED_MISMATCHES (bump O.RED_MISMATCH_CONSEC (updRed (fun r => { r with cleanRun := 0, mism := true }) s))
    if rd O.RED_MISMATCH_CONSEC s ≥ rd O.RED_MISMATCH_PERIODS s && mayCheck s then startCheck (k + 1) s else s
  else wr O.RED_MISMATCH_CONSEC 0 (updRed (fun r => { r with cleanRun := r.cleanRun + 1 }) s)

/-- The pair of period k. -/
def pair? (k : Nat) (s : State) : Option DigestPair := s.red.pairs.find? fun p => p.k == k

/-- The pair of period k changed; a new one where there is none. -/
def updPair (k : Nat) (f : DigestPair → DigestPair) (s : State) : State :=
  let new : DigestPair := { k := k, own := none, peer := none, done := false }
  let upd (l : List DigestPair) : List DigestPair :=
    if l.any fun p => p.k == k then l.map fun p => if p.k == k then f p else p else (f new :: l).take 16
  updRed (fun r => { r with pairs := upd r.pairs }) s

/-- The comparison of period k once both digests are held (R210). -/
def comparePair (k : Nat) (s : State) : State :=
  match pair? k s with
  | some { own := some a, peer := some b, done := false, .. } =>
    let s := updPair k (fun p => { p with done := true }) s
    if a.abandoned || b.abandoned || a.ownInputs || b.ownInputs then s
    else if a.dRefIn != b.dRefIn then comparedAs k false (bump O.RED_UPSTREAM_DIFF s)
    else
      let m : Bool := a.dOut != b.dOut || a.dLaw != b.dLaw || a.inDisc || b.inDisc
      comparedAs k m (onlyIf (!m && a.dSum != b.dSum) (bump O.RED_SUM_DIFF) s)
  | _ => s

/-- Source 215: a condition of R221, or a DIGEST within the latest 10 ms in SIMPLEX (R219, R432). -/
def configLive (diff : Bool) (s : State) : State :=
  let sx : Bool := match s.red.simplexAt with | some t => !isDuplex s && s.tick < t + ms 10 | none => false
  setLive 215 (diff || sx) 0 s

/-- RED_MODE written: in SIMPLEX nothing is compared or checked any more (R219). -/
def redMode (s : State) : State :=
  configLive false (if isDuplex s then s
    else wr O.RED_CHECK_STATE 0 (updRed (fun r => { r with check := none, lastCheck := none, peerVerdict := none, pairs := [] }) s))

/-- LAW_BANK_CRC of the active bank; 0 without a graph (Table 7.6). -/
def bankCrc (s : State) : Nat := if hasGraph s then (if rd O.LAW_ACTIVE_BANK s == 0 then rd O.LAW_BANK_CRC0 s else rd O.LAW_BANK_CRC1 s) else 0

/-- A period number from its low 32 bits, the nearest to the present. -/
def periodOf32 (x : Nat) (s : State) : Nat :=
  let k := kNow s
  let d := low 32 (k + 2 ^ 32 - x % 2 ^ 32)
  if d < 2 ^ 31 then k - d else k + (2 ^ 32 - d)

/-- A value put under a period, the latest 8 kept. -/
def byPeriod (k : Nat) (v : α) (l : List (Nat × α)) : List (Nat × α) := ((k, v) :: l.filter fun e => e.1 != k).take 8

/-- The duplication unit at a P-mark: health, base, claim and role of the period (R200, R201, R207). -/
def redPMark (k : Nat) (s : State) : State :=
  if !isNode s then s
  else
    let s := updRed (fun r => { r with health := ownHealth s }) s
    let s := if isApex s then setBase (k + rd O.RED_XOVER_LEAD s) s else s
    let s := redEvalMark s
    let s := updRed (fun r => { r with base := baseOf k s, basePend := match r.basePend with | some p => if p.2 ≤ k then none else some p | none => none,
                                       peerPend := match r.peerPend with | some p => if p.2 + 2 ≤ k then none else some p | none => none }) s
    each [laneP0, laneP1] startTx (wr O.RED_ROLE (roleFor k s) (wr O.RED_CLAIM (claimOf k s) s))

end Sys2Proof.Machine
end

