-- ==== Sys2Proof/Machine/OpsLaw.lean ====
section
/-! DEFINITION. The law engine's shared operations: signals, the graph, validation, worst-case time, states, banks, inputs, supervisor, schedule and evaluation (R109 to R133). -/
namespace Sys2Proof.Machine

/-- The law engine's own state changed. -/
def updLaw (f : LawSt → LawSt) (s : State) : State := { s with law := f s.law }

/-- Descriptor of element e. -/
def elemAt (e : Nat) (s : State) : Elem := Elem.of (ofLe (beBytes 16 (rd (O.LAW_ELEMENT e) s)))

/-- The graph: LAW_ELEMENTS descriptors (R111). -/
def graph (s : State) : List Elem := (List.range (rd O.LAW_ELEMENTS s)).map fun e => elemAt e s

/-- The element whose output an address names, and the output. -/
def sigElem (a : Nat) : Option (Nat × Nat) := if 256 ≤ a && a < 1792 then some ((a - 256) / 3, (a - 256) % 3) else none

/-- An address that a graph may read (BAD_SIGNAL, Table 4.12). -/
def sigOk (a : Nat) (g : List Elem) : Bool :=
  a < 1799 && match sigElem a with
  | some (e, o) => match g[e]? with | some x => o < elemOutputs x.typ | none => false
  | none => true

/-- KIND of an input binding, and its source fields (Table 4.4). -/
def inKind (b : Nat) : Nat := fld b 31 28

/-- A field quantity of Table 13.6. -/
def fieldCodeOk (q : Nat) : Bool := q ≤ 24 || (32 ≤ q && q ≤ 35) || (40 ≤ q && q ≤ 43) || q == 48 || q == 56 || q == 57

/-- An input binding with no reserved KIND or SOURCE (BAD_BINDING); SOURCE bits that a KIND does not use count as reserved where they are not 0 (log entry 43). -/
def inBindOk (b : Nat) : Bool :=
  match inKind b with
  | 0 => true
  | 1 => fld b 25 20 == 0 && fld b 19 12 ≤ 63
  | 2 => fld b 27 26 == 0 && fld b 19 16 == 0 && fld b 15 12 ≤ 5
  | 3 => fld b 27 20 == 0 && fieldCodeOk (fld b 19 12)
  | 4 => fld b 27 18 == 0
  | _ => false

/-- The input binding of input i. -/
def inBind (i : Nat) (s : State) : Nat := rd (O.LAW_IN_BIND i) s

/-- The ADC inputs of the graph. -/
def adcInputs (s : State) : List Nat := (List.range (rd O.LAW_INPUTS s)).filter fun i => inKind (inBind i s) == 1

/-- The bound outputs: kind, target, signal, in binding order (Table 4.7). -/
def outBinds (s : State) : List (Nat × Nat × Nat) :=
  ((List.range (rd O.LAW_OUTPUTS s)).map fun o => let b := rd (O.LAW_OUT_BIND o) s; (fld b 31 28, fld b 27 16, fld b 10 0)).filter fun b => b.1 != 0

/-- A target within the range of its kind. -/
def outTargetOk (kind t : Nat) : Bool := t ≤ nth [4095, 63, 63, 7, 63, 31] kind 0

/-- Levels of the elements that run in period k (R121): (element, level). -/
def levels (g : List Elem) (k : Nat) : List (Nat × Nat) :=
  (List.range g.length).foldl (fun (l : List (Nat × Nat)) e =>
    match g[e]? with
    | none => l
    | some x =>
      if !x.runs k then l
      else
        let from_ := x.ins.map fun a => match sigElem a with | some (n, _) => if n < e then (aget l n).getD 0 else 0 | none => 0
        l ++ [(e, 1 + maxL from_)]) []

/-- One level placed on lanes (R121): loads at its end and the lane of each element. -/
def packLevel (g : List Elem) (lanes : Nat) (es : List Nat) : List Nat × List (Nat × Nat) :=
  es.foldl (fun (r : List Nat × List (Nat × Nat)) e =>
    let p := placeLane r.1
    let c := elemCost ((g[e]?.map (·.typ)).getD 0)
    (r.1.set p (r.1.getD p 0 + c), (e, p) :: r.2)) (List.replicate lanes 0, [])

/-- Cycles of all levels of a period, and the lane position of each element (R121, R122). -/
def packing (g : List Elem) (lanes k : Nat) : Nat × List (Nat × Nat) :=
  let lv := levels g k
  let top := maxL (lv.map (·.2))
  (List.range top).foldl (fun (r : Nat × List (Nat × Nat)) i =>
    let p := packLevel g lanes ((lv.filter fun x => x.2 == i + 1).map (·.1))
    (r.1 + maxL p.1 + 6, p.2 ++ r.2)) (0, [])

/-- Lanes the engine works on (R121, R396). -/
def lawLanes (s : State) : List Nat := working 1 s

/-- cycles(p) of R122. -/
def cyclesOf (k : Nat) (s : State) : Nat :=
  let g := graph s
  let ramps := (g.filter (·.ramp)).length
  let sch := max (rd (O.LAW_SCH_COUNT 0) s) (rd (O.LAW_SCH_COUNT 1) s)
  24 + 2 * ceilDiv (rd O.LAW_INPUTS s) 16 + ceilDiv ramps 16 + 4 * ceilDiv sch 16 + (packing g (lawLanes s).length k).1 + 24

/-- w_law in ticks (R122). -/
def wLaw (s : State) : Nat := maxL ((List.range 64).map fun p => cyclesOf p s) + rd O.LAW_MARGIN s

/-- Two coefficient blocks overlap. -/
def overlap (a b : Elem) : Bool := a.words != 0 && b.words != 0 && a.coef < b.coef + b.words && b.coef < a.coef + a.words

/-- The lowest code of Table 4.12 that element e fails, 0 for none. -/
def elemCode (g : List Elem) (e n : Nat) : Nat :=
  match g[e]? with
  | none => 0
  | some x =>
    if !x.typeOk n then 2
    else if !(x.ins.all fun a => sigOk a g) then 3
    else if x.words != 0 && (x.coef + x.words > 4096 || (g.take e).any fun y => overlap x y) then 4 else 0

/-- The lowest code that output o fails among the bindings l, 0 for none (Table 4.12); BAD_SIGNAL also names an output binding's SIGNAL (log entry 43). -/
def outCode (apex : Bool) (g : List Elem) (l : List Nat) (o : Nat) : Nat :=
  let b := l.getD o 0
  let kind := fld b 31 28
  if kind == 0 then 0
  else if !sigOk (fld b 10 0) g then 3
  else if kind > 5 || !outTargetOk kind (fld b 27 16) || (l.take o).any (fun c => fld c 31 16 == fld b 31 16) then 5
  else if !apex && kind ≤ 2 then 6 else 0

/-- The first failure of VALIDATE as code and item; none where every item passes (R133). -/
def lawFailure (s : State) : Option (Nat × Nat) :=
  let g := graph s
  let n := rd O.LAW_INPUTS s
  let outs := (List.range (rd O.LAW_OUTPUTS s)).map fun o => rd (O.LAW_OUT_BIND o) s
  match (List.range g.length).find? fun e => elemCode g e n != 0 with
  | some e => some (elemCode g e n, e)
  | none => match (List.range n).find? fun i => !inBindOk (inBind i s) with
    | some i => some (5, i)
    | none => match (List.range outs.length).find? fun o => outCode (isApex s) g outs o != 0 with
      | some o => some (outCode (isApex s) g outs o, o + 256)
      | none =>
        let t := tOf (kNow s) s
        if wLaw s > t || (!isApex s && rd O.LAW_LOCAL_START s + wLaw s > t) then some (7, 0xFFFF) else none

/-- VALIDATE (R133). -/
def lawValidate (s : State) : State :=
  match lawFailure s with
  | some f => wr O.LAW_LOAD_ITEM f.2 (wr O.LAW_LOAD_STATUS f.1 s)
  | none => lagRecompute (wr O.LAW_WCET (wLaw s) (wr O.LAW_LOAD_ITEM 0xFFFF (wr O.LAW_LOAD_STATUS 1 s)))

/-- Bank b is sealed. -/
def bankSealed (b : Nat) (s : State) : Bool := rdBit O.LAW_BANK_STATUS b s

/-- A word of a bank. -/
def coefAt (b c : Nat) (s : State) : Nat := rd (O.LAW_COEF b c) s

/-- A schedule entry: mode STEP, target, values (Table 4.9). -/
def schEntry (b i : Nat) (s : State) : Bool × Nat × List Nat :=
  let l := beBytes 36 (rd (O.LAW_SCH_ENTRY b i) s)
  let tm := ofLe (l.take 2)
  (bit tm 15, tm % 4096, (List.range 8).map fun j => ofLe ((l.drop (4 + 4 * j)).take 4))

/-- Targets of the entries a bank uses. -/
def schTargets (b : Nat) (s : State) : List Nat := (List.range (rd (O.LAW_SCH_COUNT b) s)).map fun i => (schEntry b i s).2.1

/-- What the seal of bank b refuses (R127). -/
def sealRefused (b : Nat) (s : State) : Bool :=
  let n := rd (O.LAW_SCH_POINTS b) s
  let t := schTargets b s
  rd O.LAW_ACTIVE_BANK s == b || (List.range 4096).any (fun c => !ffinite fmt32 (coefAt b c s))
    || (List.range 8).any (fun i => !ffinite fmt32 (rd (O.LAW_SCH_BP b i) s))
    || (List.range (n - 1)).any (fun i => !ltF (rd (O.LAW_SCH_BP b i) s) (rd (O.LAW_SCH_BP b (i + 1)) s))
    || (List.range t.length).any (fun i => (t.take i).contains (t.getD i 0))

/-- The bytes the seal covers (R127); the header in sub-index order and all 256 entries, used or not, are DEDUCED (log entry 40). -/
def bankBytes (b : Nat) (s : State) : List Nat :=
  ((List.range 4096).flatMap fun c => leBytes 4 (coefAt b c s))
    ++ ((List.range 8).flatMap fun i => leBytes 4 (rd (O.LAW_SCH_BP b i) s))
    ++ leBytes 1 (rd (O.LAW_SCH_POINTS b) s) ++ leBytes 2 (rd (O.LAW_SCH_SIGNAL b) s) ++ leBytes 4 (rd (O.LAW_SCH_HYST b) s)
    ++ leBytes 2 (rd (O.LAW_SCH_COUNT b) s) ++ (List.range 256).flatMap fun i => beBytes 36 (rd (O.LAW_SCH_ENTRY b i) s)

/-- SEAL_0 and SEAL_1 (R127). -/
def lawSeal (b : Nat) (s : State) : State :=
  wrBit O.LAW_BANK_STATUS b true (wr (if b == 0 then O.LAW_BANK_CRC0 else O.LAW_BANK_CRC1) (crc32 (bankBytes b s)) s)

/-- The presets of an element in bank b: the last words of its block (R115). -/
def presetsOf (b : Nat) (x : Elem) (s : State) : List Nat :=
  (List.range (elemStates x.typ)).map fun i => coefAt b (x.coef + x.words - elemStates x.typ + i) s

/-- Every state takes its preset from the active bank, region 0, no compensation (R128, Table 4.8). What was committed before is kept for an abandoned evaluation (R36). -/
def presetAll (s : State) : State :=
  let b := rd O.LAW_ACTIVE_BANK s
  let g := graph s
  let st := (List.range g.length).filterMap fun e => g[e]?.map fun x => (e, presetsOf b x s)
  wr O.LAW_SCH_REGION 0 (updLaw (fun l => { l with states := st, c0 := [], undo := some (l.states, l.c0) }) s)

/-- The trace unit's counters changed. -/
def updTrc (f : TrcSt → TrcSt) (s : State) : State := updLaw (fun l => { l with trc := f l.trc }) s

/-- A trigger arrives: the unit goes to TRIGGERED and the next sample is the trigger sample, or the trigger is ignored (R135). -/
def trcTrigger (s : State) : State :=
  if rd O.LAW_TRC_STATE s == 1 then wr O.LAW_TRC_STATE 2 (updTrc (fun t => { t with trig := true }) s) else bump O.LAW_TRC_TRIG_IGNORED s

/-- The engine goes to a state: its object and sources, the recorder of a STATE trace trigger, and what FAULT brings (R130, R132, R136). -/
def lawTo (new cause : Nat) (s : State) : State :=
  if rd O.LAW_STATE s == new then s
  else
    let s := wr O.LAW_STATE new s
    let s := setLive 209 (new == 4) cause (setLive 208 (new == 3) 0 (setLive 207 (new == 2) 0 s))
    let s := onlyIf (rd O.LAW_TRC_SRC s == 2) trcTrigger s
    if new == 4 then redLawFault (clearDeblock (wr O.LAW_FAULT_CAUSE cause s)) else s

/-- A swap of banks takes effect (R128). -/
def swapTo (b : Nat) (preset : Bool) (s : State) : State :=
  let s := wr O.LAW_ACTIVE_BANK b s
  if preset then presetAll s else s

/-- RUNNING, HOLD or FALLBACK. -/
def evaluates (s : State) : Bool := let x := rd O.LAW_STATE s; x == 1 || x == 2 || x == 3

/-- START takes effect (Table 4.8); committed signals of an earlier run stay (log entry 43). -/
def lawBegin (s : State) : State :=
  let s := updLaw (fun l => { l with undo := none }) (presetAll (updLaw (fun l => { l with ramps := [], sched := [], good := [], frz := [], frzOwn := [], runs := [], swap := [] }) s))
  lawTo 1 0 (wr O.LAW_GOOD_COUNT 0 (wr O.LAW_BAD_COUNT 0 s))

/-- The result word of an ADC input now. -/
def adcWordNow (i : Nat) (s : State) : Nat := let b := inBind i s; rd (O.ADC_RESULT (fld b 27 26) (fld b 19 12)) s

/-- The input is sampled at the P-mark (R232). -/
def adcHeld (i : Nat) (s : State) : Bool := let b := inBind i s; rdBit (O.ADC_SEQ_ENTRY (fld b 27 26) (fld b 19 12)) 15 s

/-- A waiting period with the results of its P-mark samples, once they are wanted (R31, R113). -/
def LawWait.fill (w : LawWait) (s : State) : LawWait :=
  if w.held then w
  else { w with held := true, adc := (adcInputs s).map fun i => (i, if adcHeld i s then adcWordNow i s else (aget w.adc i).getD (adcWordNow i s)) }

/-- The raw value of a field quantity: its bits and its F32 value (Table 13.6). -/
def fieldRaw (q : Nat) (s : State) : Nat × Nat :=
  let int (w k : Nat) : Nat × Nat := (rd k s, f32OfI (toI w (rd k s)))
  let flag (k b : Nat) : Nat × Nat := (b2n (rdBit k b s), f32OfI (b2n (rdBit k b s)))
  if q ≤ 15 then flag O.FIO_DI q
  else if q ≤ 23 then flag O.FIO_DO_STATE (q - 16)
  else if q == 24 then int 32 O.FIO_SUPPLY_MV
  else if q == 48 then (rd O.POS_SSI_POS s, f32OfI (rd O.POS_SSI_POS s : Nat))
  else if q == 56 || q == 57 then int 32 (O.POS_PRB_COUNT (q - 56))
  else
    let e := (q - 32) / 8
    if e == 1 && rd O.POS_PT_MODE s == 1 then (0, 0)
    else match (q - 32) % 8 with
    | 0 => int 32 (O.POS_COUNT e)
    | 1 => int 32 (O.POS_COUNT_PMARK e)
    | 2 =>
      let d := low 32 (rd (O.POS_COUNT_PMARK e) s + 2 ^ 32 - s.fio.pmPrev.getD e 0)
      (d, f32OfI (toI 32 d))
    | _ => (rd (O.POS_SPEED e) s, rd (O.POS_SPEED e) s)

/-- The raw value of an ARM quantity (Table 4.4). -/
def armRaw (a q : Nat) (s : State) : Nat :=
  match q with
  | 0 => rd (O.BAL_ARM_NAV a) s
  | 1 => rd (O.BAL_ARM_VSUM a) s
  | 2 => fld (rd (O.BAL_ARM_FLAGS a) s) 0 0
  | 3 => fld (rd (O.BAL_ARM_FLAGS a) s) 1 1
  | 4 => fld (rd (O.BAL_ARM_FLAGS a) s) 3 2
  | _ => fld (rd (O.BAL_ARM_FLAGS a) s) 4 4

/-- An ADC word's code as bits and F32, with BAD. -/
def adcRaw (w : Nat) : Nat × Nat × Bool := (low 16 w, f32OfI (toI 16 w), bit w 16)

/-- The raw value of input i at the law start of a waiting period: bits, F32 value, SOURCE_BAD (R113, R114). -/
def inRaw (w : LawWait) (i : Nat) (s : State) : Nat × Nat × Bool :=
  let b := inBind i s
  match inKind b with
  | 1 => adcRaw ((aget w.adc i).getD 0x00110000)
  | 2 =>
    let a := fld b 25 20
    let v := armRaw a (fld b 15 12) s
    (v, f32OfI (v : Nat), match work? w.k s with | some x => !armHeard a x s | none => true)
  | 3 => let v := fieldRaw (fld b 19 12) s; (v.1, v.2, !fieldUp s)
  | 4 => let v := rd (O.LAW_MAILBOX (fld b 17 12)) s; (v, v, false)
  | _ => (0, 0, false)

/-- v of R114. -/
def inScale (i raw : Nat) (s : State) : Nat := fmaF (rd (O.LAW_IN_GAIN i) s) raw (rd (O.LAW_IN_OFFSET i) s)

/-- RANGE and NONFINITE bits of a value. -/
def inBits (i v : Nat) (s : State) : Nat :=
  2 * b2n (ltF v (rd (O.LAW_IN_MIN i) s) || ltF (rd (O.LAW_IN_MAX i) s) v) + 4 * b2n (!ffinite fmt32 v)

/-- A mailbox word is STALE; the present law start counts (R114, log entry 41). -/
def mbxStale (word : Nat) (s : State) : Bool :=
  match aget s.law.mbx word with
  | some n => s.law.starts - n ≥ rd O.LAW_MBX_AGE s
  | none => true

/-- What the input stage has done: new signal values, inputs that were bad, own scaled values, whether a discrepancy of R212 was seen. -/
structure InStage where
  sig : List (Nat × Nat)
  bad : List Nat
  own : List (Nat × (Nat × Bool))
  disc : Bool
deriving DecidableEq, Repr

/-- One input (R114, R211, R212); lead: the leader's word where this side follows. -/
def inputOne (w : LawWait) (lead : List (Nat × Nat)) (i : Nat) (r : InStage × State) : InStage × State :=
  let s := r.2
  let b := inBind i s
  let kind := inKind b
  let o := inRaw w i s
  let ov := inScale i o.2.1 s
  let u := match aget lead i with | some x => if kind == 1 then adcRaw x else o | none => o
  let v := inScale i u.2.1 s
  let tol := rd (O.RED_IN_TOL i) s
  let disc : Bool := kind == 1 && (aget lead i).isSome && ltF 0 tol && ltF tol (absF (subF ov v))
  let run := match aget s.law.frz i with | some (x, n) => if x == u.1 then n + 1 else 1 | none => 1
  let frozen : Bool := bit b 9 && kind != 0 && run ≥ rd (O.LAW_FRZ_COUNT) s
  let stale : Bool := kind == 4 && mbxStale (fld b 17 12) s
  let bits := b2n u.2.2 + inBits i v s + 8 * b2n frozen + 16 * b2n stale
  let ownRun := match aget s.law.frzOwn i with | some (x, n) => if x == o.1 then n + 1 else 1 | none => 1
  let ownBad : Bool := o.2.2 || inBits i ov s != 0 || stale || (bit b 9 && kind != 0 && ownRun ≥ rd (O.LAW_FRZ_COUNT) s)
  let s := updLaw (fun l => { l with frz := aset l.frz i (u.1, run), frzOwn := aset l.frzOwn i (o.1, ownRun), good := if bits == 0 then aset l.good i v else l.good }) s
  let sv := if bits == 0 then v else (aget s.law.good i).getD 0
  let s := wr (O.LAW_IN_STATUS i) (if bits == 0 then 0 else bits + 128) s
  ({ sig := aset r.1.sig i sv, bad := if bits == 0 then r.1.bad else r.1.bad ++ [i], own := (i, (ov, ownBad)) :: r.1.own, disc := r.1.disc || disc }, s)

/-- The leader's words of period k where all ADC inputs of the graph are among them (R211). -/
def leaderInputs (k : Nat) (s : State) : Option (List (Nat × Nat)) :=
  match aget s.red.inputs k with
  | some l => if (adcInputs s).all fun i => (aget l i).isSome then some l else none
  | none => none

/-- All inputs of an evaluation (R113, R114, R211, R212). -/
def inputStage (w : LawWait) (s : State) : InStage × State :=
  let follows : Bool := w.role == 2 && !(adcInputs s).isEmpty
  let lead := if follows then leaderInputs w.k s else some []
  let late : Bool := lead.isNone
  let s := onlyIf late (fun s => bump O.RED_INPUTS_LATE (updRed (fun r => { r with ownInputs := (addTo r.ownInputs w.k) }) s)) s
  let z : InStage := { sig := [], bad := [], own := [], disc := false }
  let r := (List.range (rd O.LAW_INPUTS s)).foldl (fun r i => inputOne w (lead.getD []) i r) (z, s)
  let s := onlyIf r.1.disc (fun s => bump O.RED_IN_DISC (updRed (fun x => { x with inDisc := addTo x.inDisc w.k }) s)) r.2
  (r.1, updRed (fun x => { x with own := byPeriod w.k r.1.own x.own }) s)

/-- The supervisor (R130, Table 4.8): an input counts its own bad evaluations in a row, those before the entry to FALLBACK among them (log entry 43); bad: the bad inputs; swapped: an accepted swap takes effect in this evaluation. -/
def supervise (bad : List Nat) (swapped : Bool) (s : State) : State :=
  let st := rd O.LAW_STATE s
  let crit := bad.filter fun i => bit (inBind i s) 11
  let fb := bad.filter fun i => bit (inBind i s) 10
  let s := updLaw (fun l => { l with runs := bad.map fun i => (i, (aget l.runs i).getD 0 + 1) }) s
  let good := if crit.isEmpty then rd O.LAW_GOOD_COUNT s + 1 else 0
  let watched := if st == 3 then fb else crit
  let run := maxL (watched.map fun i => (aget s.law.runs i).getD 0)
  let s := wr O.LAW_BAD_INPUT (watched.headD 0xFFFF) (wr O.LAW_BAD_COUNT (satU 32 run) (wr O.LAW_GOOD_COUNT (satU 32 good) s))
  let lf := rd O.LAW_LOSS_FAULT s
  if st == 1 then (if run ≥ rd O.LAW_LOSS_HOLD s then lawTo 2 0 s else s)
  else if st == 2 then
    if run ≥ rd O.LAW_LOSS_FALLBACK s then
      let other := 1 - rd O.LAW_ACTIVE_BANK s
      if bankSealed other s then lawTo 3 0 (bump O.LAW_FALLBACKS (swapTo other (rd O.LAW_FB_MODE s == 1) s)) else lawTo 4 1 s
    else if good ≥ rd O.LAW_LOSS_RECOVER s then lawTo 1 0 s else s
  else if st == 3 then
    if swapped then lawTo 1 0 s
    else if lf > 0 && run ≥ lf then lawTo 4 2 s else s
  else s

/-- A scheduled value (R129). -/
def schValue (step : Bool) (bps vals : List Nat) (sigma region : Nat) : Nat :=
  let n := bps.length
  if step then wordAt vals region
  else if ltF sigma (wordAt bps 0) then wordAt vals 0
  else if leF (wordAt bps (n - 1)) sigma then wordAt vals (n - 1)
  else
    let i := lastLe bps n sigma
    fmaF (subF (wordAt vals (i + 1)) (wordAt vals i)) (divF (subF sigma (wordAt bps i)) (subF (wordAt bps (i + 1)) (wordAt bps i))) (wordAt vals i)

/-- The next region (R129). -/
def nextRegion (r : Nat) (bps : List Nat) (hyst sigma : Nat) : Nat :=
  if r + 1 < bps.length && leF (addF (wordAt bps (r + 1)) hyst) sigma then r + 1
  else if 0 < r && ltF sigma (subF (wordAt bps r) hyst) then r - 1 else r

/-- Scheduled coefficients and region in the input stage (R129); sig: the new signal values so far. A SIGMA that is not finite leaves the scheduled values as they were, of the bank before a swap too (log entry 43). -/
def scheduleStage (sig : List (Nat × Nat)) (s : State) : State :=
  let b := rd O.LAW_ACTIVE_BANK s
  let n := rd (O.LAW_SCH_POINTS b) s
  let r0 := rd O.LAW_SCH_REGION s
  let cut : Bool := r0 > n - 1
  let r1 := if cut then n - 1 else r0
  let s := wr O.LAW_SCH_REGION r1 s
  if n == 0 then updLaw (fun l => { l with sched := [] }) s
  else
    let a := rd (O.LAW_SCH_SIGNAL b) s
    let sigma := match sigElem a with | some _ => sigVal a s | none => (aget sig a).getD (sigVal a s)
    let s := wr O.LAW_SCH_SIGMA sigma s
    if !ffinite fmt32 sigma then bump O.LAW_SCH_INVALID s
    else
      let bps := (List.range n).map fun i => rd (O.LAW_SCH_BP b i) s
      let r := if cut then r1 else nextRegion r1 bps (rd (O.LAW_SCH_HYST b) s) sigma
      let sc := (List.range (rd (O.LAW_SCH_COUNT b) s)).map fun i => let e := schEntry b i s; (e.2.1, schValue e.1 bps e.2.2 sigma r)
      wr O.LAW_SCH_REGION r (updLaw (fun l => { l with sched := sc }) s)

/-- The value an element reads at an address: a lower element and what is not an output from this evaluation, else the committed value (R112). -/
def readSig (sig : List (Nat × Nat)) (e a : Nat) (s : State) : Nat :=
  match sigElem a with
  | some (n, _) => if n < e then (aget sig a).getD (sigVal a s) else sigVal a s
  | none => (aget sig a).getD (sigVal a s)

/-- The block of an element: scheduled words in place of the bank's (R129). -/
def blockOf (x : Elem) (s : State) : List Nat :=
  let b := rd O.LAW_ACTIVE_BANK s
  (List.range x.words).map fun i => (aget s.law.sched (x.coef + i)).getD (coefAt b (x.coef + i) s)

/-- One element of an evaluation (R116 to R120, R131). -/
def evalElem (k : Nat) (bad : List Nat) (v : LawEval) (e : Nat) (x : Elem) (s : State) : LawEval :=
  if !x.runs k then v
  else
    let c := blockOf x s
    let xs := x.ins.map fun a => readSig v.sig e a s
    let held := (aget s.law.states e).getD (List.replicate (elemStates x.typ) 0)
    let c0 := wordAt c 0
    let st := match aget s.law.c0 e with | some o => x.compensate o c0 (wordAt xs 0) held | none => held
    let r := x.evalFlush xs c st (x.step (tOf k s)) (!bad.contains (x.param % 256))
    let next := if rd O.LAW_STATE s == 2 && x.freeze then st else r.2
    let kept : Bool := !next.all (ffinite fmt32)
    let base := 256 + 3 * e
    let old := sigVal base s
    let y0 := wordAt r.1 0
    let outs := (List.range (elemOutputs x.typ)).map fun o => (base + o, if o == 0 && x.ramp then rampValue old y0 x.rate 0 else wordAt r.1 o)
    { v with sig := outs.foldl (fun l p => aset l p.1 p.2) v.sig, states := (e, if kept then held else next) :: v.states,
             c0s := if c.isEmpty then v.c0s else (e, c0) :: v.c0s, ramps := if x.ramp then (e, (old, y0, k)) :: v.ramps else v.ramps,
             err := if kept then v.err ++ [e] else v.err }

/-- Ramped outputs of elements that do not run move on (R120). -/
def rampStage (k : Nat) (g : List Elem) (sig : List (Nat × Nat)) (s : State) : List (Nat × Nat) :=
  s.law.ramps.foldl (fun l r =>
    match g[r.1]? with
    | some x => if x.ramp && !x.runs k then aset l (256 + 3 * r.1) (rampValue r.2.1 r.2.2.1 x.rate (k - r.2.2.2)) else l
    | none => l) sig

/-- The evaluation of period k after the input stage (R112, R121, R123, R129); cycles beyond cyclesOf in extra. -/
def evalGraph (k start extra : Nat) (lost : Bool) (i : InStage) (s : State) : LawEval × State :=
  let t := tOf k s
  let sys := [(1794, fratio fmt32 false t 400000000 0), (1795, f32OfI (rd O.LAW_ACTIVE_BANK s : Nat)), (1796, f32OfI (rd O.LAW_STATE s : Nat))]
  let s := scheduleStage (sys ++ i.sig) s
  let sig := (1797, rd O.LAW_SCH_SIGMA s) :: (1798, f32OfI (rd O.LAW_SCH_REGION s : Nat)) :: sys ++ i.sig
  let g := graph s
  let v : LawEval := { k := k, start := start, sig := rampStage k g sig s, states := [], c0s := [], ramps := [], err := [],
                       cycles := cyclesOf k s + extra, lost := lost, idle := false }
  ((List.range g.length).foldl (fun v e => match g[e]? with | some x => evalElem k i.bad v e x s | none => v) v, s)

/-- Offset of the law start in ticks after P(k) (R123). -/
def lawOffset (k : Nat) (s : State) : Nat := if isApex s then lawStartOf k s else rd O.LAW_LOCAL_START s

/-- An evaluation in which the engine does not evaluate. -/
def LawEval.none_ (k start : Nat) : LawEval :=
  { k := k, start := start, sig := [], states := [], c0s := [], ramps := [], err := [], cycles := 0, lost := false, idle := true }

/-- Bank b, PRESET, from the latest accepted request due at period k. -/
def swapDue (k : Nat) (s : State) : Option (Nat × Bool) := ((s.law.swap.filter fun q => q.2.2 ≤ k).getLast?).map fun q => (q.1, q.2.1)

/-- Residue failures of elements (R110): the extra cycles, the lanes that failed; the source rises for each. -/
def residueFailures (k : Nat) (fails : List Nat) (s : State) : Nat × State :=
  let g := graph s
  let p := (packing g (lawLanes s).length k).2
  let ran := fails.filter fun e => (aget p e).isSome
  let lanes := ran.filterMap fun e => (aget p e).bind fun i => (lawLanes s)[i]?
  let s := each lanes (fun l => pulse 206 l) s
  (sumL (ran.map fun e => elemCost ((g[e]?.map (·.typ)).getD 0)),
   updLaw (fun x => { x with lanesOut := lanes.foldl addTo x.lanesOut }) s)

/-- Evaluation of a waiting period begins (R110, R113 to R131). -/
def lawStart (w : LawWait) (fails : List Nat) (corrected : Nat) (ecc : Bool) (s : State) : State :=
  let start := vtTicks s
  let s := onlyIf ecc (bump O.SYS_ECC_UNCORR) (bumpN corrected O.SYS_ECC_CORR s)
  let s := updLaw (fun l => { l with starts := l.starts + 1 }) s
  if !evaluates s then updLaw (fun l => { l with eval := some (LawEval.none_ w.k start) }) s
  else
    let r := inputStage (w.fill s) s
    let due := swapDue w.k r.2
    let s := match due with
      | some (b, p) => let s := updLaw (fun l => { l with swap := l.swap.filter fun q => w.k < q.2.2 }) r.2; if b == rd O.LAW_ACTIVE_BANK s then s else swapTo b p s
      | none => r.2
    let s := supervise r.1.bad due.isSome s
    if !evaluates s then updLaw (fun l => { l with eval := some (LawEval.none_ w.k start) }) s
    else
      let f := residueFailures w.k fails s
      let noSpare : Bool := ecc || (f.1 != 0 && (classMap 1 s).spares.isEmpty)
      let v := evalGraph w.k start (f.1 + 2 * corrected) noSpare r.1 f.2
      updLaw (fun l => { l with eval := some v.1 }) v.2

/-- The engine at a P-mark: pending START and STOP, failed lanes, the ADC inputs latched (R31, R113, R130, R396). -/
def lawPMark (k : Nat) (s : State) : State :=
  if !isNode s then s
  else
    let s := updLaw (fun l => { l with waits := l.waits.map fun w => w.fill s }) s
    let s := match s.law.pendCmd with
      | 1 => if rd O.LAW_STATE s == 0 && rd O.LAW_LOAD_STATUS s == 1 && bankSealed (rd O.LAW_ACTIVE_BANK s) s then lawBegin s else s
      | 2 => wr O.LAW_FAULT_CAUSE 0 (lawTo 0 0 s)
      | _ => s
    let n := (lawLanes s).length
    let s := each s.law.lanesOut (fun lg => failLogical 1 lg 0 3 lg) s
    let s := if (lawLanes s).length < n && rd O.LAW_LOAD_STATUS s == 1 then lagRecompute (wr O.LAW_WCET (min 40000 (wLaw s)) s) else s
    let w : LawWait := { k := k, adc := (adcInputs s).map fun i => (i, adcWordNow i s), held := (adcInputs s).isEmpty, role := roleFor k s }
    updLaw (fun l => { l with pendCmd := 0, lanesOut := [], waits := (l.waits ++ [w]).drop (l.waits.length + 1 - 8) }) s

/-- Objects that hold the graph, the bindings and the scaling (Table 4.18). -/
def isGraphObj (k : Nat) : Bool :=
  let i := k / 256
  (0x5400 ≤ i && i ≤ 0x5403) || k == O.LAW_ELEMENTS || k == O.LAW_INPUTS || k == O.LAW_OUTPUTS || (0x5100 ≤ i && i ≤ 0x5109) || i == 0x5200

/-- The bank of a bank object (Table 4.16). -/
def bankOf (k : Nat) : Option Nat :=
  let i := k / 256
  if 0x5800 ≤ i && i ≤ 0x581F then some 0 else if 0x5820 ≤ i && i ≤ 0x583F then some 1
  else if i == 0x5900 then some 0 else if i == 0x5901 then some 1
  else if i == 0x5A00 || i == 0x5A01 then some 0 else if i == 0x5A02 || i == 0x5A03 then some 1 else none

/-- What the engine's state makes of a write (Table 4.18, R127, R133, Table 4.15). Reserved fields of a descriptor or binding are refused by VALIDATE, by code (log entry 66). -/
def lawGuard (k v : Nat) (s : State) : Nat :=
  if isGraphObj k then stIf (rd O.LAW_STATE s != 0)
  else if k == O.LAW_ACTIVE_BANK then (if rd O.LAW_STATE s != 0 then stState else stIf (v ≤ 1 && !bankSealed v s))
  else if k == O.LAW_TRC_DECIM || k == O.LAW_TRC_PRE || k / 256 == 0x5038 then
    stIf (rd O.LAW_TRC_STATE s == 1 || rd O.LAW_TRC_STATE s == 2)
  else if k == O.LAW_LOSS_FALLBACK && v < rd O.LAW_LOSS_HOLD s then stRange
  else match bankOf k with
  | some b => stIf (rd O.LAW_ACTIVE_BANK s == b)
  | none => stOk

/-- What a completed write brings beside the value (R127, R133); by an application core for the mailbox (R114). -/
def lawWritten (k : Nat) (core : Bool) (s : State) : State :=
  if isGraphObj k then (if 0x5102 ≤ k / 256 && k / 256 ≤ 0x5109 then s else wr O.LAW_LOAD_STATUS 0 s)
  else if core && k / 256 == 0x5180 then updLaw (fun l => { l with mbx := aset l.mbx (k % 256 - 1) l.starts }) s
  else match bankOf k with
  | some b => wrBit O.LAW_BANK_STATUS b false s
  | none => s

end Sys2Proof.Machine
end

