-- ==== Sys2Proof/Machine/Adc.lean ====
section
/-! DEFINITION. The commands of the analogue subsystem (chapter 8). -/
namespace Sys2Proof.Machine

/-- ADC_CONVERSION_END (R224): the oldest conversion of a logical slice, or the next sample of its pair, with which a record may be complete; cs are the uncalibrated values. -/
def execAdcConversionEnd (slice : Nat) (cs shadow : List Int) (sat : Bool) (s : State) : Host.Outcome State Fault Refusal :=
  ok (acqComplete (convEnd slice cs shadow sat s))

/-- ADC_RUN_END (R229): the run of sequencer q ends. -/
def execAdcRunEnd (q : Nat) (s : State) : Host.Outcome State Fault Refusal := ok (adcNow (runEnd q s))

/-- The next TIMER instant of sequencer q (R229). -/
def timerTrig (q : Nat) (s : State) : State :=
  if seqTrig q s != 2 then s
  else
    let iv := max 1 (rd (O.ADC_SEQ_TIMER q) s)
    let t := (vtTicks s / iv + 1) * iv
    let s := adcNow (advVt t s)
    adcNow (trigSeq q s)

/-- ADC_SEQ_TIMER (R229). -/
def execAdcSeqTimer (q : Nat) (s : State) : Host.Outcome State Fault Refusal := ok (timerTrig q s)

/-- The refusal of a sequencer's objects that every write shares (R244). -/
def cellSeq (q : Nat) (s : State) : Nat := stIf (isCell s && q < 2)

/-- A write of ADC_SEQ_CMD (R229): START serves the SOFTWARE trigger. -/
def writeSeqCmd (q v : Nat) (s : State) : Res :=
  if q ≥ 4 then (stNoObject, s)
  else writeBy (O.ADC_SEQ_CMD q) v (cellSeq q s)
    (fun s => done (if v == 2 then stopSeq q false s else if seqTrig q s == 3 then adcNow (trigSeq q (adcNow s)) else s)) s

/-- ADC_SEQ_CMD START (R229). -/
def execAdcSeqStart (q : Nat) (s : State) : Host.Outcome State Fault Refusal := ok (finish (writeSeqCmd q 1 s))

/-- ADC_SEQ_CMD STOP (R229). -/
def execAdcSeqStop (q : Nat) (s : State) : Host.Outcome State Fault Refusal := ok (finish (writeSeqCmd q 2 s))

/-- A LAW_IN_BIND names the sequencer. -/
def lawBinds (q : Nat) (s : State) : Bool :=
  (List.range 256).any fun i => inKind (inBind i s) == 1 && fld (inBind i s) 27 26 == q

/-- The device's state refuses a new trigger kind (R228, R229, R244). -/
def seqTrigStatus (q v : Nat) (s : State) : Nat :=
  if isCell s && q < 2 then stState
  else if isNode s && rd O.LAW_STATE s != 0 && lawBinds q s then stState
  else if v ≤ 5 && 2 ≤ v && (List.range (rd (O.ADC_SEQ_LEN q) s)).any (fun e => entHeld (seqEntry q e s)) then stRange
  else if v == 5 && q == 0 then stRange
  else stOk

/-- A write of ADC_SEQ_TRIG (R229). -/
def writeSeqTrig (q v : Nat) (s : State) : Res :=
  if q ≥ 4 then (stNoObject, s)
  else writeBy (O.ADC_SEQ_TRIG q) v (seqTrigStatus q v s)
    (fun s =>
      let s := wr (O.ADC_SEQ_TRIG q) v (adcNow s)
      let s := if v == 0 then stopSeq q true s
        else if v == 4 && (seqSt q s).run.isNone && adcReady s then startRun q none s else s
      done (adcNow (updCalState s))) s

/-- ADC_SEQ_TRIG (R229). -/
def execAdcSeqTrig (q v : Nat) (s : State) : Host.Outcome State Fault Refusal := ok (finish (writeSeqTrig q v s))

/-- From P(k) - 100 ns no slice that a held round needs starts another conversion (R232). -/
def holdReserve (s : State) : State :=
  if adcReady s && hasGrid s && !(holdLayout s).isEmpty then adcNow (advVt (pOf (kNow s + 1) s - 40) (adcNow s)) else s

/-- ADC_HOLD_RESERVE (R232). -/
def execAdcHoldReserve (s : State) : Host.Outcome State Fault Refusal := ok (holdReserve s)

/-- The next round of held entries starts (R232). -/
def holdRound (s : State) : State :=
  match s.adc.rounds with
  | [] => s
  | r :: t =>
    let p := 2 * s.adc.roundAt
    let at_ := p + 80 * s.adc.roundN
    let s := adcNow (advVt (at_ / 2) s)
    let s := updAdc (fun a => { a with rounds := t, roundN := a.roundN + 1 }) s
    let s := each r (fun y s =>
      let n := entInput (seqEntry y.2.1 y.2.2 s)
      let num := match (seqSt y.2.1 s).run with | some x => x.num | none => 0
      let s := updAdc (fun a => { a with heldEnd := aset a.heldEnd n (at_ + 80) }) s
      entStarted y.2.1 y.2.2 at_ p (beginConv y.1 n (.entry y.2.1 y.2.2 num) at_ 1 p true s)) s
    adcNow s

/-- ADC_HOLD_ROUND (R232). -/
def execAdcHoldRound (s : State) : Host.Outcome State Fault Refusal := ok (holdRound s)

/-- The lowest logical slice idle at t after steps 1 and 2 of R231. -/
def idleSlice (t : Nat) (s : State) : Option Nat := (usableSlices s).find? fun l => sliceFree l s ≤ t && mayStart l t 1 s

/-- A priority request is served at the next ADC edge or dropped (R233). -/
def prioReq (v : Nat) (s : State) : State :=
  let t := adcEdge (halfNow s) s
  let s := adcCatch 64 t s
  match (if adcReady s then idleSlice t s else none) with
  | some l =>
    let n := s.adc.prioN + 1
    beginConv l v (.prio n) t 1 t false (updAdc (fun a => { a with prioN := n }) s)
  | none => bump O.ADC_PRIO_DROPPED s

/-- A write of ADC_PRIO_REQ (R233). -/
def writePrioReq (v : Nat) (s : State) : Res := writeBy O.ADC_PRIO_REQ v stOk (fun s => done (prioReq v s)) s

/-- ADC_PRIO_REQ (R233). -/
def execAdcPrioReq (v : Nat) (s : State) : Host.Outcome State Fault Refusal := ok (finish (writePrioReq v s))

/-- A change of gain or filter of input n takes effect at an ACQ edge, or waits for a held sample (R234). -/
def inputChange (n : Nat) (s : State) : State :=
  if n ≥ 16 then s
  else if holdsSample n s then updAdc (fun a => { a with chg := addTo a.chg n }) s
  else let t := 2 * ceilDiv (vtTicks s) 2; applyChange n (2 * t) (adcNow (advVt t s))

/-- ADC_INPUT_CHANGE (R234). -/
def execAdcInputChange (n : Nat) (s : State) : Host.Outcome State Fault Refusal := ok (inputChange n s)

/-- The settling of input n ends (R234). -/
def settlingEnd (n : Nat) (s : State) : State :=
  let l := (s.adc.settle.filter fun x => x.1 == n).map (·.2.2)
  if l.isEmpty then s else showSettle n (adcNow (advVt (ceilDiv (maxL l) 2) s))

/-- ADC_SETTLING_END (R234). -/
def execAdcSettlingEnd (n : Nat) (s : State) : Host.Outcome State Fault Refusal := ok (settlingEnd n s)

/-- A sequencer with a run in progress. -/
def seqRunning (q : Nat) (s : State) : Bool := (seqSt q s).run.isSome

/-- Pair p may not be turned on for input v (R236, R243). -/
def pairRefused (p v : Nat) (s : State) : Bool :=
  let used : Bool := (List.range 4).any fun q => seqRunning q s && (List.range (rd (O.ADC_SEQ_LEN q) s)).any fun e =>
    entHeld (seqEntry q e s) && entInput (seqEntry q e s) == v
  let left (q : Nat) : Bool := (List.range 4).any fun l => rdBit (O.ADC_SEQ_SLICES q) l s && l / 2 != p && (slicePhys l s).isSome && !pairSlice l s
  used || holdsSample v s || (List.range 4).any fun q => seqRunning q s && !left q

/-- A write of ADC_PAIR0 or ADC_PAIR1 (R235, R236, R243). -/
def writePair (p v : Nat) (s : State) : Res :=
  if p ≥ 2 then (stNoObject, s)
  else
    let k := if p == 0 then O.ADC_PAIR0 else O.ADC_PAIR1
    let noSlice : Bool := v != 0xFF && !((slicePhys (2 * p) s).isSome && (slicePhys (2 * p + 1) s).isSome)
    writeBy k v (if noSlice then stState else if v < 16 && pairRefused p v s then stRange else stOk)
      (fun s =>
        let s := wr k v (adcNow s)
        let s := updAdc (fun a => { a with pairs := a.pairs.modify p fun x =>
          if v == 0xFF then { x with off := x.on.isSome }
          else { x with on := some v, off := false, j := ceilDiv (vtTicks s - pOf (kNow s) s) 20, base := if hasGrid s then some (pOf (kNow s) s) else none } }) s
        done (updCalState s)) s

/-- ADC_PAIR_WRITE (R236). -/
def execAdcPairWrite (p v : Nat) (s : State) : Host.Outcome State Fault Refusal := ok (finish (writePair p v s))

/-- Input n is a held entry of a P_MARK sequencer. -/
def heldInput (n : Nat) (s : State) : Bool :=
  (List.range 4).any fun q => seqTrig q s == 1 && (List.range (rd (O.ADC_SEQ_LEN q) s)).any fun e =>
    entHeld (seqEntry q e s) && entInput (seqEntry q e s) == n

/-- The open-wire test of input n begins, or moves to a later period (R237). That of a held input begins with the end of its held conversion, until 25 ns later at the latest, or waits for the next. -/
def owStart (n : Nat) (s : State) : State :=
  let o := s.adc.ow.getD n OwSt.init
  if n ≥ 16 || !adcReady s || rd (O.ADC_IN_OW n) s == 0 || o.since.isSome then s
  else
    let s := adcNow (advVt (o.last + ms (rd O.ADC_OW_INTERVAL s)) s)
    let held := heldInput n s
    let h := (aget s.adc.heldEnd n).getD 0
    let t := if held then ceilDiv h 2 else vtTicks s
    let settle := us (rd O.ADC_OW_SETTLE s)
    if held && h + 20 < halfNow s then s
    else if held && hasGrid s && pOf (kNow s + 1) s < t + 8040 + settle then
      if o.skipK == some (kNow s) then s
      else bump O.ADC_OW_SKIPPED (updAdc (fun a => { a with ow := a.ow.set n { o with skipK := some (kNow s) } }) s)
    else
      let s := advVt t s
      openSettle n (2 * t) (2 * (t + 8040 + settle)) (updAdc (fun a => { a with ow := a.ow.set n { o with since := some t } }) s)

/-- OPEN_WIRE_TEST_START (R237). -/
def execOpenWireTestStart (n : Nat) (s : State) : Host.Outcome State Fault Refusal := ok (owStart n s)

/-- After 20 us the test conversion starts on the first idle slice, and the current ends with it (R237). -/
def owConvert (n : Nat) (s : State) : State :=
  let o := s.adc.ow.getD n OwSt.init
  match o.since with
  | none => s
  | some b =>
    let s := adcNow (advVt (b + 8000) s)
    let t := adcEdge (halfNow s) s
    match idleSlice t s with
    | none => s
    | some l =>
      let s := beginConv l n .openWire t 1 t false s
      let s := updAdc (fun a => { a with settle := a.settle.filter fun x => !(x.1 == n && x.2.1 == 2 * b),
                                         ow := a.ow.set n { o with since := none, last := b } }) s
      openSettle n (2 * b) (t + 80 + 2 * us (rd O.ADC_OW_SETTLE s)) s

/-- OPEN_WIRE_TEST_CONVERT (R237). -/
def execOpenWireTestConvert (n : Nat) (s : State) : Host.Outcome State Fault Refusal := ok (owConvert n s)

/-- Input n has stood at a code for a number of ticks: the trips it gives once that is the filter time, the end of a trip at once (R239, R283). -/
def comparator (n : Nat) (code : Int) (stood : Nat) (s : State) : State :=
  if n ≥ 16 then s
  else
    let long : Bool := rd (O.ADC_IN_CMP_FILT n) s ≤ stood
    let side (bit_ : Nat) (beyond : Bool) : Bool := beyond && (long || rdBit (O.ADC_IN_STATUS n) bit_ s)
    let above := side 3 (rdI 16 (O.ADC_IN_CMP_HI n) s < code)
    let below := side 2 (code < rdI 16 (O.ADC_IN_CMP_LO n) s)
    let s := wrBit (O.ADC_IN_STATUS n) 3 above (wrBit (O.ADC_IN_STATUS n) 2 below s)
    evalFns (setLive (180 + n) (above || below) n s)

/-- COMPARATOR_TRIP (R239): the code input n stands at and the ticks it has stood there. -/
def execComparatorTrip (n : Nat) (code : Int) (stood : Nat) (s : State) : Host.Outcome State Fault Refusal := ok (comparator n code stood s)

/-- A slice passes calibration: its own result, and inputs 17 and 18 within Table 8.2 (R240). -/
def CalCheck.ok (c : CalCheck) : Bool := c.pass && (c.c17 - 16384).natAbs ≤ 64 && c.c18.natAbs ≤ 8

/-- Calibration entries replace those of the same slice, path and gain. -/
def takeCal (l : List CalEntry) (s : State) : State :=
  updAdc (fun a => { a with cal := l ++ a.cal.filter fun e => !(l.any fun x => x.phys == e.phys && x.input == e.input && x.gain == e.gain) }) s

/-- The calibration of R240 ends after 1.8 ms: failing slices are mapped out, the counts start, the subsystem is READY (R242). -/
def calEnd (l : List CalEntry) (checks : List CalCheck) (s : State) : State :=
  match s.adc.calAt with
  | none => s
  | some t =>
    let phase := if s.adc.calBoot then 4 else 0
    let s := takeCal l (advVt (t + 720000) s)
    let s := updAdc (fun a => { a with calAt := none, calBoot := false, spareCal := none, due := [] }) s
    let bad := (checks.filter fun c => !c.ok && c.phys < 5).map (·.phys)
    let s := each (bad.filter fun p => !rdBit O.ADC_SLICE_OUT p s) (fun p => adcMapOut p phase) s
    let s := wr O.ADC_STATE 2 (updAdc (fun a => { a with counts := [0, 16384, 32768, 49152] }) s)
    let s := each (List.range 4) (fun q s => if seqTrig q s == 4 && (seqSt q s).run.isNone then startRun q none s else s) s
    adcNow (updCalState s)

/-- ADC_CALIBRATION_END (R240): entries found, and the checks of the physical slices. -/
def execAdcCalibrationEnd (l : List CalEntry) (checks : List CalCheck) (s : State) : Host.Outcome State Fault Refusal := ok (calEnd l checks s)

/-- Every sequencer is OFF and no pair is on. -/
def adcIdle (s : State) : Bool :=
  (List.range 4).all (fun q => seqTrig q s == 0) && rd O.ADC_PAIR0 s == 0xFF && rd O.ADC_PAIR1 s == 0xFF && s.adc.pairs.all fun p => p.on.isNone

/-- Calibration begins (R240). -/
def calStart (boot : Bool) (s : State) : State := wr O.ADC_STATE 1 (updAdc (fun a => { a with calAt := some (vtTicks s), calBoot := boot }) s)

/-- The counters that CLEAR_COUNTERS sets to 0 (R245). -/
def adcCounters : List Nat :=
  [O.ADC_PRIO_DROPPED, O.ADC_SWAPS, O.ADC_SWAP_REJECT, O.ADC_CAL_DEFERRED, O.ADC_OW_SKIPPED]
    ++ (List.range 4).flatMap fun q => [O.ADC_SEQ_OVERRUN q, O.ADC_SEQ_TRIG_LOST q]

/-- A write of ADC_CMD (R240, R245). -/
def writeAdcCmd (v : Nat) (s : State) : Res :=
  writeBy O.ADC_CMD v (stIf (v == 1 && !adcIdle s)) (fun s => done (if v == 1 then calStart false s else clearAll adcCounters s)) s

/-- ADC_CMD CALIBRATE (R240). -/
def execAdcCmdCalibrate (s : State) : Host.Outcome State Fault Refusal := ok (finish (writeAdcCmd 1 s))

/-- ADC_CMD CLEAR_COUNTERS (R245). -/
def execAdcCmdClearCounters (s : State) : Host.Outcome State Fault Refusal := ok (finish (writeAdcCmd 2 s))

/-- The conversion count of logical slice l has reached 65,536 (R242). -/
def swapDueDo (l : Nat) (s : State) : State :=
  if rd O.ADC_CAL_STATE s != 1 || s.adc.counts.getD l 0 < 65536 || s.adc.due.any (·.1 == l) then s
  else
    let s := if s.adc.spareCal.isSome then bump O.ADC_CAL_DEFERRED s else s
    updAdc (fun a => { a with due := a.due ++ [(l, halfNow s)] }) s

/-- ADC_SWAP_DUE (R242). -/
def execAdcSwapDue (l : Nat) (s : State) : Host.Outcome State Fault Refusal := ok (swapDueDo l s)

/-- The retired slice has calibrated itself and becomes the spare, or is mapped out (R240, R242). -/
def recalEnd (l : List CalEntry) (check : CalCheck) (s : State) : State :=
  match s.adc.spareCal, spareSlice s with
  | some t, some p =>
    let s := updAdc (fun a => { a with spareCal := none }) (takeCal l (advVt t s))
    if check.ok then s else adcMapOut p 0 s
  | _, _ => s

/-- ADC_SLICE_RECAL_END (R242). -/
def execAdcSliceRecalEnd (l : List CalEntry) (check : CalCheck) (s : State) : Host.Outcome State Fault Refusal := ok (recalEnd l check s)

end Sys2Proof.Machine
end

