-- ==== Sys2Proof/Machine/Bal.lean ====
section
/-! DEFINITION. The commands of the balancer (chapter 2). -/
namespace Sys2Proof.Machine

/-- A leaf node shows the latest report of a cell, counted or not. -/
def mirrorCell (r : Report) (s : State) : State :=
  if r.cellIndex > 1023 then s
  else
    let k := r.cellIndex / 16
    let p := r.cellIndex % 16
    wr (O.CEL_MIRROR_V k p) r.vKey (wr (O.CEL_MIRROR_STATE k p) r.cellState s)

/-- A valid report from a broken piste goes to the duplicate on P0 and P1, with RELAYED and the duplicate's DST_SIDE (R54, R160). -/
def relayReport (link : Nat) (h : Hdr) (r : Report) (s : State) : State :=
  if h.relayed || !rdBit O.BAL_SPLIT_PISTES link s then s
  else each [laneP0, laneP1] (fun n => sendOn n { hdr := { h with relayed := true, dstSide := !sideB s }, len := (Pay.report r).len, pay := .report r }) s

/-- The report is the first in time for its index in a period in work; relayed on P0 and P1, it counts as late once, and only where it leaves the cell uncounted (R52, R54). -/
def takeReport (link : Nat) (relayed : Bool) (r : Report) (j : Nat) (w : PeriodWork) (s : State) : State :=
  let late := w.closed.contains j || sinceP w.k s > pisteDeadline (r.cellIndex / 16, pisteLen (r.cellIndex / 16) s) s
  if relayed && (w.direct.contains r.cellIndex || !rdBit O.BAL_SPLIT_PISTES (r.cellIndex / 16) s) then s
  else if !relayed && r.cellIndex / 16 != link then s
  else if late then
    if relayed && (aget w.heard r.cellIndex).isNone && !w.splitLate.contains r.cellIndex then
      bump (O.BAL_SPLIT_LATE j) (updWork w.k (fun x => { x with splitLate := r.cellIndex :: x.splitLate }) s)
    else s
  else
    let seen := (aget w.heard r.cellIndex).isSome
    let s := updWork w.k (fun x => { x with heard := if seen then x.heard else x.heard ++ [(r.cellIndex, r)],
                                            direct := if relayed then x.direct else addTo x.direct r.cellIndex }) s
    let s := onlyIf (!seen && r.countable && r.shortfall) (bump (O.BAL_SHORTFALL j)) s
    match work? w.k s with
    | some x => if (awaited j s).all fun i => (aget x.heard i).isSome then closeSlot w.k j s else s
    | none => s

/-- A report arrives at a leaf node (R46, R52, R54, R55). -/
def reportRx (crcOk : Bool) (link : Nat) (h : Hdr) (r : Report) (s : State) : State :=
  if !isNode s || !crcOk || !r.valid then s
  else
    let s := relayReport link h r (mirrorCell r s)
    if r.cellIndex > 1023 then s
    else
      let j := rd (O.BAL_LINK_ARM (r.cellIndex / 16)) s
      match s.bal.works.find? fun w => low 32 w.k == r.period with
      | none => s
      | some w =>
        if !(awaited j s).contains r.cellIndex || w.ended then s else takeReport link h.relayed r j w s

/-- REPORT_RX (R52). -/
def execReportRx (crcOk : Bool) (link : Nat) (h : Hdr) (r : Report) (s : State) : Host.Outcome State Fault Refusal := ok (reportRx crcOk link h r s)

/-- The report deadline of slot j passes in the oldest period it has not closed (R52, R56). -/
def reportClose (j : Nat) (s : State) : State :=
  if !isNode s || (slotPistes j s).isEmpty then s
  else
    match oldest (fun w => !w.closed.contains j) s with
    | none => s
    | some w => closeSlot w.k j (advVt (pOf w.k s + ceilDiv (maxL ((slotPistes j s).map fun p => pisteDeadline p s)) 2500) s)

/-- REPORT_CLOSE (R56). -/
def execReportClose (slot : Nat) (s : State) : Host.Outcome State Fault Refusal := ok (reportClose slot s)

/-- A reference frame arrives from the parent; the second copy of a period adds its bytes to D_REF_IN alone (R42, R43, R46, R209). -/
def referenceRx (crcOk : Bool) (lane : Nat) (r : Reference) (s : State) : State :=
  if !isNode s || isApex s || !crcOk || !r.valid then s
  else
    match s.bal.works.find? fun w => low 32 w.k == r.period with
    | none => s
    | some w =>
      let s := updWork w.k (fun x => { x with refIn := x.refIn ++ [(lane, r.bytes)] }) s
      if w.refs.isSome || w.ended then s else takeEntries w.k r.entries s

/-- REFERENCE_RX (R43). -/
def execReferenceRx (crcOk : Bool) (lane : Nat) (r : Reference) (s : State) : Host.Outcome State Fault Refusal := ok (referenceRx crcOk lane r s)

/-- Send the command frames of slot j (R57, R59). -/
def sendCommands (j : Nat) (w : PeriodWork) (r : Sel) (s : State) : State :=
  let s := each (slotPistes j s) (fun p s =>
    let c := commandFor p j w r s
    let s := updWork w.k (fun x => { x with out := x.out ++ [(p.1, ({ c with claim := 0 } : Command).bytes)] }) s
    sendFrame 2 0 false (nodeAddr (nodeNum s) + p.1 * 16) (sideB s) false true (.command c) [p.1] s) s
  let s := ordersUsed j (updWork w.k (fun x => { x with launched := j :: x.launched }) s)
  periodLaunched w.k s

/-- The command frames of slot j at max(t_ref, t_rep) + 600 ns, after the comparator (R57, R58, R395). -/
def commandLaunch (j vote : Nat) (s : State) : State :=
  if !isNode s || (slotPistes j s).isEmpty then s
  else
    match oldest (fun w => !w.launched.contains j && !w.ended && (aget w.sel j).isSome) s with
    | none => s
    | some w =>
      match aget w.sel j with
      | none => s
      | some r =>
        let rep := pOf w.k s + ceilDiv (reportDone 1 (nodeNum s) s) 2500
        let s := advVt (max w.refAt rep + 240) s
        let c := compare w.k vote s
        if c.1 then sendCommands j w r c.2 else c.2

/-- COMMAND_LAUNCH (R57). -/
def execCommandLaunch (slot vote : Nat) (s : State) : Host.Outcome State Fault Refusal := ok (commandLaunch slot vote s)

/-- Send the entries of a period to each group on every downlink it has, six at most (R43, R45, R57). -/
def sendReferences (w : PeriodWork) (l : List (Nat × RefEntry)) (s : State) : State :=
  each (allGroups s) (fun g s =>
    let es := (l.filter fun e => e.1 == g).map (·.2)
    if es.isEmpty then s
    else
      let r : Reference := { period := low 32 w.k, entries := es.take 6 }
      each (linksOf g s) (fun k s =>
        let s := updWork w.k (fun x => { x with refOut := x.refOut ++ [(k, r.bytes)] }) s
        sendFrame 2 1 false (nodeAddr (getKey 0 k s.tree.kids)) (sideB s) true false (.reference r) [k] s) s) s

/-- An interior node launches its entries 300 ns after its reference; an apex at its law outputs (R57, R69). -/
def apportionLaunch (s : State) : State :=
  if !isNode s || (allGroups s).isEmpty then s
  else
    match oldest (fun w => !w.apportioned && !w.ended && w.refs.isSome) s with
    | none => s
    | some w =>
      let s := advVt (w.refAt + if isApex s then 0 else 120) s
      let r := entriesDown w s
      let s := sendReferences w r.1 r.2
      periodLaunched w.k (updWork w.k (fun x => { x with apportioned := true }) s)

/-- APPORTION_LAUNCH (R57). -/
def execApportionLaunch (s : State) : Host.Outcome State Fault Refusal := ok (apportionLaunch s)

/-- The least and greatest switching count of no cell: the spec states neither, so both are free values (log entry 3). -/
def fillExtremes (g : GroupSum) (s : State) : GroupSum × State :=
  if g.a.nAv != 0 then (g, s)
  else
    let a := takeFree 32 s
    let b := takeFree 32 a.2
    ({ g with swMin := a.1, swMax := b.1 }, b.2)

/-- The summary of the one arm of a 0xFE link whose group has sent no histograms: its counts, with HINC where they leave cells out (R65). -/
def bareGroup (a : Nat) (w : PeriodWork) (s : State) : GroupSum :=
  let c := ((armSums w s).find? fun x => x.arm == a).getD (ArmSum.zero a)
  { a := { c with part := true }, hpol := false, hinc := c.nAv != 0, binBase := 0, binShift := 0, swSum := 0, swMin := 0, swMax := 0,
    histC := List.replicate 64 0, histD := List.replicate 64 0, histH := List.replicate 16 0 }

/-- What the node sends up for a period: GROUP for one arm, ARMS for several (R65, R67). -/
def buildSummary (w : PeriodWork) (s : State) : Option Summary × State :=
  let p := low 32 w.k
  match armsHere s with
  | [] => (none, s)
  | [a] =>
    let g := match slotOf a s with
      | some j => slotSum j w s
      | none => ((feGroups s).findSome? fun k => match aget w.sums k with | some (.group _ x) => some x | _ => none).getD (bareGroup a w s)
    let r := fillExtremes { g with histC := g.histC.map (satU 11), histD := g.histD.map (satU 11), histH := g.histH.map (satU 11) } s
    (some (.group p r.1), r.2)
  | _ => (some (.arms p ((armSums w s).take 6)), s)

/-- Every input of a work has come or has passed its deadline. -/
def inputsDone (w : PeriodWork) (s : State) : Bool :=
  ((slotsHere s).all fun j => (slotPistes j s).isEmpty || w.closed.contains j)
    && (allGroups s).all fun g => (aget w.sums g).isSome || w.lost.contains g

/-- The summary, 100 ns after the last input or its deadline (R32, R58, R65). -/
def summaryLaunch (vote : Nat) (s : State) : State :=
  if !isNode s || isApex s then s
  else
    match oldest (fun w => !w.sumSent && !(w.ended && s.bal.withheldK == some w.k) && inputsDone w s) s with
    | none => s
    | some w =>
      let s := advVt (w.inputAt + 40) s
      let c := if w.ended then (true, s) else compare w.k vote s
      if !c.1 then c.2
      else
        let r := buildSummary w c.2
        match r.1 with
        | none => r.2
        | some y =>
          let s := updWork w.k (fun x => { x with sumSent := true, sumOut := (upOf [laneU0, laneU1] r.2).map fun _ => y.bytes }) r.2
          sendFrame 3 1 false (nodeAddr s.tree.parent) (sideB s) true false (.summary y) [laneU0, laneU1] s

/-- SUMMARY_LAUNCH (R32). -/
def execSummaryLaunch (vote : Nat) (s : State) : Host.Outcome State Fault Refusal := ok (summaryLaunch vote s)

/-- A group missed in a period counts at the head of its slot (R70). -/
def countMissing (g : Nat) (s : State) : State :=
  let j := rd (O.BAL_LINK_ARM g) s
  if j ≤ 5 && rd (O.BAL_HEAD j) s == 1 && 2 ≤ (slotGroups j s).length then bump (O.BAL_GROUP_MISSING j) s else s

/-- Counts of a slot with groups shown from what has come; with the last input the head's figures follow. -/
def showGroups (k g : Nat) (s : State) : State :=
  let j := rd (O.BAL_LINK_ARM g) s
  match work? k s with
  | some w => if j ≤ 5 then slotStats k j (showCounts j (mergeSlot j w s).a s) else s
  | none => s

/-- A group summary arrives (R42, R46, R65, R70). -/
def summaryRx (crcOk : Bool) (link : Nat) (y : Summary) (s : State) : State :=
  if !isNode s || !crcOk || !y.valid then s
  else
    match groupLink link s, s.bal.works.find? fun w => low 32 w.k == y.period with
    | some g, some w =>
      if w.lost.contains g || (aget w.sums g).isSome then s
      else
        let j := rd (O.BAL_LINK_ARM g) s
        let isArms : Bool := match y with | .arms _ _ => true | _ => false
        let s := onlyIf (isArms && j ≤ 5 && 2 ≤ (slotGroups j s).length) (fun s => countMissing g (wr (O.BAL_CFG_ERROR j) 1 s)) s
        let s := onlyIf (j == 0xFE) (updBal fun b => { b with groupArms := aset b.groupArms g (y.counts.map (·.arm)) }) s
        showGroups w.k g (updWork w.k (fun x => { x with sums := (g, y) :: x.sums, inputAt := max x.inputAt (vtTicks s) }) s)
    | _, _ => s

/-- SUMMARY_RX (R65). -/
def execSummaryRx (crcOk : Bool) (link : Nat) (y : Summary) (s : State) : Host.Outcome State Fault Refusal := ok (summaryRx crcOk link y s)

/-- The deadline of a group's summary as far as this node holds delays of the tree, in ticks after the P-mark (R37, R70). -/
def groupDeadline (g : Nat) (s : State) : Nat :=
  let e := ownEntry g s
  let c := getKey 0 g s.tree.kids
  ceilDiv (reportDone 6 c s + 100000 + e.dIn + slotPs 256 e.rate) 2500 + rd O.BAL_REPORT_MARGIN s

/-- A group's summary is not complete by its deadline (R70). -/
def summaryDeadline (link : Nat) (s : State) : State :=
  if !isNode s then s
  else
    match groupLink link s with
    | none => s
    | some g =>
      match oldest (fun w => (aget w.sums g).isNone && !w.lost.contains g) s with
      | none => s
      | some w =>
        let s := advVt (pOf w.k s + groupDeadline g s) s
        let s := updWork w.k (fun x => { x with lost := g :: x.lost, inputAt := max x.inputAt (vtTicks s) }) s
        showGroups w.k g (countMissing g s)

/-- GROUP_SUMMARY_DEADLINE (R70). -/
def execGroupSummaryDeadline (link : Nat) (s : State) : Host.Outcome State Fault Refusal := ok (summaryDeadline link s)

/-- The instant from which an output of this node can no longer reach its farthest cell, in valve ticks (R35). -/
def lastLaunch (k : Nat) (s : State) : Nat := eOf k s - gOf k s - ceilDiv (reachPs 6 (nodeNum s) s) 2500

/-- A period that the node has not launched is abandoned (R35). -/
def periodAbandon (s : State) : State :=
  if !isNode s then s
  else
    match oldest (fun w => !w.ended && (if (allGroups s).isEmpty then (slotsHere s).any fun j => !w.launched.contains j else !w.apportioned)) s with
    | none => s
    | some w => countLate w.k true (updWork w.k (fun x => { x with ended := true }) (advVt (lastLaunch w.k s) s))

/-- NODE_PERIOD_ABANDON (R35). -/
def execNodePeriodAbandon (s : State) : Host.Outcome State Fault Refusal := ok (periodAbandon s)

/-- What a write of a row of Table 2.14 meets: the window rule of R68; slot values in effect follow at once while the arm is blocked, at the next P-mark otherwise and always for STICK (R55, R68, R75). -/
def balGuard (k v : Nat) (s : State) : Nat :=
  let j := k / 256 - 0x4100
  if 0x4100 ≤ k / 256 && k / 256 ≤ 0x4105 then
    let base := if k == O.BAL_BIN_BASE j then v else rd (O.BAL_BIN_BASE j) s
    let shift := if k == O.BAL_BIN_SHIFT j then v else rd (O.BAL_BIN_SHIFT j) s
    if (k == O.BAL_BIN_BASE j || k == O.BAL_BIN_SHIFT j) && base + 64 * 2 ^ min shift 10 > 65536 then stRange else stOk
  else stOk

/-- The slot values in effect after a write (R75). -/
def balWritten (k : Nat) (s : State) : State :=
  let j := k / 256 - 0x4100
  if 0x4100 ≤ k / 256 && k / 256 ≤ 0x4105 && !armDeblocked (slotArm j s) s then
    updSlot j (fun x => { x with cfg := (x.cfg.getD 0 16) :: (slotObjs j s).drop 1 }) s
  else if isNode s && k / 256 == O.BAL_LINK_ARM 0 / 256 && 1 ≤ k % 256 && k % 256 ≤ 64 then updSplit (k % 256 - 1) s
  else s

/-- A P-mark in the balancer: values in effect, the slalom step, a new period's work, the triage (R50, R55, R75, R395). -/
def balPMark (k claim : Nat) (s : State) : State :=
  if !isNode s then s
  else
    let s := each (List.range 6) (fun j s => updSlot j (fun x => { x with cfg := slotObjs j s }) s) s
    let s := each (List.range 6) (fun j s => onlyIf (isHead j s && slotCfg j 2 s != 0)
      (fun s => wr (O.BAL_BIN_BASE_EFF j) (slotCfg j 3 s) (wr (O.BAL_BIN_SHIFT_EFF j) (slotCfg j 4 s) s)) s) s
    let sl := match paramsFor k s with
      | some p => if p.kEff == k then p.slalom else lfsr (rd O.BAL_SLALOM_STATE s)
      | none => lfsr (rd O.BAL_SLALOM_STATE s)
    let s := wr O.BAL_SLALOM_STATE sl s
    let st := (List.range 6).map fun j => slotCfg j 0 s
    updBal (fun b => { b with
      works := (PeriodWork.init k sl claim st :: b.works.filter fun w => w.k != k).take 6
      triage := match b.triage with | some t => if t + 64 ≤ k then none else some t | none => none }) s

end Sys2Proof.Machine
end

