-- ==== Sys2Proof/Machine/Cell.lean ====
section
/-! DEFINITION. The commands of the cell role (chapter 3, R34, R51, R60 to R63, R85, R205). -/
namespace Sys2Proof.Machine

/-- CELL_REPORT_LAUNCH (R32, R51, R83). -/
def execCellReportLaunch (s : State) : Host.Outcome State Fault Refusal := ok (cellReportLaunch s)

/-- COMMAND_RX (R85, R205): crcOk, the stream of DST_SIDE, the payload. -/
def execCommandRx (crcOk streamB : Bool) (c : Command) (s : State) : Host.Outcome State Fault Refusal := ok (commandRx crcOk streamB c s)

/-- ACCEPTANCE_INSTANT of period k (R34). -/
def execAcceptanceInstant (k : Nat) (s : State) : Host.Outcome State Fault Refusal := ok (acceptanceInstant k s)

/-- COMMAND_EXECUTE (R60, R63, R88, Table 3.7). -/
def execCommandExecute (s : State) : Host.Outcome State Fault Refusal := ok (commandExecute s)

/-- CARVE_END (R63). -/
def execCarveEnd (s : State) : Host.Outcome State Fault Refusal := ok (carveEnd s)

/-- GATE_EDGE (R90 to R93). -/
def execGateEdge (s : State) : Host.Outcome State Fault Refusal := ok (gateEdge s)

/-- A write of CEL_ORDER in a node (R88): code and cell index; reserved bits are ignored (R6), codes other than 1 to 3 refused (R7). -/
def writeCelOrder (v : Nat) (s : State) : Res :=
  let code := fld v 19 16
  let idx := fld v 9 0
  writeBy O.CEL_ORDER v 0 (fun s =>
    if code == 0 || 3 < code then (stRange, s)
    else
      let tag := if s.bal.tag ≥ 15 then 1 else s.bal.tag + 1
      let o : CellOrder := { idx := idx, code := code, tag := tag, left := rd O.CEL_ORDER_REPEAT s }
      done { s with bal := { s.bal with tag := tag, orders := o :: s.bal.orders.filter fun x => x.idx != idx } }) s

/-- CEL_ORDER (R88). -/
def execCelOrder (v : Nat) (s : State) : Host.Outcome State Fault Refusal := ok (finish (writeCelOrder v s))

/-- A write of CEL_CLEAR; 0 clears nothing (R88). -/
def writeCelClear (v : Nat) (s : State) : Res := writeBy O.CEL_CLEAR v 0 (fun s => done (if v == 1 then celClear s else s)) s

/-- CEL_CLEAR (R88). -/
def execCelClear (s : State) : Host.Outcome State Fault Refusal := ok (finish (writeCelClear 1 s))

/-- HOUSEKEEPING_SAMPLE (R82, R106, R107): the three codes, and the contacts as debounced, AUX1 closed in bit 1 and AUX2 closed in bit 0. -/
def execHousekeepingSample (tDie tBoard vAux aux : Nat) (s : State) : Host.Outcome State Fault Refusal :=
  ok (housekeeping tDie tBoard vAux aux s)

/-- OV1_CROSSING (R94). -/
def execOv1Crossing (s : State) : Host.Outcome State Fault Refusal := ok (ov1Crossing s)

/-- OV1_RELEASE (R94). -/
def execOv1Release (s : State) : Host.Outcome State Fault Refusal := ok (ov1Release s)

/-- OV2_FAULT (R95). -/
def execOv2Fault (s : State) : Host.Outcome State Fault Refusal := ok (ov2Fault s)

/-- DSAT_FAULT of output out: 0 HA, 1 LA, 2 HB, 3 LB (R96). -/
def execDsatFault (out : Nat) (s : State) : Host.Outcome State Fault Refusal := ok (dsatFault out s)

/-- BYP_PULSE_END (R99). -/
def execBypPulseEnd (s : State) : Host.Outcome State Fault Refusal := ok (bypPulseEnd s)

/-- BYP_CONFIRM (R99). -/
def execBypConfirm (s : State) : Host.Outcome State Fault Refusal := ok (bypConfirm s)

/-- BYP_CONFIRM_WINDOW_END with the contacts as debounced (R100). -/
def execBypConfirmWindowEnd (aux : Nat) (s : State) : Host.Outcome State Fault Refusal := ok (bypWindowEnd aux s)

/-- BYP_HOLD_END (R99). -/
def execBypHoldEnd (s : State) : Host.Outcome State Fault Refusal := ok (bypHoldEnd s)

/-- BYP_UNCMD with the contacts as debounced (R101). -/
def execBypUncmd (aux : Nat) (s : State) : Host.Outcome State Fault Refusal := ok (bypUncmd aux s)

/-- CEL_HELD_TIME elapses in HELD (R103). -/
def heldTimeout (s : State) : State :=
  match s.cell.heldTick with
  | some t => heldOut (gatesNow (advTo (t + us (rd O.CEL_HELD_TIME s)) s))
  | none => s

/-- HELD_TIMEOUT (R103). -/
def execHeldTimeout (s : State) : Host.Outcome State Fault Refusal := ok (heldTimeout s)

/-- The refusals of R94 and R108 for a write of value v to a cell object, 0 where the write is allowed. -/
def celGuard (k v : Nat) (s : State) : Nat :=
  let i := k / 256
  let st := celState s
  let get (x : Nat) : Nat := if x == k then v else rd x s
  if (k == O.CEL_TOPOLOGY || k == O.CEL_FB_BYPASS || i == 0x6010 || i == 0x6020 || i == 0x6030 || i == 0x6040) && st != 2 && st != 3 then stState
  else if k == O.CEL_OV1 && v > rd O.CEL_OV2 s then stRange
  else if k == O.CEL_OV2 && v < rd O.CEL_OV1 s then stRange
  else if [O.CEL_OV1, O.CEL_OV2, O.CEL_VKEY_GAIN, O.CEL_VKEY_OFFSET, O.CEL_VCHK_GAIN, O.CEL_VCHK_OFFSET].contains k
      && !thrOk (get O.CEL_OV1) (get O.CEL_OV2) (get O.CEL_VKEY_GAIN) (get O.CEL_VKEY_OFFSET) (get O.CEL_VCHK_GAIN) (get O.CEL_VCHK_OFFSET) then stRange
  else 0

end Sys2Proof.Machine
end

