-- ==== Sys2Proof/Machine/Dma.lean ====
section
/-! DEFINITION. The commands of the data movers (chapter 12). -/
namespace Sys2Proof.Machine

/-- DMA_CMD v is refused in the present state, or comes from a task or JOP for a channel of the firmware (R314, R323). -/
def dmaCmdStatus (c v : Nat) (fw : Bool) (s : State) : Nat :=
  let st := chanState c s
  let code := rd (O.DMA_ERR_CODE c) s
  if c % 8 == 0 && !fw then stRights
  else match v with
  | 1 => stIf (st != 0)
  | 2 => stIf (st != 1)
  | 3 => stIf !(st == 2 || (st == 3 && 6 ≤ code))
  | 4 => stIf (st != 3)
  | 5 => stIf (st == 0)
  | _ => stOk

/-- The channel stops at the burst boundary it has reached; moved is how far it has got since it last stopped (R323). -/
def dmaStop (c moved : Nat) (s : State) : Option (Nat × Nat) × State :=
  match (chan c s).cur with
  | some d => dmaRun c (min d.total ((rd (O.DMA_CUR_OFFSET c) s + moved) / 64 * 64)) none d s
  | none => (none, s)

/-- The channel stops and takes a state, or the error met on the way; paused in a domain that is being taken off it errs at once (R323, R324). -/
def dmaStopTo (c moved st : Nat) (s : State) : State :=
  let r := dmaStop c moved s
  let err (code o : Nat) (s : State) : State := chanError c code (rd (O.DMA_CUR_DESC c) s) o s
  match r.1 with
  | some (o, code) => err code o r.2
  | none => if st == 2 && s.dma.pd.any (fun p => touches c p.1 s) then err 7 (rd (O.DMA_CUR_OFFSET c) r.2) r.2 else setChanState c st r.2

/-- What DMA_CMD v does (Table 12.4). -/
def dmaCmd (c v moved : Nat) (s : State) : State :=
  match v with
  | 1 => setChanState c 1 (updChan c (fun _ => { cur := none, fetchAt := some (low 40 (rd (O.DMA_DESC_HEAD c) s)), next := 0 }) s)
  | 2 => pdProceed (dmaStopTo c moved 2 s)
  | 3 => setChanState c 1 s
  | 4 =>
    let n := low 40 (chan c s).next
    let s := updChan c (fun x => { x with cur := none, fetchAt := if n == 0 then none else some n }) s
    setChanState c (if n == 0 then 0 else 1) s
  | _ =>
    let s := if chanState c s == 1 then dmaStopTo c moved 0 s else s
    pdProceed (setChanState c 0 (updChan c (fun _ => DmaChan.init) s))

/-- A write of DMA_CMD of channel c (R323); fw: by the firmware image. -/
def writeDmaCmd (c v moved : Nat) (fw : Bool) (s : State) : Res :=
  if c ≥ 16 then (stNoObject, s)
  else writeBy (O.DMA_CMD c) v (dmaCmdStatus c v fw s) (fun s => done (dmaCmd c v moved s)) s

/-- DMA_CMD START (R323). -/
def execDmaStart (c : Nat) (fw : Bool) (s : State) : Host.Outcome State Fault Refusal := ok (finish (writeDmaCmd c 1 0 fw s))

/-- DMA_CMD PAUSE (R323). -/
def execDmaPause (c moved : Nat) (fw : Bool) (s : State) : Host.Outcome State Fault Refusal := ok (finish (writeDmaCmd c 2 moved fw s))

/-- DMA_CMD RESUME (R323). -/
def execDmaResume (c : Nat) (fw : Bool) (s : State) : Host.Outcome State Fault Refusal := ok (finish (writeDmaCmd c 3 0 fw s))

/-- DMA_CMD SKIP (R323). -/
def execDmaSkip (c : Nat) (fw : Bool) (s : State) : Host.Outcome State Fault Refusal := ok (finish (writeDmaCmd c 4 0 fw s))

/-- DMA_CMD ABORT (R323). -/
def execDmaAbort (c moved : Nat) (fw : Bool) (s : State) : Host.Outcome State Fault Refusal := ok (finish (writeDmaCmd c 5 moved fw s))

/-- The counters of Table 12.8 (R326). -/
def dmaCounters : List Nat := (List.range 16).flatMap fun c => [O.DMA_DONE_COUNT c, O.DMA_BYTES c, O.DMA_ERRORS c]

/-- A write of DMA_GCMD (R326). -/
def writeDmaGcmd (v : Nat) (s : State) : Res := writeBy O.DMA_GCMD v stOk (fun s => done (clearAll dmaCounters s)) s

/-- DMA_GCMD CLEAR_COUNTERS (R326). -/
def execDmaGcmdClearCounters (s : State) : Host.Outcome State Fault Refusal := ok (finish (writeDmaGcmd 1 s))

/-- Channel c fetches its next descriptor (R318, R319); ecc: an uncorrectable error in reading the descriptor (true) or a list (R323, R394). -/
def descFetch (c : Nat) (ecc : Option Bool) (s : State) : State :=
  match (chan c s).fetchAt with
  | none => s
  | some a =>
    if chanState c s != 1 || (chan c s).cur.isSome then s
    else
      let s := wr (O.DMA_CUR_OFFSET c) 0 (wr (O.DMA_CUR_DESC c) a s)
      let read := readDesc c a s
      let r : Option Nat × (Nat ⊕ DmaDesc) := match ecc, read.1 with
        | some true, _ => (none, .inl 6)
        | some false, some n => (some n, .inl 6)
        | _, _ => read
      let s := updChan c (fun x => { x with next := r.1.getD 0 }) (onlyIf ecc.isSome (bump O.SYS_ECC_UNCORR) s)
      match r.2 with
      | .inl code => chanError c code a 0 s
      | .inr d =>
        let s := if d.op == 2 then wr (O.DMA_CMP_MISMATCH c) 0 (wr (O.DMA_CMP_FIRST c) 0xFFFFFFFF s) else s
        updChan c (fun x => { x with cur := some d, fetchAt := none }) s

/-- DMA_DESCRIPTOR_FETCH (R318). -/
def execDmaDescriptorFetch (c : Nat) (ecc : Option Bool) (s : State) : Host.Outcome State Fault Refusal := ok (descFetch c ecc s)

/-- Channel c carries its descriptor to the end, or to its first failing burst; ecc: stream offset of an uncorrectable error (R322, R323, R394). -/
def descRun (c : Nat) (ecc : Option Nat) (s : State) : State :=
  match (chan c s).cur with
  | none => s
  | some d =>
    if chanState c s != 1 then s
    else
      let r := dmaRun c d.total ecc d s
      match r.1 with
      | some (o, code) => pdProceed (chanError c code d.addr o (onlyIf (code == 6) (bump O.SYS_ECC_UNCORR) r.2))
      | none => descDone c d r.2

/-- DMA_DESCRIPTOR_DONE (R322). -/
def execDmaDescriptorDone (c : Nat) (ecc : Option Nat) (s : State) : Host.Outcome State Fault Refusal := ok (descRun c ecc s)

/-- DMA_PD_WAIT expires for the oldest power-down that waits: its channels stop where they are (moved bytes on) with DOMAIN_OFF, and it proceeds (R324). -/
def pdExpiry (moved : Nat) (s : State) : State :=
  match s.dma.pd with
  | [] => s
  | (dom, at_) :: _ =>
    let s := advTo (at_ + us (rd O.DMA_PD_WAIT s)) s
    let s := each (touching dom 1 s) (fun c s =>
      let r := dmaStop c moved s
      let code := match r.1 with | some x => x.2 | none => 7
      let off := match r.1 with | some x => x.1 | none => rd (O.DMA_CUR_OFFSET c) r.2
      chanError c code (rd (O.DMA_CUR_DESC c) r.2) off r.2) s
    pdProceed s

/-- DMA_PD_WAIT_EXPIRY (R324). -/
def execDmaPdWaitExpiry (moved : Nat) (s : State) : Host.Outcome State Fault Refusal := ok (pdExpiry moved s)

end Sys2Proof.Machine
end

