-- ==== Sys2Proof/Machine/OpsFio.lean ====
section
/-! DEFINITION. The field island and its link as shared operations: frames, parameters, outputs, inputs, encoders, speed, SSI and probes (R327 to R350). -/
namespace Sys2Proof.Machine

/-- The unit's own state changed. -/
def updFio (f : FioSt → FioSt) (s : State) : State := { s with fio := f s.fio }

/-- The island's state changed. -/
def updIsland (f : IslandSt → IslandSt) (s : State) : State := updFio (fun x => { x with island := f x.island }) s

/-- Kettle sources 227 to 230 on the present values (R331, R339, R341, R344). -/
def fioSources (s : State) : State :=
  let err (e : Nat) : Bool := rdBit (O.POS_ENC_STATUS e) 0 s && rd (O.POS_ENC_MODE e) s != 0
  let s := setLive 227 (rd O.FIO_LINK_STATE s == 0 && rd O.FIO_EXPECT s == 1) 0 s
  let s := setLive 228 (rd O.FIO_SUPPLY s != 0) (rd O.FIO_SUPPLY s) s
  let s := setLive 229 (s.fio.faults != 0) s.fio.faults s
  setLive 230 (err 0 || err 1) (b2n (err 0) + 2 * b2n (err 1)) s

/-- CRC-16 of R148 over the low n bits of x, most significant first. -/
def crc16Bits (n x : Nat) : Nat :=
  (List.range n).foldl (fun c i => let c2 := c * 2 % 65536; if bit c 15 != bit x (n - 1 - i) then Nat.xor c2 0x1021 else c2) 0xFFFF

/-- The objects whose values the island holds, in the order of PARAM_ID (log entry 44: the spec gives no numbering). -/
def fioParams : List Nat :=
  [O.FIO_SAFE_LEVEL, O.FIO_DO_RETRY, O.FIO_DO_PAIR, O.FIO_SILENCE] ++ (List.range 16).map O.FIO_DI_DEBOUNCE ++ (List.range 16).map O.FIO_DI_TYPE
    ++ (List.range 16).map O.FIO_DI_INVERT ++ (List.range 8).map O.FIO_DO_OPENLOAD
    ++ (List.range 2).flatMap (fun e => [O.POS_ENC_MODE e, O.POS_ENC_FILTER e, O.POS_ENC_DIR e, O.POS_Z_MODE e])
    ++ [O.POS_SSI_BITS, O.POS_SSI_CLOCK, O.POS_SSI_MONO]
    ++ (List.range 2).flatMap (fun p => [O.POS_PRB_MODE p, O.POS_PRB_EDGE p, O.POS_PRB_SRC p, O.POS_PRB_FILTER p]) ++ [O.POS_PT_MODE]

/-- PARAM_ID of an object, if the island holds it. -/
def paramId (k : Nat) : Option Nat := (List.range fioParams.length).find? fun i => fioParams.getD i 0 == k

/-- The frame at S(n) has taken effect at the island: S(n) + 1.0 us has come (R332, R337). -/
def frameActs (s : State) : Bool := s.fio.island.sAt + us 1 ≤ s.tick

/-- The parameters at the island by number. -/
def paramsHeld (s : State) : List (Nat × Nat) :=
  match s.fio.island.parNew with
  | some p => if frameActs s then aset s.fio.island.params p.1 p.2 else s.fio.island.params
  | none => s.fio.island.params

/-- The DO field in force at the island (R337). -/
def doHeld (s : State) : Nat := if frameActs s then s.fio.island.doNew else s.fio.island.doCmd

/-- The island's copy of an object; its default before the first parameter cycle. -/
def islandParam (k : Nat) (s : State) : Nat :=
  match paramId k with | some i => (aget (paramsHeld s) i).getD (objDefault s.straps k) | none => rd k s

/-- CRC-16 of a parameter set, four bytes a value. -/
def paramCrc (v : List Nat) : Nat := crc16With 0x1021 0xFFFF (v.flatMap (beBytes 4))

/-- The die's own set. -/
def dieParams (s : State) : List Nat := fioParams.map fun k => rd k s

/-- The island's set. -/
def islandParams (s : State) : List Nat := fioParams.map fun k => islandParam k s

/-- Ticks that S(n) lies after F(n) (R328). -/
def linkDelay : Nat := min 8 (Config.made O.FIO_LINK_DELAY / 2500)

/-- A pair bit parallels output i (R338). -/
def paired (i : Nat) (s : State) : Bool := rdBit O.FIO_DO_PAIR (i / 2) s

/-- Level of output i by entries 4 to 7 of Table 13.5. -/
def dieLevel (i : Nat) (s : State) : Bool :=
  if s.saf.tripHeld && rdBit O.SAF_TRIP_DO i s then rdBit O.SAF_TRIP_LEVEL i s
  else if rd (O.FIO_DO_OWNER i) s == 1 then
    let st := rd O.LAW_STATE s
    let bound : Bool := (outBinds s).any fun b => b.1 == 3 && b.2.1 == i
    if st == 0 || st == 4 || !bound then rdBit O.FIO_SAFE_LEVEL i s else (aget s.law.doVal i).getD 0 == 1
  else rdBit O.FIO_DO_SET i s

/-- The DO field of a down frame (R337, R338). -/
def doField (s : State) : Nat := (List.range 8).foldl (fun a i => a + b2n (dieLevel (if paired i s then i / 2 * 2 else i) s) * 2 ^ i) 0

/-- L+ is MISSING or REVERSE (R341). -/
def supplyBad (s : State) : Bool := bit s.fio.island.flags 1 || bit s.fio.island.flags 2

/-- Output i is in its fault off-time (R339). -/
def outOff (i : Nat) (s : State) : Bool := (s.fio.island.off.getD i none).isSome || bit s.fio.island.hot i

/-- Output i of the island with its pair partner taken in, where paired at the island. -/
def withPair (f : Nat → Bool) (i : Nat) (s : State) : Bool := if bit (islandParam O.FIO_DO_PAIR s) (i / 2) then f (i / 2 * 2) || f (i / 2 * 2 + 1) else f i

/-- Level of output i at the ball (Table 13.5, R333); of a pair, DO2p decides (R338). -/
def outLevel (i : Nat) (s : State) : Bool :=
  let x := s.fio.island
  let j := if bit (islandParam O.FIO_DO_PAIR s) (i / 2) then i / 2 * 2 else i
  if !x.up || supplyBad s then false
  else if x.safe then x.leftSafe && bit (islandParam O.FIO_SAFE_LEVEL s) j
  else if withPair (fun j => outOff j s) i s then false
  else bit (doHeld s) j

/-- DO_STATE as the island sees it. -/
def outLevels (s : State) : Nat := (List.range 8).foldl (fun a i => a + b2n (outLevel i s) * 2 ^ i) 0

/-- OPEN of output i is live: found since the output was last switched on (R339). -/
def outOpen (i : Nat) (s : State) : Bool := bit s.fio.island.opn i && outLevel i s && islandParam (O.FIO_DO_OPENLOAD i) s == 1

/-- The outputs in OPEN. -/
def opensHeld (s : State) : Nat := (List.range 8).foldl (fun a i => a + b2n (outOpen i s) * 2 ^ i) 0

/-- A fault of output i is live (R339). -/
def outFault (i : Nat) (s : State) : Bool := outOff i s || outOpen i s

/-- DO_FAULT as the island sees it. -/
def outFaults (s : State) : Nat := (List.range 8).foldl (fun a i => a + b2n (outFault i s) * 2 ^ i) 0

/-- DI field: strainer outputs, inverted where set (R335). -/
def diField (s : State) : Nat :=
  (List.range 16).foldl (fun a i => a + b2n (bit s.fio.island.str i != (islandParam (O.FIO_DI_INVERT i) s == 1)) * 2 ^ i) 0

/-- An item is pending: a newer value replaces one not sent (R330). -/
def slotPend (id v : Nat) (s : State) : State := updIsland (fun x => { x with slots := aset x.slots id (low 32 v) }) s

/-- An item is still pending. -/
def slotWaits (id : Nat) (s : State) : Bool := (aget s.fio.island.slots id).isSome

/-- DO_DIAG item. -/
def doDiag (s : State) : Nat :=
  let short := (List.range 8).foldl (fun a i => a + b2n (s.fio.island.off.getD i none).isSome * 2 ^ i) 0
  short * 65536 + opensHeld s * 256 + s.fio.island.hot

/-- The items 10 to 14 at this instant; the island's temperature is free (log entry 3). -/
def rotItem (id : Nat) (s : State) : Nat × State :=
  match id with
  | 10 => (ofI 32 s.fio.island.mv, s)
  | 11 => let r := takeFree 16 s; (r.1, r.2)
  | 12 => (paramCrc (islandParams s), s)
  | 13 => (s.fio.island.silence, s)
  | _ => (doDiag s, s)

/-- The slot of a MAIN frame: the lowest pending item, else the next in turn (R330). -/
def takeSlot (s : State) : (Nat × Nat) × State :=
  match (List.range 10).find? fun id => (aget s.fio.island.slots id).isSome with
  | some id => ((id, (aget s.fio.island.slots id).getD 0), updIsland (fun x => { x with slots := adel x.slots id }) s)
  | none =>
    let id := s.fio.island.rot
    let r := rotItem id s
    ((id, r.1), updIsland (fun x => { x with rot := if id ≥ 14 then 10 else id + 1 }) r.2)

/-- AGE of an encoder in island clocks (Table 13.2). -/
def ageOf (e : EncSt) (at_ : Nat) : Nat := match e.edgeAt with | some t => min 127 ((at_ - t) / 8) | none => 127

/-- The MAIN frame without its DI field and CRC, as bits [141:32] (Table 13.2). -/
def mainHead (slot : Nat × Nat) (s : State) : Nat :=
  let x := s.fio.island
  let e0 := x.enc.getD 0 EncSt.init
  let e1 := x.enc.getD 1 EncSt.init
  let flags := b2n (bit x.flags 0) * 128 + b2n (bit x.flags 1) * 64 + b2n (bit x.flags 2) * 32 + b2n e0.ill * 16 + b2n e1.ill * 8
  let fields : List (Nat × Nat) := [(4, x.seq), (8, flags), (8, outLevels s), (8, outFaults s), (16, low 16 e0.count), (16, low 16 e1.count),
    (7, ageOf e0 x.sAt), (7, ageOf e1 x.sAt), (4, slot.1), (32, slot.2)]
  fields.foldl (fun a f => a * 2 ^ f.1 + low f.1 f.2) 0

/-- A MAIN frame from its head and DI field. -/
def mainWord (head di : Nat) : Nat :=
  let b := head * 65536 + low 16 di
  (0xA3 * 2 ^ 126 + b) * 65536 + crc16Bits 126 b

/-- A FAST frame (R329). -/
def fastWord (seq di : Nat) : Nat :=
  let b := (seq % 16 * 16) * 65536 + low 16 di
  (0xA5 * 2 ^ 24 + b) * 65536 + crc16Bits 24 b

/-- The DI field of the up frames, sampled when the frame at S(n) has taken effect (R329). -/
def diSample (s : State) : Nat := diField { s with tick := s.fio.island.sAt + 472 }

/-- Strainer outputs have changed: the up frames whose DI field is not yet sampled carry the new one (R329). -/
def diChanged (s : State) : State :=
  let x := s.fio.island
  let d := diSample s
  let head := fld x.main 141 32
  updIsland (fun y => { y with main := if s.tick ≤ x.sAt + 472 then mainWord head d else y.main,
                               fast := if s.tick ≤ x.sAt + 664 then fastWord x.seq d else y.fast }) s

/-- Islands clocks as ticks after S(n+1), from an OFS field; none at 127. -/
def ofsAt (ofs sAt : Nat) : Option Nat := if ofs ≤ 99 then some (sAt + 800 + 8 * ofs) else none

/-- The instants waiting at the island with a new one: that of the window begun by the present S(n), and that of the next (R328). -/
def addInstant (l : List Nat) (x : Option Nat) : List Nat :=
  match x with
  | some t => (l ++ [t]).drop (l.length - 1)
  | none => l

/-- SYNC and CRC of a down frame (R328). -/
def downOk (w : Nat) : Bool := fld w 93 86 == 0x5C && fld w 15 0 == crc16Bits 70 (fld w 85 16)

/-- The island takes a valid down frame: parameters and DO for S(n) + 1.0 us, instants, the safe state left after a complete cycle in consecutive frames; its up frames begin (R328 to R333). -/
def islandDown (w : Nat) (s : State) : State :=
  let id := fld w 55 48
  let s := updIsland (fun x => { x with
    lastDown := s.tick, sAt := s.tick, seq := fld w 85 82, doCmd := doHeld s, doNew := fld w 77 70, params := paramsHeld s, parNew := some (id, fld w 47 16),
    off := if fld w 81 78 == 1 then List.replicate 8 none else x.off, opn := opensHeld s,
    cyc := if !x.safe then [] else if fld w 85 82 == low 4 (x.seq + 1) then addTo x.cyc id else [id] }) s
  let leaves : Bool := s.fio.island.safe && (List.range fioParams.length).all fun i => s.fio.island.cyc.contains i
  let s := if leaves then updIsland (fun x => { x with safe := false, leftSafe := true, cyc := [] }) s else s
  let s := if s.fio.island.safe then s
    else updIsland (fun x => { x with pmAt := addInstant x.pmAt (ofsAt (fld w 69 63) s.tick), ssiAt := addInstant x.ssiAt (ofsAt (fld w 62 56) s.tick) }) s
  let r := takeSlot s
  let head := mainHead r.1 r.2
  let d := diSample r.2
  updIsland (fun x => { x with main := mainWord head d, fast := fastWord x.seq d, enc := x.enc.map fun e => { e with ill := false } }) r.2

/-- PMARK_OFS or SSI_OFS of the frame at F for an instant of valve time in ticks: its clock after S(n+1), rounded, none outside that window (R346); counted in 1/32 ps. -/
def ofsOf (f inst : Nat) (s : State) : Option Nat :=
  let at_ := s.tim.valve.when32 ((inst : Int) * (vtick : Int)) * 2500 + 320000
  let next := (f + 800) * 80000 + 32 * min 20000 (Config.made O.FIO_LINK_DELAY)
  if next ≤ at_ && at_ < next + 64000000 then some ((at_ - next) / 640000) else none

/-- The SSI start instants near now (R348). -/
def ssiInstants (s : State) : List Nat :=
  if rd O.POS_SSI_MODE s == 0 || !hasGrid s then []
  else
    let div := max 1 (rd O.POS_SSI_DIV s)
    (((List.range 34).map fun i => kNow s + 2 - i).filter fun k => k % div == 0).map fun k => pOf k s + rd O.POS_SSI_OFFSET s

/-- The parameter of the next frame: a changed one, else the next of the cycle (R332). -/
def nextParam (s : State) : Nat × State :=
  match s.fio.changed with
  | i :: t => (i, updFio (fun x => { x with changed := t }) s)
  | [] => (s.fio.pos, updFio (fun x => { x with pos := if x.pos + 1 ≥ fioParams.length then 0 else x.pos + 1 }) s)

/-- The down frame at F(n) (Table 13.1). -/
def downWord (f : Nat) (s : State) : Nat × State :=
  let pm := if hasGrid s then [kNow s + 1, kNow s + 2].findSome? fun k => ofsOf f (pOf k s) s else none
  let ssi := (ssiInstants s).findSome? fun t => ofsOf f t s
  let p := nextParam s
  let fields : List (Nat × Nat) := [(4, f / 800), (4, b2n s.fio.clear), (8, doField s), (7, pm.getD 127), (7, ssi.getD 127), (8, p.1),
    (32, rd (fioParams.getD p.1 0) s)]
  let b := fields.foldl (fun a x => a * 2 ^ x.1 + low x.1 x.2) 0
  ((0x5C * 2 ^ 70 + b) * 65536 + crc16Bits 70 b, updFio (fun x => { x with clear := false }) p.2)

/-- Valve time of a counter value in ticks. -/
def vtAt (c : Nat) (s : State) : Nat := (s.tim.valve.at c / (vtick : Int)).toNat

/-- S(n) of the frame under answer, in counter ticks at the die. -/
def dieS (s : State) : Nat := s.fio.lastF.getD 0 + linkDelay

/-- An object of encoder e set in a signed 32-bit form. -/
def wrI32 (k : Nat) (z : Int) (s : State) : State := wr k (ofI 32 z) s

/-- POS_SPEED of encoder e from its history at S (R347). -/
def speedOf (e at_ : Nat) (s : State) : State :=
  let d := s.fio.enc.getD e EncDie.init
  match d.hist with
  | [] => wr (O.POS_SPEED e) 0 (wrBit (O.POS_ENC_STATUS e) 1 true s)
  | (te, ce) :: t =>
    if te + us (rd (O.POS_STANDSTILL e) s) ≤ at_ then
      wr (O.POS_SPEED e) 0 (wrBit (O.POS_ENC_STATUS e) 1 true (updFio (fun x => { x with enc := x.enc.set e { d with hist := [] } }) s))
    else
      let win := us (rd (O.POS_SPEED_WIN e) s)
      match (t.filter fun h => te ≤ h.1 + win).getLast?.orElse fun _ => t.head? with
      | none => wr (O.POS_SPEED e) 0 s
      | some (tr, cr) =>
        let dt := max 1 (te - tr)
        let dc := (ce - cr).natAbs
        let late := at_ - te
        let v := if dc * late ≤ dt then fratio fmt32 (ce < cr) (dc * 400000000) dt 0 else fratio fmt32 (ce < cr) 400000000 late 0
        wr (O.POS_SPEED e) v (wrBit (O.POS_ENC_STATUS e) 2 false s)

/-- An encoder's lines or count have changed: remembered for as long as the longest filter (255 clocks) and the pass-through look back (R349, R350). -/
def EncSt.note (x : EncSt) (now : Nat) : EncSt :=
  let old := x.past.takeWhile fun p => now < p.1 + 4096
  { x with past := (now, x.count, 2 * x.ab + b2n x.z) :: old ++ (x.past.drop old.length).take 1 }

/-- The count of an encoder as it stood at a counter tick (R349). -/
def EncSt.countAt (x : EncSt) (t : Nat) : Nat := match x.past.find? fun p => p.1 ≤ t with | some p => p.2.1 | none => 0

/-- The lines 4A + 2B + Z of an encoder as they stood at a counter tick. -/
def EncSt.linesAt (x : EncSt) (t : Nat) : Nat := match x.past.find? fun p => p.1 ≤ t with | some p => p.2.2 | none => 0

/-- Levels 4A + 2B + Z that the ENC1 balls drive: ENC0's filtered lines of two island clocks ago while pass-through repeats them, none else (R350). -/
def passThrough (s : State) : Option Nat :=
  if s.fio.island.up && islandParam O.POS_PT_MODE s == 1 then some ((s.fio.island.enc.getD 0 EncSt.init).linesAt (s.tick - 16)) else none

/-- An ENC field of a good MAIN frame: count, history and speed (R329, R344, R347). -/
def takeEnc (e new age : Nat) (ill : Bool) (s : State) : State :=
  if rd (O.POS_ENC_MODE e) s == 0 || (e == 1 && rd O.POS_PT_MODE s == 1) then s
  else
    let d := s.fio.enc.getD e EncDie.init
    let delta : Int := match d.prev with | some p => toI 16 (low 16 (new + 65536 - p)) | none => 0
    let c := rdI 32 (O.POS_COUNT e) s + delta
    let s := wrI32 (O.POS_COUNT e) c s
    let s := if ill then bump (O.POS_ENC_ILLEGAL e) (wrBit (O.POS_ENC_STATUS e) 0 true s) else s
    let sv := vtAt (dieS s) s
    let rev : Bool := delta != 0 && (match d.neg with | some n => n != (delta < 0) | none => false)
    let hist := if delta == 0 then d.hist else ((sv - 8 * age, rdI 32 (O.POS_COUNT e) s) :: (if rev then [] else d.hist)).take 256
    let s := updFio (fun x => { x with enc := x.enc.set e { prev := some new, neg := if delta == 0 then d.neg else some (delta < 0), hist := hist } }) s
    let s := if rev then wrBit (O.POS_ENC_STATUS e) 2 true s else s
    let s := if delta == 0 then s else wrBit (O.POS_ENC_STATUS e) 1 false s
    speedOf e sv s

/-- A 16-bit count latched near the present count, extended (R346). -/
def extendNear (e v16 : Nat) (s : State) : Int :=
  let d := s.fio.enc.getD e EncDie.init
  rdI 32 (O.POS_COUNT e) s + toI 16 (low 16 (v16 + 65536 - d.prev.getD 0))

/-- Gray to binary, w bits. -/
def grayBin (w g : Nat) : Nat :=
  ((List.range w).foldl (fun (r : Nat × Bool) i => let b : Bool := bit g (w - 1 - i) != r.2; (r.1 * 2 + b2n b, b)) (0, false)).1

/-- The clock of a probe stamp as valve time in 2^-16 ns: S(m) of the frame whose SEQ it names, and its island clock (Table 13.3). -/
def stampInst (v : Nat) (s : State) : Nat :=
  let f := s.fio.lastF.getD 0
  let back := low 4 (f / 800 + 16 - fld v 19 16)
  vtAt (f + linkDelay - 800 * back + 8 * fld v 6 0) s * 163840

/-- An item of the slot at the die (Table 13.3, R332, R345 to R349). -/
def takeItem (id v : Nat) (s : State) : State :=
  match id with
  | 1 =>
    let s := updFio (fun x => { x with pmPrev := [rd (O.POS_COUNT_PMARK 0) s, rd (O.POS_COUNT_PMARK 1) s] }) s
    wrI32 (O.POS_COUNT_PMARK 0) (extendNear 0 (fld v 15 0) s) (wrI32 (O.POS_COUNT_PMARK 1) (extendNear 1 (fld v 31 16) s) s)
  | 2 =>
    let b := rd O.POS_SSI_BITS s
    let p := if rd O.POS_SSI_CODE s == 1 then grayBin b (low b v) else low b v
    wr O.POS_SSI_STATUS 0 (wr O.POS_SSI_STAMP (ts96N (s.fio.ssiStamp * 163840)) (wr O.POS_SSI_POS p s))
  | 3 =>
    let s := if bit v 1 then s else wr O.POS_SSI_STAMP (ts96N (s.fio.ssiStamp * 163840)) s
    bump O.POS_SSI_ERRORS (wr O.POS_SSI_STATUS (b2n (bit v 1) + 2 * b2n (bit v 0)) s)
  | 4 | 5 =>
    let e := id - 4
    let s := wr (O.POS_COUNT_Z e) v s
    if rd (O.POS_Z_MODE e) s == 2 && rdBit (O.POS_ENC_STATUS e) 3 s then
      let s := wrBit (O.POS_ENC_STATUS e) 3 false (wrI32 (O.POS_COUNT e) 0 s)
      updFio (fun x => { x with enc := x.enc.set e { prev := some 0, neg := none, hist := [] } }) s
    else s
  | 6 | 8 => wr (O.POS_PRB_COUNT ((id - 6) / 2)) v s
  | 7 | 9 =>
    let p := (id - 7) / 2
    let s := wr (O.POS_PRB_STAMP p) (ts96N (stampInst v s)) (bump (O.POS_PRB_LATCHES p) s)
    let s := if bit v 30 then bump (O.POS_PRB_OVERRUNS p) s else s
    let s := wrBit (O.POS_PRB_STATUS p) 1 true s
    if rd (O.POS_PRB_MODE p) s == 1 then wrBit (O.POS_PRB_STATUS p) 0 false s else s
  | 10 => wr O.FIO_SUPPLY_MV v s
  | 11 => wr O.FIO_TEMP (low 16 v) s
  | 12 => if low 16 v == paramCrc (dieParams s) then s else bump O.FIO_PARAM_MISMATCH (updFio (fun x => { x with pos := 0, changed := [] }) s)
  | 13 => wr O.FIO_SILENCE_ENTRIES (low 16 v) s
  | 14 => each (List.range 8) (fun i s => wr (O.FIO_DO_DIAG i) (b2n (bit v (16 + i)) + 2 * b2n (bit v (8 + i)) + 4 * b2n (bit v i)) s) s
  | _ => s

/-- The die-side input states change: the safety unit sees them (R283, R336). -/
def takeDi (d : Nat) (s : State) : State := evalFns (wr O.FIO_DI d s)

/-- A bad MAIN frame (R331). -/
def mainBad (s : State) : State :=
  let s := bump O.FIO_FRAMES_BAD (updFio (fun x => { x with bad := x.bad + 1, good := 0, await := false }) s)
  if rd O.FIO_LINK_STATE s == 1 && s.fio.bad ≥ rd O.FIO_LINK_MISS s then
    evalFns (fioSources (bump O.FIO_LINK_DOWNS (wr O.FIO_LINK_STATE 0 s)))
  else s

/-- A good MAIN frame (R329, R331, R336); a Z item comes before the counts, which HOME rebuilds from 0 (R345). -/
def mainGood (w : Nat) (s : State) : State :=
  let s := updFio (fun x => { x with good := x.good + 1, bad := 0, await := false, faults := fld w 121 114 }) s
  let f := fld w 137 130
  let s := wr O.FIO_DO_STATE (fld w 129 122) (wr O.FIO_SUPPLY (b2n (bit f 7) + 2 * b2n (bit f 6) + 4 * b2n (bit f 5)) s)
  let id := fld w 67 64
  let z : Bool := id == 4 || id == 5
  let s := onlyIf z (takeItem id (fld w 63 32)) s
  let s := takeEnc 0 (fld w 113 98) (fld w 81 75) (bit f 4) s
  let s := takeEnc 1 (fld w 97 82) (fld w 74 68) (bit f 3) s
  let s := onlyIf (!z) (takeItem id (fld w 63 32)) s
  let s := if rd O.FIO_LINK_STATE s == 0 && s.fio.good ≥ 16 then wr O.FIO_LINK_STATE 1 s else s
  takeDi (fld w 31 16) (fioSources s)

/-- SYNC, SEQ and CRC of a MAIN frame as the die checks them (R331). -/
def mainOk (w : Nat) (s : State) : Bool :=
  fld w 149 142 == 0xA3 && fld w 141 138 == s.fio.lastF.getD 0 / 800 % 16 && fld w 15 0 == crc16Bits 126 (fld w 141 16)

/-- F(n) of the frame that a FAST frame answers: the down frame launched before now (R329). -/
def fastF (s : State) : Nat := let f := s.fio.lastF.getD 0; if s.tick < f then f - 800 else f

/-- SYNC, SEQ and CRC of a FAST frame. -/
def fastOk (w : Nat) (s : State) : Bool :=
  fld w 47 40 == 0xA5 && fld w 39 36 == fastF s / 800 % 16 && fld w 15 0 == crc16Bits 24 (fld w 39 16)

/-- A LAW_IN_BIND names a field quantity that p admits (R352). -/
def lawFieldBound (p : Nat → Bool) (s : State) : Bool :=
  (List.range 256).any fun i => let b := inBind i s; inKind b == 3 && p (fld b 19 12)

/-- What the unit's state makes of a write (R338, R348, R350, R352). -/
def fioGuard (k v : Nat) (s : State) : Nat :=
  let bits := rd O.POS_SSI_BITS s
  let clock := rd O.POS_SSI_CLOCK s
  let mono := rd O.POS_SSI_MONO s
  let div := rd O.POS_SSI_DIV s
  let t := rd O.TIM_PERIOD s
  let running : Bool := rd O.LAW_STATE s != 0
  let ssiBound : Bool := running && lawFieldBound (· == 48) s
  let encBound (e : Nat) : Bool := running && lawFieldBound (fun q => 32 + 8 * e ≤ q && q ≤ 35 + 8 * e) s
  if k == O.POS_ENC_MODE 0 || k == O.POS_ENC_FILTER 0 then stIf (encBound 0)
  else if k == O.POS_ENC_MODE 1 || k == O.POS_ENC_FILTER 1 then stIf (encBound 1)
  else if k == O.POS_SSI_BITS then (if ssiBound then stState else if ssiTooLong v clock mono div t then stRange else stOk)
  else if k == O.POS_SSI_CLOCK then (if ssiBound then stState else if ssiTooLong bits v mono div t then stRange else stOk)
  else if k == O.POS_SSI_DIV then (if ssiBound then stState else if ssiTooLong bits clock mono v t then stRange else stOk)
  else if k == O.POS_SSI_MONO then (if ssiTooLong bits clock v div t then stRange else stOk)
  else if k == O.POS_PT_MODE then stIf (v == 1 && rd (O.POS_ENC_MODE 0) s == 0)
  else stOk

/-- What a completed write brings: a changed parameter goes first, and the sources follow (R331, R332, R344). -/
def fioWritten (k : Nat) (s : State) : State :=
  let s := match paramId k with | some i => updFio (fun x => { x with changed := addTo x.changed i }) s | none => s
  if k / 256 == 0xB000 || k / 256 == 0xB100 || k / 256 == 0xB101 then fioSources s else s

end Sys2Proof.Machine
end

