-- ==== Sys2Proof/Machine/Fio.lean ====
section
/-! DEFINITION. The commands of the field island and its link (chapter 13). -/
namespace Sys2Proof.Machine

/-- No complete MAIN frame by S(n) + 1.56 us (R331). -/
def mainDeadline (s : State) : State := if isNode s && s.fio.await then mainBad (advTo (dieS s + 624) s) else s

/-- The down frame of the next F(n): its content is fixed 100 ns before (R328). -/
def downLaunch (s : State) : State :=
  if !isNode s then s
  else
    let s := mainDeadline s
    let f := match s.fio.lastF with | some t => max (t + 800) ((s.tick + 799) / 800 * 800) | none => (s.tick + 799) / 800 * 800
    let s := advTo (f - 40) s
    let r := downWord f s
    updFio (fun x => { x with lastF := some f, down := some r.1, await := true }) r.2

/-- FIO_DOWN_FRAME (R328). -/
def execFioDownFrame (s : State) : Host.Outcome State Fault Refusal := ok (downLaunch s)

/-- The island receives a down frame at S(n) (R329, R333). -/
def downArrive (w : Nat) (s : State) : State :=
  if !isNode s || !s.fio.island.up then s
  else
    let s := match s.fio.lastF with | some f => advTo (f + linkDelay) s | none => s
    if downOk w then islandDown w s else updIsland (fun x => { x with cyc := [] }) s

/-- ISLAND_DOWN_FRAME_RX (R329): w is the word as received. -/
def execIslandDownFrameRx (w : Nat) (s : State) : Host.Outcome State Fault Refusal := ok (downArrive w s)

/-- A MAIN frame reaches the die with its last bit 1.5 us after S(n) (R329, R331). -/
def mainArrive (w : Nat) (s : State) : State :=
  if !isNode s || !s.fio.await then s
  else
    let s := advTo (dieS s + 600) s
    if mainOk w s then mainGood w s else mainBad s

/-- MAIN_FRAME_RX (R331): w is the word as received. -/
def execMainFrameRx (w : Nat) (s : State) : Host.Outcome State Fault Refusal := ok (mainArrive w s)

/-- MAIN_FRAME_DEADLINE (R331). -/
def execMainFrameDeadline (s : State) : Host.Outcome State Fault Refusal := ok (mainDeadline s)

/-- A FAST frame reaches the die with its last bit 1.98 us after S(n) (R329, R331). -/
def fastArrive (w : Nat) (s : State) : State :=
  if !isNode s then s
  else
    let good := fastOk w s
    let s := advTo (fastF s + linkDelay + 792) s
    if good then takeDi (fld w 31 16) s else bump O.FIO_FRAMES_BAD s

/-- FAST_FRAME_RX (R331). -/
def execFastFrameRx (w : Nat) (s : State) : Host.Outcome State Fault Refusal := ok (fastArrive w s)

/-- No valid down frame for FIO_SILENCE (R333). -/
def silence (s : State) : State :=
  let x := s.fio.island
  if !x.up || x.safe then s
  else
    let s := advTo (x.lastDown + 40000 * islandParam O.FIO_SILENCE s) s
    updIsland (fun y => { y with safe := true, cyc := [], pmAt := [], ssiAt := [], silence := satU 16 (y.silence + 1) }) s

/-- ISLAND_SILENCE (R333). -/
def execIslandSilence (s : State) : Host.Outcome State Fault Refusal := ok (silence s)

/-- FIELD_VL_LOW (R327): the island is held in reset with every output off. -/
def execFieldVlLow (s : State) : Host.Outcome State Fault Refusal := ok (updIsland (fun _ => IslandSt.init) s)

/-- ISLAND_POWER_UP (R327, R333): FLD_VL in range; outputs off, safe state. -/
def execIslandPowerUp (s : State) : Host.Outcome State Fault Refusal :=
  ok (if isNode s then updIsland (fun x => if x.up then x else { IslandSt.init with up := true, lastDown := s.tick }) s else s)

/-- The comparator of an input at a voltage in mV (R334). -/
def diLevel (typ : Nat) (mv : Int) (old : Bool) : Bool := if (if typ == 1 then 15000 else 11000) ≤ mv then true else if mv ≤ 5000 then false else old

/-- Input n stands at a voltage: its comparator, and the strainer's count where it changed (R334, R335). -/
def diChange (n : Nat) (mv : Int) (s : State) : State :=
  let x := s.fio.island
  if n ≥ 16 || !x.up then s
  else
    let b := diLevel (islandParam (O.FIO_DI_TYPE n) s) mv (bit x.cmp n)
    if b == bit x.cmp n then s else updIsland (fun y => { y with cmp := putBit y.cmp n b, cmpAt := y.cmpAt.set n s.tick }) s

/-- DI_COMPARATOR_CHANGE (R334). -/
def execDiComparatorChange (n : Nat) (mv : Int) (s : State) : Host.Outcome State Fault Refusal := ok (diChange n mv s)

/-- The comparator of input n has held its level for FIO_DI_DEBOUNCE (R335). -/
def strainer (n : Nat) (s : State) : State :=
  let x := s.fio.island
  if n ≥ 16 || !x.up || bit x.cmp n == bit x.str n then s
  else
    let s := advTo (x.cmpAt.getD n 0 + us (islandParam (O.FIO_DI_DEBOUNCE n) s)) s
    diChanged (updIsland (fun y => { y with str := putBit y.str n (bit y.cmp n) }) s)

/-- STRAINER_SETTLE (R335). -/
def execStrainerSettle (n : Nat) (s : State) : Host.Outcome State Fault Refusal := ok (strainer n s)

/-- Output i has been in current limit for 100 us; SHORT and OVERTEMP are found whatever L+ is (R339, R340). -/
def doShortDo (i : Nat) (s : State) : State :=
  if i ≥ 8 || !s.fio.island.up then s
  else bump (O.FIO_DO_TRIPS i) (updIsland (fun y => { y with off := y.off.set i (some (s.tick + ms (islandParam O.FIO_DO_RETRY s))) }) s)

/-- DO_SHORT (R339). -/
def execDoShort (n : Nat) (s : State) : Host.Outcome State Fault Refusal := ok (doShortDo n s)

/-- The off-time of output i ends (R339). -/
def doRetry (i : Nat) (s : State) : State :=
  match s.fio.island.off.getD i none with
  | some t => updIsland (fun y => { y with off := y.off.set i none }) (advTo t s)
  | none => s

/-- DO_RETRY_END (R339). -/
def execDoRetryEnd (n : Nat) (s : State) : Host.Outcome State Fault Refusal := ok (doRetry n s)

/-- DO_OVERTEMP (R339): the driver of output n is too hot. -/
def execDoOvertemp (n : Nat) (s : State) : Host.Outcome State Fault Refusal :=
  ok (if n < 8 && s.fio.island.up then updIsland (fun y => { y with hot := setBit y.hot n }) s else s)

/-- DO_OVERTEMP_COOLED (R339): it has cooled by 15 °C. -/
def execDoOvertempCooled (n : Nat) (s : State) : Host.Outcome State Fault Refusal :=
  ok (if n < 8 then updIsland (fun y => { y with hot := clrBit y.hot n }) s else s)

/-- OPEN of output n follows its condition (R339). -/
def doOpenDo (n : Nat) (cond : Bool) (s : State) : State :=
  if n ≥ 8 || !s.fio.island.up || supplyBad s then s
  else updIsland (fun y => { y with opn := putBit y.opn n (cond && outLevel n s && islandParam (O.FIO_DO_OPENLOAD n) s == 1) }) s

/-- DO_OPEN (R339): load current below 3 mA for 10 ms while on, or that condition has ended. -/
def execDoOpen (n : Nat) (cond : Bool) (s : State) : Host.Outcome State Fault Refusal := ok (doOpenDo n cond s)

/-- Thresholds of a supply condition: set below, cleared above, in mV (R341). -/
def supplyTh (c : Nat) : Int × Int := match c with | 0 => (18000, 18500) | 1 => (12000, 12500) | _ => (-1000, -500)

/-- A measurement of L+: conditions whose threshold it passes begin or end their 100 us (R341). -/
def supplyMeasure (mv : Int) (s : State) : State :=
  if !s.fio.island.up then s
  else
    let moves (c : Nat) : Bool := if bit s.fio.island.flags c then (supplyTh c).2 < mv else mv < (supplyTh c).1
    let cond := ((List.range 3).filter moves).map fun c => (c, (aget s.fio.island.cond c).getD s.tick)
    updIsland (fun y => { y with mv := mv, cond := cond }) s

/-- FIELD_SUPPLY_MEASURE (R341): L+ in mV. -/
def execFieldSupplyMeasure (mv : Int) (s : State) : Host.Outcome State Fault Refusal := ok (supplyMeasure mv s)

/-- Thresholds passed for 100 us without a break set or clear their conditions; MISSING sets LOW (R341). -/
def supplyCondition (s : State) : State :=
  let l := s.fio.island.cond
  if l.isEmpty then s
  else
    let at_ := l.foldl (fun a c => min a c.2) (l.headD (0, 0)).2 + 40000
    let s := advTo at_ s
    let due := (l.filter fun c => c.2 + 40000 ≤ s.tick).map (·.1)
    let f := due.foldl (fun f c => putBit f c (!bit f c)) s.fio.island.flags
    updIsland (fun y => { y with flags := if bit f 1 then setBit f 0 else f, cond := l.filter fun c => !due.contains c.1 }) s

/-- FIELD_SUPPLY_CONDITION (R341). -/
def execFieldSupplyCondition (s : State) : Host.Outcome State Fault Refusal := ok (supplyCondition s)

/-- Place of a filtered pair 2A + B in the sequence 00, 10, 11, 01 (R344). -/
def quadPlace (ab : Nat) : Nat := nth [0, 3, 1, 2] ab 0

/-- Encoder e counts (R344, R350). -/
def encCounts (e : Nat) (s : State) : Bool :=
  e < 2 && s.fio.island.up && islandParam (O.POS_ENC_MODE e) s != 0 && !(e == 1 && islandParam O.POS_PT_MODE s == 1)

/-- Filtered A and B take new levels (R344). -/
def encEdge (e : Nat) (a b : Bool) (s : State) : State :=
  if !encCounts e s then s
  else
    let x := s.fio.island.enc.getD e EncSt.init
    let ab := 2 * b2n a + b2n b
    let step := (quadPlace ab + 4 - quadPlace x.ab) % 4
    let up : Bool := (step == 1) != (islandParam (O.POS_ENC_DIR e) s == 1)
    let y := if step == 0 then x
      else if step == 2 then { x with ab := ab, ill := true }.note s.tick
      else { x with ab := ab, count := low 32 (if up then x.count + 1 else x.count + (2 ^ 32 - 1)), edgeAt := some s.tick }.note s.tick
    updIsland (fun z => { z with enc := z.enc.set e y }) s

/-- ENCODER_EDGE (R344). -/
def execEncoderEdge (e : Nat) (a b : Bool) (s : State) : Host.Outcome State Fault Refusal := ok (encEdge e a b s)

/-- An edge of filtered Z: a rising one latches the count, and homes it where armed (R345); both go through to ENC1 (R350). -/
def zEdge (e : Nat) (rising : Bool) (s : State) : State :=
  if !encCounts e s then s
  else
    let x := s.fio.island.enc.getD e EncSt.init
    let mode := islandParam (O.POS_Z_MODE e) s
    let home : Bool := rising && mode == 2 && x.armed
    let y := { x with z := rising, count := if home then 0 else x.count, armed := x.armed && !home }.note s.tick
    onlyIf (home || (rising && mode == 1)) (slotPend (4 + e) x.count) (updIsland (fun z => { z with enc := z.enc.set e y }) s)

/-- ENCODER_Z_EDGE (R345, R350). -/
def execEncoderZEdge (e : Nat) (rising : Bool) (s : State) : Host.Outcome State Fault Refusal := ok (zEdge e rising s)

/-- Both counts latched at the P-mark instant (R346). -/
def pmLatch (s : State) : State :=
  match s.fio.island.pmAt with
  | t :: l =>
    let s := advTo t s
    let c (e : Nat) : Nat := low 16 (s.fio.island.enc.getD e EncSt.init).count
    slotPend 1 (c 1 * 65536 + c 0) (updIsland (fun y => { y with pmAt := l }) s)
  | [] => s

/-- ISLAND_PMARK_LATCH (R346). -/
def execIslandPmarkLatch (s : State) : Host.Outcome State Fault Refusal := ok (pmLatch s)

/-- Ticks of a transfer's clock periods (R348). -/
def ssiTicks (s : State) : Nat := ceilDiv ((islandParam O.POS_SSI_BITS s + 1) * 400000) (max 1 (islandParam O.POS_SSI_CLOCK s))

/-- A transfer starts; dat is the level of SSI_DAT (R348). -/
def ssiStart (dat : Bool) (s : State) : State :=
  match s.fio.island.ssiAt with
  | [] => s
  | t :: l =>
    let s := updIsland (fun y => { y with ssiAt := l }) (advTo t s)
    if t < s.fio.island.ssiFree || s.fio.island.ssiRun.isSome then bump O.POS_SSI_ERRORS (wr O.POS_SSI_STATUS 4 s)
    else
      let s := updFio (fun x => { x with ssiStamp := vtAt t s }) s
      if dat then updIsland (fun y => { y with ssiRun := some t, ssiFree := t + ssiTicks s + us (islandParam O.POS_SSI_MONO s) }) s
      else slotPend 3 2 s

/-- SSI_TRANSFER_START (R348). -/
def execSsiTransferStart (dat : Bool) (s : State) : Host.Outcome State Fault Refusal := ok (ssiStart dat s)

/-- A transfer ends with its bits; stop: the stop check failed (R348). -/
def ssiEnd (bits : Nat) (stop : Bool) (s : State) : State :=
  match s.fio.island.ssiRun with
  | none => s
  | some t =>
    let s := updIsland (fun y => { y with ssiRun := none }) (advTo (t + ssiTicks s) s)
    if stop then slotPend 3 1 s else slotPend 2 (low (islandParam O.POS_SSI_BITS s) bits) s

/-- SSI_TRANSFER_END (R348): the raw bits, and STOP_ERR. -/
def execSsiTransferEnd (bits : Nat) (stopErr : Bool) (s : State) : Host.Outcome State Fault Refusal := ok (ssiEnd bits stopErr s)

/-- An edge of probe p that its filter has passed: the latch is of the island clock in which the raw level first took its value, POS_PRB_FILTER samples back (R349). -/
def prbEdge (p : Nat) (rising : Bool) (s : State) : State :=
  if p ≥ 2 || !s.fio.island.up then s
  else
    let mode := islandParam (O.POS_PRB_MODE p) s
    let e := islandParam (O.POS_PRB_EDGE p) s
    let sel : Bool := e == 2 || (e == 0) == rising
    let armed : Bool := mode == 2 || (mode == 1 && s.fio.island.prbArm.getD p false)
    if !sel || !armed then s
    else
      let x := s.fio.island
      let at_ := s.tick - 8 * (islandParam (O.POS_PRB_FILTER p) s - 1)
      let m := ceilDiv (x.sAt - at_) 800
      let clk := (at_ + 800 * m - x.sAt) / 8
      let count := (x.enc.getD (islandParam (O.POS_PRB_SRC p) s) EncSt.init).countAt (x.sAt + 8 * clk + 7 - 800 * m)
      let stamp := b2n rising * 2 ^ 31 + b2n (slotWaits (6 + 2 * p) s || slotWaits (7 + 2 * p) s) * 2 ^ 30 + low 4 (x.seq + 16 * m - m) * 65536 + low 7 clk
      let s := slotPend (7 + 2 * p) stamp (slotPend (6 + 2 * p) count s)
      updIsland (fun y => { y with prbArm := y.prbArm.set p false }) s

/-- PROBE_EDGE (R349). -/
def execProbeEdge (p : Nat) (rising : Bool) (s : State) : Host.Outcome State Fault Refusal := ok (prbEdge p rising s)

/-- The counters of this chapter (R352). -/
def fioCounters : List Nat :=
  [O.FIO_FRAMES_BAD, O.FIO_LINK_DOWNS, O.FIO_PARAM_MISMATCH, O.POS_SSI_ERRORS] ++ (List.range 8).map O.FIO_DO_TRIPS
    ++ (List.range 2).map O.POS_ENC_ILLEGAL ++ (List.range 2).flatMap fun p => [O.POS_PRB_LATCHES p, O.POS_PRB_OVERRUNS p]

/-- A write of FIO_CMD (R339, R352). -/
def writeFioCmd (v : Nat) (s : State) : Res :=
  writeBy O.FIO_CMD v stOk (fun s => done (if v == 1 then updFio (fun x => { x with clear := true }) s else clearAll fioCounters s)) s

/-- FIO_CMD CLEAR_FAULTS (R339). -/
def execFioClearFaults (s : State) : Host.Outcome State Fault Refusal := ok (finish (writeFioCmd 1 s))

/-- FIO_CMD CLEAR_COUNTERS (R352). -/
def execFioCmdClearCounters (s : State) : Host.Outcome State Fault Refusal := ok (finish (writeFioCmd 2 s))

/-- ARM_Z in mode HOME (R345). -/
def armZ (e : Nat) (s : State) : State :=
  if rd (O.POS_Z_MODE e) s == 2 then
    wrBit (O.POS_ENC_STATUS e) 3 true (updIsland (fun z => { z with enc := z.enc.modify e fun x => { x with armed := true } }) s)
  else s

/-- A write of POS_CMD of encoder e (R344, R345). -/
def writePosCmd (e v : Nat) (s : State) : Res :=
  if e ≥ 2 then (stNoObject, s)
  else writeBy (O.POS_CMD e) v stOk (fun s => done (if v == 1 then fioSources (wrBit (O.POS_ENC_STATUS e) 0 false s) else armZ e s)) s

/-- POS_CMD CLEAR_ERR (R344). -/
def execPosClearErr (e : Nat) (s : State) : Host.Outcome State Fault Refusal := ok (finish (writePosCmd e 1 s))

/-- POS_CMD ARM_Z (R345). -/
def execPosArmZ (e : Nat) (s : State) : Host.Outcome State Fault Refusal := ok (finish (writePosCmd e 2 s))

/-- A write of POS_PRB_CMD of probe p (R349): ARM serves SINGLE. -/
def writePrbCmd (p v : Nat) (s : State) : Res :=
  if p ≥ 2 then (stNoObject, s)
  else writeBy (O.POS_PRB_CMD p) v stOk (fun s => done (if rd (O.POS_PRB_MODE p) s == 1 then
    wrBit (O.POS_PRB_STATUS p) 0 true (updIsland (fun y => { y with prbArm := y.prbArm.set p true }) s) else s)) s

/-- POS_PRB_CMD ARM (R349). -/
def execPrbArm (p : Nat) (s : State) : Host.Outcome State Fault Refusal := ok (finish (writePrbCmd p 1 s))

/-- Level of output i under Table 13.5 on its own. -/
def ownLevel (i : Nat) (s : State) : Bool :=
  let x := s.fio.island
  if supplyBad s then false else if x.safe then x.leftSafe && bit (islandParam O.FIO_SAFE_LEVEL s) i else if outOff i s then false else dieLevel i s

/-- A write of FIO_DO_PAIR (R338): refused where it sets a bit whose two outputs would differ. -/
def writeDoPair (v : Nat) (s : State) : Res :=
  let bad : Bool := (List.range 4).any fun p => bit v p && !rdBit O.FIO_DO_PAIR p s && ownLevel (2 * p) s != ownLevel (2 * p + 1) s
  writeBy O.FIO_DO_PAIR v (stIf bad) (fun s => done (fioWritten O.FIO_DO_PAIR (wr O.FIO_DO_PAIR v s))) s

/-- FIO_DO_PAIR (R338). -/
def execFioDoPair (v : Nat) (s : State) : Host.Outcome State Fault Refusal := ok (finish (writeDoPair v s))

end Sys2Proof.Machine
end

