-- ==== Sys2Proof/Machine/OpsCaddy.lean ====
section
/-! DEFINITION. The caddy: its list, the image of a period, and the leader's image written into the follower's items (R216, R217). -/
namespace Sys2Proof.Machine

/-- Entry j of the caddy list. -/
def caddyEntry (j : Nat) (s : State) : Nat := rd (O.RED_CADDY_LIST j) s

/-- The elements that a KIND 1 entry names. -/
def caddyElems (x : Nat) (s : State) : List (Nat × Elem) :=
  ((List.range 512).filter fun e => fld x 8 0 ≤ e && e ≤ fld x 24 16).map fun e => (e, elemAt e s)

/-- Bytes an object takes in an image: four, eight for 64-bit objects, wider ones rounded up to four (R216, log entry 42). -/
def caddyWidth (k : Nat) : Nat := 4 * ceilDiv (objBits k) 32

/-- The keys of the objects that a KIND 2 entry names. -/
def caddyKeys (x : Nat) : List Nat := (List.range (fld x 7 0)).map fun i => fld x 31 16 * 256 + fld x 15 8 + i

/-- Bytes of an item; the supervisor counts of a KIND 1 item are the run of bad evaluations of each input and LAW_GOOD_COUNT (log entry 42). -/
def caddyItemSize (x : Nat) (s : State) : Nat :=
  match fld x 63 60 with
  | 1 => let l := caddyElems x s
         4 * sumL (l.map fun e => elemStates e.2.typ) + 4 + 12 * (l.filter fun e => e.2.ramp).length + 4 * rd O.LAW_INPUTS s + 4
  | 2 => sumL ((caddyKeys x).map caddyWidth)
  | 3 => fld x 47 32
  | _ => 0

/-- Bytes of the image. -/
def caddySize (s : State) : Nat := sumL ((List.range 32).map fun j => caddyItemSize (caddyEntry j s) s)

/-- The object is in this manual and of class RW or RWS. -/
def caddyObjOk (k : Nat) : Bool := match objRow? k with | some r => r.acc == .rw || r.acc == .rws | none => false

/-- An entry with nothing BAD_ENTRY names (R216). -/
def caddyEntryOk (x : Nat) (s : State) : Bool :=
  match fld x 63 60 with
  | 0 => true
  | 1 => fld x 8 0 ≤ fld x 24 16 && fld x 24 16 < rd O.LAW_ELEMENTS s
  | 2 => (caddyKeys x).all caddyObjOk && fld x 15 8 + fld x 7 0 ≤ 256
  | 3 => fld x 47 32 % 4 == 0 && 0x20000000 ≤ fld x 31 0 && fld x 31 0 + fld x 47 32 ≤ 0x20400000
  | _ => false

/-- The slot of 544 bytes on the peer lanes in ps (R216). -/
def caddySlotPs (s : State) : Nat := slotPs 544 (rd (O.LNK_RATE (peerLane s)) s)

/-- RED_CADDY_STATUS of the present list. -/
def caddyCode (s : State) : Nat :=
  let n := caddySize s
  if (List.range 32).any fun j => !caddyEntryOk (caddyEntry j s) s then 3
  else if n > 8192 then 1
  else if 2 * ceilDiv (ceilDiv n 512) 2 * caddySlotPs s > tickPs (tOf (kNow s) s) then 2 else 0

/-- Size and status after a write of the list. -/
def caddyCheck (s : State) : State := wr O.RED_CADDY_STATUS (caddyCode s) (wr O.RED_CADDY_SIZE (satU 16 (caddySize s)) s)

/-- Images are sent: the status is VALID or TOO_SLOW. -/
def caddySends (s : State) : Bool := let x := rd O.RED_CADDY_STATUS s; x == 0 || x == 2

/-- The value of an object in an image: sign-extended for signed types. -/
def caddyObjBytes (k : Nat) (s : State) : List Nat :=
  let v := rd k s
  let z : Nat := match objRow? k with | some r => (match r.ty with | .i w => ofI (8 * caddyWidth k) (toI w v) | _ => v) | none => v
  beBytes (caddyWidth k) z

/-- The bytes of an item at this instant. -/
def caddyItem (x : Nat) (s : State) : List Nat :=
  match fld x 63 60 with
  | 1 =>
    let l := caddyElems x s
    let st := l.flatMap fun e => padTo (elemStates e.2.typ) 0 ((aget s.law.states e.1).getD [])
    let rp := (l.filter fun e => e.2.ramp).flatMap fun e => match aget s.law.ramps e.1 with | some r => [r.1, r.2.1, r.2.2] | none => [0, 0, 0]
    (st ++ [rd O.LAW_SCH_REGION s] ++ rp ++ ((List.range (rd O.LAW_INPUTS s)).map fun i => (aget s.law.runs i).getD 0) ++ [rd O.LAW_GOOD_COUNT s]).flatMap (beBytes 4)
  | 2 => (caddyKeys x).flatMap fun k => caddyObjBytes k s
  | 3 => ldBytes (fld x 31 0) (fld x 47 32) s
  | _ => []

/-- The image at this instant. -/
def caddyImage (s : State) : List Nat := (List.range 32).flatMap fun j => caddyItem (caddyEntry j s) s

/-- The image of period k is captured, and its size shown (R216, R217). -/
def caddyCapture (k : Nat) (s : State) : State :=
  if !isDuplex s || !caddySends s then s
  else wr O.RED_CADDY_SIZE (satU 16 (caddySize s)) (updRed (fun r => { r with images := byPeriod k (caddyImage s) r.images }) s)

/-- Bytes as words of four. -/
def words4 (n : Nat) (b : List Nat) : List Nat := (List.range n).map fun i => ofBe ((b.drop (4 * i)).take 4)

/-- States of elements written from words. -/
def putStates : List (Nat × Elem) → List Nat → State → State
  | [], _, s => s
  | e :: t, w, s =>
    let n := elemStates e.2.typ
    putStates t (w.drop n) (updLaw (fun l => { l with states := aset l.states e.1 (padTo n 0 (w.take n)) }) s)

/-- Ramp positions written from words. -/
def putRamps : List (Nat × Elem) → List Nat → State → State
  | [], _, s => s
  | e :: t, w, s => putRamps t (w.drop 3) (updLaw (fun l => { l with ramps := aset l.ramps e.1 (wordAt w 0, wordAt w 1, periodOf32 (wordAt w 2) s) }) s)

/-- Objects written from bytes. -/
def putObjs : List Nat → List Nat → State → State
  | [], _, s => s
  | k :: t, b, s => let n := caddyWidth k; putObjs t (b.drop n) (wr k (low (objBits k) (ofBe (b.take n))) s)

/-- An item written from its bytes. -/
def putItem (x : Nat) (b : List Nat) (s : State) : State :=
  match fld x 63 60 with
  | 1 =>
    let l := caddyElems x s
    let n := sumL (l.map fun e => elemStates e.2.typ)
    let rl := l.filter fun e => e.2.ramp
    let w := words4 (b.length / 4) b
    let c := w.drop (n + 1 + 3 * rl.length)
    let s := putRamps rl (w.drop (n + 1)) (wr O.LAW_SCH_REGION (wordAt w n % 8) (putStates l w s))
    let m := rd O.LAW_INPUTS s
    wr O.LAW_GOOD_COUNT (wordAt c m) (updLaw (fun l => { l with runs := ((List.range m).map fun i => (i, wordAt c i)).filter fun r => r.2 != 0 }) s)
  | 2 => putObjs (caddyKeys x) b s
  | 3 => stBytes (fld x 31 0) b s
  | _ => s

/-- The items of a list of entries written from an image. -/
def putItems : List Nat → List Nat → State → State
  | [], _, s => s
  | x :: t, b, s => let n := caddyItemSize x s; putItems t (b.drop n) (putItem x (b.take n) s)

/-- An image of period k written into the items (R217). -/
def caddyWrite (k : Nat) (img : List Nat) (s : State) : State :=
  let s := putItems ((List.range 32).map fun j => caddyEntry j s) img s
  updRed (fun r => { r with caddyK := k, ready := none }) s

/-- The image of period k, not complete in time, is discarded (R217). -/
def caddyLate (k : Nat) (s : State) : State := setInstep 0 (bump O.RED_CADDY_LATE (updRed (fun r => { r with rx := none, lostK := some k }) s))

/-- Before the input stage of evaluation k: the leader's image of k - 1 is applied, or is late (R217). -/
def caddyApply (k : Nat) (s : State) : State :=
  let s := updRed (fun r => { r with evalK := k }) s
  let s := match s.red.ready with
    | some (j, img) => if j + 1 == k then caddyWrite j img s else if j + 1 < k then caddyLate j (updRed (fun r => { r with ready := none }) s) else s
    | none => s
  match s.red.rx with
  | some r => if r.k < k then caddyLate r.k s else s
  | none => s

/-- A node without a graph applies a complete image at the next P-mark (R217). -/
def caddyPMark (s : State) : State :=
  match s.red.ready with
  | some (j, img) => if hasGraph s then s else caddyWrite j img s
  | none => s

end Sys2Proof.Machine
end

