-- ==== Sys2Proof/Machine/OpsLawOut.lean ====
section
/-! DEFINITION. The output side of the law engine: commit, outputs, the reference builder, the input test and the trace unit (R36, R44, R123 to R125, R134 to R136, R209, R213). -/
namespace Sys2Proof.Machine

/-- DIR of an entry (R44): B is the hold band, prev the arm's previous entry. -/
def dirOf (i band : Nat) (neg : Bool) (prev : Option RefEntry) : Nat :=
  let x := if neg then negF i else i
  if ltF band x then 1
  else if ltF x (negF band) then 2
  else if leF (absF x) (divF band twoF) then 0
  else match prev with
    | some p => if p.neg == neg then p.dir else 0
    | none => 0

/-- M of R44. -/
def mOfF (m : Nat) : Int :=
  let z := fexact fmt32 m
  clampI (rndAwayE z.1 (z.2 + 16)) (-(2 ^ 39 - 1 : Int)) (2 ^ 39 - 1 : Int)

/-- An entry with nothing but arm, M and DIR. -/
def RefEntry.plain (a : Nat) (m : Int) (dir : Nat) : RefEntry :=
  { arm := a, dir := dir, binValid := false, binShift := 0, stick := 0, m := m, binBase := 0, wearRef := 0, wearGain := 0 }

/-- The entry of arm a from its law values (R44, R125); repeated with BAL_REF_INVALID where one is not finite. -/
def buildEntry (a : Nat) (m i : Option Nat) (s : State) : RefEntry × State :=
  let prev := aget s.bal.armPrev a
  match m with
  | none => (RefEntry.plain a 0 0, s)
  | some x =>
    let y := i.getD 0
    if !ffinite fmt32 x || !ffinite fmt32 y then (prev.getD (RefEntry.plain a 0 0), bump (O.BAL_REF_INVALID a) s)
    else
      let z := mOfF x
      (RefEntry.plain a z (dirOf y (rd (O.BAL_HOLD_BAND a) s) (z < 0) prev), s)

/-- The value bound to an arm by kind among the committed outputs. -/
def armValue (kind a : Nat) (outs : List (Nat × Nat × Nat)) : Option Nat := (outs.find? fun o => o.1 == kind && o.2.1 == a).map (·.2.2)

/-- The references of period k at the apex, for every arm it carries (R44, R125). -/
def buildReferences (k : Nat) (outs : List (Nat × Nat × Nat)) (s : State) : State :=
  if !isApex s then s
  else
    let r := (armsHere s).foldl (fun (r : List RefEntry × State) a =>
      let e := buildEntry a (armValue 1 a outs) (armValue 2 a outs) r.2
      (r.1 ++ [e.1], updBal (fun b => { b with armPrev := aset b.armPrev a e.1 }) e.2)) ([], s)
    if r.1.isEmpty then r.2 else takeEntries k r.1 r.2

/-- One committed output goes to its target (R124). -/
def putOutput (o : Nat × Nat × Nat) (s : State) : State :=
  match o.1 with
  | 3 => updLaw (fun l => { l with doVal := aset l.doVal o.2.1 (b2n (leF halfF o.2.2)) }) s
  | 4 => wr (O.LAW_RESULT o.2.1) o.2.2 s
  | 5 => acqLaw o.2.1 o.2.2 (vtFrac s) s
  | _ => s

/-- The input test of a check window for period k (R213). -/
def inputTest (k : Nat) (s : State) : State :=
  match s.red.check, aget s.red.own k with
  | some c, some own =>
    if k < c.start || c.last < k || rd O.RED_CHECK_STATE s != 1 then s
    else
      let failed := own.filter fun e =>
        let ref := rd (O.RED_CHK_REF e.1) s
        ref != 0xFFFF && (e.2.2 || ltF (rd (O.RED_CHK_TOL e.1) s) (absF (subF e.2.1 (sigVal ref s))))
      updRed (fun r => { r with check := some { c with fails := failed.foldl (fun l e => aset l e.1 ((aget l e.1).getD 0 + 1)) c.fails } }) s
  | _, _ => s

/-- A crossing of the level between two samples (R136). -/
def levelCrossed (edge level prev cur : Nat) : Bool :=
  let up : Bool := ltF prev level && leF level cur
  let down : Bool := leF level prev && ltF cur level
  match edge with | 0 => up | 1 => down | _ => up || down

/-- The samples of one commit are stored (R134). -/
def trcStore (pos : Nat) (abandoned : Bool) (s : State) : State :=
  each (List.range 32) (fun c s =>
    let a := rd (O.LAW_TRC_CH c) s
    if a == 0xFFFF then s else stBytes (0x48000000 + c * 0x10000 + 4 * pos) (leBytes 4 (if abandoned then 0x7FC0000A else sigVal a s)) s) s

/-- The trigger sample is recorded at number n (R135). -/
def trcMark (k n : Nat) (s : State) : State :=
  let pre := rd O.LAW_TRC_PRE s
  let left := 16383 - pre
  let s := wr O.LAW_TRC_PRE_ACTUAL (min pre n) (wr O.LAW_TRC_TRIG_INDEX (n % 16384) (wr O.LAW_TRC_TRIG_PERIOD k s))
  let s := updTrc (fun t => { t with trig := false, left := left }) s
  if left == 0 then wr O.LAW_TRC_STATE 3 s else s

/-- One sample in ARMED or TRIGGERED, with the triggers LEVEL and CROSS found at it (R134 to R136). -/
def trcSample (k : Nat) (abandoned : Bool) (s : State) : State :=
  let n := s.law.trc.n
  let cur := if abandoned then 0x7FC0000A else sigVal (rd O.LAW_TRC_SIG s) s
  let hit : Bool := rd O.LAW_TRC_SRC s == 1 && (match s.law.trc.prev with
    | some p => levelCrossed (rd O.LAW_TRC_EDGE s) (rd O.LAW_TRC_LEVEL s) p cur
    | none => false)
  let s := updTrc (fun t => { t with n := n + 1, prev := some cur }) (trcStore (n % 16384) abandoned s)
  let s := onlyIf hit trcTrigger s
  if s.law.trc.trig then trcMark k n s
  else if rd O.LAW_TRC_STATE s == 2 then
    let left := s.law.trc.left - 1
    let s := updTrc (fun t => { t with left := left }) s
    if left == 0 then wr O.LAW_TRC_STATE 3 s else s
  else s

/-- The trace unit at a commit instant (R134 to R136). -/
def trcCommit (k : Nat) (abandoned : Bool) (s : State) : State :=
  let now := vtFrac s
  let due := s.law.cross.filter (· ≤ now)
  let s := updLaw (fun l => { l with cross := l.cross.filter (fun x => now < x) }) s
  let s := if rd O.LAW_TRC_SRC s == 3 then each due (fun _ => trcTrigger) s else s
  let st := rd O.LAW_TRC_STATE s
  if st != 1 && st != 2 then s
  else
    let c := s.law.trc.commits
    let s := updTrc (fun t => { t with commits := c + 1 }) s
    if c % max 1 (rd O.LAW_TRC_DECIM s) == 0 then trcSample k abandoned s else s

/-- States and c0 return to what they were before a PRESET of the evaluation in flight (R36). -/
def lawUndo (s : State) : State := updLaw (fun l => match l.undo with | some u => { l with states := u.1, c0 := u.2, undo := none } | none => l) s

/-- An evaluation past its worst-case time is abandoned: outputs and states stay as they were before it (R36, R123). -/
def lawAbandon (k : Nat) (s : State) : State :=
  let s := bump O.LAW_ABANDONED (lawUndo s)
  let s := if isApex s then countLate k false (updWork k (fun w => { w with ended := true }) s)
    else updBal (fun b => { b with abandonAt := (s.tick :: b.abandonAt).take 16 }) (updRed (fun r => { r with abandoned := (addTo r.abandoned k).take 16 }) s)
  trcCommit k true s

/-- The results of an evaluation become the committed ones (R117, R123). -/
def commitResults (v : LawEval) (s : State) : State :=
  let s := v.sig.foldl (fun s p => wr (O.LAW_SIGNAL p.1) p.2 s) s
  let s := updLaw (fun l => { l with
    states := v.states.foldl (fun m e => aset m e.1 e.2) l.states
    c0 := v.c0s.foldl (fun m e => aset m e.1 e.2) l.c0
    ramps := v.ramps.foldl (fun m e => aset m e.1 e.2) l.ramps
    undo := none }) s
  let s := each v.err (fun e s => wrBit O.LAW_ELEM_ERR ((63 - e / 8) * 8 + e % 8) true (bump O.LAW_NONFINITE s)) s
  wr O.LAW_LAST_CYCLES v.cycles (bump O.LAW_EVAL_COUNT s)

/-- The commit instant of an evaluation (R36, R44, R123, R124, R209, R213, R217, R303). -/
def lawCommit (v : LawEval) (s : State) : State :=
  let s := updLaw (fun l => { l with eval := none }) s
  if v.idle then buildReferences v.k [] s
  else if v.lost || v.cycles > rd O.LAW_WCET s then lawAbandon v.k s
  else
    let s := commitResults v s
    let outs := (outBinds s).map fun b => (b.1, b.2.1, sigVal b.2.2 s)
    let s := each outs putOutput s
    let bytes := outs.flatMap fun o => beBytes 4 o.2.2
    let s := updRed (fun r => { r with dLaw := byPeriod v.k (if bytes.isEmpty then 0 else crc32c bytes) r.dLaw }) s
    let s := buildReferences v.k outs s
    let s := caddyCapture v.k (inputTest v.k s)
    fireEvent 18 (trcCommit v.k false s)

end Sys2Proof.Machine
end

