-- ==== Sys2Proof/Machine/Law.lean ====
section
/-! DEFINITION. The commands of the law engine (chapter 4). -/
namespace Sys2Proof.Machine

/-- The oldest period that awaits its law start begins (R75, R113, R123, R217). -/
def lawEvalStart (fails : List Nat) (corrected : Nat) (ecc : Bool) (s : State) : State :=
  if !isNode s then s
  else
    match s.law.waits, s.law.eval with
    | w :: t, none =>
      let s := updLaw (fun l => { l with waits := t }) (advVt (pOf w.k s + lawOffset w.k s) s)
      let s := match work? w.k s with | some x => if isApex s then fillArms x s else s | none => s
      lawStart w fails corrected ecc (caddyApply w.k s)
    | _, _ => s

/-- LAW_EVAL_START (R123): fails are elements whose residue check failed, corrected the coefficient words corrected, ecc an uncorrectable error among them (R394). -/
def execLawEvalStart (fails : List Nat) (corrected : Nat) (ecc : Bool) (s : State) : Host.Outcome State Fault Refusal := ok (lawEvalStart fails corrected ecc s)

/-- The evaluation in flight reaches start + w_law (R123). -/
def lawCommitNow (s : State) : State :=
  match s.law.eval with
  | some v => lawCommit v (advVt (v.start + rd O.LAW_WCET s) s)
  | none => s

/-- LAW_COMMIT (R123). -/
def execLawCommit (s : State) : Host.Outcome State Fault Refusal := ok (lawCommitNow s)

/-- Why LAW_CMD v is refused in the present state (R127, R130, R133). -/
def lawCmdRefused (v : Nat) (s : State) : Bool :=
  let st := rd O.LAW_STATE s
  match v with
  | 2 => st != 0 || rd O.LAW_LOAD_STATUS s != 1 || !bankSealed (rd O.LAW_ACTIVE_BANK s) s
  | 3 => st != 4 && anyDeblocked s
  | 4 => sealRefused 0 s
  | 5 => sealRefused 1 s
  | _ => false

/-- What LAW_CMD v does (Table 4.14). -/
def lawCmdEffect (v : Nat) (s : State) : State :=
  match v with
  | 1 => lawValidate s
  | 2 => updLaw (fun l => { l with pendCmd := 1 }) s
  | 3 => updLaw (fun l => { l with pendCmd := 2 }) s
  | 4 => lawSeal 0 s
  | 5 => lawSeal 1 s
  | _ => wr O.LAW_ELEM_ERR 0 s

/-- A write of LAW_CMD. -/
def writeLawCmd (v : Nat) (s : State) : Res := writeBy O.LAW_CMD v (stIf (lawCmdRefused v s)) (fun s => done (lawCmdEffect v s)) s

/-- LAW_CMD VALIDATE (R133). -/
def execLawCmdValidate (s : State) : Host.Outcome State Fault Refusal := ok (finish (writeLawCmd 1 s))

/-- LAW_CMD START (R130). -/
def execLawCmdStart (s : State) : Host.Outcome State Fault Refusal := ok (finish (writeLawCmd 2 s))

/-- LAW_CMD STOP (R130). -/
def execLawCmdStop (s : State) : Host.Outcome State Fault Refusal := ok (finish (writeLawCmd 3 s))

/-- LAW_CMD SEAL_0 (R127). -/
def execLawCmdSeal0 (s : State) : Host.Outcome State Fault Refusal := ok (finish (writeLawCmd 4 s))

/-- LAW_CMD SEAL_1 (R127). -/
def execLawCmdSeal1 (s : State) : Host.Outcome State Fault Refusal := ok (finish (writeLawCmd 5 s))

/-- LAW_CMD CLEAR_ERR (R117). -/
def execLawCmdClearErr (s : State) : Host.Outcome State Fault Refusal := ok (finish (writeLawCmd 6 s))

/-- Why a swap request is refused (R128). -/
def bankReqRefused (v : Nat) (s : State) : Bool :=
  let b := v % 2
  let st := rd O.LAW_STATE s
  b == rd O.LAW_ACTIVE_BANK s || !bankSealed b s || st == 0 || st == 4 || (st == 3 && rd O.LAW_GOOD_COUNT s < rd O.LAW_LOSS_RECOVER s)

/-- A write of LAW_BANK_REQ (R128): it replaces an earlier request of the same interval alone. -/
def writeBankReq (v : Nat) (s : State) : Res :=
  writeBy O.LAW_BANK_REQ v (stIf (bankReqRefused v s)) (fun s => done (updLaw (fun l => { l with swap := (l.swap.filter fun q => q.2.2 != kNow s + 1) ++ [(v % 2, bit v 4, kNow s + 1)] }) s)) s

/-- LAW_BANK_REQ (R128). -/
def execLawBankReq (v : Nat) (s : State) : Host.Outcome State Fault Refusal := ok (finish (writeBankReq v s))

/-- What LAW_TRC_CMD v does (R135, R136). -/
def trcCmd (v : Nat) (s : State) : State :=
  match v with
  | 1 => wr O.LAW_TRC_STATE 1 (updLaw (fun l => { l with trc := TrcSt.init, cross := l.cross.filter (fun x => vtFrac s ≤ x) }) s)
  | 2 => trcTrigger s
  | _ => wr O.LAW_TRC_STATE 0 (updTrc (fun _ => TrcSt.init) s)

/-- A write of LAW_TRC_CMD. -/
def writeTrcCmd (v : Nat) (s : State) : Res := writeBy O.LAW_TRC_CMD v stOk (fun s => done (trcCmd v s)) s

/-- LAW_TRC ARM (R135). -/
def execLawTrcArm (s : State) : Host.Outcome State Fault Refusal := ok (finish (writeTrcCmd 1 s))

/-- LAW_TRC FORCE (R136). -/
def execLawTrcForce (s : State) : Host.Outcome State Fault Refusal := ok (finish (writeTrcCmd 2 s))

/-- LAW_TRC STOP (R135). -/
def execLawTrcStop (s : State) : Host.Outcome State Fault Refusal := ok (finish (writeTrcCmd 3 s))

end Sys2Proof.Machine
end

