-- ==== Sys2Proof/Machine/Lnk.lean ====
section
/-! DEFINITION. The commands of the lanes: ladder, loops, link state, schuss, frames (chapter 5). PCS and router parity errors stand with the spares (R397). -/
namespace Sys2Proof.Machine

/-- Bits that a line carries in a number of counter ticks at a rate code. -/
def lineBits (rate t : Nat) : Nat := match rate with | 0 => t * 25 / 8 | 1 => t * 25 / 4 | 2 => t * 825 / 64 | _ => t * 825 / 32

/-- What the loop checker of lane n has counted by now: bits by its time and rate, errors a free value of theirs (R170). -/
def loopCount (n : Nat) (s : State) : State :=
  if stage n s != 7 || (lane n s).loopPartner then s
  else
    let bits := lineBits (rd (O.LNK_RATE n) s) (s.tick - (lane n s).loopAt)
    let r := takeFree 32 s
    bumpN (min bits r.1) (O.LNK_LOOP_ERR n) (bumpN bits (O.LNK_LOOP_BITS n) (updLane n (fun x => { x with loopAt := s.tick }) r.2))

/-- The receiver of lane n is in lock on its partner's symbols: LOL is live no more (R168). -/
def inLock (n : Nat) (s : State) : State := wrBit (O.LNK_STATUS n) 1 false s

/-- A looped partner whose LOS has held for 10 us leaves the loop (R171). -/
def laneDue (n : Nat) (s : State) : State :=
  match (lane n s).loopLeave with
  | some t => if stage n s == 7 && (lane n s).loopPartner && t ≤ s.tick then toL0 n (updLane n (fun x => { x with loopPartner := false, loopLeave := none }) s) else s
  | none => s

/-- A write of LNK_ENABLE of lane n (R140, R169). -/
def writeLnkEnable (n v : Nat) (s : State) : Res :=
  writeBy (O.LNK_ENABLE n) v (if v == 1 && !laneHere n s then stRange else if v == 0 && laneHere n s then stIf (laneBusy n s) else 0) (fun s =>
    let s := wr (O.LNK_ENABLE n) v s
    if v == 0 then
      let s := updLane n (fun x => { x with backoffEnd := none, loopPartner := false, loopLeave := none, out := [] }) (wr (O.LNK_LOOP n) 0 (loopCount n s))
      let s := wr (O.LNK_BACKOFF_NOW n) 0 (wrBit (O.LNK_STATUS n) 4 false s)
      done (if stage n s == 8 then s else goStage n 8 (wr (O.LNK_RATE n) 0 (forget n (dropQueues n s))))
    else done (if stage n s == 8 && laneHere n s then toL0 n s else s)) s

/-- LNK_ENABLE_WRITE (R140, R165, R169). -/
def execLnkEnableWrite (n v : Nat) (s : State) : Host.Outcome State Fault Refusal := ok (finish (writeLnkEnable n v s))

/-- 64 consecutive valid PRESENCE on a lane in L0 whose back-off is over and whose partner holds off no more (Table 5.9); the receiver corrects an inverted pair (R142). -/
def presenceLock (n : Nat) (inverted : Bool) (s : State) : State :=
  let s := if laneHere n s && stage n s == 0 then inLock n s else s
  let l := lane n s
  let past : Bool := match l.backoffEnd with | some t => decide (t ≤ s.tick) | none => true
  if !laneHere n s || stage n s != 0 || !past || l.holdoffRx then s
  else
    let s := wrBit (O.LNK_STATUS n) 2 inverted (wrBit (O.LNK_STATUS n) 3 false s)
    let s := updLane n (fun x => { x with tries := [0, 0, 0, 0], presence := some s.tick }) s
    toL1 n s

/-- LANE_PRESENCE_LOCK (R26, R142, R165). -/
def execLanePresenceLock (n : Nat) (inverted : Bool) (s : State) : Host.Outcome State Fault Refusal := ok (presenceLock n inverted s)

/-- No valid PRESENCE for LNK_L0_TIMEOUT since entry to L0. -/
def l0Timeout (n : Nat) (s : State) : State :=
  if !laneHere n s || stage n s != 0 then s
  else
    let l := lane n s
    let s := advTo (max l.entered (l.presence.getD 0) + ms (rd O.LNK_L0_TIMEOUT s)) s
    updLaneDown n (wrBit (O.LNK_STATUS n) 3 true s)

/-- LANE_L0_TIMEOUT (R165). -/
def execLaneL0Timeout (n : Nat) (s : State) : Host.Outcome State Fault Refusal := ok (l0Timeout n s)

/-- PRESENCE on lane n: in L0 it shows the partner's HOLDOFF, in L2 to L5 and WIRING it takes the lane to L0 (Table 5.9; L1 by Table 5.10, log entry 30). -/
def presenceRx (n : Nat) (holdoff : Bool) (s : State) : State :=
  if !laneHere n s then s
  else if stage n s == 0 then
    wrBit (O.LNK_STATUS n) 5 holdoff (updLane n (fun x => { x with presence := some s.tick, holdoffRx := holdoff }) (inLock n s))
  else if 2 ≤ stage n s && stage n s ≤ 6 then lineLost n 9 s
  else s

/-- PRESENCE_RX (R165). -/
def execPresenceRx (n : Nat) (holdoff : Bool) (s : State) : Host.Outcome State Fault Refusal := ok (presenceRx n holdoff s)

/-- A lane in L1 or WIRING sends CAP (R162, R163). -/
def capSend (n : Nat) (s : State) : State :=
  if !laneHere n s || !(stage n s == 1 || stage n s == 6) then s
  else
    let m := ladder 1 n s
    tryL2 n (updLane n (fun x => { x with capSent := x.capSent || m.partnerOk }) (sendLadder m 1 n s))

/-- CAP_SEND (R162). -/
def execCapSend (n : Nat) (s : State) : Host.Outcome State Fault Refusal := ok (capSend n s)

/-- LNK_PARTNER from a CAP (Table 5.14). -/
def partnerWord (c : Ladder) : Nat := low 8 c.lane * 2 ^ 24 + b2n c.roleNode * 2 ^ 23 + b2n c.sideB * 2 ^ 22 + low 8 c.node * 2 ^ 8 + low 4 c.rateMax

/-- The effect of ladder message msg with these bytes on lane n: one whose length or CRC-32C is wrong is discarded and counted, another message or version has no effect here (R6, R150, R162). -/
def onLadder (msg n : Nat) (b : List Nat) (f : Ladder → State → State) (s : State) : State :=
  if !laneHere n s || !(1 ≤ stage n s && stage n s ≤ 6) then s
  else if b.length != 32 then bump (O.LNK_RX_INVALID n) s
  else if crc32c (b.take 28) != ofBe (b.drop 28) then bump (O.LNK_CRC_ERR n) s
  else if (ladderOf b).msg != msg || (ladderOf b).ver != 1 then s
  else f (ladderOf b) (inLock n s)

/-- A CAP kept: LNK_PARTNER, and what PARTNER_OK and the rates rest on (R162, R164). -/
def keepCap (n : Nat) (c : Ladder) (s : State) : State := wr (O.LNK_PARTNER n) (partnerWord c) (updLane n (fun x => { x with cap := some c, capAt := some s.tick }) s)

/-- A CAP frame: the pairing, the rate, L2 (R163, R164, Table 5.9). -/
def capRx (n : Nat) (c : Ladder) (s : State) : State :=
  if stage n s == 1 then
    let s := keepCap n c s
    if pairingOk n c s then tryL2 n (cellTarget s) else goStage n 6 s
  else if stage n s == 6 then keepCap n c s
  else if stage n s == 2 || stage n s == 3 then cellTarget (keepCap n c (toL1 n s))
  else s

/-- CAP_RX (R162 to R165): the 32 bytes of the frame. -/
def execCapRx (n : Nat) (b : List Nat) (s : State) : Host.Outcome State Fault Refusal := ok (onLadder 1 n b (capRx n) s)

/-- RATE_GO: where CAP with PARTNER_OK has gone both ways and the rate it carries is the one this side has come to, L2 (R164, Table 5.9). -/
def rateGoRx (n : Nat) (c : Ladder) (s : State) : State :=
  match (lane n s).cap with
  | some m => if stage n s == 1 && capAnswered n s && agreedRate n m s == some c.rate then goL2 n c.rate s else s
  | none => s

/-- RATE_GO_RX (R164, R165): the 32 bytes of the frame. -/
def execRateGoRx (n : Nat) (b : List Nat) (s : State) : Host.Outcome State Fault Refusal := ok (onLadder 2 n b (rateGoRx n) s)

/-- No CAP with PARTNER_OK received for LNK_L1_TIMEOUT since the entry to L1. -/
def l1Timeout (n : Nat) (s : State) : State :=
  if !laneHere n s || stage n s != 1 || ((lane n s).capAt.isSome && (match (lane n s).cap with | some c => c.partnerOk | none => false)) then s
  else
    let s := advTo ((lane n s).entered + ms (rd O.LNK_L1_TIMEOUT s)) s
    backoffL0 n (bump (O.LNK_TRAIN_FAIL n) (wr (O.LNK_LAST_FAIL n) 1 s))

/-- LANE_L1_TIMEOUT (R165). -/
def execLaneL1Timeout (n : Nat) (s : State) : Host.Outcome State Fault Refusal := ok (l1Timeout n s)

/-- L3 once the own lock is held and LOCKED has come. -/
def tryL3 (n : Nat) (s : State) : State :=
  let l := lane n s
  if stage n s == 2 && l.rxLocked && l.partnerLocked then updLane n (fun x => { x with out := [.prbs] }) (goStage n 3 s) else s

/-- The receiver locks at the agreed rate in L2. -/
def rxLock (n : Nat) (s : State) : State :=
  if !laneHere n s || stage n s != 2 then s
  else
    let s := wrBit (O.LNK_STATUS n) 1 false (wrBit (O.LNK_STATUS n) 6 true s)
    tryL3 n (sendLadder (ladder 3 n s) 1 n (updLane n (fun x => { x with rxLocked := true }) s))

/-- LANE_RX_LOCK (R165). -/
def execLaneRxLock (n : Nat) (s : State) : Host.Outcome State Fault Refusal := ok (rxLock n s)

/-- LOCKED sent again while L2 lasts (Table 5.9). -/
def lockedSend (n : Nat) (s : State) : State :=
  if laneHere n s && stage n s == 2 && (lane n s).rxLocked then sendLadder (ladder 3 n s) 1 n s else s

/-- LOCKED_SEND (R165). -/
def execLockedSend (n : Nat) (s : State) : Host.Outcome State Fault Refusal := ok (lockedSend n s)

/-- LOCKED from the partner. -/
def lockedRx (n : Nat) (s : State) : State :=
  if stage n s != 2 then s else tryL3 n (updLane n (fun x => { x with partnerLocked := true }) s)

/-- LOCKED_RX (R165): the 32 bytes of the frame. -/
def execLockedRx (n : Nat) (b : List Nat) (s : State) : Host.Outcome State Fault Refusal := ok (onLadder 3 n b (fun _ => lockedRx n) s)

/-- Not in L3 at LNK_L2_TIMEOUT. -/
def l2Timeout (n : Nat) (s : State) : State :=
  if !laneHere n s || stage n s != 2 then s
  else trainFail n 2 (advTo ((lane n s).entered + us (rd O.LNK_L2_TIMEOUT s)) s)

/-- LANE_L2_TIMEOUT (R165, R166). -/
def execLaneL2Timeout (n : Nat) (s : State) : Host.Outcome State Fault Refusal := ok (l2Timeout n s)

/-- The PRBS is over and this side's bit errors are counted: RESULT four times. -/
def prbsEnd (n errors : Nat) (s : State) : State :=
  if !laneHere n s || stage n s != 3 then s
  else
    let r := rd (O.LNK_RATE n) s
    let s := advTo ((lane n s).entered + us 560 + windowTicks (rd O.LNK_L3_WINDOW s) r) s
    let e := satU 32 errors
    let s := updLane n (fun x => { x with ownPass := some (decide (e ≤ rd O.LNK_L3_MAX_ERR s)) }) (wr (O.LNK_L3_ERRORS n) e s)
    evalL3 n (sendLadder (ladder 4 n s) 4 n s)

/-- LANE_PRBS_END (R165). -/
def execLanePrbsEnd (n errors : Nat) (s : State) : Host.Outcome State Fault Refusal := ok (prbsEnd n errors s)

/-- RESULT from the partner. -/
def resultRx (n : Nat) (c : Ladder) (s : State) : State :=
  if stage n s != 3 then s else evalL3 n (updLane n (fun x => { x with partnerPass := some c.pass }) s)

/-- RESULT_RX (R162, R165, R166): the 32 bytes of the frame. -/
def execResultRx (n : Nat) (b : List Nat) (s : State) : Host.Outcome State Fault Refusal := ok (onLadder 4 n b (resultRx n) s)

/-- No RESULT by entry + 560 us + window + LNK_L2_TIMEOUT. -/
def l3NoResult (n : Nat) (s : State) : State :=
  if !laneHere n s || stage n s != 3 || (lane n s).partnerPass.isSome then s
  else
    let d := us 560 + windowTicks (rd O.LNK_L3_WINDOW s) (rd (O.LNK_RATE n) s) + us (rd O.LNK_L2_TIMEOUT s)
    trainFail n 4 (advTo ((lane n s).entered + d) s)

/-- LANE_L3_NO_RESULT (R165, R166). -/
def execLaneL3NoResult (n : Nat) (s : State) : Host.Outcome State Fault Refusal := ok (l3NoResult n s)

/-- The time lock criterion (R182): 64 exchanges with a spread of at most 1000 ps, and LOCKED where the lane is the time source. -/
def timeLockMet (n : Nat) (s : State) : Bool :=
  (match s.tim.pd.find? fun p => p.lane == n with | some p => decide (p.ex.length ≥ 64) | none => false)
    && rd (O.TIM_LANE_SPREAD n) s ≤ 1000 && (rd O.TIM_VT_SOURCE s != n || timeLock s)

/-- A lane in L4 that meets the criterion enters L5. -/
def laneTimeLock (n : Nat) (s : State) : State := if laneHere n s && stage n s == 4 && timeLockMet n s then enterL5 n s else s

/-- LANE_TIME_LOCK (R165, R182). -/
def execLaneTimeLock (n : Nat) (s : State) : Host.Outcome State Fault Refusal := ok (laneTimeLock n s)

/-- Not in L5 at LNK_L4_TIMEOUT. -/
def l4Timeout (n : Nat) (s : State) : State :=
  if !laneHere n s || stage n s != 4 then s
  else
    let s := advTo ((lane n s).entered + ms (rd O.LNK_L4_TIMEOUT s)) s
    backoffL0 n (bump (O.LNK_TRAIN_FAIL n) (wr (O.LNK_LAST_FAIL n) 5 s))

/-- LANE_L4_TIMEOUT (R165). -/
def execLaneL4Timeout (n : Nat) (s : State) : Host.Outcome State Fault Refusal := ok (l4Timeout n s)

/-- RETRAIN from the partner; with RESTORE a cell clears both its ceilings and passes it on (R166). -/
def retrainRx (n : Nat) (c : Ladder) (s : State) : State :=
  if !(2 ≤ stage n s && stage n s ≤ 5) then s
  else
    let s := toL1 n s
    if c.restore && isCell s then
      let s := wr (O.LNK_CEILING laneU0) 3 (wr (O.LNK_CEILING laneU1) 3 s)
      retrain true (if n == laneU0 then laneU1 else laneU0) s
    else s

/-- RETRAIN_RX (R165, R166): the 32 bytes of the frame. -/
def execRetrainRx (n : Nat) (b : List Nat) (s : State) : Host.Outcome State Fault Refusal := ok (onLadder 5 n b (retrainRx n) s)

/-- The counters of lane n (R175). -/
def laneCounters (n : Nat) : List Nat :=
  [O.LNK_L5_ENTRIES n, O.LNK_TRAIN_FAIL n, O.LNK_LOS_COUNT n, O.LNK_LOL_COUNT n, O.LNK_HIBER_COUNT n, O.LNK_HCRC_ERR n, O.LNK_CRC_ERR n,
   O.LNK_RX_ABORTED n, O.LNK_RX_INVALID n, O.LNK_CODE_ERR n, O.LNK_FWD_DISCARD n, O.LNK_PREEMPT n, O.LNK_LOOP_ERR n, O.LNK_SCHUSS_RX n,
   O.LNK_SCHUSS_BAD n, O.LNK_RX_OTHER n, O.LNK_LOOP_BITS n]
    ++ [1, 2, 3, 4, 5, 6, 7].flatMap fun c => [O.LNK_TX_FRAMES c n, O.LNK_RX_FRAMES c n, O.LNK_TX_DROP c n]

/-- A write of LNK_CMD of lane n (R166, R169, R175). -/
def writeLnkCmd (n v : Nat) (s : State) : Res :=
  writeBy (O.LNK_CMD n) v (if v == 1 || v == 2 then stIf (laneHere n s && laneBusy n s) else 0) (fun s =>
    if v == 3 then done (clearAll (laneCounters n) s)
    else if v == 2 then done (retrain true n (wr (O.LNK_CEILING n) 3 s))
    else done (retrain false n s)) s

/-- LNK_CMD_RETRAIN (R165, R169). -/
def execLnkCmdRetrain (n : Nat) (s : State) : Host.Outcome State Fault Refusal := ok (finish (writeLnkCmd n 1 s))

/-- LNK_CMD_RESTORE_RATE (R166, R169). -/
def execLnkCmdRestoreRate (n : Nat) (s : State) : Host.Outcome State Fault Refusal := ok (finish (writeLnkCmd n 2 s))

/-- LNK_CMD_CLEAR_COUNTERS (R175). -/
def execLnkCmdClearCounters (n : Nat) (s : State) : Host.Outcome State Fault Refusal := ok (finish (writeLnkCmd n 3 s))

/-- The partner of a far loop leaves it when its CDR loses lock (R171). -/
def leaveFar (n : Nat) (s : State) : State :=
  if stage n s == 7 && (lane n s).loopPartner then toL0 n (updLane n (fun x => { x with loopPartner := false, loopLeave := none }) s) else s

/-- LOS asserted (R168); the partner of a far loop leaves it once LOS has held for 10 us (R171). -/
def laneLos (n : Nat) (s : State) : State :=
  if !laneHere n s || stage n s == 8 || rdBit (O.LNK_STATUS n) 0 s then s
  else
    let s := wrBit (O.LNK_STATUS n) 0 true (bump (O.LNK_LOS_COUNT n) s)
    lineLost n 6 (if stage n s == 7 && (lane n s).loopPartner then updLane n (fun x => { x with loopLeave := some (s.tick + us 10) }) s else s)

/-- LANE_LOS (R168). -/
def execLaneLos (n : Nat) (s : State) : Host.Outcome State Fault Refusal := ok (laneLos n s)

/-- LOS cleared; the recovered clock is in lock again (R168). -/
def laneLosClear (n : Nat) (s : State) : State :=
  if !laneHere n s then s
  else inLock n (wrBit (O.LNK_STATUS n) 0 false (updLane n (fun x => { x with loopLeave := none }) (laneDue n s)))

/-- LANE_LOS_CLEAR (R168). -/
def execLaneLosClear (n : Nat) (s : State) : Host.Outcome State Fault Refusal := ok (laneLosClear n s)

/-- LOL asserted (R168). -/
def laneLol (n : Nat) (s : State) : State :=
  if !laneHere n s || stage n s == 8 || rdBit (O.LNK_STATUS n) 1 s then s
  else leaveFar n (lineLost n 7 (wrBit (O.LNK_STATUS n) 1 true (bump (O.LNK_LOL_COUNT n) s)))

/-- LANE_LOL (R168). -/
def execLaneLol (n : Nat) (s : State) : Host.Outcome State Fault Refusal := ok (laneLol n s)

/-- A high error rate found in L2 to L5 (R168): the code errors of the window up to the limit are counted, those a received line has shown no second time. -/
def laneHiber (n : Nat) (s : State) : State :=
  if !laneHere n s || !(2 ≤ stage n s && stage n s ≤ 5) then s
  else
    let c := (lane n s).code
    let seen := if c.1 == s.tick / us 125 then c.2 else 0
    lineLost n 8 (updLane n (fun x => { x with code := (0, 0) }) (bumpN (rd O.LNK_HIBER_LIMIT s - seen) (O.LNK_CODE_ERR n) (bump (O.LNK_HIBER_COUNT n) s)))

/-- LANE_HIBER (R168). -/
def execLaneHiber (n : Nat) (s : State) : Host.Outcome State Fault Refusal := ok (laneHiber n s)

/-- The own back-off is over (R166). -/
def backoffEnd (n : Nat) (s : State) : State :=
  match (lane n s).backoffEnd with
  | some t =>
    let s := updLane n (fun x => { x with backoffEnd := none, out := if rd (O.LNK_STAGE n) s == 0 then [.sym (.presence false) 1] else x.out }) (advTo t s)
    wr (O.LNK_BACKOFF_NOW n) 0 (wrBit (O.LNK_STATUS n) 4 false s)
  | none => s

/-- LANE_BACKOFF_END (R166). -/
def execLaneBackoffEnd (n : Nat) (s : State) : Host.Outcome State Fault Refusal := ok (backoffEnd n s)

/-- 10 s continuously in L5 (R166). -/
def l5Stable (n : Nat) (s : State) : State :=
  if !inL5 n s then s else updLane n (fun x => { x with consecutive := 0 }) (advTo ((lane n s).entered + ms 10000) s)

/-- LANE_L5_STABLE (R166). -/
def execLaneL5Stable (n : Nat) (s : State) : Host.Outcome State Fault Refusal := ok (l5Stable n s)

/-- Entry to a near-end loop: the pattern at the lower of LNK_RATE_CFG and the role limit (R170). -/
def nearLoop (v n : Nat) (s : State) : State :=
  let r := min (rd (O.LNK_RATE_CFG n) s) (roleRate s)
  let s := wr (O.LNK_LOOP n) v (wr (O.LNK_RATE n) r (dropQueues n (loopCount n s)))
  updLane n (fun x => { x with out := [.pattern (rd (O.LNK_PATTERN n) s)] }) (toLoop false n s)

/-- A write of LNK_LOOP of lane n (R169 to R171). -/
def writeLnkLoop (n v : Nat) (s : State) : Res :=
  let far := v == 3
  let st := if v == 0 then 0 else if !laneHere n s || stage n s == 8 || (far && !inL5 n s) then stState else stIf (laneBusy n s)
  writeBy (O.LNK_LOOP n) v st (fun s =>
    if v == 0 then
      if stage n s == 7 && !(lane n s).loopPartner then done (toL0 n (wr (O.LNK_LOOP n) 0 (loopCount n s))) else done (wr (O.LNK_LOOP n) 0 s)
    else if far then
      done (sendLadder (ladder 6 n s) 4 n (wrBit (O.LNK_STATUS n) 8 false (wr (O.LNK_LOOP n) 3 s)))
    else done (nearLoop v n s)) s

/-- LOOP_NONE (R170, R171). -/
def execLoopNone (n : Nat) (s : State) : Host.Outcome State Fault Refusal := ok (finish (writeLnkLoop n 0 s))

/-- LOOP_NEAR_PMA (R170). -/
def execLoopNearPma (n : Nat) (s : State) : Host.Outcome State Fault Refusal := ok (finish (writeLnkLoop n 1 s))

/-- LOOP_NEAR_PCS (R170). -/
def execLoopNearPcs (n : Nat) (s : State) : Host.Outcome State Fault Refusal := ok (finish (writeLnkLoop n 2 s))

/-- LOOP_FAR (R171). -/
def execLoopFar (n : Nat) (s : State) : Host.Outcome State Fault Refusal := ok (finish (writeLnkLoop n 3 s))

/-- LOOP_REQ from the partner: refused as R169 would refuse the loop, else acknowledged, and LOOP once that is sent (R171). -/
def loopReqRx (n : Nat) (s : State) : State :=
  if !inL5 n s then s else sendLadder (ladder (if laneBusy n s then 8 else 7) n s) 4 n s

/-- LOOP_REQ_RX (R171): the 32 bytes of the frame. -/
def execLoopReqRx (n : Nat) (b : List Nat) (s : State) : Host.Outcome State Fault Refusal := ok (onLadder 6 n b (fun _ => loopReqRx n) s)

/-- LOOP_ACK at the requester (R171). -/
def loopAckRx (n : Nat) (s : State) : State :=
  if !inL5 n s || rd (O.LNK_LOOP n) s != 3 then s
  else updLane n (fun x => { x with out := [.pattern (rd (O.LNK_PATTERN n) s)] }) (toLoop false n s)

/-- LOOP_ACK_RX (R171): the 32 bytes of the frame. -/
def execLoopAckRx (n : Nat) (b : List Nat) (s : State) : Host.Outcome State Fault Refusal := ok (onLadder 7 n b (fun _ => loopAckRx n) s)

/-- LOOP_NAK at the requester (R171). -/
def loopNakRx (n : Nat) (s : State) : State :=
  if !inL5 n s || rd (O.LNK_LOOP n) s != 3 then s else wrBit (O.LNK_STATUS n) 8 true (wr (O.LNK_LOOP n) 0 s)

/-- LOOP_NAK_RX (R171): the 32 bytes of the frame. -/
def execLoopNakRx (n : Nat) (b : List Nat) (s : State) : Host.Outcome State Fault Refusal := ok (onLadder 8 n b (fun _ => loopNakRx n) s)

/-- A LINK_STATE symbol on a piste lane in L5 (R172, R173). -/
def linkStateRx (n hops behind : Nat) (s : State) : State :=
  if !inL5 n s || !pisteHop n s then s else takeLinkState n (min 31 hops) (min 30 behind) s

/-- LINK_STATE_RX (R172 to R174, R400). -/
def execLinkStateRx (n hops behind : Nat) (s : State) : Host.Outcome State Fault Refusal := ok (linkStateRx n hops behind s)

/-- LINK_STATE sent on a piste lane in L5 (R172). -/
def linkStateSend (n : Nat) (s : State) : State :=
  if !inL5 n s || !pisteHop n s then s else sayLinkState n s

/-- LINK_STATE_SEND (R172). -/
def execLinkStateSend (n : Nat) (s : State) : Host.Outcome State Fault Refusal := ok (linkStateSend n s)

/-- No LINK_STATE for 1 ms: both values unknown (R172). -/
def linkStateTimeout (n : Nat) (s : State) : State :=
  if !inL5 n s || !pisteHop n s then s
  else
    let s := advTo ((lane n s).lsAt.getD 0 + ms 1) s
    let s := updLane n (fun x => { x with hops := 31, behind := 0, knownAt := none }) s
    if isNode s then updPiste n s else lsChange [laneU0, laneU1] (if n == laneU1 then wr O.LNK_CELL_HOPS_B 31 s else s)

/-- LINK_STATE_TIMEOUT (R172). -/
def execLinkStateTimeout (n : Nat) (s : State) : Host.Outcome State Fault Refusal := ok (linkStateTimeout n s)

/-- ORIGIN_HOPS of downlink k known for LNK_WHOLE_HOLD (R174). -/
def pisteWhole (k : Nat) (s : State) : State :=
  match (lane k s).knownAt with
  | some t =>
    if isNode s && k < 64 && inL5 k s && carriesPiste k s then
      let s := advTo (t + us (rd O.LNK_WHOLE_HOLD s)) s
      updSplit k (wr (O.LNK_PISTE_STATE k) 1 s)
    else s
  | none => s

/-- PISTE_WHOLE (R174). -/
def execPisteWhole (k : Nat) (s : State) : Host.Outcome State Fault Refusal := ok (pisteWhole k s)

/-- An accepted schuss: counted, remembered with the time of its latest acceptance, passed on once, and handed to the kettle (R155, R156, R285 to R289). -/
def schussTake (n key : Nat) (s : State) : State :=
  let kind := key / 65536
  let s := bump (O.LNK_SCHUSS_RX n) s
  let mem := s.saf.schMem.filter fun e => s.tick < e.2 + ms 1
  let new := !(mem.any fun e => e.1 == key)
  let s := updSaf (fun x => { x with schMem := ((key, s.tick) :: mem.filter fun e => e.1 != key).take 16 }) s
  let s := if new then pulse 218 key (sendSchuss kind (key / 256 % 256) (key % 256) n s) else s
  if isNode s then nodeSchuss (kind == 0xA5) (key / 256 % 256) s else cellSchuss s

/-- Symbol positions on lane n in L5: schuss symbols rejected are counted, accepted schusses taken (R155). -/
def schussSyms (n : Nat) (l : List (Option (List Nat))) (s : State) : State :=
  if !inL5 n s then s
  else
    let r := schussScan l
    each r.2 (schussTake n) (bumpN r.1 (O.LNK_SCHUSS_BAD n) s)

/-- SCHUSS_RX (R155, R156): consecutive symbol positions, with the bytes of a schuss symbol or none for another symbol. -/
def execSchussRx (n : Nat) (l : List (Option (List Nat))) (s : State) : Host.Outcome State Fault Refusal := ok (schussSyms n l s)

/-- The burst repeated every 2 us while the request holds (R155, R286). -/
def schussRepeat (s : State) : State :=
  match s.saf.repeatAt with
  | some t =>
    if s.saf.causes.isEmpty then updSaf (fun x => { x with repeatAt := none }) s
    else
      let s := advTo t s
      let s := sendSchuss (if urgentHeld s then 0xA5 else 0x5A) (nodeNum s) s.saf.seq 68 s
      updSaf (fun x => { x with repeatAt := some (t + us 2) }) s
  | none => s

/-- SCHUSS_REPEAT (R155). -/
def execSchussRepeat (s : State) : Host.Outcome State Fault Refusal := ok (schussRepeat s)

/-- A code error on lane n; LNK_HIBER_LIMIT of them within a window of 125 us in L2 to L5 are a high error rate (R145, R168). -/
def codeErr (n : Nat) (s : State) : State :=
  let w := s.tick / us 125
  let c := (lane n s).code
  let k := if c.1 == w then c.2 + 1 else 1
  let s := updLane n (fun x => { x with code := (w, k) }) (bump (O.LNK_CODE_ERR n) s)
  if rd O.LNK_HIBER_LIMIT s ≤ k && 2 ≤ stage n s && stage n s ≤ 5 then lineLost n 8 (updLane n (fun x => { x with code := (0, 0) }) (bump (O.LNK_HIBER_COUNT n) s)) else s

/-- A ladder frame that has arrived, by its message (R162). -/
def ladderEnd (n : Nat) (b : List Nat) (s : State) : State :=
  match nth b 0 0 with
  | 2 => onLadder 2 n b (rateGoRx n) s
  | 3 => onLadder 3 n b (fun _ => lockedRx n) s
  | 4 => onLadder 4 n b (resultRx n) s
  | 5 => onLadder 5 n b (retrainRx n) s
  | 6 => onLadder 6 n b (fun _ => loopReqRx n) s
  | 7 => onLadder 7 n b (fun _ => loopAckRx n) s
  | 8 => onLadder 8 n b (fun _ => loopNakRx n) s
  | _ => onLadder 1 n b (capRx n) s

/-- The end of the frame being received on lane n: a ladder frame by its message; another where the stage carries its class (Table 5.9, R181). -/
def rxEnd (n : Nat) (bad : Bool) (s : State) : State :=
  match (lane n s).rx with
  | none => s
  | some f =>
    let s := updLane n (fun x => { x with rx := none }) s
    if f.cls == 0 then (if bad then bump (O.LNK_RX_ABORTED n) s else ladderEnd n f.bytes s)
    else if inL5 n s || (stage n s == 4 && f.cls == 1) then frameEnd n f bad s
    else s

/-- RESUME on lane n: the frame on top of the stack goes on where it has that class; else every suspended frame is discarded. A frame that has not ended is cut off by it (R152). -/
def rxResume (n c : Nat) (s : State) : State :=
  let s := match (lane n s).rx with
    | some f => discardRx n f (updLane n (fun x => { x with rx := none }) s)
    | none => s
  let l := lane n s
  match l.rxSusp with
  | e :: t =>
    if e.1.cls == c then updLane n (fun x => { x with rx := some e.1, rxSusp := t }) s
    else each (l.rxSusp.map (·.1)) (discardRx n) (updLane n (fun x => { x with rxSusp := [] }) s)
  | [] => s

/-- One symbol received on lane n (R145, R146, R151, R152): SOF in a frame suspends it, data outside a frame is a code error. -/
def rxSym (n : Nat) (y : Sym) (s : State) : State :=
  if stage n s == 0 then (match y with | .presence h => presenceRx n h s | .bad => codeErr n s | _ => s)
  else if !(1 ≤ stage n s && stage n s ≤ 6) then s
  else match y with
  | .sof c => updLane n (fun x => { x with rx := some { cls := c, bytes := [], born := s.tick }, rxSusp := match x.rx with | some f => (f, s.tick) :: x.rxSusp | none => x.rxSusp }) s
  | .data l => if (lane n s).rx.isSome then updLane n (fun x => { x with rx := x.rx.map fun f => { f with bytes := f.bytes ++ l } }) s else codeErr n s
  | .eof => rxEnd n false s
  | .eofBad => rxEnd n true s
  | .resume c => rxResume n c s
  | .linkState h b => linkStateRx n h b s
  | .presence h => presenceRx n h s
  | .bad => codeErr n s
  | .idle => s
  | .schuss _ => s

/-- Line units received on lane n, to the end of a frame or anywhere within one: their symbols in order, and the schuss symbols among them (R144 to R146, R155). -/
def lineRx (n prev : Nat) (line : List Nat) (s : State) : State :=
  if !laneHere n s then s
  else
    let l := lineSyms (rd (O.LNK_RATE n) s) prev line
    each l (rxSym n) (schussSyms n (l.map Sym.asSchuss) s)

/-- FRAME_RX (R144 to R152, R157, R159, R160): the lane, the 58 bits or the running disparity before, the line units. -/
def execFrameRx (n prev : Nat) (line : List Nat) (s : State) : Host.Outcome State Fault Refusal := ok (lineRx n prev line s)

/-- The bytes of a frame as it is sent, and whether it ends with EOF_BAD. -/
def TxBody.line : TxBody → List Nat × Bool
  | .own f bad => (f.bytes, bad)
  | .fwd b bad => (b, bad)

/-- The frame being sent on lane n ends, its line as R144 codes it after bits that a free value stands for; what waits for a gap between frames goes before classes 2 to 7; then the next one starts or resumes (R146, R151, R153, R154). -/
def frameTxEnd (n : Nat) (s : State) : State :=
  match (lane n s).cur with
  | none => s
  | some c =>
    let r := takeFree 58 s
    let rate := rd (O.LNK_RATE n) s
    let line := symsLine rate r.1 (frameSyms rate c.cls c.body.line.1 c.body.line.2)
    let s := updLane n (fun x => { x with cur := none, sent := line }) (bump (O.LNK_TX_FRAMES c.cls n) r.2)
    let l := lane n s
    if l.susp.isEmpty && !l.wait.isEmpty && !(l.q.any fun i => i.cls == 1) then
      startTx n (each l.wait (said n) (updLane n (fun x => { x with out := x.wait, wait := [] }) s))
    else startTx n s

/-- The frame suspended longest on lane n has not been resumed within 64 us (R152). -/
def suspendTimeout (n : Nat) (s : State) : State :=
  match (lane n s).rxSusp.getLast? with
  | some e => discardRx n e.1 (updLane n (fun x => { x with rxSusp := x.rxSusp.dropLast }) (advTo (e.2 + us 64) s))
  | none => s

/-- SUSPEND_TIMEOUT (R152). -/
def execSuspendTimeout (n : Nat) (s : State) : Host.Outcome State Fault Refusal := ok (suspendTimeout n s)

/-- The refusals of a write of value v to another lane object (R140, R165). -/
def lnkGuard (k v : Nat) (s : State) : Nat :=
  if k / 256 == 0x2020 && isCell s && v > 2 then stRange
  else if k == O.LNK_BACKOFF_MAX && v < rd O.LNK_BACKOFF_MIN s then stRange
  else 0

end Sys2Proof.Machine
end

