-- ==== Sys2Proof/Machine/Crypto.lean ====
section
/-! DEFINITION. SHA-256, HMAC (RFC 2104), HKDF (RFC 5869), ECDH and ECDSA on P-256, which the spec names by their standards (R368, R370, R377, R383; log entry 4). -/
namespace Sys2Proof.Machine

/-- The largest number below 2^n whose e-th power is at most v, bit by bit from above. -/
def rootOf (e v : Nat) : Nat → Nat → Nat
  | 0, r => r
  | n + 1, r => rootOf e v n (if (r + 2 ^ n) ^ e ≤ v then r + 2 ^ n else r)

/-- The first 32 bits of the fraction of the e-th root of p, as FIPS 180-4 draws its constants. -/
def rootBits (e p : Nat) : Nat := rootOf e (p * 2 ^ (32 * e)) 40 0 % 2 ^ 32

/-- The primes up to 311, by trial division. -/
def primes : List Nat := (List.range 312).filter fun n => 2 ≤ n && (List.range n).all fun d => d < 2 || n % d != 0

/-- Round constants of SHA-256: cube roots of the first 64 primes. -/
def shaK : List Nat := primes.map (rootBits 3)

/-- Initial hash value of SHA-256: square roots of the first 8 primes. -/
def shaH : List Nat := (primes.take 8).map (rootBits 2)

/-- Sum in 32 bits. -/
def add32 (a b : Nat) : Nat := (a + b) % 2 ^ 32

/-- Rotation of a 32-bit word to the right. -/
def rotr (n x : Nat) : Nat := x / 2 ^ n ||| x % 2 ^ n * 2 ^ (32 - n)

/-- Exclusive or of three words. -/
def xor3 (a b c : Nat) : Nat := Nat.xor (Nat.xor a b) c

/-- The message schedule, latest word first, extended n times. -/
def shaSchedule : Nat → List Nat → List Nat
  | 0, w => w
  | n + 1, w =>
    let a := w.getD 1 0
    let b := w.getD 14 0
    let s1 := xor3 (rotr 17 a) (rotr 19 a) (a / 2 ^ 10)
    let s0 := xor3 (rotr 7 b) (rotr 18 b) (b / 2 ^ 3)
    shaSchedule n (add32 (add32 s1 (w.getD 6 0)) (add32 s0 (w.getD 15 0)) :: w)

/-- One round on the eight working variables. -/
def shaRound (v : List Nat) (kw : Nat) : List Nat :=
  match v with
  | [a, b, c, d, e, f, g, h] =>
    let ch := Nat.xor (e &&& f) ((2 ^ 32 - 1 - e) &&& g)
    let maj := xor3 (a &&& b) (a &&& c) (b &&& c)
    let t1 := add32 (add32 h (xor3 (rotr 6 e) (rotr 11 e) (rotr 25 e))) (add32 ch kw)
    let t2 := add32 (xor3 (rotr 2 a) (rotr 13 a) (rotr 22 a)) maj
    [add32 t1 t2, a, b, c, add32 d t1, e, f, g]
  | _ => v

/-- One block of 16 words, first word first, into the hash value. -/
def shaBlock (h w : List Nat) : List Nat :=
  let sched := (shaSchedule 48 w.reverse).reverse
  let v := (List.zipWith add32 shaK sched).foldl shaRound h
  List.zipWith add32 h v

/-- The message with its padding: 0x80, zeros, the length in bits. -/
def shaPad (b : List Nat) : List Nat := b ++ [0x80] ++ List.replicate ((119 - b.length % 64) % 64) 0 ++ beBytes 8 (8 * b.length)

/-- SHA-256 of bytes, as a number of 256 bits. -/
@[irreducible] def sha256 (b : List Nat) : Nat :=
  let m := shaPad (b.map (· % 256))
  let word (i : Nat) (l : List Nat) : Nat := ofBe ((l.drop (4 * i)).take 4)
  let step (r : List Nat × List Nat) (_ : Nat) : List Nat × List Nat := (shaBlock r.1 ((List.range 16).map fun i => word i (r.2.take 64)), r.2.drop 64)
  let h := ((List.range (m.length / 64)).foldl step (shaH, m)).1
  h.foldl (fun a x => a * 2 ^ 32 + x) 0

/-- HMAC-SHA-256 of RFC 2104 under a key of bytes; a key longer than a block is its digest. -/
@[irreducible] def hmacBytes (key b : List Nat) : Nat :=
  let k := if 64 < key.length then beBytes 32 (sha256 key) else key
  let k := k ++ List.replicate (64 - k.length) 0
  sha256 (k.map (Nat.xor 0x5C) ++ beBytes 32 (sha256 (k.map (Nat.xor 0x36) ++ b)))

/-- HMAC-SHA-256 under a session key of 256 bits (R368). -/
def hmac (key : Nat) (b : List Nat) : Nat := hmacBytes (beBytes 32 key) b

/-- HKDF of RFC 5869 with SHA-256: 32 bytes from salt, input and info (R370). -/
def hkdf32 (salt input info : List Nat) : Nat := hmacBytes (beBytes 32 (hmacBytes salt input)) (info ++ [1])

/-- The prime of P-256. -/
def p256p : Nat := 2 ^ 256 - 2 ^ 224 + 2 ^ 192 + 2 ^ 96 - 1

/-- The coefficient b of P-256; a is -3. -/
def p256b : Nat := 0x5AC635D8AA3A93E7B3EBBD55769886BC651D06B0CC53B0F63BCE3C3E27D2604B

/-- The order of P-256. -/
def p256n : Nat := 0xFFFFFFFF00000000FFFFFFFFFFFFFFFFBCE6FAADA7179E84F3B9CAC2FC632551

/-- The base point of P-256. -/
def p256g : Nat × Nat × Nat :=
  (0x6B17D1F2E12C4247F8BCE6E563A440F277037D812DEB33A0F4A13945D898C296, 0x4FE342E2FE1A7F9B8EE7EB4A7C0F9E162BCE33576B315ECECBB6406837BF51F5, 1)

/-- A public key of 65 bytes 04, X, Y is a point of the curve. -/
def onCurve (v : Nat) : Bool :=
  let x := v / 2 ^ 256 % 2 ^ 256
  let y := v % 2 ^ 256
  v / 2 ^ 512 == 4 && x < p256p && y < p256p && y * y % p256p == (x * x * x + 3 * (p256p - x) + p256b) % p256p

/-- Power modulo m for exponents of 256 bits, the most significant bit first. -/
def powMod (m x e : Nat) : Nat := (List.range 256).foldr (fun i a => let b := a * a % m; if bit e i then b * x % m else b) 1

/-- Difference modulo the prime. -/
def subP (a b : Nat) : Nat := (a + (p256p - b % p256p)) % p256p

/-- Doubling in Jacobian coordinates; Z = 0 is the neutral point. -/
def ptDouble (q : Nat × Nat × Nat) : Nat × Nat × Nat :=
  let (x, y, z) := q
  let d := z * z % p256p
  let g := y * y % p256p
  let b := x * g % p256p
  let a := 3 * (subP x d * (x + d) % p256p) % p256p
  let x3 := subP (a * a) (8 * b)
  (x3, subP (a * subP (4 * b) x3) (8 * (g * g)), subP ((y + z) * (y + z)) (g + d))

/-- Sum in Jacobian coordinates. -/
def ptAdd (q r : Nat × Nat × Nat) : Nat × Nat × Nat :=
  let (x1, y1, z1) := q
  let (x2, y2, z2) := r
  if z1 == 0 then r
  else if z2 == 0 then q
  else
    let u1 := x1 * (z2 * z2) % p256p
    let u2 := x2 * (z1 * z1) % p256p
    let s1 := y1 * (z2 * z2 * z2) % p256p
    let s2 := y2 * (z1 * z1 * z1) % p256p
    if u1 == u2 then (if s1 == s2 then ptDouble q else (1, 1, 0))
    else
      let h := subP u2 u1
      let t := subP s2 s1
      let hh := h * h % p256p
      let v := u1 * hh % p256p
      let x3 := subP (t * t) (hh * h + 2 * v)
      (x3, subP (t * subP v x3) (s1 * (hh * h)), h * z1 * z2 % p256p)

/-- A multiple of a point. -/
def ptMul (k : Nat) (q : Nat × Nat × Nat) : Nat × Nat × Nat :=
  (List.range 256).foldr (fun i a => let b := ptDouble a; if bit k i then ptAdd b q else b) (1, 1, 0)

/-- Affine coordinates; 0, 0 for the neutral point. -/
def ptAffine (q : Nat × Nat × Nat) : Nat × Nat :=
  let w := powMod p256p q.2.2 (p256p - 2)
  (q.1 * (w * w % p256p) % p256p, q.2.1 * (w * w % p256p * w % p256p) % p256p)

/-- The point a public key of 65 bytes spells. -/
def ptOf (v : Nat) : Nat × Nat × Nat := (v / 2 ^ 256 % 2 ^ 256, v % 2 ^ 256, 1)

/-- A scalar from 1 to the order less 1 out of 256 bits. -/
def scalarOf (d : Nat) : Nat := d % (p256n - 1) + 1

/-- The public key of a secret, 65 bytes 04, X, Y. -/
@[irreducible] def publicKey (d : Nat) : Nat := let q := ptAffine (ptMul (scalarOf d) p256g); 4 * 2 ^ 512 + q.1 * 2 ^ 256 + q.2

/-- Z of R370: the X coordinate of the product of an own secret and another's public key. -/
@[irreducible] def ecdhX (d v : Nat) : Nat := (ptAffine (ptMul (scalarOf d) (ptOf v))).1

/-- ECDSA over SHA-256 of bytes with a secret and a nonce: r and s, 32 bytes each. -/
@[irreducible] def ecdsaSign (d k : Nat) (b : List Nat) : Nat :=
  let r := (ptAffine (ptMul (scalarOf k) p256g)).1 % p256n
  r * 2 ^ 256 + powMod p256n (scalarOf k) (p256n - 2) * ((sha256 b + r * scalarOf d) % p256n) % p256n

/-- ECDSA verification over SHA-256 of bytes: public key of 65 bytes, signature of 64. -/
@[irreducible] def ecdsaVerify (v : Nat) (b : List Nat) (sig : Nat) : Bool :=
  let r := sig / 2 ^ 256
  let s := sig % 2 ^ 256
  let w := powMod p256n s (p256n - 2)
  let q := ptAdd (ptMul (sha256 b * w % p256n) p256g) (ptMul (r * w % p256n) (ptOf v))
  onCurve v && 0 < r && r < p256n && 0 < s && s < p256n && q.2.2 != 0 && (ptAffine q).1 % p256n == r

/-- The private identity key that manufacture gives each part (R381). -/
def idSecret : Nat := low 256 (Config.made 1)

end Sys2Proof.Machine
end

