-- ==== Sys2Proof/Machine/OpsNvm.lean ====
section
/-! DEFINITION. The parameter store, image slots, keys and the attestation report (R372 to R383). -/
namespace Sys2Proof.Machine

/-- The unit's own state changed. -/
def updNvm (f : NvmSt → NvmSt) (s : State) : State := { s with nvm := f s.nvm }

/-- A bit of NVM_STATUS, and source 233 with it (R375). -/
def setNvmBit (b : Nat) (v : Bool) (s : State) : State :=
  let s := wrBit O.NVM_STATUS b v s
  setLive 233 (rd O.NVM_STATUS s != 0) 0 s

/-- Source 234 by the rate of failures and the tamper record (R371, R405). -/
def updSecurity (s : State) : State := setLive 234 (s.jop.authEnd.isSome || rdBit O.SEC_STATUS 2 s) 0 s

/-- SEC_STATUS [2] stands while the tamper count exceeds what has been acknowledged (R405). -/
def updTamper (s : State) : State := updSecurity (wrBit O.SEC_STATUS 2 (rd O.SYS_TAMPER_ACK s < rd O.SYS_TAMPER_COUNT s) s)

/-- The slot that runs. -/
def runSlot (s : State) : Nat := rd O.NVM_RUN_SLOT s

/-- The slot that does not run. -/
def otherSlot (s : State) : Nat := 1 - runSlot s

/-- Bytes of an image slot (Table 14.8). -/
def imageBytes : Nat := 3145728

/-- The digest of bytes as 32 bytes of a header field spell it. -/
def digestAt (i off : Nat) (s : State) : Nat := ofBe (slotBytes i off 32 s)

/-- The first check of R377 that slot i fails, 0 for none. The image of manufacture passes all but the last by R4. -/
def slotError (i : Nat) (s : State) : Nat :=
  let v := slotField i 16 4 s
  let a := slotField i 20 4 s
  let key := rd O.SEC_IMAGE_KEY s
  let rollback := if slotField i 12 4 s < rd O.SEC_SVN_MIN s then 6 else 0
  if s.nvm.factory.contains i then rollback
  else if slotField i 0 4 s != 0x55544449 || slotField i 4 4 s != 1 || slotField i 24 4 s != 0 || slotField i 252 260 s != 0 then 1
  else if 393216 < v || 1703936 < a || imageBytes < 512 + v + a then 2
  else if sha256 (slotBytes i 512 v s) != digestAt i 28 s
      || (if a == 0 then digestAt i 60 s != 0 else sha256 (slotBytes i (512 + v) a s) != digestAt i 60 s) then 3
  else if !ecdsaVerify (Config.made 0) (slotBytes i 0 92 s) (ofBe (slotBytes i 92 64 s)) then 4
  else if a != 0 && (key == 0 || sha256 (beBytes 65 key) != digestAt i 156 s
      || !ecdsaVerify key (slotBytes i 0 188 s) (ofBe (slotBytes i 188 64 s))) then 5
  else rollback

/-- VERIFY of slot i (R375, R377): its error and the state. -/
def verifySlot (i : Nat) (s : State) : Nat × State :=
  let e := slotError i s
  let s := wr (O.NVM_SLOT_ERROR i) e (wr (O.NVM_SLOT_STATUS i) (if e == 0 then 3 else 4) s)
  let known : Bool := e == 0 || 3 ≤ e
  let s := wr (O.NVM_SLOT_SVN i) (if known then slotField i 12 4 s else 0) (wr (O.NVM_SLOT_VERSION i) (if known then slotField i 8 4 s else 0) s)
  let s := if e == 6 then wrBit O.SEC_STATUS 1 true s else if e == 0 then wrBit O.SEC_STATUS 1 false s else s
  (e, if e == 0 then setNvmBit 4 false s else s)

/-- Empty a slot's bytes. -/
def eraseSlot (i : Nat) (s : State) : State :=
  let s := { s with mem := s.mem.filter fun c => c.1 < slotBase i || slotBase (i + 1) ≤ c.1 }
  updNvm (fun n => { n with factory := n.factory.filter (· != i) }) s

/-- The first write after a VERIFY or ACTIVATE erases the slot not running; a write after ACTIVATE withdraws the activation (R379). -/
def openSlot (s : State) : State :=
  if s.nvm.opened then s
  else
    let i := otherSlot s
    let s := eraseSlot i s
    let s := wr (O.NVM_SLOT_ERROR i) 0 (wr (O.NVM_SLOT_SVN i) 0 (wr (O.NVM_SLOT_VERSION i) 0 (wr (O.NVM_SLOT_STATUS i) 1 s)))
    let s := updNvm (fun n => { n with opened := true, eraseEnd := some (s.tick + ms 1000), held := [], eraseBad := false }) s
    if rd O.NVM_BOOT_SLOT s == i then wr O.NVM_TRIAL 0 (wr O.NVM_BOOT_SLOT (runSlot s) s) else s

/-- Bytes written to region 0xD010 (R379): they wait while the slot is being erased. -/
def slotWrite (off : Nat) (b : List Nat) (s : State) : State :=
  let s := openSlot s
  if s.nvm.eraseEnd.isSome then updNvm (fun n => { n with held := n.held ++ [(off, b)] }) s
  else stBytes (slotBase (otherSlot s) + off) b s

/-- A write of the slot is complete: UNVERIFIED. -/
def slotWritten (s : State) : State :=
  if rd (O.NVM_SLOT_STATUS (otherSlot s)) s == 1 then wr (O.NVM_SLOT_STATUS (otherSlot s)) 2 s else s

/-- The erase of the slot ends: what waited is written; a failed erase takes nothing (R379). -/
def eraseDone (good : Bool) (s : State) : State :=
  match s.nvm.eraseEnd with
  | none => s
  | some _ =>
    let h := s.nvm.held
    let s := updNvm (fun n => { n with eraseEnd := none, held := [], eraseBad := !good }) s
    if good then each h (fun e s => stBytes (slotBase (otherSlot s) + e.1) e.2 s) s else s

/-- Copy i of the store passes its CRC. -/
def copyGood (i : Nat) (s : State) : Bool := match s.nvm.copies.getD i none with | some c => c.good | none => false

/-- Generation of copy i, 0 for one that does not pass. -/
def copyGen (i : Nat) (s : State) : Nat := match s.nvm.copies.getD i none with | some c => if c.good then c.gen else 0 | none => 0

/-- The copy with the lower generation, which a store writes. -/
def olderCopy (s : State) : Nat := if copyGen 0 s ≤ copyGen 1 s then 0 else 1

/-- An object of Table 8.8, which the cell engine sets: those of sequencers 0 and 1, and the class of AIN0 to AIN3 (R244). -/
def cellSet (k : Nat) : Bool :=
  let i := k / 256
  i == 0x7200 || i == 0x7201 || i == 0x7300 || i == 0x7301 || (i == 0x7120 && k % 256 ≤ 4)

/-- An object of the parameter store that exists here and that no engine of the role sets. -/
def storable (p : Straps) (k : Nat) : Bool :=
  match objRow? k with
  | some r => r.acc == .rws && (p.node || !cellSet k) && (match r.place with | .node => p.node | .cell => !p.node | .all => true | _ => p.node && p.hosten)
  | none => false

/-- The snapshot of a store (R374). -/
def snapshot (s : State) : StoreCopy :=
  { gen := max (copyGen 0 s) (copyGen 1 s) + 1, good := true, straps := s.straps, vals := s.objs.filter fun e => storable s.straps e.1 }

/-- The store ends (R374). -/
def storeDone (good : Bool) (s : State) : State :=
  match s.nvm.busy with
  | none => s
  | some (c, _) =>
    let i := olderCopy s
    let s := wr O.NVM_STORE_STATE 0 (updNvm (fun n => { n with busy := none, copies := n.copies.set i (some { c with good := good }) }) s)
    if good then
      let s := updNvm (fun n => { n with made := true, loaded := some c }) s
      setNvmBit 2 false (setNvmBit 1 false (setNvmBit 0 false (wr O.NVM_STORE_GEN c.gen (bump O.NVM_STORE_COUNT s))))
    else setNvmBit 0 true s

/-- The keys whose default the straps change. -/
def strapKeys : List Nat := (List.range 240).map (fun n => O.TSK_AFFINITY (n + 16)) ++ (cellAdc.map (·.1)) ++ (List.range 68).map fun n => O.LNK_ENABLE n

/-- Every row of the object tables. -/
def objRows : List ObjRow :=
  ((List.range 15).filter (· != 5)).flatMap (fun a => objRowsOf (a * 4096)) ++ (List.range 16).flatMap fun b => objRowsOf (0x5000 + b * 256)

/-- Entries of a copy that the present straps let no object take: how many a change of role leaves out (R375). -/
def roleSkipped (p q : Straps) : Nat :=
  sumL ((objRows.filter fun r => storable p (r.i0 * 256 + r.s0) && !storable q (r.i0 * 256 + r.s0)).map fun r => (r.i1 + 1 - r.i0) * (r.s1 + 1 - r.s0))

/-- One stored value taken, or skipped and counted (R375). -/
def loadOne (e : Nat × Nat) (s : State) : State :=
  match objRow? e.1 with
  | some r =>
    let aff : Bool := 0xA106 ≤ e.1 / 256 && e.1 / 256 ≤ 0xA107
    if r.inRange e.2 && !(aff && isCell s && e.2 != 1) then wr e.1 e.2 s else bump O.NVM_LOAD_SKIPPED s
  | none => s

/-- The copy in force loaded: every RWS object takes its stored value (R9, R375). -/
def loadStore (s : State) : State :=
  let bad (i : Nat) : Bool := match s.nvm.copies.getD i none with | some c => !c.good | none => false
  let any : Bool := copyGood 0 s || copyGood 1 s
  let s := if any && (bad 0 || bad 1) then setNvmBit 1 true s else s
  let s := if !any && s.nvm.made then setNvmBit 2 true s else s
  let i := 1 - olderCopy s
  match s.nvm.copies.getD i none with
  | none => updNvm (fun n => { n with loaded := none }) s
  | some c =>
    if !c.good then updNvm (fun n => { n with loaded := none }) s
    else
      let s := wr O.NVM_STORE_GEN c.gen (updNvm (fun n => { n with loaded := some c }) s)
      let s := bumpN (roleSkipped c.straps s.straps) O.NVM_LOAD_SKIPPED s
      let other := (strapKeys.filter fun k => storable c.straps k && objDefault c.straps k != objDefault s.straps k && (c.vals.find? fun e => e.1 == k).isNone).map
        fun k => (k, objDefault c.straps k)
      each ((c.vals ++ other).filter fun e => storable s.straps e.1) loadOne s

/-- NVM_CMD v is refused in the present state (R374, R379, R380): STATE or BUSY. -/
def nvmGuard (v : Nat) (s : State) : Nat :=
  match v with
  | 1 | 2 => if s.nvm.busy.isSome then stBusy else stOk
  | 3 => if s.nvm.eraseEnd.isSome then stBusy else stOk
  | 4 => stIf (rd (O.NVM_SLOT_STATUS (otherSlot s)) s != 3)
  | 5 => stIf (rd O.NVM_TRIAL s == 0 || rd O.NVM_BOOT_SLOT s != runSlot s)
  | 6 =>
    if !isNode s || s.tree.pistes.isEmpty then stState
    else if rd (O.NVM_SLOT_STATUS (rd O.NVM_DIST_SLOT s)) s != 3 then stState
    else if rd O.NVM_DIST_STATE s == 1 || rd O.NVM_DIST_STATE s == 2 then stBusy else stOk
  | _ => stOk

/-- STORE (R374). -/
def nvmStore (s : State) : State := wr O.NVM_STORE_STATE 1 (updNvm (fun n => { n with busy := some (snapshot s, s.tick + ms 400) }) s)

/-- RESTORE_DEFAULTS (R375). -/
def nvmDefaults (s : State) : State := updNvm (fun n => { n with copies := [none, none], made := false }) s

/-- VERIFY of the slot that does not run; a later write erases it first (R377, R379). -/
def nvmVerify (s : State) : State := updNvm (fun n => { n with opened := false }) (verifySlot (otherSlot s) s).2

/-- ACTIVATE (R379). -/
def nvmActivate (s : State) : State :=
  wr O.NVM_TRIAL 1 (wr O.NVM_BOOT_SLOT (otherSlot s) (updNvm (fun n => { n with opened := false, trialBooted := false }) s))

/-- COMMIT in the trial image (R379). -/
def nvmCommit (s : State) : State := wr O.SEC_SVN_MIN (max (rd O.SEC_SVN_MIN s) (slotField (runSlot s) 12 4 s)) (wr O.NVM_TRIAL 0 s)

/-- OWNED while any host key is installed (R372). -/
def updOwner (s : State) : State := wr O.SEC_OWNER_STATE (b2n ((List.range 8).any fun i => rd (O.SEC_HOST_KEY i) s != 0)) s

/-- A host key written to the key area (R372, R373). -/
def putHostKey (i key rights : Nat) (s : State) : State := updOwner (wr (O.SEC_HOST_RIGHTS i) rights (wr (O.SEC_HOST_KEY i) key s))

/-- SEC_CMD is refused in the present state (R373, R7): nothing staged, a slot beyond 7, or the last key that holds KEYS. -/
def secGuard (v : Nat) (s : State) : Nat :=
  let i := v / 256
  let keys := (List.range 8).filter fun j => rdBit (O.SEC_HOST_RIGHTS j) 5 s
  if v % 256 == 0 || 4 < v % 256 || ((v % 256 == 1 || v % 256 == 2) && 7 < i) then stRange
  else match v % 256 with
  | 1 => stIf (rd O.SEC_KEY_STAGE s == 0 || rd O.SEC_RIGHTS_STAGE s == 0)
  | 2 => stIf (keys == [i])
  | 3 => stIf (rd O.SEC_KEY_STAGE s == 0)
  | _ => stOk

/-- What SEC_CMD does (R372, R373). -/
def secEffect (v : Nat) (s : State) : State :=
  match v % 256 with
  | 1 => putHostKey (v / 256) (rd O.SEC_KEY_STAGE s) (rd O.SEC_RIGHTS_STAGE s) s
  | 2 => putHostKey (v / 256) 0 0 s
  | 3 => wr O.SEC_IMAGE_KEY (rd O.SEC_KEY_STAGE s) s
  | _ => wr O.SEC_IMAGE_KEY 0 (each (List.range 8) (fun i s => putHostKey i 0 0 s) s)

/-- A write of SEC_CMD; right: over JOP with KEYS (R373). -/
def writeSecCmd (right : Bool) (v : Nat) (s : State) : Res :=
  writeBy O.SEC_CMD v (if !right then stRights else secGuard v s) (fun s => done (secEffect v s)) s

/-- The bytes of a loaded store copy: generation, then index, sub-index, value of each entry; the layout is the model's (log entry 46). -/
def StoreCopy.bytes (c : StoreCopy) : List Nat := leBytes 4 c.gen ++ c.vals.flatMap fun e => leBytes 4 e.1 ++ leBytes 8 e.2

/-- Bytes 0 to 447 of the attestation report (Table 14.15). -/
def reportBody (nonce : List Nat) (s : State) : List Nat :=
  let hash (i : Nat) : List Nat := if rd (O.NVM_SLOT_STATUS i) s == 0 then rsv 32 else beBytes 32 (sha256 (slotBytes i 0 512 s))
  let ph : List Nat := match s.nvm.loaded with | some c => beBytes 32 (sha256 c.bytes) | none => rsv 32
  let r := runSlot s
  padTo 448 0 (beBytes 4 0x41545431 ++ beBytes 8 (Config.made O.SYS_SERIAL) ++ [rd O.TREE_ROLE s, low 8 (nodeNum s), r, rd O.NVM_BOOT_CAUSE s]
    ++ beBytes 4 (Config.made O.SYS_ROM_VERSION) ++ beBytes 4 (slotField r 8 4 s) ++ beBytes 4 (slotField r 12 4 s) ++ beBytes 4 (rd O.SEC_SVN_MIN s)
    ++ hash 0 ++ hash 1 ++ ph ++ beBytes 4 (rd O.SAF_CHECK_STORED s) ++ padTo 32 0 nonce ++ ts96 (vtFrac s)
    ++ ((List.range 16).map fun c => rd (O.SYS_SPARES c) s) ++ beBytes 4 (rd O.SYS_LEDGER_ENTRIES s) ++ beBytes 4 (rd O.SYS_TAMPER_COUNT s)
    ++ [rd O.SEC_OWNER_STATE s, rd O.NVM_STATUS s] ++ beBytes 2 (rd O.KET_LATCHED_N s))

/-- An attestation report of 512 bytes, and SEC_ATTEST_COUNT with it (R383); the nonce of its signature is a free value (log entry 3). -/
def attest (nonce : List Nat) (s : State) : List Nat × State :=
  let b := reportBody nonce s
  let k := takeFree 256 s
  (b ++ beBytes 64 (ecdsaSign idSecret k.1 b), bump O.SEC_ATTEST_COUNT k.2)

end Sys2Proof.Machine
end

