-- ==== Sys2Proof/Machine/OpsJop.lean ====
section
/-! DEFINITION. Host datagrams, sessions, replies and failure rates as shared operations (R367 to R371). -/
namespace Sys2Proof.Machine

/-- The unit's own state changed. -/
def updJop (f : JopSt → JopSt) (s : State) : State := { s with jop := f s.jop }

/-- Bytes 0 to 31 + BODY_LEN of a datagram (Table 14.9). -/
def dgramBytes (auth : Bool) (session seq op status echo : Nat) (body : List Nat) : List Nat :=
  beBytes 2 0x4A50 ++ [1, b2n auth] ++ beBytes 4 session ++ beBytes 8 seq ++ [op, status] ++ beBytes 2 body.length ++ beBytes 8 echo ++ rsv 4 ++ body

/-- A reply in the clear to a host; R371 counts SEQ within sessions only, so a clear reply's own SEQ is free (log entry 3). -/
def clearReply (port addr op status echo : Nat) (body : List Nat) (s : State) : State :=
  let f := takeFree 64 s
  updJop (fun j => { j with out := some (.jop { port := port, addr := addr, auth := false, session := 0, seq := f.1, op := op, status := status,
                                                echo := echo, body := body, tag := 0 }) }) f.2

/-- Session id. -/
def session? (id : Nat) (s : State) : Option Session := s.jop.sessions.find? fun x => x.id == id

/-- Session id changed. -/
def updSession (id : Nat) (f : Session → Session) (s : State) : State :=
  updJop (fun j => { j with sessions := j.sessions.map fun x => if x.id == id then f x else x }) s

/-- SYS_SESSIONS shows the open sessions. -/
def showSessions (s : State) : State := wr O.SYS_SESSIONS s.jop.sessions.length s

/-- A session closes (R371). -/
def closeSession (id : Nat) (s : State) : State := showSessions (updJop (fun j => { j with sessions := j.sessions.filter fun x => x.id != id }) s)

/-- An authenticated reply to request seq of a session, kept among its latest 16; the session closes where its own SEQ runs out (R370, R371). -/
def jopReply (id seq op status : Nat) (body : List Nat) (s : State) : State :=
  match session? id s with
  | none => s
  | some x =>
    match x.waiting.find? fun w => w.seq == seq with
    | none => s
    | some w =>
      let n := x.sent + 1
      if n ≥ 2 ^ 64 then closeSession id s
      else
        let r : Reply := { port := w.port, addr := w.addr, auth := true, session := id, seq := n, op := op, status := status, echo := seq, body := body,
                           tag := hmac x.keyDh (dgramBytes true id n op status seq body) }
        let s := updSession id (fun y => { y with sent := n, replies := ((seq, r) :: y.replies).filter fun e => y.latest.contains e.1, waiting := y.waiting.filter fun w => w.seq != seq }) s
        updJop (fun j => { j with out := some (.jop r) }) s

/-- A verification or TAG failure: counted, and more than SEC_AUTH_LIMIT within a second set SEC_STATUS [0] (R371). -/
def authFailure (s : State) : State :=
  let s := bump O.SYS_JOP_AUTH_FAIL s
  let l := s.tick :: s.jop.fails.filter fun t => s.tick < t + ms 1000
  let s := updJop (fun j => { j with fails := l.take 10001 }) s
  if l.length ≤ rd O.SEC_AUTH_LIMIT s then s
  else updSecurity (wrBit O.SEC_STATUS 0 true (updJop (fun j => { j with authEnd := some (s.tick + ms 10000) }) s))

/-- Right b of Table 14.11 in a rights byte. -/
def hasRight (rights b : Nat) : Bool := bit rights b

/-- The data of completed sub-indices as a READ reply carries them (Table 14.10). -/
def readBody (count : Nat) (data : List Nat) : List Nat := [count, 0] ++ beBytes 2 data.length ++ data

/-- The body of a reply to a forwarded request of op (Table 14.10). -/
def fwdBody (op count : Nat) (data : List Nat) : List Nat :=
  match op with
  | 0x10 => readBody count data
  | 0x11 => [count]
  | _ => data

end Sys2Proof.Machine
end

