-- ==== Sys2Proof/Machine/OpsRem.lean ====
section
/-! DEFINITION. Requests to other devices, their retries and outcomes, responses, and bulk transfers as shared operations (R357 to R366, R380). -/
namespace Sys2Proof.Machine

/-- The unit's own state changed. -/
def updRem (f : RemSt → RemSt) (s : State) : State := { s with rem := f s.rem }

/-- Send an object message to a node or cell (R357). -/
def sendObj (typ node : Nat) (side : Bool) (cell : Option Nat) (m : ObjMsg) (s : State) : State :=
  match cell with
  | some i => sendToCell 5 typ node i (.obj m) s
  | none => sendToNode 5 typ node side (.obj m) s

/-- A fresh request of a message, recorded as outstanding (R358). -/
def request (b : ReqBy) (node : Nat) (side : Bool) (cell : Option Nat) (m : ObjMsg) (wait left : Nat) (s : State) : State :=
  let m := { m with reqId := s.rem.nextId }
  let r : RemReq := { by_ := b, node := node, side := side, cell := cell, msg := m, sentAt := s.tick, wait := wait, left := left }
  sendObj 0 node side cell m (updRem (fun x => { x with nextId := (x.nextId + 1) % 65536, reqs := x.reqs ++ [r] }) s)

/-- TREE_REM_TIMEOUT in ticks. -/
def remWait (s : State) : Nat := us (rd O.TREE_REM_TIMEOUT s)

/-- Fields of a TARGET (R369): side B, a cell, node number, cell index. -/
def tgtSideB (t : Nat) : Bool := bit t 31
/-- [30]. -/
def tgtCell (t : Nat) : Option Nat := if bit t 30 then some (fld t 9 0) else none
/-- [29:24]. -/
def tgtNode (t : Nat) : Nat := fld t 29 24

/-- The target is this device. -/
def tgtHere (t : Nat) (s : State) : Bool :=
  isNode s && tgtNode t == nodeNum s && (tgtCell t).isNone && tgtSideB t == sideB s

/-- Send a request toward a TARGET: through the duplicate apex where it lies in the other system (R357, R361). -/
def requestTo (b : ReqBy) (t : Nat) (m : ObjMsg) (s : State) : State :=
  if tgtSideB t != sideB s && isApex s then
    request b 0 (!sideB s) none { m with proxy := true, tgt := t } ((rd O.TREE_REM_RETRIES s + 2) * remWait s) 0 s
  else request b (tgtNode t) (tgtSideB t) (tgtCell t) m (remWait s) (rd O.TREE_REM_RETRIES s) s

/-- The lane toward the originator of a frame. -/
def backLane (h : Hdr) (s : State) : Nat := laneTo (h.src / 1024) h.srcSide s

/-- The response to a request, kept for 100 ms among the latest 32 (R359). -/
def respond (h : Hdr) (m : ObjMsg) (status count : Nat) (data : List Nat) (s : State) : State :=
  let r : ObjMsg := { m with status := status, count := count, data := data, tryN := 0, proxy := false, commission := false, tgt := 0 }
  let e : RespEntry := { src := h.src, srcSide := h.srcSide, srcNode := h.srcNode, resp := r, at_ := s.tick }
  let s := updRem (fun x => { x with cache := (e :: x.cache.filter fun c => !(c.src == e.src && c.srcSide == e.srcSide && c.srcNode == e.srcNode && c.resp.reqId == r.reqId)).take 32 }) s
  sendFrame 5 1 false h.src h.srcSide h.srcNode false (.obj r) [backLane h s] s

/-- The cached response of a request, while it is kept. -/
def cached (h : Hdr) (m : ObjMsg) (s : State) : Option ObjMsg :=
  (s.rem.cache.find? fun c => c.src == h.src && c.srcSide == h.srcSide && c.srcNode == h.srcNode && c.resp.reqId == m.reqId && decide (s.tick ≤ c.at_ + ms 100)).map (·.resp)

/-- The outcome of a request reaches whom it serves (R358, R361, R363, R369). -/
def reqDone (r : RemReq) (status count : Nat) (data : List Nat) (s : State) : State :=
  match r.by_ with
  | .core =>
    let s := wr O.TREE_REM_RESULT status (wr O.TREE_REM_STATE 2 s)
    if r.msg.op == 1 && status == 0 then wr O.TREE_REM_LEN (min 32 data.length) (wr O.TREE_REM_DATA (ofBe (padTo 32 0 data)) s) else s
  | .jop id seq op => jopReply id seq op status (fwdBody op count data) s
  | .proxy h m => respond h m status count data s

/-- No response within the wait: a retry, or UNREACHABLE after the last (R358, R361). -/
def remTimeout (id : Nat) (s : State) : State :=
  match s.rem.reqs.find? fun r => r.msg.reqId == id with
  | none => s
  | some r =>
    let s := advTo (r.sentAt + r.wait) s
    if r.left > 0 then
      let m := { r.msg with tryN := r.msg.tryN + 1 }
      let s := updRem (fun x => { x with reqs := x.reqs.map fun y => if y.msg.reqId == id then { y with msg := m, sentAt := s.tick, left := y.left - 1 } else y }) s
      bump O.TREE_REM_RETRIED (sendObj 0 r.node r.side r.cell m s)
    else
      let s := updRem (fun x => { x with reqs := x.reqs.filter fun y => y.msg.reqId != id }) s
      reqDone r stUnreachable 0 [] (bump O.TREE_REM_FAILED s)

/-- A response with the number of an outstanding request (R358). -/
def respRx (m : ObjMsg) (s : State) : State :=
  match s.rem.reqs.find? fun r => r.msg.reqId == m.reqId with
  | none => s
  | some r => reqDone r m.status m.count m.data (updRem (fun x => { x with reqs := x.reqs.filter fun y => y.msg.reqId != m.reqId }) s)

/-- The request a core has set up (R363). -/
def coreRequest (op : Nat) (s : State) : State :=
  let t := rd O.TREE_REM_TARGET s
  let o := rd O.TREE_REM_OBJECT s
  let n := rd O.TREE_REM_LEN s
  let m : ObjMsg := { reqId := 0, op := op, status := 0, index := fld o 31 16, sub := fld o 15 8, count := 1, tryN := 0, proxy := false, commission := false,
                      tgt := 0, data := if op == 2 then (beBytes 32 (rd O.TREE_REM_DATA s)).take n else [] }
  requestTo .core t m (wr O.TREE_REM_STATE 1 s)

/-- A write of TREE_REM_CMD (R363). -/
def writeRemCmd (v : Nat) (s : State) : Res := writeBy O.TREE_REM_CMD v (stIf (rd O.TREE_REM_STATE s == 1)) (fun s => done (coreRequest v s)) s

/-! The bulk regions (Table 14.8). -/

/-- Bytes of a ledger entry, least significant first (Table 15.4, log entry 47). -/
def LedgerEntry.bytes (e : LedgerEntry) : List Nat :=
  let b := leBytes 4 e.eseq ++ leBytes 4 e.cycle ++ leBytes 8 e.counter ++ [e.cls, e.kind, e.phase, e.cause] ++ leBytes 2 e.phys ++ leBytes 2 e.logical ++ leBytes 4 e.detail
  b ++ leBytes 4 (crc32c b)

/-- What a map says, as a list of numbers. -/
def MapBlock.said (b : MapBlock) : List Nat :=
  let pairs (l : List (Nat × Nat)) : List Nat := l.length :: l.flatMap fun e => [e.1, e.2]
  b.maps.flatMap (fun m => [m.cls, m.map.length, m.spares.length] ++ m.map.map (fun p => p.getD 0xFFFF) ++ m.spares)
    ++ pairs b.dead ++ pairs b.rows ++ pairs b.cols ++ [b.cores, b.spareCore, b.slices, b.sliceOut]

/-- Map block i of the ledger (R399): generation, 4088 bytes of map whose coding the spec leaves open, CRC-32C; a block that is not valid reads as free constants (log entry 47). -/
def mapBlock (i : Nat) (s : State) : List Nat :=
  match s.sys.blocks.getD i none with
  | none => (List.range 4096).map fun j => Config.made (2 ^ 42 + i * 4096 + j) % 256
  | some b =>
    let x := leBytes 4 b.gen ++ (List.range 4088).map fun j => Config.mapByte b.said j % 256
    x ++ leBytes 4 (crc32c x)

/-- Byte of the ledger region. -/
def ledgerByte (off : Nat) (s : State) : Nat :=
  if off < 8192 then nth (mapBlock (off / 4096) s) (off % 4096) 0
  else match s.sys.ledger.getD ((off - 8192) / 32) ⟨0, 0, 0, 0, 0, 0, 0, 0, 0, 0⟩ with
  | e => if (off - 8192) / 32 < s.sys.ledger.length then nth e.bytes ((off - 8192) % 32) 0 else 0

/-- Length of the certificate (R382). -/
def certLen : Nat := min 1024 (Config.made (2 ^ 41))

/-- Size of a readable region and its status: NO_OBJECT, BLOCK_OFF, ACCESS or STATE where it cannot be read (R366). -/
def regionRead (r : Nat) (s : State) : Nat × Nat :=
  if r == 0x5000 then (2097152, if isNode s then stOk else stBlockOff)
  else if 0x8000 ≤ r && r ≤ 0x803F then
    (rd O.ACQ_SLOT_BYTES s,
     if !isNode s then stBlockOff
     else stIf (rd O.ACQ_SLOTS s ≤ r - 0x8000 || !(if rd O.ACQ_MEM s == 0 then captureUp s else ddrUp s)))
  else if r == 0xD001 then (certLen, stOk)
  else if r == 0xD002 then (262144, stOk)
  else if r == 0xD010 then (imageBytes, stAccess)
  else if r == 0xD011 || r == 0xD012 then (imageBytes, stOk)
  else (0, stNoObject)

/-- Byte of a region. -/
def regionByte (r off : Nat) (s : State) : Nat :=
  if r == 0x5000 then ldByte (0x48000000 + off) s
  else if r < 0xD000 then ldByte ((if rd O.ACQ_MEM s == 0 then 0x50000000 else ddrBase) + (r - 0x8000) * rd O.ACQ_SLOT_BYTES s + off) s
  else if r == 0xD001 then Config.made (2 ^ 40 + off) % 256
  else if r == 0xD002 then ledgerByte off s
  else slotByte (r - 0xD011) off s

/-- n bytes of a region. -/
def regionBytes (r off n : Nat) (s : State) : List Nat := (List.range n).map fun i => regionByte r (off + i) s

/-- What ROM service mode lets be read (R391): objects of two areas and three regions. -/
def romReads (r : Nat) : Bool := r == 0xD002 || r == 0xD011 || r == 0xD012

/-- The status of a read of a range of a region. -/
def readStatus (r off len : Nat) (s : State) : Nat :=
  if rd O.SYS_RECOVERY s != 0 && !romReads r then stState
  else
    let x := regionRead r s
    if x.2 == stNoObject || x.2 == stBlockOff || x.2 == stAccess then x.2 else if x.1 < off + len then stLength else x.2

/-- The status of a write of a range of a region: 0xD010 alone is written. -/
def writeStatus (r off len : Nat) (s : State) : Nat :=
  if rd O.SYS_RECOVERY s != 0 && !(rd O.SYS_RECOVERY s == 1 && r == 0xD010) then stState
  else if r == 0xD010 then (if imageBytes < off + len then stLength else if s.nvm.eraseBad then stNvm else stOk)
  else
    let x := regionRead r s
    if x.2 == stNoObject || x.2 == stBlockOff then x.2 else stAccess

/-- A range added to disjoint rising ranges of offset and length. -/
def addRange (o n : Nat) : List (Nat × Nat) → List (Nat × Nat)
  | [] => [(o, n)]
  | (a, m) :: t =>
    if o + n < a then (o, n) :: (a, m) :: t
    else if a + m < o then (a, m) :: addRange o n t
    else let lo := min o a; addRange lo (max (o + n) (a + m) - lo) t

/-- What a range lacks, given disjoint rising ranges received. -/
def missing (o n : Nat) : List (Nat × Nat) → List (Nat × Nat)
  | [] => if n == 0 then [] else [(o, n)]
  | (a, m) :: t =>
    if n == 0 then []
    else if a + m ≤ o then missing o n t
    else if o + n ≤ a then [(o, n)]
    else (if o < a then [(o, a - o)] else []) ++ missing (max o (a + m)) (o + n - max o (a + m)) t

/-- A bulk frame of a transfer sent. -/
def bulkSend (typ : Nat) (x : OutXfer) (status off len : Nat) (data : List Nat) (s : State) : State :=
  sendFrame 6 typ false x.dst x.side x.dstNode x.bcast
    (.bulk { typ := typ, xfer := x.id, status := status, region := x.region, offset := off, len := len, ranges := [], data := data }) [x.lane] s

/-- The bytes a transfer sends from an offset. -/
def OutXfer.bytes (x : OutXfer) (off n : Nat) (s : State) : List Nat :=
  match x.why with
  | .answer => regionBytes x.region off n s
  | .write _ _ => (x.data.drop (off - x.offset)).take n
  | .dist _ => regionBytes (0xD011 + rd O.NVM_DIST_SLOT s) off n s

/-- A lane has room for a bulk frame of data bytes. -/
def bulkRoom (x : OutXfer) (n : Nat) (s : State) : Bool :=
  inL5 x.lane s && queueRoom x.lane 6 (max 64 (8 * ceilDiv (44 + n) 8)) false s

/-- The same transfer. -/
def OutXfer.same (x y : OutXfer) : Bool := x.id == y.id && x.dst == y.dst && x.side == y.side && x.lane == y.lane

/-- A transfer replaced. -/
def setOut (x : OutXfer) (s : State) : State := updRem (fun r => { r with outs := r.outs.map fun y => if y.same x then x else y }) s

/-- The data of the next frame of a range of n bytes: 980 at most, and no remainder below 8 (Table 14.7). -/
def pieceLen (n : Nat) : Nat := if n ≤ 980 then n else if n < 988 then n - 8 else 980

/-- Frames of one transfer as its lane's queue takes them, then END; an answer is over with its END (R365). -/
def pumpOne : Nat → OutXfer → State → State
  | 0, x, s => setOut x s
  | f + 1, x, s =>
    match x.todo with
    | (o, n) :: t =>
      let k := pieceLen n
      if !bulkRoom x k s then setOut x s
      else
        let s := bulkSend 1 x 0 o k (x.bytes o k s) s
        pumpOne f { x with todo := if n ≤ k then t else (o + k, n - k) :: t } s
    | [] =>
      if x.ended || !bulkRoom x 0 s then setOut x s
      else
        let s := bulkSend 3 x x.status x.offset x.len [] s
        match x.why with
        | .answer => updRem (fun r => { r with outs := r.outs.filter fun y => !y.same x }) s
        | _ => setOut { x with ended := true } s

/-- Every transfer goes on as far as its queue lets it. -/
def pump (s : State) : State := each s.rem.outs (fun x s => pumpOne 40 x s) s

/-- A transfer begins. -/
def startOut (x : OutXfer) (s : State) : State := pump (updRem (fun r => { r with outs := r.outs ++ [x] }) s)

/-- Transfers served (R365). -/
def serving (s : State) : Nat := (s.rem.outs.filter fun x => x.why == .answer).length + (s.rem.ins.filter fun x => x.read.isNone).length

/-- The holder takes READ_REQ (R365, R366). -/
def readReqRx (h : Hdr) (b : Bulk) (s : State) : State :=
  let st := if serving s ≥ 4 then stBusy else if 65536 < b.len then stLength else readStatus b.region b.offset b.len s
  startOut { id := b.xfer, dst := h.src, side := h.srcSide, dstNode := h.srcNode, bcast := false, lane := backLane h s, region := b.region,
             todo := if st == stOk && 0 < b.len then [(b.offset, b.len)] else [], offset := b.offset, len := b.len, ended := false, status := st, round := 0,
             why := .answer, data := [] } s

/-- ACK to the writer (R365). -/
def sendAck (h : Hdr) (b : Bulk) (status : Nat) (ranges : List (Nat × Nat)) (s : State) : State :=
  sendFrame 6 2 false h.src h.srcSide h.srcNode false
    (.bulk { typ := 2, xfer := b.xfer, status := status, region := b.region, offset := b.offset, len := b.len, ranges := ranges, data := [] }) [backLane h s] s

/-- The transfer of this key. -/
def InXfer.is (x : InXfer) (h : Hdr) (b : Bulk) : Bool := x.src == h.src && x.srcSide == h.srcSide && x.srcNode == h.srcNode && x.id == b.xfer

/-- A received transfer changed. -/
def updIn (h : Hdr) (b : Bulk) (f : InXfer → InXfer) (s : State) : State :=
  updRem (fun r => { r with ins := r.ins.map fun x => if x.is h b then f x else x }) s

/-- A received transfer forgotten. -/
def dropIn (h : Hdr) (b : Bulk) (s : State) : State := updRem (fun r => { r with ins := r.ins.filter fun x => !x.is h b }) s

/-- DATA (R365): of an own read, kept; of a write, stored in the slot that does not run. -/
def bulkDataRx (h : Hdr) (b : Bulk) (s : State) : State :=
  let d := b.data.take b.len
  match s.rem.ins.find? fun x => x.is h b with
  | some x =>
    if x.read.isSome then updIn h b (fun y => { y with got := addRange b.offset d.length y.got, data := (b.offset, d) :: y.data }) s
    else if writeStatus b.region b.offset d.length s != stOk then s
    else slotWrite b.offset d (updIn h b (fun y => { y with got := addRange b.offset d.length y.got }) s)
  | none =>
    let st := writeStatus b.region b.offset d.length s
    if st != stOk then sendAck h b st [] s
    else if serving s ≥ 4 then sendAck h b stBusy [] s
    else
      let x : InXfer := { src := h.src, srcSide := h.srcSide, srcNode := h.srcNode, id := b.xfer, region := b.region, got := [(b.offset, d.length)],
                          read := none, offset := 0, len := 0, data := [], round := 0 }
      slotWrite b.offset d (updRem (fun r => { r with ins := r.ins ++ [x] }) s)

/-- The bytes of a range from pieces received. -/
def assemble (off n : Nat) (l : List (Nat × List Nat)) : List Nat :=
  (List.range n).map fun i =>
    match l.find? fun e => e.1 ≤ off + i && off + i < e.1 + e.2.length with
    | some e => nth e.2 (off + i - e.1) 0
    | none => 0

/-- READ_REQ of an own read (R365). -/
def sendReadReq (x : InXfer) (off len : Nat) (s : State) : State :=
  let l := if x.srcNode then laneTo (x.src / 1024) x.srcSide s else if x.src / 1024 == nodeNum s then fld x.src 9 4 else routeNode (x.src / 1024) (sideB s) s
  sendFrame 6 0 false x.src x.srcSide x.srcNode false
    (.bulk { typ := 0, xfer := x.id, status := 0, region := x.region, offset := off, len := len, ranges := [], data := [] }) [l] s

/-- END (R365): of an own read, its outcome or a request for what lacks; of a write, ACK with what lacks, and after a broadcast the result of VERIFY (R380). -/
def bulkEndRx (h : Hdr) (b : Bulk) (s : State) : State :=
  match s.rem.ins.find? fun x => x.is h b with
  | some x =>
    match x.read with
    | some (id, seq) =>
      let lack := missing x.offset x.len x.got
      if b.status != 0 then jopReply id seq 0x30 b.status [] (dropIn h b s)
      else match lack with
      | [] => jopReply id seq 0x30 stOk (beBytes 4 x.len ++ assemble x.offset x.len x.data) (dropIn h b s)
      | r :: _ => sendReadReq x r.1 r.2 s
    | none =>
      let lack := missing b.offset b.len x.got
      if s.nvm.eraseBad then sendAck h b stNvm [] (dropIn h b s)
      else if !lack.isEmpty then sendAck h b stOk (lack.take 16) s
      else
        let s := slotWritten (dropIn h b s)
        if h.bcast then
          let r := verifySlot (otherSlot s) s
          sendAck h b (if r.1 == 0 then stOk else stAuth) [] (updNvm (fun n => { n with opened := false }) r.2)
        else sendAck h b stOk [] s
  | none =>
    let st := writeStatus b.region b.offset b.len s
    if st != stOk then sendAck h b st [] s else sendAck h b stOk [(b.offset, b.len)] s

/-- The pistes a distribution still serves. -/
def updDist (link : Nat) (f : DistPiste → DistPiste) (s : State) : State :=
  updNvm (fun n => { n with dist := n.dist.map fun d => if d.link == link then f d else d }) s

/-- What a distribution shows (R380, Table 14.19). -/
def showDist (s : State) : State :=
  let d := s.nvm.dist
  let okN := sumL (d.map fun x => x.valid.length)
  let total := rd O.NVM_DIST_CELLS s
  let allEnded := d.all (·.ended)
  let s := wr O.NVM_DIST_OK okN s
  let s := wr O.NVM_DIST_FAILED (sumL (d.map fun x => if x.ended then x.cells.length - x.valid.length else 0)) s
  if allEnded then wr O.NVM_DIST_STATE (if okN == total then 3 else 4) s
  else wr O.NVM_DIST_STATE (if d.any fun x => x.round > 0 then 2 else 1) s

/-- An ACK of a cell of a distribution; once every cell has answered, the union of what lacks is broadcast again, three times at most (R380). -/
def distAck (x : OutXfer) (link cell : Nat) (b : Bulk) (s : State) : State :=
  let s := updDist link (fun d =>
    { d with wait := d.wait.filter (· != cell), valid := if b.status == 0 && b.ranges.isEmpty then addTo d.valid cell else d.valid,
             missing := b.ranges.foldl (fun m r => addRange r.1 r.2 m) d.missing }) s
  match s.nvm.dist.find? fun d => d.link == link with
  | none => s
  | some d =>
    if !d.wait.isEmpty then showDist s
    else if d.missing.isEmpty || 3 ≤ d.round then
      showDist (updDist link (fun d => { d with ended := true }) (updRem (fun r => { r with outs := r.outs.filter fun y => !y.same x }) s))
    else
      let again := d.cells.filter fun c => !d.valid.contains c
      let s := updDist link (fun d => { d with wait := again, missing := [], round := d.round + 1 }) s
      pump (setOut { x with todo := d.missing, ended := false } (showDist s))

/-- ACK (R365): the outcome of a write, or what to send again; three rounds that leave ranges missing end UNREACHABLE. -/
def bulkAckRx (h : Hdr) (b : Bulk) (s : State) : State :=
  match s.rem.outs.find? fun x => x.id == b.xfer && (match x.why with | .answer => false | .write _ _ => x.dst == h.src && x.side == h.srcSide | .dist l => fld h.src 9 4 == l) with
  | none => s
  | some x =>
    let past (s : State) : State := updRem (fun r => { r with outs := r.outs.filter fun y => !y.same x }) s
    match x.why with
    | .answer => s
    | .dist l => distAck x l (fld h.src 9 0) b s
    | .write id seq =>
      if b.status != 0 then jopReply id seq 0x31 b.status [] (past s)
      else if b.ranges.isEmpty then jopReply id seq 0x31 stOk [] (past s)
      else if 3 ≤ x.round then jopReply id seq 0x31 stUnreachable [] (past s)
      else pump (setOut { x with todo := b.ranges, ended := false, round := x.round + 1 } s)

/-- DISTRIBUTE (R380): one broadcast write on every piste downlink at once. -/
def distribute (s : State) : State :=
  let id := s.rem.nextXfer
  let s := updRem (fun r => { r with nextXfer := (r.nextXfer + 1) % 65536 }) s
  let cellsOn (k : Nat) : List Nat := s.tree.cells.filter fun c => c / 16 == k
  let links := (pisteLinks s).filter fun k => !(cellsOn k).isEmpty
  let d := links.map fun k => ({ link := k, cells := cellsOn k, wait := cellsOn k, valid := [], missing := [], round := 0, ended := false } : DistPiste)
  let s := updNvm (fun n => { n with dist := d, xfer := id }) s
  let s := wr O.NVM_DIST_CELLS (sumL (d.map fun x => x.cells.length)) s
  let s := showDist s
  let x (k : Nat) : OutXfer :=
    { id := id, dst := low 6 (nodeNum s) * 1024 + k * 16, side := sideB s, dstNode := false, bcast := true, lane := k, region := 0xD010,
      todo := [(0, imageBytes)], offset := 0, len := imageBytes, ended := false, status := 0, round := 0, why := .dist k, data := [] }
  pump (updRem (fun r => { r with outs := r.outs ++ links.map x }) s)

/-- What NVM_CMD does (Table 14.19). -/
def nvmEffect (v : Nat) (s : State) : State :=
  match v with
  | 1 => nvmStore s
  | 2 => nvmDefaults s
  | 3 => nvmVerify s
  | 4 => nvmActivate s
  | 5 => nvmCommit s
  | _ => distribute s

/-- A write of NVM_CMD. -/
def writeNvmCmd (v : Nat) (s : State) : Res := writeBy O.NVM_CMD v (nvmGuard v s) (fun s => done (nvmEffect v s)) s

end Sys2Proof.Machine
end

