-- ==== Sys2Proof/Machine/OpsTim.lean ====
section
/-! DEFINITION. The time unit as shared operations: hop delays, servo, valve-time states, sources and roles, period parameters, station time (R176 to R197). -/
namespace Sys2Proof.Machine

/-- The quotient num / den as binary64. -/
def ratD (num : Int) (den : Nat) : F64 := fratio fmt64 (num < 0) num.natAbs den 0

/-- Sum in binary64. -/
def addD (a b : F64) : F64 := fadd fmt64 a b
/-- Difference in binary64. -/
def subD (a b : F64) : F64 := fsub fmt64 a b
/-- Product in binary64. -/
def mulD (a b : F64) : F64 := fmul fmt64 a b
/-- Quotient in binary64. -/
def divD (a b : F64) : F64 := fdiv fmt64 a b

/-- The least and the greatest INC (R177). -/
def incLo : Nat := 2683817689
/-- The greatest INC (R177). -/
def incHi : Nat := 2684891431

/-- round(0xA000_0000 * (1 + a)), within the limits of R177. -/
def incOf (a : F64) : Nat :=
  let x := fexact fmt64 (mulD (fofI fmt64 (nomInc : Int) 0 false) (addD (ratD 1 1) a))
  (clampI (rndAwayE x.1 x.2) (incLo : Int) (incHi : Int)).toNat

/-- ±200e-6 (R187). -/
def lim200 : F64 := ratD 200 1000000

/-- Clamp to ±b. -/
def clampD (x b : F64) : F64 := fclamp fmt64 x (fneg fmt64 b) b

/-- A lane that measures (R181). -/
def measures (n : Nat) (s : State) : Bool := stage n s == 4 || stage n s == 5

/-- The LANE report of a node to its apex (R182, R362). -/
def laneReport (s : State) : State :=
  if !isNode s || isApex s then s
  else
    let l := upOf (List.range 68) s
    let s := each l (fun n => setPd { pdLane n s with reported := rd (O.TIM_LANE_DELAY n) s }) s
    sendToNode 5 2 0 (sideB s) (.nreport (.lanes (l.map fun n => ownEntry n s))) s

/-- r of R181 over the latest 16 exchanges, newest first; 1 with a single one. -/
def ratioOf (l : List PdEx) : F64 :=
  let w := l.take 16
  match w.head?, w.getLast? with
  | some a, some b =>
    if a.t2 == b.t2 then ratD 1 1 else divD (fofI fmt64 ((a.t1 : Int) - (b.t1 : Int)) 0 false) (fofI fmt64 ((a.t2 : Int) - (b.t2 : Int)) 0 false)
  | _, _ => ratD 1 1

/-- d_x of an exchange in nanoseconds (R181). -/
def dxOf (t1 t4 turn : Nat) (r : F64) (inc : Nat) : F64 :=
  let d := subD (ratD ((t4 : Int) - (t1 : Int)) 32) (mulD (ratD turn 32) r)
  mulD (mulD (divD d (ratD 2 1)) (fofI fmt64 (inc : Int) 0 false)) (fofI fmt64 1 (-30) false)

/-- A binary64 number of nanoseconds in picoseconds, ties away from zero. -/
def psOf (x : F64) : Int := let y := fexact fmt64 (mulD x (ratD 1000 1)); rndAwayE y.1 y.2

/-- Mean of binary64 values. -/
def meanD (l : List F64) : F64 := divD (l.foldl addD 0) (fofI fmt64 (l.length : Int) 0 false)

/-- A completed delay exchange on lane n (R181, R182). -/
def pdDone (n t1 t2 t4 turn : Nat) (s : State) : State :=
  let p := pdLane n s
  let e0 : PdEx := { t1 := t1, t2 := t2, turn := turn, dx := 0 }
  let r := ratioOf (e0 :: p.ex)
  let l := ({ e0 with dx := dxOf t1 t4 turn r s.tim.valve.inc } :: p.ex).take 64
  let ds := l.map (·.dx)
  let delay := (clampI (psOf (meanD ds.reverse)) 0 0xFFFFFFFF).toNat
  let hi := ds.foldl (fmax fmt64) (ds.headD 0)
  let lo := ds.foldl (fmin fmt64) (ds.headD 0)
  let spread := (clampI (psOf (subD hi lo)) 0 0xFFFFFFFF).toNat
  let rx := fexact fmt64 (mulD (subD r (ratD 1 1)) (ratD 1000000000 1))
  let s := setPd { p with ex := l, t1 := none } s
  let s := wr (O.TIM_LANE_DELAY n) delay (wr (O.TIM_LANE_SPREAD n) spread (wr (O.TIM_LANE_RATIO n) (ofI 32 (satI 32 (rndAwayE rx.1 rx.2))) s))
  let moved := max delay p.reported - min delay p.reported
  if inL5 n s && moved > 1000 then
    let s := setPd { pdLane n s with reported := delay } s
    if isApex s then lagRecompute s else laneReport s
  else s

/-- A servo changed. -/
def updSrv (b : Bool) (f : Servo → Servo) (s : State) : State :=
  updTim (fun t => if b then { t with srvB := f t.srvB } else { t with srvA := f t.srvA }) s

/-- The timescale a servo steers, replaced. -/
def setScale (b : Bool) (x : Scale) (s : State) : State :=
  let s := updSrv b (fun v => { v with est := x }) s
  if applied b s then wr O.TIM_VT_INC x.inc (updTim (fun t => { t with valve := x }) s) else s

/-- TIM_VT_STATE by a state of Table 6.4. -/
def VtState.code : VtState → Nat
  | .unlocked => 0
  | .locked => 1
  | .holdover => 2
  | .slewing => 3

/-- The valve-time state shown changes: loss and gain of lock act (R27, R188, Table 6.10). -/
def showState (c : Nat) (s : State) : State :=
  let old := rd O.TIM_VT_STATE s
  if old == c then s
  else
    let s := wr O.TIM_VT_STATE c s
    let s := if old == 1 then bump O.TIM_VT_LOCK_LOSSES s else s
    let s := if c == 1 then updTim (fun t => { t with wasLocked := true }) s else s
    if isCell s then (if old == 1 then cellTimeLost s else if c == 1 then cellTimeLock s else s)
    else
      let s := setLive 210 (c != 1 && s.tim.wasLocked) 0 s
      if c == 1 && isApex s then firstSet s else s

/-- A servo's state, shown where it is applied. -/
def vtGo (b : Bool) (x : VtState) (s : State) : State :=
  let s := updSrv b (fun v => { v with st := x, good := 0, bad := 0 }) s
  if applied b s then showState x.code s else s

/-- Nothing is scheduled (R188). -/
def nothingScheduled (s : State) : Bool :=
  if isCell s then let c := celState s; c ≤ 3 || c == 6
  else if isApex s then rd O.CEL_ARM_DEBLOCK s == 0 else !servesDeblocked s

/-- The offset e of R187 of a SYNC received on lane n at a stamp, in units of 2^-35 ns over 1000. -/
def offsetNum (b : Bool) (n t vt : Nat) (s : State) : Int :=
  let own := (scaleOf b s).at32 t
  let dIn := (rd (O.TIM_LANE_DELAY n) s : Int) + rdI 32 (O.TIM_ASYM n) s
  (own - ((vt * 2 ^ 19 : Nat) : Int)) * 1000 - dIn * (2 ^ 35 : Nat)

/-- Picoseconds of an offset, ties away from zero. -/
def offsetPs (num : Int) : Int := rndAway num (2 ^ 35)

/-- The rate of the source by two SYNCs: valve nanoseconds per nominal own nanosecond, minus 1, within ±200e-6. -/
def rateOf (t0 v0 t1 v1 : Nat) : F64 :=
  if t1 ≤ t0 then 0
  else
    -- own time in 2^-16 ns: ticks of 1/32 times 2.5 ns
    clampD (subD (divD (fofI fmt64 ((v1 : Int) - (v0 : Int)) 0 false) (ratD (((t1 - t0) * 163840 : Nat) : Int) 32)) (ratD 1 1)) lim200

/-- The servo of R187 on an offset. -/
def servoStep (b : Bool) (num : Int) (s : State) : State :=
  let e := ratD num (1000 * 2 ^ 35)
  let i := 50000
  let sl := ratD (rd O.TIM_VT_SLEW_RATE s : Nat) 1000000
  let f := clampD (subD (servo b s).f (divD e (ratD (64 * i) 1))) lim200
  let adj := clampD (addD f (clampD (divD (fneg fmt64 e) (ratD (8 * i) 1)) sl)) lim200
  setScale b ((scaleOf b s).setInc s.tick (incOf adj)) (updSrv b (fun v => { v with f := f }) s)

/-- A step by -e with f from the ratio of two SYNCs, then the servo on what is left (R187). -/
def stepBy (b : Bool) (num : Int) (f : F64) (s : State) : State :=
  let z := -(rndAway num (1000 * 32))
  let s := setScale b ((scaleOf b s).step z) (updSrv b (fun v => { v with f := f }) s)
  setScale b ((scaleOf b s).setInc s.tick (incOf f)) s

/-- Pending instants and held commands discarded at a re-anchor (Table 6.4). -/
def discardPending (s : State) : State :=
  let s := updCell (fun c => { c with cmds := [], cands := [], changes := [], edges := [] }) s
  { s with bal := { s.bal with works := [] } }

/-- The transitions of Table 6.4 on a valid SYNC of a lineage from the lane in use, the later row winning. -/
def syncServo (b : Bool) (n t : Nat) (sy : Sync) (s : State) : State :=
  let v := servo b s
  let known := !(pdLane n s).ex.isEmpty
  let num := offsetNum b n t sy.vt s
  let ps := offsetPs num
  let s := updSrv b (fun x => { x with prev := some (t, sy.vt), last := some s.tick, steps := sy.steps,
                                       since := match x.last, x.since with
                                                | some l, some q => if s.tick ≤ l + us 200 then some q else some s.tick
                                                | _, _ => some s.tick }) s
  let shown := applied b s
  let s := if shown then
      wr O.TIM_VT_OFFSET (ofI 32 (satI 32 ps)) (wr O.TIM_VT_SOURCE n (wr O.TIM_VT_STEPS (min 254 (sy.steps + 1)) s)) else s
  if !known then s
  else
    let f := match v.prev with | some p => rateOf p.1 p.2 t sy.vt | none => v.f
    let lw : Int := (rd O.TIM_LOCK_WINDOW s : Nat)
    let far : Bool := ps.natAbs > 1000 * rd O.TIM_SLEW_WINDOW s
    match v.st with
    | .unlocked => if v.prev.isSome then vtGo b .slewing (stepBy b num f s) else s
    | .locked =>
      let s := servoStep b num s
      if (ps.natAbs : Int) > 4 * lw then
        if v.bad ≥ 3 then vtGo b .slewing s else updSrv b (fun x => { x with bad := x.bad + 1 }) s
      else updSrv b (fun x => { x with bad := 0 }) s
    | _ =>
      if far && nothingScheduled s then
        let s := bump O.TIM_VT_REANCHORS (if shown then discardPending s else s)
        vtGo b .slewing (stepBy b num f s)
      else
        let s := servoStep b num s
        let s := if v.st == .holdover then vtGo b .slewing s else s
        let g := if (ps.natAbs : Int) ≤ lw then (servo b s).good + 1 else 0
        if g ≥ 64 then vtGo b .locked s else updSrv b (fun x => { x with good := g }) s

/-- A lineage has had a valid SYNC within 200 us. -/
def lineageValid (b : Bool) (s : State) : Bool := match (servo b s).last with | some l => decide (s.tick ≤ l + us 200) | none => false

/-- A cell applies the other lineage; valve time goes on and slews (R185). -/
def applyLineage (b : Bool) (s : State) : State :=
  if b == s.tim.onB then s
  else
    let d := s.tim.valve.at s.tick - (servo b s).est.at s.tick
    let ps := rndAway (d * 1000) (2 ^ 30)
    let within : Bool := ps.natAbs ≤ rd O.TIM_LOCK_WINDOW s
    let v := s.tim.valve
    let s := updSrv (!b) (fun x => { x with est := v }) s
    let s := updTim (fun t => { t with onB := b }) s
    let s := setScale b ((s.tim.valve).setInc s.tick (servo b s).est.inc) s
    let s := wr O.TIM_VT_SOURCE (if !lineageValid b s then 0xFF else if b then laneU1 else laneU0) (wr O.TIM_VT_STEPS (min 254 ((servo b s).steps + 1)) s)
    let s := if (servo b s).st == .locked && !within then updSrv b (fun x => { x with st := .slewing, good := 0 }) s else s
    refEval (showState (servo b s).st.code s)

/-- TIM_LINEAGE_OFFSET and the source TIME_LINEAGE, once per interval of lineage A (R185, R432). -/
def lineageOffset (s : State) : State :=
  let ps := rndAway (((scaleOf false s).at s.tick - (scaleOf true s).at s.tick) * 1000) (2 ^ 30)
  let s := wr O.TIM_LINEAGE_OFFSET (ofI 32 (satI 32 ps)) s
  if !(lineageValid false s && lineageValid true s) then updTim (fun t => { t with linRun := 0, linGood := 0 }) s
  else if ps.natAbs > rd O.TIM_LINEAGE_TOL s then
    let s := updTim (fun t => { t with linRun := t.linRun + 1, linGood := 0 }) s
    if s.tim.linRun ≥ 64 then setLive 211 true 0 s else s
  else
    let s := updTim (fun t => { t with linRun := 0, linGood := t.linGood + 1 }) s
    if s.tim.linGood ≥ 64 then setLive 211 false 0 s else s

/-- A tick lies within the latest 200 us. -/
def fresh200 (t : Option Nat) (s : State) : Bool := match t with | some x => decide (s.tick ≤ x + us 200) | none => false

/-- An apex becomes master (R186): with a valve time it has adopted it keeps time and state; UNLOCKED its valve time is 0 and it locks on itself. -/
def becomeMaster (s : State) : State :=
  let first := (servo false s).st == .unlocked
  let s := wr O.TIM_VT_ROLE 1 (wr O.TIM_VT_SOURCE 0xFE (wr O.TIM_VT_STEPS 0 s))
  let s := updTim (fun t => { t with waitEnd := none }) s
  if first then
    let x : Scale := { cB := s.tick, xB := 0, inc := nomInc }
    vtGo false .locked (setScale false x s)
  else s

/-- An apex becomes secondary (R186). -/
def becomeSecondary (s : State) : State := updTim (fun t => { t with waitEnd := none }) (wr O.TIM_VT_ROLE 2 s)

/-- A valid SYNC on a lane: which source it is and whether the device follows it (R185, R186). -/
def syncRx (n frac : Nat) (sy : Sync) (s : State) : State :=
  if !measures n s || !sy.valid then s
  else
    let t := stamp frac s
    if isCell s then
      if n != laneU0 && n != laneU1 then s
      else
        let b := n == laneU1
        if sy.lineageB != b then s
        else
          let s := if b && (servo false s).st == .unlocked && !(pdLane n s).ex.isEmpty then updTim (fun x => { x with onB := true }) s else s
          let s := syncServo b n t sy s
          if b then (if !lineageValid false s && (servo true s).st != .unlocked then applyLineage true s else s) else lineageOffset s
    else if n ≥ 66 then
      let s := updTim (fun x => if n == 66 then { x with peerP0 := some s.tick } else { x with peerP1 := some s.tick }) s
      if isApex s then
        let role := rd O.TIM_VT_ROLE s
        let s := if role == 0 || (role == 1 && sideB s && sy.steps == 0) then becomeSecondary s else s
        if rd O.TIM_VT_ROLE s == 2 && (n == 66 || !fresh200 s.tim.peerP0 s) then syncServo false n t sy s else s
      else wr O.TIM_PEER_OFFSET (ofI 32 (satI 32 (offsetPs (offsetNum false n t sy.vt s)))) s
    else if n ≥ 64 && !isApex s then
      let s := updTim (fun x => if n == 64 then { x with up0 := some s.tick } else x) s
      if n == 64 || !fresh200 s.tim.up0 s then syncServo false n t sy s else s
    else s

/-- A secondary apex without its duplicate's SYNC for 200 us (R186). -/
def peerSyncLoss (s : State) : State :=
  if !isApex s || rd O.TIM_VT_ROLE s != 2 then s
  else becomeMaster (advTo (max (s.tim.peerP0.getD 0) (s.tim.peerP1.getD 0) + us 200) s)

/-- No valid SYNC of a lineage, or of a node's source, for 200 us: a secondary apex becomes master; a cell that loses A applies B once B has been locked; where no source is left TIM_VT_SOURCE shows none (Table 6.4, R185, R186). -/
def syncTimeout (b : Bool) (s : State) : State :=
  let b := isCell s && b
  if isNode s && rd O.TIM_VT_ROLE s == 1 then s
  else if isApex s && rd O.TIM_VT_ROLE s == 2 then peerSyncLoss s
  else
    let s := advTo ((servo b s).last.getD 0 + us 200) s
    let st := (servo b s).st
    let s := updSrv b (fun x => { x with since := none }) s
    let s := if isCell s && b == s.tim.onB && (servo (!b) s).st != .unlocked && (!b || lineageValid (!b) s) then applyLineage (!b) s
      else if applied b s then wr O.TIM_VT_SOURCE 0xFF s else s
    if st == .locked || st == .slewing then vtGo b .holdover s else s

/-- A has been valid for 100 ms without a break (R185). -/
def lineageReturn (s : State) : State :=
  match (servo false s).since with
  | some t => if isCell s && s.tim.onB && (servo false s).st != .unlocked then applyLineage false (advTo (t + ms 100) s) else s
  | none => s

/-- The end of a wait for the duplicate's SYNC (R186). -/
def apexPeerWait (s : State) : State :=
  match s.tim.waitEnd with
  | some t =>
    if !isApex s || rd O.TIM_VT_ROLE s != 0 then s
    else
      let s := advTo t s
      if !sideB s || s.tim.waits ≥ 1 then becomeMaster s
      else updTim (fun x => { x with waits := x.waits + 1, waitEnd := some (t + ms (rd O.TIM_PEER_WAIT s)) }) s
  | none => s

/-- The partner of lane n in a header: its address, its side, and whether it is a node. A node by the number of its CAP; a cell by its index, the first of the piste from this node's end or the neighbour of this cell (R47, R183). -/
def partnerAddr (n : Nat) (s : State) : Nat × Bool × Bool :=
  match (lane n s).cap with
  | none => (0, false, false)
  | some c =>
    if c.roleNode then (nodeAddr c.node, c.sideB, true)
    else
      let i := if isNode s then n * 16 + (if sideB s then pisteLen n s - 1 else 0)
        else if n == laneU0 then rd O.TREE_CELL_INDEX s - 1 else rd O.TREE_CELL_INDEX s + 1
      (nodeAddr c.node + low 10 i, c.sideB, false)

/-- A frame of class TIME to the partner of lane n, consumed there (R183). -/
def sendPartner (typ : Nat) (p : Pay) (n : Nat) (s : State) : State :=
  let a := partnerAddr n s
  sendFrame 1 typ true a.1 a.2.1 a.2.2 false p [n] s

/-- The SYNC of a lineage; VT is inserted as the frame leaves (R183, R184). -/
def syncOf (b : Bool) (s : State) : Sync :=
  if isNode s then { vt := vtFrac s, steps := rd O.TIM_VT_STEPS s, valid := timeLock s, lineageB := sideB s }
  else { vt := ((scaleOf b s).at s.tick / 16384).toNat, steps := min 255 ((servo b s).steps + 1), valid := (servo b s).st == .locked, lineageB := b }

/-- SYNC on the lanes of R184: every downlink and P0 and P1 of a node; a cell's lineage A on U1 and B on U0. -/
def syncSend (s : State) : State :=
  if isNode s then each ((downlinks ++ [laneP0, laneP1]).filter fun n => measures n s) (fun n s => sendPartner 0 (.sync (syncOf false s)) n s) s
  else sendPartner 0 (.sync (syncOf true s)) laneU0 (sendPartner 0 (.sync (syncOf false s)) laneU1 s)

/-- A node shows the values of the set in force (R29, R191). -/
def showParams (p : ParamSet) (s : State) : State :=
  let s := wr O.TIM_PARAM_SEQ p.pseq s
  if isApex s then s
  else wr O.TIM_PERIOD p.t (wr O.TIM_APPLY_LAG p.l (wr O.TIM_CMD_GUARD p.g (wr O.TIM_LAW_START_EFF p.lawStart s)))

/-- The pending set comes into force when period k is not before its K_EFF (R191). -/
def paramsAt (k : Nat) (s : State) : State :=
  match s.tim.pend with
  | some p =>
    if p.kEff ≤ k then showParams p (updTim (fun t => { t with inForce := some p, pend := none, slalomWritten := none }) s) else s
  | none => s

/-- Two sets give different values for the first period that both govern: its P-mark, parameters, slalom state or deblock mask (R191). -/
def ParamSet.differs (a b : ParamSet) : Bool :=
  let k := max a.kEff b.kEff
  a.pmark k != b.pmark k || a.t != b.t || a.l != b.l || a.g != b.g || a.lawStart != b.lawStart || a.deblock != b.deblock
    || lfsrN (k - a.kEff) a.slalom != lfsrN (k - b.kEff) b.slalom

/-- A set that comes into force at once, with the slalom state stepped forward to the present period k at a node (R50, R191). -/
def paramNow (k : Nat) (p : ParamSet) (s : State) : State :=
  let s := showParams p (updTim (fun t => { t with inForce := some p, slalomWritten := none }) s)
  if isNode s then wr O.BAL_SLALOM_STATE (lfsrN (k - p.kEff) p.slalom) s else s

/-- A set taken: in force or pending, as its K_EFF says (R191). -/
def takeSet (p : ParamSet) (force : Bool) (s : State) : State :=
  let v := vtTicks s
  let p0 := ticksOfNs p.pEff
  match s.tim.inForce with
  | none =>
    if p0 ≤ v then let k := p.kEff + (v - p0) / max p.t 1; paramNow k p (wr O.TIM_PERIOD_NUMBER k s)
    else updTim (fun t => { t with pend := some p }) s
  | some f =>
    if p.kEff ≤ kNow s then (if force || f.kEff ≤ p.kEff then paramNow (kNow s) p (if force then updTim (fun t => { t with pend := none }) s else s) else s)
    else match s.tim.pend with
      | some q => if force || q.kEff ≤ p.kEff then updTim (fun t => { t with pend := some p }) s else s
      | none => updTim (fun t => { t with pend := some p }) s

/-- A set received on lane n (R191). A cell that has the latest set of its other end, no older than this one and with different values for the same period, counts a conflict and goes by the lane of the stream it obeys. -/
def paramRx (n : Nat) (p : ParamSet) (s : State) : State :=
  if isApex s then s
  else
    let other := aget s.tim.ends (if n == laneU0 then laneU1 else laneU0)
    let s := updTim (fun t => { t with ends := aset t.ends n p }) s
    let clash : Bool := isCell s && (match other with | some q => p.pseq ≤ q.pseq && p.differs q | none => false)
    let obeyed := n == (if rd O.RED_OBEYED s == 1 then laneU1 else laneU0)
    let s := if clash then bump O.TIM_PARAM_CONFLICT s else s
    if clash && !obeyed then s
    else if s.tim.inForce == some p || s.tim.pend == some p then s
    else readyEval (takeSet p clash s)

/-- PARAM on every node link and piste (R191). -/
def paramSend (s : State) : State :=
  if !isNode s then s
  else
    match (match s.tim.pend with | some p => some p | none => s.tim.inForce) with
    | none => s
    | some p =>
      let s := sendFrame 1 3 true 0 (sideB s) true false (.param p) (upOf (groupLinks s) s) s
      each (upOf (pisteLinks s) s) (fun k s => sendFrame 1 3 false (nodeAddr (nodeNum s) + k * 16) (sideB s) false true (.param p) [k] s) s

/-- TIM_ST_QUALITY at the apex (R194). -/
def updQuality (s : State) : State :=
  let st := rd O.TIM_ST_STATE s
  let q := rd O.TIM_ST_QUALITY s
  let exp : Bool := bit q 4 && st == 4
  wr O.TIM_ST_QUALITY (b2n s.tim.stTraceable + 2 * b2n (st == 2) + 4 * b2n (st == 3) + 8 * b2n (st == 4) + 16 * b2n exp + 32 * b2n s.tim.stUtcValid) s

/-- A station-time state with the quality bits it shows. -/
def stGo (st : Nat) (s : State) : State :=
  let s := wr O.TIM_ST_STATE st s
  updQuality (updTim (fun t => { t with stHoldSince := if st == 4 then some (t.stHoldSince.getD s.tick) else none, stOut := if st == 2 then t.stOut else [] }) s)

/-- The station timescale changed at this tick, the steps that have come due in it. -/
def updStation (f : Scale → Scale) (s : State) : State :=
  let x := stScale s
  updTim (fun t => { t with station := f x, stAdj := t.stAdj.filter fun a => s.tick < a.1 }) s

/-- Station INC set; its tracked value is what no slew changes. -/
def stSetInc (inc : Nat) (s : State) : State := wr O.TIM_ST_INC inc (updStation (fun x => x.setInc s.tick inc) s)

/-- Station time stepped by z nanoseconds times 2^30. -/
def stStep (z : Int) (s : State) : State := updStation (fun x => x.step z) s

/-- STATION to each child node; the apex keeps its own mappings as a node keeps those it receives (R195). -/
def stationSend (s : State) : State :=
  if !isNode s then s
  else if isApex s then
    let m := apexMap s
    sendFrame 1 4 true 0 (sideB s) true false (.station m) (upOf (groupLinks s) s) (updTim (fun t => { t with maps := (m :: t.maps).take 4 }) s)
  else
    let v := vtFrac s / 65536
    match mapFor (v * 65536) s with
    | some q =>
      sendFrame 1 4 true 0 (sideB s) true false (.station { q with vM := v, sM := q.conv (v * 65536) / 65536, quality := rd O.TIM_ST_QUALITY s }) (upOf (groupLinks s) s) s
    | none => s

/-- The station offset e of a Sync in 2^-16 ns: receipt less origin, correction, peer delay and delayAsymmetry (R192, R193). -/
def stOffset (port t2 origin : Nat) (corr : Int) (s : State) : Int :=
  let pd := (rd (O.TIM_PTP_PDELAY port) s : Int) * 65536
  let asym := Int.tdiv (rdI 32 (O.TIM_PTP_ASYM port) s * 65536) 1000
  (t2 : Int) - ((origin : Int) + corr + pd + asym)

/-- Nanoseconds of an offset in 2^-16 ns, ties away from zero. -/
def nsOff (e : Int) : Int := rndAway e 65536

/-- The station servo on a Sync it uses: the spec gives no gains, so the rate is a free value within the limits of R177. -/
def stServo (s : State) : State :=
  let r := takeFree 32 s
  stSetInc (incLo + r.1 % (incHi - incLo + 1)) r.2

/-- A Sync in LOCKED: servo, outliers, jumps (Table 6.7). -/
def stLocked (e : Int) (s : State) : State :=
  let ns := nsOff e
  let lim := rd O.TIM_ST_OUTLIER s
  if ns.natAbs ≤ lim then stServo (updTim (fun t => { t with stOut := [] }) s)
  else
    let s := bump O.TIM_ST_OUTLIERS s
    let n := rd O.TIM_ST_CONFIRM s
    let l := (ns :: s.tim.stOut).take n
    let s := updTim (fun t => { t with stOut := l }) s
    let mean := rndAway (l.foldl (· + ·) 0) (max l.length 1)
    if l.length < n || !(l.all fun x => (x - mean).natAbs ≤ lim) then s
    else if s.tim.stAllow then
      let s := stStep (-(mean * (2 ^ 30 : Nat))) (updTim (fun t => { t with stAllow := false, stOut := [] }) s)
      bump O.TIM_ST_STEPS_DONE s
    else
      let rate := rd O.TIM_ST_SLEW_RATE s
      let cur := s.tim.station.inc
      let course := some (mean, 32 * s.tick)
      let d : Int := rndAway ((nomInc * rate : Nat) : Int) 1000000
      let inc := (clampI (if mean > 0 then (cur : Int) - d else (cur : Int) + d) (incLo : Int) (incHi : Int)).toNat
      let dur := mean.natAbs * 1000000 * 2 / (rate * 5)
      let s := updTim (fun t => { t with stF := cur, stSlewEnd := some (s.tick + dur), stCourse := course, stOut := [] }) (bump O.TIM_ST_JUMPS s)
      stGo 3 (stSetInc inc s)

/-- The offset in nanoseconds that a slew has planned for a stamp in 1/32 tick: e_j less what TIM_ST_SLEW_RATE has removed since, to 0 at its end (Table 6.7). -/
def stPlanned (rx : Nat) (s : State) : Int :=
  match s.tim.stCourse with
  | some (e, t0) =>
    let gone := (rx - t0) * 5 * rd O.TIM_ST_SLEW_RATE s / (64 * 1000000)
    if e < 0 then -((e.natAbs - gone : Nat) : Int) else ((e.natAbs - gone : Nat) : Int)
  | none => 0

/-- A Sync in SLEWING is checked against the planned course: within TIM_ST_OUTLIER of it nothing follows, off it the Sync is not used (Table 6.7). -/
def stSlewing (e : Int) (rx : Nat) (s : State) : State :=
  if (nsOff e - stPlanned rx s).natAbs ≤ rd O.TIM_ST_OUTLIER s then s else bump O.TIM_ST_OUTLIERS s

/-- A Sync of the selected master with station time t2 and stamp rx of its receipt, the latter in 1/32 tick; STEP_THEN_SLEW corrects, INCREMENT shows (R193, Table 6.7). -/
def stSync (port t2 rx origin : Nat) (corr : Int) (seq : Nat) (s : State) : State :=
  let e := stOffset port t2 origin corr s
  let t1 := ((origin : Int) + corr).toNat
  let s := updTim (fun t => { t with stSync := some s.tick }) s
  let s := wr O.TIM_PTP_T1 (ts96N t1) (wr O.TIM_PTP_T2 (ts96N t2) (wr O.TIM_PTP_SYNC_SEQ (low 16 seq) s))
  let s := wr O.TIM_ST_OFFSET (ofI 64 (nsOff e)) s
  if rd O.TIM_ST_MODE s == 0 then s
  else
    match rd O.TIM_ST_STATE s with
    | 0 =>
      let known : Bool := match s.tim.ports[port]? with | some p => p.known | none => false
      if !known then s
      else
        let s := stStep (-(e * 16384)) (updTim (fun t => { t with stTraceable := true, stPrev := some (t1, rx), stGood := 0 }) s)
        stGo 1 (bump O.TIM_ST_STEPS_DONE s)
    | 1 =>
      let s :=
        match s.tim.stPrev with
        | some p => if rx ≤ p.2 then s else stSetInc (incOf (rateOf p.2 p.1 rx t1)) s
        | none => s
      let g := if (nsOff e).natAbs ≤ 1000 && s.tim.stPrev.isSome then s.tim.stGood + 1 else 0
      let s := updTim (fun t => { t with stPrev := some (t1, rx), stGood := g }) s
      if g ≥ rd O.TIM_ST_CONFIRM s then stGo 2 s else s
    | 2 => stLocked e s
    | 3 => stSlewing e rx s
    | _ => stLocked e (stGo 2 s)

/-- Lexicographic order of best-master comparison vectors. -/
def rankLt : List Nat → List Nat → Bool
  | [], _ => false
  | _ :: _, [] => false
  | a :: x, b :: y => a < b || (a == b && rankLt x y)

/-- An Announce is better than another by the default best master clock algorithm of IEEE 1588: the grandmasters' data, then stepsRemoved and the sender's port identity, then the port it came in on (R192). -/
def PtpMaster.better (a b : PtpMaster) : Bool :=
  let key (m : PtpMaster) : List Nat :=
    if a.ann.gm == b.ann.gm then [m.ann.steps, m.ident, m.port] else [m.ann.prio1, m.ann.cls, m.ann.accuracy, m.ann.variance, m.ann.prio2, m.ann.gm]
  rankLt (key a) (key b)

/-- The selected master by the default best master clock algorithm across both ports (R192). -/
def bestMaster (l : List PtpMaster) : Option PtpMaster :=
  l.foldl (fun a m => match a with | some x => if m.better x then some m else a | none => some m) none

/-- Select the master; a change is handled as a return from HOLDOVER (R193). -/
def selectMaster (s : State) : State :=
  match bestMaster s.tim.masters with
  | none => s
  | some m =>
    let key := (m.port, m.ident)
    let changed : Bool := match s.tim.master with | some k => k != key | none => false
    let s := updTim (fun t => { t with master := some key, stUtcValid := m.ann.utcValid }) s
    let s := wr O.TIM_ST_MASTER m.ident (wr O.TIM_ST_UTC_OFFSET (ofI 16 m.ann.utc) s)
    let st := rd O.TIM_ST_STATE s
    if changed && 1 ≤ st && st ≤ 3 && rd O.TIM_ST_MODE s == 1 then stGo 4 s else updQuality s

end Sys2Proof.Machine
end

