-- ==== Sys2Proof/Machine/Ptp.lean ====
section
/-! DEFINITION. The commands of station time at the apex and of its host ports' IEEE 1588 clock (R192 to R194, R197). -/
namespace Sys2Proof.Machine

/-- A port of the apex runs IEEE 1588. -/
def ptpOn (port : Nat) (s : State) : Bool := isApex s && port < 2 && rdBit O.TIM_PTP_ENABLE port s

/-- The EtherType of IEEE 1588 over IEEE 802.3 (R192). -/
def ptpEtype : Nat := 0x88F7

/-- The multicast address of Announce and Sync with its Follow_Up (R192). -/
def ptpMacAll : Nat := 0x011B19000000

/-- The multicast address of peer delay (R192). -/
def ptpMacPeer : Nat := 0x0180C200000E

/-- The tag of TIM_PTP_VLAN. -/
def ptpTag (s : State) : Option Nat := let v := rd O.TIM_PTP_VLAN s; if v == 0xFFFF then none else some v

/-- A message a port takes: its EtherType, multicast address and domain, untagged or with the tag of TIM_PTP_VLAN (R192). -/
def ptpTakes (mac : Nat) (h : PtpHdr) (s : State) : Bool :=
  ptpOn h.port s && h.etype == ptpEtype && h.mac == mac && (h.vlan.isNone || h.vlan == ptpTag s) && h.domain == rd O.TIM_PTP_DOMAIN s

/-- A port's state changed. -/
def updPtp (port : Nat) (f : PtpPort → PtpPort) (s : State) : State := updTim (fun t => { t with ports := t.ports.modify port f }) s

/-- The master of this port and identity is the one selected. -/
def isMaster (port ident : Nat) (s : State) : Bool := s.tim.master == some (port, ident)

/-- Station time at a stamp in 1/32 tick, in 2^-16 ns (R179, R193). -/
def stAt (t : Nat) (s : State) : Nat := ((stScale s).at32 t / 2 ^ 19).toNat

/-- A Sync of the selected master: one-step gives its origin, two-step waits for Follow_Up (R192). -/
def ptpSyncRx (h : PtpHdr) (twoStep : Bool) (origin : Nat) (corr : Int) (s : State) : State :=
  if !ptpTakes ptpMacAll h s || !isMaster h.port h.ident s then s
  else
    let rx := stamp h.frac s
    if twoStep then updPtp h.port (fun p => { p with sync := some (h.seq, stAt rx s, rx) }) s
    else stSync h.port (stAt rx s) rx origin corr h.seq s

/-- PTP_SYNC_RX (R192, R193). -/
def execPtpSyncRx (h : PtpHdr) (twoStep : Bool) (origin : Nat) (corr : Int) (s : State) : Host.Outcome State Fault Refusal := ok (ptpSyncRx h twoStep origin corr s)

/-- The Follow_Up of a two-step Sync, with the stamp of that Sync. -/
def ptpFollowUpRx (h : PtpHdr) (origin : Nat) (corr : Int) (s : State) : State :=
  if !ptpTakes ptpMacAll h s || !isMaster h.port h.ident s then s
  else match (s.tim.ports.getD h.port PtpPort.init).sync with
    | some (q, t2, rx) => if q == h.seq then stSync h.port t2 rx origin corr h.seq (updPtp h.port (fun p => { p with sync := none }) s) else s
    | none => s

/-- PTP_FOLLOW_UP_RX (R192, R193). -/
def execPtpFollowUpRx (h : PtpHdr) (origin : Nat) (corr : Int) (s : State) : Host.Outcome State Fault Refusal := ok (ptpFollowUpRx h origin corr s)

/-- An Announce feeds the best master clock algorithm; the apex's own clock never enters it (R192). -/
def ptpAnnounceRx (h : PtpHdr) (a : Announce) (s : State) : State :=
  if !ptpTakes ptpMacAll h s then s
  else
    let m : PtpMaster := { port := h.port, ident := h.ident, ann := { a with utc := satI 16 a.utc }, last := s.tick }
    selectMaster (updTim (fun t => { t with masters := m :: t.masters.filter fun x => !(x.port == h.port && x.ident == h.ident) }) s)

/-- PTP_ANNOUNCE_RX (R192). -/
def execPtpAnnounceRx (h : PtpHdr) (a : Announce) (s : State) : Host.Outcome State Fault Refusal := ok (ptpAnnounceRx h a s)

/-- A peer-delay message of a port with a transmit stamp, its fraction of a tick a free value: the message to its stamp. -/
def ptpSend (port : Nat) (l : Nat → List PtpMsg) (s : State) : State :=
  let q := takeFree 5 s
  updPtp port (fun p => { p with out := l (stAt (stamp q.1 s) s) }) q.2

/-- A peer-delay message as the apex sends it (R192). -/
def ptpMsg (typ seq req ts : Nat) (s : State) : PtpMsg :=
  { typ := typ, etype := ptpEtype, mac := ptpMacPeer, vlan := ptpTag s, domain := rd O.TIM_PTP_DOMAIN s, seq := seq, req := req, ts := ts }

/-- Pdelay_Req leaves a port; its transmit stamp is t1. -/
def ptpReqSend (port : Nat) (s : State) : State :=
  if !ptpOn port s then s
  else
    let q := takeFree 5 s
    let seq := low 16 ((s.tim.ports.getD port PtpPort.init).pdSeq + 1)
    updPtp port (fun p => { p with pdSeq := seq, pdT1 := some (stAt (stamp q.1 s) s), out := [ptpMsg 2 seq 0 0 s] }) q.2

/-- PTP_PDELAY_REQ_SEND (R192). -/
def execPtpPdelayReqSend (port : Nat) (s : State) : Host.Outcome State Fault Refusal := ok (ptpReqSend port s)

/-- Pdelay_Req is answered with Pdelay_Resp, which carries t2, and Pdelay_Resp_Follow_Up, which carries t3 (R192). -/
def ptpReqRx (h : PtpHdr) (s : State) : State :=
  if !ptpTakes ptpMacPeer h s then s
  else ptpSend h.port (fun t3 => [ptpMsg 3 h.seq h.ident (stAt (stamp h.frac s) s) s, ptpMsg 10 h.seq h.ident t3 s]) s

/-- PTP_PDELAY_REQ_RX (R192). -/
def execPtpPdelayReqRx (h : PtpHdr) (s : State) : Host.Outcome State Fault Refusal := ok (ptpReqRx h s)

/-- The answer to the latest Pdelay_Req: t2 and t3 of the responder and the corrections, in 2^-16 ns (R192). -/
def ptpRespRx (h : PtpHdr) (t2 t3 : Nat) (corr : Int) (s : State) : State :=
  if !ptpTakes ptpMacPeer h s then s
  else
    let p := s.tim.ports.getD h.port PtpPort.init
    match p.pdT1 with
    | some t1 =>
      if h.seq != p.pdSeq then s
      else
        let t4 := stAt (stamp h.frac s) s
        let d : Int := (((t4 : Int) - (t1 : Int)) - ((t3 : Int) - (t2 : Int)) - corr) / 2
        let ns := (clampI (rndAway d 65536) 0 0xFFFFFFFF).toNat
        updPtp h.port (fun x => { x with pdT1 := none, known := true }) (wr (O.TIM_PTP_PDELAY h.port) ns s)
    | none => s

/-- PTP_PDELAY_RESP_RX (R192). -/
def execPtpPdelayRespRx (h : PtpHdr) (t2 t3 : Nat) (corr : Int) (s : State) : Host.Outcome State Fault Refusal := ok (ptpRespRx h t2 t3 corr s)

/-- The announce receipt timeout has run from the selected master's latest Announce or from the latest Sync, whichever ends first: a master silent that long is no longer qualified and another heard is selected; without a Sync that long, HOLDOVER (R192, Table 6.7). -/
def ptpTimeout (s : State) : State :=
  match s.tim.master with
  | none => s
  | some (port, ident) =>
    if !isApex s then s
    else
      let d := ms (1000 * rd O.TIM_PTP_ANNOUNCE_TO s)
      let ann := ((s.tim.masters.find? fun m => m.port == port && m.ident == ident).map (·.last)).getD s.tick + d
      let syn := match s.tim.stSync with | some t => t + d | none => ann
      let s := advTo (min ann syn) s
      let keep := s.tim.masters.filter fun m => s.tick < m.last + d
      let s := updTim (fun t => { t with masters := keep }) s
      let st := rd O.TIM_ST_STATE s
      let s := if syn ≤ s.tick && 1 ≤ st && st ≤ 3 then stGo 4 s else s
      if keep.isEmpty then updTim (fun t => { t with master := none }) s else selectMaster s

/-- PTP_ANNOUNCE_TIMEOUT (R192, R193). -/
def execPtpAnnounceTimeout (s : State) : Host.Outcome State Fault Refusal := ok (ptpTimeout s)

/-- The slew time has elapsed (Table 6.7); in HOLDOVER the rate is kept, without the slew. -/
def stSlewEnd (s : State) : State :=
  match s.tim.stSlewEnd with
  | some t =>
    let s := advTo t s
    let s := stSetInc s.tim.stF (updTim (fun x => { x with stSlewEnd := none, stCourse := none }) s)
    if rd O.TIM_ST_STATE s == 3 then stGo 2 s else s
  | none => s

/-- ST_SLEW_END (R193). -/
def execStSlewEnd (s : State) : Host.Outcome State Fault Refusal := ok (stSlewEnd s)

/-- HOLDOVER has lasted longer than TIM_ST_HOLD_LIMIT (R193). -/
def stHoldLimit (s : State) : State :=
  match s.tim.stHoldSince with
  | some t =>
    let s := advTo (t + ms (1000 * rd O.TIM_ST_HOLD_LIMIT s)) s
    wrBit O.TIM_ST_QUALITY 4 true s
  | none => s

/-- ST_HOLD_LIMIT (R193). -/
def execStHoldLimit (s : State) : Host.Outcome State Fault Refusal := ok (stHoldLimit s)

/-- Once per second the master apex steers its valve rate toward the station rate (R197). -/
def syntonise (s : State) : State :=
  if !isApex s then s
  else
    let l := ((s.tick, s.tim.station.inc) :: s.tim.synt).take 16
    let s := updTim (fun t => { t with synt := l }) s
    if rd O.TIM_VT_SYNTONISE s == 0 || rd O.TIM_ST_STATE s != 2 || rd O.TIM_VT_ROLE s != 1 then s
    else
      let sum := sumL (l.map (·.2))
      let want := subD (ratD (sum : Nat) (max 1 (l.length * nomInc))) (ratD 1 1)
      let f := s.tim.srvA.f
      let f' := clampD (addD f (clampD (subD want f) (ratD 1 100000000))) lim200
      setScale false (s.tim.valve.setInc s.tick (incOf f')) (updSrv false (fun v => { v with f := f' }) s)

/-- SYNTONISE (R197). -/
def execSyntonise (s : State) : Host.Outcome State Fault Refusal := ok (syntonise s)

/-- A write of TIM_ST_CMD: 1 ALLOW_STEP, 2 RESTART, 3 SET_LOCKED, 4 CLEAR_LOCKED; 3 and 4 in INCREMENT only (R193, Table 6.12). -/
def writeStCmd (v : Nat) (s : State) : Res :=
  writeBy O.TIM_ST_CMD v (stIf ((v == 3 || v == 4) && rd O.TIM_ST_MODE s != 0)) (fun s =>
    match v with
    | 1 => done (updTim (fun t => { t with stAllow := true }) s)
    | 2 => done (stGo 0 (updTim (fun t => { t with stPrev := none, stGood := 0, stSlewEnd := none, stCourse := none }) s))
    | 3 => done (stGo 2 s)
    | _ => done (stGo 0 s)) s

/-- ALLOW_STEP (R193). -/
def execStAllowStep (s : State) : Host.Outcome State Fault Refusal := ok (finish (writeStCmd 1 s))

/-- RESTART (Table 6.7). -/
def execStRestart (s : State) : Host.Outcome State Fault Refusal := ok (finish (writeStCmd 2 s))

/-- SET_LOCKED (R193). -/
def execStSetLocked (s : State) : Host.Outcome State Fault Refusal := ok (finish (writeStCmd 3 s))

/-- CLEAR_LOCKED (R193). -/
def execStClearLocked (s : State) : Host.Outcome State Fault Refusal := ok (finish (writeStCmd 4 s))

/-- A write of TIM_ST_ADJUST: a step at the next tick, INCREMENT only (R193). -/
def writeStAdjust (v : Nat) (s : State) : Res :=
  writeBy O.TIM_ST_ADJUST v (stIf (rd O.TIM_ST_MODE s != 0)) (fun s => done (updTim (fun t => { t with stAdj := t.stAdj ++ [(s.tick + 1, toI 64 v * (2 ^ 30 : Nat))] }) s)) s

/-- TIM_ST_ADJUST (R193). -/
def execTimStAdjust (v : Int) (s : State) : Host.Outcome State Fault Refusal :=
  ok (finish (if -(2 ^ 63 : Int) ≤ v && v < (2 ^ 63 : Int) then writeStAdjust (ofI 64 v) s else (stRange, s)))

/-- A write of TIM_ST_INC, INCREMENT only (R193). -/
def writeStInc (v : Nat) (s : State) : Res := writeBy O.TIM_ST_INC v (stIf (rd O.TIM_ST_MODE s != 0)) (fun s => done (stSetInc v s)) s

/-- TIM_ST_INC (R193). -/
def execTimStInc (v : Nat) (s : State) : Host.Outcome State Fault Refusal := ok (finish (writeStInc v s))

end Sys2Proof.Machine
end

