-- ==== Sys2Proof/Machine/Red.lean ====
section
/-! DEFINITION. The commands of duplication and crossover (chapter 7). -/
namespace Sys2Proof.Machine

/-- RED_CMD v is refused outside its state (R203). -/
def redCmdRefused (v : Nat) (s : State) : Bool :=
  let st := rd O.RED_STATE s
  match v with
  | 1 => st != 3
  | 2 => st != 4
  | 3 => st != 1
  | _ => false

/-- An arm this node serves is deblocked. -/
def servesAny (s : State) : Bool := (armsHere s).any fun a => armDeblocked a s

/-- The counters of Table 7.15 that CLEAR_COUNTERS sets to 0 (R222). -/
def redCounters : List Nat :=
  [O.RED_MISMATCHES, O.RED_UPSTREAM_DIFF, O.RED_SUM_DIFF, O.RED_DIGEST_MISSING, O.RED_INPUTS_LATE, O.RED_IN_DISC,
   O.RED_CADDY_LATE, O.RED_CADDY_REJECT, O.RED_CHECKS, O.RED_CHECK_INCOMPLETE, O.RED_DEMOTIONS, O.RED_RETURNS, O.RED_NOTICE_LATE]

/-- What RED_CMD v does (Table 7.3, Table 7.11). -/
def redCmdEffect (v : Nat) (s : State) : State :=
  match v with
  | 1 => if inStep s then redTo 1 (leadK s) (bump O.RED_RETURNS s) else s
  | 2 => if rd O.LAW_STATE s != 4 && !servesAny s then redTo 0 (kNow s + 2) s else s
  | 3 => redTo 2 (leadK s) (wr O.RED_LAST_DECISION 7 s)
  | _ => clearAll redCounters s

/-- A write of RED_CMD. -/
def writeRedCmd (v : Nat) (s : State) : Res := writeBy O.RED_CMD v (stIf (redCmdRefused v s)) (fun s => done (redCmdEffect v s)) s

/-- RED_CMD RETURN (R203). -/
def execRedCmdReturn (s : State) : Host.Outcome State Fault Refusal := ok (finish (writeRedCmd 1 s))

/-- RED_CMD RESTORE (R203). -/
def execRedCmdRestore (s : State) : Host.Outcome State Fault Refusal := ok (finish (writeRedCmd 2 s))

/-- RED_CMD DEMOTE (R203). -/
def execRedCmdDemote (s : State) : Host.Outcome State Fault Refusal := ok (finish (writeRedCmd 3 s))

/-- RED_CMD CLEAR_COUNTERS (R222). -/
def execRedCmdClearCounters (s : State) : Host.Outcome State Fault Refusal := ok (finish (writeRedCmd 4 s))

/-- The planned claim and its K_X, as a notice carries them; one without a change takes the next period (R202, log entry 70). -/
def noticeClaim (s : State) : Nat × Nat :=
  match s.red.basePend with
  | some p => (p.1 * 4096 + claimHealth s, p.2)
  | none => (s.red.base * 4096 + claimHealth s, kNow s + 1)

/-- The notice as an object request: RED_PARENT_CLAIM and RED_PARENT_KX, op NOTICE (R202, Table 14.5). -/
def noticeMsg (child : Nat) (s : State) : ObjMsg :=
  let c := noticeClaim s
  { reqId := 0, op := 3, status := 0, index := 0xC020, sub := 1, count := 2, tryN := 0, proxy := false, commission := false,
    tgt := nodeAddr child, data := beBytes 2 c.1 ++ beBytes 8 c.2 }

/-- A node informs each child of its claim (R202). -/
def claimNotices (s : State) : State :=
  if isNode s then each s.tree.kids (fun c => sendFrame 5 0 false (nodeAddr c.2) (sideB s) true false (.obj (noticeMsg c.2 s)) [c.1]) s else s

/-- CLAIM_NOTICE_SEND (R202). -/
def execClaimNoticeSend (s : State) : Host.Outcome State Fault Refusal := ok (claimNotices s)

/-- The first period from kx on none of whose outputs has gone (R202). -/
def noticeK (kx : Nat) (s : State) : Nat :=
  let l := (s.bal.works.filter fun w => kx ≤ w.k && !w.untouched).map (·.k)
  if l.isEmpty then kx else maxL l + 1

/-- A parent's notice taken; late where an output of K_X has gone (R202). -/
def takeNotice (claim kx : Nat) (s : State) : State :=
  let s := updRed (fun r => { r with noticeAt := some s.tick, noticeLost := false }) (wr O.RED_PARENT_KX kx (wr O.RED_PARENT_CLAIM claim s))
  let k := noticeK kx s
  redEval (setBase k (onlyIf (k != kx) (bump O.RED_NOTICE_LATE) s))

/-- A write of RED_PARENT_CLAIM and RED_PARENT_KX from node src of a side: from the parent alone (R199, R202). -/
def parentClaim (src : Nat) (srcSide : Bool) (claim kx : Nat) (s : State) : Res :=
  if !isNode s then (stBlockOff, s)
  else if isApex s || src != s.tree.parent || srcSide != sideB s then (stRights, s)
  else if romRefuses O.RED_PARENT_CLAIM claim s then (stState, s)
  else if !claimOk claim || claim ≥ 65536 || kx ≥ 2 ^ 64 then (stRange, s)
  else done (takeNotice claim kx s)

/-- RED_PARENT_CLAIM (R202). -/
def execRedParentClaim (src : Nat) (srcSide : Bool) (claim kx : Nat) (s : State) : Host.Outcome State Fault Refusal :=
  ok (finish (parentClaim src srcSide claim kx s))

/-- 10 ms have passed without a notice (R202). -/
def noticeTimeoutDo (s : State) : State :=
  match s.red.noticeAt with
  | some t => if isApex s || !isNode s then s else setBase (kNow s + 1) (updRed (fun r => { r with noticeLost := true }) (advTo (t + ms 10) s))
  | none => s

/-- NOTICE_TIMEOUT (R202). -/
def execNoticeTimeout (s : State) : Host.Outcome State Fault Refusal := ok (noticeTimeoutDo s)

/-- The published health takes the value evaluated at the latest P-mark, at most once per 1 ms (R201). -/
def healthPublish (s : State) : State :=
  if !isNode s then s
  else
    let s := match s.red.healthAt with | some t => advTo (t + ms 1) s | none => s
    wr O.RED_HEALTH s.red.health (updRed (fun r => { r with healthAt := some s.tick }) s)

/-- HEALTH_UPDATE (R201). -/
def execHealthUpdate (s : State) : Host.Outcome State Fault Refusal := ok (healthPublish s)

/-- The revert hold has elapsed (R203). -/
def revertExpiry (s : State) : State :=
  match s.red.revertEnd with
  | some t => if rd O.RED_STATE s == 3 then redEval (wr O.RED_REVERT_LEFT 0 (advVt t s)) else s
  | none => s

/-- REVERT_HOLD_EXPIRY (R203). -/
def execRevertHoldExpiry (s : State) : Host.Outcome State Fault Refusal := ok (revertExpiry s)

/-- A digest over bytes; 0 over none (R209). -/
def digestCrc (b : List Nat) : Nat := if b.isEmpty then 0 else crc32c b

/-- Entries joined in ascending order of their lane. -/
def byLane (l : List (Nat × List Nat)) : List Nat := (sortBy (fun a b => a.1 ≤ b.1) l).flatMap (·.2)

/-- The DIGEST of a period from its work (R209, Table 7.6). -/
def digestOf (w : PeriodWork) (s : State) : Digest :=
  let dLaw := (aget s.red.dLaw w.k).getD 0
  let top : Bool := isApex s || s.tree.parent == 0xFF
  let st := rd O.RED_CHECK_STATE s
  let verdict := if s.red.check.isSome then (if st == 2 then rd O.RED_VERDICT s else 0) else if s.red.lastCheck.isSome then rd O.RED_VERDICT s else 0
  let c := match s.red.check with | some c => some c | none => s.red.lastCheck
  let img := aget s.red.images w.k
  { period := low 32 w.k, claim := w.claim, state := rd O.RED_STATE s, abandoned := w.ended || s.red.abandoned.contains w.k,
    ownInputs := s.red.ownInputs.contains w.k, inDisc := s.red.inDisc.contains w.k, checking := s.red.check.isSome, verdict := verdict,
    primaryB := isApex s && rd O.RED_PRIMARY_SIDE s == 1, inStep := inStep s, dOut := digestCrc (byLane w.out ++ byLane w.refOut),
    dSum := digestCrc w.sumOut.flatten, dLaw := dLaw, dRefIn := if top then dLaw else digestCrc (byLane w.refIn),
    misses := (c.map (·.misses)).getD 0, bankCrc := bankCrc s, caddyCrc := (img.map digestCrc).getD 0, caddyPeriod := low 32 s.red.caddyK,
    checkEnd := low 32 ((c.map (·.last)).getD 0) }

/-- Every output of the period has gone and its law outputs have committed (R210). -/
def workDone (w : PeriodWork) (s : State) : Bool :=
  w.ended || ((if (allGroups s).isEmpty then (slotsHere s).all fun j => w.launched.contains j else w.apportioned) && (isApex s || w.sumSent)
    && (!(evaluates s) || (aget s.red.dLaw w.k).isSome))

/-- The oldest period whose DIGEST has not gone. -/
def digestDue (s : State) : Option PeriodWork := oldest (fun w => match pair? w.k s with | some p => p.own.isNone && !p.done | none => true) s

/-- The DIGEST of the oldest such period goes (R209, R210, R213, R217). -/
def digestSend (s : State) : State :=
  if !isNode s || !isDuplex s then s
  else match digestDue s with
  | none => s
  | some w =>
    let s := if workDone w s then s else advVt (eOf w.k s - gOf w.k s) s
    let s := match s.red.check with | some c => if c.last ≤ w.k then setVerdict s else s | none => s
    let s := if (aget s.red.images w.k).isNone then caddyCapture w.k s else s
    let d := digestOf w s
    let s := updRed (fun r => { r with check := r.check.map (fun c => { c with sent := c.sent || d.verdict != 0 }),
                                       lastCheck := none }) s
    let s := sendFrame 7 0 true (nodeAddr (nodeNum s)) (!sideB s) true false (.digest d) [peerLane s] s
    tryDecide (comparePair w.k (updPair w.k (fun p => { p with own := some d }) s))

/-- DIGEST_LAUNCH (R210). -/
def execDigestLaunch (s : State) : Host.Outcome State Fault Refusal := ok (digestSend s)

/-- In-step count after an image of the leader is complete (R217). -/
def instepCount (same : Bool) (s : State) : State := if same then setInstep (rd O.RED_INSTEP_RUN s + 1) s else setInstep 0 s

/-- A leader's image of no bytes is complete with its DIGEST (R217, DEDUCED). -/
def emptyImage (k : Nat) (d : Digest) (s : State) : State :=
  if rd O.RED_CADDY_SIZE s == 0 && caddySends s && roleFor k s == 2 then
    instepCount (d.caddyCrc == 0) (updRed (fun r => { r with caddyK := k }) s)
  else s

/-- A DIGEST of the duplicate taken (R203, R210, R213, R214, R221). -/
def digestTake (d : Digest) (s : State) : State :=
  let k := periodOf32 d.period s
  let s := wr O.RED_PEER_CLAIM d.claim (updRed (fun r => { r with
    digestAt := some s.tick, peerState := d.state,
    peerPrimaryB := if isApex s then some d.primaryB else none }) s)
  let primaryDiff : Bool := isApex s && d.primaryB != (rd O.RED_PRIMARY_SIDE s == 1)
  let s := configLive (primaryDiff || (hasGraph s && d.bankCrc != 0 && d.bankCrc != bankCrc s)) s
  let s := match pair? k s with
    | some p => if p.done then s else updPair k (fun p => { p with peer := some d }) s
    | none => updPair k (fun p => { p with peer := some d }) s
  let s := comparePair k s
  let s := if d.checking && mayCheck s && s.red.lastEnd < k then startCheck (k + 1) s else s
  let s := onlyIf (d.verdict != 0 && s.red.check.isSome) (updRed fun r => { r with peerVerdict := some (d.verdict, d.misses, periodOf32 d.checkEnd s) }) s
  redEval (emptyImage k d (tryDecide s))

/-- A DIGEST arrives; in SIMPLEX it raises the configuration source (R219). -/
def digestArrive (d : Digest) (s : State) : State :=
  if !isNode s then s
  else if isDuplex s then digestTake d s
  else configLive false (updRed (fun r => { r with simplexAt := some s.tick }) s)

/-- DIGEST_RX (R210, R213, R214, R219). -/
def execDigestRx (d : Digest) (s : State) : Host.Outcome State Fault Refusal := ok (digestArrive d s)

/-- E(k+1) of the oldest period whose DIGEST went and was not compared: the duplicate's is missing (R210). -/
def digestMissing (s : State) : State :=
  if !isNode s || !isDuplex s then s
  else match s.red.pairs.reverse.find? (fun p => !p.done && p.own.isSome && p.peer.isNone) with
  | some p => updPair p.k (fun x => { x with done := true }) (bump O.RED_DIGEST_MISSING (advVt (eOf (p.k + 1) s) s))
  | none => s

/-- DIGEST_DEADLINE (R210). -/
def execDigestDeadline (s : State) : Host.Outcome State Fault Refusal := ok (digestMissing s)

/-- The check window has ended: this side has its verdict (R213). -/
def windowEnd (s : State) : State :=
  match s.red.check with
  | some c => tryDecide (setVerdict (advVt (pOf (c.last + 1) s) s))
  | none => s

/-- CHECK_WINDOW_END (R213). -/
def execCheckWindowEnd (s : State) : Host.Outcome State Fault Refusal := ok (windowEnd s)

/-- No duplicate's verdict by E(CHECK_END + 1): this side decides alone (R214, R218). -/
def verdictTimeout (s : State) : State :=
  match s.red.check with
  | none => s
  | some c =>
    if s.red.peerVerdict.isSome then s
    else
      let s := setVerdict (advVt (eOf (c.last + 1) s) s)
      let fail : Bool := rd O.RED_VERDICT s == 2
      let c := s.red.check.getD c
      let s := bump O.RED_CHECK_INCOMPLETE (endCheck c (if fail then 1 else 0) s)
      if fail then decided 2 (c.last + rd O.RED_XOVER_LEAD s) s else s

/-- CHECK_VERDICT_TIMEOUT (R214). -/
def execCheckVerdictTimeout (s : State) : Host.Outcome State Fault Refusal := ok (verdictTimeout s)

/-- The lane of the next INPUTS or CADDY frame, and the state after its choice (R208). -/
def mirrorLane (s : State) : Nat × State :=
  if inL5 laneP0 s && inL5 laneP1 s then
    (if s.red.nextP1 then laneP1 else laneP0, updRed (fun r => { r with nextP1 := !r.nextP1 }) s)
  else (peerLane s, s)

/-- A MIRROR frame to the duplicate on the lane that is next. -/
def sendMirror (typ : Nat) (p : Pay) (s : State) : State :=
  let l := mirrorLane s
  sendFrame 7 typ true (nodeAddr (nodeNum s)) (!sideB s) true false p [l.1] l.2

/-- The INPUTS frames of a waiting period (R211, Table 7.7). -/
def inputFrames (w : LawWait) (n : Nat) : List Inputs :=
  (List.range (ceilDiv n 128)).map fun f =>
    { period := low 32 w.k, first := 128 * f,
      words := (List.range (min 128 (n - 128 * f))).map fun j => low 17 ((aget w.adc (128 * f + j)).getD 0) }

/-- The leader sends its inputs of the latest P-mark (R211). -/
def inputsLaunch (s : State) : State :=
  match s.law.waits.getLast? with
  | some w =>
    if hasGraph s && isDuplex s && w.role == 1 then
      let s := updLaw (fun l => { l with waits := l.waits.map fun x => x.fill s }) s
      let s := each (inputFrames (w.fill s) (rd O.LAW_INPUTS s)) (fun f => sendMirror 1 (.inputs f)) s
      each [laneP0, laneP1] startTx (updRed (fun r => { r with inputsK := w.k }) s)
    else s
  | none => s

/-- INPUTS_SEND (R211). -/
def execInputsSend (s : State) : Host.Outcome State Fault Refusal := ok (inputsLaunch s)

/-- The leader's words of a period taken (R211). -/
def inputsArrive (p : Inputs) (s : State) : State :=
  if isNode s && isDuplex s then
    let k := periodOf32 p.period s
    let l := (List.range p.words.length).foldl (fun m j => aset m (p.first + j) (p.words.getD j 0)) ((aget s.red.inputs k).getD [])
    updRed (fun r => { r with inputs := byPeriod k l r.inputs }) s
  else s

/-- INPUTS_RX (R211). -/
def execInputsRx (p : Inputs) (s : State) : Host.Outcome State Fault Refusal := ok (inputsArrive p s)

/-- A CADDY frame still waits or is being sent on a peer lane. -/
def caddyBusy (s : State) : Bool :=
  [laneP0, laneP1].any fun n =>
    let l := lane n s
    (l.q ++ l.cur.toList ++ l.susp).any TxItem.isCaddy

/-- The fragments of an image (Table 7.7). -/
def caddyParts (k : Nat) (img : List Nat) : List CaddyPart :=
  (List.range (ceilDiv img.length 512)).map fun f => { period := low 32 k, first := 512 * f, bytes := (img.drop (512 * f)).take 512 }

/-- The latest period whose DIGEST has gone and whose image waits to be sent. -/
def imageDue (s : State) : Option (Nat × List Nat) :=
  s.red.images.find? fun e => s.red.sentK < e.1 && (match pair? e.1 s with | some p => p.own.isSome | none => false)

/-- The leader sends its image after its DIGEST; a frame starts when R211 lets it (R211, R217). -/
def caddyLaunch (s : State) : State :=
  if !isNode s || !isDuplex s || !caddySends s || caddyBusy s then s
  else match imageDue s with
  | some (k, img) =>
    if roleFor k s != 1 then s
    else each (caddyParts k img) (fun f => sendMirror 2 (.caddy f)) (updRed (fun r => { r with sentK := k, caddyK := k }) s)
  | none => s

/-- CADDY_SEND (R217). -/
def execCaddySend (s : State) : Host.Outcome State Fault Refusal := ok (caddyLaunch s)

/-- Bytes received of an image, contiguous from its start. -/
def gathered : Nat → List (Nat × List Nat) → List Nat → List Nat
  | 0, _, acc => acc
  | n + 1, l, acc => match aget l acc.length with | some b => if b.isEmpty then acc else gathered n l (acc ++ b) | none => acc

/-- CADDY_CRC of the leader for period k, where its DIGEST has come. -/
def leadCrc (k : Nat) (s : State) : Option Nat := (pair? k s).bind fun p => p.peer.map (·.caddyCrc)

/-- A complete image of the leader: compared with the own one, and kept to be applied (R217). -/
def caddyComplete (k : Nat) (img : List Nat) (s : State) : State :=
  let own := (aget s.red.images k).map digestCrc
  let s := instepCount (own.isSome && own == leadCrc k s) s
  updRed (fun r => { r with rx := none, ready := some (k, img) }) s

/-- An image of another size is discarded (R217). -/
def caddyReject (k : Nat) (s : State) : State :=
  bump O.RED_CADDY_REJECT (updRed (fun r => { r with
    rx := none, lostK := some k, ready := match r.ready with | some x => if x.1 == k then none else some x | none => none }) s)

/-- A part of the leader's image of period k (R217). A part of fewer than 512 bytes ends the image; where none does, it ends where its bytes have the leader's CADDY_CRC (log entry 70). -/
def caddyPart (k : Nat) (c : CaddyPart) (s : State) : State :=
  let size := rd O.RED_CADDY_SIZE s
  let last := c.first + c.bytes.length
  if last > size || (c.bytes.length < 512 && last != size) then caddyReject k s
  else if s.red.ready.any fun x => k ≤ x.1 then s
  else
    let old := match s.red.rx with | some r => if r.k == k then r.parts else [] | none => []
    let parts := aset old c.first c.bytes
    let img := gathered 16 parts []
    let ends : Bool := (leadCrc k s) == some (digestCrc img)
    if img.length == size && (size % 512 != 0 || (leadCrc k s).isNone || ends) then caddyComplete k img s
    else if ends && !img.isEmpty then caddyReject k s
    else updRed (fun r => { r with rx := some { k := k, parts := parts } }) s

/-- A CADDY frame arrives (R217). -/
def caddyArrive (c : CaddyPart) (s : State) : State :=
  let k := periodOf32 c.period s
  if !isNode s || !isDuplex s || roleFor k s != 2 || s.red.lostK == some k || k ≤ s.red.caddyK then s
  else
    let s := match s.red.rx with | some r => if r.k < k then caddyLate r.k s else s | none => s
    if s.red.rx.any fun r => k < r.k then s
    else if hasGraph s && k < s.red.evalK then caddyLate k s
    else caddyPart k c s

/-- CADDY_RX (R217). -/
def execCaddyRx (c : CaddyPart) (s : State) : Host.Outcome State Fault Refusal := ok (caddyArrive c s)

/-- A write of entry n of the caddy list (R216). -/
def writeCaddyList (n v : Nat) (s : State) : Res :=
  if n ≥ 32 then (stNoObject, s)
  else writeBy (O.RED_CADDY_LIST n) v (stIf (servesAny s)) (fun s => done (caddyCheck (wr (O.RED_CADDY_LIST n) v s))) s

/-- RED_CADDY_LIST (R216). -/
def execRedCaddyList (n v : Nat) (s : State) : Host.Outcome State Fault Refusal := ok (finish (writeCaddyList n v s))

/-- KIND of downlink k in the own record, and its DETAIL (Table 7.10). -/
def wiringOf (k : Nat) (s : State) : Nat × Nat :=
  match aget s.tree.pistes k, aget s.tree.kids k with
  | some n, _ => (1, n)
  | none, some n => (2, n)
  | none, none => (0, 0)

/-- The own WIRING record (Table 7.10). -/
def ownWiring (s : State) : Wiring :=
  { node := nodeNum s, level := rd O.TREE_LEVEL s, kinds := downlinks.map fun k => (wiringOf k s).1, details := downlinks.map fun k => (wiringOf k s).2 }

/-- The record goes to the duplicate, every 100 ms (R220). -/
def wiringLaunch (s : State) : State :=
  if !isNode s || !isDuplex s || rd O.TREE_ENUM_STATUS s != 2 then s
  else
    let s := match s.red.wiringAt with | some t => advTo (t + ms 100) s | none => s
    let s := updRed (fun r => { r with wiringAt := some s.tick }) s
    sendFrame 7 3 true (nodeAddr (nodeNum s)) (!sideB s) true false (.wiring (ownWiring s)) [peerLane s] s

/-- WIRING_SEND (R220). -/
def execWiringSend (s : State) : Host.Outcome State Fault Refusal := ok (wiringLaunch s)

/-- RED_WIRING_DIFF from the two records (R220). -/
def wiringDiff (a b : Wiring) : Nat :=
  if a.node != b.node || a.level != b.level then 2 ^ 64 - 1
  else (downlinks.filter fun k => a.kinds.getD k 0 != b.kinds.getD k 0 || a.details.getD k 0 != b.details.getD k 0).foldl (fun x k => x + 2 ^ k) 0

/-- The duplicate's record arrives: the difference, the source, and the report to the apex (R220). -/
def wiringArrive (w : Wiring) (s : State) : State :=
  if !isNode s || !isDuplex s || rd O.TREE_ENUM_STATUS s != 2 then s
  else
    let first : Bool := s.red.peerWiring.isNone
    let d := wiringDiff (ownWiring s) w
    let old := rd O.RED_WIRING_DIFF s
    let s := updWiring (wr O.RED_WIRING_DIFF d (updRed (fun r => { r with peerWiring := some w }) s))
    if isApex s then wrBit O.RED_WIRING_NODES 0 (d != 0) s
    else if first || d != old then sendToNode 5 2 0 (sideB s) (.nreport (.wiring d)) s else s

/-- WIRING_RX (R220). -/
def execWiringRx (w : Wiring) (s : State) : Host.Outcome State Fault Refusal := ok (wiringArrive w s)

end Sys2Proof.Machine
end

