-- ==== Sys2Proof/Machine/Ket.lean ====
section
/-! DEFINITION. The commands of the kettle (chapter 10). -/
namespace Sys2Proof.Machine

/-- A detecting block drives source n into fault (R267, R269); in a cell, sources 0 to 16 are the faults of Table 3.6 and react as such. -/
def ketRise (n data : Nat) (s : State) : State :=
  if isCell s && n ≤ 16 then (if isLive n s then s else readyEval (celFaults [(n, true)] (gatesNow s))) else setLive n true data s

/-- KETTLE_SOURCE_RISE (R269, R272, R274). -/
def execKettleSourceRise (n data : Nat) (s : State) : Host.Outcome State Fault Refusal := ok (ketRise n data s)

/-- The fault of source n ends; setLive keeps LIVE while the path is broken (R268, R269). -/
def ketFall (n : Nat) (s : State) : State :=
  if isCell s && n ≤ 16 then endFault n s else setLive n false 0 s

/-- KETTLE_SOURCE_FALL (R269, R273). -/
def execKettleSourceFall (n : Nat) (s : State) : Host.Outcome State Fault Refusal := ok (ketFall n s)

/-- A code of 0b00 or 0b11 has lasted 4 CTRL cycles on source n, or has ended (R268); the detection instant is that of its first cycle (R269). -/
def ketBroken (n : Nat) (on : Bool) (s : State) : State :=
  if !srcExists s.straps n then s
  else if on then
    if s.ket.broken.contains n then s
    else
      let s := updKet (fun t => { t with broken := t.broken ++ [n] }) s
      let s := bump O.KET_PATH_BROKEN (wrBit (O.KET_SRC_STATUS n) 2 true s)
      setLive 225 true n (setPath n true (instNow s - 4 * 163840) s)
  else
    let s := updKet (fun t => { t with broken := t.broken.filter (· != n) }) s
    let s := setPath n (s.ket.cond.contains n) (instNow s) (wrBit (O.KET_SRC_STATUS n) 2 false s)
    if s.ket.broken.isEmpty then setLive 225 false n s else s

/-- KETTLE_BROKEN_PATH (R268). -/
def execKettleBrokenPath (n : Nat) (on : Bool) (s : State) : Host.Outcome State Fault Refusal := ok (ketBroken n on s)

/-- KET_ESC_TIME of source n has run (R274). -/
def ketEscTime (n : Nat) (s : State) : State :=
  match (kSrc n s).escAt with
  | some t => escalate setLive n (advTo t s)
  | none => s

/-- KETTLE_ESCALATE_TIME (R274). -/
def execKettleEscalateTime (n : Nat) (s : State) : Host.Outcome State Fault Refusal := ok (ketEscTime n s)

/-- A write of KET_CLEAR (R276): [63:32] EXPECT, [16] CHECK, [15:0] SOURCE. -/
def writeKetClear (v : Nat) (s : State) : Res :=
  let src := fld v 15 0
  let bad := 255 < src && src != 0xFFFF
  writeBy O.KET_CLEAR v 0 (fun s =>
    if bad then (stRange, s)
    else
      let l := if src == 0xFFFF then (List.range 256).filter s.ket.latched.contains else [src]
      let r := clearSources l (if bit v 16 then some (fld v 63 32) else none) s
      (stIf r.1, r.2)) s

/-- KET_CLEAR (R276). -/
def execKetClear (v : Nat) (s : State) : Host.Outcome State Fault Refusal := ok (finish (writeKetClear v s))

/-- The counters KET_CMD CLEAR_COUNTERS sets to 0 (R295). -/
def ketCounters : List Nat :=
  (List.range 256).flatMap (fun n => [O.KET_SRC_COUNT n, O.KET_SRC_SUPPRESSED n])
    ++ (List.range 13).flatMap (fun c => [O.KET_CLASS_SUPPRESSED c, O.KET_CLASS_DROPPED c, O.KET_CLASS_LOGGED c])
    ++ [O.KET_CLEAR_REFUSED, O.KET_PATH_BROKEN, O.KET_RX_GAP]

/-- A write of KET_CMD. -/
def writeKetCmd (v : Nat) (s : State) : Res :=
  writeBy O.KET_CMD v 0 (fun s => done (wr O.KET_Q_PEAK s.ket.queue.length (clearAll ketCounters s))) s

/-- KET_CMD_CLEAR_COUNTERS (R295). -/
def execKetCmdClearCounters (s : State) : Host.Outcome State Fault Refusal := ok (finish (writeKetCmd 2 s))

/-- A token comes to the bucket of source n, or buys the SUPPRESSED event (R278). -/
def ketRefill (n : Nat) (s : State) : State :=
  let k := kSrc n s
  match k.refill with
  | none => s
  | some t =>
    let s := advTo t s
    let cap := rd O.KET_BURST s
    if rdBit (O.KET_SRC_STATUS n) 4 s then
      let s := setKSrc { k with lost := 0, refill := some (t + ms (rd O.KET_REFILL s)) } (wrBit (O.KET_SRC_STATUS n) 4 false s)
      queueEvent 5 n (srcClass n) (instNow s) k.lost k.data s
    else
      let tok := min cap (k.tokens + 1)
      setKSrc { k with tokens := tok, refill := if tok < cap then some (t + ms (rd O.KET_REFILL s)) else none } s

/-- KETTLE_TOKEN_REFILL (R278). -/
def execKettleTokenRefill (n : Nat) (s : State) : Host.Outcome State Fault Refusal := ok (setLive 226 (s.ket.dropped != 0) 0 (ketRefill n s))

/-- The lane an EVENTS frame takes: the uplink of the side obeyed, or the other in a cell (R158, R280); the uplink in a node. -/
def eventsLane (s : State) : Nat :=
  if isNode s then upLane s
  else
    let first := if rd O.RED_OBEYED s == 1 then laneU1 else laneU0
    if inL5 first s then first else if first == laneU0 then laneU1 else laneU0

/-- Send up to seven queued events in one frame when the gap has run and the queue has room (R280). -/
def eventsSend (s : State) : State :=
  let n := min 7 s.ket.queue.length
  let lane := eventsLane s
  if isApex s || n == 0 || !inL5 lane s then s
  else
    let s := match s.ket.lastFrame with | some t => advTo (t + us (rd O.KET_TX_GAP s)) s | none => s
    if !queueRoom lane 4 (32 * (n + 1)) false s then s
    else
      let side := if isNode s then sideB s else rd O.RED_OBEYED s == 1
      let fseq := low 32 (s.ket.fseq + 1)
      let p : Pay := .events { fseq := fseq, entries := s.ket.queue.take n }
      let s := sendFrame 4 0 false (nodeAddr 0) side true false p [lane] s
      queueShrunk (updKet (fun t => { t with queue := t.queue.drop n, fseq := fseq, lastFrame := some s.tick }) s)

/-- EVENTS_FRAME_SEND (R280). -/
def execEventsFrameSend (s : State) : Host.Outcome State Fault Refusal := ok (eventsSend s)

/-- An entry from the tree placed in the apex queue; it is charged to no bucket (R281). -/
def placeEvent (e : Event) (s : State) : State :=
  let n := s.ket.queue.length
  if (6 ≤ e.kind && n ≥ 4096) then bump (O.KET_CLASS_DROPPED 9) s
  else if e.kind < 6 && n ≥ 4080 then bump (O.KET_CLASS_DROPPED e.cls) (updKet (fun t => { t with dropped := t.dropped + 1 }) s)
  else
    let s := updKet (fun t => { t with queue := t.queue ++ [e] }) s
    bump (O.KET_CLASS_LOGGED e.cls) (wr O.KET_Q_PEAK (max (rd O.KET_Q_PEAK s) (n + 1)) (wr O.KET_Q_FILL (n + 1) s))

/-- The apex receives an EVENTS frame of an originator (R281); an FSEQ behind the latest one is that of an originator that has started anew. -/
def eventsRx (src : Nat) (side : Bool) (e : Events) (s : State) : State :=
  if !isApex s then s
  else
    let gap := match aget s.ket.rxFseq (src, side) with
      | some last => let d := (e.fseq + 2 ^ 32 - last - 1) % 2 ^ 32
        if d < 2 ^ 31 then d else 0
      | none => 0
    let s := bumpN gap O.KET_RX_GAP s
    let s := updKet (fun t => { t with rxFseq := aset t.rxFseq (src, side) e.fseq }) s
    let s := each e.entries placeEvent s
    if s.ket.dropped != 0 then setLive 226 true 0 s else s

/-- EVENTS_RX (R281). -/
def execEventsRx (src : Nat) (side : Bool) (e : Events) (s : State) : Host.Outcome State Fault Refusal := ok (eventsRx src side e s)

/-- A write of KET_Q_POP (R281, R295). -/
def writeKetQPop (v : Nat) (s : State) : Res :=
  writeBy O.KET_Q_POP v (stIf s.ket.queue.isEmpty) (fun s => done (queueShrunk (updKet (fun t => { t with queue := t.queue.drop 1 }) s))) s

/-- KET_Q_POP (R281). -/
def execKetQPop (v : Nat) (s : State) : Host.Outcome State Fault Refusal := ok (finish (writeKetQPop v s))

end Sys2Proof.Machine
end

