-- ==== Sys2Proof/Machine/OpsTsk.lean ====
section
/-! DEFINITION. Enabling, disabling and ending tasks, the dispatcher tick, period releases and deadlines (R300 to R311). -/
namespace Sys2Proof.Machine

/-- The place of a task's object among the pairs of indices of Table 11.8: index of the pair and task number. -/
def taskObj (k : Nat) : Option (Nat × Nat) :=
  let i := k / 256
  let sub := k % 256
  if 0xA100 ≤ i && i ≤ 0xA12B && 1 ≤ sub && sub ≤ 128 then some (i / 2 * 2, i % 2 * 128 + sub - 1) else none

/-- Whether a write of v to a per-task object is admitted: system tasks' objects are read-only, and configuration is written while the task is DORMANT (R300). -/
def taskGuard (k v : Nat) (s : State) : Nat :=
  match taskObj k with
  | none => stOk
  | some (i, n) =>
    if n < 16 then stAccess
    else if taskState n s != 0 then stState
    else if i == 0xA106 && isCell s && v != 1 then stRange
    else if i == 0xA100 && !(0x10000000 ≤ v && v < 0x10000000 + (if isCell s then 0x80000 else 0x200000)) then stRange
    else stOk

/-- The dispatcher's tick number now: ticks of TSK_TICK since counter value 0 (R307). -/
def tickNo (s : State) : Nat := s.tick / max (rd O.TSK_TICK s) 1

/-- The release interval of a PERIOD or TICK task in TIME ticks (R303). -/
def relInterval (n : Nat) (s : State) : Nat :=
  match rd (O.TSK_KIND n) s with
  | 1 => rd (O.TSK_DIV n) s * tOf (kNow s) s
  | 2 => rd (O.TSK_INTERVAL n) s * rd O.TSK_TICK s
  | _ => 0

/-- An address range with the size given; a stack pointer may stand at its upper end. -/
def stackIn (a base size : Nat) : Bool := base ≤ a && a ≤ base + size

/-- ENABLE of task n is refused (R300, R301). -/
def enableRefused (n : Nat) (s : State) : Bool :=
  let e := rd (O.TSK_ENTRY n) s
  let sp := rd (O.TSK_STACK n) s
  let kind := rd (O.TSK_KIND n) s
  n < 16 || kind == 0
    || !(e % 2 == 0 && 0x10000000 ≤ e && e < 0x10000000 + (if isCell s then 0x80000 else 0x200000))
    || !(sp % 4 == 0 && (stackIn sp 0x28000000 0x10000 || stackIn sp 0x20000000 (if isCell s then 0x80000 else 0x400000)))
    || rd (O.TSK_PHASE n) s ≥ rd (O.TSK_DIV n) s || rd (O.TSK_OFFSET n) s ≥ rd O.TIM_PERIOD s
    || (kind != 3 && relInterval n s < rd (O.TSK_DEADLINE n) s) || rd O.TSK_COMMIT_FREE s < rd (O.TSK_COMMIT_MAX n) s

/-- Task n becomes IDLE with its next release computed (Table 11.3, DORMANT). -/
def enableTask (n : Nat) (s : State) : State :=
  if taskState n s != 0 then s else
  let kind := rd (O.TSK_KIND n) s
  let k := relPeriodFrom n (kNow s) s
  let passed : Bool := hasGrid s && k == kNow s && relAt n k s < vtTicks s
  let t : TaskRec := { n := n, rel := s.tick, entry := rd (O.TSK_ENTRY n) s, stack := rd (O.TSK_STACK n) s, wake := none, buf := [],
                       nextTick := if kind == 2 then some (tickNo s + rd (O.TSK_INTERVAL n) s) else none,
                       lastK := if kind == 1 && passed then some k else none }
  let s := { s with tsk := { s.tsk with tasks := insKey n t ((s.tsk.tasks.filter fun x => x.n != n).map fun x => (x.n, x)) |>.map (·.2) } }
  setTaskState n 1 (wr O.TSK_COMMIT_FREE (rd O.TSK_COMMIT_FREE s - rd (O.TSK_COMMIT_MAX n) s) s)

/-- The core that runs task n. -/
def coreOf (n : Nat) (s : State) : Option Nat := (List.range 8).find? fun c => coreTask c s == n

/-- Task n leaves its core, its slot and the queues. -/
def offCores (n : Nat) (s : State) : State :=
  let s := match coreOf n s with | some c => coreStop c s | none => s
  let s := match deckOf n s with | some c => wr (O.TSK_CORE_ONDECK c) 0xFFFF s | none => s
  deq n s

/-- The active instance of task n has ended: IDLE, and released again at once if PENDING (R302, R304). -/
def endInstance (n : Nat) (s : State) : State :=
  let s := setTaskState n 1 (updTask n (fun t => { t with wake := none, buf := [] }) (offCores n s))
  if taskPending n s then release n (setTaskPending n false s) else s

/-- An abort under R308 without the dispatcher pass; cause of TSK_LAST_CAUSE. -/
def abortTask (n cause : Nat) (s : State) : State :=
  if taskState n s < 2 then s else
  let s := match cause with | 1 => bump (O.TSK_OVERRUNS n) s | 2 => bump (O.TSK_FAULTS n) s | _ => s
  let s := wr (O.TSK_LAST_CAUSE n) cause s
  let s := if cause == 5 then s else bump (O.TSK_COMMIT_DROPPED n) s
  let s := endInstance n s
  if cause == 5 then s else pulse 231 n s

/-- An abort with its dispatcher pass (R308). -/
def abortAndDispatch (n cause : Nat) (s : State) : State := if taskState n s < 2 then s else dispatch (abortTask n cause s)

/-- DISABLE of task n: abort without a counter, allotment returned (Table 11.3). -/
def disableTask (n : Nat) (s : State) : State :=
  if taskState n s == 0 then s else
  let s := setTaskPending n false s
  let s := wr (O.TSK_LAST_CAUSE n) 5 (abortTask n 5 s)
  let s := wr O.TSK_COMMIT_FREE (rd O.TSK_COMMIT_FREE s + rd (O.TSK_COMMIT_MAX n) s) (setTaskState n 0 (offCores n s))
  dispatch { s with tsk := { s.tsk with tasks := s.tsk.tasks.filter fun t => t.n != n } }

/-- SIGNAL release of task n: it acts on an enabled task bound to the SIGNAL source (R303, R304). -/
def signalTask (n : Nat) (s : State) : State :=
  if rd (O.TSK_KIND n) s == 3 && rd (O.TSK_EVENT n) s == 0 && taskState n s != 0 then dispatch (release n s) else s

/-- The counters of this chapter set to 0, per core and per task (R313); the busy clock starts anew, and TSK_RESP_MAX, a greatest value, stays. -/
def clearTaskCounters (s : State) : State :=
  let s := clearAll ((List.range 8).flatMap fun c => [O.TSK_ONDECK_HITS c, O.TSK_ONDECK_MISSES c, O.TSK_CORE_BUSY c]) s
  let s := each (List.range 8) (fun c s => updPort c (fun p => { p with busySince := p.busySince.map fun _ => s.tick }) s) s
  let own : List (Nat × Nat) := s.objs.filter fun e =>
    match taskObj e.1 with
    | some (i, _) => !(0xA11C ≤ i && i ≤ 0xA126)
    | none => true
  { s with objs := own }

/-- Why a write of TSK_CMD is refused (R300, R301). -/
def tskCmdGuard (v : Nat) (s : State) : Nat :=
  let n := v / 256
  match v % 256 with
  | 1 => stIf (taskState n s == 0 && enableRefused n s || n < 16)
  | 2 => stIf (n < 16)
  | _ => stOk

/-- A write of TSK_CMD: task in [15:8], command in [7:0] (R301, R302, R303, R313). -/
def writeTskCmd (v : Nat) (s : State) : Res :=
  writeBy O.TSK_CMD v (tskCmdGuard v s) (fun s =>
    let n := v / 256
    match v % 256 with
    | 1 => done (enableTask n s)
    | 2 => done (disableTask n s)
    | 3 => done (signalTask n s)
    | 4 => done (clearTaskCounters s)
    | _ => (stRange, s)) s

/-- Why a write of TSK_TICK is refused: an application task is not DORMANT (R307). -/
def tskTickGuard (s : State) : Nat := stIf (s.tsk.tasks.any fun t => 16 ≤ t.n && taskState t.n s != 0)

/-- The deadline of the active instance of task n as a counter value (R308). -/
def deadlineAt (t : TaskRec) (s : State) : Option Nat :=
  let n := t.n
  let d := rd (O.TSK_DEADLINE n) s
  match rd (O.TSK_KIND n) s with
  | 3 => if d == 0 then none else some (t.rel + d)
  | 1 =>
    let d := if d == 0 then relInterval n s else d
    some (min (t.rel + d) (tickOfVt (relAt n (nextRelPeriod n s) s) s))
  | _ => some (t.rel + (if d == 0 then relInterval n s else d))

/-- One entry of the list sorted by wake tick leaves it at a tick: a TICK task is released, aborted first where it is still active; a DELAY entry becomes READY (R307, R311). -/
def tickEntry (n : Nat) (tickRelease : Bool) (s : State) : State :=
  if tickRelease then
    let s := updTask n (fun t => { t with nextTick := t.nextTick.map (· + rd (O.TSK_INTERVAL n) s) }) s
    release n s
  else if taskState n s == 5 then enqTail n (setTaskState n 2 (updTask n (fun t => { t with wake := none }) s)) else s

/-- The entries due at tick number d: wake tick, task, whether it is a TICK release; in list order. -/
def dueEntries (d : Nat) (s : State) : List (Nat × Nat × Bool) :=
  let l := s.tsk.tasks.flatMap fun t =>
    (match t.nextTick with | some x => if x ≤ d then [(x, t.n, true)] else [] | none => [])
      ++ (match t.wake with | some x => if x ≤ d then [(x, t.n, false)] else [] | none => [])
  sortBy (fun a b => a.1 < b.1 || (a.1 == b.1 && a.2.1 ≤ b.2.1)) l

/-- A dispatcher tick (R307, R311): aborts first, then the due entries, then one pass. -/
def dispatcherTick (s : State) : State :=
  let w := max (rd O.TSK_TICK s) 1
  let s := advTo ((s.tick / w + 1) * w) s
  let due := dueEntries (tickNo s) s
  let s := each due (fun e s => if e.2.2 && taskState e.2.1 s ≥ 2 then abortTask e.2.1 1 s else s) s
  let s := each due (fun e s => tickEntry e.2.1 e.2.2 s) s
  if due.isEmpty then s else dispatch s

/-- The PERIOD release of task n (R303, R304, R311). -/
def periodRelease (n : Nat) (s : State) : State :=
  if !(taskState n s != 0 && rd (O.TSK_KIND n) s == 1 && hasGrid s) then s else
  let k := nextRelPeriod n s
  let s := advVt (relAt n k s) s
  let s := if taskState n s ≥ 2 then abortTask n 1 s else s
  dispatch (release n (updTask n (fun t => { t with lastK := some k }) s))

/-- A task whose release comes within TSK_PREFETCH is loaded into a slot (R306). -/
def lookAhead (n : Nat) (s : State) : State :=
  if taskState n s != 1 then s else
  match nextRelease n s with
  | none => s
  | some t => fillDecks (advTo (t - rd O.TSK_PREFETCH s) s)

/-- A task instance on core c waits n dispatcher ticks (Table 11.2, Table 11.3). -/
def delayTask (c n : Nat) (s : State) : State :=
  let t := coreTask c s
  if t == 0xFFFF || n == 0 || n ≥ 2 ^ 24 then s else
  dispatch (setTaskState t 5 (updTask t (fun x => { x with wake := some (tickNo s + n) }) (coreStop c s)))

end Sys2Proof.Machine
end

