-- ==== Sys2Proof/Machine/Saf.lean ====
section
/-! DEFINITION. The commands of the safety unit (chapter 10). -/
namespace Sys2Proof.Machine

/-- SAF_CHANNEL_CHANGE (R283, R284): the functions are evaluated on the latest channel values. -/
def execSafChannelChange (s : State) : Host.Outcome State Fault Refusal := ok (evalFns s)

/-- The channels of function f have differed for SAF_DISC_TIME (R283). -/
def discTime (f : Nat) (s : State) : State :=
  if !isNode s then s
  else match (s.saf.fns.getD f FnSt.init).discAt with
  | some t =>
    let s := advTo (t + ms (rd (O.SAF_DISC_TIME f) s)) s
    if fnState f s == 2 then updPeerDiff (actFn f (setFnState f 3 f s)) else s
  | none => s

/-- SAF_DISCREPANCY_TIME (R283). -/
def execSafDiscrepancyTime (f : Nat) (s : State) : Host.Outcome State Fault Refusal := ok (discTime f s)

/-- SAF_CMD COMMISSION (R285, R294): right is the commissioning right of the session. -/
def cmdCommission (right : Bool) (s : State) : Res :=
  writeBy O.SAF_CMD 1 (if !right then stRights else stIf (servesDeblocked s)) (fun s => done (safState 1 s)) s

/-- COMMISSION (R294). -/
def execSafCommission (right : Bool) (s : State) : Host.Outcome State Fault Refusal := ok (finish (cmdCommission right s))

/-- The live safety set as stored by CONFIRM: the values that differ from their defaults. -/
def safSetOf (s : State) : SafetySet :=
  { vals := (safKeys.map (·.1)).filterMap fun k => if rd k s == objDefault s.straps k then none else some (k, rd k s), check := safCheck s }

/-- SAF_CMD CONFIRM (R294). -/
def cmdConfirm (right : Bool) (s : State) : Res :=
  if right && isNode s && !romRefuses O.SAF_CMD 2 s && !(rd O.SAF_STATE s == 1 && s.saf.confirmVal == safCheck s) then (stState, bump O.SAF_CONFIRM_FAIL s)
  else writeBy O.SAF_CMD 2 (if !right then stRights else 0) (fun s =>
    let set := safSetOf s
    let s := bump O.SAF_CONFIRMS (wr O.SAF_CHECK_STORED set.check (updSaf (fun x => { x with stored := some set }) s))
    done (evalDegrade setLive (safState (if releaseOk s then 2 else 4) s))) s

/-- CONFIRM (R294). -/
def execSafConfirm (right : Bool) (s : State) : Host.Outcome State Fault Refusal := ok (finish (cmdConfirm right s))

/-- The safety set taken from the store, or defaults, and the state as at reset (Table 10.6). -/
def loadSafety (s : State) : State :=
  let s := each (safKeys.map (·.1)) (fun k s => wr k (objDefault s.straps k) s) s
  match s.saf.stored with
  | some set =>
    let s := each set.vals (fun e s => wr e.1 e.2 s) s
    if safCheck s == set.check then evalDegrade setLive (safState 2 (wr O.SAF_CHECK_STORED set.check s))
    else setLive 224 true 0 (safState 0 (each (safKeys.map (·.1)) (fun k s => wr k (objDefault s.straps k) s) s))
  | none => setLive 224 true 0 (safState 0 s)

/-- SAF_CMD ABORT (R285). -/
def cmdAbort (right : Bool) (s : State) : Res :=
  writeBy O.SAF_CMD 3 (if !right then stRights else stIf (rd O.SAF_STATE s != 1)) (fun s => done (loadSafety s)) s

/-- ABORT (R285). -/
def execSafAbort (right : Bool) (s : State) : Host.Outcome State Fault Refusal := ok (finish (cmdAbort right s))

/-- Every other node of the system the apex knows. -/
def otherNodes (s : State) : List Nat := (s.tree.nodes.map (·.num)).filter (· != nodeNum s)

/-- A release notice to every node of the system and to the duplicate apex (R290, R362). -/
def sendRelease (s : State) : State :=
  let p : Pay := .nreport (.release s.saf.rseq)
  let s := each (otherNodes s) (fun n => sendToNode 5 2 n (sideB s) p) s
  sendToNode 5 2 0 (!sideB s) p s

/-- SAF_CMD RELEASE at the apex (R290). -/
def cmdRelease (right : Bool) (s : State) : Res :=
  writeBy O.SAF_CMD 4 (if !right then stRights else stIf (!isApex s)) (fun s =>
    let s := updSaf (fun x => { x with rseq := low 32 (x.rseq + 1), relLeft := 2, relAt := some (s.tick + ms 1) }) s
    let s := tryRelease (sendRelease s)
    (stIf (rd O.SAF_STATE s == 4), s)) s

/-- RELEASE (R290). -/
def execSafRelease (right : Bool) (s : State) : Host.Outcome State Fault Refusal := ok (finish (cmdRelease right s))

/-- The second and third copy of a release notice (R362). -/
def releaseRepeat (s : State) : State :=
  match s.saf.relAt with
  | some t =>
    if s.saf.relLeft == 0 then s
    else
      let s := sendRelease (advTo t s)
      updSaf (fun x => { x with relLeft := x.relLeft - 1, relAt := if x.relLeft == 1 then none else some (t + ms 1) }) s
  | none => s

/-- RELEASE_REPEAT (R362). -/
def execReleaseRepeat (s : State) : Host.Outcome State Fault Refusal := ok (releaseRepeat s)

/-- SAF_CMD RESET_FN (R284). -/
def cmdResetFn (right : Bool) (f : Nat) (s : State) : Res :=
  writeBy O.SAF_CMD (f * 256 + 5) (if !right then stRights else if 7 < f then stRange else stIf (fnState f s != 4))
    (fun s => done (updPeerDiff (setFnState f 1 f s))) s

/-- RESET_FN (R284). -/
def execSafResetFn (right : Bool) (f : Nat) (s : State) : Host.Outcome State Fault Refusal := ok (finish (cmdResetFn right f s))

/-- The degraded timer reaches 0 (R291). -/
def degradedExpiry (s : State) : State :=
  match s.saf.degEnd with
  | some t => if rd O.SAF_STATE s == 3 then degradeExpire setLive (advVt t s) else s
  | none => s

/-- SAF_DEGRADED_EXPIRY (R291). -/
def execSafDegradedExpiry (s : State) : Host.Outcome State Fault Refusal := ok (degradedExpiry s)

/-- No cause for 100 ms (Table 10.6). -/
def degradedRecover (s : State) : State :=
  match s.saf.noCauseAt with
  | some t => if rd O.SAF_STATE s == 3 && !degradeCause s then safState 2 (advTo (t + ms 100) s) else s
  | none => s

/-- SAF_DEGRADED_RECOVER (R285). -/
def execSafDegradedRecover (s : State) : Host.Outcome State Fault Refusal := ok (degradedRecover s)

/-- SAFE_STATUS on P0 and P1 (R292). -/
def safeStatusSend (s : State) : State :=
  if !isNode s || !isDuplex s then s
  else
    let q := low 32 (s.saf.sseq + 1)
    let p : SafeStatus := { sseq := q, state := rd O.SAF_STATE s, blockHeld := !s.saf.causes.isEmpty, urgentHeld := urgentHeld s,
                            check := rd O.SAF_CHECK_STORED s, fnState := rd O.SAF_FN_STATE s, degLeft := degLeft s }
    sendFrame 4 14 true (nodeAddr (nodeNum s)) (!sideB s) true false (.safe p) [laneP0, laneP1] (updSaf (fun x => { x with sseq := q }) s)

/-- SAFE_STATUS_SEND (R292). -/
def execSafeStatusSend (s : State) : Host.Outcome State Fault Refusal := ok (safeStatusSend s)

/-- The duplicate's SAFE_STATUS (R291, R292). -/
def safeStatusRx (p : SafeStatus) (s : State) : State :=
  if !isNode s then s
  else
    let diff := p.check != rd O.SAF_CHECK_STORED s
    let s := updSaf (fun x => { x with peer := some p, peerLast := some s.tick, peerMissing := false, checkDiffers := diff }) s
    evalPeer (updPeerDiff s)

/-- SAFE_STATUS_RX (R292). -/
def execSafeStatusRx (p : SafeStatus) (s : State) : Host.Outcome State Fault Refusal := ok (safeStatusRx p s)

/-- No SAFE_STATUS for SAF_PEER_TIMEOUT (R291, R292). -/
def safPeerTimeout (s : State) : State :=
  if !isNode s || !isDuplex s then s
  else
    let s := advTo (s.saf.peerLast.getD 0 + ms (rd O.SAF_PEER_TIMEOUT s)) s
    evalPeer (updSaf (fun x => { x with peerMissing := true }) s)

/-- SAF_PEER_TIMEOUT (R291). -/
def execSafPeerTimeout (s : State) : Host.Outcome State Fault Refusal := ok (safPeerTimeout s)

/-- A node reports SAF_STATE to its apex (R290). -/
def safStateReport (s : State) : State :=
  if !isNode s || isApex s then s
  else sendToNode 5 2 0 (sideB s) (.nreport (.safState (rd O.SAF_STATE s) s.saf.checkDiffers (rd O.SAF_CHECK_STORED s))) s

/-- SAF_STATE_REPORT (R290). -/
def execSafStateReport (s : State) : Host.Outcome State Fault Refusal := ok (safStateReport s)

/-- A node not heard for 300 ms prevents deblock (R290). -/
def safNodeSilent (n : Nat) (s : State) : State :=
  if !isApex s || n > 63 then s
  else
    let s := advTo ((aget s.saf.nodes n).getD 0 + ms 300) s
    updBlockNodes (updSaf (fun x => { x with nodeBad := aset x.nodeBad n true }) s)

/-- SAF_NODE_SILENT (R290). -/
def execSafNodeSilent (n : Nat) (s : State) : Host.Outcome State Fault Refusal := ok (safNodeSilent n s)

/-- The apex receives SAF_STATE of node n (R290, R362). -/
def reportSafStateRx (n state : Nat) (checkDiffers : Bool) (stored : Nat) (s : State) : State :=
  if !isApex s || n > 63 then s
  else
    let _ := stored
    nodeHeard n (checkDiffers || state == 0 || state == 1 || state == 4) s

/-- REPORT_SAF_STATE_RX (R362). -/
def execReportSafStateRx (n state : Nat) (checkDiffers : Bool) (stored : Nat) (s : State) : Host.Outcome State Fault Refusal :=
  ok (reportSafStateRx n state checkDiffers stored s)

/-- A node acts on the first copy of a release notice; the duplicate apex passes it through its own system (R290, R362). -/
def reportReleaseRx (rseq : Nat) (s : State) : State :=
  if !isNode s || s.saf.rseqSeen == some rseq then s
  else
    let s := updSaf (fun x => { x with rseqSeen := some rseq }) s
    let s := if isApex s then each (otherNodes s) (fun n => sendToNode 5 2 n (sideB s) (.nreport (.release rseq))) s else s
    tryRelease s

/-- REPORT_RELEASE_RX (R362). -/
def execReportReleaseRx (rseq : Nat) (s : State) : Host.Outcome State Fault Refusal := ok (reportReleaseRx rseq s)

end Sys2Proof.Machine
end

