-- ==== Sys2Proof/Machine/OpsPwr.lean ====
section
/-! DEFINITION. Resets and the start-up phases (R385 to R391, R398 to R401, R405). -/
namespace Sys2Proof.Machine

/-- Objects whose value stands in non-volatile memory beside the parameter store: image slots, keys, the health of the part (R372, R378, R392, R399, R405). -/
def keptKeys : List Nat :=
  [O.NVM_STORE_COUNT, O.NVM_BOOT_SLOT, O.NVM_RUN_SLOT, O.NVM_TRIAL, O.SEC_OWNER_STATE, O.SEC_SVN_MIN, O.SEC_IMAGE_KEY, O.SYS_EXHAUSTED, O.SYS_IMPAIRED,
   O.SYS_LEDGER_ENTRIES, O.SYS_TAMPER_COUNT, O.TSK_CORE_MAP, O.TSK_SPARE, O.ADC_SLICE_MAP, O.ADC_SLICE_OUT]
    ++ ([0, 1].flatMap fun i => [O.NVM_SLOT_STATUS i, O.NVM_SLOT_VERSION i, O.NVM_SLOT_SVN i, O.NVM_SLOT_ERROR i])
    ++ ((List.range 8).flatMap fun i => [O.SEC_HOST_KEY i, O.SEC_HOST_RIGHTS i])
    ++ ((List.range 16).flatMap fun c => [O.SYS_SPARES c, O.SYS_SWAPS c])

/-- A store under way when the device resets leaves its copy without a valid CRC. -/
def NvmSt.cut (n : NvmSt) (i : Nat) : NvmSt :=
  let copies := match n.busy with | some (c, _) => n.copies.set i (some { c with good := false }) | none => n.copies
  { n with copies := copies, busy := none, opened := false, eraseEnd := none, held := [], dist := [] }

/-- A reset with the cause given (R387): what stands in NVM, the AON domain, the field island and the test port stay, the rest is as after reset, and reset is held. -/
def dieReset (cause : Nat) (s : State) : State :=
  let f := State.fresh s.straps
  let f := { f with
    pending := s.pending, free := s.free, nvm := s.nvm.cut (olderCopy s), jtag := s.jtag,
    mem := s.mem.filter fun c => 2 ^ 50 ≤ c.1,
    cell := { f.cell with record := s.cell.record },
    saf := { f.saf with stored := s.saf.stored },
    fio := { f.fio with island := s.fio.island },
    sys := { s.sys with cycles := low 32 (s.sys.cycles + 1), ddrBack := none, held := true, cause := cause, wake := false, retryAt := none,
                        lastRows := [], bad := [] } }
  let f := each keptKeys (fun k f => wr k (rd k s) f) f
  let f := wr O.SYS_RESET_CAUSE cause f
  if cause == 3 && isCell f then wr O.CEL_STATE 0 f else f

/-- POWER_ON and WAKE: the required rails rise (R385, R387, R404). -/
def powerOn (s : State) : State :=
  let s' := dieReset (if s.sys.wake then 4 else 0) s
  updSys (fun x => { x with pwrEn := true }) (if isCell s' then wr O.CEL_STATE 0 s' else s')

/-- Latest ends of the phases in us (Table 15.2). -/
def phaseMax (node : Bool) : List Nat := if node then [200, 250, 750, 12750, 14750, 22750, 24750] else [200, 250, 750, 3750, 4250, 6250, 8250]

/-- Phase i has ended: no later than Table 15.2 states. -/
def phaseEnd (inp : BootIn) (t0 i : Nat) (s : State) : State := advTo (t0 + us (min (nth inp.phaseUs i 25000) (nth (phaseMax (isNode s)) i 0))) s

/-- Spares that a map leaves in class c (Table 15.3). -/
def MapBlock.spares (b : MapBlock) (c : Nat) : Nat :=
  match c with
  | 2 => if b.spareCore == 15 then 0 else 1
  | 3 => if fld b.slices 18 16 == 7 then 0 else 1
  | 4 => 16 - maxL (b.rows.map (·.2))
  | 5 => 4 - maxL (b.cols.map (·.2))
  | _ => ((b.maps.find? fun m => m.cls == c).map fun m => m.spares.length).getD 0

/-- A map leaves class c with fewer working instances than Table 15.3 lists; of the SRAM classes no map says it. -/
def MapBlock.short (b : MapBlock) (node : Bool) (c : Nat) : Bool :=
  match c with
  | 2 => node && (List.range 8).any fun l => fld b.cores (4 * l + 3) (4 * l) == 15
  | 3 => (List.range 4).any fun l => fld b.slices (4 * l + 2) (4 * l) == 7
  | _ => (b.maps.find? fun m => m.cls == c).any fun m => m.map.any (·.isNone)

/-- What a map leaves of each class of the role, as the health objects show it (R392). -/
def showSpares (b : MapBlock) (s : State) : State :=
  each (List.range 8) (fun c s =>
    if rd (O.SYS_SPARES c) s == 0xFF then wrBit O.SYS_IMPAIRED c false (wrBit O.SYS_EXHAUSTED c false s)
    else
      let low := if c == 4 || c == 5 then rdBit O.SYS_IMPAIRED c s else b.short (isNode s) c
      wrBit O.SYS_IMPAIRED c low (wrBit O.SYS_EXHAUSTED c (b.spares c == 0) (wr (O.SYS_SPARES c) (b.spares c) s))) s

/-- A map loaded in place of the one last in force (R399). -/
def loadMap (b : MapBlock) (s : State) : State :=
  let s := updSys (fun x => { x with gen := b.gen, maps := b.maps, dead := b.dead, rowsUsed := b.rows, colsUsed := b.cols }) s
  showSpares b (wr O.ADC_SLICE_OUT b.sliceOut (wr O.ADC_SLICE_MAP b.slices (wr O.TSK_SPARE b.spareCore (wr O.TSK_CORE_MAP b.cores s))))

/-- The valid block with the higher generation. -/
def bestBlock (s : State) : Option MapBlock :=
  s.sys.blocks.foldl (fun a b => match a, b with | some x, some y => if x.gen < y.gen then some y else some x | none, y => y | x, none => x) none

/-- Phase 1: the valid block with the higher generation; without one the factory map, and an entry says so (R399). -/
def bootMap (inp : BootIn) (s : State) : State :=
  let s := updSys (fun x => { x with blocks := (List.range 2).map fun i => if inp.badBlocks.contains i then none else x.blocks.getD i none }) s
  match bestBlock s with
  | some b => if b.gen == s.sys.gen then s else loadMap b s
  | none => ledger 0 5 1 1 0 0 0 (loadMap MapBlock.factory s)

/-- Phase 2: the path test of every kettle source; FAULT_N follows R275 from its end (R268, R389). -/
def bootPaths (inp : BootIn) (s : State) : State :=
  let s := updKet (fun k => { k with pathTested := true }) s
  updFaultN (each inp.paths (fun n s => ketBroken n true s) s)

/-- The nine physical cores. -/
def allCores : List Nat := List.range 9

/-- Cores that have not failed. -/
def goodCores (s : State) : List Nat := allCores.filter fun c => !s.sys.dead.contains (2, c)

/-- TSK_CORE_MAP of a list of physical cores by logical number. -/
def coreMapOf (l : List Nat) : Nat := sumL ((List.range 8).map fun c => l.getD c 15 * 16 ^ c)

/-- The logical number of a physical core, 0xFFFF for none. -/
def coreLogical (p : Nat) (s : State) : Nat := ((List.range 8).find? fun c => fld (rd O.TSK_CORE_MAP s) (4 * c + 3) (4 * c) == p).getD 0xFFFF

/-- A core has failed its self-test: mapped out, its place taken by the spare, or counted off as the spare. -/
def coreDead (p : Nat) (s : State) : State :=
  if 9 ≤ p || s.sys.dead.contains (2, p) then s
  else
    let sp := rd O.TSK_SPARE s
    if p == sp then mapOutSpare 2 p 3 1 0 (wr O.TSK_SPARE 15 s)
    else if sp != 15 then mapOut 2 (coreLogical p s) p (some sp) 3 1 0 (wr O.TSK_SPARE 15 s)
    else
      let s := updSys (fun x => { x with dead := addTo x.dead (2, p) }) s
      let s := mapChanged (ledger 2 1 3 1 p (coreLogical p s) 0 s)
      if isNode s then impaired 2 3 1 p (coreLogical p s) s else s

/-- Phase 3: the cores that pass are numbered anew, the highest without a number is the spare (R390). -/
def bootCores (inp : BootIn) (s : State) : State :=
  let s := each inp.cores coreDead s
  let g := goodCores s
  let u := wr O.TSK_SPARE (if g.length == 9 then g.getLastD 15 else 15) (wr O.TSK_CORE_MAP (coreMapOf (g.take 8)) s)
  if mapNow 0 u == mapNow 0 s then u else mapChanged u

/-- Spare rows (class 4) or columns (class 5) per array (Table 15.3). -/
def sramSpares (cls : Nat) : Nat := if cls == 4 then 16 else 4

/-- Spares of a class used in an array. -/
def sramUsed (cls arr : Nat) (s : State) : Nat := getKey 0 arr (if cls == 4 then s.sys.rowsUsed else s.sys.colsUsed)

/-- A spare of an array is used up: SYS_SPARES shows the least number over all arrays (R392). -/
def sramTake (cls arr phase cause : Nat) (s : State) : State :=
  let n := sramUsed cls arr s + 1
  let s := updSys (fun x => if cls == 4 then { x with rowsUsed := putKey 0 arr n x.rowsUsed } else { x with colsUsed := putKey 0 arr n x.colsUsed }) s
  if n > sramSpares cls - rd (O.SYS_SPARES cls) s then spareGone cls phase cause (arr * 256 + n - 1) s else s

/-- A row or column of an array is replaced by its next spare; without one the defect stays (R394, R398). -/
def sramRepair (cls arr addr phase cause : Nat) (s : State) : State :=
  let u := sramUsed cls arr s
  if u < sramSpares cls then
    let s := ledger cls 1 phase cause (arr * 256 + u) (addr / 16) addr (bump (O.SYS_SWAPS cls) s)
    mapChanged (sramTake cls arr phase cause s)
  else impaired cls phase cause (arr * 256 + 255) (addr / 16) s

/-- A spare row or column of an array has failed the march test (R393). -/
def sramSpareDead (cls arr : Nat) (s : State) : State :=
  let u := sramUsed cls arr s
  if u < sramSpares cls then mapChanged (sramTake cls arr 4 1 (ledger cls 1 4 1 (arr * 256 + u) 0xFFFF 0 s)) else s

/-- Phase 4: the march tests, and whether a vital array keeps a defect (R391). -/
def bootMemory (inp : BootIn) (s : State) : Bool × State :=
  let s := each inp.spareRows (sramSpareDead 4) s
  let s := each inp.spareCols (sramSpareDead 5) s
  let left (cls : Nat) (l : List (Nat × Nat)) (s : State) : Bool :=
    inp.vital.any fun a => sramSpares cls < sramUsed cls a s + (l.filter fun e => e.1 == a).length
  let bad : Bool := left 4 inp.rows s || left 5 inp.cols s
  let s := each inp.rows (fun e s => sramRepair 4 e.1 e.2 4 1 s) s
  (bad, each inp.cols (fun e s => sramRepair 5 e.1 e.2 4 1 s) s)

/-- The logical instance behind which a physical one stands. -/
def logicalOf (cls phys : Nat) (s : State) : Option Nat := (List.range (classMap cls s).map.length).find? fun i => physOf cls i s == some phys

/-- A slice has failed its self-test (Table 15.3): an instance, or a spare. -/
def sliceDead (e : Nat × Nat) (s : State) : State :=
  let present : Bool := e.1 == 6 || e.1 == 7 || (isNode s && (e.1 == 0 || e.1 == 1))
  if !present || s.sys.dead.contains e then s
  else match logicalOf e.1 e.2 s with
    | some l => if e.1 == 6 && isCell s && l != laneU0 && l != laneU1 then s else failLogical e.1 l 5 1 (if e.1 == 6 || e.1 == 1 then l else 0) s
    | none => failSpare e.1 e.2 5 1 0 s

/-- Phase 5: slices; with fewer than two balancers no comparison is possible and source 205 stays LIVE (R398). -/
def bootSlices (inp : BootIn) (s : State) : State :=
  let s := each inp.slices sliceDead s
  if isNode s && (working 0 s).length < 2 then setLive 205 true 0 s else s

/-- Phase 6: the slot to boot (R378) and whether it passes R377; BOOT_CAUSE 1 BOOTSEL, 2 trial reverted, 3 candidate invalid. -/
def bootImage (s : State) : Bool × State :=
  let s := updNvm (fun n => { n with opened := false }) s
  let b := rd O.NVM_BOOT_SLOT s
  let c := if s.straps.bootsel then 1 - b else b
  let sel := b2n s.straps.bootsel
  let revert : Bool := rd O.NVM_TRIAL s == 1 && c == b && s.nvm.trialBooted
  let s := if revert then wr O.NVM_BOOT_SLOT (1 - b) (wr O.NVM_TRIAL 0 s) else s
  let c := if revert then 1 - c else c
  let cause := if revert then 2 else sel
  let ran (i cause : Nat) (s : State) : State :=
    let s := wr O.NVM_BOOT_CAUSE cause (wr O.NVM_RUN_SLOT i s)
    if rd O.NVM_TRIAL s == 1 && rd O.NVM_BOOT_SLOT s == i then updNvm (fun n => { n with trialBooted := true }) s else s
  let r := verifySlot c s
  if r.1 == 0 then (true, ran c cause r.2)
  else
    let s := setNvmBit 4 true r.2
    let q := verifySlot (1 - c) s
    -- A fallback leaves NVM_STATUS [4] set though the other slot passes.
    if q.1 == 0 then (true, ran (1 - c) 3 (setNvmBit 4 true q.2)) else (false, setNvmBit 4 true q.2)

/-- What the AON domain finds at a start, and its entries copied to the tamper record (R405). -/
def bootTamper (inp : BootIn) (s : State) : State :=
  let noBat : Bool := rd O.SYS_NO_BATTERY s == 1
  let found : List TamperEntry := if noBat then [] else
    (if inp.oscStop then [{ kind := 2, time := inp.aonTime }] else []) ++ (if inp.vbatLost then [{ kind := 3, time := inp.aonTime }] else [])
  let aon := if inp.vbatLost then [] else s.sys.aon
  let all := aon ++ found
  let s := updSys (fun x => { x with tamper := x.tamper ++ all.take 16, aon := [], aonOver := 0 }) s
  updTamper (bumpN (min all.length 16) O.SYS_TAMPER_COUNT s)

/-- Addressing of the host ports for the time to the next reset (R367). -/
def bootNet (s : State) : State :=
  { s with jop := { s.jop with net := { ip0 := rd (O.SYS_IP_ADDR 0) s, ip1 := rd (O.SYS_IP_ADDR 1) s, jopPort := rd O.SYS_JOP_PORT s, vlan := rd O.SYS_VLAN s } } }

/-- What units derive from their loaded objects. -/
def bootDerive (s : State) : State :=
  let s := if isApex s then wr O.TIM_LAW_START_EFF (rd O.TIM_LAW_START s) s else s
  let s := if isNode s then acqCheck (each (List.range 6) (fun j s => balWritten ((0x4100 + j) * 256 + 1) s) s) else s
  updCalState (adcLoad (loadComparators (onlyIf (isNode s) caddyCheck s)))

/-- Lanes in the role with LNK_ENABLE = 1 leave OFF for L0 (R140, R401). -/
def startLanes (s : State) : State :=
  each (List.range 68) (fun n s => if laneHere n s && rd (O.LNK_ENABLE n) s == 1 && stage n s == 8 then toL0 n s else s) s

/-- The thresholds and the calibration of the dividers alone loaded from the store (R94). -/
def loadThresholds (s : State) : State :=
  match s.nvm.copies.getD (1 - olderCopy s) none with
  | some c => if isCell s && c.good && !c.straps.node then each (c.vals.filter fun e => thresholdKeys.contains e.1) (fun e s => wr e.1 e.2 s) s else s
  | none => s

/-- ROM service mode (R391): lanes climb, FAULT_N stays low, nothing else starts. -/
def romService (code : Nat) (s : State) : State := updFaultN (startLanes (wr O.SYS_RECOVERY code s))

/-- Phase 7: store, safety set, counter record, tamper record; firmware runs (R389, R401, Table 3.7). -/
def bootLoad (inp : BootIn) (t0 : Nat) (s : State) : State :=
  let s := loadStore s
  let s := onlyIf (isNode s) loadSafety s
  let s := bootDerive (bootNet (bootTamper inp s))
  let s := phaseEnd inp t0 6 s
  let s := wr O.SYS_BOOT_TIME (s.tick / 400) s
  let s := startLanes s
  let s := if isApex s then updTim (fun t => { t with waitEnd := some (s.tick + ms (rd O.TIM_PEER_WAIT s)) }) s else s
  if isCell s && rd O.CEL_STATE s == 1 then (if low 2 inp.aux == 1 then celGo 2 (setAux 1 s) else bypUncmd inp.aux s) else s

/-- Copies of the parameter store whose CRC fails at this start, and the thresholds a cell engine loads meanwhile (R94, R375). -/
def bootCopies (inp : BootIn) (s : State) : State :=
  let copies := (List.range 2).map fun i => match s.nvm.copies.getD i none with
    | some c => some { c with good := c.good && !inp.badCopies.contains i }
    | none => none
  loadComparators (loadThresholds (updNvm (fun n => { n with copies := copies }) s))

/-- The phases of Table 15.2 in order, from counter value t0. -/
def bootPhases (inp : BootIn) (t0 : Nat) (s : State) : State :=
  let s := bootCopies inp s
  let s := phaseEnd inp t0 0 (bootMap inp s)
  let s := phaseEnd inp t0 1 (bootPaths inp s)
  let s := phaseEnd inp t0 2 (bootCores inp s)
  if (goodCores s).isEmpty then
    updFaultN (updSys (fun x => { x with held := true, retryAt := some (t0 + ms 1000) }) (updKet (fun k => { k with pathTested := false }) s))
  else
    let m := bootMemory inp s
    let s := phaseEnd inp t0 3 m.2
    let s := phaseEnd inp t0 4 (bootSlices inp s)
    let s := updHealth s
    if isCell s && s.sys.cause == 5 then romService 3 s
    else if m.1 then romService 2 s
    else
      let r := bootImage s
      let s := phaseEnd inp t0 5 r.2
      if r.1 then bootLoad inp t0 s else romService 1 s

/-- Straps sampled, TIM_COUNTER started, the calibration begun; a cell is in BOOT, with its counter record restored before anything can save it (R107, R386, R388, R389). -/
def released (inp : BootIn) (s : State) : State :=
  let vals := (keptKeys.filter fun k => rd k s != objDefault s.straps k).map fun k => (k, rd k s)
  let keepSpares : Bool := s.straps.node == inp.straps.node
  let s := { s with objs := [], straps := inp.straps, tick := 0 }
  let s := each (vals.filter fun e => keepSpares || e.1 / 256 != 0x1110) (fun e s => wr e.1 e.2 s) s
  let s := if keepSpares then s else showSpares (mapNow 0 s) s
  let s := wr O.SYS_STRAP_UNSTABLE (b2n inp.unstable) (wr O.SYS_RESET_CAUSE s.sys.cause s)
  let s := updSys (fun x => { x with held := false, ddrMiB := if inp.straps.node then inp.ddrMiB else 0 }) s
  let s := if isNode s then wrBit O.SYS_DOMAINS 18 true (wrBit O.SYS_DOMAINS 17 (s.sys.ddrMiB != 0) s) else restoreRecord (wr O.CEL_STATE 1 s)
  calStart true s

/-- The straps sampled anew beside the objects that have been written. -/
def withStraps (p : Straps) (s : State) : State := each s.objs (fun e s => wr e.1 e.2 s) { s with objs := [], straps := p }

/-- RESET_RELEASE (R386): not at a node without REFCLK; with TEST_EN high the device does not leave reset (R427). -/
def resetRelease (inp : BootIn) (s : State) : State :=
  if !s.sys.held || s.sys.retryAt.isSome || (inp.straps.node && s.sys.refHeld) then s
  else if inp.straps.testEn then withStraps inp.straps s
  else bootPhases inp 0 (released inp s)

/-- BOOT_RETRY: the phases start again a second after no core has passed (R390). -/
def bootRetry (inp : BootIn) (s : State) : State :=
  match s.sys.retryAt with
  | some t =>
    let s := advTo t s
    bootPhases inp s.tick (updSys (fun x => { x with held := false, retryAt := none }) s)
  | none => s

end Sys2Proof.Machine
end

