-- ==== Sys2Proof/Machine/Sys.lean ====
section
/-! DEFINITION. The commands of supplies, reset, power states and self-repair (chapter 15, R419, R428). -/
namespace Sys2Proof.Machine

/-- POWER_ON (R385, R387). -/
def execPowerOn (s : State) : Host.Outcome State Fault Refusal := ok (powerOn s)

/-- RESET_PIN (R387). -/
def execResetPin (s : State) : Host.Outcome State Fault Refusal := ok (dieReset 1 s)

/-- SUPPLY_DIP: a cell goes to OFF (R387, Table 3.7). -/
def execSupplyDip (s : State) : Host.Outcome State Fault Refusal := ok (dieReset 3 s)

/-- RESET_RELEASE (R386, R388 to R391). -/
def execResetRelease (inp : BootIn) (s : State) : Host.Outcome State Fault Refusal := ok (resetRelease inp s)

/-- BOOT_RETRY (R390). -/
def execBootRetry (inp : BootIn) (s : State) : Host.Outcome State Fault Refusal := ok (bootRetry inp s)

/-- A node's root PLL holds its last frequency while REFCLK is absent (R419), and reset is held for as long (R386). -/
def refclkLoss (s : State) : State := if isNode s || s.sys.held then updSys (fun x => { x with refHeld := true }) s else s

/-- REFCLK_LOSS (R419). -/
def execRefclkLoss (s : State) : Host.Outcome State Fault Refusal := ok (refclkLoss s)

/-- REFCLK_RETURN (R419). -/
def execRefclkReturn (s : State) : Host.Outcome State Fault Refusal := ok (updSys (fun x => { x with refHeld := false }) s)

/-- A parity error in the PCS slice of lane n; bad: the slice fails the check at the entry to L0 (R168, R397). -/
def pcsParity (n : Nat) (bad : Bool) (s : State) : State :=
  if !laneHere n s || stage n s == 8 then s
  else
    let s := lineLost n 8 (bump (O.LNK_HIBER_COUNT n) s)
    if bad then failLogical 6 n 0 4 n s else s

/-- PCS_PARITY_ERROR (R397). -/
def execPcsParityError (n : Nat) (bad : Bool) (s : State) : Host.Outcome State Fault Refusal := ok (pcsParity n bad s)

/-- A frame that crossed a failing router slice ends with EOF_BAD (R397). -/
def TxBody.spoil : TxBody → TxBody
  | .own f _ => .own f true
  | .fwd b _ => .fwd b true

/-- A parity error in router slice r while the frames being sent on these lanes crossed it (R397, R398). -/
def routerParity (r : Nat) (lanes : List Nat) (s : State) : State :=
  let s := each lanes (fun n s => updLane n (fun x => { x with cur := x.cur.map fun i => { i with body := i.body.spoil } }) s) s
  failLogical 7 r 0 4 0 s

/-- ROUTER_PARITY_ERROR (R397). -/
def execRouterParityError (r : Nat) (lanes : List Nat) (s : State) : Host.Outcome State Fault Refusal := ok (routerParity r lanes s)

/-- SYS_CMD RESET meets a device that switches (R379). -/
def resetRefused (s : State) : Bool := if isNode s then (servedArms s).any fun a => armDeblocked a s else celLive s

/-- A write of SYS_CMD (R379). -/
def writeSysCmd (v : Nat) (s : State) : Res := writeBy O.SYS_CMD v (stIf (resetRefused s)) (fun s => done (dieReset 2 s)) s

/-- SYS_CMD RESET (R379, R387). -/
def execSysCmdReset (s : State) : Host.Outcome State Fault Refusal := ok (finish (writeSysCmd 1 s))

/-- A pass of the scrubber: rows it corrected, one entry for each correction, and words beyond correction (R394). -/
def scrubPass (rows words : List (Nat × Nat)) (s : State) : State :=
  let rs := rows.eraseDups
  let again := rs.filter s.sys.lastRows.contains
  let s := bumpN words.length O.SYS_ECC_UNCORR (bumpN rows.length O.SYS_ECC_CORR (bump O.SYS_SCRUB_PASSES s))
  let s := updSys (fun x => { x with bad := words.foldl addTo x.bad, lastRows := rs.filter fun e => !again.contains e }) s
  each again (fun e s => sramRepair 4 e.1 e.2 0 5 s) s

/-- SCRUB_PASS (R394). -/
def execScrubPass (rows words : List (Nat × Nat)) (s : State) : Host.Outcome State Fault Refusal := ok (scrubPass rows words s)

/-- SYS_POWER_CMD v is refused in the present state (R402, R403). -/
def powerRefused (v : Nat) (s : State) : Bool :=
  match v with
  | 1 => rd O.SYS_NO_BATTERY s == 1 || resetRefused s
  | 2 => isCell s || (rd O.ACQ_MEM s == 1 && !acqIdle s)
  | 4 => isCell s || !(rd O.ACQ_MEM s == 1 || acqIdle s)
  | _ => isCell s

/-- What SYS_POWER_CMD does (R402, R403). -/
def powerEffect (v : Nat) (s : State) : State :=
  match v with
  | 1 => updSys (fun x => { x with pwrEn := false }) (if isCell s then saveRecord s else s)
  | 2 => pdRequest 17 (updSys (fun x => { x with ddrBack := none }) s)
  | 3 => if ddrUp s || s.sys.ddrMiB == 0 then s else updSys (fun x => { x with ddrBack := some (x.ddrBack.getD (s.tick + us 200)) }) s
  | 4 => pdRequest 18 s
  | _ => wrBit O.SYS_DOMAINS 18 true s

/-- A write of SYS_POWER_CMD. -/
def writePowerCmd (v : Nat) (s : State) : Res := writeBy O.SYS_POWER_CMD v (stIf (powerRefused v s)) (fun s => done (powerEffect v s)) s

/-- SYS_POWER_CMD SHELF (R403). -/
def execSysShelf (s : State) : Host.Outcome State Fault Refusal := ok (finish (writePowerCmd 1 s))

/-- SYS_POWER_CMD DDR_OFF (R402). -/
def execSysDdrOff (s : State) : Host.Outcome State Fault Refusal := ok (finish (writePowerCmd 2 s))

/-- SYS_POWER_CMD DDR_ON (R402). -/
def execSysDdrOn (s : State) : Host.Outcome State Fault Refusal := ok (finish (writePowerCmd 3 s))

/-- SYS_POWER_CMD CAPTURE_OFF (R402). -/
def execSysCaptureOff (s : State) : Host.Outcome State Fault Refusal := ok (finish (writePowerCmd 4 s))

/-- SYS_POWER_CMD CAPTURE_ON (R402). -/
def execSysCaptureOn (s : State) : Host.Outcome State Fault Refusal := ok (finish (writePowerCmd 5 s))

/-- The DDR domain is back in service (R402). -/
def ddrReturn (s : State) : State :=
  match s.sys.ddrBack with
  | some t => acqCheck (wrBit O.SYS_DOMAINS 17 true (updSys (fun x => { x with ddrBack := none }) (advTo t s)))
  | none => s

/-- DDR_BACK_IN_SERVICE (R402). -/
def execDdrBackInService (s : State) : Host.Outcome State Fault Refusal := ok (ddrReturn s)

/-- WAKE_N low for 10 ms: PWR_EN high where armed; the next start has cause WAKE (R404). -/
def wake (s : State) : State :=
  if rd O.SYS_WAKE_ARM s == 1 && !s.sys.pwrEn then updSys (fun x => { x with pwrEn := true, wake := true }) s else s

/-- WAKE (R404). -/
def execSysWake (s : State) : Host.Outcome State Fault Refusal := ok (wake s)

/-- An event recorded in the tamper store of the AON domain; with all 16 entries in use it is counted (R405). -/
def tamperEvent (kind time : Nat) (s : State) : State :=
  updSys (fun x => if 16 ≤ x.aon.length then { x with aonOver := x.aonOver + 1 } else { x with aon := x.aon ++ [{ kind := kind, time := time }] }) s

/-- TAMPER_EVENT (R405): kind 1 a level change of TAMPER_N, 2 a stop of the AON oscillator, 3 VBAT low, with its AON time. -/
def execTamperEvent (kind time : Nat) (s : State) : Host.Outcome State Fault Refusal := ok (tamperEvent kind time s)

/-- A write of SYS_TAMPER_ACK, no more than SYS_TAMPER_COUNT (R405, R406). -/
def writeTamperAck (v : Nat) (s : State) : Res :=
  writeBy O.SYS_TAMPER_ACK v (if rd O.SYS_TAMPER_COUNT s < v then stRange else stOk) (fun s => done (updTamper (wr O.SYS_TAMPER_ACK v s))) s

/-- SYS_TAMPER_ACK (R405). -/
def execSysTamperAck (v : Nat) (s : State) : Host.Outcome State Fault Refusal := ok (finish (writeTamperAck v s))

/-- A reading of the die temperature sensor in 1/16 degree C: OVERTEMP rises at 127 and falls at 122 (R428). -/
def overtemp (t : Int) (s : State) : State :=
  if !isNode s then s
  else if 2032 ≤ t then setLive 235 true 0 s
  else if t ≤ 1952 then setLive 235 false 0 s
  else s

/-- OVERTEMP_READING (R428). -/
def execOvertempReading (t : Int) (s : State) : Host.Outcome State Fault Refusal := ok (overtemp t s)

/-- The checks in service find the physical core behind logical core c defective (R296, R398). -/
def coreFail (c : Nat) (s : State) : State :=
  let p := fld (rd O.TSK_CORE_MAP s) (4 * c + 3) (4 * c)
  if 8 ≤ c || p == 15 || (isCell s && c != 0) then s
  else
    let sp := rd O.TSK_SPARE s
    let put (v : Nat) (s : State) : State := wr O.TSK_CORE_MAP (rd O.TSK_CORE_MAP s - p * 16 ^ c + v * 16 ^ c) s
    if sp != 15 then mapOut 2 c p (some sp) 0 4 0 (wr O.TSK_SPARE 15 (put sp s))
    else if isCell s then dieReset 5 (mapOut 2 c p none 0 4 0 s)
    else
      let s := mapOut 2 c p none 0 4 0 (put 15 s)
      let t := coreTask c s
      dispatch (unDeck c (if t == 0xFFFF then s else abortTask t 4 s))

/-- CORE_CHECK_FAILURE (R296, R398). -/
def execCoreCheckFailure (c : Nat) (s : State) : Host.Outcome State Fault Refusal := ok (coreFail c s)

end Sys2Proof.Machine
end

