-- ==== Sys2Proof/Machine/Tim.lean ====
section
/-! DEFINITION. The commands of the time unit: hop delays, SYNC, sources and roles, period parameters, station time in the tree (chapter 6). -/
namespace Sys2Proof.Machine

/-- A peer-delay request on lane n; t1 is stamped as it leaves (R181, R183). -/
def pdelayReqSend (n : Nat) (s : State) : State := if measures n s then sendPartner 1 .pdReq n s else s

/-- PDELAY_REQ_SEND (R181). -/
def execPdelayReqSend (n : Nat) (s : State) : Host.Outcome State Fault Refusal := ok (pdelayReqSend n s)

/-- A request received with its SEQ and the fraction of its stamp is answered; turn is t3 - t2 in 1/32 tick of an answer that leaves when it is ready, 2 us at most (R181). -/
def pdelayReqRx (n seq frac turn : Nat) (s : State) : State :=
  if !measures n s then s
  else sendPartner 2 (.pdResp { reqSeq := low 8 seq, t2 := stamp frac s, turn := min 25600 turn }) n s

/-- PDELAY_REQ_RX (R181). -/
def execPdelayReqRx (n seq frac turn : Nat) (s : State) : Host.Outcome State Fault Refusal := ok (pdelayReqRx n seq frac turn s)

/-- The answer to the latest request (R181). -/
def pdelayRespRx (n frac : Nat) (p : PdResp) (s : State) : State :=
  if !measures n s then s
  else
    let l := pdLane n s
    match l.t1 with
    | some t1 => if p.reqSeq == l.seq then pdDone n t1 p.t2 (stamp frac s) p.turn s else s
    | none => s

/-- PDELAY_RESP_RX (R181). -/
def execPdelayRespRx (n frac : Nat) (p : PdResp) (s : State) : Host.Outcome State Fault Refusal := ok (pdelayRespRx n frac p s)

/-- SYNC_SEND (R184). -/
def execSyncSend (s : State) : Host.Outcome State Fault Refusal := ok (syncSend s)

/-- SYNC_RX (R185 to R188). -/
def execSyncRx (n frac : Nat) (y : Sync) (s : State) : Host.Outcome State Fault Refusal := ok (syncRx n frac y s)

/-- SYNC_TIMEOUT of a lineage of a cell, or of a node's source (R188). -/
def execSyncTimeout (lineageB : Bool) (s : State) : Host.Outcome State Fault Refusal := ok (syncTimeout lineageB s)

/-- LINEAGE_RETURN (R185). -/
def execLineageReturn (s : State) : Host.Outcome State Fault Refusal := ok (lineageReturn s)

/-- APEX_PEER_WAIT (R186). -/
def execApexPeerWait (s : State) : Host.Outcome State Fault Refusal := ok (apexPeerWait s)

/-- PEER_SYNC_LOSS (R186). -/
def execPeerSyncLoss (s : State) : Host.Outcome State Fault Refusal := ok (peerSyncLoss s)

/-- No uplink for REF after 1 s: the bootstrap oscillator again (R189). -/
def refHoldoverEnd (s : State) : State :=
  match s.tim.refHoldEnd with
  | some t =>
    if !isCell s then s
    else if [laneU0, laneU1].any fun n => 1 ≤ stage n s && stage n s ≤ 6 then refEval (updTim (fun x => { x with refHoldEnd := none }) (advTo t s))
    else
      let s := updTim (fun x => { x with refLane := none, refHoldEnd := none }) (advTo t s)
      wrBit (O.LNK_STATUS laneU0) 7 false (wrBit (O.LNK_STATUS laneU1) 7 false s)
  | none => s

/-- REF_HOLDOVER_END (R189). -/
def execRefHoldoverEnd (s : State) : Host.Outcome State Fault Refusal := ok (refHoldoverEnd s)

/-- PARAM_SEND (R191). -/
def execParamSend (s : State) : Host.Outcome State Fault Refusal := ok (paramSend s)

/-- PARAM_RX (R191). -/
def execParamRx (n : Nat) (p : ParamSet) (s : State) : Host.Outcome State Fault Refusal := ok (paramRx n p s)

/-- STATION_SEND (R195). -/
def execStationSend (s : State) : Host.Outcome State Fault Refusal := ok (stationSend s)

/-- A mapping received by a node (R195). -/
def stationRx (m : Station) (s : State) : State :=
  if !isNode s || isApex s then s
  else
    let s := updTim (fun t => { t with maps := (m :: t.maps).take 4, lastMap := some s.tick }) s
    wr O.TIM_ST_QUALITY (clrBit (low 8 m.quality) 6) (wr O.TIM_ST_UTC_OFFSET (ofI 16 m.utc) s)

/-- STATION_RX (R195). -/
def execStationRx (m : Station) (s : State) : Host.Outcome State Fault Refusal := ok (stationRx m s)

/-- No STATION frame for 10 ms (R194). -/
def stationStale (s : State) : State :=
  if !isNode s || isApex s then s else wrBit O.TIM_ST_QUALITY 6 true (advTo (s.tim.lastMap.getD 0 + ms 10) s)

/-- STATION_STALE (R194). -/
def execStationStale (s : State) : Host.Outcome State Fault Refusal := ok (stationStale s)

/-- A write of TIM_ASYM of lane n; at a node a lane in L5 is reported at once, at the apex it enters the computation at once (R180, R182). -/
def writeTimAsym (n v : Nat) (s : State) : Res :=
  writeBy (O.TIM_ASYM n) v 0 (fun s =>
    let s := wr (O.TIM_ASYM n) v s
    done (if isApex s then lagRecompute s else if inL5 n s then laneReport s else s)) s

/-- TIM_ASYM (R180, R182). -/
def execTimAsym (n : Nat) (v : Int) (s : State) : Host.Outcome State Fault Refusal :=
  ok (finish (if -(2 ^ 31 : Int) ≤ v && v < (2 ^ 31 : Int) then writeTimAsym n (ofI 32 v) s else (stRange, s)))

/-- The refusals of R29 for a write at the apex of a value that is distributed: an arm is deblocked. -/
def r29 (s : State) : Nat := stIf (anyDeblocked s)

/-- The duplicate's figures join the apex's own in the checks of R39. -/
def lagLimit (s : State) : Nat := max (rd O.TIM_LAG_MIN s) s.tree.peerLagMin

/-- The larger stage minimum of both apexes (R39). -/
def stageLimit (s : State) : Nat := max (rd O.TIM_STAGE_MIN s) s.tree.peerStageMin

/-- The tree has two levels (R22, R28). -/
def twoLevel (s : State) : Bool := s.tree.kids.isEmpty

/-- SSI transfers run and would not fit their periods with T = v (R348). -/
def ssiShut (v : Nat) (s : State) : Bool :=
  rd O.POS_SSI_MODE s == 1 && ssiTooLong (rd O.POS_SSI_BITS s) (rd O.POS_SSI_CLOCK s) (rd O.POS_SSI_MONO s) (rd O.POS_SSI_DIV s) v

/-- A write of TIM_PERIOD (R28, R29, R38, R39, R348). -/
def writeTimPeriod (v : Nat) (s : State) : Res :=
  writeBy O.TIM_PERIOD v (r29 s) (fun s =>
    if (!twoLevel s && v < 2000) || v < stageLimit s || rd O.TIM_APPLY_LAG s > 4 * v || ssiShut v s then (stRange, s)
    else done (lagRecompute (buildSet (wr O.TIM_PERIOD v s)))) s

/-- TIM_PERIOD_WRITE (R28, R29, R39). -/
def execTimPeriodWrite (v : Nat) (s : State) : Host.Outcome State Fault Refusal := ok (finish (writeTimPeriod v s))

/-- A write of TIM_APPLY_LAG (R29, R30, R39). -/
def writeTimApplyLag (v : Nat) (s : State) : Res :=
  writeBy O.TIM_APPLY_LAG v (r29 s) (fun s =>
    if v < lagLimit s || v > 4 * rd O.TIM_PERIOD s then (stRange, s) else done (lagRecompute (buildSet (wr O.TIM_APPLY_LAG v s)))) s

/-- TIM_APPLY_LAG_WRITE (R29, R39). -/
def execTimApplyLagWrite (v : Nat) (s : State) : Host.Outcome State Fault Refusal := ok (finish (writeTimApplyLag v s))

/-- A write of TIM_CMD_GUARD (R29). -/
def writeTimCmdGuard (v : Nat) (s : State) : Res :=
  writeBy O.TIM_CMD_GUARD v (r29 s) (fun s => done (lagRecompute (buildSet (wr O.TIM_CMD_GUARD v s)))) s

/-- TIM_CMD_GUARD_WRITE (R29). -/
def execTimCmdGuardWrite (v : Nat) (s : State) : Host.Outcome State Fault Refusal := ok (finish (writeTimCmdGuard v s))

/-- A write of TIM_LAW_START (R29, R33): 0 selects the automatic start, another value must not precede t_in. -/
def writeTimLawStart (v : Nat) (s : State) : Res :=
  writeBy O.TIM_LAW_START v (r29 s) (fun s =>
    if v != 0 && tickPs v < s.tree.tIn then (stRange, s)
    else
      let s := wr O.TIM_LAW_START v s
      let e := if v == 0 then min 160000 (autoStart s.tree.tIn) else v
      done (lagRecompute (buildSet (wr O.TIM_LAW_START_EFF e s)))) s

/-- TIM_LAW_START_WRITE (R29, R33). -/
def execTimLawStartWrite (v : Nat) (s : State) : Host.Outcome State Fault Refusal := ok (finish (writeTimLawStart v s))

/-- A write of BAL_SLALOM_SEED (R29, R50): the seed is the state of the K_EFF of its set. -/
def writeSlalomSeed (v : Nat) (s : State) : Res :=
  writeBy O.BAL_SLALOM_SEED v (if isApex s then r29 s else stState) (fun s =>
    done (buildSet (updTim (fun t => { t with slalomWritten := some v }) (wr O.BAL_SLALOM_SEED v s)))) s

/-- BAL_SLALOM_SEED_WRITE (R50). -/
def execBalSlalomSeedWrite (v : Nat) (s : State) : Host.Outcome State Fault Refusal := ok (finish (writeSlalomSeed v s))

end Sys2Proof.Machine
end

