-- ==== Sys2Proof/Machine/Tree.lean ====
section
/-! DEFINITION. Enumeration and the arm deblock mask as commands (R23, R87). -/
namespace Sys2Proof.Machine

/-- ENUMERATION (R23). -/
def execEnumeration (nodes : List FoundNode) (self link : Nat) (s : State) : Host.Outcome State Fault Refusal := ok (enumeration nodes self link s)

/-- Arm a has an ARM_M binding (R124, R126). -/
def armBound (a : Nat) (s : State) : Bool :=
  (List.range (rd O.LAW_OUTPUTS s)).any fun i => let b := rd (O.LAW_OUT_BIND i) s; fld b 31 28 == 1 && fld b 27 16 == a

/-- Why the apex refuses to set bits of CEL_ARM_DEBLOCK (R87, R126, R220, R272, R290). -/
def deblockRefused (v : Nat) (s : State) : Bool :=
  rd O.TIM_LAG_STATUS s == 2 || rd O.LAW_STATE s != 1 || ((List.range 64).any fun a => bit v a && !bit (rd O.CEL_ARM_DEBLOCK s) a && !armBound a s)
    || rd O.RED_WIRING_NODES s != 0 || s.ket.latched.any (fun n => bit (reactOf n s) 4) || rd O.SAF_BLOCK_NODES s != 0 || inSafeBlock s

/-- A write of CEL_ARM_DEBLOCK; conditions refuse only a write that sets a bit not set before (R87, R126). -/
def writeArmDeblock (v : Nat) (s : State) : Res :=
  let sets : Bool := (List.range 64).any fun a => bit v a && !bit (rd O.CEL_ARM_DEBLOCK s) a
  writeBy O.CEL_ARM_DEBLOCK v (stIf (!isApex s || (sets && deblockRefused v s))) (fun s =>
    done (if rd O.CEL_ARM_DEBLOCK s == v then s else buildSet (wr O.CEL_ARM_DEBLOCK v s))) s

/-- CEL_ARM_DEBLOCK (R87). -/
def execCelArmDeblock (v : Nat) (s : State) : Host.Outcome State Fault Refusal := ok (finish (writeArmDeblock v s))

end Sys2Proof.Machine
end

