-- ==== Sys2Proof/Machine/ObjAccess.lean ====
section
/-! DEFINITION. Reading and writing any object by its index: who asks, rights, the order of the checks, derived values, the command of every object that has one, and the plain objects (R6, R7, R9, R298, R353 to R356, R360, R391). -/
namespace Sys2Proof.Machine

/-- The right of Table 14.11 that a write of v to object k needs. -/
def needRight (k v : Nat) : Nat :=
  if k == O.SAF_CMD || k == O.SAF_CHECK_CONFIRM then 3
  else if k == O.NVM_CMD then (if v == 1 || v == 2 then 2 else 4)
  else if k == O.NVM_DIST_SLOT || k == O.SYS_CMD then 4
  else if k == O.SEC_CMD || k == O.SEC_KEY_STAGE || k == O.SEC_RIGHTS_STAGE then 5
  else match objRow? k with
    | some r => if r.acc == .saf then 3 else 1
    | none => 1

/-- Whether the asker holds right b (R360, R373). -/
def Who.holds (w : Who) (b : Nat) : Bool :=
  match w with
  | .jop r => bit r b
  | .node _ _ c => b != 5 && (b != 3 || c)
  | .core _ => b != 3 && b != 5

/-- Bits of a value that are not reserved (R6). -/
def keepBits (k v : Nat) : Nat :=
  let i := k / 256
  if (0x9110 ≤ i && i ≤ 0x9111) || (0x9116 ≤ i && i ≤ 0x9117) then v &&& 0x1FF
  else if k == O.ACQ_TRIG_EN then v &&& 0xBFF
  else if k == O.ACQ_XT_SEND then v &&& 0x9FF
  else if i == 0x9810 then v &&& 0xBE009F9F
  else if k == O.TREE_REM_TARGET then v &&& 0xFF0003FF
  else if k == O.TREE_REM_OBJECT then v &&& 0xFFFFFF00
  else if 0x5400 ≤ i && i ≤ 0x5403 then v &&& 0x000000F0FFFFFFFFFFFFFF00FFFFFFFF
  else if 0x5100 ≤ i && i ≤ 0x5101 then v &&& 0xFFFFFE00
  else if i == 0x5200 then v &&& 0xFFFF07FF
  else if 0x5A00 ≤ i && i ≤ 0x5A03 then v &&& (0xFF8F0000 * 2 ^ 256 + (2 ^ 256 - 1))
  else if 0x7300 ≤ i && i ≤ 0x7303 then v &&& 0xF01F
  else v

/-- A mask of leading ones (Table 14.18). -/
def contiguous (v : Nat) : Bool := (List.range 33).any fun n => v == 2 ^ 32 - 2 ^ n

/-- What the units and the type's own rules make of a plain write. -/
def plainGuard (w : Who) (k v : Nat) (s : State) : Nat :=
  let i := k / 256
  let a := i / 4096
  if i == 0x1010 && 3 ≤ k % 256 && k % 256 ≤ 4 && !contiguous v then stRange
  else if a == 2 then lnkGuard k v s
  else if a == 4 then balGuard k v s
  else if a == 5 then lawGuard k v s
  else if a == 6 then celGuard k v s
  else if a == 7 then adcGuard k v s
  else if a == 8 then (if acqGuard k s != 0 then acqGuard k s else if k == O.ACQ_PAT_CARE && v == 0 then stRange else 0)
  else if k == O.SAF_CHECK_CONFIRM then stIf (rd O.SAF_STATE s != 1)
  else if k == O.TSK_TICK then tskTickGuard s
  else if 0xA100 ≤ i && i ≤ 0xA12B then taskGuard k v s
  else if 0xA800 ≤ i && i ≤ 0xA80F then
    let g := dmaGuard (w == .core true) k s
    if g != 0 then g else if k % 256 == 2 && !dmaTableOk v 64 s then stRange else 0
  else if a == 0xB then fioGuard k v s
  else if k == O.SEC_KEY_STAGE && !onCurve v then stRange
  else 0

/-- What follows from a completed write of a plain object. -/
def plainAfter (w : Who) (k v : Nat) (s : State) : State :=
  let i := k / 256
  let a := i / 4096
  if i == 0x2030 then updLaneDown (k % 256 - 1) s
  else if a == 4 then balWritten k s
  else if a == 5 then lawWritten k (match w with | .core _ => true | _ => false) s
  else if a == 7 then adcWritten k s
  else if thresholdKeys.contains k then loadComparators s
  else if a == 8 then acqWritten k s
  else if i == 0x9810 then evalFns s
  else if 0x9110 ≤ i && i ≤ 0x9117 then updFaultN s
  else if k == O.SAF_CHECK_CONFIRM then updSaf (fun x => { x with confirmVal := v }) s
  else if a == 0xB then fioWritten k s
  else if k == O.RED_PRIMARY_SIDE then redEval (setBase (leadK s) s)
  else if k == O.RED_MODE then redEval (evalPeer (redMode s))
  else if i == 0xC000 then redEval s
  else s

/-- The lane objects of a lane that R24 keeps off, which read their defaults (R175). -/
def laneHidden (k : Nat) (s : State) : Bool :=
  0x2010 ≤ k / 256 && k / 256 < 0x2400 && 1 ≤ k % 256 && k % 256 ≤ 68 && !s.straps.laneOn (k % 256 - 1)

/-- A write-only value is not kept, nor that of an object of a lane kept off. -/
def keeps (k : Nat) (s : State) : Bool := (match objRow? k with | some r => r.acc != .wo | none => false) && !laneHidden k s

/-- A write of an object without a command of its own (R9). -/
def writePlain (w : Who) (k v : Nat) (s : State) : Res :=
  let v := keepBits k v
  writeBy k v (plainGuard w k v s) (fun s => done (plainAfter w k v (if keeps k s then wr k v s else s))) s

/-- SAF_CMD by its value: command in [7:0], function in [15:8] (Table 10.13). -/
def writeSafCmd (v : Nat) (s : State) : Res :=
  match v % 256 with
  | 1 => cmdCommission true s
  | 2 => cmdConfirm true s
  | 3 => cmdAbort true s
  | 4 => cmdRelease true s
  | 5 => cmdResetFn true (v / 256) s
  | _ => (stRange, s)

/-- The parent's claim and K_X, from whom R202 lets write them. -/
def writeParent (w : Who) (claim kx : Nat) (s : State) : Res :=
  match w with
  | .node src side _ => parentClaim src side claim kx s
  | _ => (stRights, s)

/-- The objects whose write is a command, by area. -/
def writeTime (k v : Nat) (s : State) : Option Res :=
  if k == O.TIM_PERIOD then some (writeTimPeriod v s)
  else if k == O.TIM_APPLY_LAG then some (writeTimApplyLag v s)
  else if k == O.TIM_CMD_GUARD then some (writeTimCmdGuard v s)
  else if k == O.TIM_LAW_START then some (writeTimLawStart v s)
  else if k / 256 == 0x3200 then some (writeTimAsym (k % 256 - 1) v s)
  else if k == O.TIM_ST_INC then some (writeStInc v s)
  else if k == O.TIM_ST_ADJUST then some (writeStAdjust v s)
  else if k == O.TIM_ST_CMD then some (writeStCmd v s)
  else none

/-- The same for the areas of the balancer, the cell, the law engine and the lanes. -/
def writeSwitch (k v : Nat) (s : State) : Option Res :=
  let i := k / 256
  let n := k % 256 - 1
  if k == O.BAL_SLALOM_SEED then some (writeSlalomSeed v s)
  else if k == O.CEL_CLEAR then some (writeCelClear v s)
  else if k == O.CEL_ARM_DEBLOCK then some (writeArmDeblock v s)
  else if k == O.CEL_ORDER then some (writeCelOrder v s)
  else if k == O.LAW_CMD then some (writeLawCmd v s)
  else if k == O.LAW_BANK_REQ then some (writeBankReq (v &&& 0x11) s)
  else if k == O.LAW_TRC_CMD then some (writeTrcCmd v s)
  else if i == 0x2010 then some (writeLnkEnable n v s)
  else if i == 0x2050 then some (writeLnkLoop n v s)
  else if i == 0x2070 then some (writeLnkCmd n v s)
  else none

/-- The same for analogue inputs, recorder, kettle and safety unit. -/
def writeSense (k v : Nat) (s : State) : Option Res :=
  let i := k / 256
  let n := k % 256 - 1
  if k == O.ADC_CMD then some (writeAdcCmd v s)
  else if 0x7200 ≤ i && i ≤ 0x7203 && k % 256 == 1 then some (writeSeqTrig (i - 0x7200) v s)
  else if 0x7200 ≤ i && i ≤ 0x7203 && k % 256 == 5 then some (writeSeqCmd (i - 0x7200) v s)
  else if k == O.ADC_PRIO_REQ then some (writePrioReq v s)
  else if i == 0x7030 then some (writePair n v s)
  else if k == O.ACQ_CMD then some (writeAcqCmd v s)
  else if i == 0x8010 && n < 3 then some (writeAcqMem n v s)
  else if k == O.ACQ_REC_LOCK then some (writeRecLock v s)
  else if k == O.ACQ_REC_RELEASE then some (writeRecRelease v s)
  else if k == O.KET_CMD then some (writeKetCmd v s)
  else if k == O.KET_CLEAR then some (writeKetClear v s)
  else if k == O.KET_Q_POP then some (writeKetQPop v s)
  else if k == O.SAF_CMD then some (writeSafCmd v s)
  else none

/-- The same for tasks, data movers, field island, duplication, store, keys, remote access and power. A data mover stops a free number of bytes on. -/
def writeCores (w : Who) (k v : Nat) (s : State) : Option Res :=
  let i := k / 256
  let n := k % 256 - 1
  if k == O.TSK_CMD then some (writeTskCmd v s)
  else if 0xA800 ≤ i && i ≤ 0xA80F && k % 256 == 1 then
    let f := takeFree 32 s
    some (writeDmaCmd (i - 0xA800) v f.1 (w == .core true) f.2)
  else if k == O.DMA_GCMD then some (writeDmaGcmd v s)
  else if k == O.FIO_CMD then some (writeFioCmd v s)
  else if k == O.FIO_DO_PAIR then some (writeDoPair v s)
  else if 0xB100 ≤ i && i ≤ 0xB101 && k % 256 == 7 then some (writePosCmd (i - 0xB100) v s)
  else if 0xB120 ≤ i && i ≤ 0xB121 && k % 256 == 8 then some (writePrbCmd (i - 0xB120) v s)
  else if k == O.RED_CMD then some (writeRedCmd v s)
  else if i == 0xC100 then some (writeCaddyList n v s)
  else if k == O.RED_PARENT_CLAIM then some (writeParent w v (rd O.RED_PARENT_KX s) s)
  else if k == O.RED_PARENT_KX then some (writeParent w (rd O.RED_PARENT_CLAIM s) v s)
  else if k == O.NVM_CMD then some (writeNvmCmd v s)
  else if k == O.SEC_CMD then some (writeSecCmd true v s)
  else if k == O.TREE_REM_CMD then some (writeRemCmd v s)
  else if k == O.SYS_CMD then some (writeSysCmd v s)
  else if k == O.SYS_POWER_CMD then some (writePowerCmd v s)
  else if k == O.SYS_TAMPER_ACK then some (writeTamperAck v s)
  else none

/-- A write of object k (R355), in the order of Table 14.3. -/
def writeObj (w : Who) (k v : Nat) (s : State) : Res :=
  match objRow? k with
  | none => (stNoObject, s)
  | some r =>
    if !r.place.here s then (stBlockOff, s)
    else if !w.holds (needRight k v) then (stRights, s)
    else if r.acc == .ro || (r.acc == .saf && (isCell s || rd O.SAF_STATE s != 1)) then (stAccess, s)
    else if romRefuses k v s then (stState, s)
    else match writeTime k v s with
      | some x => x
      | none => match writeSwitch k v s with
        | some x => x
        | none => match writeSense k v s with
          | some x => x
          | none => match writeCores w k v s with
            | some x => x
            | none => writePlain w k v s

/-- The gate outputs (CEL_GATE). -/
def gateBits (s : State) : Nat :=
  8 * b2n (s.cell.legA == .upper) + 4 * b2n (s.cell.legA == .lower) + 2 * b2n (s.cell.legB == .upper) + b2n (s.cell.legB == .lower)

/-- A value the maker has written, of the object's width. -/
def madeValue (k : Nat) : Nat := low (objBits k) (Config.made k)

/-- ENC1's objects while its balls repeat ENC0 (R350). -/
def encHidden (k : Nat) (s : State) : Bool := k / 256 == 0xB101 && rd O.POS_PT_MODE s == 1

/-- The value a read returns: stored, or computed at the read. -/
def readVal (k : Nat) (s : State) : Nat :=
  let i := k / 256
  if k == O.TIM_COUNTER then low 64 s.tick
  else if k == O.TIM_VALVE_NOW then ts96N (vtFrac s)
  else if k == O.TIM_STATION_NOW then ts96N (stNow s)
  else if k == O.CEL_GATE then gateBits s
  else if k == O.KET_Q_HEAD then (match s.ket.queue.head? with | some e => ofBe e.bytes | none => 0)
  else if k == O.SAF_CHECK_COMPUTED then safCheck s
  else if k == O.SAF_DEGRADED_LEFT then degLeft s
  else if k == O.RED_REVERT_LEFT then (match s.red.revertEnd with | some t => if rd O.RED_STATE s == 3 then ceilDiv (t - vtTicks s) (ms 1) else rd k s | none => rd k s)
  else if k == O.RED_PEER_STATUS then
    -- DIGESTs count as arriving for three periods after the latest one (log entry 48).
    let arriving : Bool := match s.red.digestAt with | some t => s.tick ≤ t + 3 * tOf (kNow s) s | none => false
    b2n (inL5 laneP0 s || inL5 laneP1 s) + 2 * b2n arriving + 4 * b2n (inStep s)
  else if k == O.SYS_DOMAINS then
    let on (q : Nat) : Bool := (List.range 4).any fun j => stage (4 * q + j) s != 8
    low 20 (rd k s + (List.range 17).foldl (fun a q => a + b2n (on q) * 2 ^ q) 0 + b2n (rd O.FIO_LINK_STATE s == 1) * 2 ^ 19)
  else if k == O.SYS_FW_VERSION then slotField (rd O.NVM_RUN_SLOT s) 8 4 s
  else if k == O.SYS_SERIAL || k == O.SYS_SILICON_REV || k == O.SYS_ROM_VERSION || (i == 0x1010 && 8 ≤ k % 256 && k % 256 ≤ 9) then madeValue k
  else if k == O.SEC_ID_PUBKEY then publicKey idSecret
  else if k == O.FIO_LINK_DELAY then (if rd O.FIO_LINK_STATE s == 1 then madeValue k else 0)
  else if i == 0xA050 then satU 64 (rd k s + (match (port (k % 256 - 1) s).busySince with | some t => 2 * (s.tick - t) | none => 0))
  else if 0x5C00 ≤ i && i ≤ 0x5C0F then sigVal ((i - 0x5C00) * 128 + (k % 256 - 1)) s
  else if encHidden k s || laneHidden k s then objDefault s.straps k
  else rd k s

/-- What a read brings up to date first: the loop checker's counters while a lane loops (R170). -/
def readBefore (k : Nat) (s : State) : State :=
  if (k / 256 == O.LNK_LOOP_ERR 0 / 256 || k / 256 == O.LNK_LOOP_BITS 0 / 256) && 1 ≤ k % 256 && k % 256 ≤ 68 then loopCount (k % 256 - 1) s else s

/-- What a read changes: LATCHED of a probe (R349). -/
def readAfter (k : Nat) (s : State) : State :=
  if 0xB120 ≤ k / 256 && k / 256 ≤ 0xB121 && k % 256 == 7 then wrBit k 1 false s else s

/-- A read of object k: status, value, state (R355, R391). -/
def readObj (w : Who) (k : Nat) (s : State) : Nat × Nat × State :=
  match objRow? k with
  | none => (stNoObject, 0, s)
  | some r =>
    let a := k / 256 / 4096
    if !r.place.here s then (stBlockOff, 0, s)
    else if !w.holds 0 then (stRights, 0, s)
    else if r.acc == .wo then (stAccess, 0, s)
    else if rd O.SYS_RECOVERY s != 0 && a != 1 && a != 0xD then (stState, 0, s)
    else (stOk, readVal k (readBefore k s), readAfter k (readBefore k s))

/-- The bytes of a value as lanes and datagrams carry it, most significant first (R353). -/
def valueBytes (k v : Nat) : List Nat := beBytes (ceilDiv (objBits k) 8) v

/-- COUNT sub-indices read in order (R356): status, how many completed, their bytes, the state. -/
def readMany (w : Who) (k : Nat) : Nat → Nat → List Nat → State → Nat × Nat × List Nat × State
  | 0, n, d, s => (stOk, n, d, s)
  | c + 1, n, d, s =>
    let r := readObj w (k + n) s
    if r.1 != 0 then (r.1, n, d, s) else readMany w k c (n + 1) (d ++ valueBytes (k + n) r.2.1) r.2.2

/-- The checks of R355 that come before LENGTH. -/
def writeCheck (w : Who) (k v : Nat) (s : State) : Nat :=
  match objRow? k with
  | none => stNoObject
  | some r =>
    if !r.place.here s then stBlockOff
    else if !w.holds (needRight k v) then stRights
    else if r.acc == .ro || (r.acc == .saf && (isCell s || rd O.SAF_STATE s != 1)) then stAccess
    else stOk

/-- The last sub-index takes what is left: a string may be shorter and is padded (Table 14.1). -/
def lastBytes (k len : Nat) (d : List Nat) : Option (List Nat) :=
  let str : Bool := match objRow? k with | some r => (match r.ty with | .str _ => true | _ => false) | none => false
  if d.length == len then some d else if str && d.length < len then some (padTo len 0 d) else none

/-- COUNT sub-indices written in order from a string of bytes (R355, R356): status, how many completed, the state. -/
def writeMany (w : Who) (k : Nat) : Nat → Nat → List Nat → State → Nat × Nat × State
  | 0, n, _, s => (stOk, n, s)
  | c + 1, n, d, s =>
    let len := ceilDiv (objBits (k + n)) 8
    let b := if c == 0 then lastBytes (k + n) len d else if d.length < len then none else some (d.take len)
    let chk := writeCheck w (k + n) (ofBe (b.getD [])) s
    if chk != 0 then (chk, n, s)
    else match b with
      | none => (stLength, n, s)
      | some x =>
        let r := writeObj w (k + n) (ofBe x) s
        if r.1 != 0 then (r.1, n, r.2) else writeMany w k c (n + 1) (d.drop len) r.2

/-- A write of an object without a row of its own (R9). -/
def execObjectWrite (w : Who) (index sub v : Nat) (s : State) : Host.Outcome State Fault Refusal := ok (finish (writeObj w (index * 256 + sub % 256) v s))

end Sys2Proof.Machine
end

