-- ==== Sys2Proof/Machine/Rem.lean ====
section
/-! DEFINITION. The commands of remote access and bulk transfers (R357 to R366). -/
namespace Sys2Proof.Machine

/-- FRAME_TX_END (R151, R153): what waits for room in a bulk transfer follows (R365). -/
def execFrameTxEnd (n : Nat) (s : State) : Host.Outcome State Fault Refusal := ok (pump (frameTxEnd n s))

/-- Who an OBJ_REQ speaks for (R360). -/
def asker (h : Hdr) (m : ObjMsg) : Who := .node (h.src / 1024) h.srcSide m.commission

/-- The writes of a request; claim and K_X of one parent's notice are taken together (R202, R356). -/
def reqWrites (h : Hdr) (m : ObjMsg) (s : State) : Nat × Nat × State :=
  if m.index == 0xC020 && m.sub == 1 && m.count == 2 && m.data.length == 10 then
    let r := parentClaim (h.src / 1024) h.srcSide (ofBe (m.data.take 2)) (ofBe (m.data.drop 2)) s
    (r.1, if r.1 == 0 then 2 else 0, r.2)
  else if m.count == 0 || 256 < m.sub + m.count then (stNoObject, 0, s)
  else writeMany (asker h m) (m.index * 256 + m.sub) m.count 0 m.data s

/-- The reads of a request: no more than lim bytes fit, 988 in a frame (R356, R357). -/
def reqReads (w : Who) (lim : Nat) (m : ObjMsg) (s : State) : Nat × Nat × List Nat × State :=
  if m.count == 0 || 256 < m.sub + m.count then (stNoObject, 0, [], s)
  else
    let r := readMany w (m.index * 256 + m.sub) m.count 0 [] s
    if lim < r.2.2.1.length then (stLength, 0, [], s) else r

/-- A notice of the duplicate apex's TIM_LAG_MIN or TIM_STAGE_MIN (R39, log entry 49). -/
def figuresRx (h : Hdr) (m : ObjMsg) (s : State) : Bool :=
  isApex s && rd O.SYS_RECOVERY s == 0 && h.srcNode && h.srcSide != sideB s && h.src / 1024 == nodeNum s && m.count == 1 && m.data.length == 4
    && (m.index * 256 + m.sub == O.TIM_LAG_MIN || m.index * 256 + m.sub == O.TIM_STAGE_MIN)

/-- A request executed here, and answered (R355 to R360, R383). -/
def reqRun (h : Hdr) (m : ObjMsg) (s : State) : State :=
  match m.op with
  | 1 => let r := reqReads (asker h m) 988 m s; respond h m r.1 r.2.1 r.2.2.1 r.2.2.2
  | 2 => let r := reqWrites h m s; respond h m r.1 r.2.1 [] r.2.2
  | 3 =>
    if figuresRx h m s then
      let v := ofBe m.data
      { s with tree := if m.index * 256 + m.sub == O.TIM_LAG_MIN then { s.tree with peerLagMin := v } else { s.tree with peerStageMin := v } }
    else (reqWrites h m s).2.2
  | _ =>
    if rd O.SYS_RECOVERY s != 0 then respond h m stState 0 [] s
    else if m.data.length != 32 then respond h m stLength 0 [] s
    else let r := attest m.data s; respond h m stOk 1 r.1 r.2

/-- A proxied NOTICE goes on as one of this apex's own; it is never answered or retried (R358, R361). -/
def noticeOn (t : Nat) (m : ObjMsg) (s : State) : State :=
  sendObj 0 (tgtNode t) (tgtSideB t) (tgtCell t) { m with reqId := s.rem.nextId } (updRem (fun x => { x with nextId := (x.nextId + 1) % 65536 }) s)

/-- An OBJ_REQ arrives: a repeat is answered from the cache (R359); PROXY is served by the apex (R361). -/
def reqRx (h : Hdr) (m : ObjMsg) (s : State) : State :=
  let again := if 0 < m.tryN then cached h m s else none
  match again with
  | some r => bump O.TREE_REM_CACHED (sendFrame 5 1 false h.src h.srcSide h.srcNode false (.obj r) [backLane h s] s)
  | none =>
    if m.proxy then
      if !isApex s then (if m.op == 3 then s else respond h m stNoObject 0 [] s)
      else
        let m' : ObjMsg := { m with proxy := false, tgt := 0, tryN := 0 }
        if tgtHere m.tgt s then reqRun h m' s
        else if m.op == 3 then noticeOn m.tgt m' s
        else request (.proxy h m) (tgtNode m.tgt) (tgtSideB m.tgt) (tgtCell m.tgt) m' (remWait s) (rd O.TREE_REM_RETRIES s) s
    else reqRun h m s

/-- OBJ_REQ_READ (R357). -/
def execObjReqRead (h : Hdr) (m : ObjMsg) (s : State) : Host.Outcome State Fault Refusal := ok (reqRx h { m with op := 1 } s)

/-- OBJ_REQ_WRITE (R357, R360). -/
def execObjReqWrite (h : Hdr) (m : ObjMsg) (s : State) : Host.Outcome State Fault Refusal := ok (reqRx h { m with op := 2 } s)

/-- OBJ_REQ_NOTICE (R357): a write without response. -/
def execObjReqNotice (h : Hdr) (m : ObjMsg) (s : State) : Host.Outcome State Fault Refusal := ok (reqRx h { m with op := 3 } s)

/-- OBJ_REQ_ATTEST (R383). -/
def execObjReqAttest (h : Hdr) (m : ObjMsg) (s : State) : Host.Outcome State Fault Refusal := ok (reqRx h { m with op := 4 } s)

/-- OBJ_RESP_RX (R358). -/
def execObjRespRx (m : ObjMsg) (s : State) : Host.Outcome State Fault Refusal := ok (respRx m s)

/-- REMOTE_TIMEOUT of request id (R358, R361). -/
def execRemoteTimeout (id : Nat) (s : State) : Host.Outcome State Fault Refusal := ok (remTimeout id s)

/-- LANE_REPORT_SEND (R182, R362). -/
def execLaneReportSend (s : State) : Host.Outcome State Fault Refusal := ok (laneReport s)

/-- The apex takes the lane delays of a node as changed delays (R40, R182); an interior node keeps those of the nodes below it as they pass (R35, log entry 67). -/
def laneReportRx (node : Nat) (l : List LaneEntry) (s : State) : State :=
  if !isApex s && (aget s.tree.routes node).isNone then s
  else
    let new := l.map fun e => ({ node := node, entry := e } : LaneRep)
    lagRecompute { s with tree := { s.tree with reps := s.tree.reps.filter (fun r => r.node != node) ++ new } }

/-- REPORT_LANE_RX (R362). -/
def execReportLaneRx (node : Nat) (l : List LaneEntry) (s : State) : Host.Outcome State Fault Refusal := ok (laneReportRx node l s)

/-- The apex shows which nodes differ from their duplicates (R220). -/
def wiringReportRx (node diff : Nat) (s : State) : State := if isApex s && node < 64 then wrBit O.RED_WIRING_NODES node (diff != 0) s else s

/-- REPORT_WIRING_RX (R220, R362). -/
def execReportWiringRx (node diff : Nat) (s : State) : Host.Outcome State Fault Refusal := ok (wiringReportRx node diff s)

/-- TREE_REM_CMD READ (R363). -/
def execTreeRemRead (s : State) : Host.Outcome State Fault Refusal := ok (finish (writeRemCmd 1 s))

/-- TREE_REM_CMD WRITE (R363). -/
def execTreeRemWrite (s : State) : Host.Outcome State Fault Refusal := ok (finish (writeRemCmd 2 s))

/-- READ_REQ_RX (R365). -/
def execReadReqRx (h : Hdr) (b : Bulk) (s : State) : Host.Outcome State Fault Refusal := ok (readReqRx h b s)

/-- BULK_DATA_RX (R365, R379). -/
def execBulkDataRx (h : Hdr) (b : Bulk) (s : State) : Host.Outcome State Fault Refusal := ok (bulkDataRx h b s)

/-- BULK_ACK_RX (R365, R380). -/
def execBulkAckRx (h : Hdr) (b : Bulk) (s : State) : Host.Outcome State Fault Refusal := ok (bulkAckRx h b s)

/-- BULK_END_RX (R365, R380). -/
def execBulkEndRx (h : Hdr) (b : Bulk) (s : State) : Host.Outcome State Fault Refusal := ok (bulkEndRx h b s)

end Sys2Proof.Machine
end

