-- ==== Sys2Proof/Machine/Jop.lean ====
section
/-! DEFINITION. The commands of the apex's host ports: ARP, ICMP echo, JOP datagrams, sessions and their timers (R367 to R372, R383, R391). -/
namespace Sys2Proof.Machine

/-- A packet for this apex: an address of its port, not tagged with another VLAN (R367). -/
def toPort (f : HostFrom) (s : State) : Bool :=
  let own := if f.port == 0 then s.jop.net.ip0 else s.jop.net.ip1
  isApex s && f.port ≤ 1 && f.ip == own && (match f.vlan with | some v => v == s.jop.net.vlan | none => true)

/-- A UDP packet for SYS_JOP_PORT. -/
def toJop (f : HostFrom) (s : State) : Bool := toPort f s && f.udp == s.jop.net.jopPort

/-- The operations that ROM service mode serves (R391): DISCOVER, OPEN, CONFIRM, READ, BULK_WRITE. -/
def romServes (op : Nat) : Bool := [1, 2, 3, 0x10, 0x31].contains op

/-- The right that an operation itself needs (Table 14.10); WRITE and CLOSE need none of their own. -/
def opRight (op : Nat) : Option Nat :=
  match op with
  | 0x10 | 0x20 | 0x30 | 0x50 => some 0
  | 0x21 => some 1
  | 0x31 => some 4
  | 0x40 => some 6
  | _ => none

/-- A reply to a clear datagram. -/
def clearTo (f : HostFrom) (op status seq : Nat) (body : List Nat) (s : State) : State := clearReply f.port f.addr op status seq body s

/-- The TAG of a host's datagram is the one its key gives (R368). -/
def tagOk (key : Nat) (a : JopAuth) (op : Nat) (body : List Nat) : Bool := a.tag == hmac key (dgramBytes true a.session a.seq op 0 0 body)

/-- A SEQ that R371 accepts: not accepted before, above the greatest accepted or within the 64 below it. -/
def Session.fresh (x : Session) (seq : Nat) : Bool := decide (x.top < seq) || (decide (x.top ≤ seq + 64) && seq != x.top && !x.seen.contains seq)

/-- The session after a request is accepted (R371). -/
def Session.accept (a : JopAuth) (op t : Nat) (x : Session) : Session :=
  let top := max x.top a.seq
  { x with top := top, seen := (a.seq :: x.seen).filter (fun n => decide (top ≤ n + 64)), latest := (a.seq :: x.latest).take 16,
           replies := x.replies.filter (fun e => (a.seq :: x.latest).take 16 |>.contains e.1),
           waiting := x.waiting ++ [{ seq := a.seq, op := op, port := a.host.port, addr := a.host.addr }], last := t }

/-- A datagram of an open session with a valid TAG whose SEQ is not fresh: the cached reply, nothing while it is in progress, or a replay (R371). -/
def repeated (a : JopAuth) (x : Session) (s : State) : State :=
  match x.replies.find? fun e => e.1 == a.seq with
  | some e => updJop (fun j => { j with out := some (.jop { e.2 with port := a.host.port, addr := a.host.addr }) }) s
  | none => if x.waiting.any fun w => w.seq == a.seq then s else bump O.SYS_JOP_REPLAY s

/-- An authenticated request: session, TAG, SEQ, right of the operation, mode, then the operation itself (R368, R369, R371, R391). -/
def authRequest (a : JopAuth) (op : Nat) (body : List Nat) (run : Session → State → State) (s : State) : State :=
  if !toJop a.host s then s
  else if 1408 < body.length then bump O.SYS_JOP_BAD s
  else match session? a.session s with
  | none => bump O.SYS_JOP_NO_SESSION (clearTo a.host op stNoSession a.seq [] s)
  | some x =>
    if !tagOk x.keyHd a op body then authFailure s
    else if !x.fresh a.seq then repeated a x s
    else
      let s := updSession a.session (Session.accept a op s.tick) s
      let refused := match opRight op with | some b => !hasRight x.rights b | none => false
      if refused then jopReply a.session a.seq op stRights [] s
      else if rd O.SYS_RECOVERY s != 0 && !romServes op then jopReply a.session a.seq op stState [] s
      else run x s

/-- A reply to an authenticated request. -/
def authReply (a : JopAuth) (op status : Nat) (body : List Nat) (s : State) : State := jopReply a.session a.seq op status body s

/-- The message that carries a host's request on (R357, R360). -/
def hostMsg (x : Session) (op index sub count : Nat) (data : List Nat) : ObjMsg :=
  { reqId := 0, op := op, status := 0, index := index, sub := sub, count := count, tryN := 0, proxy := false, commission := hasRight x.rights 3, tgt := 0, data := data }

/-- ARP for an own address (R367). -/
def arpEffect (port ip : Nat) (vlan : Option Nat) (s : State) : State :=
  if !toPort ⟨port, 0, ip, 0, vlan⟩ s then s
  else updJop (fun j => { j with out := some (.arp port ip (madeValue (O.SYS_MAC port))) }) s

/-- ICMP echo, at most 100 answers within one second (R367). -/
def echoEffect (f : HostFrom) (data : List Nat) (s : State) : State :=
  if !toPort f s then s
  else
    let l := s.jop.pings.filter fun t => s.tick < t + ms 1000
    if 100 ≤ l.length then updJop (fun j => { j with pings := l }) s
    else updJop (fun j => { j with pings := s.tick :: l, out := some (.echo f.port f.addr data) }) s

/-- The identity that DISCOVER returns (Table 14.10). -/
def discoverBody (s : State) : List Nat :=
  [O.SYS_SERIAL, O.SYS_PART, O.SYS_FW_VERSION, O.TREE_ROLE, O.TREE_NODE_NUMBER, O.SEC_OWNER_STATE].flatMap fun k => valueBytes k (readVal k s)

/-- DISCOVER in the clear. -/
def discoverEffect (f : HostFrom) (seq : Nat) (s : State) : State := if !toJop f s then s else clearTo f 1 stOk seq (discoverBody s) s

/-- ASCII of the labels of R370. -/
def ascii (t : String) : List Nat := t.toList.map Char.toNat

/-- The session keys (R370): own ephemeral secret, the host's point, both nonces, label. -/
def sessionKey (d qh : Nat) (nh nd : List Nat) (label : String) : Nat := hkdf32 (nh ++ nd) (beBytes 32 (ecdhX d qh)) (ascii label)

/-- Why an OPEN is refused (R370, R372): an empty slot or a claim of an owned device, a key that is no point of the curve, no room. -/
def openStatus (slot qh ql : Nat) (s : State) : Nat :=
  let claim : Bool := slot == 0xFF
  if claim && rd O.SEC_OWNER_STATE s != 0 then stRights
  else if !claim && (7 < slot || rd (O.SEC_HOST_KEY slot) s == 0) then stRights
  else if !onCurve qh || (claim && !onCurve ql) then stRange
  else if 4 ≤ s.jop.sessions.length || 2 ≤ s.jop.opens.length then stBusy
  else stOk

/-- OPEN (R370): nonce, ephemeral secret and signature nonce of the device are free values (log entry 3). -/
def openEffect (f : HostFrom) (seq slot : Nat) (nh : List Nat) (qh ql : Nat) (s : State) : State :=
  if !toJop f s then s
  else
    let st := openStatus slot qh ql s
    if st != 0 then clearTo f 2 st seq [] s
    else
      let rN := takeFree 256 s
      let rD := takeFree 256 rN.2
      let rK := takeFree 256 rD.2
      let s := rK.2
      let nd := beBytes 32 rN.1
      let qd := beBytes 65 (publicKey rD.1)
      let id := s.jop.nextId
      let nhB := padTo 32 0 nh
      let tB := ascii "JOP1" ++ [slot, 0, 0, 0] ++ nhB ++ beBytes 65 qh ++ (if slot == 0xFF then beBytes 65 ql else []) ++ beBytes 4 id ++ nd ++ qd
      let sigD := ecdsaSign idSecret rK.1 tB
      let o : OpenSt := { id := id, slot := slot, ql := ql, t := tB, sigD := sigD, keyHd := sessionKey rD.1 qh nhB nd "JOP1 host to device",
                          keyDh := sessionKey rD.1 qh nhB nd "JOP1 device to host", at_ := s.tick }
      let s := updJop (fun j => { j with nextId := if id + 1 < 2 ^ 32 then id + 1 else 1, opens := j.opens ++ [o] }) s
      clearTo f 2 stOk seq (beBytes 4 id ++ nd ++ qd ++ beBytes 64 sigD) s

/-- The key a CONFIRM is verified against: that of the slot, or the one a claim carried (R370, R372). -/
def OpenSt.key (o : OpenSt) (s : State) : Nat := if o.slot == 0xFF then o.ql else rd (O.SEC_HOST_KEY o.slot) s

/-- A verified CONFIRM (R370, R372): a claim installs its key; the session opens. -/
def sessionOpens (a : JopAuth) (o : OpenSt) (s : State) : State :=
  let s := if o.slot == 0xFF then putHostKey 0 o.ql 0x7F s else s
  let rights := if o.slot == 0xFF then 0x7F else rd (O.SEC_HOST_RIGHTS o.slot) s
  let x : Session := { id := o.id, rights := rights, keyHd := o.keyHd, keyDh := o.keyDh, top := 1, seen := [1], sent := 0, latest := [1], replies := [],
                       waiting := [{ seq := 1, op := 3, port := a.host.port, addr := a.host.addr }], last := s.tick }
  let s := showSessions (updJop (fun j => { j with opens := j.opens.filter (fun y => y.id != o.id), sessions := j.sessions ++ [x] }) s)
  authReply a 3 stOk [] s

/-- CONFIRM of a held OPEN (R370). -/
def confirmOpen (a : JopAuth) (o : OpenSt) (sigH : Nat) (body : List Nat) (s : State) : State :=
  if !tagOk o.keyHd a 3 body then authFailure s
  else if 4 ≤ s.jop.sessions.length then clearTo a.host 3 stBusy a.seq [] s
  else if o.slot == 0xFF && rd O.SEC_OWNER_STATE s != 0 then clearTo a.host 3 stRights a.seq [] s
  else if a.seq != 1 || !ecdsaVerify (o.key s) (o.t ++ beBytes 64 o.sigD) sigH then clearTo a.host 3 stAuth a.seq [] (authFailure s)
  else sessionOpens a o s

/-- CONFIRM; in an open session it answers STATE unless it repeats the one that opened it. -/
def confirmEffect (a : JopAuth) (sigH : Nat) (s : State) : State :=
  let body := beBytes 64 sigH
  match s.jop.opens.find? fun o => o.id == a.session with
  | some o => if !toJop a.host s then s else confirmOpen a o sigH body s
  | none => authRequest a 3 body (fun _ => authReply a 3 stState []) s

/-- CLOSE (R371): answered, then over. -/
def closeEffect (a : JopAuth) (s : State) : State := authRequest a 4 [] (fun _ s => closeSession a.session (authReply a 4 stOk [] s)) s

/-- Bytes of TARGET, INDEX, SUB, COUNT. -/
def readHead (tgt index sub count : Nat) : List Nat := beBytes 4 tgt ++ beBytes 2 index ++ [low 8 sub, low 8 count]

/-- READ (R356, R369): here at once, elsewhere by a request. -/
def jopReadEffect (a : JopAuth) (tgt index sub count : Nat) (s : State) : State :=
  authRequest a 0x10 (readHead tgt index sub count) (fun x s =>
    let m := hostMsg x 1 (low 16 index) (low 8 sub) (low 8 count) []
    if tgtHere tgt s then
      let r := reqReads (.jop x.rights) 1404 m s
      authReply a 0x10 r.1 (readBody r.2.1 r.2.2.1) r.2.2.2
    else requestTo (.jop a.session a.seq 0x10) tgt m s) s

/-- The rights that the objects of a write need are held (Table 14.11). -/
def mayWrite (rights k : Nat) : Nat → Nat → List Nat → Bool
  | 0, _, _ => true
  | c + 1, n, d =>
    let len := ceilDiv (objBits (k + n)) 8
    hasRight rights (needRight (k + n) (ofBe (d.take len))) && mayWrite rights k c (n + 1) (d.drop len)

/-- WRITE (R356, R369): here at once, elsewhere by a request once the rights are held. -/
def jopWriteEffect (a : JopAuth) (tgt index sub count : Nat) (data : List Nat) (s : State) : State :=
  authRequest a 0x11 (readHead tgt index sub count ++ beBytes 2 data.length ++ data) (fun x s =>
    let k := low 16 index * 256 + low 8 sub
    let c := low 8 count
    if tgtHere tgt s then
      if c == 0 || 256 < low 8 sub + c then authReply a 0x11 stNoObject [0] s
      else
        let r := writeMany (.jop x.rights) k c 0 data s
        authReply a 0x11 r.1 [r.2.1] r.2.2
    else if !mayWrite x.rights k c 0 data then authReply a 0x11 stRights [0] s
    else if 988 < data.length then authReply a 0x11 stLength [0] s
    else requestTo (.jop a.session a.seq 0x11) tgt (hostMsg x 2 (low 16 index) (low 8 sub) c data) s) s

/-- EVENT_READ (R369): the first entries of the apex's queue. -/
def eventReadEffect (a : JopAuth) (n : Nat) (s : State) : State :=
  authRequest a 0x20 [low 8 n] (fun _ s =>
    if n == 0 || 40 < n then authReply a 0x20 stRange [] s
    else
      let l := s.ket.queue.take n
      authReply a 0x20 stOk ([l.length, 0] ++ beBytes 2 (rd O.KET_Q_FILL s) ++ l.flatMap (·.bytes)) s) s

/-- EVENT_ACK (R369): N entries go when the head is the one named. -/
def eventAckEffect (a : JopAuth) (n origin eseq : Nat) (s : State) : State :=
  authRequest a 0x21 ([low 8 n, 0] ++ beBytes 2 origin ++ beBytes 4 eseq) (fun _ s =>
    match s.ket.queue.head? with
    | none => authReply a 0x21 stState [] s
    | some e =>
      if e.origin != origin || e.eseq != eseq then authReply a 0x21 stState [] s
      else authReply a 0x21 stOk [] (queueShrunk (updKet (fun t => { t with queue := t.queue.drop (low 8 n) }) s))) s

/-- Bytes of TARGET, REGION, reserved, OFFSET, LEN. -/
def bulkHead (tgt region off len : Nat) : List Nat := beBytes 4 tgt ++ beBytes 2 region ++ rsv 2 ++ beBytes 8 off ++ beBytes 4 len

/-- DST of a target (R147). -/
def tgtAddr (tgt : Nat) : Nat := nodeAddr (tgtNode tgt) + (tgtCell tgt).getD 0

/-- The lane toward a target. -/
def tgtLane (tgt : Nat) (s : State) : Nat :=
  match tgtCell tgt with
  | some i => if tgtNode tgt == nodeNum s then i / 16 else routeNode (tgtNode tgt) (sideB s) s
  | none => routeNode (tgtNode tgt) (tgtSideB tgt) s

/-- A fresh transfer number. -/
def takeXfer (s : State) : Nat × State := (s.rem.nextXfer, updRem (fun r => { r with nextXfer := (r.nextXfer + 1) % 65536 }) s)

/-- BULK_READ (R365, R366, R369). -/
def bulkReadEffect (a : JopAuth) (tgt region off len : Nat) (s : State) : State :=
  authRequest a 0x30 (bulkHead tgt region off len) (fun _ s =>
    if len == 0 || 1392 < len then authReply a 0x30 stRange [] s
    else if tgtHere tgt s then
      let st := readStatus region off len s
      authReply a 0x30 st (if st == stOk then beBytes 4 len ++ regionBytes region off len s else []) s
    else
      let r := takeXfer s
      let x : InXfer := { src := tgtAddr tgt, srcSide := tgtSideB tgt, srcNode := (tgtCell tgt).isNone, id := r.1, region := region, got := [],
                          read := some (a.session, a.seq), offset := off, len := len, data := [], round := 0 }
      sendReadReq x off len (updRem (fun y => { y with ins := y.ins ++ [x] }) r.2)) s

/-- BULK_WRITE (R365, R369, R379). -/
def bulkWriteEffect (a : JopAuth) (tgt region off : Nat) (data : List Nat) (s : State) : State :=
  let len := data.length
  authRequest a 0x31 (bulkHead tgt region off len ++ data) (fun _ s =>
    if len == 0 || 1376 < len then authReply a 0x31 stRange [] s
    else if tgtHere tgt s then
      let st := writeStatus region off len s
      authReply a 0x31 st [] (if st == stOk then slotWritten (slotWrite off data s) else s)
    else
      let r := takeXfer s
      startOut { id := r.1, dst := tgtAddr tgt, side := tgtSideB tgt, dstNode := (tgtCell tgt).isNone, bcast := false, lane := tgtLane tgt r.2,
                 region := region, todo := [(off, len)], offset := off, len := len, ended := false, status := 0, round := 0,
                 why := .write a.session a.seq, data := data } r.2) s

/-- SYS_CORE_MSG with data copied over its first bytes. -/
def putCoreMsg (data : List Nat) (s : State) : State :=
  let old := (List.range 8).flatMap fun j => beBytes 32 (rd (O.SYS_CORE_MSG j) s)
  let all := data ++ old.drop data.length
  each (List.range 8) (fun j s => wr (O.SYS_CORE_MSG j) (ofBe ((all.drop (32 * j)).take 32)) s) s

/-- CORE_MSG (R369). -/
def coreMsgEffect (a : JopAuth) (data : List Nat) (s : State) : State :=
  authRequest a 0x40 (beBytes 2 data.length ++ data) (fun _ s =>
    if data.isEmpty || 256 < data.length then authReply a 0x40 stRange [] s
    else if rd O.SYS_CORE_MSG_LEN s != 0 then authReply a 0x40 stBusy [] s
    else authReply a 0x40 stOk [] (fireEvent 19 (wr O.SYS_CORE_MSG_LEN data.length (putCoreMsg data s)))) s

/-- ATTEST (R369, R383). -/
def jopAttestEffect (a : JopAuth) (tgt : Nat) (nonce : List Nat) (s : State) : State :=
  let nb := padTo 32 0 nonce
  authRequest a 0x50 (beBytes 4 tgt ++ nb) (fun x s =>
    if tgtHere tgt s then
      let r := attest nb s
      authReply a 0x50 stOk r.1 r.2
    else requestTo (.jop a.session a.seq 0x50) tgt (hostMsg x 4 0 0 0 nb) s) s

/-- An OPEN without a valid CONFIRM within 1 s is discarded (R370). -/
def openExpires (id : Nat) (s : State) : State :=
  match s.jop.opens.find? fun o => o.id == id with
  | none => s
  | some o => updJop (fun j => { j with opens := j.opens.filter fun y => y.id != id }) (advTo (o.at_ + ms 1000) s)

/-- A session without an accepted request for SYS_SESSION_IDLE closes (R371). -/
def sessionExpires (id : Nat) (s : State) : State :=
  match session? id s with
  | none => s
  | some x => closeSession id (advTo (x.last + ms (1000 * rd O.SYS_SESSION_IDLE s)) s)

/-- 10 s after the last second with too many failures (R371). -/
def authRateEnds (s : State) : State :=
  match s.jop.authEnd with
  | none => s
  | some t => updSecurity (wrBit O.SEC_STATUS 0 false (updJop (fun j => { j with authEnd := none }) (advTo t s)))

/-- A write of SYS_CORE_MSG_LEN (R369). -/
def writeCoreMsgLen (v : Nat) (s : State) : Res := writeBy O.SYS_CORE_MSG_LEN v 0 (fun s => done (wr O.SYS_CORE_MSG_LEN v s)) s

/-- ARP_RX (R367). -/
def execArpRx (port ip : Nat) (vlan : Option Nat) (s : State) : Host.Outcome State Fault Refusal := ok (arpEffect port ip vlan s)

/-- ICMP_ECHO_RX (R367). -/
def execIcmpEchoRx (f : HostFrom) (data : List Nat) (s : State) : Host.Outcome State Fault Refusal := ok (echoEffect f data s)

/-- DISCOVER (R369). -/
def execJopDiscover (f : HostFrom) (seq : Nat) (s : State) : Host.Outcome State Fault Refusal := ok (discoverEffect f seq s)

/-- OPEN (R370, R372). -/
def execJopOpen (f : HostFrom) (seq slot : Nat) (nh : List Nat) (qh ql : Nat) (s : State) : Host.Outcome State Fault Refusal :=
  ok (openEffect f seq slot nh qh ql s)

/-- JOP_CONFIRM (R370, R372). -/
def execJopConfirm (a : JopAuth) (sigH : Nat) (s : State) : Host.Outcome State Fault Refusal := ok (confirmEffect a sigH s)

/-- CLOSE (R371). -/
def execJopClose (a : JopAuth) (s : State) : Host.Outcome State Fault Refusal := ok (closeEffect a s)

/-- READ (R369). -/
def execJopRead (a : JopAuth) (tgt index sub count : Nat) (s : State) : Host.Outcome State Fault Refusal := ok (jopReadEffect a tgt index sub count s)

/-- WRITE (R369). -/
def execJopWrite (a : JopAuth) (tgt index sub count : Nat) (data : List Nat) (s : State) : Host.Outcome State Fault Refusal :=
  ok (jopWriteEffect a tgt index sub count data s)

/-- EVENT_READ (R369). -/
def execJopEventRead (a : JopAuth) (n : Nat) (s : State) : Host.Outcome State Fault Refusal := ok (eventReadEffect a n s)

/-- EVENT_ACK (R369). -/
def execJopEventAck (a : JopAuth) (n origin eseq : Nat) (s : State) : Host.Outcome State Fault Refusal := ok (eventAckEffect a n origin eseq s)

/-- BULK_READ (R365, R369). -/
def execJopBulkRead (a : JopAuth) (tgt region off len : Nat) (s : State) : Host.Outcome State Fault Refusal := ok (bulkReadEffect a tgt region off len s)

/-- BULK_WRITE (R365, R369). -/
def execJopBulkWrite (a : JopAuth) (tgt region off : Nat) (data : List Nat) (s : State) : Host.Outcome State Fault Refusal :=
  ok (bulkWriteEffect a tgt region off data s)

/-- CORE_MSG (R369). -/
def execJopCoreMsg (a : JopAuth) (data : List Nat) (s : State) : Host.Outcome State Fault Refusal := ok (coreMsgEffect a data s)

/-- ATTEST (R369, R383). -/
def execJopAttest (a : JopAuth) (tgt : Nat) (nonce : List Nat) (s : State) : Host.Outcome State Fault Refusal := ok (jopAttestEffect a tgt nonce s)

/-- JOP_OPEN_EXPIRY (R370). -/
def execJopOpenExpiry (id : Nat) (s : State) : Host.Outcome State Fault Refusal := ok (openExpires id s)

/-- SESSION_IDLE_TIMEOUT (R371). -/
def execSessionIdleTimeout (id : Nat) (s : State) : Host.Outcome State Fault Refusal := ok (sessionExpires id s)

/-- AUTH_RATE_END (R371). -/
def execAuthRateEnd (s : State) : Host.Outcome State Fault Refusal := ok (authRateEnds s)

/-- SYS_CORE_MSG_LEN (R369). -/
def execSysCoreMsgLen (v : Nat) (s : State) : Host.Outcome State Fault Refusal := ok (finish (writeCoreMsgLen v s))

/-- JOP_DATAGRAM_MALFORMED (R368). -/
def execJopDatagramMalformed (s : State) : Host.Outcome State Fault Refusal := ok (if isApex s then bump O.SYS_JOP_BAD s else s)

end Sys2Proof.Machine
end

