-- ==== Sys2Proof/Machine/Jtag.lean ====
section
/-! DEFINITION. The test access port and its instructions (R427, Table 16.14). -/
namespace Sys2Proof.Machine

/-- The port changed. -/
def updJtag (f : JtagSt → JtagSt) (s : State) : State := { s with jtag := f s.jtag }

/-- IDCODE: SYS_SILICON_REV in [31:28], 0x6480 in [27:12], 0x6D3 in [11:1], 1 in [0]. -/
def idcode : Nat := low 4 (Config.made O.SYS_SILICON_REV) * 2 ^ 28 + 0x6480 * 2 ^ 12 + 0x6D3 * 2 + 1

/-- BYPASS: one bit between TDI and TDO; the balls follow the device. -/
def jtagBypass (code : Nat) (s : State) : State := updJtag (fun j => { j with ir := code, dr := none, bypass := false, pins := .system }) s

/-- An instruction that is available with TEST_EN high only (Table 16.14); with TEST_EN low its code is one of the others, BYPASS. -/
def jtagTest (code : Nat) (f : JtagSt → JtagSt) (s : State) : State :=
  if s.straps.testEn then updJtag (fun j => { f j with ir := code }) s else jtagBypass code s

/-- EXTEST (R427): the chain takes the balls, and its update stage, loaded with drive, drives them. -/
def execJtagExtest (balls drive : List Bool) (s : State) : Host.Outcome State Fault Refusal :=
  ok (jtagTest 0 (fun j => { j with captured := balls, chain := drive, dr := none, pins := .chain }) s)

/-- SAMPLE/PRELOAD (R427): the chain takes the balls and its update stage is loaded; the device goes on. -/
def execJtagSamplePreload (balls load : List Bool) (s : State) : Host.Outcome State Fault Refusal :=
  ok (updJtag (fun j => { j with ir := 1, captured := balls, chain := load, dr := none, pins := .system }) s)

/-- IDCODE (R427). -/
def execJtagIdcode (s : State) : Host.Outcome State Fault Refusal := ok (updJtag (fun j => { j with ir := 2, dr := some idcode, pins := .system }) s)

/-- HIGHZ (R427): the outputs in the chain are in high impedance, with the bypass bit selected. -/
def execJtagHighz (s : State) : Host.Outcome State Fault Refusal := ok (jtagTest 3 (fun j => { j with dr := none, bypass := false, pins := .highz }) s)

/-- CLAMP (R427): the preloaded values drive the outputs, with the bypass bit selected. -/
def execJtagClamp (s : State) : Host.Outcome State Fault Refusal := ok (jtagTest 4 (fun j => { j with dr := none, bypass := false, pins := .chain }) s)

/-- BYPASS (R427): 0xFF and every other code. -/
def execJtagBypass (code : Nat) (s : State) : Host.Outcome State Fault Refusal := ok (jtagBypass (if code ≤ 4 then 0xFF else low 8 code) s)

/-- TEST_LOGIC_RESET (R427): IDCODE is selected. -/
def execJtagReset (s : State) : Host.Outcome State Fault Refusal := ok (updJtag (fun j => { j with ir := 2, dr := some idcode, bypass := false, pins := .system }) s)

end Sys2Proof.Machine
end

