-- ==== Sys2Proof/Machine/Nvm.lean ====
section
/-! DEFINITION. The commands of the parameter store, the image slots and the keys (R372 to R380). -/
namespace Sys2Proof.Machine

/-- NVM_CMD STORE (R374). -/
def execNvmStore (s : State) : Host.Outcome State Fault Refusal := ok (finish (writeNvmCmd 1 s))

/-- NVM_STORE_DONE (R374): good tells whether the write has succeeded. -/
def execNvmStoreDone (good : Bool) (s : State) : Host.Outcome State Fault Refusal := ok (storeDone good s)

/-- NVM_CMD RESTORE_DEFAULTS (R375). -/
def execNvmRestoreDefaults (s : State) : Host.Outcome State Fault Refusal := ok (finish (writeNvmCmd 2 s))

/-- NVM_CMD VERIFY (R377). -/
def execNvmVerify (s : State) : Host.Outcome State Fault Refusal := ok (finish (writeNvmCmd 3 s))

/-- NVM_CMD ACTIVATE (R379). -/
def execNvmActivate (s : State) : Host.Outcome State Fault Refusal := ok (finish (writeNvmCmd 4 s))

/-- NVM_CMD COMMIT (R379). -/
def execNvmCommit (s : State) : Host.Outcome State Fault Refusal := ok (finish (writeNvmCmd 5 s))

/-- NVM_CMD DISTRIBUTE (R380). -/
def execNvmDistribute (s : State) : Host.Outcome State Fault Refusal := ok (finish (writeNvmCmd 6 s))

/-- SLOT_ERASE_DONE (R379): good tells whether the erase has succeeded. -/
def execSlotEraseDone (good : Bool) (s : State) : Host.Outcome State Fault Refusal := ok (eraseDone good s)

/-- SEC_CMD INSTALL_HOST of a slot (R373); right: over JOP with KEYS. -/
def execSecInstallHost (right : Bool) (slot : Nat) (s : State) : Host.Outcome State Fault Refusal := ok (finish (writeSecCmd right (slot * 256 + 1) s))

/-- SEC_CMD REMOVE_HOST of a slot (R373). -/
def execSecRemoveHost (right : Bool) (slot : Nat) (s : State) : Host.Outcome State Fault Refusal := ok (finish (writeSecCmd right (slot * 256 + 2) s))

/-- SEC_CMD INSTALL_IMAGE_KEY (R373). -/
def execSecInstallImageKey (right : Bool) (s : State) : Host.Outcome State Fault Refusal := ok (finish (writeSecCmd right 3 s))

/-- SEC_CMD DISOWN (R372). -/
def execSecDisown (right : Bool) (s : State) : Host.Outcome State Fault Refusal := ok (finish (writeSecCmd right 4 s))

end Sys2Proof.Machine
end

