-- ==== Sys2Proof/Machine/Period.lean ====
section
/-! DEFINITION. The P-mark of a control period: what every unit does at it (R27, R31, R80, R191, R200, R230, R250). -/
namespace Sys2Proof.Machine

/-- The period that the next P-mark begins: the one after the latest, or the first of the set that comes into force (R27, R191). -/
def nextPeriod (s : State) : Option Nat :=
  match s.tim.inForce, s.tim.pend with
  | some _, _ => some (kNow s + 1)
  | none, some p => some (max p.kEff (p.firstAt (vtTicks s)))
  | none, none => none

/-- Every unit at P(k). -/
def pMarkAt (k : Nat) (s : State) : State :=
  let s := adcNow (each (List.range 68) laneDue (advVt (pOf k s) s))
  let changed : Bool := hasGrid s && tOf (kNow s) s != tOf k s
  let s := paramsAt k (wr O.TIM_PERIOD_NUMBER k s)
  let s := caddyPMark (lawPMark k (redPMark k s))
  let s := acqPMark k changed (adcPMark k (balPMark k (claimOf k s) s))
  cellPMark k s

/-- The next P-mark; without a period grid there is none. -/
def pMark (s : State) : State := match nextPeriod s with | some k => pMarkAt k s | none => s

/-- P_MARK (R27). -/
def execPMark (s : State) : Host.Outcome State Fault Refusal := ok (pMark s)

end Sys2Proof.Machine
end

