-- ==== Sys2Proof/Machine/Tsk.lean ====
section
/-! DEFINITION. The commands of the task dispatcher and of the cores' accesses (chapter 11). -/
namespace Sys2Proof.Machine

/-- TSK_CMD ENABLE of task n (R301, R302). -/
def execTaskEnable (n : Nat) (s : State) : Host.Outcome State Fault Refusal := ok (finish (writeTskCmd (n * 256 + 1) s))

/-- TSK_CMD DISABLE of task n (R302). -/
def execTaskDisable (n : Nat) (s : State) : Host.Outcome State Fault Refusal := ok (finish (writeTskCmd (n * 256 + 2) s))

/-- TSK_CMD SIGNAL of task n (R303). -/
def execTaskSignal (n : Nat) (s : State) : Host.Outcome State Fault Refusal := ok (finish (writeTskCmd (n * 256 + 3) s))

/-- TSK_CMD CLEAR_COUNTERS (R313). -/
def execTskCmdClearCounters (s : State) : Host.Outcome State Fault Refusal := ok (finish (writeTskCmd 4 s))

/-- The bytes of a value in the cores' memory: strings of bytes from their first byte, all else little-endian (R8, R298). -/
def memBytes (k v : Nat) : List Nat :=
  let n := ceilDiv (objBits k) 8
  match objRow? k with
  | some r => (match r.ty with | .octet _ => beBytes n v | .str _ => beBytes n v | _ => leBytes n v)
  | none => leBytes n v

/-- The value that bytes of the cores' memory spell. -/
def memValue (k : Nat) (b : List Nat) : Nat :=
  match objRow? k with
  | some r => (match r.ty with | .octet _ => ofBe b | .str _ => ofBe b | _ => ofLe b)
  | none => ofLe b

/-- The object is signed. -/
def signedObj (k : Nat) : Bool := match objRow? k with | some r => (match r.ty with | .i _ => true | _ => false) | none => false

/-- A word as the value of an object of at most 32 bits, none where its upper bytes are not the extension of the value (R298). -/
def wordValue (k v : Nat) : Option Nat :=
  let w := objBits k
  let x := low w v
  if signedObj k then (if low 32 v == ofI 32 (toI w x) then some x else none) else if v < 2 ^ (8 * ceilDiv w 8) then some v else none

/-- A word written through the object window of core c: its status and the state (R298). -/
def winWrite (c k v : Nat) (fw : Bool) (s : State) : Res :=
  if objBits k ≤ 32 then
    match wordValue k v with
    | some x => writeObj (.core fw) k x s
    | none => (let st := writeCheck (.core fw) k v s; if st != 0 then st else stRange, s)
  else
    let n := ceilDiv (objBits k) 8
    writeObj (.core fw) k (memValue k (leBytes 4 v ++ ((port c s).wide.drop 4).take (n - 4))) s

/-- A word read through the object window of core c: status, word, state; a wider value is latched into WIDE (R298). -/
def winRead (c k : Nat) (fw : Bool) (s : State) : Nat × Nat × State :=
  let r := readObj (.core fw) k s
  if r.1 != 0 then (r.1, 0, r.2.2)
  else if objBits k ≤ 32 then (0, if signedObj k then ofI 32 (toI (objBits k) r.2.1) else r.2.1, r.2.2)
  else
    let b := memBytes k r.2.1
    (0, ofLe (b.take 4), updPort c (fun p => { p with wide := padTo 128 0 b }) r.2.2)

/-- The object a window offset addresses (R10). -/
def winKey (off : Nat) : Nat := off / 1024 * 256 + off / 4 % 256

/-- ERR of WIN_STATUS where an access was refused. -/
def winErr (c st : Nat) (s : State) : State := if st != 0 then updPort c (fun p => { p with winErr := true }) s else s

/-- An entry of a commit buffer applied; a refused one, and one for a wider object, is counted (R310). -/
def commitEntry (n c : Nat) (e : Nat × Nat) (s : State) : State :=
  if e.1 < 0x28000000 then stBytes (e.1 - 0x4000000) (leBytes 4 e.2) s
  else
    let k := winKey (e.1 - 0x44000000)
    if objBits k > 32 then bump (O.TSK_COMMIT_ERR n) s
    else
      let r := winWrite c k e.2 (n < 16) s
      if r.1 != 0 then bump (O.TSK_COMMIT_ERR n) r.2 else r.2

/-- DONE at core c: the commit is applied, memory entries first, or discarded where it overflowed; the instance ends (R302, R309, R310). At its deadline it comes too late (R311). -/
def taskDone (c : Nat) (s : State) : State :=
  let n := coreTask c s
  match taskRec? n s with
  | none => s
  | some t =>
    if (match deadlineAt t s with | some d => decide (d ≤ s.tick) | none => false) then abortAndDispatch n 1 s
    else if t.buf.length > rd (O.TSK_COMMIT_MAX n) s then abortAndDispatch n 3 s
    else
      let s := each (t.buf.filter fun e => e.1 < 0x28000000) (commitEntry n c) s
      let s := each (t.buf.filter fun e => 0x28000000 ≤ e.1) (commitEntry n c) s
      if taskState n s != 4 then s
      else
        let ns := nsOfTicks (s.tick - t.rel)
        dispatch (endInstance n (wr (O.TSK_RESP_MAX n) (satU 32 (max ns (rd (O.TSK_RESP_MAX n) s))) s))

/-- DONE (R302, R310). -/
def execTaskDone (c : Nat) (s : State) : Host.Outcome State Fault Refusal := ok (taskDone c s)

/-- DELAY (R302, R307). -/
def execTaskDelay (c n : Nat) (s : State) : Host.Outcome State Fault Refusal := ok (delayTask c n s)

/-- SIGNAL written at the port of core c (R303). -/
def portSignal (c v : Nat) (s : State) : State := if coreTask c s == 0xFFFF || 255 < v then s else signalTask v s

/-- PORT_SIGNAL (R303). -/
def execPortSignal (c v : Nat) (s : State) : Host.Outcome State Fault Refusal := ok (portSignal c v s)

/-- WIN_STATUS written at the port of core c: 1 clears (Table 11.2). -/
def winStatus (c v : Nat) (s : State) : State :=
  updPort c (fun p => { p with winErr := p.winErr && !bit v 0, commitFull := p.commitFull && !bit v 1 }) s

/-- WIN_STATUS (R298). -/
def execWinStatus (c v : Nat) (s : State) : Host.Outcome State Fault Refusal := ok (winStatus c v s)

/-- What an access of a core comes to: a fault of R299, or the value read (0 for a store) and the state. -/
abbrev CoreRes := Option (Nat × State)

/-- Memory read or stored where a task may (size bytes, little-endian). -/
def memAccess (a size : Nat) (v : Option Nat) (s : State) : CoreRes :=
  match v with
  | some x => some (0, stBytes a (leBytes size x) s)
  | none => some (ofLe (ldBytes a size s), s)

/-- A store of task n to a commit alias becomes an entry of its buffer; one beyond TSK_COMMIT_MAX marks it full (R309). -/
def commitStore (c n a v : Nat) (s : State) : State :=
  let len := match taskRec? n s with | some t => t.buf.length | none => 0
  let top := rd (O.TSK_COMMIT_MAX n) s
  let s := if len ≥ top then updPort c (fun p => { p with commitFull := true }) s else s
  if len > top then s else updTask n (fun t => { t with buf := t.buf ++ [(a, low 32 v)] }) s

/-- The dispatcher port of core c at an offset (Table 11.2); an access the table does not list is a fault. -/
def portAccess (c n off size : Nat) (v : Option Nat) (s : State) : CoreRes :=
  let rel := match taskRec? n s with | some t => t.rel | none => 0
  if 0x80 ≤ off then
    match v with
    | some x => some (0, updPort c (fun p => { p with wide := (List.range 128).map fun i => if off - 0x80 ≤ i && i < off - 0x80 + size then (leBytes size x).getD (i - (off - 0x80)) 0 else p.wide.getD i 0 }) s)
    | none => some (ofLe (((port c s).wide.drop (off - 0x80)).take size), s)
  else if size != 4 then none
  else match off, v with
    | 0x00, none => some (n, s)
    | 0x04, none => some (c, s)
    | 0x08, some _ => some (0, taskDone c s)
    | 0x0C, some x => some (0, delayTask c x s)
    | 0x10, some x => some (0, portSignal c x s)
    | 0x14, none => some (low 32 rel, s)
    | 0x18, none => some (rel / 2 ^ 32, s)
    | 0x1C, none => some (b2n (port c s).winErr + 2 * b2n (port c s).commitFull, s)
    | 0x1C, some x => some (0, winStatus c x s)
    | _, _ => none

/-- An access of the task on core c to the memory map of Table 11.1. Memory out of service reads a free value and takes no store. -/
def mapAccess (c n a size : Nat) (v : Option Nat) (s : State) : CoreRes :=
  let node := isNode s
  let fw : Bool := n < 16
  let dataTop := if node then 0x400000 else 0x80000
  let sysTop := if node then 0x100000 else 0x40000
  let gone : CoreRes := match v with | some _ => some (0, s) | none => some (takeFree (8 * size) s)
  let in_ (b z : Nat) : Bool := b ≤ a && a + size ≤ b + z
  if in_ 0x10000000 (if node then 0x200000 else 0x80000) then (if v.isSome then none else memAccess a size none s)
  else if in_ 0x20000000 dataTop then (if !fw && a < 0x20000000 + sysTop then none else memAccess a size v s)
  else if in_ 0x24000000 dataTop then
    if !fw && a < 0x24000000 + sysTop then none
    else match v with
      | some x => if size == 4 then some (0, commitStore c n a x s) else none
      | none => memAccess (a - 0x4000000) size none s
  else if in_ 0x28000000 0x10000 then memAccess (2 ^ 44 * (c + 1) + (a - 0x28000000)) size v s
  else if in_ 0x40000000 0x4000000 then
    if size != 4 then none
    else match v with
      | some x => let r := winWrite c (winKey (a - 0x40000000)) x fw s; some (0, winErr c r.1 r.2)
      | none => let r := winRead c (winKey (a - 0x40000000)) fw s; some (r.2.1, winErr c r.1 r.2.2)
  else if in_ 0x44000000 0x4000000 then
    if size != 4 then none
    else match v with
      | some x => some (0, commitStore c n a x s)
      | none => let r := winRead c (winKey (a - 0x44000000)) fw s; some (r.2.1, winErr c r.1 r.2.2)
  else if in_ 0x4C000000 0x100 then portAccess c n (a - 0x4C000000) size v s
  else if !node then none
  else if in_ 0x48000000 0x200000 then (if v.isSome then none else memAccess a size none s)
  else if in_ 0x50000000 0x2000000 then (if v.isSome then none else if captureUp s then memAccess a size none s else gone)
  else if in_ 0x60000000 0x10000000 then
    let o := rd O.ACQ_DDR_WINDOW s * 65536 + (a - 0x60000000)
    if ddrUp s && o + size ≤ s.sys.ddrMiB * 2 ^ 20 then memAccess (ddrBase + o) size v s else gone
  else none

/-- A load (v none) or store of 1, 2 or 4 bytes by the task on core c: answered, or a fault of R299 that aborts it (R297 to R299, R308). -/
def coreAccess (c a size : Nat) (v : Option Nat) (s : State) : State :=
  let n := coreTask c s
  if n == 0xFFFF || !(size == 1 || size == 2 || size == 4) then s
  else match (if a % size == 0 then mapAccess c n a size v s else none) with
    | some r => answer 0 [r.1] r.2
    | none => abortAndDispatch n 2 s

/-- OBJECT_WINDOW_ACCESS (R298), with every other access of Table 11.1: core, address, size, value of a store. -/
def execObjectWindowAccess (c a size : Nat) (v : Option Nat) (s : State) : Host.Outcome State Fault Refusal := ok (coreAccess c a size v s)

/-- PERIOD_RELEASE of task n (R303). -/
def execPeriodRelease (n : Nat) (s : State) : Host.Outcome State Fault Refusal := ok (periodRelease n s)

/-- DISPATCHER_TICK (R307). -/
def execDispatcherTick (s : State) : Host.Outcome State Fault Refusal := ok (dispatcherTick s)

/-- The deadline of the active instance of task n (R308). -/
def taskDeadline (n : Nat) (s : State) : State :=
  match taskRec? n s with
  | none => s
  | some t =>
    if taskState n s < 2 then s
    else match deadlineAt t s with
      | some d => abortAndDispatch n 1 (advTo d s)
      | none => s

/-- TASK_DEADLINE (R308). -/
def execTaskDeadline (n : Nat) (s : State) : Host.Outcome State Fault Refusal := ok (taskDeadline n s)

/-- A fault of R299 on core c; ecc: an uncorrectable memory error (R394). -/
def taskFault (c : Nat) (ecc : Bool) (s : State) : State :=
  let n := coreTask c s
  if n == 0xFFFF then s else abortAndDispatch n 2 (onlyIf ecc (bump O.SYS_ECC_UNCORR) s)

/-- TASK_FAULT (R299, R308). -/
def execTaskFault (c : Nat) (ecc : Bool) (s : State) : Host.Outcome State Fault Refusal := ok (taskFault c ecc s)

/-- TSK_TICK (R307). -/
def execTskTick (v : Nat) (s : State) : Host.Outcome State Fault Refusal :=
  ok (finish (writeBy O.TSK_TICK v (tskTickGuard s) (fun s => done (wr O.TSK_TICK v s)) s))

/-- ON_DECK_LOOK_AHEAD of task n (R306). -/
def execOnDeckLookAhead (n : Nat) (s : State) : Host.Outcome State Fault Refusal := ok (lookAhead n s)

end Sys2Proof.Machine
end

