-- ==== Sys2Proof/Machine/Dispatch.lean ====
section
/-! DEFINITION. The meaning of every command: one arm per constructor of Instr. -/
namespace Sys2Proof.Machine

/-- The command's effect on everything but the queue. -/
def exec (i : Instr) (s : State) : Host.Outcome State Fault Refusal :=
  match i with
  | .powerOn => Sys2Proof.Machine.execPowerOn s
  | .resetPin => Sys2Proof.Machine.execResetPin s
  | .supplyDip => Sys2Proof.Machine.execSupplyDip s
  | .resetRelease inp => Sys2Proof.Machine.execResetRelease inp s
  | .bootRetry inp => Sys2Proof.Machine.execBootRetry inp s
  | .refclkLoss => Sys2Proof.Machine.execRefclkLoss s
  | .refclkReturn => Sys2Proof.Machine.execRefclkReturn s
  | .enumeration nodes self link => Sys2Proof.Machine.execEnumeration nodes self link s
  | .timPeriodWrite v => Sys2Proof.Machine.execTimPeriodWrite v s
  | .timApplyLagWrite v => Sys2Proof.Machine.execTimApplyLagWrite v s
  | .timCmdGuardWrite v => Sys2Proof.Machine.execTimCmdGuardWrite v s
  | .timLawStartWrite v => Sys2Proof.Machine.execTimLawStartWrite v s
  | .balSlalomSeedWrite v => Sys2Proof.Machine.execBalSlalomSeedWrite v s
  | .pMark => Sys2Proof.Machine.execPMark s
  | .cellReportLaunch => Sys2Proof.Machine.execCellReportLaunch s
  | .reportRx crcOk link h r => Sys2Proof.Machine.execReportRx crcOk link h r s
  | .reportClose slot => Sys2Proof.Machine.execReportClose slot s
  | .referenceRx crcOk lane r => Sys2Proof.Machine.execReferenceRx crcOk lane r s
  | .commandLaunch slot vote => Sys2Proof.Machine.execCommandLaunch slot vote s
  | .apportionLaunch => Sys2Proof.Machine.execApportionLaunch s
  | .summaryLaunch vote => Sys2Proof.Machine.execSummaryLaunch vote s
  | .summaryRx crcOk link y => Sys2Proof.Machine.execSummaryRx crcOk link y s
  | .groupSummaryDeadline link => Sys2Proof.Machine.execGroupSummaryDeadline link s
  | .nodePeriodAbandon => Sys2Proof.Machine.execNodePeriodAbandon s
  | .commandRx crcOk streamB c => Sys2Proof.Machine.execCommandRx crcOk streamB c s
  | .acceptanceInstant k => Sys2Proof.Machine.execAcceptanceInstant k s
  | .commandExecute => Sys2Proof.Machine.execCommandExecute s
  | .carveEnd => Sys2Proof.Machine.execCarveEnd s
  | .gateEdge => Sys2Proof.Machine.execGateEdge s
  | .celOrder v => Sys2Proof.Machine.execCelOrder v s
  | .celClear => Sys2Proof.Machine.execCelClear s
  | .celArmDeblock v => Sys2Proof.Machine.execCelArmDeblock v s
  | .housekeepingSample tDie tBoard vAux aux => Sys2Proof.Machine.execHousekeepingSample tDie tBoard vAux aux s
  | .ov1Crossing => Sys2Proof.Machine.execOv1Crossing s
  | .ov1Release => Sys2Proof.Machine.execOv1Release s
  | .ov2Fault => Sys2Proof.Machine.execOv2Fault s
  | .dsatFault out => Sys2Proof.Machine.execDsatFault out s
  | .bypPulseEnd => Sys2Proof.Machine.execBypPulseEnd s
  | .bypConfirm => Sys2Proof.Machine.execBypConfirm s
  | .bypConfirmWindowEnd aux => Sys2Proof.Machine.execBypConfirmWindowEnd aux s
  | .bypHoldEnd => Sys2Proof.Machine.execBypHoldEnd s
  | .bypUncmd aux => Sys2Proof.Machine.execBypUncmd aux s
  | .heldTimeout => Sys2Proof.Machine.execHeldTimeout s
  | .lawEvalStart fails corrected ecc => Sys2Proof.Machine.execLawEvalStart fails corrected ecc s
  | .lawCommit => Sys2Proof.Machine.execLawCommit s
  | .lawCmdValidate => Sys2Proof.Machine.execLawCmdValidate s
  | .lawCmdStart => Sys2Proof.Machine.execLawCmdStart s
  | .lawCmdStop => Sys2Proof.Machine.execLawCmdStop s
  | .lawCmdSeal0 => Sys2Proof.Machine.execLawCmdSeal0 s
  | .lawCmdSeal1 => Sys2Proof.Machine.execLawCmdSeal1 s
  | .lawCmdClearErr => Sys2Proof.Machine.execLawCmdClearErr s
  | .lawBankReq v => Sys2Proof.Machine.execLawBankReq v s
  | .lawTrcArm => Sys2Proof.Machine.execLawTrcArm s
  | .lawTrcForce => Sys2Proof.Machine.execLawTrcForce s
  | .lawTrcStop => Sys2Proof.Machine.execLawTrcStop s
  | .lnkEnableWrite n v => Sys2Proof.Machine.execLnkEnableWrite n v s
  | .lanePresenceLock n inverted => Sys2Proof.Machine.execLanePresenceLock n inverted s
  | .laneL0Timeout n => Sys2Proof.Machine.execLaneL0Timeout n s
  | .capRx n b => Sys2Proof.Machine.execCapRx n b s
  | .rateGoRx n b => Sys2Proof.Machine.execRateGoRx n b s
  | .laneL1Timeout n => Sys2Proof.Machine.execLaneL1Timeout n s
  | .laneRxLock n => Sys2Proof.Machine.execLaneRxLock n s
  | .lockedRx n b => Sys2Proof.Machine.execLockedRx n b s
  | .laneL2Timeout n => Sys2Proof.Machine.execLaneL2Timeout n s
  | .lanePrbsEnd n errors => Sys2Proof.Machine.execLanePrbsEnd n errors s
  | .resultRx n b => Sys2Proof.Machine.execResultRx n b s
  | .laneL3NoResult n => Sys2Proof.Machine.execLaneL3NoResult n s
  | .laneTimeLock n => Sys2Proof.Machine.execLaneTimeLock n s
  | .laneL4Timeout n => Sys2Proof.Machine.execLaneL4Timeout n s
  | .retrainRx n b => Sys2Proof.Machine.execRetrainRx n b s
  | .lnkCmdRetrain n => Sys2Proof.Machine.execLnkCmdRetrain n s
  | .lnkCmdRestoreRate n => Sys2Proof.Machine.execLnkCmdRestoreRate n s
  | .lnkCmdClearCounters n => Sys2Proof.Machine.execLnkCmdClearCounters n s
  | .laneLos n => Sys2Proof.Machine.execLaneLos n s
  | .laneLosClear n => Sys2Proof.Machine.execLaneLosClear n s
  | .laneLol n => Sys2Proof.Machine.execLaneLol n s
  | .laneHiber n => Sys2Proof.Machine.execLaneHiber n s
  | .laneBackoffEnd n => Sys2Proof.Machine.execLaneBackoffEnd n s
  | .laneL5Stable n => Sys2Proof.Machine.execLaneL5Stable n s
  | .loopNone n => Sys2Proof.Machine.execLoopNone n s
  | .loopNearPma n => Sys2Proof.Machine.execLoopNearPma n s
  | .loopNearPcs n => Sys2Proof.Machine.execLoopNearPcs n s
  | .loopFar n => Sys2Proof.Machine.execLoopFar n s
  | .loopReqRx n b => Sys2Proof.Machine.execLoopReqRx n b s
  | .loopAckRx n b => Sys2Proof.Machine.execLoopAckRx n b s
  | .loopNakRx n b => Sys2Proof.Machine.execLoopNakRx n b s
  | .linkStateRx n hops behind => Sys2Proof.Machine.execLinkStateRx n hops behind s
  | .linkStateSend n => Sys2Proof.Machine.execLinkStateSend n s
  | .linkStateTimeout n => Sys2Proof.Machine.execLinkStateTimeout n s
  | .pisteWhole k => Sys2Proof.Machine.execPisteWhole k s
  | .schussRx n l => Sys2Proof.Machine.execSchussRx n l s
  | .schussRepeat => Sys2Proof.Machine.execSchussRepeat s
  | .frameRx n prev line => Sys2Proof.Machine.execFrameRx n prev line s
  | .frameTxEnd n => Sys2Proof.Machine.execFrameTxEnd n s
  | .suspendTimeout n => Sys2Proof.Machine.execSuspendTimeout n s
  | .pcsParityError n bad => Sys2Proof.Machine.execPcsParityError n bad s
  | .routerParityError r lanes => Sys2Proof.Machine.execRouterParityError r lanes s
  | .pdelayReqSend n => Sys2Proof.Machine.execPdelayReqSend n s
  | .pdelayReqRx n seq frac turn => Sys2Proof.Machine.execPdelayReqRx n seq frac turn s
  | .pdelayRespRx n frac p => Sys2Proof.Machine.execPdelayRespRx n frac p s
  | .syncSend => Sys2Proof.Machine.execSyncSend s
  | .syncRx n frac y => Sys2Proof.Machine.execSyncRx n frac y s
  | .syncTimeout lineageB => Sys2Proof.Machine.execSyncTimeout lineageB s
  | .lineageReturn => Sys2Proof.Machine.execLineageReturn s
  | .apexPeerWait => Sys2Proof.Machine.execApexPeerWait s
  | .peerSyncLoss => Sys2Proof.Machine.execPeerSyncLoss s
  | .refHoldoverEnd => Sys2Proof.Machine.execRefHoldoverEnd s
  | .paramSend => Sys2Proof.Machine.execParamSend s
  | .paramRx n p => Sys2Proof.Machine.execParamRx n p s
  | .stationSend => Sys2Proof.Machine.execStationSend s
  | .stationRx m => Sys2Proof.Machine.execStationRx m s
  | .stationStale => Sys2Proof.Machine.execStationStale s
  | .ptpSyncRx h twoStep origin corr => Sys2Proof.Machine.execPtpSyncRx h twoStep origin corr s
  | .ptpFollowUpRx h origin corr => Sys2Proof.Machine.execPtpFollowUpRx h origin corr s
  | .ptpAnnounceRx h a => Sys2Proof.Machine.execPtpAnnounceRx h a s
  | .ptpPdelayReqSend port => Sys2Proof.Machine.execPtpPdelayReqSend port s
  | .ptpPdelayReqRx h => Sys2Proof.Machine.execPtpPdelayReqRx h s
  | .ptpPdelayRespRx h t2 t3 corr => Sys2Proof.Machine.execPtpPdelayRespRx h t2 t3 corr s
  | .ptpAnnounceTimeout => Sys2Proof.Machine.execPtpAnnounceTimeout s
  | .stSlewEnd => Sys2Proof.Machine.execStSlewEnd s
  | .stHoldLimit => Sys2Proof.Machine.execStHoldLimit s
  | .syntonise => Sys2Proof.Machine.execSyntonise s
  | .stAllowStep => Sys2Proof.Machine.execStAllowStep s
  | .stRestart => Sys2Proof.Machine.execStRestart s
  | .stSetLocked => Sys2Proof.Machine.execStSetLocked s
  | .stClearLocked => Sys2Proof.Machine.execStClearLocked s
  | .timStAdjust v => Sys2Proof.Machine.execTimStAdjust v s
  | .timStInc v => Sys2Proof.Machine.execTimStInc v s
  | .timAsym n v => Sys2Proof.Machine.execTimAsym n v s
  | .redCmdReturn => Sys2Proof.Machine.execRedCmdReturn s
  | .redCmdRestore => Sys2Proof.Machine.execRedCmdRestore s
  | .redCmdDemote => Sys2Proof.Machine.execRedCmdDemote s
  | .redCmdClearCounters => Sys2Proof.Machine.execRedCmdClearCounters s
  | .claimNoticeSend => Sys2Proof.Machine.execClaimNoticeSend s
  | .redParentClaim src srcSide claim kx => Sys2Proof.Machine.execRedParentClaim src srcSide claim kx s
  | .noticeTimeout => Sys2Proof.Machine.execNoticeTimeout s
  | .healthUpdate => Sys2Proof.Machine.execHealthUpdate s
  | .revertHoldExpiry => Sys2Proof.Machine.execRevertHoldExpiry s
  | .digestLaunch => Sys2Proof.Machine.execDigestLaunch s
  | .digestRx d => Sys2Proof.Machine.execDigestRx d s
  | .digestDeadline => Sys2Proof.Machine.execDigestDeadline s
  | .checkWindowEnd => Sys2Proof.Machine.execCheckWindowEnd s
  | .checkVerdictTimeout => Sys2Proof.Machine.execCheckVerdictTimeout s
  | .inputsSend => Sys2Proof.Machine.execInputsSend s
  | .inputsRx p => Sys2Proof.Machine.execInputsRx p s
  | .caddySend => Sys2Proof.Machine.execCaddySend s
  | .caddyRx c => Sys2Proof.Machine.execCaddyRx c s
  | .redCaddyList n v => Sys2Proof.Machine.execRedCaddyList n v s
  | .wiringSend => Sys2Proof.Machine.execWiringSend s
  | .wiringRx w => Sys2Proof.Machine.execWiringRx w s
  | .adcConversionEnd slice cs shadow sat => Sys2Proof.Machine.execAdcConversionEnd slice cs shadow sat s
  | .adcRunEnd q => Sys2Proof.Machine.execAdcRunEnd q s
  | .adcSeqTimer q => Sys2Proof.Machine.execAdcSeqTimer q s
  | .adcSeqStart q => Sys2Proof.Machine.execAdcSeqStart q s
  | .adcSeqStop q => Sys2Proof.Machine.execAdcSeqStop q s
  | .adcSeqTrig q v => Sys2Proof.Machine.execAdcSeqTrig q v s
  | .adcHoldReserve => Sys2Proof.Machine.execAdcHoldReserve s
  | .adcHoldRound => Sys2Proof.Machine.execAdcHoldRound s
  | .adcPrioReq v => Sys2Proof.Machine.execAdcPrioReq v s
  | .adcInputChange n => Sys2Proof.Machine.execAdcInputChange n s
  | .adcSettlingEnd n => Sys2Proof.Machine.execAdcSettlingEnd n s
  | .adcPairWrite p v => Sys2Proof.Machine.execAdcPairWrite p v s
  | .openWireTestStart n => Sys2Proof.Machine.execOpenWireTestStart n s
  | .openWireTestConvert n => Sys2Proof.Machine.execOpenWireTestConvert n s
  | .comparatorTrip n code stood => Sys2Proof.Machine.execComparatorTrip n code stood s
  | .adcCalibrationEnd l checks => Sys2Proof.Machine.execAdcCalibrationEnd l checks s
  | .adcCmdCalibrate => Sys2Proof.Machine.execAdcCmdCalibrate s
  | .adcCmdClearCounters => Sys2Proof.Machine.execAdcCmdClearCounters s
  | .adcSwapDue l => Sys2Proof.Machine.execAdcSwapDue l s
  | .adcSliceRecalEnd l check => Sys2Proof.Machine.execAdcSliceRecalEnd l check s
  | .acqCmdArm => Sys2Proof.Machine.execAcqCmdArm s
  | .acqCmdStop => Sys2Proof.Machine.execAcqCmdStop s
  | .acqCmdForce => Sys2Proof.Machine.execAcqCmdForce s
  | .acqCmdClearCounters => Sys2Proof.Machine.execAcqCmdClearCounters s
  | .acqRow => Sys2Proof.Machine.execAcqRow s
  | .patternTrigger => Sys2Proof.Machine.execPatternTrigger s
  | .xtrigRx n x => Sys2Proof.Machine.execXtrigRx n x s
  | .xtrigInstantDue => Sys2Proof.Machine.execXtrigInstantDue s
  | .acqRecLock v => Sys2Proof.Machine.execAcqRecLock v s
  | .acqRecRelease v => Sys2Proof.Machine.execAcqRecRelease v s
  | .acqMemWrite item v => Sys2Proof.Machine.execAcqMemWrite item v s
  | .ddrOutOfService => Sys2Proof.Machine.execDdrOutOfService s
  | .kettleSourceRise n data => Sys2Proof.Machine.execKettleSourceRise n data s
  | .kettleSourceFall n => Sys2Proof.Machine.execKettleSourceFall n s
  | .kettleBrokenPath n on => Sys2Proof.Machine.execKettleBrokenPath n on s
  | .kettleEscalateTime n => Sys2Proof.Machine.execKettleEscalateTime n s
  | .ketClear v => Sys2Proof.Machine.execKetClear v s
  | .ketCmdClearCounters => Sys2Proof.Machine.execKetCmdClearCounters s
  | .kettleTokenRefill n => Sys2Proof.Machine.execKettleTokenRefill n s
  | .eventsFrameSend => Sys2Proof.Machine.execEventsFrameSend s
  | .eventsRx src side e => Sys2Proof.Machine.execEventsRx src side e s
  | .ketQPop v => Sys2Proof.Machine.execKetQPop v s
  | .safChannelChange => Sys2Proof.Machine.execSafChannelChange s
  | .safDiscrepancyTime f => Sys2Proof.Machine.execSafDiscrepancyTime f s
  | .safCommission right => Sys2Proof.Machine.execSafCommission right s
  | .safConfirm right => Sys2Proof.Machine.execSafConfirm right s
  | .safAbort right => Sys2Proof.Machine.execSafAbort right s
  | .safRelease right => Sys2Proof.Machine.execSafRelease right s
  | .safResetFn right f => Sys2Proof.Machine.execSafResetFn right f s
  | .safDegradedExpiry => Sys2Proof.Machine.execSafDegradedExpiry s
  | .safDegradedRecover => Sys2Proof.Machine.execSafDegradedRecover s
  | .safeStatusSend => Sys2Proof.Machine.execSafeStatusSend s
  | .safeStatusRx p => Sys2Proof.Machine.execSafeStatusRx p s
  | .safPeerTimeout => Sys2Proof.Machine.execSafPeerTimeout s
  | .safStateReport => Sys2Proof.Machine.execSafStateReport s
  | .safNodeSilent n => Sys2Proof.Machine.execSafNodeSilent n s
  | .taskEnable n => Sys2Proof.Machine.execTaskEnable n s
  | .taskDisable n => Sys2Proof.Machine.execTaskDisable n s
  | .taskSignal n => Sys2Proof.Machine.execTaskSignal n s
  | .tskCmdClearCounters => Sys2Proof.Machine.execTskCmdClearCounters s
  | .taskDone c => Sys2Proof.Machine.execTaskDone c s
  | .taskDelay c n => Sys2Proof.Machine.execTaskDelay c n s
  | .portSignal c v => Sys2Proof.Machine.execPortSignal c v s
  | .winStatus c v => Sys2Proof.Machine.execWinStatus c v s
  | .objectWindowAccess c a size v => Sys2Proof.Machine.execObjectWindowAccess c a size v s
  | .periodRelease n => Sys2Proof.Machine.execPeriodRelease n s
  | .dispatcherTick => Sys2Proof.Machine.execDispatcherTick s
  | .taskDeadline n => Sys2Proof.Machine.execTaskDeadline n s
  | .taskFault c ecc => Sys2Proof.Machine.execTaskFault c ecc s
  | .tskTick v => Sys2Proof.Machine.execTskTick v s
  | .dmaStart c fw => Sys2Proof.Machine.execDmaStart c fw s
  | .dmaPause c moved fw => Sys2Proof.Machine.execDmaPause c moved fw s
  | .dmaResume c fw => Sys2Proof.Machine.execDmaResume c fw s
  | .dmaSkip c fw => Sys2Proof.Machine.execDmaSkip c fw s
  | .dmaAbort c moved fw => Sys2Proof.Machine.execDmaAbort c moved fw s
  | .dmaGcmdClearCounters => Sys2Proof.Machine.execDmaGcmdClearCounters s
  | .dmaDescriptorFetch c ecc => Sys2Proof.Machine.execDmaDescriptorFetch c ecc s
  | .dmaDescriptorDone c ecc => Sys2Proof.Machine.execDmaDescriptorDone c ecc s
  | .dmaPdWaitExpiry moved => Sys2Proof.Machine.execDmaPdWaitExpiry moved s
  | .fioDownFrame => Sys2Proof.Machine.execFioDownFrame s
  | .islandDownFrameRx w => Sys2Proof.Machine.execIslandDownFrameRx w s
  | .mainFrameRx w => Sys2Proof.Machine.execMainFrameRx w s
  | .mainFrameDeadline => Sys2Proof.Machine.execMainFrameDeadline s
  | .fastFrameRx w => Sys2Proof.Machine.execFastFrameRx w s
  | .islandSilence => Sys2Proof.Machine.execIslandSilence s
  | .fieldVlLow => Sys2Proof.Machine.execFieldVlLow s
  | .diComparatorChange n mv => Sys2Proof.Machine.execDiComparatorChange n mv s
  | .strainerSettle n => Sys2Proof.Machine.execStrainerSettle n s
  | .doShort n => Sys2Proof.Machine.execDoShort n s
  | .doRetryEnd n => Sys2Proof.Machine.execDoRetryEnd n s
  | .doOvertemp n => Sys2Proof.Machine.execDoOvertemp n s
  | .doOvertempCooled n => Sys2Proof.Machine.execDoOvertempCooled n s
  | .doOpen n cond => Sys2Proof.Machine.execDoOpen n cond s
  | .fieldSupplyMeasure mv => Sys2Proof.Machine.execFieldSupplyMeasure mv s
  | .fieldSupplyCondition => Sys2Proof.Machine.execFieldSupplyCondition s
  | .encoderEdge e a b => Sys2Proof.Machine.execEncoderEdge e a b s
  | .encoderZEdge e rising => Sys2Proof.Machine.execEncoderZEdge e rising s
  | .islandPmarkLatch => Sys2Proof.Machine.execIslandPmarkLatch s
  | .ssiTransferStart dat => Sys2Proof.Machine.execSsiTransferStart dat s
  | .ssiTransferEnd bits stopErr => Sys2Proof.Machine.execSsiTransferEnd bits stopErr s
  | .probeEdge p rising => Sys2Proof.Machine.execProbeEdge p rising s
  | .fioClearFaults => Sys2Proof.Machine.execFioClearFaults s
  | .fioCmdClearCounters => Sys2Proof.Machine.execFioCmdClearCounters s
  | .posClearErr e => Sys2Proof.Machine.execPosClearErr e s
  | .posArmZ e => Sys2Proof.Machine.execPosArmZ e s
  | .prbArm p => Sys2Proof.Machine.execPrbArm p s
  | .fioDoPair v => Sys2Proof.Machine.execFioDoPair v s
  | .objReqRead h m => Sys2Proof.Machine.execObjReqRead h m s
  | .objReqWrite h m => Sys2Proof.Machine.execObjReqWrite h m s
  | .objReqNotice h m => Sys2Proof.Machine.execObjReqNotice h m s
  | .objReqAttest h m => Sys2Proof.Machine.execObjReqAttest h m s
  | .objRespRx m => Sys2Proof.Machine.execObjRespRx m s
  | .remoteTimeout id => Sys2Proof.Machine.execRemoteTimeout id s
  | .laneReportSend => Sys2Proof.Machine.execLaneReportSend s
  | .reportLaneRx node l => Sys2Proof.Machine.execReportLaneRx node l s
  | .reportWiringRx node diff => Sys2Proof.Machine.execReportWiringRx node diff s
  | .reportSafStateRx n state checkDiffers stored => Sys2Proof.Machine.execReportSafStateRx n state checkDiffers stored s
  | .reportReleaseRx rseq => Sys2Proof.Machine.execReportReleaseRx rseq s
  | .treeRemRead => Sys2Proof.Machine.execTreeRemRead s
  | .treeRemWrite => Sys2Proof.Machine.execTreeRemWrite s
  | .readReqRx h b => Sys2Proof.Machine.execReadReqRx h b s
  | .bulkDataRx h b => Sys2Proof.Machine.execBulkDataRx h b s
  | .bulkAckRx h b => Sys2Proof.Machine.execBulkAckRx h b s
  | .bulkEndRx h b => Sys2Proof.Machine.execBulkEndRx h b s
  | .arpRx port ip vlan => Sys2Proof.Machine.execArpRx port ip vlan s
  | .icmpEchoRx f data => Sys2Proof.Machine.execIcmpEchoRx f data s
  | .jopDiscover f seq => Sys2Proof.Machine.execJopDiscover f seq s
  | .jopOpen f seq slot nh qh ql => Sys2Proof.Machine.execJopOpen f seq slot nh qh ql s
  | .jopConfirm a sigH => Sys2Proof.Machine.execJopConfirm a sigH s
  | .jopClose a => Sys2Proof.Machine.execJopClose a s
  | .jopRead a tgt index sub count => Sys2Proof.Machine.execJopRead a tgt index sub count s
  | .jopWrite a tgt index sub count data => Sys2Proof.Machine.execJopWrite a tgt index sub count data s
  | .jopEventRead a n => Sys2Proof.Machine.execJopEventRead a n s
  | .jopEventAck a n origin eseq => Sys2Proof.Machine.execJopEventAck a n origin eseq s
  | .jopBulkRead a tgt region off len => Sys2Proof.Machine.execJopBulkRead a tgt region off len s
  | .jopBulkWrite a tgt region off data => Sys2Proof.Machine.execJopBulkWrite a tgt region off data s
  | .jopCoreMsg a data => Sys2Proof.Machine.execJopCoreMsg a data s
  | .jopAttest a tgt nonce => Sys2Proof.Machine.execJopAttest a tgt nonce s
  | .jopOpenExpiry id => Sys2Proof.Machine.execJopOpenExpiry id s
  | .sessionIdleTimeout id => Sys2Proof.Machine.execSessionIdleTimeout id s
  | .authRateEnd => Sys2Proof.Machine.execAuthRateEnd s
  | .sysCoreMsgLen v => Sys2Proof.Machine.execSysCoreMsgLen v s
  | .nvmStore => Sys2Proof.Machine.execNvmStore s
  | .nvmStoreDone good => Sys2Proof.Machine.execNvmStoreDone good s
  | .nvmRestoreDefaults => Sys2Proof.Machine.execNvmRestoreDefaults s
  | .nvmVerify => Sys2Proof.Machine.execNvmVerify s
  | .nvmActivate => Sys2Proof.Machine.execNvmActivate s
  | .nvmCommit => Sys2Proof.Machine.execNvmCommit s
  | .nvmDistribute => Sys2Proof.Machine.execNvmDistribute s
  | .slotEraseDone good => Sys2Proof.Machine.execSlotEraseDone good s
  | .secInstallHost right slot => Sys2Proof.Machine.execSecInstallHost right slot s
  | .secRemoveHost right slot => Sys2Proof.Machine.execSecRemoveHost right slot s
  | .secInstallImageKey right => Sys2Proof.Machine.execSecInstallImageKey right s
  | .secDisown right => Sys2Proof.Machine.execSecDisown right s
  | .sysCmdReset => Sys2Proof.Machine.execSysCmdReset s
  | .scrubPass rows words => Sys2Proof.Machine.execScrubPass rows words s
  | .sysShelf => Sys2Proof.Machine.execSysShelf s
  | .sysDdrOff => Sys2Proof.Machine.execSysDdrOff s
  | .sysDdrOn => Sys2Proof.Machine.execSysDdrOn s
  | .sysCaptureOff => Sys2Proof.Machine.execSysCaptureOff s
  | .sysCaptureOn => Sys2Proof.Machine.execSysCaptureOn s
  | .sysWake => Sys2Proof.Machine.execSysWake s
  | .tamperEvent kind time => Sys2Proof.Machine.execTamperEvent kind time s
  | .sysTamperAck v => Sys2Proof.Machine.execSysTamperAck v s
  | .overtempReading t => Sys2Proof.Machine.execOvertempReading t s
  | .jtagExtest balls drive => Sys2Proof.Machine.execJtagExtest balls drive s
  | .jtagSamplePreload balls load => Sys2Proof.Machine.execJtagSamplePreload balls load s
  | .jtagIdcode => Sys2Proof.Machine.execJtagIdcode s
  | .jtagHighz => Sys2Proof.Machine.execJtagHighz s
  | .jtagClamp => Sys2Proof.Machine.execJtagClamp s
  | .jtagBypass code => Sys2Proof.Machine.execJtagBypass code s
  | .objectWrite w index sub v => Sys2Proof.Machine.execObjectWrite w index sub v s
  | .presenceRx n holdoff => Sys2Proof.Machine.execPresenceRx n holdoff s
  | .capSend n => Sys2Proof.Machine.execCapSend n s
  | .lockedSend n => Sys2Proof.Machine.execLockedSend n s
  | .releaseRepeat => Sys2Proof.Machine.execReleaseRepeat s
  | .coreCheckFailure c => Sys2Proof.Machine.execCoreCheckFailure c s
  | .islandPowerUp => Sys2Proof.Machine.execIslandPowerUp s
  | .onDeckLookAhead n => Sys2Proof.Machine.execOnDeckLookAhead n s
  | .ddrBackInService => Sys2Proof.Machine.execDdrBackInService s
  | .jtagReset => Sys2Proof.Machine.execJtagReset s
  | .jopDatagramMalformed => Sys2Proof.Machine.execJopDatagramMalformed s

end Sys2Proof.Machine
end

