-- ==== Sys2Proof/Safety.lean ====
section
/-! DEFINITION. What a safe run is, and the terms in which statements say what a command leaves as it was. -/
namespace Sys2Proof.Machine

/-- n steps from s end in a state, none of them a fault or a refusal. -/
def SafeRun (n : Nat) (s : State) : Prop := ∃ t, Host.Core.run Sys2Proof.core n s = .next t

/-- Every object outside ks reads in t as it does in s. -/
def SameObjs (ks : List Nat) (s t : State) : Prop := ∀ k, k ∉ ks → rd k t = rd k s

/-- t is s but for objects: every unit, the memory, the queue, time, the straps and the latest answer are as they were, and so is every object outside ks. -/
def OnlyObjs (ks : List Nat) (s t : State) : Prop := t = { s with objs := t.objs } ∧ SameObjs ks s t

/-- The state after an access that answered st and changed nothing. -/
def refusedState (st : Nat) (s : State) : State := { s with resp := [st] }

/-- An access answered OK and changed, beside its answer, objects of ks alone. -/
def Wrote (ks : List Nat) (s t : State) : Prop := t = { s with objs := t.objs, resp := [stOk] } ∧ SameObjs ks s t

/-- The 32 bytes of a ladder frame that R162's checks pass, of message msg, on a lane that takes ladder frames. -/
def LadderMsg (msg n : Nat) (b : List Nat) (s : State) : Prop :=
  laneHere n s = true ∧ 1 ≤ stage n s ∧ stage n s ≤ 6 ∧ b.length = 32 ∧ crc32c (b.take 28) = ofBe (b.drop 28) ∧ (ladderOf b).msg = msg ∧ (ladderOf b).ver = 1

/-- A datagram that R368 and R371 accept: for this apex, of an open session x, with a valid TAG and a SEQ not accepted before, and an operation that the mode serves (R391). -/
def ValidRequest (a : JopAuth) (op : Nat) (body : List Nat) (x : Session) (s : State) : Prop :=
  toJop a.host s = true ∧ body.length ≤ 1408 ∧ session? a.session s = some x ∧ tagOk x.keyHd a op body = true ∧ x.fresh a.seq = true ∧
    (rd O.SYS_RECOVERY s = 0 ∨ romServes op = true)

/-- c carries an authenticated request of an operation with this body (Table 14.10). -/
def JopCmd (a : JopAuth) (op : Nat) (body : List Nat) (c : Instr) : Prop :=
  (∃ g, op = 3 ∧ body = beBytes 64 g ∧ c = .jopConfirm a g) ∨ (op = 4 ∧ body = [] ∧ c = .jopClose a) ∨
  (∃ t i u n, op = 0x10 ∧ body = readHead t i u n ∧ c = .jopRead a t i u n) ∨
  (∃ t i u n d, op = 0x11 ∧ body = readHead t i u n ++ beBytes 2 (List.length d) ++ d ∧ c = .jopWrite a t i u n d) ∨
  (∃ n, op = 0x20 ∧ body = [low 8 n] ∧ c = .jopEventRead a n) ∨ (∃ n o e, op = 0x21 ∧ body = [low 8 n, 0] ++ beBytes 2 o ++ beBytes 4 e ∧ c = .jopEventAck a n o e) ∨
  (∃ t r o n, op = 0x30 ∧ body = bulkHead t r o n ∧ c = .jopBulkRead a t r o n) ∨ (∃ t r o d, op = 0x31 ∧ body = bulkHead t r o (List.length d) ++ d ∧ c = .jopBulkWrite a t r o d) ∨
  (∃ d, op = 0x40 ∧ body = beBytes 2 (List.length d) ++ d ∧ c = .jopCoreMsg a d) ∨ (∃ t n, op = 0x50 ∧ body = beBytes 4 t ++ padTo 32 0 n ∧ c = .jopAttest a t n)

/-- The state once the session has accepted the request. -/
def acceptedBy (a : JopAuth) (op : Nat) (s : State) : State := updSession a.session (Session.accept a op s.tick) s

/-- Time has passed to counter value c, or stands where it stood if that was later. -/
def Reached (c : Nat) (s t : State) : Prop := t.tick = max s.tick c

end Sys2Proof.Machine

namespace Sys2Proof
open Machine

/-- Commands that reset the device, or that carry a write which may be SYS_CMD RESET or a commit of one. -/
def Instr.mayReset : Instr → Bool
  | .powerOn | .resetPin | .supplyDip | .resetRelease _ | .sysCmdReset | .coreCheckFailure _ | .taskDone _ | .objectWindowAccess _ _ _ _
  | .objReqWrite _ _ | .objReqNotice _ _ | .jopWrite _ _ _ _ _ _ | .objectWrite _ _ _ _ => true
  | _ => false

end Sys2Proof
end

