-- ==== Sys2Proof/Certificates/Slice0/Obligations.lean ====
section
/-! DEFINITION. The statements for the provers: what commands, steps and the operations they share do. -/
open Sys2Proof Sys2Proof.Machine

/-- With a command at the front of the queue a step is exec of that command with the queue's rest. -/
def Obligations.StepRunsFrontCommand : Prop :=
  ∀ (c : Instr) (rest : List Instr) (s : State), s.pending = c :: rest → step s = exec c { s with pending := rest }

/-- With an empty queue one tick passes and nothing else changes (the model's choice, log entry 2). From every state, every number of steps ends in a state: no command faults, none is refused, and each step but an idle one takes one command off the queue. -/
def Obligations.RunsNeverStop : Prop :=
  (∀ s : State, s.pending = [] → step s = .next { s with tick := s.tick + 1 }) ∧
  ((∀ (n : Nat) (s : State), SafeRun n s) ∧
  (∀ (s t : State), step s = .next t → t.pending = s.pending.drop 1))

/-- Every step keeps the objects and the cores' memory in canonical form. -/
def Obligations.StepKeepsCanonicalForm : Prop :=
 ∀ s t : State, s.wf = true → step s = .next t → t.wf = true

/-- The state after reset is in canonical form, holds reset, waits for nothing, and every object reads its default. -/
def Obligations.ResetState : Prop :=
  State.reset.wf = true ∧ State.reset.sys.held = true ∧ State.reset.pending = [] ∧ State.reset.mem = [] ∧
  (∀ k, rd k State.reset = objDefault State.reset.straps k) ∧
  rd O.TIM_PERIOD State.reset = 4000 ∧ rd O.TIM_APPLY_LAG State.reset = 3200 ∧ rd O.TIM_CMD_GUARD State.reset = 100 ∧
  rd O.TREE_NODE_NUMBER State.reset = 0xFF ∧ rd O.TREE_CELL_INDEX State.reset = 0xFFFF ∧ rd O.TIM_LAG_STATUS State.reset = 2 ∧
  rd O.BAL_SLALOM_SEED State.reset = 0x1D872B41 ∧ rd (O.LNK_STAGE 67) State.reset = 8 ∧ State.reset.tick = 0

/-- Straps, and the role with them, change only where RESET_RELEASE samples them while reset is held; software cannot change them. -/
def Obligations.RoleHoldsUntilReset : Prop :=
  ∀ (c : Instr) (s t : State), exec c s = .next t →
    (t.straps = s.straps ∧ isNode t = isNode s) ∨
    ∃ inp, c = .resetRelease inp ∧ s.sys.held = true ∧ t.straps = inp.straps ∧ isNode t = inp.straps.node

/-- TIM_COUNTER never runs backward, and free values once taken are never taken again, under every command that cannot reset the device. -/
def Obligations.CounterNeverStepsBack : Prop :=
  ∀ (c : Instr) (s t : State), exec c s = .next t → s.free ≤ t.free ∧ (c.mayReset = false → s.tick ≤ t.tick)

/-- POWER_ON, RESET_PIN, SUPPLY_DIP and SYS_CMD RESET put the device in reset with their cause: objects outside non-volatile memory read their defaults, those within it keep their values, the memory of the cores is lost, and the queue, the straps, the test port, the field island, the ledger and the tamper store stay; a cell goes to OFF at POWER_ON and SUPPLY_DIP. SYS_CMD RESET is accepted where nothing the device serves is deblocked and no cell switches, in ROM service mode with NO_IMAGE and with CORE too, and answers STATE otherwise. -/
def Obligations.ResetsByCause : Prop :=
  let afterReset (cause : Nat) (s t : State) : Prop :=
    t.sys.held = true ∧ t.sys.cause = cause ∧ rd O.SYS_RESET_CAUSE t = cause ∧ t.tick = 0 ∧ t.straps = s.straps ∧ t.pending = s.pending ∧
    t.jtag = s.jtag ∧ t.fio.island = s.fio.island ∧ t.saf.stored = s.saf.stored ∧ t.cell.record = s.cell.record ∧ t.sys.ledger = s.sys.ledger ∧
    t.sys.aon = s.sys.aon ∧ t.sys.refHeld = s.sys.refHeld ∧ t.sys.tamper = s.sys.tamper ∧ t.lnk = LnkSt.init ∧ t.jop = JopSt.init ∧ t.tsk = TskSt.init ∧ t.law = LawSt.init ∧
    (∀ k ∈ keptKeys, rd k t = rd k s) ∧
    (∀ k, k ∉ keptKeys → k ≠ O.SYS_RESET_CAUSE → k ≠ O.CEL_STATE → rd k t = objDefault s.straps k) ∧
    (∀ a, a < 2 ^ 50 → getKey (0 : Byte) a t.mem = 0)
  (∀ s, ∃ t, exec .powerOn s = .next t ∧ afterReset (if s.sys.wake then 4 else 0) s t ∧ t.sys.pwrEn = true ∧ (isCell s = true → rd O.CEL_STATE t = 0)) ∧
  (∀ s, ∃ t, exec .resetPin s = .next t ∧ afterReset 1 s t) ∧
  (∀ s, ∃ t, exec .supplyDip s = .next t ∧ afterReset 3 s t ∧ (isCell s = true → rd O.CEL_STATE t = 0)) ∧
  (∀ s, rd O.SYS_RECOVERY s = 0 ∨ rd O.SYS_RECOVERY s = 1 ∨ rd O.SYS_RECOVERY s = 3 →
    (isNode s = true → ∀ a ∈ servedArms s, armDeblocked a s = false) → (isCell s = true → celLive s = false) →
    ∃ t, exec .sysCmdReset s = .next t ∧ afterReset 2 s t ∧ t.resp = [stOk]) ∧
  (∀ s, (isNode s = true ∧ (∃ a ∈ servedArms s, armDeblocked a s = true)) ∨ (isCell s = true ∧ celLive s = true) ∨ rd O.SYS_RECOVERY s = 2 →
    exec .sysCmdReset s = .next (refusedState stState s))

/-- Reset release samples the straps and starts TIM_COUNTER at 0 before the phases run; with TEST_EN high the device stays in reset. A retry starts the phases again no earlier than its instant. Reset release does nothing outside reset, while a retry waits, and at a node whose reference clock is absent; a retry does nothing where none waits. -/
def Obligations.ResetReleaseRunsPhases : Prop :=
  (∀ (inp : BootIn) s, s.sys.held = true → s.sys.retryAt = none → inp.straps.testEn = false → (inp.straps.node = true → s.sys.refHeld = false) →
    ∃ t r, exec (.resetRelease inp) s = .next t ∧ t = bootPhases inp 0 r ∧ t.straps = inp.straps ∧
      r = released inp s ∧ r.sys.held = false ∧ r.straps = inp.straps ∧ r.tick = 0 ∧ rd O.SYS_STRAP_UNSTABLE r = b2n inp.unstable ∧
      rd O.SYS_RESET_CAUSE r = s.sys.cause ∧ rd O.TREE_ROLE r = inp.straps.role ∧ (isCell r = true → rd O.CEL_STATE r = 1)) ∧
  (∀ (inp : BootIn) s, s.sys.held = true → s.sys.retryAt = none → inp.straps.testEn = true → (inp.straps.node = true → s.sys.refHeld = false) →
    ∃ t, exec (.resetRelease inp) s = .next t ∧ t.straps = inp.straps ∧ t.sys = s.sys ∧ t.tick = s.tick) ∧
  (∀ (inp : BootIn) s, s.sys.held = false ∨ s.sys.retryAt ≠ none ∨ (inp.straps.node = true ∧ s.sys.refHeld = true) → exec (.resetRelease inp) s = .next s) ∧
  (∀ (inp : BootIn) s r, s.sys.retryAt = some r → ∃ t u, exec (.bootRetry inp) s = .next t ∧ u.tick = max s.tick r ∧ u.sys.held = false ∧
      u.sys.retryAt = none ∧ u.straps = s.straps ∧ u.objs = s.objs ∧ t = bootPhases inp u.tick u ∧ t.straps = s.straps ∧ u.tick ≤ t.tick) ∧
  (∀ (inp : BootIn) s, s.sys.retryAt = none → exec (.bootRetry inp) s = .next s)

/-- With SYS_WAKE_ARM at 1 a low level on WAKE_N that lasted its 10 ms drives PWR_EN high, and the start that follows has SYS_RESET_CAUSE WAKE; with SYS_WAKE_ARM at 0, or with PWR_EN high already, it does nothing. -/
def Obligations.WakeNeedsItsArm : Prop :=
  (∀ s : State, rd O.SYS_WAKE_ARM s = 1 → s.sys.pwrEn = false → ∃ t u, exec .sysWake s = .next t ∧ t.sys.pwrEn = true ∧ t = { s with sys := t.sys } ∧
    exec .powerOn t = .next u ∧ u.sys.cause = 4 ∧ rd O.SYS_RESET_CAUSE u = 4) ∧
  (∀ s : State, rd O.SYS_WAKE_ARM s = 0 ∨ s.sys.pwrEn = true → exec .sysWake s = .next s)

/-- The reference clock, PWR_EN, WAKE_N and the tamper store, outside ROM service mode where an object is written: REFCLK_LOSS marks the clock absent at a node or in reset and does nothing at a running cell, REFCLK_RETURN marks it present; WAKE_N drives PWR_EN high where armed and does nothing where not; a tamper event takes one of the 16 entries or is counted; SYS_TAMPER_ACK up to SYS_TAMPER_COUNT is kept, a greater one answers RANGE. SYS_POWER_CMD outside ROM service mode: SHELF drives PWR_EN low, and at a cell saves the counter record first, or answers STATE without a battery, at a node that serves a deblocked arm and at a cell that switches; at a node DDR_OFF and CAPTURE_OFF ask their domain to power down where the recorder allows it and answer STATE where not, DDR_ON puts the domain back in service 200 us on, CAPTURE_ON at once; the return of the DDR domain marks it on. -/
def Obligations.SupplyTamperAndPower : Prop :=
  ((∀ s, isNode s = true ∨ s.sys.held = true → exec .refclkLoss s = .next { s with sys := { s.sys with refHeld := true } }) ∧
  (∀ s, isCell s = true → s.sys.held = false → exec .refclkLoss s = .next s) ∧
  (∀ s, exec .refclkReturn s = .next { s with sys := { s.sys with refHeld := false } }) ∧
  (∀ s, rd O.SYS_WAKE_ARM s = 1 → s.sys.pwrEn = false → exec .sysWake s = .next { s with sys := { s.sys with pwrEn := true, wake := true } }) ∧
  (∀ s, rd O.SYS_WAKE_ARM s = 0 → exec .sysWake s = .next s) ∧
  (∀ kind time s, s.sys.aon.length < 16 →
    exec (.tamperEvent kind time) s = .next { s with sys := { s.sys with aon := s.sys.aon ++ [{ kind := kind, time := time }] } }) ∧
  (∀ kind time s, 16 ≤ s.sys.aon.length → exec (.tamperEvent kind time) s = .next { s with sys := { s.sys with aonOver := s.sys.aonOver + 1 } }) ∧
  (∀ v s, rd O.SYS_RECOVERY s = 0 → v < 2 ^ 32 → v ≤ rd O.SYS_TAMPER_COUNT s → exec (.sysTamperAck v) s = .next (answer stOk [] (updTamper (wr O.SYS_TAMPER_ACK v s)))) ∧
  (∀ v s, rd O.SYS_RECOVERY s = 0 → rd O.SYS_TAMPER_COUNT s < v → exec (.sysTamperAck v) s = .next (refusedState stRange s))) ∧
  ((∀ s, rd O.SYS_RECOVERY s = 0 → rd O.SYS_NO_BATTERY s = 0 → isNode s = true → (∀ a ∈ servedArms s, armDeblocked a s = false) →
    exec .sysShelf s = .next { s with sys := { s.sys with pwrEn := false }, resp := [stOk] }) ∧
  (∀ s, rd O.SYS_RECOVERY s = 0 → rd O.SYS_NO_BATTERY s = 0 → isCell s = true → celLive s = false →
    exec .sysShelf s = .next { saveRecord s with sys := { (saveRecord s).sys with pwrEn := false }, resp := [stOk] }) ∧
  (∀ s, rd O.SYS_NO_BATTERY s = 1 ∨ (isNode s = true ∧ ∃ a ∈ servedArms s, armDeblocked a s = true) ∨ (isCell s = true ∧ celLive s = true) →
    exec .sysShelf s = .next (refusedState stState s)) ∧
  (∀ s, rd O.SYS_RECOVERY s = 0 → isNode s = true → (rd O.ACQ_MEM s = 1 → acqIdle s = true) →
    exec .sysDdrOff s = .next (answer stOk [] (pdRequest 17 { s with sys := { s.sys with ddrBack := none } }))) ∧
  (∀ s, rd O.SYS_RECOVERY s = 0 → isNode s = true → rd O.ACQ_MEM s = 1 → acqIdle s = false → exec .sysDdrOff s = .next (refusedState stState s)) ∧
  (∀ s, rd O.SYS_RECOVERY s = 0 → isNode s = true → ddrUp s = false → s.sys.ddrMiB ≠ 0 → s.sys.ddrBack = none →
    exec .sysDdrOn s = .next { s with sys := { s.sys with ddrBack := some (s.tick + 80000) }, resp := [stOk] }) ∧
  (∀ s, rd O.SYS_RECOVERY s = 0 → isNode s = true → rd O.ACQ_MEM s = 1 ∨ acqIdle s = true → exec .sysCaptureOff s = .next (answer stOk [] (pdRequest 18 s))) ∧
  (∀ s, rd O.SYS_RECOVERY s = 0 → isNode s = true → rd O.ACQ_MEM s = 0 → acqIdle s = false → exec .sysCaptureOff s = .next (refusedState stState s)) ∧
  (∀ s, rd O.SYS_RECOVERY s = 0 → isNode s = true → ∃ t, exec .sysCaptureOn s = .next t ∧ Wrote [O.SYS_DOMAINS] s t ∧ rd O.SYS_DOMAINS t = rd O.SYS_DOMAINS s ||| 2 ^ 18) ∧
  (∀ s d, s.sys.ddrBack = some d → ∃ t u, exec .ddrBackInService s = .next t ∧ t = acqCheck u ∧ u.tick = max s.tick d ∧ u.sys.ddrBack = none ∧
      rd O.SYS_DOMAINS u = rd O.SYS_DOMAINS s ||| 2 ^ 17 ∧ SameObjs [O.SYS_DOMAINS] s u ∧ d ≤ t.tick) ∧
  (∀ s, s.sys.ddrBack = none → exec .ddrBackInService s = .next s))

/-- Self-repair. A parity error in the PCS slice of a lane of this device that is on is a HIBER event that loses the line, and a slice that fails its check then leaves service; on another lane nothing happens. One in a router slice spoils the frames being sent on the lanes named and takes the slice out of service. A scrubber pass counts itself, each correction and each word beyond correction, holds such words as bad, and repairs a row that it also corrected in the pass before. The die temperature raises source 235 from 127 degrees and ends it at 122 at a node. A core that its checks find defective is replaced by the spare; without one a node goes on without it, its task aborted, and a cell resets. A core not in the map, or beyond core 0 of a cell, changes nothing. The test access port. With TEST_EN high EXTEST drives the balls from the chain, and HIGHZ and CLAMP hold the outputs with the bypass bit selected; with TEST_EN low their codes act as BYPASS. SAMPLE/PRELOAD takes the balls and loads the chain, IDCODE shows the identity of R427, BYPASS selects the bypass bit for every code that is none of the others, and a reset of the port selects IDCODE; in each the balls follow the device. No instruction touches anything but the port, and EXTEST, SAMPLE/PRELOAD alone load the chain. -/
def Obligations.RepairAndTestPort : Prop :=
  ((∀ (n : Nat) (s : State), laneHere n s = true → stage n s ≠ 8 →
    exec (.pcsParityError n false) s = .next (lineLost n 8 (bump (O.LNK_HIBER_COUNT n) s)) ∧
    exec (.pcsParityError n true) s = .next (failLogical 6 n 0 4 n (lineLost n 8 (bump (O.LNK_HIBER_COUNT n) s)))) ∧
  (∀ (n : Nat) (b : Bool) (s : State), laneHere n s = false ∨ stage n s = 8 → exec (.pcsParityError n b) s = .next s) ∧
  (∀ (r : Nat) (lanes : List Nat) (s : State), ∃ t u, exec (.routerParityError r lanes) s = .next t ∧ t = failLogical 7 r 0 4 0 u ∧
    u = { s with lnk := u.lnk } ∧ (∀ n, n ∈ lanes → n < s.lnk.lanes.length → (lane n u).cur = (lane n s).cur.map fun i => { i with body := i.body.spoil }) ∧
    (∀ n, n ∉ lanes → lane n u = lane n s)) ∧
  (∀ (rows words : List (Nat × Nat)) (s : State), ∃ t u again, exec (.scrubPass rows words) s = .next t ∧
    again = rows.eraseDups.filter s.sys.lastRows.contains ∧ t = each again (fun e => sramRepair 4 e.1 e.2 0 5) u ∧
    SameObjs [O.SYS_SCRUB_PASSES, O.SYS_ECC_CORR, O.SYS_ECC_UNCORR] s u ∧ rd O.SYS_SCRUB_PASSES u = satU 32 (rd O.SYS_SCRUB_PASSES s + 1) ∧
    rd O.SYS_ECC_CORR u = satU 32 (rd O.SYS_ECC_CORR s + rows.length) ∧ rd O.SYS_ECC_UNCORR u = satU 32 (rd O.SYS_ECC_UNCORR s + words.length) ∧
    u = { s with objs := u.objs, sys := { s.sys with bad := words.foldl addTo s.sys.bad, lastRows := rows.eraseDups.filter fun e => !again.contains e } }) ∧
  (∀ (d : Int) (s : State), isNode s = true → (2032 ≤ d → exec (.overtempReading d) s = .next (setLive 235 true 0 s)) ∧
    (d ≤ 1952 → exec (.overtempReading d) s = .next (setLive 235 false 0 s)) ∧ (1952 < d → d < 2032 → exec (.overtempReading d) s = .next s)) ∧
  (∀ (d : Int) (s : State), isCell s = true → exec (.overtempReading d) s = .next s) ∧
  (∀ (c p : Nat) (s : State), c < 8 → isNode s = true ∨ c = 0 → p = fld (rd O.TSK_CORE_MAP s) (4 * c + 3) (4 * c) → p ≠ 15 →
    (rd O.TSK_SPARE s ≠ 15 → ∃ t u, exec (.coreCheckFailure c) s = .next t ∧ t = mapOut 2 c p (some (rd O.TSK_SPARE s)) 0 4 0 u ∧ rd O.TSK_SPARE u = 15 ∧
      OnlyObjs [O.TSK_SPARE, O.TSK_CORE_MAP] s u ∧ rd O.TSK_CORE_MAP u = rd O.TSK_CORE_MAP s - p * 16 ^ c + rd O.TSK_SPARE s * 16 ^ c) ∧
    (rd O.TSK_SPARE s = 15 → isNode s = true → ∃ t u v, exec (.coreCheckFailure c) s = .next t ∧ OnlyObjs [O.TSK_CORE_MAP] s u ∧
      rd O.TSK_CORE_MAP u = rd O.TSK_CORE_MAP s - p * 16 ^ c + 15 * 16 ^ c ∧ v = mapOut 2 c p none 0 4 0 u ∧
      t = dispatch (unDeck c (if coreTask c v = 0xFFFF then v else abortTask (coreTask c v) 4 v))) ∧
    (rd O.TSK_SPARE s = 15 → isCell s = true → exec (.coreCheckFailure c) s = .next (dieReset 5 (mapOut 2 c p none 0 4 0 s)))) ∧
  (∀ (c : Nat) (s : State), 8 ≤ c ∨ fld (rd O.TSK_CORE_MAP s) (4 * c + 3) (4 * c) = 15 ∨ (isCell s = true ∧ c ≠ 0) → exec (.coreCheckFailure c) s = .next s)) ∧
  ((∀ (b d : List Bool) (s : State), s.straps.testEn = true → ∃ t, exec (.jtagExtest b d) s = .next t ∧ t = { s with jtag := t.jtag } ∧ t.jtag.ir = 0 ∧ t.jtag.chain = d ∧ t.jtag.captured = b ∧ t.jtag.dr = none ∧ t.jtag.pins = .chain) ∧
  (∀ s : State, s.straps.testEn = true → exec .jtagHighz s = .next { s with jtag := { s.jtag with ir := 3, dr := none, bypass := false, pins := .highz } } ∧
    exec .jtagClamp s = .next { s with jtag := { s.jtag with ir := 4, dr := none, bypass := false, pins := .chain } }) ∧
  (∀ (b d : List Bool) (s : State), s.straps.testEn = false → exec (.jtagExtest b d) s = .next { s with jtag := { s.jtag with ir := 0, dr := none, bypass := false, pins := .system } } ∧
    exec .jtagHighz s = .next { s with jtag := { s.jtag with ir := 3, dr := none, bypass := false, pins := .system } } ∧ exec .jtagClamp s = .next { s with jtag := { s.jtag with ir := 4, dr := none, bypass := false, pins := .system } }) ∧
  (∀ (b l : List Bool) (s : State), ∃ t, exec (.jtagSamplePreload b l) s = .next t ∧ t = { s with jtag := t.jtag } ∧ t.jtag.captured = b ∧ t.jtag.chain = l ∧ t.jtag.pins = .system) ∧
  (∀ s : State, ∃ t v, exec .jtagIdcode s = .next t ∧ t = { s with jtag := t.jtag } ∧ t.jtag.ir = 2 ∧ t.jtag.dr = some v ∧ t.jtag.pins = .system ∧ t.jtag.chain = s.jtag.chain ∧ v % 2 = 1 ∧ v / 2 % 2048 = 0x6D3 ∧ v / 4096 % 65536 = 0x6480 ∧ v < 2 ^ 32) ∧
  (∀ (c : Nat) (s : State), ∃ t, exec (.jtagBypass c) s = .next t ∧ t = { s with jtag := t.jtag } ∧ t.jtag.bypass = false ∧ t.jtag.dr = none ∧ t.jtag.pins = .system ∧ t.jtag.chain = s.jtag.chain ∧ (4 < c → c < 256 → t.jtag.ir = c)) ∧
  (∀ s : State, ∃ t, exec .jtagReset s = .next t ∧ t = { s with jtag := t.jtag } ∧ t.jtag.ir = 2 ∧ t.jtag.pins = .system ∧ t.jtag.chain = s.jtag.chain))

/-- A walk with no number held numbers the nodes level by level from the apex, within a level by the parent's number and then by its downlink, at most 64 of them, each one level below its parent and none deeper than five node levels. -/
def Obligations.EnumerationNumbersLevelByLevel : Prop :=
  ∀ (l : List FoundNode), (∀ e ∈ l, e.num = none) →
    ((walk [] l).nodes.map fun n => n.2.num) = List.range (walk [] l).nodes.length ∧ (walk [] l).nodes.length ≤ 64 ∧
    (∀ n ∈ (walk [] l).nodes, n.2.dist ≤ 4 ∧ (n.2.num ≠ 0 → ∃ p ∈ (walk [] l).nodes, p.2.num = n.2.parent ∧ p.2.dist + 1 = n.2.dist)) ∧
    List.Pairwise (fun a b : Nat × TreeNode => a.2.dist < b.2.dist ∨ (a.2.dist = b.2.dist ∧
      (a.2.parent < b.2.parent ∨ (a.2.parent = b.2.parent ∧ a.2.link ≤ b.2.link)))) (walk [] l).nodes

/-- A second device with HOSTEN high: the apex that finds it records [31] set, the number of the node on whose downlink it was found and that downlink, enumeration stays RUNNING, and nothing but its number and its status changes beside. -/
def Obligations.SecondApexIsRecorded : Prop :=
  ∀ (l : List FoundNode) (self link : Nat) (w : Walk) (n : Nat × TreeNode) (at_ d : Nat) (s : State), isApex s = true →
    walk s.tree.held (l.map fun e => { e with num := none }) = w → w.nodes.find? (fun x => x.1 == self) = some n → w.conflict = some (at_, d) →
    ∃ t, exec (.enumeration l self link) s = .next t ∧ OnlyObjs [O.TREE_ENUM_STATUS, O.TREE_NODE_NUMBER, O.TREE_APEX_CONFLICT] s t ∧
      rd O.TREE_ENUM_STATUS t = 1 ∧ rd O.TREE_APEX_CONFLICT t = 2 ^ 31 + at_ * 256 + d

/-- Enumeration at a device that the walk takes and where no second apex is found. At a node below the apex: number, status (MIXED where both kinds lie on its downlinks), level and depth. At the apex: the count of nodes, and the first that applies of MIXED, TOO_DEEP, TOO_MANY and done (the order is the model's choice, log entry 34). At a cell of a piste: number, status, depth and the piste with its length, then its index and READY. A device that the walk does not take, and a cell of no piste, stay as they were. -/
def Obligations.EnumerationCompletes : Prop :=
  (∀ (l : List FoundNode) (self link : Nat) (w : Walk) (n : Nat × TreeNode) (s : State), isNode s = true → isApex s = false →
    walk (s.tree.held ++ givenNumbers l) l = w → w.nodes.find? (fun x => x.1 == self) = some n → w.conflict = none →
    ∃ t, exec (.enumeration l self link) s = .next t ∧ rd O.TREE_NODE_NUMBER t = n.2.num ∧
      rd O.TREE_ENUM_STATUS t = (if mixed l self then 5 else 2) ∧ rd O.TREE_LEVEL t = height 5 (w.nodes.map (·.2)) n.2.num ∧
      rd O.TREE_DEPTH t = maxL (w.nodes.map fun x => x.2.dist) + 2) ∧
  (∀ (l : List FoundNode) (self link : Nat) (w : Walk) (n : Nat × TreeNode) (s : State), isApex s = true →
    walk s.tree.held (l.map fun e => { e with num := none }) = w → w.nodes.find? (fun x => x.1 == self) = some n → w.conflict = none →
    ∃ t, exec (.enumeration l self link) s = .next t ∧ rd O.TREE_NODE_NUMBER t = n.2.num ∧ rd O.TREE_NODE_COUNT t = w.nodes.length ∧
      rd O.TREE_ENUM_STATUS t = (if mixed (l.map fun e => { e with num := none }) self then 5 else if w.deep then 3 else if w.many then 4 else 2)) ∧
  (∀ (l : List FoundNode) (self link : Nat) (w : Walk) (n : Nat × TreeNode) (p : FoundPiste) (s : State), isCell s = true →
    walk (s.tree.held ++ givenNumbers l) l = w → w.nodes.find? (fun x => x.1 == self) = some n → w.conflict = none →
    groupsFirst l self = false → (entry l self).pistes.find? (fun x => x.link == link) = some p →
    ∃ t u, exec (.enumeration l self link) s = .next t ∧ t = readyEval (cellIndex u) ∧ rd O.TREE_NODE_NUMBER u = n.2.num ∧ rd O.TREE_ENUM_STATUS u = 2 ∧
      rd O.TREE_DEPTH u = maxL (w.nodes.map fun x => x.2.dist) + 2 ∧ u.tree.pistes = [(link, if p.whole then p.len else p.cfg)] ∧
      SameObjs [O.TREE_NODE_NUMBER, O.TREE_ENUM_STATUS, O.TREE_DEPTH] s u) ∧
  (∀ (l : List FoundNode) (self link : Nat) (s : State), isApex s = false → (walk (s.tree.held ++ givenNumbers l) l).nodes.find? (fun x => x.1 == self) = none →
    exec (.enumeration l self link) s = .next s) ∧
  (∀ (l : List FoundNode) (self link : Nat) (s : State), isCell s = true → (walk (s.tree.held ++ givenNumbers l) l).conflict = none →
    groupsFirst l self = true ∨ (entry l self).pistes.find? (fun x => x.link == link) = none → exec (.enumeration l self link) s = .next s)

/-- Period parameters at the apex outside ROM service mode while no arm is deblocked: a value within its bounds is written, the apex builds a new set and computes its lag figures anew. Period parameters refused outside ROM service mode: STATE away from the apex and while an arm is deblocked, RANGE for a value out of bounds, and for a period in which SSI transfers that run would not fit (the model's choice, log entry 54); nothing changes. -/
def Obligations.PeriodParameters : Prop :=
  (∀ (v : Nat) (s : State), rd O.SYS_RECOVERY s = 0 → isApex s = true → anyDeblocked s = false →
    (1000 ≤ v → v ≤ 40000 → (twoLevel s = true ∨ 2000 ≤ v) → stageLimit s ≤ v → rd O.TIM_APPLY_LAG s ≤ 4 * v → ssiShut v s = false →
      exec (.timPeriodWrite v) s = .next (answer stOk [] (lagRecompute (buildSet (wr O.TIM_PERIOD v s))))) ∧
    (1 ≤ v → v ≤ 160000 → lagLimit s ≤ v → v ≤ 4 * rd O.TIM_PERIOD s →
      exec (.timApplyLagWrite v) s = .next (answer stOk [] (lagRecompute (buildSet (wr O.TIM_APPLY_LAG v s))))) ∧
    (40 ≤ v → v ≤ 400 → exec (.timCmdGuardWrite v) s = .next (answer stOk [] (lagRecompute (buildSet (wr O.TIM_CMD_GUARD v s))))) ∧
    (v = 0 → exec (.timLawStartWrite v) s =
      .next (answer stOk [] (lagRecompute (buildSet (wr O.TIM_LAW_START_EFF (min 160000 (autoStart s.tree.tIn)) (wr O.TIM_LAW_START 0 s)))))) ∧
    (1 ≤ v → v ≤ 160000 → s.tree.tIn ≤ 2500 * v → exec (.timLawStartWrite v) s =
      .next (answer stOk [] (lagRecompute (buildSet (wr O.TIM_LAW_START_EFF v (wr O.TIM_LAW_START v s)))))) ∧
    (1 ≤ v → v ≤ 0x7FFFFFFF → ∃ t, exec (.balSlalomSeedWrite v) s = .next t ∧ rd O.BAL_SLALOM_SEED t = v ∧ SameObjs [O.BAL_SLALOM_SEED] s t ∧
      t.tim.slalomWritten = some v ∧ t = { s with objs := t.objs, tim := t.tim, resp := [stOk] })) ∧
  ((∀ (v : Nat) (s : State), rd O.SYS_RECOVERY s = 0 → isApex s = false ∨ anyDeblocked s = true →
    exec (.timPeriodWrite v) s = .next (refusedState stState s) ∧ exec (.timApplyLagWrite v) s = .next (refusedState stState s) ∧
    exec (.timCmdGuardWrite v) s = .next (refusedState stState s) ∧ exec (.timLawStartWrite v) s = .next (refusedState stState s) ∧
    (isNode s = true → exec (.balSlalomSeedWrite v) s = .next (refusedState stState s))) ∧
  (∀ (v : Nat) (s : State), rd O.SYS_RECOVERY s = 0 → isApex s = true → anyDeblocked s = false →
    (v < 1000 ∨ 40000 < v ∨ (twoLevel s = false ∧ v < 2000) ∨ v < stageLimit s ∨ 4 * v < rd O.TIM_APPLY_LAG s ∨ ssiShut v s = true →
      exec (.timPeriodWrite v) s = .next (refusedState stRange s)) ∧
    (v = 0 ∨ 160000 < v ∨ v < lagLimit s ∨ 4 * rd O.TIM_PERIOD s < v → exec (.timApplyLagWrite v) s = .next (refusedState stRange s)) ∧
    (v < 40 ∨ 400 < v → exec (.timCmdGuardWrite v) s = .next (refusedState stRange s)) ∧
    (160000 < v ∨ (v ≠ 0 ∧ 2500 * v < s.tree.tIn) → exec (.timLawStartWrite v) s = .next (refusedState stRange s)) ∧
    (v = 0 ∨ 0x7FFFFFFF < v → exec (.balSlalomSeedWrite v) s = .next (refusedState stRange s))))

/-- A set that the apex builds at an accepted change takes effect no sooner than four old periods on, on the grid in force. -/
def Obligations.NewSetWaitsFourPeriods : Prop :=
  ∀ (s : State) (f : ParamSet), s.tim.inForce = some f → 0 < f.t →
    ∃ p, (buildSet s).tim.pend = some p ∧ p.pEff = nsOfTicks (f.pmark p.kEff) ∧ vtTicks s + 4 * f.t ≤ f.pmark p.kEff ∧
      (∀ q, s.tim.pend = some q → q.kEff ≤ p.kEff) ∧ p.t = rd O.TIM_PERIOD s ∧ p.l = rd O.TIM_APPLY_LAG s ∧ p.g = rd O.TIM_CMD_GUARD s ∧
      p.deblock = rd O.CEL_ARM_DEBLOCK s ∧ (buildSet s).tim.inForce = some f ∧ buildSet s = { s with tim := (buildSet s).tim }

/-- The arm deblock mask. At the apex outside ROM service mode a write that sets no bit, or that sets bits while every condition holds, is written, the apex builds a new set, and nothing else changes; a mask equal to the one held changes nothing; a write that sets a bit while a condition fails, or in ROM service mode, answers STATE. Other nodes answer STATE, and cells BLOCK_OFF. -/
def Obligations.ArmDeblockMask : Prop :=
  (∀ (v : Nat) (s : State), rd O.SYS_RECOVERY s = 0 → isApex s = true → v < 2 ^ 64 → v ≠ rd O.CEL_ARM_DEBLOCK s →
    (∀ a, a < 64 → bit v a = true → bit (rd O.CEL_ARM_DEBLOCK s) a = true) ∨
      (rd O.TIM_LAG_STATUS s ≠ 2 ∧ rd O.LAW_STATE s = 1 ∧ (∀ a, a < 64 → bit v a = true → bit (rd O.CEL_ARM_DEBLOCK s) a = false → armBound a s = true) ∧
        rd O.RED_WIRING_NODES s = 0 ∧ (∀ n ∈ s.ket.latched, bit (reactOf n s) 4 = false) ∧ rd O.SAF_BLOCK_NODES s = 0 ∧ inSafeBlock s = false) →
    ∃ t, exec (.celArmDeblock v) s = .next t ∧ rd O.CEL_ARM_DEBLOCK t = v ∧ SameObjs [O.CEL_ARM_DEBLOCK] s t ∧ t.resp = [stOk] ∧
      t = { s with objs := t.objs, tim := t.tim, resp := t.resp } ∧ t.tim = (buildSet (wr O.CEL_ARM_DEBLOCK v s)).tim) ∧
  (∀ (v : Nat) (s : State), rd O.SYS_RECOVERY s = 0 → isApex s = true → v < 2 ^ 64 → v = rd O.CEL_ARM_DEBLOCK s →
    exec (.celArmDeblock v) s = .next { s with resp := [stOk] }) ∧
  (∀ (v a : Nat) (s : State), isApex s = true → a < 64 → bit v a = true → bit (rd O.CEL_ARM_DEBLOCK s) a = false →
    rd O.TIM_LAG_STATUS s = 2 ∨ rd O.LAW_STATE s ≠ 1 ∨ armBound a s = false ∨ rd O.RED_WIRING_NODES s ≠ 0 ∨ rd O.SAF_BLOCK_NODES s ≠ 0 ∨
      inSafeBlock s = true ∨ (∃ n ∈ s.ket.latched, bit (reactOf n s) 4 = true) ∨ rd O.SYS_RECOVERY s ≠ 0 → exec (.celArmDeblock v) s = .next (refusedState stState s)) ∧
  (∀ (v : Nat) (s : State), isNode s = true → isApex s = false → exec (.celArmDeblock v) s = .next (refusedState stState s)) ∧
  (∀ (v : Nat) (s : State), isCell s = true → exec (.celArmDeblock v) s = .next (refusedState stBlockOff s))

/-- The next P-mark begins the next period: time reaches P(k) with the lanes and the converter brought up to it, TIM_PERIOD_NUMBER shows k, a pending set whose period has come is in force, and the units act in their order; without a period grid nothing happens. The period after the latest follows where a grid is in force. The slalom sequence steps as R50 states. -/
def Obligations.PMarkBeginsPeriod : Prop :=
  (∀ (k : Nat) (s : State), nextPeriod s = some k →
    ∃ t u w v, exec .pMark s = .next t ∧ u = adcNow (each (List.range 68) laneDue (advVt (pOf k s) s)) ∧ w = paramsAt k (wr O.TIM_PERIOD_NUMBER k u) ∧
      rd O.TIM_PERIOD_NUMBER w = k ∧ (∀ p, u.tim.pend = some p → p.kEff ≤ k → w.tim.inForce = some p ∧ w.tim.pend = none) ∧
      v = caddyPMark (lawPMark k (redPMark k w)) ∧
      t = cellPMark k (acqPMark k (hasGrid u && tOf (kNow u) u != tOf k u) (adcPMark k (balPMark k (claimOf k v) v)))) ∧
  (∀ (s : State) (f : ParamSet), s.tim.inForce = some f → nextPeriod s = some (kNow s + 1)) ∧
  (∀ (s : State), s.tim.inForce = none → s.tim.pend = none → exec .pMark s = .next s) ∧
  (∀ x : Nat, x < 2 ^ 31 → lfsr x = ((x <<< 1) ||| ((x >>> 30 ^^^ x >>> 27) % 2)) % 2 ^ 31)

/-- Within a node every key is unique: the keys of two different cell indices differ, whatever else goes into them. -/
def Obligations.KeysAreUnique : Prop :=
  ∀ (dir v v' : Nat) (ins ins' : Bool) (w w' : Int) (stick idx idx' mask : Nat), idx < 1024 → idx' < 1024 → idx ≠ idx' →
    makeKey dir v ins w stick idx mask ≠ makeKey dir v' ins' w' stick idx' mask

/-- The listing of R56 over rising keys: exactly n cells have a key no greater than K_TH, n is the whole request unless saturated, and the carve cell is the next one, inserted for less than a whole period. -/
def Obligations.SelectionInsertsExactlyN : Prop :=
  ∀ (keys : List Nat) (mag t : Nat), List.Pairwise (· < ·) keys → (∀ k ∈ keys, k < 2 ^ 26) → 0 < t →
    (selectKeys keys mag t).1 ≤ keys.length ∧
    ((selectKeys keys mag t).2.2.1 = decide (mag > keys.length * 65536)) ∧
    ((selectKeys keys mag t).1 = if (selectKeys keys mag t).2.2.1 then keys.length else mag / 65536) ∧
    ((selectKeys keys mag t).2.1 = if (selectKeys keys mag t).2.2.1 then 0 else mag % 65536) ∧
    ((selectKeys keys mag t).1 = 0 → (selectKeys keys mag t).2.2.2.1 = 0xFFFFFFFF) ∧
    ((selectKeys keys mag t).1 ≠ 0 → (keys.filter fun k => decide (k ≤ (selectKeys keys mag t).2.2.2.1)).length = (selectKeys keys mag t).1) ∧
    (selectKeys keys mag t).2.2.2.2.2.1 < t ∧
    ((selectKeys keys mag t).2.2.2.2.1 = 0xFFFFFFFF ↔ (selectKeys keys mag t).2.2.2.2.2.1 = 0) ∧
    ((selectKeys keys mag t).2.2.2.2.1 ≠ 0xFFFFFFFF → (selectKeys keys mag t).2.2.2.2.1 ∈ keys ∧
      (keys.filter fun k => decide (k < (selectKeys keys mag t).2.2.2.2.1)).length = (selectKeys keys mag t).1)

/-- Apportioning hands out exactly the whole cells asked for, unless more is asked for than there are eligible cells: then every group inserts all of them. -/
def Obligations.ApportioningSumsToRequest : Prop :=
  ∀ (neg : Bool) (mag start : Nat) (gs : List AppGroup),
    ((apportion neg mag start gs).sat = decide (mag > sumL (gs.map (·.elig)) * 65536)) ∧
    ((apportion neg mag start gs).sat = true → (apportion neg mag start gs).n = gs.map (·.elig)) ∧
    ((apportion neg mag start gs).sat = false → sumL (apportion neg mag start gs).n = mag / 65536) ∧
    (apportion neg mag start gs).n.length = gs.length

/-- Binning: no bin outside the histogram, and every counted cell of a polarity in one bin of each histogram, so that the three have equal sums. -/
def Obligations.HistogramsHoldEveryCell : Prop :=
  ∀ (l : List (Nat × Report)) (neg : Bool) (stick mask base shift : Nat), l.length ≤ 1024 →
    (∀ dir a, binOf dir base shift a < (if dir = 1 ∨ dir = 2 then 64 else 16)) ∧
    sumL (leafHists l neg stick mask base shift).1 = (l.filter fun h => !neg || h.2.fb).length ∧
    sumL (leafHists l neg stick mask base shift).2.1 = (l.filter fun h => !neg || h.2.fb).length ∧
    sumL (leafHists l neg stick mask base shift).2.2 = (l.filter fun h => !neg || h.2.fb).length

/-- A report arrives at a node. One that fails its CRC or holds a reserved encoding, or arrives at a cell, changes nothing. A valid one is first shown in the mirror of its index and relayed where its piste is split; if its index is not awaited in a period in work that has not ended, no more happens. Otherwise it is taken: the first report of an index in time, direct on its own link or relayed for a split piste without a direct report, is heard in its period, counts a shortfall where it says so, and closes its slot if it was the last one awaited; a relayed report of an index not heard that comes late counts once in BAL_SPLIT_LATE; a direct report on another link than its own, a relayed one that a direct one preceded or of a piste that is not split, and any other late one change nothing more. The report deadline of a slot passes: at a node with pistes in the slot, the oldest period in work that has not closed it is closed at that instant; otherwise nothing happens. Closing a slot adds each awaited position never heard to BAL_MISSING, and each heard as available under another mask than the period's to BAL_MASK_EXCLUDED; a slot already closed is not closed again. -/
def Obligations.ReportsAreCountedOrCharged : Prop :=
  ((∀ (crc : Bool) (link : Nat) (h : Hdr) (r : Report) (s : State), isNode s = false ∨ crc = false ∨ r.valid = false →
    exec (.reportRx crc link h r) s = .next s) ∧
  (∀ (link : Nat) (h : Hdr) (r : Report) (s : State), isNode s = true → r.valid = true →
    (1023 < r.cellIndex ∨ s.bal.works.find? (fun x => low 32 x.k == r.period) = none ∨
      ∃ w, s.bal.works.find? (fun x => low 32 x.k == r.period) = some w ∧
        (w.ended = true ∨ (awaited (rd (O.BAL_LINK_ARM (r.cellIndex / 16)) s) s).contains r.cellIndex = false)) →
    exec (.reportRx true link h r) s = .next (relayReport link h r (mirrorCell r s))) ∧
  (∀ (link : Nat) (h : Hdr) (r : Report) (s : State) (w : PeriodWork), isNode s = true → r.valid = true → r.cellIndex ≤ 1023 →
    s.bal.works.find? (fun x => low 32 x.k == r.period) = some w → w.ended = false →
    (awaited (rd (O.BAL_LINK_ARM (r.cellIndex / 16)) s) s).contains r.cellIndex = true →
    ∃ t u, exec (.reportRx true link h r) s = .next t ∧ u = relayReport link h r (mirrorCell r s) ∧
      t = takeReport link h.relayed r (rd (O.BAL_LINK_ARM (r.cellIndex / 16)) s) w u) ∧
  (∀ (r : Report) (s : State), r.cellIndex ≤ 1023 →
    OnlyObjs [O.CEL_MIRROR_V (r.cellIndex / 16) (r.cellIndex % 16), O.CEL_MIRROR_STATE (r.cellIndex / 16) (r.cellIndex % 16)] s (mirrorCell r s) ∧
      rd (O.CEL_MIRROR_V (r.cellIndex / 16) (r.cellIndex % 16)) (mirrorCell r s) = r.vKey ∧
      rd (O.CEL_MIRROR_STATE (r.cellIndex / 16) (r.cellIndex % 16)) (mirrorCell r s) = r.cellState) ∧
  (∀ (link : Nat) (h : Hdr) (r : Report) (s : State), h.relayed = true ∨ rdBit O.BAL_SPLIT_PISTES link s = false → relayReport link h r s = s) ∧
  (∀ (link j : Nat) (rel : Bool) (r : Report) (w : PeriodWork) (s : State), j ≤ 5 → work? w.k s = some w →
    aget w.heard r.cellIndex = none → w.closed.contains j = false →
    sinceP w.k s ≤ pisteDeadline (r.cellIndex / 16, pisteLen (r.cellIndex / 16) s) s →
    (rel = true → w.direct.contains r.cellIndex = false ∧ rdBit O.BAL_SPLIT_PISTES (r.cellIndex / 16) s = true) →
    (rel = false → r.cellIndex / 16 = link) →
    ∃ v x, work? w.k v = some x ∧
      x = { w with heard := w.heard ++ [(r.cellIndex, r)], direct := if rel then w.direct else addTo w.direct r.cellIndex } ∧
      v = { s with objs := v.objs, bal := v.bal } ∧ SameObjs [O.BAL_SHORTFALL j] s v ∧
      rd (O.BAL_SHORTFALL j) v = (if r.countable && r.shortfall then satU 32 (rd (O.BAL_SHORTFALL j) s + 1) else rd (O.BAL_SHORTFALL j) s) ∧
      takeReport link rel r j w s = (if (awaited j s).all fun i => (aget x.heard i).isSome then closeSlot w.k j v else v)) ∧
  (∀ (link j : Nat) (r : Report) (w : PeriodWork) (s : State), j ≤ 5 → work? w.k s = some w → aget w.heard r.cellIndex = none →
    w.direct.contains r.cellIndex = false → rdBit O.BAL_SPLIT_PISTES (r.cellIndex / 16) s = true → w.splitLate.contains r.cellIndex = false →
    w.closed.contains j = true ∨ pisteDeadline (r.cellIndex / 16, pisteLen (r.cellIndex / 16) s) s < sinceP w.k s →
    ∃ t, t = takeReport link true r j w s ∧ t = { s with objs := t.objs, bal := t.bal } ∧
      work? w.k t = some { w with splitLate := r.cellIndex :: w.splitLate } ∧ SameObjs [O.BAL_SPLIT_LATE j] s t ∧
      rd (O.BAL_SPLIT_LATE j) t = satU 32 (rd (O.BAL_SPLIT_LATE j) s + 1)) ∧
  (∀ (link j : Nat) (rel : Bool) (r : Report) (w : PeriodWork) (s : State),
    (rel = false ∧ r.cellIndex / 16 ≠ link) ∨
    (rel = true ∧ (w.direct.contains r.cellIndex = true ∨ rdBit O.BAL_SPLIT_PISTES (r.cellIndex / 16) s = false)) ∨
    ((w.closed.contains j = true ∨ pisteDeadline (r.cellIndex / 16, pisteLen (r.cellIndex / 16) s) s < sinceP w.k s) ∧
      (rel = false ∨ (aget w.heard r.cellIndex).isSome = true ∨ w.splitLate.contains r.cellIndex = true)) →
    takeReport link rel r j w s = s)) ∧
  ((∀ (j : Nat) (s : State) (w : PeriodWork), isNode s = true → slotPistes j s ≠ [] → oldest (fun w => !w.closed.contains j) s = some w →
    ∃ t u, exec (.reportClose j) s = .next t ∧
      u = advVt (pOf w.k s + ceilDiv (maxL ((slotPistes j s).map fun p => pisteDeadline p s)) 2500) s ∧ t = closeSlot w.k j u) ∧
  (∀ (j : Nat) (s : State), isNode s = false ∨ slotPistes j s = [] ∨ oldest (fun w => !w.closed.contains j) s = none →
    exec (.reportClose j) s = .next s) ∧
  (∀ (k j : Nat) (s : State) (w : PeriodWork), j ≤ 5 → work? k s = some w → w.closed.contains j = false →
    rd (O.BAL_MISSING j) s < 2 ^ 32 → rd (O.BAL_MASK_EXCLUDED j) s < 2 ^ 32 →
    rd (O.BAL_MISSING j) (closeSlot k j s) = satU 32 (rd (O.BAL_MISSING j) s + ((awaited j s).filter fun i => chargeOf i w == 2).length) ∧
    rd (O.BAL_MASK_EXCLUDED j) (closeSlot k j s) = satU 32 (rd (O.BAL_MASK_EXCLUDED j) s + ((awaited j s).filter fun i => chargeOf i w == 1).length) ∧
    (∃ x, work? k (closeSlot k j s) = some x ∧ x.closed = j :: w.closed ∧ x.heard = w.heard)) ∧
  (∀ (k j : Nat) (s : State) (w : PeriodWork), work? k s = some w → w.closed.contains j = true → closeSlot k j s = s) ∧
  (∀ (i : Nat) (w : PeriodWork), (aget w.heard i = none → chargeOf i w = 2) ∧
    (∀ r, aget w.heard i = some r → chargeOf i w = if r.avail = true ∧ r.maskOk = false then 1 else 0)))

/-- A reference frame arrives at a node below the apex. Of a period in work, the first copy's entries are taken and its bytes added to the digest; a later copy, and one of a period that has ended, adds its bytes alone. A frame that fails its CRC, is not valid or of no period in work, or that arrives at the apex or a cell, changes nothing. -/
def Obligations.ReferenceIsTaken : Prop :=
  (∀ (crc : Bool) (lane : Nat) (r : Reference) (s : State), isNode s = false ∨ isApex s = true ∨ crc = false ∨ r.valid = false ∨
    s.bal.works.find? (fun x => low 32 x.k == r.period) = none → exec (.referenceRx crc lane r) s = .next s) ∧
  (∀ (lane : Nat) (r : Reference) (s : State) (w : PeriodWork), isNode s = true → isApex s = false → r.valid = true →
    s.bal.works.find? (fun x => low 32 x.k == r.period) = some w →
    (w.refs = none → w.ended = false → ∃ t u, exec (.referenceRx true lane r) s = .next t ∧ t = takeEntries w.k r.entries u ∧
      work? w.k u = some { w with refIn := w.refIn ++ [(lane, r.bytes)] } ∧ u = { s with bal := u.bal }) ∧
    (w.refs.isSome = true ∨ w.ended = true → ∃ t, exec (.referenceRx true lane r) s = .next t ∧
      work? w.k t = some { w with refIn := w.refIn ++ [(lane, r.bytes)] } ∧ t = { s with bal := t.bal }))

/-- At its last launch instant a node ends the oldest period in work that it has not launched and counts it: TIM_LATE_PERIODS rises by one, the period is held among the abandoned ones, and the run of late periods grows by one. When the run reaches three, and at every further one, source 203 is raised with the period's number; before that no source changes. A period that is over for another device is counted without the run. With every period launched, and at a cell, nothing happens. -/
def Obligations.LatePeriodIsAbandoned : Prop :=
  (∀ (s : State) (w : PeriodWork), isNode s = true →
    oldest (fun w => !w.ended && (if (allGroups s).isEmpty then (slotsHere s).any fun j => !w.launched.contains j else !w.apportioned)) s = some w →
    work? w.k s = some w →
    ∃ t u, exec .nodePeriodAbandon s = .next (countLate w.k true t) ∧ u = advVt (lastLaunch w.k s) s ∧
      work? w.k t = some { w with ended := true } ∧ t = { u with bal := t.bal } ∧ t.bal.lateRun = u.bal.lateRun) ∧
  (∀ s : State, isNode s = false ∨
    oldest (fun w => !w.ended && (if (allGroups s).isEmpty then (slotsHere s).any fun j => !w.launched.contains j else !w.apportioned)) s = none →
    exec .nodePeriodAbandon s = .next s) ∧
  (∀ (k : Nat) (own : Bool) (s : State), ∃ u, SameObjs [O.TIM_LATE_PERIODS] s u ∧ u = { s with objs := u.objs, bal := u.bal, red := u.red } ∧
    rd O.TIM_LATE_PERIODS u = satU 32 (rd O.TIM_LATE_PERIODS s + 1) ∧ u.bal.lateRun = (if own then s.bal.lateRun + 1 else s.bal.lateRun) ∧
    u.red.abandoned = (addTo s.red.abandoned k).take 16 ∧ u.bal.works = s.bal.works ∧
    countLate k own s = if own && s.bal.lateRun ≥ 2 then setLive 203 true (low 32 k) u else u)

/-- The command frames of a slot: 600 ns after the later of the reference and the report instant the comparator judges the oldest period whose selection stands; where it passes them the frames of the slot are sent, otherwise nothing of the period goes out. The comparator passes equal frames, and a difference of the spare alone; with fewer than two instances it withholds; a difference of the pair, or of all, withholds the period and, with a spare, opens a triage of the next one, in which a difference of one instance maps that instance out and passes the others' frames, and a difference of all withholds again. Withholding ends the period, counts it in BAL_LOCKSTEP_MISMATCH and as late, and raises source 205. Sending marks the slot launched and holds the bytes sent on each of its pistes. Without a slot or a selection to send nothing happens. The command frame of a piste: execute time truncated to whole nanoseconds, CARVE_EN exactly when there is a carve key, EXCLUDE at every position of the piste whose cell was not counted, and no DEBLOCK in the safe block. -/
def Obligations.CommandsLaunchAfterComparison : Prop :=
  ((∀ (j vote : Nat) (s : State) (w : PeriodWork) (r : Sel), isNode s = true → slotPistes j s ≠ [] →
    oldest (fun w => !w.launched.contains j && !w.ended && (aget w.sel j).isSome) s = some w → aget w.sel j = some r →
    ∃ t u, exec (.commandLaunch j vote) s = .next t ∧ u = advVt (max w.refAt (pOf w.k s + ceilDiv (reportDone 1 (nodeNum s) s) 2500) + 240) s ∧
      t = (if (Sys2Proof.Machine.compare w.k vote u).1 then sendCommands j w r (Sys2Proof.Machine.compare w.k vote u).2
           else (Sys2Proof.Machine.compare w.k vote u).2)) ∧
  (∀ (j vote : Nat) (s : State), isNode s = false ∨ slotPistes j s = [] ∨
    oldest (fun w => !w.launched.contains j && !w.ended && (aget w.sel j).isSome) s = none → exec (.commandLaunch j vote) s = .next s) ∧
  (∀ (k vote : Nat) (s : State) (w : PeriodWork), work? k s = some w → w.ended = false →
    ((working 0 s).length < 2 → Sys2Proof.Machine.compare k vote s = (false, withhold k s)) ∧
    (2 ≤ (working 0 s).length → vote = 0 ∨ (vote = 3 ∧ ∀ t, s.bal.triage = some t → k < t) → Sys2Proof.Machine.compare k vote s = (true, s)) ∧
    (2 ≤ (working 0 s).length → s.bal.triage = none → vote ≠ 0 → vote ≠ 3 → Sys2Proof.Machine.compare k vote s =
      (false, if (classMap 0 s).spares = [] then withhold k s
              else bump O.SYS_TRIAGES { withhold k s with bal := { (withhold k s).bal with triage := some (k + 1) } })) ∧
    (∀ t, 2 ≤ (working 0 s).length → s.bal.triage = some t →
      (k < t → vote ≠ 0 → vote ≠ 3 → Sys2Proof.Machine.compare k vote s = (false, withhold k s)) ∧
      (t ≤ k → vote = 4 → Sys2Proof.Machine.compare k vote s = (false, withhold k { s with bal := { s.bal with triage := some (k + 1) } })) ∧
      (t ≤ k → vote = 1 ∨ vote = 2 → Sys2Proof.Machine.compare k vote s =
        (true, failLogical 0 (vote - 1) 0 2 (low 32 k) { s with bal := { s.bal with triage := none } })) ∧
      (∀ p, t ≤ k → vote = 3 → (classMap 0 s).spares.head? = some p → Sys2Proof.Machine.compare k vote s =
        (true, failSpare 0 p 0 2 (low 32 k) { s with bal := { s.bal with triage := none } })))) ∧
  (∀ (k : Nat) (s : State) (w : PeriodWork), work? k s = some w → w.ended = false →
    ∃ v, withhold k s = setLive 205 true (low 32 k) (countLate k true v) ∧ v = { s with objs := v.objs, bal := v.bal } ∧
      v.bal.withheldK = some k ∧ work? k v = some { w with ended := true } ∧ SameObjs [O.BAL_LOCKSTEP_MISMATCH] s v ∧
      rd O.BAL_LOCKSTEP_MISMATCH v = satU 32 (rd O.BAL_LOCKSTEP_MISMATCH s + 1)) ∧
  (∀ (j : Nat) (w : PeriodWork) (r : Sel) (s : State), work? w.k s = some w →
    ∃ u x, sendCommands j w r s = periodLaunched w.k u ∧ work? w.k u = some x ∧ x.launched = j :: w.launched ∧
      x.out.map (·.1) = w.out.map (·.1) ++ (slotPistes j s).map (·.1))) ∧
  (∀ (p : Nat × Nat) (j : Nat) (w : PeriodWork) (r : Sel) (s : State),
    (commandFor p j w r s).period = w.k % 2 ^ 32 ∧ (commandFor p j w r s).exec = nsOfTicks (eOf w.k s) ∧
    ((commandFor p j w r s).carveEn = true ↔ (commandFor p j w r s).kCarve ≠ 0xFFFFFFFF) ∧
    ((commandFor p j w r s).carveEn = false → (commandFor p j w r s).tCarve = 0) ∧
    (commandFor p j w r s).kTh = r.kTh ∧ (commandFor p j w r s).stick = r.stick ∧ (commandFor p j w r s).sat = r.sat ∧
    (∀ q, q < 16 → (bit (commandFor p j w r s).exclude q = true ↔ q < p.2 ∧ counted (p.1 * 16 + q) w = false)) ∧
    (commandFor p j w r s).originNode = nodeNum s ∧ (commandFor p j w r s).originLink = p.1 ∧ (commandFor p j w r s).orders.length = 16 ∧
    (inSafeBlock s = true → (commandFor p j w r s).deblock = false))

/-- The command frame of a piste carries in EXCLUDE the positions whose cell the node did not count, and a cell that sees its own bit bypasses. -/
def Obligations.UncountedCellsAreExcluded : Prop :=
  (∀ (p : Nat × Nat) (j : Nat) (w : PeriodWork) (r : Sel) (s : State) (q : Nat), q < 16 → q < p.2 →
    (bit (commandFor p j w r s).exclude q = true ↔ counted (p.1 * 16 + q) w = false)) ∧
  (∀ (k : Nat) (c : Command) (s : State), bit c.exclude (rd O.TREE_CELL_INDEX s % 16) = true → decide60 k c s = .bypass)

/-- The outputs of a node with groups. The entries of the oldest period with a reference go down 300 ns after it, at once at an apex. The summary of the oldest period whose inputs are complete goes up on U0 and U1 100 ns after the last of them, where the comparator passes it or the period was abandoned, and its bytes are held once for each of the two lanes in L5; where the comparator withholds it nothing goes out. A node without groups, or with no reference to pass on, sends no entries; the apex, and a node whose inputs are not complete, sends no summary. A group's summary that comes before its deadline joins its period's work; an ARMS summary where the slot's arm has two groups or more also sets BAL_CFG_ERROR of the slot to 1 and counts as missing at a head; on a 0xFE link the arms it names become the group's. A second copy, a late one, one of no period in work, one on a link of no group and one that fails its CRC or is not valid change nothing. A group without a summary when its deadline passes is lost to the oldest such period and counts as missing at the head of its slot; with no such period, or no group on the link, nothing happens. -/
def Obligations.GroupFrames : Prop :=
  ((∀ (s : State) (w : PeriodWork), isNode s = true → allGroups s ≠ [] → oldest (fun w => !w.apportioned && !w.ended && w.refs.isSome) s = some w →
    ∃ t u v, exec .apportionLaunch s = .next t ∧ u = advVt (w.refAt + if isApex s then 0 else 120) s ∧
      v = sendReferences w (entriesDown w u).1 (entriesDown w u).2 ∧
      t = periodLaunched w.k (updWork w.k (fun x => { x with apportioned := true }) v)) ∧
  (∀ (s : State) (vote : Nat) (w : PeriodWork), isNode s = true → isApex s = false →
    oldest (fun w => !w.sumSent && !(w.ended && s.bal.withheldK == some w.k) && inputsDone w s) s = some w →
    ∃ t u c, exec (.summaryLaunch vote) s = .next t ∧ u = advVt (w.inputAt + 40) s ∧
      c = (if w.ended then (true, u) else Sys2Proof.Machine.compare w.k vote u) ∧
      (c.1 = false → t = c.2) ∧ (c.1 = true → (buildSummary w c.2).1 = none → t = (buildSummary w c.2).2) ∧
      (∀ y, c.1 = true → (buildSummary w c.2).1 = some y → ∃ v x, v = (buildSummary w c.2).2 ∧
        x = updWork w.k (fun x => { x with sumSent := true, sumOut := (upOf [laneU0, laneU1] v).map fun _ => y.bytes }) v ∧
        t = sendFrame 3 1 false (nodeAddr s.tree.parent) (sideB v) true false (.summary y) [laneU0, laneU1] x)) ∧
  (∀ s : State, isNode s = false ∨ allGroups s = [] ∨ oldest (fun w => !w.apportioned && !w.ended && w.refs.isSome) s = none →
    exec .apportionLaunch s = .next s) ∧
  (∀ (vote : Nat) (s : State), isNode s = false ∨ isApex s = true ∨
    oldest (fun w => !w.sumSent && !(w.ended && s.bal.withheldK == some w.k) && inputsDone w s) s = none → exec (.summaryLaunch vote) s = .next s)) ∧
  ((∀ (link : Nat) (y : Summary) (s : State) (g : Nat) (w : PeriodWork), isNode s = true → y.valid = true → groupLink link s = some g →
    s.bal.works.find? (fun x => low 32 x.k == y.period) = some w → w.lost.contains g = false → aget w.sums g = none →
    (match y with | .arms _ _ => 6 ≤ rd (O.BAL_LINK_ARM g) s ∨ (slotGroups (rd (O.BAL_LINK_ARM g) s) s).length < 2 | .group _ _ => True) → rd (O.BAL_LINK_ARM g) s ≠ 0xFE →
    ∃ t u, exec (.summaryRx true link y) s = .next t ∧ t = showGroups w.k g u ∧
      work? w.k u = some { w with sums := (g, y) :: w.sums, inputAt := max w.inputAt (vtTicks s) } ∧ u = { s with bal := u.bal }) ∧
  (∀ (link p : Nat) (l : List ArmSum) (s : State) (g j : Nat) (w : PeriodWork), isNode s = true → (Summary.arms p l).valid = true →
    groupLink link s = some g → s.bal.works.find? (fun x => low 32 x.k == p) = some w → w.lost.contains g = false → aget w.sums g = none →
    j = rd (O.BAL_LINK_ARM g) s → j ≤ 5 → 2 ≤ (slotGroups j s).length →
    ∃ t u, exec (.summaryRx true link (.arms p l)) s = .next t ∧ u = countMissing g (wr (O.BAL_CFG_ERROR j) 1 s) ∧
      t = showGroups w.k g (updWork w.k (fun x => { x with sums := (g, .arms p l) :: x.sums, inputAt := max x.inputAt (vtTicks u) }) u)) ∧
  (∀ (link : Nat) (y : Summary) (s : State) (g : Nat) (w : PeriodWork), isNode s = true → y.valid = true → groupLink link s = some g →
    s.bal.works.find? (fun x => low 32 x.k == y.period) = some w → w.lost.contains g = false → aget w.sums g = none →
    rd (O.BAL_LINK_ARM g) s = 0xFE →
    ∃ t u, exec (.summaryRx true link y) s = .next t ∧ u.objs = s.objs ∧ aget u.bal.groupArms g = some (y.counts.map (·.arm)) ∧
      t = showGroups w.k g (updWork w.k (fun x => { x with sums := (g, y) :: x.sums, inputAt := max x.inputAt (vtTicks s) }) u)) ∧
  (∀ (crc : Bool) (link : Nat) (y : Summary) (s : State), isNode s = false ∨ crc = false ∨ y.valid = false ∨ groupLink link s = none ∨
    s.bal.works.find? (fun x => low 32 x.k == y.period) = none ∨
    (∃ g w, groupLink link s = some g ∧ s.bal.works.find? (fun x => low 32 x.k == y.period) = some w ∧
      (w.lost.contains g = true ∨ (aget w.sums g).isSome = true)) →
    exec (.summaryRx crc link y) s = .next s) ∧
  (∀ (link g : Nat) (s : State) (w : PeriodWork), isNode s = true → groupLink link s = some g →
    oldest (fun w => (aget w.sums g).isNone && !w.lost.contains g) s = some w → work? w.k s = some w →
    ∃ t u v, exec (.groupSummaryDeadline link) s = .next t ∧ u = advVt (pOf w.k s + groupDeadline g s) s ∧
      v = updWork w.k (fun x => { x with lost := g :: x.lost, inputAt := max x.inputAt (vtTicks u) }) u ∧
      work? w.k v = some { w with lost := g :: w.lost, inputAt := max w.inputAt (vtTicks u) } ∧ t = showGroups w.k g (countMissing g v)) ∧
  (∀ (g : Nat) (v : State), rd (O.BAL_LINK_ARM g) v ≤ 5 → rd (O.BAL_HEAD (rd (O.BAL_LINK_ARM g) v)) v = 1 → 2 ≤ (slotGroups (rd (O.BAL_LINK_ARM g) v) v).length →
    OnlyObjs [O.BAL_GROUP_MISSING (rd (O.BAL_LINK_ARM g) v)] v (countMissing g v) ∧
    rd (O.BAL_GROUP_MISSING (rd (O.BAL_LINK_ARM g) v)) (countMissing g v) = satU 32 (rd (O.BAL_GROUP_MISSING (rd (O.BAL_LINK_ARM g) v)) v + 1)) ∧
  (∀ (g : Nat) (v : State), 5 < rd (O.BAL_LINK_ARM g) v ∨ rd (O.BAL_HEAD (rd (O.BAL_LINK_ARM g) v)) v ≠ 1 ∨
    (slotGroups (rd (O.BAL_LINK_ARM g) v) v).length < 2 → countMissing g v = v) ∧
  (∀ (link : Nat) (s : State), isNode s = false ∨ groupLink link s = none ∨
    (∃ g, groupLink link s = some g ∧ oldest (fun w => (aget w.sums g).isNone && !w.lost.contains g) s = none) →
    exec (.groupSummaryDeadline link) s = .next s))

/-- A cell decides as its node selects: on a counted report the cell compares the very key that the node computed from it, inserts, carves or bypasses by it, and it bypasses where it holds no report, where the report was not countable, where a negative insertion meets a half-bridge and where EXCLUDE names it. Accepting a command holds it with that decision, and takes from it the claim, the wear reference and gain and the slalom state of the next period; the stream obeyed is shown, and counted where it changes. -/
def Obligations.CellDecidesAsItsNode : Prop :=
  (∀ (k : Nat) (c : Command) (s : State) (r : Report), aget s.cell.reps k = some r → r.avail = true → r.maskOk = true →
    bit c.exclude (rd O.TREE_CELL_INDEX s % 16) = false → (c.pol = true → r.fb = true) →
    ∃ key, keysOf [(rd O.TREE_CELL_INDEX s, r)] c.pol c.dir c.stick (maskOf (cellSlalom k s)) = [key] ∧
      (c.kTh ≠ 0xFFFFFFFF → key ≤ c.kTh → decide60 k c s = .insert c.pol) ∧
      (c.kTh = 0xFFFFFFFF ∨ c.kTh < key → c.carveEn = true → key = c.kCarve → decide60 k c s = .carve c.pol c.tCarve) ∧
      (c.kTh = 0xFFFFFFFF ∨ c.kTh < key → c.carveEn = false ∨ key ≠ c.kCarve → decide60 k c s = .bypass)) ∧
  (∀ (k : Nat) (c : Command) (s : State),
    aget s.cell.reps k = none ∨ (∃ r, aget s.cell.reps k = some r ∧ (r.countable = false ∨ (c.pol = true ∧ r.fb = false))) ∨
      bit c.exclude (rd O.TREE_CELL_INDEX s % 16) = true → decide60 k c s = .bypass) ∧
  (∀ (k : Nat) (b : Bool) (c : Command) (s : State), s.cell.noDeblock = none →
    (acceptCmd k b c s).cell.cmds = s.cell.cmds ++ [{ k := k, cmd := c, dec := decide60 k c s, streamB := b }] ∧
    (acceptCmd k b c s).cell.claimSeen = c.claim ∧ (acceptCmd k b c s).cell.wearRef = c.wearRef ∧ (acceptCmd k b c s).cell.wearGain = c.wearGain ∧
    cellSlalom (k + 1) (acceptCmd k b c s) = c.slalomNext ∧ rd O.RED_OBEYED (acceptCmd k b c s) = b2n b ∧
    rd O.RED_STREAM_CHANGES (acceptCmd k b c s) = (if s.cell.lastStream = some (!b) then satU 32 (rd O.RED_STREAM_CHANGES s + 1) else rd O.RED_STREAM_CHANGES s) ∧
    SameObjs [O.RED_OBEYED, O.RED_STREAM_CHANGES] s (acceptCmd k b c s))

/-- Commands at a cell. A frame that fails R85 is counted rejected. One that matches is seen on its stream; too late, it does no more; in time it is a candidate, and unless its period's command is held already the best candidate of the period, by claim and then by the side strap, is accepted where its claim is valid and no less than those in force. At the acceptance instant of a period whose command is held the run of late periods ends; without it, in ACTIVE or HELD, the period is late, counted as outranked where a candidate stood, and the third in a row is a fault that, with CEL_HELD_TIME not 0, holds the cell with its outputs as they are; in other states it is not late. A device in node role does nothing. The schedule of a period at a cell. The report goes out 250 ns after the P-mark on U0 to side A and on U1 to side B. The earliest command held runs at its execute time: the gate engine runs up to it, its order is taken, DEBLOCK enters ACTIVE from READY and HELD and sets what the next report says of the decision, an insertion decided outside ACTIVE is a shortfall, no DEBLOCK leads from ACTIVE and HELD to READY, and then an order to block or to bypass acts. An order counts once for each tag and claim. The end of a carve and the next gate edge run the gate engine up to their instant. Each does nothing where nothing is armed, and the report also at a node. -/
def Obligations.CellTakesAndRunsCommands : Prop :=
  ((∀ (crc b : Bool) (c : Command) (s : State), isCell s = true → crc = false ∨ cmdMatches (fullK c.period (gatesNow s)) c (gatesNow s) = false →
    exec (.commandRx crc b c) s = .next (bump O.CEL_CMD_REJECT (gatesNow s))) ∧
  (∀ (b : Bool) (c : Command) (s : State), isCell s = true → cmdMatches (fullK c.period (gatesNow s)) c (gatesNow s) = true →
    ∃ t u v w k, exec (.commandRx true b c) s = .next t ∧ u = gatesNow s ∧ k = fullK c.period u ∧
      v = { u with objs := v.objs, cell := { u.cell with seenA := v.cell.seenA, seenB := v.cell.seenB } } ∧ SameObjs [O.RED_CELL_CLAIM_A, O.RED_CELL_CLAIM_B] u v ∧
      (if b then v.cell.seenA = u.cell.seenA else v.cell.seenB = u.cell.seenB) ∧
      ((if b then v.cell.seenB else v.cell.seenA) = some ⟨c.claim, k⟩ ∨
        ∃ e, (if b then u.cell.seenB else u.cell.seenA) = some e ∧ k < e.period ∧ (if b then v.cell.seenB else v.cell.seenA) = some e) ∧
      w = { v with cell := { v.cell with cands := { k := k, streamB := b, cmd := c } :: v.cell.cands.filter fun a => !(a.k == k && a.streamB == b) } } ∧
      (eOf k u - gOf k u ≤ vtTicks u → t = v) ∧
      (vtTicks u < eOf k u - gOf k u → (∃ a ∈ u.cell.cmds, a.k = k) → t = w) ∧
      (vtTicks u < eOf k u - gOf k u → (∀ a ∈ u.cell.cmds, a.k ≠ k) →
        ∃ x ∈ w.cell.cands, x.k = k ∧ (∀ y ∈ w.cell.cands, y.k = k → rankOf y.cmd.claim y.streamB w ≤ rankOf x.cmd.claim x.streamB w) ∧
          t = if x.cmd.claim / 4096 ≠ 0 ∧ floorOf k w ≤ rankOf x.cmd.claim x.streamB w then acceptCmd k x.streamB x.cmd w else w)) ∧
  (∀ (crc b : Bool) (c : Command) (s : State), isCell s = false → exec (.commandRx crc b c) s = .next s) ∧
  (∀ (k : Nat) (s : State), isCell s = true → ∃ t u, exec (.acceptanceInstant k) s = .next t ∧ u = gatesNow (advVt (eOf k s - gOf k s) s) ∧
    ((∃ a ∈ u.cell.cmds, a.k = k) → t = { u with objs := t.objs, cell := { u.cell with cands := u.cell.cands.filter fun a => k < a.k, lateLast := false } } ∧
      rd O.CEL_LATE_CONSEC t = 0 ∧ SameObjs [O.CEL_LATE_CONSEC] u t) ∧
    ((∀ a ∈ u.cell.cmds, a.k ≠ k) → celLive u = false →
      t = { u with cell := { u.cell with cands := u.cell.cands.filter fun a => k < a.k, lateLast := false } }) ∧
    ((∀ a ∈ u.cell.cmds, a.k ≠ k) → celLive u = true → ∃ v, rd O.CEL_LATE_CONSEC v = min 3 (rd O.CEL_LATE_CONSEC u + 1) ∧
      rd O.CEL_LATE_PERIODS v = satU 32 (rd O.CEL_LATE_PERIODS u + 1) ∧
      rd O.RED_OUTRANKED v = (if u.cell.cands.any fun a => a.k == k then satU 32 (rd O.RED_OUTRANKED u + 1) else rd O.RED_OUTRANKED u) ∧
      SameObjs [O.CEL_LATE_CONSEC, O.CEL_LATE_PERIODS, O.RED_OUTRANKED] u v ∧
      v = { u with objs := v.objs, cell := { u.cell with cands := u.cell.cands.filter fun a => k < a.k, lateLast := true,
                                                         lateCount := satU 16 (u.cell.lateCount + 1) } } ∧
      t = if rd O.CEL_LATE_CONSEC u = 2 then readyEval (celFaults [(9, false)] v) else v)) ∧
  (∀ (k : Nat) (s : State), isCell s = false → exec (.acceptanceInstant k) s = .next s) ∧
  (∀ (s : State), celState s = 4 → rd O.CEL_HELD_TIME s ≠ 0 →
    celState (celReact [9] s) = 5 ∧ (celReact [9] s).cell.legA = s.cell.legA ∧ (celReact [9] s).cell.legB = s.cell.legB ∧
      (celReact [9] s).cell.changes = s.cell.changes ∧ (celReact [9] s).cell.heldTick = some s.tick ∧
      rd O.CEL_HELD_ENTRIES (celReact [9] s) = satU 32 (rd O.CEL_HELD_ENTRIES s + 1))) ∧
  ((∀ (s : State) (r : Report), isCell s = true → aget s.cell.reps (kNow s) = some r → ∃ t u h, exec .cellReportLaunch s = .next t ∧
    u = advVt (pOf (kNow s) s + 100) s ∧ h = mkHdr 3 0 false (nodeAddr (nodeNum s)) false true false u ∧
    t = sendOn laneU1 { hdr := { h.1 with dstSide := true }, len := (Pay.report r).len, pay := .report r }
      (sendOn laneU0 { hdr := { h.1 with dstSide := false }, len := (Pay.report r).len, pay := .report r } h.2)) ∧
  (∀ s : State, isCell s = false ∨ aget s.cell.reps (kNow s) = none → exec .cellReportLaunch s = .next s) ∧
  (∀ (s : State), s.cell.cmds ≠ [] → ∃ t a u v w x, exec .commandExecute s = .next t ∧ a ∈ s.cell.cmds ∧ (∀ b ∈ s.cell.cmds, a.k ≤ b.k) ∧
    u = ranAt (eOf a.k s) (gatesTo 64 (eOf a.k s) (advVt (eOf a.k s) s)) ∧ v = { u with cell := { u.cell with cmds := u.cell.cmds.filter (· != a) } } ∧
    w = (if (orderOf a.cmd v).1 = 1 then celClear (orderOf a.cmd v).2 else (orderOf a.cmd v).2) ∧
    (a.cmd.deblock = true → celState v = 3 ∨ celState v = 5 ∨ celState w = 4 → ∃ p, p = (if celState v = 3 ∨ celState v = 5 then celGo 4 w else w) ∧ celState p = 4 ∧
      ((p.cell.ov1 = false ∨ p.cell.planned = bypTerm p → x = { p with cell := { p.cell with insPrev := a.dec.insPrev, carvePrev := a.dec.isCarve } }) ∧
       (p.cell.ov1 = true → p.cell.planned ≠ bypTerm p → ∃ q, q = { p with cell := { p.cell with insPrev := a.dec.insPrev, carvePrev := a.dec.isCarve } } ∧
          x = countSw (bypTerm q) (forceTo (bypTerm q) q)))) ∧
    (a.cmd.deblock = true → celState v ≠ 3 → celState v ≠ 5 → celState w ≠ 4 →
      x = { w with cell := { w.cell with shortfall := w.cell.shortfall || a.dec.inserts } }) ∧
    (a.cmd.deblock = false → celState v = 4 ∨ celState v = 5 → x = readyEval (celGo 3 w)) ∧
    (a.cmd.deblock = false → celState v ≠ 4 → celState v ≠ 5 → x = w) ∧
    ((orderOf a.cmd v).1 = 2 → t = readyEval (celFaults [(15, false)] x)) ∧
    ((orderOf a.cmd v).1 = 3 → t = if celState x = 1 then x else bypStart x) ∧
    ((orderOf a.cmd v).1 ≠ 2 → (orderOf a.cmd v).1 ≠ 3 → t = x)) ∧
  (∀ (c : Command) (s : State) (o : Nat), o = c.orders.getD (rd O.TREE_CELL_INDEX s % 16) 0 →
    (o / 16 = 0 ∨ s.cell.lastOrder = some (o % 16, c.claim) → orderOf c s = (0, s)) ∧
    (o / 16 ≠ 0 → s.cell.lastOrder ≠ some (o % 16, c.claim) → orderOf c s = (o / 16, { s with cell := { s.cell with lastOrder := some (o % 16, c.claim) } }))) ∧
  (∀ s : State, s.cell.cmds = [] → exec .commandExecute s = .next s) ∧
  (∀ (s : State) (c : Change), s.cell.changes.find? (fun c => c.carveEnd) = some c →
    exec .carveEnd s = .next (ranAt c.t (gatesTo 64 c.t (advVt c.t s)))) ∧
  (∀ s : State, s.cell.changes.find? (fun c => c.carveEnd) = none → exec .carveEnd s = .next s) ∧
  (∀ (s : State) (t : Nat), nextGate s = some t → exec .gateEdge s = .next (gatesTo 64 t (advVt t s))) ∧
  (∀ s : State, nextGate s = none → exec .gateEdge s = .next s))

/-- The gate engine: the outputs that each terminal state drives, a turn-on edge no sooner than 100 ns after the turn-off of its leg's other output and counted where it is delayed, a forced change, after which each leg is off or drives the pattern, all outputs low with nothing scheduled, and no bypass pattern exactly where every pair of switches holds a latched desaturation. -/
def Obligations.GateEngine : Prop :=
  (legsOf false .insPos = (.upper, .off) ∧ legsOf true .insPos = (.upper, .lower) ∧ legsOf true .insNeg = (.lower, .upper) ∧
    legsOf false .bypLower = (.lower, .off) ∧ legsOf true .bypLower = (.lower, .lower) ∧ legsOf true .bypUpper = (.upper, .upper) ∧
    ∀ fb, legsOf fb .block = (.off, .off)) ∧
  (∀ (o t : Nat) (s : State), lastOff (if o % 2 = 0 then o + 1 else o - 1) s ≠ 0 →
    ∃ e, (addOn o t s).cell.edges = insEdge e s.cell.edges ∧ e.out = o ∧ e.on = true ∧ t ≤ e.t ∧
      lastOff (if o % 2 = 0 then o + 1 else o - 1) s + 40 ≤ e.t ∧
      rd O.CEL_INTERLOCK (addOn o t s) = (if t < e.t then satU 32 (rd O.CEL_INTERLOCK s + 1) else rd O.CEL_INTERLOCK s)) ∧
  (∀ (x : Terminal) (s : State), (forceTo x s).cell.planned = x ∧
    ((forceTo x s).cell.legA = .off ∨ (forceTo x s).cell.legA = (legsOf (fullBridge s) x).1) ∧
    ((forceTo x s).cell.legB = .off ∨ (forceTo x s).cell.legB = (legsOf (fullBridge s) x).2)) ∧
  (∀ s : State, (allLow s).cell.legA = .off ∧ (allLow s).cell.legB = .off ∧ (allLow s).cell.edges = [] ∧ OnlyObjs [] s { allLow s with cell := s.cell }) ∧
  (∀ s : State, bypPattern s = none ↔ (fullBridge s = false ∧ dsatLatched 1 s = true) ∨
    (fullBridge s = true ∧ (dsatLatched 1 s = true ∨ dsatLatched 3 s = true) ∧ (dsatLatched 0 s = true ∨ dsatLatched 2 s = true)))

/-- Protection of a cell. CEL_ORDER at a node outside ROM service mode queues an order 1 to 3 for a cell under the next tag, in place of one it has waiting, and answers RANGE for another code. CEL_CLEAR at a cell clears every latched fault whose cause is gone. Housekeeping shows its samples, takes the contacts as R101 has them, runs the thermal-cycle tracker, saves the counter record where VAUX falls below its warning, and latches VAUX and OVERTEMP. A first-level overvoltage latches, and in ACTIVE and HELD bypasses at once; its release ends both overvoltage causes. A second-level one starts the bypass. A desaturation counts, latches and turns all outputs off, discards what is scheduled, and reacts; in BYPASSED it only drives what pattern is left. The three protections do nothing in OFF, and none acts at a node. -/
def Obligations.CellProtection : Prop :=
  (∀ (v : Nat) (s : State), rd O.SYS_RECOVERY s = 0 → isNode s = true → 1 ≤ fld v 19 16 → fld v 19 16 ≤ 3 → v < 2 ^ 32 →
    exec (.celOrder v) s = .next (answer stOk [] { s with bal := { s.bal with
      tag := if s.bal.tag ≥ 15 then 1 else s.bal.tag + 1,
      orders := { idx := fld v 9 0, code := fld v 19 16, tag := if s.bal.tag ≥ 15 then 1 else s.bal.tag + 1, left := rd O.CEL_ORDER_REPEAT s } ::
        s.bal.orders.filter fun x => x.idx != fld v 9 0 } })) ∧
  (∀ (v : Nat) (s : State), rd O.SYS_RECOVERY s = 0 → isNode s = true → fld v 19 16 = 0 ∨ 3 < fld v 19 16 → exec (.celOrder v) s = .next (refusedState stRange s)) ∧
  (∀ (v : Nat) (s : State), isNode s = false → exec (.celOrder v) s = .next (refusedState stBlockOff s)) ∧
  (∀ s : State, rd O.SYS_RECOVERY s = 0 → isCell s = true → exec .celClear s = .next (answer stOk [] (celClear s))) ∧
  (∀ s : State, celClear s = readyEval (updFaultN (wr O.CEL_FAULT_LATCHED (Nat.land (rd O.CEL_FAULT_LATCHED s) (rd O.CEL_FAULT_LIVE s) % 2 ^ 32) s))) ∧
  (∀ (tDie tBoard vAux aux : Nat) (s : State), isCell s = true → tDie < 65536 → tBoard < 65536 → vAux < 65536 →
    ∃ t u v w x y z, exec (.housekeepingSample tDie tBoard vAux aux) s = .next t ∧ u = gatesNow s ∧ OnlyObjs [O.CEL_T_DIE, O.CEL_T_BOARD, O.CEL_VAUX] u v ∧
      rd O.CEL_T_DIE v = tDie ∧ rd O.CEL_T_BOARD v = tBoard ∧ rd O.CEL_VAUX v = vAux ∧
      w = (if low 2 aux = 1 ∨ celState v = 6 then setAux aux v else bypUncmd aux v) ∧
      x = tcSample (toI 16 (if rd O.CEL_TC_SOURCE w = 1 then tBoard else tDie)) w ∧
      y = (if vAux < rd O.CEL_VAUX_WARN u ∧ rd O.CEL_VAUX_WARN u ≤ rd O.CEL_VAUX u then saveRecord x else x) ∧
      z = causeIs 14 (decide (rdI 16 O.CEL_T_MAX y - 80 < max (toI 16 tDie) (toI 16 tBoard))) (causeIs 8 (decide (vAux < rd O.CEL_VAUX_MIN y)) y) ∧
      t = readyEval (celFaults ((if vAux < rd O.CEL_VAUX_MIN y ∧ rdBit O.CEL_FAULT_LATCHED 8 z = false then [(8, true)] else []) ++
        (if rdI 16 O.CEL_T_MAX y < max (toI 16 tDie) (toI 16 tBoard) ∧ rdBit O.CEL_FAULT_LATCHED 14 z = false then [(14, true)] else [])) z)) ∧
  (∀ s : State, isCell s = true → celState s ≠ 0 → s.cell.ov1 = false → ∃ t v, exec .ov1Crossing s = .next t ∧
    v = latchFault 0 true (updCell (fun c => { c with ov1 := true, ov1Count := low 8 (c.ov1Count + 1) }) (bump O.CEL_OV1_EVENTS (gatesNow s))) ∧
    (celLive v = false → t = readyEval v) ∧
    (celLive v = true → ∃ u, u = { v with cell := { v.cell with suppressed := v.cell.suppressed || v.cell.planned.inserts } } ∧
      t = countSw (bypTerm u) (forceTo (bypTerm u) u))) ∧
  (∀ s : State, isCell s = true → exec .ov1Release s = .next (endFault 1 (endFault 0 (updCell (fun c => { c with ov1 := false }) (gatesNow s))))) ∧
  (∀ s : State, isCell s = true → celState s ≠ 0 → exec .ov2Fault s = .next (celReact [1] (latchFault 1 true (gatesNow s)))) ∧
  (∀ s : State, celState s ≠ 6 → celState (celReact [1] s) = 6 ∧ (celReact [1] s).cell.coil = true ∧ (celReact [1] s).cell.byp = .pulsing ∧
    (celReact [1] s).cell.changes = [] ∧ rd O.CEL_BYP_ATTEMPTS (celReact [1] s) = satU 8 (rd O.CEL_BYP_ATTEMPTS s + 1)) ∧
  (∀ (o : Nat) (s : State), isCell s = true → celState s ≠ 0 → ∃ t u, exec (.dsatFault o) s = .next t ∧ u = gatesTo 64 (vtTicks s - 1) s ∧
    (highInTick o u = false ∨ vtTicks u < u.cell.onAt.getD o 0 + rd O.CEL_DSAT_BLANK u + rd O.CEL_DSAT_FILTER u → t = u) ∧
    (highInTick o u = true → u.cell.onAt.getD o 0 + rd O.CEL_DSAT_BLANK u + rd O.CEL_DSAT_FILTER u ≤ vtTicks u → ∃ v,
      v = allLow (latchFault (2 + o) true (updCell (fun c => { c with dsatCount := low 8 (c.dsatCount + 1), changes := [] }) (bump O.CEL_DSAT_EVENTS u))) ∧
      (celState v ≠ 6 → t = readyEval (celReact [2 + o] v)) ∧ (celState v = 6 → t = if v.cell.semi then driveBypass v else v))) ∧
  (∀ s : State, isCell s = true → celState s = 0 ∨ s.cell.ov1 = true → exec .ov1Crossing s = .next s) ∧
  (∀ (o : Nat) (s : State), isCell s = true → celState s = 0 → exec .ov2Fault s = .next s ∧ exec (.dsatFault o) s = .next s) ∧
  (∀ (o tDie tBoard vAux aux : Nat) (s : State), isCell s = false → exec .ov1Crossing s = .next s ∧ exec .ov1Release s = .next s ∧ exec .ov2Fault s = .next s ∧
    exec (.dsatFault o) s = .next s ∧ exec (.housekeepingSample tDie tBoard vAux aux) s = .next s ∧ exec .celClear s = .next (refusedState stBlockOff s))

/-- The bypass switch. The coil pulse ends, and a further one that waits for it starts. The contacts confirm within a window, and the 10 ms hold begins; at the end of a window they confirm, or a further pulse is tried, at once or at the pulse's end, or with CEL_BYP_RETRY tries used the sequence has failed, with fault 11 where the switch shows open; contacts that contradict latch fault 12. At the end of the hold all outputs are low and the sequence is complete. A switch found closed outside the sequence is shown: in BYPASSED that is all, in OFF and BOOT the cell enters BYPASSED with nothing driven, otherwise it latches fault 13, enters BYPASSED and drives the bypass pattern. CEL_HELD_TIME after the entry to HELD the cell leaves it for BLOCKED with fault 10. Each does nothing where it does not apply. -/
def Obligations.BypassSequence : Prop :=
  (∀ (s : State) (t : Nat), s.cell.pulseEnd = some t → ∃ u v, exec .bypPulseEnd s = .next v ∧
    u = updCell (fun c => { c with coil := false, pulseEnd := none }) (gatesNow (advTo t s)) ∧
    v = if u.cell.byp = .pulsing ∧ u.cell.windowEnd = none then coilPulse u else u) ∧
  (∀ s : State, s.cell.pulseEnd = none → exec .bypPulseEnd s = .next s) ∧
  (∀ s : State, s.cell.byp = .pulsing → s.cell.windowEnd.isSome = true → ∃ t v, exec .bypConfirm s = .next t ∧ v = setAux 2 (gatesNow s) ∧
    t = { v with cell := { v.cell with byp := .confirmed, windowEnd := none, holdEnd := some (s.tick + ms 10) } }) ∧
  (∀ s : State, s.cell.byp ≠ .pulsing ∨ s.cell.windowEnd = none → exec .bypConfirm s = .next s) ∧
  (∀ (aux : Nat) (s : State) (t : Nat), s.cell.windowEnd = some t → ∃ x u v w, exec (.bypConfirmWindowEnd aux) s = .next x ∧
    u = setAux aux (gatesNow (advTo t s)) ∧ v = { u with cell := { u.cell with windowEnd := none } } ∧
    w = (if low 2 aux = 0 ∨ low 2 aux = 3 then latchFault 12 true v else v) ∧
    (low 2 aux = 2 → x = { u with cell := { u.cell with byp := .confirmed, windowEnd := none, holdEnd := some (t + ms 10) } }) ∧
    (low 2 aux ≠ 2 → w.cell.tries < rd O.CEL_BYP_RETRY w → x = if w.cell.coil then { w with cell := { w.cell with tries := w.cell.tries + 1 } }
      else coilPulse { w with cell := { w.cell with tries := w.cell.tries + 1 } }) ∧
    (low 2 aux ≠ 2 → rd O.CEL_BYP_RETRY w ≤ w.cell.tries → x = if low 2 aux = 1 then latchFault 11 true { w with cell := { w.cell with byp := .failed } }
      else { w with cell := { w.cell with byp := .failed } })) ∧
  (∀ (aux : Nat) (s : State), s.cell.windowEnd = none → exec (.bypConfirmWindowEnd aux) s = .next s) ∧
  (∀ (s : State) (t : Nat), s.cell.holdEnd = some t → exec .bypHoldEnd s =
    .next (updCell (fun c => { c with byp := .complete, semi := false, holdEnd := none }) (allLow (gatesNow (advTo t s))))) ∧
  (∀ s : State, s.cell.holdEnd = none → exec .bypHoldEnd s = .next s) ∧
  (∀ (aux : Nat) (s : State), isCell s = true → low 2 aux ≠ 1 →
    (2 ≤ celState s → celState s ≠ 6 → exec (.bypUncmd aux) s =
      .next (driveBypass (celGo 6 (updCell (fun c => { c with changes := [] }) (latchFault 13 true (setAux aux (gatesNow s))))))) ∧
    (celState s = 6 → exec (.bypUncmd aux) s = .next (setAux aux s)) ∧
    (celState s ≤ 1 → exec (.bypUncmd aux) s = .next (updCell (fun c => { c with byp := .closedAtStart }) (celGo 6 (setAux aux s))))) ∧
  (∀ (aux : Nat) (s : State), isCell s = false ∨ low 2 aux = 1 → exec (.bypUncmd aux) s = .next s) ∧
  (∀ (s : State) (t : Nat), s.cell.heldTick = some t → ∃ u v, exec .heldTimeout s = .next v ∧ u = gatesNow (advTo (t + us (rd O.CEL_HELD_TIME s)) s) ∧
    v = if celState u = 5 then celBlock (latchFault 10 false u) else u) ∧
  (∀ s : State, s.cell.heldTick = none → exec .heldTimeout s = .next s) ∧
  (∀ s : State, celState s = 5 → celState (celBlock s) = 2)

/-- LAW_CMD, LAW_BANK_REQ and LAW_TRC_CMD at a node outside ROM service mode. VALIDATE runs the checks and shows their result. START waits for the next P-mark where the engine is stopped, the graph is loaded and the active bank sealed; STOP where the engine has failed or no arm is deblocked; SEAL of a bank that is not active and holds a valid schedule computes its CRC and seals it; CLEAR_ERR clears LAW_ELEM_ERR; a swap request to the other bank, sealed, in RUNNING, HOLD or a recovered FALLBACK, is held for the next period in place of one of the same interval. Otherwise they answer STATE and change nothing. ARM and STOP of the trace unit set its state and clear its capture, FORCE triggers an armed one and is otherwise counted as ignored. At a cell all answer BLOCK_OFF. An evaluation starts at the law start of the oldest waiting period, after the arms' counts at the apex and the leader's image, where none is in flight, and the one in flight commits exactly w_law after it started. A start counts itself and the words the memory corrected. An engine that is stopped or failed evaluates nothing; otherwise the input stage comes first, then the swap that is due, the supervisor, and, where the engine still evaluates, the graph. At the commit an idle period builds references without a law value; an evaluation that is lost or took more than LAW_WCET is abandoned and counted, its states as they were; any other commits its signals, states and counts, then its outputs, the references, the caddy capture and the trace, and fires event 18. -/
def Obligations.LawCommandsAndCommit : Prop :=
  ((∀ s : State, rd O.SYS_RECOVERY s = 0 → isNode s = true → exec .lawCmdValidate s = .next (answer stOk [] (lawValidate s)) ∧
    (rd O.LAW_STATE s = 0 → rd O.LAW_LOAD_STATUS s = 1 → bankSealed (rd O.LAW_ACTIVE_BANK s) s = true →
      exec .lawCmdStart s = .next (answer stOk [] { s with law := { s.law with pendCmd := 1 } })) ∧
    (rd O.LAW_STATE s ≠ 0 ∨ rd O.LAW_LOAD_STATUS s ≠ 1 ∨ bankSealed (rd O.LAW_ACTIVE_BANK s) s = false →
      exec .lawCmdStart s = .next (refusedState stState s)) ∧
    (rd O.LAW_STATE s = 4 ∨ anyDeblocked s = false → exec .lawCmdStop s = .next (answer stOk [] { s with law := { s.law with pendCmd := 2 } })) ∧
    (rd O.LAW_STATE s ≠ 4 → anyDeblocked s = true → exec .lawCmdStop s = .next (refusedState stState s)) ∧
    (∃ t, exec .lawCmdClearErr s = .next t ∧ Wrote [O.LAW_ELEM_ERR] s t ∧ rd O.LAW_ELEM_ERR t = 0)) ∧
  (∀ s : State, rd O.SYS_RECOVERY s = 0 → isNode s = true → sealRefused 0 s = false → ∃ t, exec .lawCmdSeal0 s = .next t ∧ Wrote [O.LAW_BANK_STATUS, O.LAW_BANK_CRC0] s t ∧
    rd O.LAW_BANK_CRC0 t = crc32 (bankBytes 0 s) ∧ bankSealed 0 t = true ∧ bankSealed 1 t = bankSealed 1 s) ∧
  (∀ s : State, rd O.SYS_RECOVERY s = 0 → isNode s = true → sealRefused 1 s = false → ∃ t, exec .lawCmdSeal1 s = .next t ∧ Wrote [O.LAW_BANK_STATUS, O.LAW_BANK_CRC1] s t ∧
    rd O.LAW_BANK_CRC1 t = crc32 (bankBytes 1 s) ∧ bankSealed 1 t = true ∧ bankSealed 0 t = bankSealed 0 s) ∧
  (∀ s : State, rd O.SYS_RECOVERY s = 0 → isNode s = true → (sealRefused 0 s = true → exec .lawCmdSeal0 s = .next (refusedState stState s)) ∧
    (sealRefused 1 s = true → exec .lawCmdSeal1 s = .next (refusedState stState s))) ∧
  (∀ (v : Nat) (s : State), rd O.SYS_RECOVERY s = 0 → isNode s = true → v < 256 →
    (v % 2 ≠ rd O.LAW_ACTIVE_BANK s → bankSealed (v % 2) s = true → rd O.LAW_STATE s = 1 ∨ rd O.LAW_STATE s = 2 ∨
        (rd O.LAW_STATE s = 3 ∧ rd O.LAW_LOSS_RECOVER s ≤ rd O.LAW_GOOD_COUNT s) →
      exec (.lawBankReq v) s = .next (answer stOk [] { s with law := { s.law with
        swap := (s.law.swap.filter fun q => q.2.2 != kNow s + 1) ++ [(v % 2, bit v 4, kNow s + 1)] } })) ∧
    (v % 2 = rd O.LAW_ACTIVE_BANK s ∨ bankSealed (v % 2) s = false ∨ rd O.LAW_STATE s = 0 ∨ rd O.LAW_STATE s = 4 ∨
        (rd O.LAW_STATE s = 3 ∧ rd O.LAW_GOOD_COUNT s < rd O.LAW_LOSS_RECOVER s) →
      exec (.lawBankReq v) s = .next (refusedState stState s))) ∧
  (∀ s : State, rd O.SYS_RECOVERY s = 0 → isNode s = true →
    (∃ t, exec .lawTrcArm s = .next t ∧ rd O.LAW_TRC_STATE t = 1 ∧ SameObjs [O.LAW_TRC_STATE] s t ∧ t.resp = [stOk] ∧ t.law.trc = TrcSt.init ∧
      t = { s with objs := t.objs, law := t.law, resp := t.resp }) ∧
    (∃ t, exec .lawTrcStop s = .next t ∧ rd O.LAW_TRC_STATE t = 0 ∧ SameObjs [O.LAW_TRC_STATE] s t ∧ t.mem = s.mem ∧ t.resp = [stOk] ∧ t.law.trc = TrcSt.init) ∧
    (rd O.LAW_TRC_STATE s = 1 → ∃ t, exec .lawTrcForce s = .next t ∧ rd O.LAW_TRC_STATE t = 2 ∧ t.law.trc.trig = true ∧ SameObjs [O.LAW_TRC_STATE] s t) ∧
    (rd O.LAW_TRC_STATE s ≠ 1 → ∃ t, exec .lawTrcForce s = .next t ∧ Wrote [O.LAW_TRC_TRIG_IGNORED] s t ∧
      rd O.LAW_TRC_TRIG_IGNORED t = satU 32 (rd O.LAW_TRC_TRIG_IGNORED s + 1))) ∧
  (∀ (v : Nat) (s : State), isCell s = true → exec .lawCmdValidate s = .next (refusedState stBlockOff s) ∧ exec .lawCmdStart s = .next (refusedState stBlockOff s) ∧
    exec .lawCmdStop s = .next (refusedState stBlockOff s) ∧ exec .lawCmdSeal0 s = .next (refusedState stBlockOff s) ∧
    exec .lawCmdSeal1 s = .next (refusedState stBlockOff s) ∧ exec .lawCmdClearErr s = .next (refusedState stBlockOff s) ∧
    exec (.lawBankReq v) s = .next (refusedState stBlockOff s) ∧ exec .lawTrcArm s = .next (refusedState stBlockOff s) ∧
    exec .lawTrcForce s = .next (refusedState stBlockOff s) ∧ exec .lawTrcStop s = .next (refusedState stBlockOff s))) ∧
  ((∀ (s : State) (w : LawWait) (l : List LawWait) (fails : List Nat) (n : Nat) (ecc : Bool), isNode s = true → s.law.waits = w :: l → s.law.eval = none →
    ∃ t u v, exec (.lawEvalStart fails n ecc) s = .next t ∧ u = updLaw (fun x => { x with waits := l }) (advVt (pOf w.k s + lawOffset w.k s) s) ∧
      t = lawStart w fails n ecc (caddyApply w.k v) ∧
      (isApex s = false ∨ work? w.k u = none → v = u) ∧ (∀ x, isApex s = true → work? w.k u = some x → v = fillArms x u)) ∧
  (∀ (s : State) (fails : List Nat) (n : Nat) (ecc : Bool), isNode s = false ∨ s.law.waits = [] ∨ s.law.eval.isSome = true →
    exec (.lawEvalStart fails n ecc) s = .next s) ∧
  (∀ (w : LawWait) (fails : List Nat) (n : Nat) (ecc : Bool) (s : State), ∃ u, SameObjs [O.SYS_ECC_CORR, O.SYS_ECC_UNCORR] s u ∧
    u = { s with objs := u.objs, law := { s.law with starts := s.law.starts + 1 } } ∧
    rd O.SYS_ECC_CORR u = satU 32 (rd O.SYS_ECC_CORR s + n) ∧ rd O.SYS_ECC_UNCORR u = (if ecc then satU 32 (rd O.SYS_ECC_UNCORR s + 1) else rd O.SYS_ECC_UNCORR s) ∧
    (rd O.LAW_STATE s ≠ 1 → rd O.LAW_STATE s ≠ 2 → rd O.LAW_STATE s ≠ 3 →
      lawStart w fails n ecc s = { u with law := { u.law with eval := some (LawEval.none_ w.k (vtTicks s)) } }) ∧
    (rd O.LAW_STATE s = 1 ∨ rd O.LAW_STATE s = 2 ∨ rd O.LAW_STATE s = 3 → ∃ r x y f g, r = inputStage (w.fill u) u ∧
      (swapDue w.k r.2 = none → x = r.2) ∧
      (∀ b p, swapDue w.k r.2 = some (b, p) → ∃ z, z = { r.2 with law := { r.2.law with swap := r.2.law.swap.filter fun q => w.k < q.2.2 } } ∧
        x = if b = rd O.LAW_ACTIVE_BANK z then z else swapTo b p z) ∧
      y = supervise r.1.bad (swapDue w.k r.2).isSome x ∧
      (evaluates y = false → lawStart w fails n ecc s = { y with law := { y.law with eval := some (LawEval.none_ w.k (vtTicks s)) } }) ∧
      (evaluates y = true → f = residueFailures w.k fails y ∧
        g = evalGraph w.k (vtTicks s) (f.1 + 2 * n) (ecc || (f.1 != 0 && (classMap 1 y).spares.isEmpty)) r.1 f.2 ∧
        lawStart w fails n ecc s = { g.2 with law := { g.2.law with eval := some g.1 } }))) ∧
  (∀ (s : State) (v : LawEval), s.law.eval = some v → ∃ t u, exec .lawCommit s = .next t ∧ u = advVt (v.start + rd O.LAW_WCET s) s ∧ t = lawCommit v u) ∧
  (∀ s : State, s.law.eval = none → exec .lawCommit s = .next s) ∧
  (∀ (v : LawEval) (s : State), ∃ u, u = { s with law := { s.law with eval := none } } ∧
    (v.idle = true → lawCommit v s = buildReferences v.k [] u) ∧
    (v.idle = false → v.lost = true ∨ rd O.LAW_WCET s < v.cycles → lawCommit v s = lawAbandon v.k u) ∧
    (v.idle = false → v.lost = false → v.cycles ≤ rd O.LAW_WCET s → ∃ outs x y z, outs = (outBinds (commitResults v u)).map (fun b => (b.1, b.2.1, sigVal b.2.2 (commitResults v u))) ∧
      x = each outs putOutput (commitResults v u) ∧
      y = updRed (fun r => { r with dLaw := byPeriod v.k (if (outs.flatMap fun o => beBytes 4 o.2.2).isEmpty then 0 else crc32c (outs.flatMap fun o => beBytes 4 o.2.2)) r.dLaw }) x ∧
      z = caddyCapture v.k (inputTest v.k (buildReferences v.k outs y)) ∧ lawCommit v s = fireEvent 18 (trcCommit v.k false z))) ∧
  (∀ (v : LawEval) (u : State), v.idle = false → v.lost = true ∨ rd O.LAW_WCET u < v.cycles → rd O.LAW_TRC_STATE u = 0 → u.law.cross = [] → u.law.undo = none → isApex u = false →
    ∃ t, lawCommit v u = t ∧ rd O.LAW_ABANDONED t = satU 32 (rd O.LAW_ABANDONED u + 1) ∧ SameObjs [O.LAW_ABANDONED] u t ∧
      t.law.eval = none ∧ t.law.states = u.law.states) ∧
  (∀ (v : LawEval) (u : State), v.err = [] → (∀ p ∈ v.sig, p.1 < 2048) → (v.sig.map (·.1)).Nodup →
    (∀ p ∈ v.sig, rd (O.LAW_SIGNAL p.1) (commitResults v u) = p.2) ∧
    rd O.LAW_EVAL_COUNT (commitResults v u) = satU 64 (rd O.LAW_EVAL_COUNT u + 1) ∧ rd O.LAW_LAST_CYCLES (commitResults v u) = v.cycles ∧
    SameObjs ([O.LAW_EVAL_COUNT, O.LAW_LAST_CYCLES] ++ v.sig.map fun p => O.LAW_SIGNAL p.1) u (commitResults v u)))

/-- The reference builder. M stays within 40 bits. An arm without a law value gets HOLD with M = 0. Where a value is not finite the arm's previous entry, if it has one, stands again and BAL_REF_INVALID of the arm counts. Otherwise the entry carries M and no bin, CHARGE where the current in the sense of M lies above the hold band, DISCHARGE where it lies below it, and between them HOLD or the direction of the previous entry of the same polarity. -/
def Obligations.ReferenceEntries : Prop :=
  (∀ m : Nat, -(2 ^ 39 - 1 : Int) ≤ mOfF m ∧ mOfF m ≤ 2 ^ 39 - 1) ∧
  (∀ (a : Nat) (i : Option Nat) (s : State), buildEntry a none i s = (RefEntry.plain a 0 0, s)) ∧
  (∀ (a m i : Nat) (s : State), ffinite fmt32 m = false ∨ ffinite fmt32 i = false →
    (∀ p, aget s.bal.armPrev a = some p → (buildEntry a (some m) (some i) s).1 = p) ∧
    OnlyObjs [O.BAL_REF_INVALID a] s (buildEntry a (some m) (some i) s).2 ∧
    rd (O.BAL_REF_INVALID a) (buildEntry a (some m) (some i) s).2 = satU (objBits (O.BAL_REF_INVALID a)) (rd (O.BAL_REF_INVALID a) s + 1)) ∧
  (∀ (a m i : Nat) (s : State), ffinite fmt32 m = true → ffinite fmt32 i = true → ∃ e, buildEntry a (some m) (some i) s = (e, s) ∧ e.arm = a ∧ e.m = mOfF m ∧
    e.binValid = false ∧
    (ltF (rd (O.BAL_HOLD_BAND a) s) (if e.m < 0 then negF i else i) = true → e.dir = 1) ∧
    (ltF (rd (O.BAL_HOLD_BAND a) s) (if e.m < 0 then negF i else i) = false → ltF (if e.m < 0 then negF i else i) (negF (rd (O.BAL_HOLD_BAND a) s)) = true → e.dir = 2) ∧
    (e.dir = 0 ∨ e.dir = 1 ∨ e.dir = 2 ∨ ∃ p, aget s.bal.armPrev a = some p ∧ p.neg = decide (e.m < 0) ∧ e.dir = p.dir) ∧
    (aget s.bal.armPrev a = none → e.dir = 0 ∨ ltF (rd (O.BAL_HOLD_BAND a) s) (if e.m < 0 then negF i else i) = true ∨
      ltF (if e.m < 0 then negF i else i) (negF (rd (O.BAL_HOLD_BAND a) s)) = true))

/-- A lane of this device climbs the ladder by its own events. PRESENCE lock takes it from L0 to L1 once its back-off is over and its partner holds off no more, and otherwise leaves it in lock alone; PRESENCE shows the partner's HOLDOFF in L0 and loses the line in L2 to L5 and WIRING. CAP goes out in L1 and WIRING, and leads to L2 where CAP with PARTNER_OK has gone both ways and the rate is agreed. The receiver's lock in L2 sends LOCKED, and with the partner's LOCKED leads to L3. The end of the PRBS gives the own result and sends RESULT; both results good, and REF at a cell, lead to L4, a bad one is a training failure. The time lock criterion leads to L5. The time-outs of L0 to L4 mark no partner, back off or fail the training, by their stage. A lane in another stage, or one that is not this device's, is left as it was. Ladder frames received. Each of the eight messages, on a lane of this device in L1 to L5 or WIRING, is discarded and counted where its length is not 32 bytes or its CRC-32C is wrong, and has no effect where it is another message or version; on another lane nothing happens. A valid one shows the lane in lock. CAP is kept, and in L1 leads to WIRING where the pairing is not listed, otherwise towards L2; in L2 and L3 it leads back to L1. RATE_GO leads to L2 where CAP with PARTNER_OK has gone both ways and its rate is the one agreed. LOCKED in L2 is held and leads to L3 with the own lock. RESULT in L3 is held and evaluated. RETRAIN in L2 to L5 leads to L1, and with RESTORE at a cell sets both ceilings to 3 and passes on the other lane. LOOP_REQ in L5 is refused where the lane may not leave L5, and acknowledged otherwise; LOOP_ACK and LOOP_NAK answer an own far loop, which enters LOOP with its pattern or ends refused. -/
def Obligations.LanesClimbTheLadder : Prop :=
  ((∀ (n : Nat) (s : State), laneHere n s = true →
    (∀ inv, stage n s = 0 → (lane n s).holdoffRx = false → (∀ b, (lane n s).backoffEnd = some b → b ≤ s.tick) → exec (.lanePresenceLock n inv) s =
      .next (toL1 n (updLane n (fun x => { x with tries := [0, 0, 0, 0], presence := some s.tick })
        (wrBit (O.LNK_STATUS n) 2 inv (wrBit (O.LNK_STATUS n) 3 false (inLock n s)))))) ∧
    (∀ inv, stage n s = 0 → (lane n s).holdoffRx = true ∨ (∃ b, (lane n s).backoffEnd = some b ∧ s.tick < b) →
      exec (.lanePresenceLock n inv) s = .next (inLock n s)) ∧
    (∀ inv, stage n s ≠ 0 → exec (.lanePresenceLock n inv) s = .next s) ∧
    (stage n s = 0 → exec (.laneL0Timeout n) s = .next (updLaneDown n (wrBit (O.LNK_STATUS n) 3 true
      (advTo (max (lane n s).entered ((lane n s).presence.getD 0) + ms (rd O.LNK_L0_TIMEOUT s)) s)))) ∧
    (stage n s ≠ 0 → exec (.laneL0Timeout n) s = .next s) ∧
    (∀ h, stage n s = 0 → exec (.presenceRx n h) s =
      .next (wrBit (O.LNK_STATUS n) 5 h (updLane n (fun x => { x with presence := some s.tick, holdoffRx := h }) (inLock n s)))) ∧
    (∀ h, 2 ≤ stage n s → stage n s ≤ 6 → exec (.presenceRx n h) s = .next (backoffL0 n (dropQueues n (wr (O.LNK_LAST_FAIL n) 9 s)))) ∧
    (∀ h, stage n s = 1 ∨ 6 < stage n s → exec (.presenceRx n h) s = .next s) ∧
    (stage n s = 1 ∨ stage n s = 6 → ∃ t m, exec (.capSend n) s = .next t ∧ m = ladder 1 n s ∧
      t = tryL2 n (updLane n (fun x => { x with capSent := x.capSent || m.partnerOk }) (sendLadder m 1 n s))) ∧
    (stage n s ≠ 1 → stage n s ≠ 6 → exec (.capSend n) s = .next s) ∧
    (stage n s = 1 → (lane n s).capAt = none ∨ (∀ c, (lane n s).cap = some c → c.partnerOk = false) → exec (.laneL1Timeout n) s =
      .next (backoffL0 n (bump (O.LNK_TRAIN_FAIL n) (wr (O.LNK_LAST_FAIL n) 1 (advTo ((lane n s).entered + ms (rd O.LNK_L1_TIMEOUT s)) s))))) ∧
    (stage n s ≠ 1 ∨ (∃ a c, (lane n s).capAt = some a ∧ (lane n s).cap = some c ∧ c.partnerOk = true) → exec (.laneL1Timeout n) s = .next s) ∧
    (stage n s = 2 → ∃ t u, exec (.laneRxLock n) s = .next t ∧ OnlyObjs [O.LNK_STATUS n] s u ∧ rdBit (O.LNK_STATUS n) 6 u = true ∧ rdBit (O.LNK_STATUS n) 1 u = false ∧
      t = tryL3 n (sendLadder (ladder 3 n u) 1 n (updLane n (fun x => { x with rxLocked := true }) u))) ∧
    (stage n s ≠ 2 → exec (.laneRxLock n) s = .next s ∧ exec (.lockedSend n) s = .next s ∧ exec (.laneL2Timeout n) s = .next s) ∧
    (stage n s = 2 → (lane n s).rxLocked = true → exec (.lockedSend n) s = .next (sendLadder (ladder 3 n s) 1 n s)) ∧
    (stage n s = 2 → (lane n s).rxLocked = false → exec (.lockedSend n) s = .next s) ∧
    (stage n s = 2 → exec (.laneL2Timeout n) s = .next (trainFail n 2 (advTo ((lane n s).entered + us (rd O.LNK_L2_TIMEOUT s)) s))) ∧
    (∀ e, stage n s = 3 → ∃ t u v, exec (.lanePrbsEnd n e) s = .next t ∧
      u = advTo ((lane n s).entered + us 560 + windowTicks (rd O.LNK_L3_WINDOW s) (rd (O.LNK_RATE n) s)) s ∧
      SameObjs [O.LNK_L3_ERRORS n] u v ∧ rd (O.LNK_L3_ERRORS n) v = satU 32 e ∧
      v = updLane n (fun x => { x with ownPass := some (decide (satU 32 e ≤ rd O.LNK_L3_MAX_ERR u)) }) { u with objs := v.objs } ∧
      t = evalL3 n (sendLadder (ladder 4 n v) 4 n v)) ∧
    (∀ e, stage n s ≠ 3 → exec (.lanePrbsEnd n e) s = .next s ∧ exec (.laneL3NoResult n) s = .next s) ∧
    (stage n s = 3 → (lane n s).partnerPass = none → exec (.laneL3NoResult n) s = .next (trainFail n 4 (advTo ((lane n s).entered + (us 560 +
      windowTicks (rd O.LNK_L3_WINDOW s) (rd (O.LNK_RATE n) s) + us (rd O.LNK_L2_TIMEOUT s))) s))) ∧
    (stage n s = 3 → (lane n s).partnerPass.isSome = true → exec (.laneL3NoResult n) s = .next s) ∧
    (stage n s = 4 → timeLockMet n s = true → exec (.laneTimeLock n) s = .next (enterL5 n s)) ∧
    (stage n s ≠ 4 ∨ timeLockMet n s = false → exec (.laneTimeLock n) s = .next s) ∧
    (stage n s = 4 → exec (.laneL4Timeout n) s =
      .next (backoffL0 n (bump (O.LNK_TRAIN_FAIL n) (wr (O.LNK_LAST_FAIL n) 5 (advTo ((lane n s).entered + ms (rd O.LNK_L4_TIMEOUT s)) s))))) ∧
    (stage n s ≠ 4 → exec (.laneL4Timeout n) s = .next s)) ∧
  (∀ (n : Nat) (s : State), laneHere n s = false → ∀ c ∈ [Instr.lanePresenceLock n true, .lanePresenceLock n false, .laneL0Timeout n, .presenceRx n true, .presenceRx n false,
    .capSend n, .laneL1Timeout n, .laneRxLock n, .lockedSend n, .laneL2Timeout n, .lanePrbsEnd n 0, .laneL3NoResult n, .laneTimeLock n, .laneL4Timeout n], exec c s = .next s) ∧
  (∀ (n : Nat) (s : State), (stage n s = 2 → (lane n s).rxLocked = true → (lane n s).partnerLocked = true →
      tryL3 n s = updLane n (fun x => { x with out := [.prbs] }) (goStage n 3 s)) ∧
    (stage n s ≠ 2 ∨ (lane n s).rxLocked = false ∨ (lane n s).partnerLocked = false → tryL3 n s = s)) ∧
  (∀ (n : Nat) (s : State) (c : Ladder), (lane n s).cap = some c →
    (∀ r, stage n s = 1 → (lane n s).capSent = true → (lane n s).capAt.isSome = true → c.partnerOk = true → agreedRate n c s = some r →
      tryL2 n s = enterL2 [.ladder ({ ladder 2 n s with rate := r } : Ladder).bytes 16] n r s) ∧
    (stage n s ≠ 1 ∨ (lane n s).capSent = false ∨ (lane n s).capAt = none ∨ c.partnerOk = false ∨ agreedRate n c s = none → tryL2 n s = s)) ∧
  (∀ (n : Nat) (s : State), stage n s = 3 →
    ((lane n s).ownPass = some false ∨ (lane n s).partnerPass = some false → evalL3 n s = trainFail n 3 s) ∧
    ((lane n s).ownPass = some true → (lane n s).partnerPass = some true → isNode s = true ∨ s.tim.refLane.isSome = true → evalL3 n s = goStage n 4 s) ∧
    ((lane n s).ownPass ≠ some false → (lane n s).partnerPass ≠ some false →
      (lane n s).ownPass = none ∨ (lane n s).partnerPass = none ∨ (isNode s = false ∧ s.tim.refLane = none) → evalL3 n s = s))) ∧
  ((∀ (n : Nat) (b : List Nat) (s : State), ∀ p ∈ [(1, Instr.capRx n b), (2, .rateGoRx n b), (3, .lockedRx n b), (4, .resultRx n b), (5, .retrainRx n b),
      (6, .loopReqRx n b), (7, .loopAckRx n b), (8, .loopNakRx n b)],
    (laneHere n s = false ∨ stage n s = 0 ∨ 6 < stage n s → exec p.2 s = .next s) ∧
    (laneHere n s = true → 1 ≤ stage n s → stage n s ≤ 6 →
      (b.length ≠ 32 → exec p.2 s = .next (bump (O.LNK_RX_INVALID n) s)) ∧
      (b.length = 32 → crc32c (b.take 28) ≠ ofBe (b.drop 28) → exec p.2 s = .next (bump (O.LNK_CRC_ERR n) s)) ∧
      (b.length = 32 → crc32c (b.take 28) = ofBe (b.drop 28) → (ladderOf b).msg ≠ p.1 ∨ (ladderOf b).ver ≠ 1 → exec p.2 s = .next s))) ∧
  (∀ (n : Nat) (b : List Nat) (s : State), LadderMsg 1 n b s → ∃ t u, exec (.capRx n b) s = .next t ∧ u = inLock n s ∧
    (stage n s = 1 → t = if pairingOk n (ladderOf b) (keepCap n (ladderOf b) u) then tryL2 n (cellTarget (keepCap n (ladderOf b) u))
      else goStage n 6 (keepCap n (ladderOf b) u)) ∧
    (stage n s = 2 ∨ stage n s = 3 → t = cellTarget (keepCap n (ladderOf b) (toL1 n u))) ∧
    (stage n s = 6 → t = keepCap n (ladderOf b) u) ∧ (stage n s = 4 ∨ stage n s = 5 → t = u)) ∧
  (∀ (n : Nat) (c : Ladder) (s : State), n < s.lnk.lanes.length → (lane n (keepCap n c s)).cap = some c ∧ (lane n (keepCap n c s)).capAt = some s.tick ∧
    rd (O.LNK_PARTNER n) (keepCap n c s) = partnerWord c ∧ SameObjs [O.LNK_PARTNER n] s (keepCap n c s)) ∧
  (∀ (n : Nat) (b : List Nat) (s : State), LadderMsg 2 n b s → ∃ t u, exec (.rateGoRx n b) s = .next t ∧ u = inLock n s ∧
    (∀ m, stage n s = 1 → (lane n s).cap = some m → (lane n s).capSent = true → (lane n s).capAt.isSome = true → m.partnerOk = true →
      agreedRate n m u = some (ladderOf b).rate → t = goL2 n (ladderOf b).rate u) ∧
    (stage n s ≠ 1 ∨ (lane n s).cap = none ∨ (lane n s).capSent = false ∨ (lane n s).capAt = none ∨
      (∃ m, (lane n s).cap = some m ∧ (m.partnerOk = false ∨ agreedRate n m u ≠ some (ladderOf b).rate)) → t = u)) ∧
  (∀ (n : Nat) (b : List Nat) (s : State), LadderMsg 3 n b s → ∃ t u, exec (.lockedRx n b) s = .next t ∧ u = inLock n s ∧
    (stage n s = 2 → t = tryL3 n (updLane n (fun x => { x with partnerLocked := true }) u)) ∧ (stage n s ≠ 2 → t = u)) ∧
  (∀ (n : Nat) (b : List Nat) (s : State), LadderMsg 4 n b s → ∃ t u, exec (.resultRx n b) s = .next t ∧ u = inLock n s ∧
    (stage n s = 3 → t = evalL3 n (updLane n (fun x => { x with partnerPass := some (ladderOf b).pass }) u)) ∧ (stage n s ≠ 3 → t = u)) ∧
  (∀ (n : Nat) (b : List Nat) (s : State), LadderMsg 5 n b s → ∃ t u, exec (.retrainRx n b) s = .next t ∧ u = inLock n s ∧
    (stage n s = 1 ∨ stage n s = 6 → t = u) ∧
    (2 ≤ stage n s → stage n s ≤ 5 → (ladderOf b).restore = false ∨ isNode s = true → t = toL1 n u) ∧
    (2 ≤ stage n s → stage n s ≤ 5 → (ladderOf b).restore = true → isCell s = true → ∃ v, OnlyObjs [O.LNK_CEILING laneU0, O.LNK_CEILING laneU1] (toL1 n u) v ∧
      rd (O.LNK_CEILING laneU0) v = 3 ∧ rd (O.LNK_CEILING laneU1) v = 3 ∧ t = retrain true (if n = laneU0 then laneU1 else laneU0) v)) ∧
  (∀ (n : Nat) (b : List Nat) (s : State), LadderMsg 6 n b s → ∃ t u, exec (.loopReqRx n b) s = .next t ∧ u = inLock n s ∧
    (stage n s = 5 → t = sendLadder (ladder (if laneBusy n u then 8 else 7) n u) 4 n u) ∧ (stage n s ≠ 5 → t = u)) ∧
  (∀ (n : Nat) (b : List Nat) (s : State), LadderMsg 7 n b s → ∃ t u, exec (.loopAckRx n b) s = .next t ∧ u = inLock n s ∧
    (stage n s = 5 → rd (O.LNK_LOOP n) s = 3 → t = updLane n (fun x => { x with out := [.pattern (rd (O.LNK_PATTERN n) s)] }) (toLoop false n u)) ∧
    (stage n s ≠ 5 ∨ rd (O.LNK_LOOP n) s ≠ 3 → t = u)) ∧
  (∀ (n : Nat) (b : List Nat) (s : State), LadderMsg 8 n b s → ∃ t u, exec (.loopNakRx n b) s = .next t ∧ u = inLock n s ∧
    (stage n s = 5 → rd (O.LNK_LOOP n) s = 3 → OnlyObjs [O.LNK_LOOP n, O.LNK_STATUS n] u t ∧ rd (O.LNK_LOOP n) t = 0 ∧ rdBit (O.LNK_STATUS n) 8 t = true) ∧
    (stage n s ≠ 5 ∨ rd (O.LNK_LOOP n) s ≠ 3 → t = u)) ∧
  (∀ (n : Nat) (s : State), OnlyObjs [O.LNK_STATUS n] s (inLock n s) ∧ rdBit (O.LNK_STATUS n) 1 (inLock n s) = false))

/-- Back-off and training failures. The first back-off of a run lasts LNK_BACKOFF_MIN, every further one twice the last up to LNK_BACKOFF_MAX, with PRESENCE and HOLDOFF sent while it lasts. A training failure counts with its cause and as a try at the rate; up to LNK_L3_RETRY tries train again at that rate, then, with LNK_RATE_FALLBACK and above rate 0, the ceiling falls by one and the lane returns to L1, and otherwise it backs off. -/
def Obligations.BackOffAndTrainingFailure : Prop :=
  (∀ (n b : Nat) (s : State), b = (if (lane n s).consecutive = 0 then rd O.LNK_BACKOFF_MIN s else min (2 * (lane n s).b) (rd O.LNK_BACKOFF_MAX s)) →
    backoffL0 n s = wrBit (O.LNK_STATUS n) 4 true (wr (O.LNK_BACKOFF_NOW n) b (updLane n (fun x =>
      { x with b := b, consecutive := x.consecutive + 1, backoffEnd := some ((toL0 n s).tick + ms b), out := [.sym (.presence true) 1] }) (toL0 n s))) ∧
    rd (O.LNK_BACKOFF_NOW n) (backoffL0 n s) = b) ∧
  (∀ (n cause r : Nat) (s : State), n < s.lnk.lanes.length → (lane n s).rate = some r → r < 4 → (lane n s).tries.length = 4 →
    ∃ u, u = updLane n (fun x => { x with tries := (lane n s).tries.set r ((lane n s).tries.getD r 0 + 1) }) (bump (O.LNK_TRAIN_FAIL n) (wr (O.LNK_LAST_FAIL n) cause s)) ∧
    ((lane n s).tries.getD r 0 + 1 ≤ rd O.LNK_L3_RETRY u → trainFail n cause s = enterL2 [] n r u) ∧
    (rd O.LNK_L3_RETRY u < (lane n s).tries.getD r 0 + 1 → rd O.LNK_RATE_FALLBACK u = 1 → 0 < r →
      ∃ v, trainFail n cause s = cellTarget (toL1 n v) ∧ rd (O.LNK_CEILING n) v = r - 1 ∧ SameObjs [O.LNK_CEILING n] u v ∧ (lane n v).tries.getD (r - 1) 0 = 0) ∧
    (rd O.LNK_L3_RETRY u < (lane n s).tries.getD r 0 + 1 → rd O.LNK_RATE_FALLBACK u ≠ 1 ∨ r = 0 → trainFail n cause s = backoffL0 n u))

/-- Lane commands and signals on a lane of this device, writes outside ROM service mode. LNK_ENABLE 0 ends a loop and a back-off, forgets the partner, drops what is queued and takes the lane to OFF; 1 takes a lane that is OFF to L0; other values answer RANGE. RETRAIN is sent in L2 to L5; RESTORE_RATE sets the ceiling to 3 and sends it with RESTORE; CLEAR_COUNTERS sets every counter of the lane to 0. Where the lane may carry a deblocked arm, disabling and both retrainings answer STATE. Each detector counts its own assertion once: LOS and LOL lose the line, LOL ends a partner's far loop at once and LOS after 10 us, HIBER in L2 to L5 counts the code errors of its window up to the limit and loses the line. LOS clears with the lane in lock. The end of a back-off shows it over; 10 s in L5 end the run of back-offs. What does not apply changes nothing. Test loops and LINK_STATE. Outside ROM service mode a near loop enters LOOP at once with the pattern, at the lower of LNK_RATE_CFG and the rate of the role, its checker counted and its queues dropped; a far loop is asked for by LOOP_REQ in L5; both answer STATE where the lane may carry a deblocked arm, and on a lane that is OFF. LNK_LOOP 0 counts the checker and takes an own loop to L0, and otherwise only shows 0. LINK_STATE on a piste lane in L5 is sent, is taken with its values limited, and times out 1 ms after the last one, at a node showing its piste and at a cell passing the change on; elsewhere none of the three does anything. A node sends 0 and 0, a cell values within their range. A piste is whole once its origin has been known for LNK_WHOLE_HOLD. -/
def Obligations.LaneCommandsAndLoops : Prop :=
  ((∀ (n : Nat) (s : State), rd O.SYS_RECOVERY s = 0 → laneHere n s = true →
    (laneBusy n s = false → ∃ t w, exec (.lnkEnableWrite n 0) s = .next (answer stOk [] t) ∧
      w = wr (O.LNK_BACKOFF_NOW n) 0 (wrBit (O.LNK_STATUS n) 4 false (updLane n (fun x => { x with backoffEnd := none, loopPartner := false, loopLeave := none, out := [] })
        (wr (O.LNK_LOOP n) 0 (loopCount n (wr (O.LNK_ENABLE n) 0 s))))) ∧
      (stage n s ≠ 8 → t = goStage n 8 (wr (O.LNK_RATE n) 0 (forget n (dropQueues n w)))) ∧ (stage n s = 8 → t = w)) ∧
    (stage n s = 8 → exec (.lnkEnableWrite n 1) s = .next (answer stOk [] (toL0 n (wr (O.LNK_ENABLE n) 1 s)))) ∧
    (stage n s ≠ 8 → exec (.lnkEnableWrite n 1) s = .next (answer stOk [] (wr (O.LNK_ENABLE n) 1 s))) ∧
    (∀ v, 2 ≤ v → exec (.lnkEnableWrite n v) s = .next (refusedState stRange s)) ∧
    (laneBusy n s = true → exec (.lnkEnableWrite n 0) s = .next (refusedState stState s) ∧ exec (.lnkCmdRetrain n) s = .next (refusedState stState s) ∧
      exec (.lnkCmdRestoreRate n) s = .next (refusedState stState s)) ∧
    (laneBusy n s = false → 2 ≤ stage n s → stage n s ≤ 5 → exec (.lnkCmdRetrain n) s =
      .next (answer stOk [] (sendLadder { ladder 5 n s with restore := false } 4 n s))) ∧
    (laneBusy n s = false → stage n s < 2 ∨ 5 < stage n s → exec (.lnkCmdRetrain n) s = .next (answer stOk [] s)) ∧
    (laneBusy n s = false → 2 ≤ stage n s → stage n s ≤ 5 → ∃ u, exec (.lnkCmdRestoreRate n) s = .next (answer stOk [] (sendLadder { ladder 5 n u with restore := true } 4 n u)) ∧
      OnlyObjs [O.LNK_CEILING n] s u ∧ rd (O.LNK_CEILING n) u = 3) ∧
    (laneBusy n s = false → stage n s < 2 ∨ 5 < stage n s → exec (.lnkCmdRestoreRate n) s = .next (answer stOk [] (wr (O.LNK_CEILING n) 3 s))) ∧
    (∃ t, exec (.lnkCmdClearCounters n) s = .next t ∧ Wrote (laneCounters n) s t ∧ ∀ k ∈ laneCounters n, rd k t = 0)) ∧
  (∀ (n : Nat) (s : State), laneHere n s = true →
    (stage n s ≠ 8 → rdBit (O.LNK_STATUS n) 0 s = false → ∃ t u, exec (.laneLos n) s = .next t ∧ OnlyObjs [O.LNK_STATUS n, O.LNK_LOS_COUNT n] s u ∧
      rdBit (O.LNK_STATUS n) 0 u = true ∧ rd (O.LNK_LOS_COUNT n) u = satU 32 (rd (O.LNK_LOS_COUNT n) s + 1) ∧
      t = lineLost n 6 (if stage n s = 7 ∧ (lane n s).loopPartner = true then updLane n (fun x => { x with loopLeave := some (s.tick + us 10) }) u else u)) ∧
    (stage n s = 8 ∨ rdBit (O.LNK_STATUS n) 0 s = true → exec (.laneLos n) s = .next s) ∧
    (exec (.laneLosClear n) s = .next (inLock n (wrBit (O.LNK_STATUS n) 0 false (updLane n (fun x => { x with loopLeave := none }) (laneDue n s))))) ∧
    (stage n s ≠ 8 → rdBit (O.LNK_STATUS n) 1 s = false → ∃ t u, exec (.laneLol n) s = .next t ∧ OnlyObjs [O.LNK_STATUS n, O.LNK_LOL_COUNT n] s u ∧
      rdBit (O.LNK_STATUS n) 1 u = true ∧ rd (O.LNK_LOL_COUNT n) u = satU 32 (rd (O.LNK_LOL_COUNT n) s + 1) ∧ t = leaveFar n (lineLost n 7 u)) ∧
    (stage n s = 8 ∨ rdBit (O.LNK_STATUS n) 1 s = true → exec (.laneLol n) s = .next s) ∧
    (2 ≤ stage n s → stage n s ≤ 5 → ∃ t u, exec (.laneHiber n) s = .next t ∧
      u = bumpN (rd O.LNK_HIBER_LIMIT s - (if (lane n s).code.1 = s.tick / us 125 then (lane n s).code.2 else 0)) (O.LNK_CODE_ERR n) (bump (O.LNK_HIBER_COUNT n) s) ∧
      t = lineLost n 8 (updLane n (fun x => { x with code := (0, 0) }) u)) ∧
    (stage n s < 2 ∨ 5 < stage n s → exec (.laneHiber n) s = .next s)) ∧
  (∀ (n : Nat) (s : State), laneHere n s = false → exec (.laneLos n) s = .next s ∧ exec (.laneLosClear n) s = .next s ∧ exec (.laneLol n) s = .next s ∧ exec (.laneHiber n) s = .next s) ∧
  (∀ (n : Nat) (s : State), (∀ x, (lane n s).loopLeave = some x → stage n s = 7 → (lane n s).loopPartner = true → x ≤ s.tick →
      laneDue n s = toL0 n (updLane n (fun x => { x with loopPartner := false, loopLeave := none }) s)) ∧
    ((lane n s).loopLeave = none ∨ stage n s ≠ 7 ∨ (lane n s).loopPartner = false → laneDue n s = s)) ∧
  (∀ (n b : Nat) (s : State), (lane n s).backoffEnd = some b → ∃ t, exec (.laneBackoffEnd n) s = .next t ∧ t.tick = max s.tick b ∧ rd (O.LNK_BACKOFF_NOW n) t = 0 ∧
    rdBit (O.LNK_STATUS n) 4 t = false ∧ SameObjs [O.LNK_BACKOFF_NOW n, O.LNK_STATUS n] s t ∧ (n < s.lnk.lanes.length → (lane n t).backoffEnd = none)) ∧
  (∀ (n : Nat) (s : State), (lane n s).backoffEnd = none → exec (.laneBackoffEnd n) s = .next s) ∧
  (∀ (n : Nat) (s : State), inL5 n s = true → ∃ t, exec (.laneL5Stable n) s = .next t ∧ t.tick = max s.tick ((lane n s).entered + ms 10000) ∧ t.objs = s.objs ∧
    (n < s.lnk.lanes.length → (lane n t).consecutive = 0)) ∧
  (∀ (n : Nat) (s : State), inL5 n s = false → exec (.laneL5Stable n) s = .next s)) ∧
  ((∀ (n : Nat) (s : State), rd O.SYS_RECOVERY s = 0 → laneHere n s = true →
    (laneBusy n s = false → stage n s ≠ 8 →
      (∃ t u, exec (.loopNearPma n) s = .next (answer stOk [] t) ∧
        u = wr (O.LNK_LOOP n) 1 (wr (O.LNK_RATE n) (min (rd (O.LNK_RATE_CFG n) s) (roleRate s)) (dropQueues n (loopCount n s))) ∧
        t = updLane n (fun x => { x with out := [.pattern (rd (O.LNK_PATTERN n) u)] }) (toLoop false n u)) ∧
      (∃ t u, exec (.loopNearPcs n) s = .next (answer stOk [] t) ∧
        u = wr (O.LNK_LOOP n) 2 (wr (O.LNK_RATE n) (min (rd (O.LNK_RATE_CFG n) s) (roleRate s)) (dropQueues n (loopCount n s))) ∧
        t = updLane n (fun x => { x with out := [.pattern (rd (O.LNK_PATTERN n) u)] }) (toLoop false n u))) ∧
    (laneBusy n s = false → inL5 n s = true → ∃ t u, exec (.loopFar n) s = .next (answer stOk [] t) ∧ t = sendLadder (ladder 6 n u) 4 n u ∧ rd (O.LNK_LOOP n) u = 3 ∧
      rdBit (O.LNK_STATUS n) 8 u = false ∧ OnlyObjs [O.LNK_LOOP n, O.LNK_STATUS n] s u) ∧
    (laneBusy n s = true ∨ stage n s = 8 → exec (.loopNearPma n) s = .next (refusedState stState s) ∧ exec (.loopNearPcs n) s = .next (refusedState stState s)) ∧
    (laneBusy n s = true ∨ inL5 n s = false → exec (.loopFar n) s = .next (refusedState stState s)) ∧
    (stage n s = 7 → (lane n s).loopPartner = false → exec (.loopNone n) s = .next (answer stOk [] (toL0 n (wr (O.LNK_LOOP n) 0 (loopCount n s))))) ∧
    (stage n s ≠ 7 ∨ (lane n s).loopPartner = true → ∃ t, exec (.loopNone n) s = .next t ∧ Wrote [O.LNK_LOOP n] s t ∧ rd (O.LNK_LOOP n) t = 0)) ∧
  (∀ (n : Nat) (s : State), inL5 n s = true → pisteHop n s = true →
    (∃ t x, exec (.linkStateSend n) s = .next t ∧ t = { s with lnk := t.lnk } ∧ x = .sym (.linkState (linkStateOf n s).1 (linkStateOf n s).2) 1 ∧
      (n < s.lnk.lanes.length → (lane n t).lsSaid = some (linkStateOf n s) ∧
        ((lane n s).cur = none → (lane n s).susp = [] → (lane n t).out = [x]) ∧
        ((lane n s).cur.isSome = true → (lane n t).wait = ((lane n s).wait.filter fun y => !y.isLinkState) ++ [x]))) ∧
    (∀ h b, exec (.linkStateRx n h b) s = .next (takeLinkState n (min 31 h) (min 30 b) s)) ∧
    (∃ t u, exec (.linkStateTimeout n) s = .next t ∧ u = updLane n (fun x => { x with hops := 31, behind := 0, knownAt := none }) (advTo ((lane n s).lsAt.getD 0 + ms 1) s) ∧
      (isNode s = true → t = updPiste n u) ∧ (isNode s = false → t = lsChange [laneU0, laneU1] (if n = laneU1 then wr O.LNK_CELL_HOPS_B 31 u else u)))) ∧
  (∀ (n : Nat) (s : State), inL5 n s = false ∨ pisteHop n s = false →
    exec (.linkStateSend n) s = .next s ∧ (∀ h b, exec (.linkStateRx n h b) s = .next s) ∧ exec (.linkStateTimeout n) s = .next s) ∧
  (∀ (n : Nat) (s : State), isNode s = true → linkStateOf n s = (0, 0)) ∧
  (∀ (n : Nat) (s : State), isNode s = false → (linkStateOf n s).1 ≤ 31 ∧ 1 ≤ (linkStateOf n s).2 ∧ (linkStateOf n s).2 ≤ 30) ∧
  (∀ (n x : Nat) (s : State), (lane n s).knownAt = some x → isNode s = true → n < 64 → inL5 n s = true → carriesPiste n s = true →
    ∃ t u, exec (.pisteWhole n) s = .next t ∧ t = updSplit n u ∧ rd (O.LNK_PISTE_STATE n) u = 1 ∧ u.tick = max s.tick (x + us (rd O.LNK_WHOLE_HOLD s)) ∧
      SameObjs [O.LNK_PISTE_STATE n] s u) ∧
  (∀ (n : Nat) (s : State), (lane n s).knownAt = none ∨ isNode s = false ∨ 64 ≤ n ∨ inL5 n s = false ∨ carriesPiste n s = false → exec (.pisteWhole n) s = .next s))

/-- Frames on a lane. Line units received on a lane of this device are descrambled or decoded at its rate, and their symbols taken in order, the schuss symbols among them apart; a lane that is not this device's takes none. Within L1 to L5 and WIRING a SOF begins a frame and suspends one in progress, data joins it and is a code error without one, EOF and EOF_BAD end it and RESUME takes up the suspended frame. A complete frame that fails a check is counted once, in the first of the counters that R150 lists; one that passes is counted in its class and taken where it is addressed here; both are passed on, spoiled where a check has failed. The transmitter starts a frame on a free lane, suspends a higher class for a lower one, lets others wait, and goes on with the best class. The end of a frame sent counts it, holds the line units it was sent as, and lets what waits for a gap go before classes 2 to 7. A suspended frame not resumed for 64 us is discarded. The scrambler and the 8b/10b code are inverted by the receiver. Schuss. On a lane in L5 the schuss symbols among the positions received are matched in pairs within eight positions; those that stay without a match or are not valid are counted, and each accepted schuss is counted, remembered with its time, passed on to the other lanes in L5 and shown as source 218 where it was not accepted within the last 1 ms, and acts on the device by its kind. On another lane nothing happens. A schuss passed on goes out as four symbols on every other lane in L5 and on no other. The originator repeats its burst every 2 us while a cause holds, as URGENT_TRIP while one calls for it, and ends it without a cause. -/
def Obligations.FramesAndSchuss : Prop :=
  ((∀ (n prev : Nat) (line : List Nat) (s : State), laneHere n s = true → ∃ t l, exec (.frameRx n prev line) s = .next t ∧
    l = lineSyms (rd (O.LNK_RATE n) s) prev line ∧ t = each l (rxSym n) (schussSyms n (l.map Sym.asSchuss) s)) ∧
  (∀ (n prev : Nat) (line : List Nat) (s : State), laneHere n s = false → exec (.frameRx n prev line) s = .next s) ∧
  (∀ (n : Nat) (s : State), 1 ≤ stage n s → stage n s ≤ 6 → (∀ l, rxSym n (.schuss l) s = s) ∧ rxSym n .idle s = s ∧ rxSym n .bad s = codeErr n s ∧
    (∀ l, (lane n s).rx = none → rxSym n (.data l) s = codeErr n s) ∧ rxSym n .eof s = rxEnd n false s ∧ rxSym n .eofBad s = rxEnd n true s ∧
    (∀ c, rxSym n (.resume c) s = rxResume n c s) ∧ (∀ h b, rxSym n (.linkState h b) s = linkStateRx n h b s) ∧
    (n < s.lnk.lanes.length → (∀ l f, (lane n s).rx = some f → (lane n (rxSym n (.data l) s)).rx = some { f with bytes := f.bytes ++ l }) ∧
      (∀ c, (lane n (rxSym n (.sof c) s)).rx = some { cls := c, bytes := [], born := s.tick } ∧
        (∀ f, (lane n s).rx = some f → (lane n (rxSym n (.sof c) s)).rxSusp = (f, s.tick) :: (lane n s).rxSusp)))) ∧
  (∀ (n : Nat) (bad : Bool) (f : RxFrame) (s : State), (lane n s).rx = some f → ∃ u, u = updLane n (fun x => { x with rx := none }) s ∧
    (f.cls ≠ 0 → inL5 n s = true ∨ (stage n s = 4 ∧ f.cls = 1) → rxEnd n bad s = frameEnd n f bad u) ∧
    (f.cls ≠ 0 → inL5 n s = false → stage n s ≠ 4 ∨ f.cls ≠ 1 → rxEnd n bad s = u) ∧
    (f.cls = 0 → bad = true → rxEnd n bad s = bump (O.LNK_RX_ABORTED n) u) ∧ (f.cls = 0 → bad = false → rxEnd n bad s = ladderEnd n f.bytes u)) ∧
  (∀ (n c : Nat) (f : RxFrame) (x : Nat) (r : List (RxFrame × Nat)) (s : State), (lane n s).rx = none → (lane n s).rxSusp = (f, x) :: r →
    (f.cls = c → rxResume n c s = updLane n (fun y => { y with rx := some f, rxSusp := r }) s) ∧
    (f.cls ≠ c → rxResume n c s = each (((f, x) :: r).map (·.1)) (discardRx n) (updLane n (fun y => { y with rxSusp := [] }) s))) ∧
  (∀ (n : Nat) (f : RxFrame) (bad : Bool) (s : State),
    (∀ c, rxFault n f.cls f.bytes bad = some c → frameEnd n f bad s = each (passLanes n f.cls f.bytes s) (passOn n f (spoils f.bytes bad)) (bump c s)) ∧
    (rxFault n f.cls f.bytes bad = none → frameEnd n f bad s =
      each (passLanes n f.cls f.bytes s) (passOn n f (spoils f.bytes bad)) (takeFrame n f.bytes (bump (O.LNK_RX_FRAMES (hdrOf f.bytes).cls n) s)))) ∧
  (∀ (n sof : Nat) (b : List Nat), rxFault n sof b true = some (O.LNK_RX_ABORTED n) ∧ (hcrcFails b = true → rxFault n sof b false = some (O.LNK_HCRC_ERR n)) ∧
    (hcrcFails b = false → crcFails b = true → rxFault n sof b false = some (O.LNK_CRC_ERR n)) ∧
    (hcrcFails b = false → crcFails b = false → b.length ≠ lenB b ∨ (hdrOf b).cls ≠ sof → rxFault n sof b false = some (O.LNK_RX_INVALID n))) ∧
  (∀ (l : LaneSt) (it : TxItem), (l.cur = none → (l.offer false it).1.cur = some it ∧ (l.offer false it).2 = false) ∧
    (∀ c, l.cur = some c → it.cls < c.cls → (l.offer false it).1.cur = some it ∧ (l.offer false it).1.susp = c :: l.susp ∧ (l.offer false it).2 = true) ∧
    (∀ c, l.cur = some c → c.cls < it.cls → (l.offer false it).1.cur = some c ∧ (l.offer false it).1.susp = l.susp ∧ (l.offer false it).2 = false ∧
      (l.offer false it).1.q.length = l.q.length + 1)) ∧
  (∀ (l : LaneSt), List.Pairwise (fun a b : TxItem => a.cls ≤ b.cls) l.q → List.Pairwise (fun a b : TxItem => a.cls < b.cls) l.susp → ∀ c, (l.endFrame false).cur = some c →
    (∀ x ∈ (l.endFrame false).q ++ (l.endFrame false).susp, c.cls ≤ x.cls) ∧ (l.endFrame false).q.length + (l.endFrame false).susp.length + 1 = l.q.length + l.susp.length) ∧
  (∀ (n : Nat) (c : TxItem) (s : State), (lane n s).cur = some c → ∃ t r u rate, exec (.frameTxEnd n) s = .next t ∧ r = takeFree 58 s ∧ rate = rd (O.LNK_RATE n) s ∧
    u = updLane n (fun x => { x with cur := none, sent := symsLine rate r.1 (frameSyms rate c.cls c.body.line.1 c.body.line.2) }) (bump (O.LNK_TX_FRAMES c.cls n) r.2) ∧
    ((lane n u).susp = [] → (lane n u).wait ≠ [] → (∀ i ∈ (lane n u).q, i.cls ≠ 1) →
      t = startTx n (each (lane n u).wait (said n) (updLane n (fun x => { x with out := x.wait, wait := [] }) u))) ∧
    ((lane n u).susp ≠ [] ∨ (lane n u).wait = [] ∨ (∃ i ∈ (lane n u).q, i.cls = 1) → t = startTx n u)) ∧
  (∀ (n : Nat) (s : State), (lane n s).cur = none → exec (.frameTxEnd n) s = .next s) ∧
  (∀ (n : Nat) (e : RxFrame × Nat) (s : State), (lane n s).rxSusp.getLast? = some e → exec (.suspendTimeout n) s =
    .next (discardRx n e.1 (updLane n (fun x => { x with rxSusp := x.rxSusp.dropLast }) (advTo (e.2 + us 64) s)))) ∧
  (∀ (n : Nat) (s : State), (lane n s).rxSusp = [] → exec (.suspendTimeout n) s = .next s) ∧
  (∀ h p : Nat, h < 2 ^ 58 → p < 2 ^ 64 → scramble h p < 2 ^ 64 ∧ descramble h (scramble h p) = p) ∧
  (∀ (pos k : Bool) (c : Nat), (k = false → c < 256) → (k = true → c ∈ ctrlChars) → char10 pos (code10 pos k c).1 = some ((k, c), (code10 pos k c).2))) ∧
  ((∀ (n : Nat) (l : List (Option (List Nat))) (s : State), inL5 n s = true → ∃ t r, exec (.schussRx n l) s = .next t ∧ r = schussScan l ∧
    t = each r.2 (schussTake n) (bumpN r.1 (O.LNK_SCHUSS_BAD n) s)) ∧
  (∀ (n : Nat) (l : List (Option (List Nat))) (s : State), inL5 n s = false → exec (.schussRx n l) s = .next s) ∧
  (∀ (kind origin seq g : Nat) (b : List Nat), kind = 0x5A ∨ kind = 0xA5 → origin < 256 → seq < 256 → b = schussBytes kind origin seq →
    (g ≤ 6 → schussScan ([some b] ++ List.replicate g none ++ [some b]) = (0, [kind * 65536 + origin * 256 + seq])) ∧
    schussScan ([some b] ++ List.replicate 7 none ++ [some b]) = (2, []) ∧ schussScan [some b] = (1, [])) ∧
  (∀ (b : List Nat), schussKey b = none → schussScan [some b] = (1, [])) ∧
  (∀ (kind origin seq : Nat), kind < 256 → kind ≠ 0x5A → kind ≠ 0xA5 → schussKey (schussBytes kind origin seq) = none) ∧
  (∀ (n key : Nat) (s : State), ∃ u v w mem, u = bump (O.LNK_SCHUSS_RX n) s ∧ mem = s.saf.schMem.filter (fun e => s.tick < e.2 + ms 1) ∧
    v = { u with saf := { u.saf with schMem := ((key, s.tick) :: mem.filter fun e => e.1 != key).take 16 } } ∧
    ((∀ e ∈ mem, e.1 ≠ key) → w = pulse 218 key (sendSchuss (key / 65536) (key / 256 % 256) (key % 256) n v)) ∧ ((∃ e ∈ mem, e.1 = key) → w = v) ∧
    schussTake n key s = if isNode w then nodeSchuss (key / 65536 == 0xA5) (key / 256 % 256) w else cellSchuss w) ∧
  (∀ (kind origin seq n : Nat) (s : State), (∀ m, m < 68 → m ≠ n → inL5 m s = true → m < s.lnk.lanes.length →
      (lane m (sendSchuss kind origin seq n s)).out = [.sym (.schuss (schussBytes kind origin seq)) 4]) ∧
    lane n (sendSchuss kind origin seq n s) = lane n s ∧ (∀ m, inL5 m s = false → lane m (sendSchuss kind origin seq n s) = lane m s)) ∧
  (∀ (c : Nat) (s : State), s.saf.repeatAt = some c → s.saf.causes ≠ [] → ∃ t u, exec .schussRepeat s = .next t ∧
    u = sendSchuss (if s.saf.causes.any (·.2) then 0xA5 else 0x5A) (nodeNum s) s.saf.seq 68 (advTo c s) ∧ t = { u with saf := { u.saf with repeatAt := some (c + us 2) } }) ∧
  (∀ (c : Nat) (s : State), s.saf.repeatAt = some c → s.saf.causes = [] → exec .schussRepeat s = .next { s with saf := { s.saf with repeatAt := none } }) ∧
  (∀ s : State, s.saf.repeatAt = none → exec .schussRepeat s = .next s))

/-- Hop delays. On a lane in L4 or L5 a request goes to the partner and is stamped as its SOF leaves, the fraction a free value; a request received is answered with its receive stamp and a turn of at most 2 us, which grows with the time the answer waits; the answer to the latest request makes an exchange, any other changes nothing. An exchange on a lane without one gives the delay of its own values, ratio 1, and ends the request. A lane in another stage does nothing. Period parameters and station time in the tree. A node sends its pending set, or else the one in force, to its child nodes with HOP 1 and on its pistes with BCAST; without a set, and at a cell, nothing goes out. A set received below the apex is held as the latest of its lane; at a cell, one that gives other values for the same period than the set of the other end, no older than it, counts a conflict, and off the lane obeyed goes no further; a set that is in force or pending already goes no further either; any other is taken. Taken with none in force it waits for its P-mark, or comes into force at once with its values shown and the number of the present period; with one in force it replaces a pending set of no later K_EFF. STATION carries the apex's mapping to the child nodes, and at other nodes the mapping for the present instant; one received is kept among the latest four, with its UTC offset and quality shown, and ten milliseconds without one set STALE; at the apex and at cells those two do nothing. TIM_ASYM outside ROM service mode is written within its range, and then enters the lag figures at the apex and is reported from a lane in L5 elsewhere; beyond it answers RANGE. -/
def Obligations.HopsAndParameters : Prop :=
  ((∀ (n : Nat) (s : State), measures n s = true → exec (.pdelayReqSend n) s = .next (sendPartner 1 .pdReq n s)) ∧
  (∀ (n seq frac turn : Nat) (s : State), measures n s = true → exec (.pdelayReqRx n seq frac turn) s =
    .next (sendPartner 2 (.pdResp { reqSeq := seq % 256, t2 := 32 * s.tick + frac % 32, turn := min 25600 turn }) n s)) ∧
  (∀ (n : Nat) (it : TxItem) (f : Frame) (bad : Bool) (s : State), (lane n s).cur = some it → it.body = .own f bad → f.hdr.cls = 1 → f.hdr.typ ≤ 2 →
    ∃ x, x = 32 * s.tick + Config.freeNat s.free % 32 ∧
      (f.pay = .pdReq → (pdLane n (leave n s)).seq = f.hdr.seq ∧ (pdLane n (leave n s)).t1 = some x ∧ (pdLane n (leave n s)).ex = (pdLane n s).ex) ∧
      (∀ p, f.pay = .pdResp p → n < s.lnk.lanes.length →
        (lane n (leave n s)).cur = some { it with body := .own { f with pay := .pdResp { p with turn := max p.turn ((x - p.t2) % 2 ^ 32) } } bad })) ∧
  (∀ (n frac t1 : Nat) (p : PdResp) (s : State), measures n s = true → (pdLane n s).t1 = some t1 →
    (p.reqSeq = (pdLane n s).seq → exec (.pdelayRespRx n frac p) s = .next (pdDone n t1 p.t2 (32 * s.tick + frac % 32) p.turn s)) ∧
    (p.reqSeq ≠ (pdLane n s).seq → exec (.pdelayRespRx n frac p) s = .next s)) ∧
  (∀ (n t1 t2 t4 turn : Nat) (s : State), n < 68 → (pdLane n s).ex = [] → inL5 n s = false → ∃ t, t = pdDone n t1 t2 t4 turn s ∧
    rd (O.TIM_LANE_RATIO n) t = 0 ∧
    rd (O.TIM_LANE_DELAY n) t = (clampI (psOf (meanD [dxOf t1 t4 turn (ratD 1 1) s.tim.valve.inc])) 0 0xFFFFFFFF).toNat ∧
    SameObjs [O.TIM_LANE_DELAY n, O.TIM_LANE_SPREAD n, O.TIM_LANE_RATIO n] s t ∧ (pdLane n t).t1 = none ∧ (pdLane n t).ex.length = 1) ∧
  (∀ (n : Nat) (s : State), measures n s = false → exec (.pdelayReqSend n) s = .next s ∧ (∀ seq frac turn, exec (.pdelayReqRx n seq frac turn) s = .next s) ∧
    (∀ frac p, exec (.pdelayRespRx n frac p) s = .next s)) ∧
  (∀ (n frac : Nat) (p : PdResp) (s : State), (pdLane n s).t1 = none → exec (.pdelayRespRx n frac p) s = .next s)) ∧
  ((∀ (p : ParamSet) (s : State), isNode s = true → s.tim.pend = some p ∨ (s.tim.pend = none ∧ s.tim.inForce = some p) → ∃ t u, exec .paramSend s = .next t ∧
    u = sendFrame 1 3 true 0 (sideB s) true false (.param p) (upOf (groupLinks s) s) s ∧
    t = each (upOf (pisteLinks u) u) (fun k s => sendFrame 1 3 false (nodeAddr (nodeNum s) + k * 16) (sideB s) false true (.param p) [k] s) u) ∧
  (∀ s : State, isNode s = false ∨ (s.tim.pend = none ∧ s.tim.inForce = none) → exec .paramSend s = .next s) ∧
  (∀ (n : Nat) (p : ParamSet) (s : State), isApex s = true → exec (.paramRx n p) s = .next s) ∧
  (∀ (n : Nat) (p : ParamSet) (s : State), isApex s = false → ∃ t u v clash, exec (.paramRx n p) s = .next t ∧
    u = { s with tim := { s.tim with ends := aset s.tim.ends n p } } ∧
    (clash = true ↔ isCell s = true ∧ ∃ q, aget s.tim.ends (if n = laneU0 then laneU1 else laneU0) = some q ∧ p.pseq ≤ q.pseq ∧ p.differs q = true) ∧
    v = (if clash then bump O.TIM_PARAM_CONFLICT u else u) ∧
    (clash = true → n ≠ (if rd O.RED_OBEYED s = 1 then laneU1 else laneU0) → t = v) ∧
    (clash = false ∨ n = (if rd O.RED_OBEYED s = 1 then laneU1 else laneU0) →
      (s.tim.inForce = some p ∨ s.tim.pend = some p → t = v) ∧ (s.tim.inForce ≠ some p → s.tim.pend ≠ some p → t = readyEval (takeSet p clash v)))) ∧
  (∀ (p : ParamSet) (force : Bool) (s : State), s.tim.inForce = none →
    (vtTicks s < ticksOfNs p.pEff → takeSet p force s = { s with tim := { s.tim with pend := some p } }) ∧
    (ticksOfNs p.pEff ≤ vtTicks s → isNode s = true → isApex s = false → ∃ t, t = takeSet p force s ∧ t.tim.inForce = some p ∧ rd O.TIM_PERIOD t = p.t ∧ rd O.TIM_APPLY_LAG t = p.l ∧
      rd O.TIM_CMD_GUARD t = p.g ∧ rd O.TIM_LAW_START_EFF t = p.lawStart ∧ rd O.TIM_PARAM_SEQ t = p.pseq ∧
      rd O.TIM_PERIOD_NUMBER t = p.kEff + (vtTicks s - ticksOfNs p.pEff) / max p.t 1 ∧
      SameObjs [O.TIM_PERIOD, O.TIM_APPLY_LAG, O.TIM_CMD_GUARD, O.TIM_LAW_START_EFF, O.TIM_PARAM_SEQ, O.TIM_PERIOD_NUMBER, O.BAL_SLALOM_STATE] s t)) ∧
  (∀ (p f : ParamSet) (force : Bool) (s : State), s.tim.inForce = some f → kNow s < p.kEff →
    (s.tim.pend = none ∨ force = true ∨ (∃ q, s.tim.pend = some q ∧ q.kEff ≤ p.kEff) → takeSet p force s = { s with tim := { s.tim with pend := some p } }) ∧
    (∀ q, s.tim.pend = some q → p.kEff < q.kEff → force = false → takeSet p force s = s)) ∧
  (∀ s : State, isApex s = true → exec .stationSend s = .next (sendFrame 1 4 true 0 (sideB s) true false (.station (apexMap s)) (upOf (groupLinks s) s)
    { s with tim := { s.tim with maps := (apexMap s :: s.tim.maps).take 4 } })) ∧
  (∀ (q : Station) (s : State), isNode s = true → isApex s = false → mapFor (vtFrac s / 65536 * 65536) s = some q → exec .stationSend s =
    .next (sendFrame 1 4 true 0 (sideB s) true false (.station { q with vM := vtFrac s / 65536, sM := q.conv (vtFrac s / 65536 * 65536) / 65536, quality := rd O.TIM_ST_QUALITY s })
      (upOf (groupLinks s) s) s)) ∧
  (∀ s : State, isNode s = false ∨ (isApex s = false ∧ mapFor (vtFrac s / 65536 * 65536) s = none) → exec .stationSend s = .next s) ∧
  (∀ (m : Station) (s : State), isNode s = true → isApex s = false → ∃ t, exec (.stationRx m) s = .next t ∧ t.tim.maps = (m :: s.tim.maps).take 4 ∧ t.tim.lastMap = some s.tick ∧
    rd O.TIM_ST_UTC_OFFSET t = ofI 16 m.utc ∧ rd O.TIM_ST_QUALITY t = clrBit (m.quality % 256) 6 ∧ SameObjs [O.TIM_ST_QUALITY, O.TIM_ST_UTC_OFFSET] s t) ∧
  (∀ s : State, isNode s = true → isApex s = false → ∃ t, exec .stationStale s = .next t ∧ Reached (s.tim.lastMap.getD 0 + ms 10) s t ∧
    rdBit O.TIM_ST_QUALITY 6 t = true ∧ SameObjs [O.TIM_ST_QUALITY] s t) ∧
  (∀ (m : Station) (s : State), isNode s = false ∨ isApex s = true → exec (.stationRx m) s = .next s ∧ exec .stationStale s = .next s) ∧
  (∀ (n : Nat) (v : Int) (s : State), rd O.SYS_RECOVERY s = 0 → n < 68 → -100000 ≤ v → v ≤ 100000 → ∃ t u, exec (.timAsym n v) s = .next (answer stOk [] t) ∧
    OnlyObjs [O.TIM_ASYM n] s u ∧ rd (O.TIM_ASYM n) u = ofI 32 v ∧
    (isApex s = true → t = lagRecompute u) ∧ (isApex s = false → inL5 n s = true → t = laneReport u) ∧ (isApex s = false → inL5 n s = false → t = u)) ∧
  (∀ (n : Nat) (v : Int) (s : State), rd O.SYS_RECOVERY s = 0 → n < 68 → v < -100000 ∨ 100000 < v → exec (.timAsym n v) s = .next (refusedState stRange s)))

/-- A rate change never moves a timescale and runs on at the new rate, a step adds its amount exactly and keeps the rate, and INC stays within its limits. -/
def Obligations.RateChangeMovesNoTime : Prop :=
  (∀ (x : Scale) (c inc : Nat), (x.setInc c inc).at c = x.at c ∧
    (∀ d : Nat, (x.setInc c inc).at (c + d) = x.at c + d * inc)) ∧
  (∀ (x : Scale) (z : Int) (c : Nat), (x.step z).at c = x.at c + z ∧ (x.step z).inc = x.inc) ∧
  (∀ a : F64, 2683817689 ≤ incOf a ∧ incOf a ≤ 2684891431)

/-- SYNC, time sources and apex roles. A node sends its SYNC on every downlink and on P0 and P1 that measure, a cell lineage A on U1 and then lineage B on U0. A SYNC that is not valid or comes on a lane that does not measure changes nothing. A cell takes lineage A on U0, and then compares the lineages, and lineage B on U1, which it applies where A is not valid and B has been locked; a SYNC of the other lineage on a lane changes nothing. A node below the apex follows U0, and U1 while U0 has been silent for 200 us, and on P0 and P1 shows its offset to the duplicate. An apex takes SYNC on P0 and P1 alone: without a role, or as the other of two masters with side B, it becomes secondary, and as secondary it follows them. Without SYNC for 200 us a locked source is held over, a cell applies the other lineage where it may, a secondary apex becomes master, and a master goes on. Lineage A is applied again 100 ms after its return. A wait for the duplicate's SYNC ends in the master role, after a second wait for side B. A master with a valve time keeps it; without one it starts at 0 and locks. REF returns to the oscillator where no uplink has come back. -/
def Obligations.SyncAndRoles : Prop :=
  (∀ s : State, isNode s = true → exec .syncSend s =
    .next (each ((downlinks ++ [laneP0, laneP1]).filter fun n => measures n s) (fun n s => sendPartner 0 (.sync (syncOf false s)) n s) s)) ∧
  (∀ s : State, isNode s = false → ∃ t u, exec .syncSend s = .next t ∧ u = sendPartner 0 (.sync (syncOf false s)) laneU1 s ∧
    t = sendPartner 0 (.sync (syncOf true s)) laneU0 u) ∧
  (∀ (n frac : Nat) (y : Sync) (s : State), measures n s = false ∨ y.valid = false → exec (.syncRx n frac y) s = .next s) ∧
  (∀ (frac : Nat) (y : Sync) (s : State), isNode s = true → isApex s = false → y.valid = true →
    (measures 64 s = true → exec (.syncRx 64 frac y) s = .next (syncServo false 64 (32 * s.tick + frac % 32) y (updTim (fun x => { x with up0 := some s.tick }) s))) ∧
    (measures 65 s = true → fresh200 s.tim.up0 s = false → exec (.syncRx 65 frac y) s = .next (syncServo false 65 (32 * s.tick + frac % 32) y s)) ∧
    (measures 65 s = true → fresh200 s.tim.up0 s = true → exec (.syncRx 65 frac y) s = .next s)) ∧
  (∀ (n frac : Nat) (y : Sync) (s : State), isNode s = true → isApex s = false → y.valid = true → measures n s = true → n = 66 ∨ n = 67 →
    ∃ t, exec (.syncRx n frac y) s = .next t ∧ SameObjs [O.TIM_PEER_OFFSET] s t ∧ t.tim.valve = s.tim.valve ∧
      rd O.TIM_PEER_OFFSET t = ofI 32 (satI 32 (offsetPs (offsetNum false n (32 * s.tick + frac % 32) y.vt s))) ∧
      (if n = 66 then t.tim.peerP0 = some s.tick else t.tim.peerP1 = some s.tick)) ∧
  (∀ (n frac : Nat) (y : Sync) (s : State), isNode s = true → n < 64 ∨ (isApex s = true ∧ n < 66) → exec (.syncRx n frac y) s = .next s) ∧
  (∀ (n frac : Nat) (y : Sync) (s : State), isApex s = true → measures n s = true → y.valid = true → n = 66 ∨ n = 67 →
    ∃ t u v, exec (.syncRx n frac y) s = .next t ∧ u = updTim (fun x => if n = 66 then { x with peerP0 := some s.tick } else { x with peerP1 := some s.tick }) s ∧
      v = (if rd O.TIM_VT_ROLE s = 0 ∨ (rd O.TIM_VT_ROLE s = 1 ∧ sideB s = true ∧ y.steps = 0) then becomeSecondary u else u) ∧
      (rd O.TIM_VT_ROLE v = 2 → n = 66 ∨ fresh200 u.tim.peerP0 v = false → t = syncServo false n (32 * s.tick + frac % 32) y v) ∧
      (rd O.TIM_VT_ROLE v ≠ 2 ∨ (n = 67 ∧ fresh200 u.tim.peerP0 v = true) → t = v)) ∧
  (∀ s : State, ∃ t, t = becomeSecondary s ∧ rd O.TIM_VT_ROLE t = 2 ∧ SameObjs [O.TIM_VT_ROLE] s t ∧ t.tim = { s.tim with waitEnd := none }) ∧
  (∀ (n frac : Nat) (y : Sync) (s : State), isCell s = true → y.lineageB = (n != laneU1) ∨ (n ≠ laneU0 ∧ n ≠ laneU1) → exec (.syncRx n frac y) s = .next s) ∧
  (∀ (frac : Nat) (y : Sync) (s : State), isCell s = true → y.valid = true →
    (measures laneU0 s = true → y.lineageB = false → exec (.syncRx laneU0 frac y) s = .next (lineageOffset (syncServo false laneU0 (32 * s.tick + frac % 32) y s))) ∧
    (measures laneU1 s = true → y.lineageB = true → ∃ t u v, exec (.syncRx laneU1 frac y) s = .next t ∧
      u = (if (servo false s).st = .unlocked ∧ (pdLane laneU1 s).ex ≠ [] then updTim (fun x => { x with onB := true }) s else s) ∧
      v = syncServo true laneU1 (32 * s.tick + frac % 32) y u ∧
      t = if lineageValid false v = false ∧ (servo true v).st ≠ .unlocked then applyLineage true v else v)) ∧
  (∀ (b : Bool) (s : State), isNode s = true → rd O.TIM_VT_ROLE s = 1 → exec (.syncTimeout b) s = .next s) ∧
  (∀ (b : Bool) (s : State), isApex s = true → rd O.TIM_VT_ROLE s = 2 → exec (.syncTimeout b) s = exec .peerSyncLoss s) ∧
  (∀ (b : Bool) (s : State), isNode s = true → rd O.TIM_VT_ROLE s ≠ 1 → isApex s = false ∨ rd O.TIM_VT_ROLE s ≠ 2 → ∃ t u, exec (.syncTimeout b) s = .next t ∧
    u = wr O.TIM_VT_SOURCE 0xFF (updSrv false (fun v => { v with since := none }) (advTo ((servo false s).last.getD 0 + us 200) s)) ∧
    t = if (servo false s).st = .locked ∨ (servo false s).st = .slewing then vtGo false .holdover u else u) ∧
  (∀ (b : Bool) (s : State), isCell s = true → ∃ t u v, exec (.syncTimeout b) s = .next t ∧
    u = updSrv b (fun v => { v with since := none }) (advTo ((servo b s).last.getD 0 + us 200) s) ∧
    (s.tim.onB = b → (servo (!b) u).st ≠ .unlocked → b = false ∨ lineageValid (!b) u = true → v = applyLineage (!b) u) ∧
    (s.tim.onB = b → (servo (!b) u).st = .unlocked ∨ (b = true ∧ lineageValid (!b) u = false) → v = wr O.TIM_VT_SOURCE 0xFF u) ∧
    (s.tim.onB ≠ b → v = u) ∧ t = if (servo b s).st = .locked ∨ (servo b s).st = .slewing then vtGo b .holdover v else v) ∧
  (∀ (q : Nat) (s : State), (servo false s).since = some q →
    (isCell s = true → s.tim.onB = true → (servo false s).st ≠ .unlocked → exec .lineageReturn s = .next (applyLineage false (advTo (q + ms 100) s))) ∧
    (isCell s = false ∨ s.tim.onB = false ∨ (servo false s).st = .unlocked → exec .lineageReturn s = .next s)) ∧
  (∀ s : State, (servo false s).since = none → exec .lineageReturn s = .next s) ∧
  (∀ (w : Nat) (s : State), isApex s = true → rd O.TIM_VT_ROLE s = 0 → s.tim.waitEnd = some w →
    (sideB s = false ∨ 1 ≤ s.tim.waits → exec .apexPeerWait s = .next (becomeMaster (advTo w s))) ∧
    (sideB s = true → s.tim.waits = 0 → exec .apexPeerWait s =
      .next (updTim (fun x => { x with waits := 1, waitEnd := some (w + ms (rd O.TIM_PEER_WAIT s)) }) (advTo w s)))) ∧
  (∀ s : State, isApex s = false ∨ rd O.TIM_VT_ROLE s ≠ 0 ∨ s.tim.waitEnd = none → exec .apexPeerWait s = .next s) ∧
  (∀ s : State, isApex s = true → rd O.TIM_VT_ROLE s = 2 →
    exec .peerSyncLoss s = .next (becomeMaster (advTo (max (s.tim.peerP0.getD 0) (s.tim.peerP1.getD 0) + us 200) s))) ∧
  (∀ s : State, isApex s = false ∨ rd O.TIM_VT_ROLE s ≠ 2 → exec .peerSyncLoss s = .next s) ∧
  (∀ s : State, ∃ u, rd O.TIM_VT_ROLE u = 1 ∧ rd O.TIM_VT_SOURCE u = 0xFE ∧ rd O.TIM_VT_STEPS u = 0 ∧ SameObjs [O.TIM_VT_ROLE, O.TIM_VT_SOURCE, O.TIM_VT_STEPS] s u ∧
    u = { s with objs := u.objs, tim := { s.tim with waitEnd := none } } ∧
    ((servo false s).st ≠ .unlocked → becomeMaster s = u) ∧
    ((servo false s).st = .unlocked → becomeMaster s = vtGo false .locked (setScale false { cB := s.tick, xB := 0, inc := nomInc } u))) ∧
  (∀ (q : Nat) (s : State), isCell s = true → s.tim.refHoldEnd = some q →
    ((∀ n ∈ [laneU0, laneU1], stage n s = 0 ∨ 6 < stage n s) → ∃ t, exec .refHoldoverEnd s = .next t ∧ Reached q s t ∧ t.tim.refLane = none ∧
      t.tim.refHoldEnd = none ∧ rdBit (O.LNK_STATUS laneU0) 7 t = false ∧ rdBit (O.LNK_STATUS laneU1) 7 t = false ∧
      SameObjs [O.LNK_STATUS laneU0, O.LNK_STATUS laneU1] s t) ∧
    ((∃ n ∈ [laneU0, laneU1], 1 ≤ stage n s ∧ stage n s ≤ 6) → exec .refHoldoverEnd s = .next (refEval (updTim (fun x => { x with refHoldEnd := none }) (advTo q s))))) ∧
  (∀ s : State, isCell s = false ∨ s.tim.refHoldEnd = none → exec .refHoldoverEnd s = .next s)

/-- The IEEE 1588 clock of the apex. A port takes a message where the clock is enabled on it and the message has its EtherType, multicast address, domain and VLAN; any other changes nothing. Sync and Follow_Up act for the selected master alone: a one-step Sync is used with its receive stamp, a two-step one waits for the Follow_Up of its sequence. An Announce joins the masters heard in place of the sender's last, and the best is selected. A request leaves with the next sequence and its stamp kept; one received is answered with its receive stamp and, in the Follow_Up, its transmit stamp; the answer to the latest own request gives the peer delay. The announce timeout drops the masters silent that long and selects another, and without Sync that long the clock is held over. -/
def Obligations.HostClockFollowsItsMaster : Prop :=
  (∀ (h : PtpHdr) (origin : Nat) (corr : Int) (s : State), ptpTakes ptpMacAll h s = true → s.tim.master = some (h.port, h.ident) →
    exec (.ptpSyncRx h false origin corr) s = .next (stSync h.port (stAt (32 * s.tick + h.frac % 32) s) (32 * s.tick + h.frac % 32) origin corr h.seq s) ∧
    exec (.ptpSyncRx h true origin corr) s =
      .next (updPtp h.port (fun p => { p with sync := some (h.seq, stAt (32 * s.tick + h.frac % 32) s, 32 * s.tick + h.frac % 32) }) s) ∧
    (∀ t2 rx, (s.tim.ports.getD h.port PtpPort.init).sync = some (h.seq, t2, rx) →
      exec (.ptpFollowUpRx h origin corr) s = .next (stSync h.port t2 rx origin corr h.seq (updPtp h.port (fun p => { p with sync := none }) s))) ∧
    (∀ q t2 rx, (s.tim.ports.getD h.port PtpPort.init).sync = some (q, t2, rx) → q ≠ h.seq → exec (.ptpFollowUpRx h origin corr) s = .next s) ∧
    ((s.tim.ports.getD h.port PtpPort.init).sync = none → exec (.ptpFollowUpRx h origin corr) s = .next s)) ∧
  (∀ (h : PtpHdr) (two : Bool) (origin : Nat) (corr : Int) (s : State), ptpTakes ptpMacAll h s = false ∨ s.tim.master ≠ some (h.port, h.ident) →
    exec (.ptpSyncRx h two origin corr) s = .next s ∧ exec (.ptpFollowUpRx h origin corr) s = .next s) ∧
  (∀ (h : PtpHdr) (a : Announce) (s : State), ptpTakes ptpMacAll h s = true → ∃ t u, exec (.ptpAnnounceRx h a) s = .next t ∧ t = selectMaster u ∧
    u = updTim (fun x => { x with masters := ⟨h.port, h.ident, { a with utc := satI 16 a.utc }, s.tick⟩ :: x.masters.filter fun m => !(m.port == h.port && m.ident == h.ident) }) s) ∧
  (∀ (h : PtpHdr) (a : Announce) (s : State), ptpTakes ptpMacAll h s = false → exec (.ptpAnnounceRx h a) s = .next s) ∧
  (∀ (p : Nat) (s : State), ptpOn p s = true → ∃ t, exec (.ptpPdelayReqSend p) s = .next t ∧ t.objs = s.objs ∧ t.free = s.free + 1 ∧
    (p < s.tim.ports.length → ∃ x q, t.tim.ports[p]? = some x ∧ q = ((s.tim.ports.getD p PtpPort.init).pdSeq + 1) % 65536 ∧ x.pdSeq = q ∧
      x.pdT1 = some (stAt (32 * s.tick + Config.freeNat s.free % 32) s) ∧ x.out = [ptpMsg 2 q 0 0 s])) ∧
  (∀ (p : Nat) (s : State), ptpOn p s = false → exec (.ptpPdelayReqSend p) s = .next s) ∧
  (∀ (h : PtpHdr) (s : State), ptpTakes ptpMacPeer h s = true → ∃ t, exec (.ptpPdelayReqRx h) s = .next t ∧ t.objs = s.objs ∧ t.free = s.free + 1 ∧
    (h.port < s.tim.ports.length → ∃ x, t.tim.ports[h.port]? = some x ∧ x.out = [ptpMsg 3 h.seq h.ident (stAt (32 * s.tick + h.frac % 32) s) s,
      ptpMsg 10 h.seq h.ident (stAt (32 * s.tick + Config.freeNat s.free % 32) s) s])) ∧
  (∀ (h : PtpHdr) (t2 t3 t1 : Nat) (corr : Int) (s : State), ptpTakes ptpMacPeer h s = true → (s.tim.ports.getD h.port PtpPort.init).pdT1 = some t1 →
    (h.seq = (s.tim.ports.getD h.port PtpPort.init).pdSeq → ∃ t, exec (.ptpPdelayRespRx h t2 t3 corr) s = .next t ∧ SameObjs [O.TIM_PTP_PDELAY h.port] s t ∧
      rd (O.TIM_PTP_PDELAY h.port) t =
        (clampI (rndAway ((((stAt (32 * s.tick + h.frac % 32) s : Nat) : Int) - t1 - ((t3 : Int) - t2) - corr) / 2) 65536) 0 0xFFFFFFFF).toNat ∧
      (h.port < s.tim.ports.length → ∃ x, t.tim.ports[h.port]? = some x ∧ x.pdT1 = none ∧ x.known = true)) ∧
    (h.seq ≠ (s.tim.ports.getD h.port PtpPort.init).pdSeq → exec (.ptpPdelayRespRx h t2 t3 corr) s = .next s)) ∧
  (∀ (h : PtpHdr) (t2 t3 : Nat) (corr : Int) (s : State), (s.tim.ports.getD h.port PtpPort.init).pdT1 = none → exec (.ptpPdelayRespRx h t2 t3 corr) s = .next s) ∧
  (∀ (h : PtpHdr) (t2 t3 : Nat) (corr : Int) (s : State), ptpTakes ptpMacPeer h s = false →
    exec (.ptpPdelayReqRx h) s = .next s ∧ exec (.ptpPdelayRespRx h t2 t3 corr) s = .next s) ∧
  (∀ (mac : Nat) (h : PtpHdr) (s : State), ptpTakes mac h s = true ↔ ptpOn h.port s = true ∧ h.etype = 0x88F7 ∧ h.mac = mac ∧ h.domain = rd O.TIM_PTP_DOMAIN s ∧
    (h.vlan = none ∨ (rd O.TIM_PTP_VLAN s ≠ 0xFFFF ∧ h.vlan = some (rd O.TIM_PTP_VLAN s)))) ∧
  (∀ (p : Nat × Nat) (s : State), isApex s = true → s.tim.master = some p → ∃ t u v w d ann syn, exec .ptpAnnounceTimeout s = .next t ∧
    d = ms (1000 * rd O.TIM_PTP_ANNOUNCE_TO s) ∧ ann = ((s.tim.masters.find? fun m => m.port == p.1 && m.ident == p.2).map (·.last)).getD s.tick + d ∧
    (∀ q, s.tim.stSync = some q → syn = q + d) ∧ (s.tim.stSync = none → syn = ann) ∧ u = advTo (min ann syn) s ∧
    v = { u with tim := { u.tim with masters := s.tim.masters.filter fun m => u.tick < m.last + d } } ∧
    w = (if syn ≤ u.tick ∧ 1 ≤ rd O.TIM_ST_STATE s ∧ rd O.TIM_ST_STATE s ≤ 3 then stGo 4 v else v) ∧
    t = if v.tim.masters = [] then { w with tim := { w.tim with master := none } } else selectMaster w) ∧
  (∀ s : State, isApex s = false ∨ s.tim.master = none → exec .ptpAnnounceTimeout s = .next s)

/-- Station time at the apex. A jump confirmed at the first Sync, without ALLOW_STEP, counts and begins a slew: time does not step, the tracked rate is kept aside, and the slew ends after |e| at the slew rate, with the planned course held. At its end the tracked rate returns, and SLEWING becomes LOCKED. TIM_ST_HOLD_LIMIT in HOLDOVER sets HOLD_EXPIRED. Syntonisation holds the latest rates and, as master, enabled and LOCKED, steers the valve rate, which moves no time. Outside ROM service mode ALLOW_STEP allows one step, RESTART begins anew in UNLOCKED, and SET_LOCKED, CLEAR_LOCKED, TIM_ST_ADJUST and TIM_ST_INC act in INCREMENT mode, TIM_ST_ADJUST with a step at the next tick; in the other mode they answer STATE, out of range RANGE, and away from the apex all answer STATE. What is not under way changes nothing. -/
def Obligations.StationTimeIsKept : Prop :=
  (∀ (e : Int) (s : State), rd O.TIM_ST_CONFIRM s = 1 → rd O.TIM_ST_OUTLIER s < (nsOff e).natAbs → s.tim.stAllow = false → rd O.TIM_ST_OUTLIERS s < 2 ^ 32 - 1 →
    ∃ t, stLocked e s = t ∧ rd O.TIM_ST_STATE t = 3 ∧ rd O.TIM_ST_OUTLIERS t = rd O.TIM_ST_OUTLIERS s + 1 ∧ t.tim.stF = s.tim.station.inc ∧
      rd O.TIM_ST_JUMPS t = satU 32 (rd O.TIM_ST_JUMPS s + 1) ∧ t.tim.station.at s.tick = (stScale s).at s.tick ∧ t.tim.stCourse = some (nsOff e, 32 * s.tick) ∧
      t.tim.stSlewEnd = some (s.tick + (nsOff e).natAbs * 1000000 * 2 / (rd O.TIM_ST_SLEW_RATE s * 5))) ∧
  (∀ (q : Nat) (s : State), s.tim.stSlewEnd = some q → ∃ t u, exec .stSlewEnd s = .next t ∧ u = advTo q s ∧ t.tick = u.tick ∧ rd O.TIM_ST_INC t = s.tim.stF ∧
    t.tim.station = (stScale u).setInc u.tick s.tim.stF ∧ t.tim.stSlewEnd = none ∧ t.tim.stCourse = none ∧
    rd O.TIM_ST_STATE t = (if rd O.TIM_ST_STATE s = 3 then 2 else rd O.TIM_ST_STATE s)) ∧
  (∀ s : State, s.tim.stSlewEnd = none → exec .stSlewEnd s = .next s) ∧
  (∀ (q : Nat) (s : State), s.tim.stHoldSince = some q → ∃ t, exec .stHoldLimit s = .next t ∧ Reached (q + ms (1000 * rd O.TIM_ST_HOLD_LIMIT s)) s t ∧
    rdBit O.TIM_ST_QUALITY 4 t = true ∧ SameObjs [O.TIM_ST_QUALITY] s t) ∧
  (∀ s : State, s.tim.stHoldSince = none → exec .stHoldLimit s = .next s) ∧
  (∀ s : State, isApex s = true → rd O.TIM_VT_SYNTONISE s = 0 ∨ rd O.TIM_ST_STATE s ≠ 2 ∨ rd O.TIM_VT_ROLE s ≠ 1 → exec .syntonise s =
    .next { s with tim := { s.tim with synt := ((s.tick, s.tim.station.inc) :: s.tim.synt).take 16 } }) ∧
  (∀ s : State, isApex s = true → rd O.TIM_VT_SYNTONISE s ≠ 0 → rd O.TIM_ST_STATE s = 2 → rd O.TIM_VT_ROLE s = 1 → ∃ t f, exec .syntonise s = .next t ∧
    t.tim.valve = s.tim.valve.setInc s.tick (incOf f) ∧ rd O.TIM_VT_INC t = incOf f ∧ t.tim.station = s.tim.station ∧ SameObjs [O.TIM_VT_INC] s t ∧
    t.tim.synt = ((s.tick, s.tim.station.inc) :: s.tim.synt).take 16) ∧
  (∀ s : State, isApex s = false → exec .syntonise s = .next s) ∧
  (∀ s : State, rd O.SYS_RECOVERY s = 0 → isApex s = true → exec .stAllowStep s = .next { s with tim := { s.tim with stAllow := true }, resp := [stOk] }) ∧
  (∀ s : State, rd O.SYS_RECOVERY s = 0 → isApex s = true → ∃ u, exec .stRestart s = .next (answer stOk [] (stGo 0 u)) ∧
    u = { s with tim := { s.tim with stPrev := none, stGood := 0, stSlewEnd := none, stCourse := none } }) ∧
  (∀ s : State, rd O.SYS_RECOVERY s = 0 → isApex s = true → (rd O.TIM_ST_MODE s = 0 → exec .stSetLocked s = .next (answer stOk [] (stGo 2 s)) ∧ exec .stClearLocked s = .next (answer stOk [] (stGo 0 s))) ∧
    (rd O.TIM_ST_MODE s ≠ 0 → exec .stSetLocked s = .next (refusedState stState s) ∧ exec .stClearLocked s = .next (refusedState stState s))) ∧
  (∀ (st : Nat) (s : State), st ≤ 4 → rd O.TIM_ST_STATE (stGo st s) = st ∧ rdBit O.TIM_ST_QUALITY 1 (stGo st s) = (st == 2) ∧ rdBit O.TIM_ST_QUALITY 2 (stGo st s) = (st == 3) ∧
    rdBit O.TIM_ST_QUALITY 3 (stGo st s) = (st == 4) ∧ SameObjs [O.TIM_ST_STATE, O.TIM_ST_QUALITY] s (stGo st s)) ∧
  (∀ (v : Int) (s : State), rd O.SYS_RECOVERY s = 0 → isApex s = true → -(2 ^ 63) ≤ v → v < 2 ^ 63 →
    (rd O.TIM_ST_MODE s = 0 → exec (.timStAdjust v) s = .next { s with tim := { s.tim with stAdj := s.tim.stAdj ++ [(s.tick + 1, v * 2 ^ 30)] }, resp := [stOk] }) ∧
    (rd O.TIM_ST_MODE s ≠ 0 → exec (.timStAdjust v) s = .next (refusedState stState s))) ∧
  (∀ (v : Int) (s : State), v < -(2 ^ 63) ∨ 2 ^ 63 ≤ v → exec (.timStAdjust v) s = .next (refusedState stRange s)) ∧
  (∀ (v : Nat) (s : State), rd O.SYS_RECOVERY s = 0 → isApex s = true → 2683817689 ≤ v → v ≤ 2684891431 → (rd O.TIM_ST_MODE s = 0 → ∃ t, exec (.timStInc v) s = .next t ∧
      rd O.TIM_ST_INC t = v ∧ SameObjs [O.TIM_ST_INC] s t ∧ t.tim.station = (stScale s).setInc s.tick v ∧ t.resp = [stOk]) ∧
    (rd O.TIM_ST_MODE s ≠ 0 → exec (.timStInc v) s = .next (refusedState stState s))) ∧
  (∀ (v : Nat) (s : State), rd O.SYS_RECOVERY s = 0 → isApex s = true → rd O.TIM_ST_MODE s = 0 → v < 2683817689 ∨ 2684891431 < v →
    exec (.timStInc v) s = .next (refusedState stRange s)) ∧
  (∀ (v : Nat) (s : State), isApex s = false → exec .stAllowStep s = .next (refusedState stState s) ∧ exec .stRestart s = .next (refusedState stState s) ∧
    exec .stSetLocked s = .next (refusedState stState s) ∧ exec .stClearLocked s = .next (refusedState stState s) ∧
    exec (.timStAdjust 0) s = .next (refusedState stState s) ∧ exec (.timStInc v) s = .next (refusedState stState s))

/-- Side states and claims. RED_CMD: in a cell it answers BLOCK_OFF, in ROM service mode STATE, and outside its state STATE. In its state RETURN goes to SERVICE and counts where the side is in step long enough, RESTORE goes to STARTING where the law engine is not in FAULT and no arm served is deblocked, and both answer OK without effect where that does not hold; DEMOTE goes to DEMOTED with decision 7; CLEAR_COUNTERS sets the counters of Table 7.15 to 0. A base is the least of the state's limit and the parent base; a changed one is planned for its K_X, an unchanged one changes nothing. A notice is refused unless it comes to a node from its parent on its own side, STATE in ROM service mode, RANGE for a claim base that Table 7.1 does not list; taken, its claim and K_X are shown, and the base follows from the first period of which nothing has gone, counted late where that is not K_X. Ten milliseconds without a notice make the parent base 0x2 and its health 0. A notice sent to each child carries the planned claim and K_X. The published health is the one evaluated last, at most once in a millisecond. The end of a revert hold evaluates the rows of RETURNING. What is not under way changes nothing. -/
def Obligations.SideStatesAndClaims : Prop :=
  (∀ s : State, isNode s = false → exec .redCmdReturn s = .next (refusedState stBlockOff s) ∧ exec .redCmdRestore s = .next (refusedState stBlockOff s) ∧
    exec .redCmdDemote s = .next (refusedState stBlockOff s) ∧ exec .redCmdClearCounters s = .next (refusedState stBlockOff s)) ∧
  (∀ s : State, isNode s = true → rd O.SYS_RECOVERY s ≠ 0 → exec .redCmdReturn s = .next (refusedState stState s) ∧ exec .redCmdRestore s = .next (refusedState stState s) ∧
    exec .redCmdDemote s = .next (refusedState stState s) ∧ exec .redCmdClearCounters s = .next (refusedState stState s)) ∧
  (∀ s : State, isNode s = true → rd O.SYS_RECOVERY s = 0 →
    (rd O.RED_STATE s ≠ 3 → exec .redCmdReturn s = .next (refusedState stState s)) ∧
    (rd O.RED_STATE s ≠ 4 → exec .redCmdRestore s = .next (refusedState stState s)) ∧
    (rd O.RED_STATE s ≠ 1 → exec .redCmdDemote s = .next (refusedState stState s)) ∧
    (rd O.RED_STATE s = 3 → rd O.RED_INSTEP_PERIODS s ≤ rd O.RED_INSTEP_RUN s → exec .redCmdReturn s =
      .next (answer stOk [] (redTo 1 (kNow s + rd O.RED_XOVER_LEAD s) (bump O.RED_RETURNS s)))) ∧
    (rd O.RED_STATE s = 3 → rd O.RED_INSTEP_RUN s < rd O.RED_INSTEP_PERIODS s → exec .redCmdReturn s = .next (answer stOk [] s)) ∧
    (rd O.RED_STATE s = 4 → rd O.LAW_STATE s ≠ 4 → servesAny s = false → exec .redCmdRestore s = .next (answer stOk [] (redTo 0 (kNow s + 2) s))) ∧
    (rd O.RED_STATE s = 4 → rd O.LAW_STATE s = 4 ∨ servesAny s = true → exec .redCmdRestore s = .next (answer stOk [] s)) ∧
    (rd O.RED_STATE s = 1 → ∃ t u, exec .redCmdDemote s = .next (answer stOk [] t) ∧ t = redTo 2 (kNow s + rd O.RED_XOVER_LEAD s) u ∧
      rd O.RED_LAST_DECISION u = 7 ∧ OnlyObjs [O.RED_LAST_DECISION] s u) ∧
    (∃ t, exec .redCmdClearCounters s = .next t ∧ Wrote redCounters s t ∧ ∀ k ∈ redCounters, rd k t = 0)) ∧
  (∀ (kx b : Nat) (s : State), b = min (redLimit (rd O.RED_STATE s)) (parentBase s) →
    (∀ p, s.red.basePend = some p → (b = p.1 → setBase kx s = s) ∧ (b ≠ p.1 → ∃ t, t = setBase kx s ∧ t.red = { s.red with basePend := some (b, kx) } ∧ t.objs = s.objs)) ∧
    (s.red.basePend = none → (b = s.red.base → setBase kx s = s) ∧
      (b ≠ s.red.base → ∃ t, t = setBase kx s ∧ t.red = { s.red with basePend := some (b, kx) } ∧ t.objs = s.objs))) ∧
  (∀ (st : Nat) (s : State), min (redLimit st) (parentBase s) ≤ parentBase s ∧ claimHealth s ≤ parentHealth s ∧ min (redLimit 4) (parentBase s) = 0 ∧
    min (redLimit 2) (parentBase s) ≤ 4 ∧ (isApex s = false → s.red.noticeLost = false → parentBase s = rd O.RED_PARENT_CLAIM s / 4096 % 16)) ∧
  (∀ (src claim kx : Nat) (side : Bool) (s : State), isNode s = false → exec (.redParentClaim src side claim kx) s = .next (refusedState stBlockOff s)) ∧
  (∀ (src claim kx : Nat) (side : Bool) (s : State), isNode s = true → isApex s = true ∨ src ≠ s.tree.parent ∨ side ≠ sideB s →
    exec (.redParentClaim src side claim kx) s = .next (refusedState stRights s)) ∧
  (∀ (src claim kx : Nat) (s : State), isNode s = true → isApex s = false → src = s.tree.parent →
    (rd O.SYS_RECOVERY s ≠ 0 → exec (.redParentClaim src (sideB s) claim kx) s = .next (refusedState stState s)) ∧
    (rd O.SYS_RECOVERY s = 0 → claimOk claim = false ∨ 65536 ≤ claim ∨ 2 ^ 64 ≤ kx → exec (.redParentClaim src (sideB s) claim kx) s = .next (refusedState stRange s)) ∧
    (rd O.SYS_RECOVERY s = 0 → claim < 65536 → claimOk claim = true → kx < 2 ^ 64 →
      ∃ t u, exec (.redParentClaim src (sideB s) claim kx) s = .next (answer stOk [] t) ∧ u = updRed (fun r => { r with noticeAt := some s.tick, noticeLost := false })
          (wr O.RED_PARENT_KX kx (wr O.RED_PARENT_CLAIM claim s)) ∧
        (noticeK kx u = kx → t = redEval (setBase kx u)) ∧ (noticeK kx u ≠ kx → t = redEval (setBase (noticeK kx u) (bump O.RED_NOTICE_LATE u))))) ∧
  (∀ (x : Nat) (s : State), isNode s = true → isApex s = false → s.red.noticeAt = some x → ∃ t u, exec .noticeTimeout s = .next t ∧ t = setBase (kNow s + 1) u ∧
    Reached (x + ms 10) s u ∧ u.red.noticeLost = true ∧ parentBase u = 2 ∧ parentHealth u = 0 ∧ u.objs = s.objs) ∧
  (∀ s : State, isNode s = false ∨ isApex s = true ∨ s.red.noticeAt = none → exec .noticeTimeout s = .next s) ∧
  (∀ s : State, isNode s = true → exec .claimNoticeSend s = .next (each s.tree.kids (fun c => sendFrame 5 0 false (nodeAddr c.2) (sideB s) true false (.obj (noticeMsg c.2 s)) [c.1]) s) ∧
    (∀ c, (noticeMsg c s).data = beBytes 2 (noticeClaim s).1 ++ beBytes 8 (noticeClaim s).2) ∧ (∀ p, s.red.basePend = some p → noticeClaim s = (p.1 * 4096 + claimHealth s, p.2)) ∧
    (s.red.basePend = none → (noticeClaim s).1 = s.red.base * 4096 + claimHealth s)) ∧
  (∀ s : State, isNode s = false → exec .claimNoticeSend s = .next s ∧ exec .healthUpdate s = .next s) ∧
  (∀ s : State, isNode s = true → ∃ t, exec .healthUpdate s = .next t ∧ (∀ x, s.red.healthAt = some x → Reached (x + ms 1) s t) ∧ (s.red.healthAt = none → t.tick = s.tick) ∧
    rd O.RED_HEALTH t = s.red.health ∧ SameObjs [O.RED_HEALTH] s t ∧ t.red.healthAt = some t.tick) ∧
  (∀ (x : Nat) (s : State), s.red.revertEnd = some x → rd O.RED_STATE s = 3 → ∃ t u, exec .revertHoldExpiry s = .next t ∧ t = redEval u ∧ u.tick = max s.tick (tickOfVt x s) ∧
    rd O.RED_REVERT_LEFT u = 0 ∧ OnlyObjs [O.RED_REVERT_LEFT] (advVt x s) u) ∧
  (∀ s : State, rd O.RED_STATE s ≠ 3 ∨ s.red.revertEnd = none → exec .revertHoldExpiry s = .next s)

/-- Digests and the plausibility check. The digest of the oldest period without one goes once: after every output of the period or at E(k) - G, with the verdict of a window that has ended and with the period's image captured; then the two are compared and a decision is tried. A digest received in DUPLEX is kept as the duplicate's, sets RED_PEER_CLAIM, evaluates source 215, is compared, starts a window where it says the duplicate checks and both sides are in SERVICE, gives the duplicate's verdict, completes an image of no bytes, and evaluates the side state; in SIMPLEX it raises source 215 alone. A digest missing at E(k + 1) is counted and closes its period. A period with an abandoned side or own inputs does not count; one with another upstream counts as clean and in RED_UPSTREAM_DIFF; an equal one ends the run of mismatches, and its summaries may differ; any other counts as a mismatch. A window has RED_CHECK_PERIODS periods and ends in a verdict, FAIL where an input failed in more than half of them; without the duplicate's verdict at E(CHECK_END + 1) this side decides alone: FAIL demotes it by code 1, PASS leaves it. Verdicts decide by Table 7.8. What is not under way changes nothing. INPUTS, CADDY and WIRING. The leader of the latest period that awaits its law start, with a graph in DUPLEX, sends the ADC words of its inputs in frames of at most 128, P0 and P1 then start their next frame; a node takes the words it receives by their period, the latest eight. The leader sends its image after its DIGEST in fragments of 512 bytes, with no earlier one still to send. A fragment counts for the follower of its period, where the period is later than the one applied last and not discarded: the image of an earlier period is late, a fragment of an earlier period than the one under way changes nothing, with a graph one of a period whose successor has been evaluated is late, and any other is put together. An image that goes on past RED_CADDY_SIZE, or ends elsewhere, is discarded and counted; one of a single fragment is complete with it, is compared with the own image and waits to be applied. A late image is counted and ends the in-step run. RED_CADDY_LIST is written with its size in the state that serves no deblocked arm; in a cell it answers BLOCK_OFF, in ROM service mode or with a deblocked arm STATE, beyond entry 31 NO_OBJECT. Once enumeration is complete the wiring record goes to the duplicate every 100 ms; one received sets RED_WIRING_DIFF and evaluates source 202, and sets the own bit at the apex or, when it is the first or changes the difference, is reported to it. A difference has a bit for each downlink that differs, all of them where number or level do. What is not under way changes nothing. -/
def Obligations.DigestsInputsAndCaddy : Prop :=
  ((∀ (w : PeriodWork) (s : State), isNode s = true → isDuplex s = true → digestDue s = some w →
    ∃ t a b c v, exec .digestLaunch s = .next t ∧ a = (if workDone w s then s else advVt (eOf w.k s - gOf w.k s) s) ∧
      ((∃ x, a.red.check = some x ∧ x.last ≤ w.k) → b = setVerdict a) ∧ ((∀ x, a.red.check = some x → w.k < x.last) → b = a) ∧
      c = (if (aget b.red.images w.k).isNone then caddyCapture w.k b else b) ∧
      v = updRed (fun r => { r with check := r.check.map (fun x => { x with sent := x.sent || (digestOf w c).verdict != 0 }), lastCheck := none }) c ∧
      t = tryDecide (comparePair w.k (updPair w.k (fun p => { p with own := some (digestOf w c) })
        (sendFrame 7 0 true (nodeAddr (nodeNum v)) (!sideB v) true false (.digest (digestOf w c)) [peerLane v] v)))) ∧
  (∀ (w : PeriodWork) (s : State), (digestOf w s).period = w.k % 2 ^ 32 ∧ (digestOf w s).claim = w.claim ∧ (digestOf w s).state = rd O.RED_STATE s ∧
    (s.red.check = none → s.red.lastCheck = none → (digestOf w s).verdict = 0) ∧ (digestOf w s).checking = s.red.check.isSome ∧
    (digestOf w s).dOut = digestCrc (byLane w.out ++ byLane w.refOut)) ∧
  (∀ s : State, isNode s = false ∨ isDuplex s = false ∨ digestDue s = none → exec .digestLaunch s = .next s) ∧
  (digestCrc [] = 0 ∧ ∀ b, b ≠ [] → digestCrc b = crc32c b) ∧
  (∀ (d : Digest) (k : Nat) (s : State), isNode s = true → isDuplex s = true → k = periodOf32 d.period s →
    ∃ t u v w x y, exec (.digestRx d) s = .next t ∧
      u = { s with objs := u.objs, red := { s.red with digestAt := some s.tick, peerState := d.state, peerPrimaryB := if isApex s then some d.primaryB else none } } ∧
      rd O.RED_PEER_CLAIM u = d.claim ∧ SameObjs [O.RED_PEER_CLAIM] s u ∧
      v = configLive ((isApex u && d.primaryB != (rd O.RED_PRIMARY_SIDE u == 1)) || (hasGraph u && d.bankCrc != 0 && d.bankCrc != bankCrc u)) u ∧
      ((∃ p, pair? k v = some p ∧ p.done = true) → w = comparePair k v) ∧
      ((∀ p, pair? k v = some p → p.done = false) → w = comparePair k (updPair k (fun p => { p with peer := some d }) v)) ∧
      x = (if d.checking = true ∧ mayCheck w = true ∧ w.red.lastEnd < k then startCheck (k + 1) w else w) ∧
      y = (if d.verdict ≠ 0 ∧ x.red.check.isSome = true then updRed (fun r => { r with peerVerdict := some (d.verdict, d.misses, periodOf32 d.checkEnd x) }) x else x) ∧
      t = redEval (emptyImage k d (tryDecide y))) ∧
  (∀ (d : Digest) (s : State), isNode s = true → isDuplex s = false → exec (.digestRx d) s =
    .next (configLive false (updRed (fun r => { r with simplexAt := some s.tick }) s))) ∧
  (∀ (d : Digest) (s : State), isNode s = false → exec (.digestRx d) s = .next s) ∧
  (∀ (p : DigestPair) (s : State), isNode s = true → isDuplex s = true → (s.red.pairs.reverse.find? fun x => !x.done && x.own.isSome && x.peer.isNone) = some p →
    ∃ t, exec .digestDeadline s = .next t ∧ t.tick = max s.tick (tickOfVt (eOf (p.k + 1) s) s) ∧ rd O.RED_DIGEST_MISSING t = satU 32 (rd O.RED_DIGEST_MISSING s + 1) ∧
      SameObjs [O.RED_DIGEST_MISSING] s t ∧ t.red.pairs = s.red.pairs.map (fun x => if x.k = p.k then { x with done := true } else x)) ∧
  (∀ s : State, isNode s = false ∨ isDuplex s = false ∨ (s.red.pairs.reverse.find? fun x => !x.done && x.own.isSome && x.peer.isNone) = none → exec .digestDeadline s = .next s) ∧
  (∀ (p : DigestPair) (a b : Digest) (s : State), pair? p.k s = some p → p.own = some a → p.peer = some b → p.done = false →
    (a.abandoned = true ∨ b.abandoned = true ∨ a.ownInputs = true ∨ b.ownInputs = true → (comparePair p.k s).objs = s.objs) ∧
    (a.abandoned = false → b.abandoned = false → a.ownInputs = false → b.ownInputs = false →
      (a.dRefIn ≠ b.dRefIn → rd O.RED_UPSTREAM_DIFF (comparePair p.k s) = satU 32 (rd O.RED_UPSTREAM_DIFF s + 1) ∧ rd O.RED_MISMATCH_CONSEC (comparePair p.k s) = 0 ∧
        SameObjs [O.RED_UPSTREAM_DIFF, O.RED_MISMATCH_CONSEC] s (comparePair p.k s)) ∧
      (a.dRefIn = b.dRefIn → a.dOut = b.dOut → a.dLaw = b.dLaw → a.inDisc = false → b.inDisc = false → rd O.RED_MISMATCH_CONSEC (comparePair p.k s) = 0 ∧
        SameObjs [O.RED_SUM_DIFF, O.RED_MISMATCH_CONSEC] s (comparePair p.k s) ∧ (a.dSum ≠ b.dSum → rd O.RED_SUM_DIFF (comparePair p.k s) = satU 32 (rd O.RED_SUM_DIFF s + 1))) ∧
      (a.dRefIn = b.dRefIn → a.dOut ≠ b.dOut ∨ a.dLaw ≠ b.dLaw ∨ a.inDisc = true ∨ b.inDisc = true → rd O.RED_STATE s ≠ 1 →
        rd O.RED_MISMATCHES (comparePair p.k s) = satU 32 (rd O.RED_MISMATCHES s + 1) ∧ rd O.RED_MISMATCH_CONSEC (comparePair p.k s) = satU 16 (rd O.RED_MISMATCH_CONSEC s + 1) ∧
        SameObjs [O.RED_MISMATCHES, O.RED_MISMATCH_CONSEC] s (comparePair p.k s)))) ∧
  (∀ (k : Nat) (s : State), ∃ c, (startCheck k s).red.check = some c ∧ c.start = k ∧ c.last = k + rd O.RED_CHECK_PERIODS s - 1 ∧ rd O.RED_CHECK_STATE (startCheck k s) = 1 ∧
    rd O.RED_VERDICT (startCheck k s) = 0 ∧ SameObjs [O.RED_CHECK_STATE, O.RED_VERDICT] s (startCheck k s)) ∧
  (∀ (c : CheckSt) (s : State), s.red.check = some c → exec .checkWindowEnd s = .next (tryDecide (setVerdict (advVt (pOf (c.last + 1) s) s)))) ∧
  (∀ (c : CheckSt) (s u : State), s.red.check = some c → rd O.RED_CHECK_STATE s = 1 → s.red.peerVerdict = none → u = advVt (pOf (c.last + 1) s) s →
    ∃ t, exec .checkWindowEnd s = .next t ∧ t.tick = u.tick ∧ rd O.RED_CHECK_STATE t = 2 ∧
      rd O.RED_VERDICT t = (if hasGraph s = true ∧ c.fails.any (fun f => decide (2 * f.2 > c.last + 1 - c.start)) = true then 2 else 1) ∧ SameObjs [O.RED_VERDICT, O.RED_CHECK_STATE] s t) ∧
  (∀ s : State, s.red.check = none → exec .checkWindowEnd s = .next s ∧ exec .checkVerdictTimeout s = .next s) ∧
  (∀ (c : CheckSt) (s : State), s.red.check = some c → s.red.peerVerdict ≠ none → exec .checkVerdictTimeout s = .next s) ∧
  (∀ (c : CheckSt) (s : State), s.red.check = some c → s.red.peerVerdict = none → ∃ t u v, exec .checkVerdictTimeout s = .next t ∧ u = setVerdict (advVt (eOf (c.last + 1) s) s) ∧
    v.tick = max s.tick (tickOfVt (eOf (c.last + 1) s) s) ∧ rd O.RED_CHECK_INCOMPLETE v = satU 32 (rd O.RED_CHECK_INCOMPLETE s + 1) ∧ rd O.RED_VERDICT v = rd O.RED_VERDICT u ∧
    rd O.RED_CHECKS v = satU 32 (rd O.RED_CHECKS s + 1) ∧ rd O.RED_CHECK_STATE v = 0 ∧ rd O.RED_MISMATCH_CONSEC v = 0 ∧ v.red.check = none ∧
    (rd O.RED_VERDICT u = 2 → rd O.RED_LAST_DECISION v = 1) ∧ (rd O.RED_VERDICT u ≠ 2 → rd O.RED_LAST_DECISION v = rd O.RED_LAST_DECISION s) ∧
    SameObjs [O.RED_CHECK_INCOMPLETE, O.RED_CHECKS, O.RED_CHECK_STATE, O.RED_MISMATCH_CONSEC, O.RED_LAST_DECISION, O.RED_VERDICT] s v ∧
    t = if rd O.RED_VERDICT u = 2 then decided 2 (c.last + rd O.RED_XOVER_LEAD s) v else v) ∧
  (∀ s : State, s.red.check = none ∨ s.red.peerVerdict = none → tryDecide s = s) ∧
  (∀ (kx : Nat) (s : State), (rd O.RED_STATE s = 1 → decided 2 kx s = redTo 2 kx s) ∧ (rd O.RED_STATE s ≠ 1 → decided 2 kx s = s)) ∧
  (∀ (m n both : Nat) (f : Bool), checkOutcome 2 1 m n both f = (2, 1) ∧ checkOutcome 1 2 m n both f = (0, 2) ∧
    checkOutcome 2 2 m n 0 f = (2, 3) ∧ checkOutcome 2 2 m n 1 f = (4, 3) ∧ (n < m → checkOutcome 1 1 m n both f = (2, 4)) ∧ (m < n → checkOutcome 1 1 m n both f = (0, 4)) ∧
    checkOutcome 1 1 m m both true = (2, 5) ∧ checkOutcome 1 1 m m both false = (0, 5))) ∧
  ((∀ (w : LawWait) (s : State), s.law.waits.getLast? = some w → hasGraph s = true → isDuplex s = true → w.role = 1 → ∃ t u v, exec .inputsSend s = .next t ∧
    u = updLaw (fun l => { l with waits := l.waits.map fun x => x.fill s }) s ∧
    v = each (inputFrames (w.fill u) (rd O.LAW_INPUTS u)) (fun f => sendMirror 1 (.inputs f)) u ∧
    t = startTx laneP1 (startTx laneP0 { v with red := { v.red with inputsK := w.k } })) ∧
  (∀ (w : LawWait) (n : Nat), (inputFrames w n).length = (n + 127) / 128 ∧ ∀ f ∈ inputFrames w n, f.words.length ≤ 128 ∧ f.first + f.words.length ≤ n ∧ f.period = w.k % 2 ^ 32) ∧
  (∀ s : State, s.law.waits = [] ∨ hasGraph s = false ∨ isDuplex s = false ∨ (∃ w, s.law.waits.getLast? = some w ∧ w.role ≠ 1) → exec .inputsSend s = .next s) ∧
  (∀ (p : Inputs) (s : State), isNode s = true → isDuplex s = true → ∃ t, exec (.inputsRx p) s = .next t ∧ t = { s with red := { s.red with inputs := t.red.inputs } } ∧
    t.red.inputs.length ≤ 8 ∧ ∃ l, t.red.inputs.head? = some (periodOf32 p.period s, l) ∧ ∀ j, j < p.words.length → aget l (p.first + j) = some (p.words.getD j 0)) ∧
  (∀ (p : Inputs) (s : State), isNode s = false ∨ isDuplex s = false → exec (.inputsRx p) s = .next s) ∧
  (∀ (k : Nat) (img : List Nat) (s : State), isNode s = true → isDuplex s = true → caddySends s = true → caddyBusy s = false → imageDue s = some (k, img) → roleFor k s = 1 →
    ∃ t u, exec .caddySend s = .next t ∧ t = each (caddyParts k img) (fun f => sendMirror 2 (.caddy f)) u ∧ u = { s with red := { s.red with sentK := k, caddyK := k } }) ∧
  (∀ (k : Nat) (img : List Nat), (caddyParts k img).flatMap (fun p => p.bytes) = img ∧ ∀ p ∈ caddyParts k img, p.bytes.length ≤ 512) ∧
  (∀ s : State, isNode s = false ∨ isDuplex s = false ∨ caddySends s = false ∨ caddyBusy s = true ∨ imageDue s = none ∨ (∃ k img, imageDue s = some (k, img) ∧ roleFor k s ≠ 1) →
    exec .caddySend s = .next s) ∧
  (∀ (k : Nat) (c : CaddyPart) (s : State), k = periodOf32 c.period s → isNode s = false ∨ isDuplex s = false ∨ roleFor k s ≠ 2 ∨ s.red.lostK = some k ∨ k ≤ s.red.caddyK →
    exec (.caddyRx c) s = .next s) ∧
  (∀ (k : Nat) (c : CaddyPart) (s : State), isNode s = true → isDuplex s = true → k = periodOf32 c.period s → roleFor k s = 2 → s.red.lostK ≠ some k → s.red.caddyK < k →
    ∃ t u, exec (.caddyRx c) s = .next t ∧ (∀ r, s.red.rx = some r → r.k < k → u = caddyLate r.k s) ∧ ((∀ r, s.red.rx = some r → k ≤ r.k) → u = s) ∧
      ((∃ r, u.red.rx = some r ∧ k < r.k) → t = u) ∧
      ((∀ r, u.red.rx = some r → r.k ≤ k) → (hasGraph s = true → k < s.red.evalK → t = caddyLate k u) ∧ (hasGraph s = false ∨ s.red.evalK ≤ k → t = caddyPart k c u))) ∧
  (∀ (k : Nat) (c : CaddyPart) (s : State),
    (rd O.RED_CADDY_SIZE s < c.first + c.bytes.length ∨ (c.bytes.length < 512 ∧ c.first + c.bytes.length < rd O.RED_CADDY_SIZE s) → ∃ t, t = caddyPart k c s ∧
      rd O.RED_CADDY_REJECT t = satU 32 (rd O.RED_CADDY_REJECT s + 1) ∧ SameObjs [O.RED_CADDY_REJECT] s t ∧ t.red.lostK = some k ∧ t.red.rx = none) ∧
    (c.first = 0 → c.bytes.length = rd O.RED_CADDY_SIZE s → c.bytes ≠ [] → c.bytes.length < 512 → s.red.rx = none → s.red.ready = none → ∃ t u, t = caddyPart k c s ∧
      t = updRed (fun r => { r with rx := none, ready := some (k, c.bytes) }) u ∧ OnlyObjs [O.RED_INSTEP_RUN] s u ∧
      rd O.RED_INSTEP_RUN u = (if (aget s.red.images k).isSome = true ∧ (aget s.red.images k).map digestCrc = (pair? k s).bind (fun p => p.peer.map (·.caddyCrc)) then
        satU 32 (rd O.RED_INSTEP_RUN s + 1) else 0))) ∧
  (∀ (k : Nat) (s : State), ∃ t, t = caddyLate k s ∧ rd O.RED_CADDY_LATE t = satU 32 (rd O.RED_CADDY_LATE s + 1) ∧ rd O.RED_INSTEP_RUN t = 0 ∧
    SameObjs [O.RED_CADDY_LATE, O.RED_INSTEP_RUN] s t ∧ t.red = { s.red with rx := none, lostK := some k }) ∧
  (∀ (n v : Nat) (s : State), isNode s = true → rd O.SYS_RECOVERY s = 0 → n < 32 → v < 2 ^ 64 → (servesAny s = true → exec (.redCaddyList n v) s = .next (refusedState stState s)) ∧
    (servesAny s = false → ∃ t u, exec (.redCaddyList n v) s = .next t ∧ Wrote [O.RED_CADDY_LIST n, O.RED_CADDY_SIZE, O.RED_CADDY_STATUS] s t ∧ rd (O.RED_CADDY_LIST n) t = v ∧
      u = wr (O.RED_CADDY_LIST n) v s ∧ rd O.RED_CADDY_SIZE t = satU 16 (caddySize u))) ∧
  (∀ (n v : Nat) (s : State), n < 32 → (isNode s = false → exec (.redCaddyList n v) s = .next (refusedState stBlockOff s)) ∧
    (isNode s = true → rd O.SYS_RECOVERY s ≠ 0 → exec (.redCaddyList n v) s = .next (refusedState stState s))) ∧
  (∀ (n v : Nat) (s : State), 32 ≤ n → exec (.redCaddyList n v) s = .next (refusedState stNoObject s)) ∧
  (∀ s : State, isNode s = true → isDuplex s = true → rd O.TREE_ENUM_STATUS s = 2 → ∃ t u, exec .wiringSend s = .next t ∧
    t = sendFrame 7 3 true (nodeAddr (nodeNum u)) (!sideB u) true false (.wiring (ownWiring u)) [peerLane u] u ∧ u.objs = s.objs ∧ u.red = { s.red with wiringAt := some u.tick } ∧
    (∀ x, s.red.wiringAt = some x → u.tick = max s.tick (x + ms 100)) ∧ (s.red.wiringAt = none → u.tick = s.tick)) ∧
  (∀ (w : Wiring) (s : State), isNode s = true → isDuplex s = true → rd O.TREE_ENUM_STATUS s = 2 → ∃ t u v, exec (.wiringRx w) s = .next t ∧
    rd O.RED_WIRING_DIFF u = wiringDiff (ownWiring s) w ∧ SameObjs [O.RED_WIRING_DIFF] s u ∧ u = { s with objs := u.objs, red := { s.red with peerWiring := some w } } ∧ v = updWiring u ∧
    (isApex v = true → t = wrBit O.RED_WIRING_NODES 0 (wiringDiff (ownWiring s) w != 0) v) ∧
    (isApex v = false → s.red.peerWiring = none ∨ wiringDiff (ownWiring s) w ≠ rd O.RED_WIRING_DIFF s → t = sendToNode 5 2 0 (sideB v) (.nreport (.wiring (wiringDiff (ownWiring s) w))) v) ∧
    (isApex v = false → s.red.peerWiring ≠ none → wiringDiff (ownWiring s) w = rd O.RED_WIRING_DIFF s → t = v)) ∧
  (∀ (w : Wiring) (s : State), isNode s = false ∨ isDuplex s = false ∨ rd O.TREE_ENUM_STATUS s ≠ 2 → exec .wiringSend s = .next s ∧ exec (.wiringRx w) s = .next s) ∧
  (∀ a b : Wiring, (a.node ≠ b.node ∨ a.level ≠ b.level → wiringDiff a b = 2 ^ 64 - 1) ∧ wiringDiff a a = 0))

/-- Conversions and results. A result word carries run, slice and flags as Table 8.3 lays them out, with BAD the OR of the flags; no code is -32,768, and a mean of one is its rounded and clamped value. A conversion starts on its logical slice with its input, use, instant and number; its end comes 25 ns after the last, when it is delivered, before the slices take work again and a record may be complete; with none on the slice its pair gives the next sample, where it has one. The result of an entry goes to its register, ends the entry in its run, is kept as the last good one unless it is BAD, and is told to the recorder. With a grid and held entries slices take work up to P(k) - 100 ns and no longer. Each entry of the next round of held ones starts 100 ns after the last round, with the sample of its P-mark. A priority request outside ROM service mode is served on an idle slice at the next edge or counted as dropped; beyond input 19 it answers RANGE, in ROM service mode STATE. What is not under way changes nothing. Sequencers and pairs. The end of a run that has no entry left counts it, shows stamp and period, and starts a pending or continuous run and the chained one; a stopped run is not counted; a run with entries left does not end. A run starts with all entries of its list and the next number. A TIMER trigger comes at the next multiple of the interval; a trigger makes a run, a pending trigger or a lost one. START serves the SOFTWARE trigger alone and STOP abandons what has not started, each entry then MISSED. A write of the trigger kind is refused with STATE while the law engine binds the sequencer, and with RANGE above 5, for CHAIN of sequencer 0 and for held entries of another kind than P_MARK; taken, OFF stops the run and CONTINUOUS begins one. A cell's sequencers 0 and 1 and ROM service mode answer STATE, sequencers above 3 and pairs above 1 NO_OBJECT. A pair without both slices answers STATE, an input above 15 or one that R236 or R243 refuse RANGE; turned on it starts at the next point of the period's grid, 0xFF turns it off at the next P-mark. What is not under way changes nothing. -/
def Obligations.ConversionsAndSequencers : Prop :=
  ((∀ (run phys : Nat) (clip opn set_ : Bool) (code : Int), phys < 8 → -32767 ≤ code → code ≤ 32767 →
    toI 16 (resultWord run phys clip opn set_ code % 65536) = code ∧ bit (resultWord run phys clip opn set_ code) 16 = (clip || opn || set_) ∧
    bit (resultWord run phys clip opn set_ code) 17 = set_ ∧ bit (resultWord run phys clip opn set_ code) 18 = opn ∧ bit (resultWord run phys clip opn set_ code) 19 = clip ∧
    bit (resultWord run phys clip opn set_ code) 20 = false ∧ fld (resultWord run phys clip opn set_ code) 23 21 = phys ∧ fld (resultWord run phys clip opn set_ code) 31 24 = run % 256) ∧
  (∀ xs : List Int, -32767 ≤ (meanCode xs).1 ∧ (meanCode xs).1 ≤ 32767) ∧
  (∀ (x : Int), (meanCode [x]).1 = clampI (rndAway x (2 ^ 32)) (-32767) 32767 ∧ ((meanCode [x]).2 = true ↔ rndAway x (2 ^ 32) < -32767 ∨ 32767 < rndAway x (2 ^ 32))) ∧
  (∀ (l input start n sample p : Nat) (use : AdcUse) (held : Bool) (s : State), slicePhys l s = some p → ∃ t c, t = beginConv l input use start n sample held s ∧
    t.adc.convs = s.adc.convs ++ [c] ∧ t.objs = s.objs ∧ t.adc.counts = s.adc.counts.modify l (fun x => x + n) ∧
    c.slice = l ∧ c.phys = p ∧ c.input = input ∧ c.use = use ∧ c.start = start ∧ c.n = n ∧ c.sample = sample ∧ c.held = held) ∧
  (∀ (l : Nat) (cs sh : List Int) (sat : Bool) (c : AdcConv) (s : State), s.adc.convs.find? (fun c => c.slice == l) = some c →
    ∃ t u, exec (.adcConversionEnd l cs sh sat) s = .next (acqComplete (adcNow t)) ∧ t = deliver c cs sh sat u ∧ u = adcNow (advVt ((c.start + 80 * c.n + 21) / 2) s)) ∧
  (∀ (l : Nat) (cs sh : List Int) (sat : Bool) (s : State), s.adc.convs.find? (fun c => c.slice == l) = none →
    exec (.adcConversionEnd l cs sh sat) s = .next (acqComplete (pairSample (l / 2) cs sh sat s))) ∧
  (∀ (p : Nat) (cs sh : List Int) (sat : Bool) (s : State), nextSample p s = none → pairSample p cs sh sat s = s) ∧
  (∀ (n w : Nat) (code : Int) (s : State), (bit w 16 = true → keepGood n w code s = s) ∧
    (bit w 16 = false → keepGood n w code s = { s with adc := { s.adc with good := aset s.adc.good n code } })) ∧
  (∀ (q e run phys n sample w : Nat) (clip opn set_ : Bool) (code : Int) (s : State), w = resultWord run phys clip opn set_ code →
    ∃ u, u = updSeq q (fun x => { x with run := x.run.map fun r => if r.num == run then { r with out := r.out.filter (· != e) } else r }) (keepGood n w code s) ∧
      putResult q e run phys n sample clip opn set_ code s = acqSource (0x1000 + 256 * q + e) w (sample * 81920) (wr (O.ADC_RESULT q e) w u)) ∧
  (∀ s : State, adcReady s = false ∨ hasGrid s = false ∨ holdLayout s = [] → exec .adcHoldReserve s = .next s) ∧
  (∀ s : State, adcReady s = true → hasGrid s = true → holdLayout s ≠ [] → exec .adcHoldReserve s = .next (adcNow (advVt (pOf (kNow s + 1) s - 40) (adcNow s)))) ∧
  (∀ (r : AdcRound) (rest : List AdcRound) (s : State), s.adc.rounds = r :: rest → ∃ t u v, exec .adcHoldRound s = .next (adcNow t) ∧
    u = adcNow (advVt (s.adc.roundAt + 40 * s.adc.roundN) s) ∧ v = { u with adc := { u.adc with rounds := rest, roundN := u.adc.roundN + 1 } } ∧
    t = each r (fun y x => entStarted y.2.1 y.2.2 (2 * s.adc.roundAt + 80 * s.adc.roundN) (2 * s.adc.roundAt)
      (beginConv y.1 (entInput (seqEntry y.2.1 y.2.2 x)) (.entry y.2.1 y.2.2 (((seqSt y.2.1 x).run.map fun r => r.num).getD 0)) (2 * s.adc.roundAt + 80 * s.adc.roundN) 1 (2 * s.adc.roundAt) true
        (updAdc (fun a => { a with heldEnd := aset a.heldEnd (entInput (seqEntry y.2.1 y.2.2 x)) (2 * s.adc.roundAt + 80 * s.adc.roundN + 80) }) x))) v) ∧
  (∀ s : State, s.adc.rounds = [] → exec .adcHoldRound s = .next s) ∧
  (∀ (v : Nat) (s : State), rd O.SYS_RECOVERY s = 0 → (v < 20 → exec (.adcPrioReq v) s = .next (answer stOk [] (prioReq v s))) ∧
    (20 ≤ v → exec (.adcPrioReq v) s = .next (refusedState stRange s))) ∧
  (∀ (v : Nat) (s : State), rd O.SYS_RECOVERY s ≠ 0 → exec (.adcPrioReq v) s = .next (refusedState stState s)) ∧
  (∀ (v : Nat) (s u : State), u = adcCatch 64 (adcEdge (halfNow s) s) s → adcReady u = false ∨ idleSlice (adcEdge (halfNow s) s) u = none → prioReq v s = bump O.ADC_PRIO_DROPPED u) ∧
  (∀ (v l : Nat) (s u : State), u = adcCatch 64 (adcEdge (halfNow s) s) s → adcReady u = true → idleSlice (adcEdge (halfNow s) s) u = some l →
    prioReq v s = beginConv l v (.prio (u.adc.prioN + 1)) (adcEdge (halfNow s) s) 1 (adcEdge (halfNow s) s) false (updAdc (fun a => { a with prioN := u.adc.prioN + 1 }) u))) ∧
  ((∀ (q : Nat) (s : State), exec (.adcRunEnd q) s = .next (adcNow (runEnd q s))) ∧
  (∀ (q : Nat) (s : State), runOver q s = false → runEnd q s = s) ∧
  (∀ (q : Nat) (s : State), runOver q s = true → ∃ u v, u = closeRun q s ∧
    ((seqSt q u).pend = true ∨ seqTrig q u = 4 → v = startRun q none (updSeq q (fun x => { x with pend := false }) u)) ∧ ((seqSt q u).pend = false → seqTrig q u ≠ 4 → v = u) ∧
    (q < 3 → seqTrig (q + 1) v = 5 → runEnd q s = trigSeq (q + 1) v) ∧ (3 ≤ q ∨ seqTrig (q + 1) v ≠ 5 → runEnd q s = v)) ∧
  (∀ (q : Nat) (r : AdcRun) (s : State), q < 4 → s.adc.seqs.length = 4 → (seqSt q s).run = some r → ∃ t, t = closeRun q s ∧ (seqSt q t).run = none ∧
    rd (O.ADC_SEQ_STATE q) t = (if (seqSt q s).pend then 2 else 0) ∧ (r.stopped = true → SameObjs [O.ADC_SEQ_STATE q] s t) ∧
    (r.stopped = false → rd (O.ADC_SEQ_RUNS q) t = (rd (O.ADC_SEQ_RUNS q) s + 1) % 2 ^ 32 ∧ SameObjs [O.ADC_SEQ_RUNS q, O.ADC_SEQ_STATE q, O.ADC_SEQ_STAMP q, O.ADC_SEQ_PERIOD q] s t ∧
      (∀ x, r.stamp = some x → rd (O.ADC_SEQ_STAMP q) t = ts96N (x * 81920)) ∧ (∀ k, r.period = some k → rd (O.ADC_SEQ_PERIOD q) t = k))) ∧
  (∀ (q : Nat) (per : Option Nat) (s : State), q < 4 → s.adc.seqs.length = 4 → ∃ t r, t = startRun q per s ∧ (seqSt q t).run = some r ∧ r.num = ((seqSt q s).started + 1) % 256 ∧
    r.todo = List.range (rd (O.ADC_SEQ_LEN q) s) ∧ r.out = [] ∧ r.stopped = false ∧ r.stamp = none ∧ r.period = per ∧ (seqSt q t).started = (seqSt q s).started + 1 ∧
    rd (O.ADC_SEQ_STATE q) t = (if (seqSt q s).pend then 2 else 1) ∧ SameObjs [O.ADC_SEQ_STATE q] s t) ∧
  (∀ (q : Nat) (s : State), seqTrig q s ≠ 2 → exec (.adcSeqTimer q) s = .next s) ∧
  (∀ (q t : Nat) (s : State), seqTrig q s = 2 → t = (vtTicks s / max 1 (rd (O.ADC_SEQ_TIMER q) s) + 1) * max 1 (rd (O.ADC_SEQ_TIMER q) s) →
    exec (.adcSeqTimer q) s = .next (adcNow (trigSeq q (adcNow (advVt t s))))) ∧
  (∀ (q : Nat) (s : State), q < 4 → s.adc.seqs.length = 4 → adcReady s = true → (seqSt q s).run.isSome = true →
    ((seqSt q s).pend = true → trigSeq q s = bump (O.ADC_SEQ_TRIG_LOST q) s) ∧
    ((seqSt q s).pend = false → rd (O.ADC_SEQ_STATE q) (trigSeq q s) = 2 ∧ (seqSt q (trigSeq q s)).pend = true ∧ SameObjs [O.ADC_SEQ_STATE q] s (trigSeq q s))) ∧
  (∀ (q : Nat) (s : State), (adcReady s = true → (seqSt q s).run = none → trigSeq q s = startRun q none s) ∧ (adcReady s = false → trigSeq q s = s)) ∧
  (∀ (q : Nat) (s : State), rd O.SYS_RECOVERY s = 0 → q < 4 → isNode s = true ∨ 2 ≤ q → (seqTrig q s = 3 → exec (.adcSeqStart q) s = .next (answer stOk [] (adcNow (trigSeq q (adcNow s))))) ∧
    (seqTrig q s ≠ 3 → exec (.adcSeqStart q) s = .next (answer stOk [] s)) ∧ exec (.adcSeqStop q) s = .next (answer stOk [] (stopSeq q false s))) ∧
  (∀ (q : Nat) (off : Bool) (s : State), ∃ u v, u = abandonRun q (adcNow s) ∧
    v = updSeq q (fun x => { x with run := x.run.map (fun r => { r with stopped := true }), pend := x.pend && !off }) u ∧ stopSeq q off s = runEnd q (showSeq q v)) ∧
  (∀ (q : Nat) (s : State), (seqSt q s).run = none → abandonRun q s = s) ∧
  (∀ (q : Nat) (r : AdcRun) (s : State), q < 4 → (seqSt q s).run = some r → (∀ e ∈ r.todo, e < 64) → r.num < 256 → ∃ t, t = abandonRun q s ∧ SameObjs (r.todo.map (O.ADC_RESULT q)) s t ∧
    ∀ e ∈ r.todo, r.todo.Nodup → bit (rd (O.ADC_RESULT q e) t) 20 = true ∧ bit (rd (O.ADC_RESULT q e) t) 16 = true ∧ rd (O.ADC_RESULT q e) t % 65536 = rd (O.ADC_RESULT q e) s % 65536) ∧
  (∀ (q v : Nat) (s : State), q < 2 → isCell s = true → exec (.adcSeqStart q) s = .next (refusedState stState s) ∧ exec (.adcSeqStop q) s = .next (refusedState stState s) ∧
    exec (.adcSeqTrig q v) s = .next (refusedState stState s)) ∧
  (∀ (q v : Nat) (s : State), 4 ≤ q → exec (.adcSeqStart q) s = .next (refusedState stNoObject s) ∧ exec (.adcSeqStop q) s = .next (refusedState stNoObject s) ∧
    exec (.adcSeqTrig q v) s = .next (refusedState stNoObject s)) ∧
  (∀ (q v : Nat) (s : State), q < 4 → rd O.SYS_RECOVERY s ≠ 0 → exec (.adcSeqStart q) s = .next (refusedState stState s) ∧ exec (.adcSeqStop q) s = .next (refusedState stState s) ∧
    exec (.adcSeqTrig q v) s = .next (refusedState stState s)) ∧
  (∀ (q v : Nat) (s : State), q < 4 → isNode s = true → rd O.LAW_STATE s ≠ 0 → lawBinds q s = true → exec (.adcSeqTrig q v) s = .next (refusedState stState s)) ∧
  (∀ (q v : Nat) (s : State), rd O.SYS_RECOVERY s = 0 → q < 4 → isNode s = true ∨ 2 ≤ q → isNode s = false ∨ rd O.LAW_STATE s = 0 ∨ lawBinds q s = false →
    (5 < v ∨ (v = 5 ∧ q = 0) ∨ (2 ≤ v ∧ v ≤ 5 ∧ (List.range (rd (O.ADC_SEQ_LEN q) s)).any (fun e => entHeld (seqEntry q e s)) = true) →
      exec (.adcSeqTrig q v) s = .next (refusedState stRange s)) ∧
    (v ≤ 5 → v ≠ 5 ∨ q ≠ 0 → v < 2 ∨ (List.range (rd (O.ADC_SEQ_LEN q) s)).any (fun e => entHeld (seqEntry q e s)) = false →
      ∃ t u, exec (.adcSeqTrig q v) s = .next (answer stOk [] (adcNow (updCalState t))) ∧ u = wr (O.ADC_SEQ_TRIG q) v (adcNow s) ∧ (v = 0 → t = stopSeq q true u) ∧
        (v = 4 → (seqSt q u).run = none → adcReady u = true → t = startRun q none u) ∧ (v = 4 → (seqSt q u).run.isSome = true ∨ adcReady u = false → t = u) ∧ (v ≠ 0 → v ≠ 4 → t = u))) ∧
  (∀ (p v : Nat) (s : State), 2 ≤ p → exec (.adcPairWrite p v) s = .next (refusedState stNoObject s)) ∧
  (∀ (p v : Nat) (s : State), p < 2 → rd O.SYS_RECOVERY s ≠ 0 → exec (.adcPairWrite p v) s = .next (refusedState stState s)) ∧
  (∀ (p v : Nat) (s : State), p < 2 → rd O.SYS_RECOVERY s = 0 → v ≠ 255 → slicePhys (2 * p) s = none ∨ slicePhys (2 * p + 1) s = none → exec (.adcPairWrite p v) s = .next (refusedState stState s)) ∧
  (∀ (p v : Nat) (s : State), p < 2 → rd O.SYS_RECOVERY s = 0 → v ≠ 255 → (slicePhys (2 * p) s).isSome = true → (slicePhys (2 * p + 1) s).isSome = true →
    (16 ≤ v ∨ pairRefused p v s = true → exec (.adcPairWrite p v) s = .next (refusedState stRange s)) ∧
    (v < 16 → pairRefused p v s = false → ∃ t u, exec (.adcPairWrite p v) s = .next (answer stOk [] (updCalState t)) ∧ u = wr (if p = 0 then O.ADC_PAIR0 else O.ADC_PAIR1) v (adcNow s) ∧
      t = updAdc (fun a => { a with pairs := a.pairs.modify p fun x =>
        { x with on := some v, off := false, j := (vtTicks u - pOf (kNow u) u + 19) / 20, base := if hasGrid u then some (pOf (kNow u) u) else none } }) u)) ∧
  (∀ (p : Nat) (s : State), p < 2 → rd O.SYS_RECOVERY s = 0 → ∃ t u, exec (.adcPairWrite p 255) s = .next (answer stOk [] (updCalState t)) ∧
    u = wr (if p = 0 then O.ADC_PAIR0 else O.ADC_PAIR1) 255 (adcNow s) ∧ t = updAdc (fun a => { a with pairs := a.pairs.modify p fun x => { x with off := x.on.isSome } }) u))

/-- Inputs and calibration. A change of gain or filter waits for a held sample of its input or acts at an ACQ edge, where the input settles for the longer of its two intervals, or not at all. Settling ends with its last interval. An open-wire test begins an interval after the last, with the settling it needs; that of a held input begins with the end of its held conversion, and is skipped and counted once a period where the settling would reach the next P-mark; after 20 us its conversion starts on an idle slice and the current ends. The comparator bits follow the code against its thresholds, a trip once the code has stood for the filter time, with source 180 + n. Calibration outside ROM service mode asks for every sequencer and pair off, begins at once and ends after 1.8 ms: entries taken, slices that fail mapped out, the counts staggered, READY, continuous runs started. CLEAR_COUNTERS sets its counters to 0; in ROM service mode both answer STATE. A slice is due after 65,536 conversions where PROTECTED inputs are used, counted as deferred while the spare calibrates; the slice taken out calibrates itself and becomes the spare or is mapped out. What is not under way changes nothing. -/
def Obligations.InputsAndCalibration : Prop :=
  (∀ (n : Nat) (s : State), 16 ≤ n → exec (.adcInputChange n) s = .next s ∧ exec (.openWireTestStart n) s = .next s ∧ (∀ c t, exec (.comparatorTrip n c t) s = .next s)) ∧
  (∀ (n : Nat) (s : State), n < 16 → holdsSample n s = true → exec (.adcInputChange n) s = .next (updAdc (fun a => { a with chg := addTo a.chg n }) s)) ∧
  (∀ (n t : Nat) (s : State), n < 16 → holdsSample n s = false → t = 2 * ((vtTicks s + 1) / 2) → exec (.adcInputChange n) s = .next (applyChange n (2 * t) (adcNow (advVt t s)))) ∧
  (∀ (n t d g b : Nat) (s : State), n < 16 → s.adc.gainEff.length = 16 → s.adc.bwEff.length = 16 → g = rd (O.ADC_IN_GAIN n) s → b = rd (O.ADC_IN_BW n) s →
    d = max (if g = s.adc.gainEff.getD n 1 then 0 else 800) (if b = s.adc.bwEff.getD n 0 then 0 else max (bwSettle b) (bwSettle (s.adc.bwEff.getD n 0))) →
    ∃ u, (d = 0 → applyChange n t s = u) ∧ (d ≠ 0 → applyChange n t s = openSettle n t (t + d) u) ∧ u.adc.gainEff.getD n 1 = g ∧ u.adc.bwEff.getD n 0 = b ∧ u.objs = s.objs) ∧
  (bwSettle 0 = 80 ∧ bwSettle 1 = 1600 ∧ bwSettle 2 = 16000) ∧
  (∀ (n : Nat) (l : List Nat) (s : State), l = (s.adc.settle.filter fun x => x.1 == n).map (fun x => x.2.2) →
    (l ≠ [] → exec (.adcSettlingEnd n) s = .next (showSettle n (adcNow (advVt ((maxL l + 1) / 2) s)))) ∧ (l = [] → exec (.adcSettlingEnd n) s = .next s)) ∧
  (∀ (n : Nat) (s : State), adcReady s = false ∨ rd (O.ADC_IN_OW n) s = 0 ∨ (s.adc.ow.getD n OwSt.init).since.isSome = true → exec (.openWireTestStart n) s = .next s) ∧
  (∀ (n : Nat) (o : OwSt) (s : State), n < 16 → o = s.adc.ow.getD n OwSt.init → adcReady s = true → rd (O.ADC_IN_OW n) s ≠ 0 → o.since = none →
    ∃ t u h b, exec (.openWireTestStart n) s = .next t ∧ u = adcNow (advVt (o.last + ms (rd O.ADC_OW_INTERVAL s)) s) ∧ h = (aget u.adc.heldEnd n).getD 0 ∧
      b = (if heldInput n u then (h + 1) / 2 else vtTicks u) ∧
      (heldInput n u = true → h + 20 < halfNow u → t = u) ∧
      (heldInput n u = true → halfNow u ≤ h + 20 → hasGrid u = true → pOf (kNow u + 1) u < b + 8040 + us (rd O.ADC_OW_SETTLE u) →
        (o.skipK = some (kNow u) → t = u) ∧
        (o.skipK ≠ some (kNow u) → t = bump O.ADC_OW_SKIPPED (updAdc (fun a => { a with ow := a.ow.set n { o with skipK := some (kNow u) } }) u))) ∧
      (heldInput n u = false ∨ (halfNow u ≤ h + 20 ∧ (hasGrid u = false ∨ b + 8040 + us (rd O.ADC_OW_SETTLE u) ≤ pOf (kNow u + 1) u)) →
        t = openSettle n (2 * b) (2 * (b + 8040 + us (rd O.ADC_OW_SETTLE u))) (updAdc (fun a => { a with ow := a.ow.set n { o with since := some b } }) (advVt b u)))) ∧
  (∀ (n b : Nat) (o : OwSt) (s : State), o = s.adc.ow.getD n OwSt.init → o.since = some b → ∃ t u e, exec (.openWireTestConvert n) s = .next t ∧
    u = adcNow (advVt (b + 8000) s) ∧ e = adcEdge (halfNow u) u ∧ (idleSlice e u = none → t = u) ∧
    (∀ l, idleSlice e u = some l → ∃ v, t = openSettle n (2 * b) (e + 80 + 2 * us (rd O.ADC_OW_SETTLE v)) v ∧
      v = updAdc (fun a => { a with settle := a.settle.filter fun x => !(x.1 == n && x.2.1 == 2 * b), ow := a.ow.set n { o with since := none, last := b } })
        (beginConv l n .openWire e 1 e false u))) ∧
  (∀ (n : Nat) (s : State), (s.adc.ow.getD n OwSt.init).since = none → exec (.openWireTestConvert n) s = .next s) ∧
  (∀ (n stood : Nat) (code : Int) (s : State), n < 16 → ∃ t u above below, exec (.comparatorTrip n code stood) s = .next t ∧
    (above = true ↔ rdI 16 (O.ADC_IN_CMP_HI n) s < code ∧ (rd (O.ADC_IN_CMP_FILT n) s ≤ stood ∨ rdBit (O.ADC_IN_STATUS n) 3 s = true)) ∧
    (below = true ↔ code < rdI 16 (O.ADC_IN_CMP_LO n) s ∧ (rd (O.ADC_IN_CMP_FILT n) s ≤ stood ∨ rdBit (O.ADC_IN_STATUS n) 2 s = true)) ∧
    t = evalFns (setLive (180 + n) (above || below) n u) ∧ OnlyObjs [O.ADC_IN_STATUS n] s u ∧ rdBit (O.ADC_IN_STATUS n) 3 u = above ∧ rdBit (O.ADC_IN_STATUS n) 2 u = below) ∧
  (∀ (l : List CalEntry) (ch : List CalCheck) (s : State), s.adc.calAt = none → exec (.adcCalibrationEnd l ch) s = .next s) ∧
  (∀ (x : Nat) (l : List CalEntry) (ch : List CalCheck) (s : State), s.adc.calAt = some x → ∃ t u v w, exec (.adcCalibrationEnd l ch) s = .next (adcNow (updCalState t)) ∧
    u = takeCal l (advVt (x + 720000) s) ∧ v = each (((ch.filter fun c => !c.ok && c.phys < 5).map (fun c => c.phys)).filter fun p => !rdBit O.ADC_SLICE_OUT p u)
      (fun p => adcMapOut p (if s.adc.calBoot then 4 else 0)) { u with adc := { u.adc with calAt := none, calBoot := false, spareCal := none, due := [] } } ∧
    w = wr O.ADC_STATE 2 { v with adc := { v.adc with counts := [0, 16384, 32768, 49152] } } ∧
    t = each [0, 1, 2, 3] (fun q y => if seqTrig q y == 4 && (seqSt q y).run.isNone then startRun q none y else y) w) ∧
  (∀ s : State, rd O.SYS_RECOVERY s ≠ 0 → exec .adcCmdCalibrate s = .next (refusedState stState s) ∧ exec .adcCmdClearCounters s = .next (refusedState stState s)) ∧
  (∀ s : State, adcIdle s = false → exec .adcCmdCalibrate s = .next (refusedState stState s)) ∧
  (∀ s : State, rd O.SYS_RECOVERY s = 0 → adcIdle s = true → ∃ t, exec .adcCmdCalibrate s = .next t ∧ rd O.ADC_STATE t = 1 ∧ t.adc.calAt = some (vtTicks s) ∧ t.adc.calBoot = false ∧ t.resp = [stOk] ∧
    SameObjs [O.ADC_STATE] s t) ∧
  (∀ s : State, rd O.SYS_RECOVERY s = 0 → ∃ t, exec .adcCmdClearCounters s = .next t ∧ Wrote adcCounters s t ∧ ∀ k ∈ adcCounters, rd k t = 0) ∧
  (∀ (l : Nat) (s : State), rd O.ADC_CAL_STATE s = 1 → 65536 ≤ s.adc.counts.getD l 0 → (∀ d ∈ s.adc.due, d.1 ≠ l) →
    (s.adc.spareCal = none → exec (.adcSwapDue l) s = .next (updAdc (fun a => { a with due := a.due ++ [(l, halfNow s)] }) s)) ∧
    (s.adc.spareCal.isSome = true → exec (.adcSwapDue l) s = .next (updAdc (fun a => { a with due := a.due ++ [(l, halfNow s)] }) (bump O.ADC_CAL_DEFERRED s)))) ∧
  (∀ (l : Nat) (s : State), rd O.ADC_CAL_STATE s ≠ 1 ∨ s.adc.counts.getD l 0 < 65536 ∨ (∃ d ∈ s.adc.due, d.1 = l) → exec (.adcSwapDue l) s = .next s) ∧
  (∀ (l : List CalEntry) (c : CalCheck) (x p : Nat) (s : State), s.adc.spareCal = some x → spareSlice s = some p → ∃ u, u = takeCal l (advVt x s) ∧
    (c.ok = true → exec (.adcSliceRecalEnd l c) s = .next { u with adc := { u.adc with spareCal := none } }) ∧
    (c.ok = false → exec (.adcSliceRecalEnd l c) s = .next (adcMapOut p 0 { u with adc := { u.adc with spareCal := none } }))) ∧
  (∀ (l : List CalEntry) (c : CalCheck) (s : State), s.adc.spareCal = none ∨ spareSlice s = none → exec (.adcSliceRecalEnd l c) s = .next s)

/-- The recorder's commands. A write of ACQ_CMD, ACQ_REC_LOCK or ACQ_REC_RELEASE at a node checks the configuration first; in a cell these and the memory objects answer BLOCK_OFF, in ROM service mode STATE. ARM asks for a VALID configuration; ARM, STOP, FORCE and CLEAR_COUNTERS wait for the first row instant after their write. A row comes at the next multiple of the interval in its period, at the P-mark alone with interval 0, and not from the next P-mark on; at it the waiting commands take effect, the recorder steps, a row that fits is stored, FORCE triggers, and without MINMAX a record may be complete. In FULL the recorder arms with the first free slot; STOP wins where it has an effect, else ARM acts in IDLE and STOPPED. Arming takes the slot that R253 says with the next REC_ID, or goes to FULL. A row goes to its address in the ring and nowhere else. LOCK asks for a DONE slot, RELEASE frees a DONE or LOCKED one and leaves another as it is, beyond 63 both answer RANGE. The memory objects are refused with STATE while recording or while a slot is locked, RANGE outside their ranges or beyond the fitted device, NO_OBJECT for another item; taken they free every slot and show the new sizes. Loss of the LPDDR4X takes its domain out of service and, where it holds the records, stops the recorder. What a cell is sent changes nothing. Triggers. One that is not enabled changes nothing; one that no record takes, or whose instant lies before every row taken, is lost and counted, but an XTRIG older than the ring lies in its oldest row. The first sets the record's fields with ACQ_PRE rows before it and ACQ_POST after it, and is distributed unless it is an XTRIG. A further one in the trigger row joins it, the earlier instant leading; in another row it is counted and listed up to 15, with the extension where ACQ_EXTEND asks for it. A digital sample that matches fires the pattern on entry, or at once after arming in mode 1, and is remembered. An XTRIG whose triple is new is distributed on and taken: it feeds the trace units, and where its source is enabled it is counted, and triggers at once or when its instant is due, the least instant first. A bad sample resets a level unit; a unit that is not ready does not fire and becomes ready beyond the hysteresis; a ready one fires at its threshold on its edge. At a cell they change nothing. -/
def Obligations.RecorderAndTriggers : Prop :=
  ((∀ s : State, isNode s = true → OnlyObjs [O.ACQ_CFG_STATUS, O.ACQ_ROW_CAP, O.ACQ_SLOT_BYTES, O.ACQ_ROW_BYTES] s (acqCheck s) ∧ rd O.ACQ_ROW_BYTES (acqCheck s) = rowBytesOf s) ∧
  (∀ s : State, isNode s = true → rd O.SYS_RECOVERY s = 0 →
    (rd O.ACQ_CFG_STATUS (acqCheck s) ≠ 0 → exec .acqCmdArm s = .next (refusedState stState (acqCheck s))) ∧
    (rd O.ACQ_CFG_STATUS (acqCheck s) = 0 → exec .acqCmdArm s = .next { acqCheck s with acq := { s.acq with cmds := s.acq.cmds ++ [(1, vtTicks s)] }, resp := [stOk] }) ∧
    exec .acqCmdStop s = .next { acqCheck s with acq := { s.acq with cmds := s.acq.cmds ++ [(2, vtTicks s)] }, resp := [stOk] } ∧
    exec .acqCmdForce s = .next { acqCheck s with acq := { s.acq with cmds := s.acq.cmds ++ [(3, vtTicks s)] }, resp := [stOk] } ∧
    exec .acqCmdClearCounters s = .next { acqCheck s with acq := { s.acq with cmds := s.acq.cmds ++ [(4, vtTicks s)] }, resp := [stOk] }) ∧
  (∀ s : State, isNode s = true → rd O.SYS_RECOVERY s ≠ 0 → exec .acqCmdArm s = .next (refusedState stState (acqCheck s)) ∧ exec .acqCmdStop s = .next (refusedState stState (acqCheck s)) ∧
    exec .acqCmdForce s = .next (refusedState stState (acqCheck s)) ∧ exec .acqCmdClearCounters s = .next (refusedState stState (acqCheck s)) ∧
    (∀ v, exec (.acqRecLock v) s = .next (refusedState stState (acqCheck s)) ∧ exec (.acqRecRelease v) s = .next (refusedState stState (acqCheck s))) ∧
    (∀ item v, item < 3 → exec (.acqMemWrite item v) s = .next (refusedState stState s))) ∧
  (∀ s : State, isNode s = false → exec .acqCmdArm s = .next (refusedState stBlockOff s) ∧ exec .acqCmdStop s = .next (refusedState stBlockOff s) ∧
    exec .acqCmdForce s = .next (refusedState stBlockOff s) ∧ exec .acqCmdClearCounters s = .next (refusedState stBlockOff s) ∧
    (∀ v, exec (.acqRecLock v) s = .next (refusedState stBlockOff s) ∧ exec (.acqRecRelease v) s = .next (refusedState stBlockOff s)) ∧
    (∀ item v, item < 3 → exec (.acqMemWrite item v) s = .next (refusedState stBlockOff s)) ∧ exec .acqRow s = .next s ∧ exec .ddrOutOfService s = .next s) ∧
  (∀ s : State, isNode s = true → hasGrid s = true → ∃ t u, exec .acqRow s = .next t ∧ (s.acq.gridK = some (kNow s) → u = s) ∧
    (s.acq.gridK ≠ some (kNow s) → u = updAcq (fun a => { a with gridK := some (kNow s), gridJ := (vtTicks s - pOf (kNow s) s) / max 1 (rd O.ACQ_INTERVAL s) + 1 }) s) ∧
    (∀ x d, rowDue u = some (x, d) → t = rowAt x d u) ∧ (rowDue u = none → t = u)) ∧
  (∀ s : State, hasGrid s = false → exec .acqRow s = .next s) ∧
  (∀ (x d : Nat) (s : State), rowDue s = some (x, d) → pOf (kNow s) s ≤ x ∧ x < pOf (kNow s) s + tOf (kNow s) s ∧ d = min (rowStep s) (pOf (kNow s) s + tOf (kNow s) s - x) ∧
    (rd O.ACQ_INTERVAL s ≠ 0 → x = pOf (kNow s) s + s.acq.gridJ * rd O.ACQ_INTERVAL s) ∧ (rd O.ACQ_INTERVAL s = 0 → x = pOf (kNow s) s ∧ s.acq.gridJ = 0)) ∧
  (∀ (t dur : Nat) (s : State), ∃ a b c d e f g, a = adcNow (advVt t s) ∧ b = { a with acq := { a.acq with cmds := a.acq.cmds.filter fun c => !(decide (c.2 < t)) } } ∧
    c = (if a.acq.cmds.any (fun c => decide (c.2 < t) && c.1 == 4) = true then clearAll acqCounters b else b) ∧
    d = rowStep1 (a.acq.cmds.any fun c => decide (c.2 < t) && c.1 == 1) (a.acq.cmds.any fun c => decide (c.2 < t) && c.1 == 2) (setLim (t * 163840) c) ∧
    e = (if rowFits d = true then storeRow { k := kNow d, j := d.acq.gridJ, inst := t * 163840, dur := dur } d else d) ∧
    f = acqArmed (updAcq (fun a => { a with gridJ := a.gridJ + 1 }) e) ∧
    g = (if a.acq.cmds.any (fun c => decide (c.2 < t) && c.1 == 3) = true then acqTrigger 10 (t * 163840) 0xFFFF f else f) ∧
    rowAt t dur s = if anyMinmax g = true then g else acqComplete (setLim (t * 163840 + 1) g)) ∧
  (∀ (arm stop : Bool) (s : State), (rd O.ACQ_STATE s = 5 → rowStep1 arm stop s = if slotFree s = true then armRecord s else s) ∧
    (rd O.ACQ_STATE s ≠ 5 → acqIdle s = false → stop = true → rowStep1 arm stop s = acqStop s) ∧
    (rd O.ACQ_STATE s ≠ 5 → acqIdle s = true → rowStep1 arm stop s = if arm = true then armRecord s else s)) ∧
  (∀ (i : RowInfo) (r : RecSt) (s : State), s.acq.cur = some r → ∃ t q, t = storeRow i s ∧ t.objs = s.objs ∧ t.acq.cur = some q ∧ q.n = r.n + 1 ∧ q.rows.head? = some i ∧
    (∀ a, a < r.rowAddr r.n ∨ r.rowAddr r.n + rowBytesOf s ≤ a → ldByte a t = ldByte a s)) ∧
  (∀ (i : Nat) (s : State), slotToArm s = some (i, false) → rd (O.ACQ_SLOT_STATE i) s = 0 ∧ i < rd O.ACQ_SLOTS s) ∧
  (∀ s : State, slotToArm s = none → armRecord s = wr O.ACQ_STATE 5 (updAcq (fun a => { a with cur := none }) s)) ∧
  (∀ (i : Nat) (past : Bool) (s : State), slotToArm s = some (i, past) → i < 64 → ∃ t r, t = armRecord s ∧ rd O.ACQ_STATE t = 1 ∧ rd (O.ACQ_SLOT_STATE i) t = 1 ∧
    rd O.ACQ_REC_ID t = (rd O.ACQ_REC_ID s + 1) % 2 ^ 32 ∧ rd (O.ACQ_SLOT_REC i) t = (rd O.ACQ_REC_ID s + 1) % 2 ^ 32 ∧ t.acq.cur = some r ∧ r.slot = i ∧ r.n = 0 ∧ r.trig = none ∧
    rd O.ACQ_OVERWRITTEN t = (if past = true then satU 32 (rd O.ACQ_OVERWRITTEN s + 1) else rd O.ACQ_OVERWRITTEN s) ∧
    SameObjs [O.ACQ_STATE, O.ACQ_SLOT_STATE i, O.ACQ_SLOT_REC i, O.ACQ_REC_ID, O.ACQ_OVERWRITTEN] s t) ∧
  (∀ (v : Nat) (s : State), isNode s = true → rd O.SYS_RECOVERY s = 0 → v < 64 →
    (rd (O.ACQ_SLOT_STATE v) s = 2 → ∃ t, exec (.acqRecLock v) s = .next t ∧ Wrote [O.ACQ_SLOT_STATE v] (acqCheck s) t ∧ rd (O.ACQ_SLOT_STATE v) t = 3) ∧
    (rd (O.ACQ_SLOT_STATE v) s ≠ 2 → exec (.acqRecLock v) s = .next (refusedState stState (acqCheck s))) ∧
    (rd (O.ACQ_SLOT_STATE v) s = 2 ∨ rd (O.ACQ_SLOT_STATE v) s = 3 → ∃ t, exec (.acqRecRelease v) s = .next t ∧ Wrote [O.ACQ_SLOT_STATE v, O.ACQ_SLOT_REC v] (acqCheck s) t ∧
      rd (O.ACQ_SLOT_STATE v) t = 0 ∧ rd (O.ACQ_SLOT_REC v) t = 0) ∧
    (rd (O.ACQ_SLOT_STATE v) s ≠ 2 → rd (O.ACQ_SLOT_STATE v) s ≠ 3 → exec (.acqRecRelease v) s = .next (answer stOk [] (acqCheck s)))) ∧
  (∀ (v : Nat) (s : State), isNode s = true → rd O.SYS_RECOVERY s = 0 → 64 ≤ v → exec (.acqRecLock v) s = .next (refusedState stRange (acqCheck s)) ∧
    exec (.acqRecRelease v) s = .next (refusedState stRange (acqCheck s))) ∧
  (∀ (item v : Nat) (s : State), 3 ≤ item → exec (.acqMemWrite item v) s = .next (refusedState stNoObject s)) ∧
  (∀ (item v : Nat) (s : State), isNode s = true → item < 3 → acqIdle s = false ∨ (∃ i, i < 64 ∧ rd (O.ACQ_SLOT_STATE i) s = 3) → exec (.acqMemWrite item v) s = .next (refusedState stState s)) ∧
  (∀ (v : Nat) (s : State), isNode s = true → rd O.SYS_RECOVERY s = 0 → acqIdle s = true → (∀ i, i < 64 → rd (O.ACQ_SLOT_STATE i) s ≠ 3) →
    (2 ≤ v → exec (.acqMemWrite 0 v) s = .next (refusedState stRange s)) ∧
    (v = 0 ∨ 8192 < v ∨ s.sys.ddrMiB < v → exec (.acqMemWrite 1 v) s = .next (refusedState stRange s)) ∧
    (v = 0 ∨ 64 < v → exec (.acqMemWrite 2 v) s = .next (refusedState stRange s))) ∧
  (∀ (item v k : Nat) (s : State), isNode s = true → rd O.SYS_RECOVERY s = 0 → acqIdle s = true → (∀ i, i < 64 → rd (O.ACQ_SLOT_STATE i) s ≠ 3) →
    (item = 0 ∧ v < 2 ∧ k = O.ACQ_MEM) ∨ (item = 1 ∧ 1 ≤ v ∧ v ≤ 8192 ∧ v ≤ s.sys.ddrMiB ∧ k = O.ACQ_AREA) ∨ (item = 2 ∧ 1 ≤ v ∧ v ≤ 64 ∧ k = O.ACQ_SLOTS) →
    ∃ t u, exec (.acqMemWrite item v) s = .next (answer stOk [] (acqCheck t)) ∧ rd k t = v ∧ (∀ i, i < 64 → rd (O.ACQ_SLOT_STATE i) t = 0 ∧ rd (O.ACQ_SLOT_REC i) t = 0) ∧
      u = [k] ++ (List.range 64).map O.ACQ_SLOT_STATE ++ (List.range 64).map O.ACQ_SLOT_REC ∧ OnlyObjs u s t) ∧
  (∀ s : State, isNode s = true → ∃ t u, exec .ddrOutOfService s = .next t ∧ u = domainLost 17 s ∧ t = recorderLost u ∧ (rd O.ACQ_MEM u ≠ 1 → t = u))) ∧
  ((∀ (src inst o : Nat) (s : State), isNode s = false ∨ trigEnabled src s = false → acqTrigger src inst o s = s) ∧
  (∀ (src inst o : Nat) (s : State), isNode s = true → trigEnabled src s = true →
    s.acq.cur = none ∨ (∃ r, s.acq.cur = some r ∧ r.trig = none ∧ r.rowAt inst = none ∧ (r.rows = [] ∨ r.rows.length = r.n ∨ src ≠ 9)) →
    acqTrigger src inst o s = bump O.ACQ_TRIG_LOST s) ∧
  (∀ (src inst o row : Nat) (r : RecSt) (s : State), isNode s = true → trigEnabled src s = true → s.acq.cur = some r → r.trig = none → r.rowAt inst = some row →
    ∃ t v q, acqTrigger src inst o s = t ∧ v.acq.cur = some q ∧ rd O.ACQ_STATE v = 3 ∧ SameObjs [O.ACQ_STATE] s v ∧ t = (if src = 9 then v else originateXtrig src inst v) ∧
      ∃ g, q.trig = some g ∧ g.row = row ∧ g.src = src ∧ g.inst = inst ∧ g.pre = min (rd O.ACQ_PRE s) (row - (r.n - r.rows.length)) ∧ g.stop = row + rd O.ACQ_POST s) ∧
  (∀ (inst o : Nat) (r : RecSt) (s : State), isNode s = true → trigEnabled 9 s = true → s.acq.cur = some r → r.trig = none → r.rowAt inst = none → r.rows ≠ [] → r.rows.length ≠ r.n →
    ∃ t q, acqTrigger 9 inst o s = t ∧ t.acq.cur = some q ∧ rd O.ACQ_STATE t = 3 ∧ rd O.ACQ_XT_EARLY t = satU 32 (rd O.ACQ_XT_EARLY s + 1) ∧ SameObjs [O.ACQ_STATE, O.ACQ_XT_EARLY] s t ∧
      ∃ g, q.trig = some g ∧ g.row = r.n - r.rows.length ∧ g.frac = 0 ∧ g.src = 9 ∧ g.inst = inst ∧ g.pre = 0 ∧ g.early = true ∧ g.stop = g.row + rd O.ACQ_POST s) ∧
  (∀ (src inst o row : Nat) (r : RecSt) (g : TrigRec) (s : State), isNode s = true → trigEnabled src s = true → s.acq.cur = some r → r.trig = some g →
    row = (r.rowAt inst).getD (max (r.n - r.rows.length) (g.row - g.pre)) →
    ∃ t q, acqTrigger src inst o s = t ∧ rd O.ACQ_XT_EARLY t = (if r.rowAt inst = none then satU 32 (rd O.ACQ_XT_EARLY s + 1) else rd O.ACQ_XT_EARLY s) ∧ q.row = g.row ∧ q.pre = g.pre ∧
      (row = g.row → SameObjs [O.ACQ_XT_EARLY] s t ∧ t.acq.cur = some { r with trig := some q } ∧ q.sources = g.sources ||| 2 ^ src ∧ q.extras = g.extras ∧ q.stop = g.stop ∧
        (inst < g.inst ∨ (inst = g.inst ∧ src < g.src) → q.inst = inst ∧ q.src = src ∧ q.origin = o) ∧
        (g.inst < inst ∨ (inst = g.inst ∧ g.src ≤ src) → q.inst = g.inst ∧ q.src = g.src ∧ q.origin = g.origin)) ∧
      (row ≠ g.row → rd O.ACQ_TRIG_MARKED t = satU 32 (rd O.ACQ_TRIG_MARKED s + 1) ∧ SameObjs [O.ACQ_TRIG_MARKED, O.ACQ_XT_EARLY] s t ∧
        t.acq.cur = some { r with trig := some q, lim := if rd O.ACQ_EXTEND s = 1 then none else r.lim } ∧ q.inst = g.inst ∧ q.extraN = min (g.extraN + 1) 255 ∧
        q.extras.length = (if g.extras.length < 15 then g.extras.length + 1 else g.extras.length) ∧
        (rd O.ACQ_EXTEND s ≠ 1 → q.stop = g.stop) ∧ (rd O.ACQ_EXTEND s = 1 → q.stop = min (r.n - 1 + rd O.ACQ_POST s) (g.row - g.pre + r.cap - 1)))) ∧
  (∀ s : State, isNode s = true → ∃ u fire, u = updAcq (fun a => { a with patPrev := some (patMatch s), patFresh := false }) s ∧
    (fire = true ↔ patMatch s = true ∧ (s.acq.patPrev = some false ∨ (s.acq.patFresh = true ∧ rd O.ACQ_PAT_MODE s = 1))) ∧
    exec .patternTrigger s = .next (if fire = true then acqTrigger 8 ((vtTicks s - (vtTicks s - pOf (kNow s) s) % 2) * 163840) 0xFFFF u else u)) ∧
  (∀ s : State, isNode s = false → exec .patternTrigger s = .next s) ∧
  (∀ (n : Nat) (x : Xtrig) (s : State), isNode s = false ∨ xtSeen x s = true → exec (.xtrigRx n x) s = .next s) ∧
  (∀ (n : Nat) (x : Xtrig) (s : State), isNode s = true → xtSeen x s = false → ∃ t u, exec (.xtrigRx n x) s = .next t ∧
    u = xtrigDown x (n != laneP0 && n != laneP1) (updAcq (fun a => { a with xtSeen := (((x.node, x.sideB, x.seq), s.tick) :: a.xtSeen).take 16 }) s) ∧ t = xtTake x u) ∧
  (∀ (x : Xtrig) (s : State), rdBit O.ACQ_TRIG_EN 9 s = true → ∃ t u, t = xtTake x s ∧ rd O.ACQ_XT_RECEIVED u = satU 32 (rd O.ACQ_XT_RECEIVED s + 1) ∧
    SameObjs [O.ACQ_XT_RECEIVED, O.ACQ_XT_MAX_AGE] s u ∧ rd O.ACQ_XT_MAX_AGE u = max (satU 32 ((vtFrac s - x.instant) / 65536)) (rd O.ACQ_XT_MAX_AGE s) ∧
    u = { s with objs := u.objs, law := { s.law with cross := s.law.cross ++ [x.instant] } } ∧
    (vtFrac s < x.instant → t = { u with acq := { u.acq with xtHeld := s.acq.xtHeld ++ [(x.instant, x.node * 256 + b2n x.sideB)] } }) ∧
    (x.instant ≤ vtFrac s → t = acqTrigger 9 x.instant (x.node * 256 + b2n x.sideB) u)) ∧
  (∀ (x : Xtrig) (s : State), rdBit O.ACQ_TRIG_EN 9 s = false → xtTake x s = { s with law := { s.law with cross := s.law.cross ++ [x.instant] } }) ∧
  (∀ (e : Nat × Nat) (s : State), xtNext s.acq.xtHeld = some e → ∃ u, u = advVt ((e.1 + 163839) / 163840) s ∧
    exec .xtrigInstantDue s = .next (acqTrigger 9 e.1 e.2 { u with acq := { u.acq with xtHeld := u.acq.xtHeld.erase e } })) ∧
  (∀ (e : Nat × Nat) (l : List (Nat × Nat)), xtNext l = some e → e ∈ l ∧ ∀ x ∈ l, e.1 ≤ x.1) ∧
  (∀ s : State, s.acq.xtHeld = [] → exec .xtrigInstantDue s = .next s) ∧
  (∀ (n v inst : Nat) (s : State), n < 8 → s.acq.lvl.length = 8 → ((lvlSample n v inst true s).acq.lvl.getD n LvlSt.init = LvlSt.init) ∧ (lvlSample n v inst true s).objs = s.objs) ∧
  (∀ (n v inst : Nat) (s : State), n < 8 → s.acq.lvl.length = 8 → (s.acq.lvl.getD n LvlSt.init).rise = false → (s.acq.lvl.getD n LvlSt.init).fall = false →
    ∃ l, (lvlSample n v inst false s).acq.lvl.getD n LvlSt.init = l ∧ (lvlSample n v inst false s).objs = s.objs ∧
      l.rise = leF v (subF (rd (O.ACQ_LVL_THRESH n) s) (rd (O.ACQ_LVL_HYST n) s)) ∧ l.fall = leF (addF (rd (O.ACQ_LVL_THRESH n) s) (rd (O.ACQ_LVL_HYST n) s)) v) ∧
  (∀ (n v inst : Nat) (l : LvlSt) (s : State), l = s.acq.lvl.getD n LvlSt.init →
    (l.rise = true ∧ leF (rd (O.ACQ_LVL_THRESH n) s) v = true ∧ rd (O.ACQ_LVL_EDGE n) s ≠ 1) ∨ (l.fall = true ∧ leF v (rd (O.ACQ_LVL_THRESH n) s) = true ∧ rd (O.ACQ_LVL_EDGE n) s ≠ 0) →
    ∃ x u, lvlSample n v inst false s = acqTrigger n x 0xFFFF u ∧ u.objs = s.objs ∧ u.acq.cur = s.acq.cur ∧ (l.last = none → x = inst)))

/-- The kettle. A rise of a source in a node, or above 16 in a cell, follows the source's condition; in a cell 0 to 16 act as faults of Table 3.6 unless live. A rise sets LIVE and LATCHED, counts, dates, drives FAULT_N and logs as the source's reactions say; one of a live source, and a fall while the path is broken, change the condition alone; a fall ends LIVE and leaves latch and count. A clear takes a latched source that is no longer live, with the number of rises where CHECK asks for it, leaves its count, and counts one it must refuse; KET_CLEAR clears one source or all latched ones, answers STATE where one was refused or in ROM service mode, and RANGE for another number. A broken path is counted, held live from 4 CTRL cycles before, and raises source 225; its end gives the source back to its condition. An escalation comes at its time, once. CLEAR_COUNTERS sets its counters to 0 and the peak to the fill. What is not under way, and a source the device has not, change nothing. Events. An event enters the queue with the next ESEQ, the fill, the peak and its class counted, unless the queue holds 4,080 entries, or 4,096 for the kinds 6 to 8; then it is counted as dropped. A source logs with a token of its bucket, which holds KET_BURST at most, or the event is suppressed and counted. A refill gives a token, or buys the SUPPRESSED event, and then source 226 follows whether events were dropped. A frame below the apex carries up to seven entries, which leave the queue with it, once the gap has run and where its queue has room; only the gap runs where it has none. The apex counts gaps of FSEQ, keeps the latest, places the entries, and raises source 226 where one was dropped; a frame to another device changes nothing. KET_Q_POP gives up the oldest entry at the apex; with an empty queue or in ROM service mode it answers STATE, with another value RANGE, away from the apex BLOCK_OFF. When entries leave, the fill is shown, and below 3,072 an OVERFLOW event records a loss. -/
def Obligations.KettleAndEvents : Prop :=
  ((∀ (n data : Nat) (s : State), isNode s = true ∨ 16 < n → exec (.kettleSourceRise n data) s = .next (setLive n true data s) ∧ exec (.kettleSourceFall n) s = .next (setLive n false 0 s)) ∧
  (∀ (n data : Nat) (s : State), isCell s = true → n ≤ 16 → (isLive n s = true → exec (.kettleSourceRise n data) s = .next s) ∧
    (isLive n s = false → exec (.kettleSourceRise n data) s = .next (readyEval (celFaults [(n, true)] (gatesNow s)))) ∧ exec (.kettleSourceFall n) s = .next (endFault n s)) ∧
  (∀ (n data : Nat) (s : State), n < 256 → n ≠ 226 → srcExists s.straps n = true → isLive n s = false → reactOf n s < 4 → rd (O.KET_ESC_COUNT n) s = 0 → s.ket.dropped = 0 →
    s.ket.queue.length < 4080 → min (kSrc n s).tokens (rd O.KET_BURST s) ≠ 0 → bit (reactOf n s) 0 = true → ∃ t e, t = setLive n true data s ∧ isLive n t = true ∧ isLatched n t = true ∧
      rd (O.KET_SRC_COUNT n) t = satU 32 (rd (O.KET_SRC_COUNT n) s + 1) ∧ rd (O.KET_SRC_RISES n) t = satU 32 (rd (O.KET_SRC_RISES n) s + 1) ∧
      rd (O.KET_SRC_LAST n) t = ts96N (instNow s) ∧ (rd (O.KET_SRC_RISES n) s = 0 → rd (O.KET_SRC_FIRST n) t = ts96N (instNow s)) ∧
      (bit (reactOf n s) 1 = true → rd O.KET_FAULTN t = 1) ∧ t.ket.queue = s.ket.queue ++ [e] ∧ e.kind = 1 ∧ e.source = n ∧ e.cls = srcClass n ∧ e.instant = instNow s ∧ e.data = data ∧
      e.count = rd (O.KET_SRC_COUNT n) t ∧ (kSrc n t).tokens = min (kSrc n s).tokens (rd O.KET_BURST s) - 1) ∧
  (∀ (n data : Nat) (s : State), s.ket.dropped = 0 → isLive n s = true → setLive n true data s = { s with ket := { s.ket with cond := addTo s.ket.cond n } } ∧
    (n ∈ s.ket.broken → setLive n false data s = { s with ket := { s.ket with cond := s.ket.cond.filter fun x => x != n } })) ∧
  (∀ (n : Nat) (s : State), n < 256 → n ∉ s.ket.broken → srcExists s.straps n = true → isLive n s = true → s.ket.dropped = 0 → s.ket.queue.length < 4080 → rd O.SAF_STATE s ≠ 2 → rd O.SAF_STATE s ≠ 3 →
    ∃ t, t = setLive n false 0 s ∧ isLive n t = false ∧ isLatched n t = isLatched n s ∧ rd (O.KET_SRC_COUNT n) t = rd (O.KET_SRC_COUNT n) s) ∧
  (∀ (n : Nat) (c : Option Nat) (s : State), isLatched n s = false → clearSource n c s = (false, s)) ∧
  (∀ (n x : Nat) (s : State), isLatched n s = true → isLive n s = true ∨ rd (O.KET_SRC_RISES n) s ≠ x → clearSource n (some x) s = (true, bump O.KET_CLEAR_REFUSED s)) ∧
  (∀ (n : Nat) (s : State), isLatched n s = true → isLive n s = true → clearSource n none s = (true, bump O.KET_CLEAR_REFUSED s)) ∧
  (∀ (n : Nat) (c : Option Nat) (s : State), n < 256 → isLatched n s = true → isLive n s = false → c = none ∨ c = some (rd (O.KET_SRC_RISES n) s) → ∃ t, clearSource n c s = (false, t) ∧
    isLatched n t = false ∧ isEscalated n t = false ∧
    rd (O.KET_SRC_RISES n) t = 0 ∧ rd (O.KET_SRC_FIRST n) t = 0 ∧ rd (O.KET_SRC_COUNT n) t = rd (O.KET_SRC_COUNT n) s ∧ n ∉ t.ket.latched ∧ rd O.KET_CLEAR_REFUSED t = rd O.KET_CLEAR_REFUSED s) ∧
  (∀ (v : Nat) (s : State), rd O.SYS_RECOVERY s = 0 → v < 2 ^ 64 → v % 65536 < 256 ∨ v % 65536 = 65535 → ∃ l r,
    l = (if v % 65536 = 65535 then (List.range 256).filter s.ket.latched.contains else [v % 65536]) ∧
    r = clearSources l (if bit v 16 = true then some (v / 2 ^ 32 % 2 ^ 32) else none) s ∧ exec (.ketClear v) s = .next (answer (if r.1 = true then stState else stOk) [] r.2)) ∧
  (∀ (n : Nat) (l : List Nat) (c : Option Nat) (s : State), clearSources [] c s = (false, s) ∧
    (clearSources (n :: l) c s).2 = (clearSources l c (clearSource n c s).2).2 ∧ (clearSources (n :: l) c s).1 = ((clearSource n c s).1 || (clearSources l c (clearSource n c s).2).1)) ∧
  (∀ (v : Nat) (s : State), rd O.SYS_RECOVERY s = 0 → 2 ^ 64 ≤ v ∨ (256 ≤ v % 65536 ∧ v % 65536 < 65535) → exec (.ketClear v) s = .next (refusedState stRange s)) ∧
  (∀ (v : Nat) (s : State), rd O.SYS_RECOVERY s ≠ 0 → exec (.ketClear v) s = .next (refusedState stState s) ∧ exec .ketCmdClearCounters s = .next (refusedState stState s)) ∧
  (∀ (n : Nat) (s : State), srcExists s.straps n = false → ∀ b, exec (.kettleBrokenPath n b) s = .next s) ∧
  (∀ (n : Nat) (s : State), n ∈ s.ket.broken → exec (.kettleBrokenPath n true) s = .next s) ∧
  (∀ (n : Nat) (s : State), srcExists s.straps n = true → n ∉ s.ket.broken → ∃ t u, exec (.kettleBrokenPath n true) s = .next t ∧
    t = setLive 225 true n (setPath n true (instNow s - 4 * 163840) u) ∧
    u.ket.broken = s.ket.broken ++ [n] ∧ rd O.KET_PATH_BROKEN u = satU 32 (rd O.KET_PATH_BROKEN s + 1) ∧ (n < 256 → rdBit (O.KET_SRC_STATUS n) 2 u = true ∧ SameObjs [O.KET_PATH_BROKEN, O.KET_SRC_STATUS n] s u)) ∧
  (∀ (n : Nat) (s : State), srcExists s.straps n = true → ∃ t u v, exec (.kettleBrokenPath n false) s = .next t ∧ u.ket = { s.ket with broken := s.ket.broken.filter fun x => x != n } ∧
    rdBit (O.KET_SRC_STATUS n) 2 u = false ∧ SameObjs [O.KET_SRC_STATUS n] s u ∧ v = setPath n (s.ket.cond.contains n) (instNow s) u ∧ t = if v.ket.broken = [] then setLive 225 false n v else v) ∧
  (∀ (n x : Nat) (s : State), (kSrc n s).escAt = some x → exec (.kettleEscalateTime n) s = .next (escalate setLive n (advTo x s))) ∧
  (∀ (n : Nat) (s : State), (kSrc n s).escAt = none → exec (.kettleEscalateTime n) s = .next s) ∧
  (∀ (n : Nat) (s : State), isEscalated n s = true → escalate setLive n s = s) ∧
  (∀ s : State, rd O.SYS_RECOVERY s = 0 → ∃ t, exec .ketCmdClearCounters s = .next t ∧ Wrote (O.KET_Q_PEAK :: ketCounters) s t ∧ rd O.KET_Q_PEAK t = s.ket.queue.length ∧ ∀ k ∈ ketCounters, rd k t = 0)) ∧
  ((∀ (kind src cls i c d : Nat) (s : State), kind < 6 → 4080 ≤ s.ket.queue.length → cls < 13 → rd (O.KET_CLASS_DROPPED cls) (queueEvent kind src cls i c d s) = satU 32 (rd (O.KET_CLASS_DROPPED cls) s + 1) ∧
    SameObjs [O.KET_CLASS_DROPPED cls] s (queueEvent kind src cls i c d s) ∧ (queueEvent kind src cls i c d s).ket.queue = s.ket.queue ∧ (queueEvent kind src cls i c d s).ket.dropped = s.ket.dropped + 1) ∧
  (∀ (kind src cls i c d : Nat) (s : State), 6 ≤ kind → 4096 ≤ s.ket.queue.length → queueEvent kind src cls i c d s = bump (O.KET_CLASS_DROPPED 9) s) ∧
  (∀ (kind src cls i c d : Nat) (s : State), cls < 13 → s.ket.queue.length < 4080 ∨ (6 ≤ kind ∧ s.ket.queue.length < 4096) → ∃ t e, t = queueEvent kind src cls i c d s ∧ t.ket.queue = s.ket.queue ++ [e] ∧
    e.kind = kind ∧ e.source = src ∧ e.instant = i ∧ e.count = c ∧ e.data = d ∧ e.eseq = (s.ket.eseq + 1) % 2 ^ 32 ∧ rd O.KET_Q_FILL t = s.ket.queue.length + 1 ∧ rd O.KET_Q_PEAK t = max (rd O.KET_Q_PEAK s) (s.ket.queue.length + 1) ∧
    rd (O.KET_CLASS_LOGGED cls) t = satU 32 (rd (O.KET_CLASS_LOGGED cls) s + 1) ∧ SameObjs [O.KET_Q_FILL, O.KET_Q_PEAK, O.KET_CLASS_LOGGED cls] s t) ∧
  (∀ (n kind i : Nat) (s : State), n < 256 → min (kSrc n s).tokens (rd O.KET_BURST s) = 0 → srcClass n < 13 → ∃ t, t = logEvent n kind i s ∧ t.ket.queue = s.ket.queue ∧ rdBit (O.KET_SRC_STATUS n) 4 t = true ∧
    rd (O.KET_SRC_SUPPRESSED n) t = satU 32 (rd (O.KET_SRC_SUPPRESSED n) s + 1) ∧ rd (O.KET_CLASS_SUPPRESSED (srcClass n)) t = satU 32 (rd (O.KET_CLASS_SUPPRESSED (srcClass n)) s + 1) ∧
    (kSrc n t).lost = (kSrc n s).lost + 1) ∧
  (∀ (n kind i : Nat) (s : State), min (kSrc n s).tokens (rd O.KET_BURST s) ≠ 0 → ∃ u, logEvent n kind i s = queueEvent kind n (srcClass n) i (rd (O.KET_SRC_COUNT n) s) (kSrc n s).data u ∧
    u.objs = s.objs ∧ u.ket.queue = s.ket.queue ∧ (kSrc n u).tokens = min (kSrc n s).tokens (rd O.KET_BURST s) - 1 ∧ (kSrc n u).lost = (kSrc n s).lost) ∧
  (∀ (n : Nat) (s : State), ∃ u, exec (.kettleTokenRefill n) s = .next (setLive 226 (u.ket.dropped != 0) 0 u) ∧ ((kSrc n s).refill = none → u = s) ∧
    (∀ x, (kSrc n s).refill = some x → rdBit (O.KET_SRC_STATUS n) 4 s = false → Reached x s u ∧ u.objs = s.objs ∧ u.ket.queue = s.ket.queue ∧ (kSrc n u).tokens = min (rd O.KET_BURST s) ((kSrc n s).tokens + 1) ∧
      (kSrc n u).refill = (if (kSrc n u).tokens < rd O.KET_BURST s then some (x + ms (rd O.KET_REFILL s)) else none)) ∧
    (∀ x, (kSrc n s).refill = some x → rdBit (O.KET_SRC_STATUS n) 4 s = true → n < 256 → ∃ t, u = queueEvent 5 n (srcClass n) (instNow (advTo x s)) (kSrc n s).lost (kSrc n s).data t ∧ Reached x s t ∧
      rdBit (O.KET_SRC_STATUS n) 4 t = false ∧ (kSrc n t).lost = 0 ∧ (kSrc n t).refill = some (x + ms (rd O.KET_REFILL s)) ∧ SameObjs [O.KET_SRC_STATUS n] s t ∧ t.ket.queue = s.ket.queue)) ∧
  (∀ s : State, isApex s = true ∨ s.ket.queue = [] ∨ inL5 (eventsLane s) s = false → exec .eventsFrameSend s = .next s) ∧
  (∀ s : State, isApex s = false → s.ket.queue ≠ [] → inL5 (eventsLane s) s = true → ∃ t u, exec .eventsFrameSend s = .next t ∧
    (s.ket.lastFrame = none → u = s) ∧ (∀ x, s.ket.lastFrame = some x → u = advTo (x + us (rd O.KET_TX_GAP s)) s) ∧
    (queueRoom (eventsLane s) 4 (32 * (min 7 s.ket.queue.length + 1)) false u = false → t = u) ∧
    (queueRoom (eventsLane s) 4 (32 * (min 7 s.ket.queue.length + 1)) false u = true → ∃ v,
      v = sendFrame 4 0 false (nodeAddr 0) (if isNode s then sideB s else rd O.RED_OBEYED s == 1) true false
        (.events { fseq := (s.ket.fseq + 1) % 2 ^ 32, entries := s.ket.queue.take 7 }) [eventsLane s] u ∧
      t = queueShrunk (updKet (fun k => { k with queue := k.queue.drop (min 7 s.ket.queue.length), fseq := (s.ket.fseq + 1) % 2 ^ 32, lastFrame := some v.tick }) v))) ∧
  (∀ (src : Nat) (side : Bool) (e : Events) (s : State), isApex s = false → exec (.eventsRx src side e) s = .next s) ∧
  (∀ (src : Nat) (side : Bool) (e : Events) (s : State), isApex s = true → ∃ t u v gap, exec (.eventsRx src side e) s = .next t ∧
    (aget s.ket.rxFseq (src, side) = none → gap = 0) ∧ (∀ l, aget s.ket.rxFseq (src, side) = some l → gap = if (e.fseq + 2 ^ 32 - l - 1) % 2 ^ 32 < 2 ^ 31 then (e.fseq + 2 ^ 32 - l - 1) % 2 ^ 32 else 0) ∧
    rd O.KET_RX_GAP u = satU 32 (rd O.KET_RX_GAP s + gap) ∧ SameObjs [O.KET_RX_GAP] s u ∧ u = { s with objs := u.objs, ket := { s.ket with rxFseq := aset s.ket.rxFseq (src, side) e.fseq } } ∧
    v = each e.entries placeEvent u ∧ t = if v.ket.dropped = 0 then v else setLive 226 true 0 v) ∧
  (∀ (e : Event) (s : State), (6 ≤ e.kind → 4096 ≤ s.ket.queue.length → placeEvent e s = bump (O.KET_CLASS_DROPPED 9) s) ∧
    (e.kind < 6 → 4080 ≤ s.ket.queue.length → (placeEvent e s).ket.queue = s.ket.queue ∧ (placeEvent e s).ket.dropped = s.ket.dropped + 1) ∧
    (s.ket.queue.length < 4080 ∨ (6 ≤ e.kind ∧ s.ket.queue.length < 4096) → (placeEvent e s).ket = { s.ket with queue := s.ket.queue ++ [e] } ∧
      (e.cls < 13 → rd O.KET_Q_FILL (placeEvent e s) = s.ket.queue.length + 1 ∧ SameObjs [O.KET_Q_FILL, O.KET_Q_PEAK, O.KET_CLASS_LOGGED e.cls] s (placeEvent e s)))) ∧
  (∀ (v : Nat) (s : State), isApex s = true → (rd O.SYS_RECOVERY s ≠ 0 ∨ s.ket.queue = [] → exec (.ketQPop v) s = .next (refusedState stState s)) ∧
    (rd O.SYS_RECOVERY s = 0 → s.ket.queue ≠ [] → v ≠ 1 → exec (.ketQPop v) s = .next (refusedState stRange s))) ∧
  (∀ (e : Event) (l : List Event) (s : State), isApex s = true → rd O.SYS_RECOVERY s = 0 → s.ket.queue = e :: l → exec (.ketQPop 1) s = .next (answer stOk [] (queueShrunk { s with ket := { s.ket with queue := l } }))) ∧
  (∀ (v : Nat) (s : State), isApex s = false → exec (.ketQPop v) s = .next (refusedState stBlockOff s)) ∧
  (∀ s : State, ∃ u, OnlyObjs [O.KET_Q_FILL] s u ∧ rd O.KET_Q_FILL u = s.ket.queue.length ∧ (s.ket.dropped = 0 ∨ 3072 ≤ s.ket.queue.length → queueShrunk s = u) ∧
    (s.ket.dropped ≠ 0 → s.ket.queue.length < 3072 → queueShrunk s = queueEvent 6 0xFFFF 9 (instNow s) s.ket.dropped 0 (setLive 226 false 0 { u with ket := { u.ket with dropped := 0 } }))))

/-- Safety functions and states. The functions are evaluated on their channels in a node: one switched off has state 0; an enabled one goes to DEMAND on a channel that demands, stays DISCREPANT until both have been seen and neither demands, and returns by its configuration; a channel of the field island demands while the isolation link is down. After the discrepancy time a function in DEMAND becomes DISCREPANT. SAF_CMD in a cell answers BLOCK_OFF, in ROM service mode STATE, and without its right RIGHTS. RESET_FN takes a function from WAIT_RESET alone, RANGE above 7. COMMISSION asks that no arm served is deblocked. CONFIRM asks for COMMISSIONING and the equal check value, else it is counted as failed; it stores the set with its value and goes to RUN or SAFE. ABORT leaves COMMISSIONING with the stored set, or with the defaults. The degraded timer's end, and 100 ms without a cause, act in DEGRADED. The serialised set has 3,132 bytes, and its CRC gives the check word of the nine digits. What is not under way changes nothing. Release and the duplicate. RELEASE acts at the apex: the notice goes out with the next number, is to be repeated twice a millisecond apart, and the apex meets it itself, answering STATE where it stays in SAFE; without the right RIGHTS, at another node or in ROM service mode STATE, in a cell BLOCK_OFF. A node meets a release where no function demands, is discrepant or waits for its reset, no latched source asks for a block and the degraded time has not run out otherwise; a met release ends the degraded request and the trip levels, and SAFE, for DEGRADED where a cause of it stands. The status goes to both peer lanes with its fields; one received, or none for the timeout, evaluates the peer cause, absence being cause 1. A node below the apex reports its state; the apex keeps which nodes prevent a deblock, a silent one after 300 ms. A node acts on the first copy of a notice, which the other apex passes on. What is not under way changes nothing. -/
def Obligations.SafetyFunctionsAndRelease : Prop :=
  ((∀ s : State, isNode s = true → exec .safChannelChange s = .next (each (List.range 8) evalFn s)) ∧
  (∀ s : State, isNode s = false → exec .safChannelChange s = .next s) ∧
  (∀ (f : Nat) (s : State), bit (rd (O.SAF_FN_CFG f) s) 31 = false → (fnState f s = 0 → evalFn f s = s) ∧ (fnState f s ≠ 0 → evalFn f s = updPeerDiff (setFnState f 0 f s))) ∧
  (∀ (f : Nat) (s : State), bit (rd (O.SAF_FN_CFG f) s) 31 = true → ∃ a b seen new u,
    a = chanDemand (fld (rd (O.SAF_FN_CFG f) s) 15 8) (bit (rd (O.SAF_FN_CFG f) s) 26) s ∧ b = chanDemand (fld (rd (O.SAF_FN_CFG f) s) 7 0) (bit (rd (O.SAF_FN_CFG f) s) 25) s ∧
    (seen = true ↔ (s.saf.fns.getD f FnSt.init).bothSeen = true ∨ (a = true ∧ b = true)) ∧
    (fnState f s = 2 → new = if a = true ∨ b = true then 2 else if bit (rd (O.SAF_FN_CFG f) s) 27 = true then 1 else 4) ∧
    (fnState f s = 3 → new = if seen = true ∧ a = false ∧ b = false then 4 else 3) ∧
    (fnState f s ≠ 2 → fnState f s ≠ 3 → new = if a = true ∨ b = true then 2 else if fnState f s = 4 then 4 else 1) ∧
    u = updSaf (fun x => { x with fns := x.fns.set f { (s.saf.fns.getD f FnSt.init) with
      discAt := if a = b then none else some ((s.saf.fns.getD f FnSt.init).discAt.getD s.tick), bothSeen := fnState f s == 3 && seen } }) s ∧
    (new = fnState f s → evalFn f s = u) ∧ (new ≠ fnState f s → new = 2 → evalFn f s = updPeerDiff (actFn f (setFnState f 2 f u))) ∧
    (new ≠ fnState f s → new ≠ 2 → evalFn f s = updPeerDiff (evalDegrade setLive (setFnState f new f u)))) ∧
  (∀ (src : Nat) (pol : Bool) (s : State), bit src 7 = false → rd O.FIO_LINK_STATE s ≠ 1 → chanDemand src pol s = true) ∧
  (∀ (f x : Nat) (s u : State), isNode s = true → (s.saf.fns.getD f FnSt.init).discAt = some x → u = advTo (x + ms (rd (O.SAF_DISC_TIME f) s)) s →
    (fnState f s = 2 → exec (.safDiscrepancyTime f) s = .next (updPeerDiff (actFn f (setFnState f 3 f u)))) ∧ (fnState f s ≠ 2 → exec (.safDiscrepancyTime f) s = .next u)) ∧
  (∀ (f : Nat) (s : State), isNode s = false ∨ (s.saf.fns.getD f FnSt.init).discAt = none → exec (.safDiscrepancyTime f) s = .next s) ∧
  (∀ (f : Nat) (s : State), isNode s = true → rd O.SYS_RECOVERY s = 0 → exec (.safResetFn false f) s = .next (refusedState stRights s) ∧ (7 < f → exec (.safResetFn true f) s = .next (refusedState stRange s)) ∧
    (f < 8 → fnState f s ≠ 4 → exec (.safResetFn true f) s = .next (refusedState stState s)) ∧
    (f < 8 → fnState f s = 4 → exec (.safResetFn true f) s = .next (answer stOk [] (updPeerDiff (setFnState f 1 f s))))) ∧
  (∀ s : State, isNode s = true → rd O.SYS_RECOVERY s = 0 → exec (.safCommission false) s = .next (refusedState stRights s) ∧
    (servesDeblocked s = true → exec (.safCommission true) s = .next (refusedState stState s)) ∧ (servesDeblocked s = false → exec (.safCommission true) s = .next (answer stOk [] (safState 1 s)))) ∧
  (∀ s : State, isNode s = true → rd O.SYS_RECOVERY s = 0 → exec (.safConfirm false) s = .next (refusedState stRights s) ∧
    (rd O.SAF_STATE s ≠ 1 ∨ s.saf.confirmVal ≠ safCheck s → exec (.safConfirm true) s = .next (answer stState [] (bump O.SAF_CONFIRM_FAIL s))) ∧
    (rd O.SAF_STATE s = 1 → s.saf.confirmVal = safCheck s → ∃ t u, exec (.safConfirm true) s = .next (answer stOk [] t) ∧ t = evalDegrade setLive (safState (if releaseOk u then 2 else 4) u) ∧
      rd O.SAF_CHECK_STORED u = safCheck s ∧ rd O.SAF_CONFIRMS u = satU 32 (rd O.SAF_CONFIRMS s + 1) ∧ SameObjs [O.SAF_CHECK_STORED, O.SAF_CONFIRMS] s u ∧ (∃ x, u.saf.stored = some x ∧ x.check = safCheck s))) ∧
  (∀ s : State, isNode s = true → rd O.SYS_RECOVERY s = 0 → exec (.safAbort false) s = .next (refusedState stRights s) ∧ (rd O.SAF_STATE s ≠ 1 → exec (.safAbort true) s = .next (refusedState stState s)) ∧
    (rd O.SAF_STATE s = 1 → exec (.safAbort true) s = .next (answer stOk [] (loadSafety s)))) ∧
  (∀ s : State, ∃ d, d = (fun x => each (safKeys.map fun e => e.1) (fun k y => wr k (objDefault y.straps k) y) x) ∧
    (s.saf.stored = none → loadSafety s = setLive 224 true 0 (safState 0 (d s))) ∧
    (∀ set, s.saf.stored = some set → ∃ u, u = each set.vals (fun e y => wr e.1 e.2 y) (d s) ∧
      (safCheck u = set.check → loadSafety s = evalDegrade setLive (safState 2 (wr O.SAF_CHECK_STORED set.check u))) ∧
      (safCheck u ≠ set.check → loadSafety s = setLive 224 true 0 (safState 0 (d u))))) ∧
  (∀ (r : Bool) (f : Nat) (s : State), isNode s = true → rd O.SYS_RECOVERY s ≠ 0 → exec (.safCommission r) s = .next (refusedState stState s) ∧ exec (.safConfirm r) s = .next (refusedState stState s) ∧
    exec (.safAbort r) s = .next (refusedState stState s) ∧ exec (.safResetFn r f) s = .next (refusedState stState s)) ∧
  (∀ (r : Bool) (f : Nat) (s : State), isNode s = false → exec (.safCommission r) s = .next (refusedState stBlockOff s) ∧ exec (.safConfirm r) s = .next (refusedState stBlockOff s) ∧
    exec (.safAbort r) s = .next (refusedState stBlockOff s) ∧ exec (.safResetFn r f) s = .next (refusedState stBlockOff s)) ∧
  (∀ s : State, (safBytes s).length = 3132) ∧ (crc32 [0x31, 0x32, 0x33, 0x34, 0x35, 0x36, 0x37, 0x38, 0x39] = 0xCBF43926) ∧
  (∀ (x : Nat) (s : State), s.saf.degEnd = some x → rd O.SAF_STATE s = 3 → exec .safDegradedExpiry s = .next (degradeExpire setLive (advVt x s))) ∧
  (∀ s : State, rd O.SAF_STATE s ≠ 3 ∨ s.saf.degEnd = none → exec .safDegradedExpiry s = .next s) ∧
  (∀ (x : Nat) (s : State), s.saf.noCauseAt = some x → rd O.SAF_STATE s = 3 → degradeCause s = false → exec .safDegradedRecover s = .next (safState 2 (advTo (x + ms 100) s))) ∧
  (∀ s : State, rd O.SAF_STATE s ≠ 3 ∨ s.saf.noCauseAt = none ∨ degradeCause s = true → exec .safDegradedRecover s = .next s)) ∧
  ((∀ s : State, isApex s = true → isNode s = true → rd O.SYS_RECOVERY s = 0 → exec (.safRelease false) s = .next (refusedState stRights s) ∧
    ∃ t u, exec (.safRelease true) s = .next (answer (if rd O.SAF_STATE t = 4 then stState else stOk) [] t) ∧ t = tryRelease (sendRelease u) ∧
      u = { s with saf := { s.saf with rseq := (s.saf.rseq + 1) % 2 ^ 32, relLeft := 2, relAt := some (s.tick + ms 1) } }) ∧
  (∀ s : State, isApex s = false → isNode s = true → rd O.SYS_RECOVERY s = 0 → exec (.safRelease true) s = .next (refusedState stState s) ∧ exec (.safRelease false) s = .next (refusedState stRights s)) ∧
  (∀ (r : Bool) (s : State), (isNode s = true → rd O.SYS_RECOVERY s ≠ 0 → exec (.safRelease r) s = .next (refusedState stState s)) ∧
    (isNode s = false → exec (.safRelease r) s = .next (refusedState stBlockOff s))) ∧
  (∀ s : State, releaseOk s = true ↔ (∀ f < 8, fnState f s ≠ 2 ∧ fnState f s ≠ 3 ∧ fnState f s ≠ 4) ∧ s.saf.expired = false ∧ ∀ n ∈ s.ket.latched, fld (reactOf n s) 6 5 = 0) ∧
  (∀ s : State, releaseOk s = false → tryRelease s = s) ∧
  (∀ s : State, releaseOk s = true → ∃ u, u = { s with saf := { s.saf with causes := s.saf.causes.filter (fun c => c.1 != .degraded), tripHeld := false, expired := false } } ∧
    (rd O.SAF_STATE s ≠ 4 → tryRelease s = u) ∧ (rd O.SAF_STATE s = 4 → degradeCause u = true → tryRelease s = enterDegraded setLive u) ∧
    (rd O.SAF_STATE s = 4 → degradeCause u = false → tryRelease s = safState 2 u)) ∧
  (∀ (x : Nat) (s : State), s.saf.relAt = some x → s.saf.relLeft ≠ 0 → ∃ t u, exec .releaseRepeat s = .next t ∧ u = sendRelease (advTo x s) ∧
    t = updSaf (fun y => { y with relLeft := y.relLeft - 1, relAt := if y.relLeft == 1 then none else some (x + ms 1) }) u) ∧
  (∀ s : State, s.saf.relAt = none ∨ s.saf.relLeft = 0 → exec .releaseRepeat s = .next s) ∧
  (∀ s : State, isNode s = true → isDuplex s = true → ∃ p, exec .safeStatusSend s = .next (sendFrame 4 14 true (nodeAddr (nodeNum s)) (!sideB s) true false (.safe p) [laneP0, laneP1]
    (updSaf (fun x => { x with sseq := (s.saf.sseq + 1) % 2 ^ 32 }) s)) ∧ p.sseq = (s.saf.sseq + 1) % 2 ^ 32 ∧ p.state = rd O.SAF_STATE s ∧ p.check = rd O.SAF_CHECK_STORED s ∧ p.fnState = rd O.SAF_FN_STATE s ∧
    p.blockHeld = !s.saf.causes.isEmpty ∧ p.urgentHeld = urgentHeld s ∧ p.degLeft = degLeft s) ∧
  (∀ s : State, isNode s = false ∨ isDuplex s = false → exec .safeStatusSend s = .next s ∧ exec .safPeerTimeout s = .next s) ∧
  (∀ (p : SafeStatus) (s : State), isNode s = true → ∃ t u, exec (.safeStatusRx p) s = .next t ∧ t = evalPeer (updPeerDiff u) ∧
    u = { s with saf := { s.saf with peer := some p, peerLast := some s.tick, peerMissing := false, checkDiffers := p.check != rd O.SAF_CHECK_STORED s } }) ∧
  (∀ (p : SafeStatus) (s : State), isNode s = false → exec (.safeStatusRx p) s = .next s) ∧
  (∀ s : State, isNode s = true → isDuplex s = true → ∃ t u, exec .safPeerTimeout s = .next t ∧ t = evalPeer u ∧ u.saf = { s.saf with peerMissing := true } ∧ u.objs = s.objs ∧
    u.tick = max s.tick (s.saf.peerLast.getD 0 + ms (rd O.SAF_PEER_TIMEOUT s)) ∧ peerCause u = some 1) ∧
  (∀ s : State, isNode s = true → isApex s = false → exec .safStateReport s =
    .next (sendToNode 5 2 0 (sideB s) (.nreport (.safState (rd O.SAF_STATE s) s.saf.checkDiffers (rd O.SAF_CHECK_STORED s))) s)) ∧
  (∀ s : State, isNode s = false ∨ isApex s = true → exec .safStateReport s = .next s) ∧
  (∀ (n : Nat) (s : State), isApex s = true → n ≤ 63 → ∃ t, exec (.safNodeSilent n) s = .next t ∧ t.saf.nodeBad = aset s.saf.nodeBad n true ∧
    (∀ m, bit (rd O.SAF_BLOCK_NODES t) m = t.saf.nodeBad.any fun e => e.1 == m && e.2) ∧ SameObjs [O.SAF_BLOCK_NODES] s t ∧ t.tick = max s.tick ((aget s.saf.nodes n).getD 0 + ms 300)) ∧
  (∀ (n st stored : Nat) (d : Bool) (s : State), isApex s = true → n ≤ 63 → ∃ t bad, exec (.reportSafStateRx n st d stored) s = .next t ∧ SameObjs [O.SAF_BLOCK_NODES] s t ∧
    (bad = true ↔ d = true ∨ st = 0 ∨ st = 1 ∨ st = 4) ∧ t.saf.nodeBad = aset s.saf.nodeBad n bad ∧ t.saf.nodes = aset s.saf.nodes n s.tick ∧
    (∀ m, bit (rd O.SAF_BLOCK_NODES t) m = t.saf.nodeBad.any fun e => e.1 == m && e.2)) ∧
  (∀ (n st stored : Nat) (d : Bool) (s : State), isApex s = false ∨ 63 < n → exec (.reportSafStateRx n st d stored) s = .next s ∧ exec (.safNodeSilent n) s = .next s) ∧
  (∀ (q : Nat) (s : State), isNode s = false ∨ s.saf.rseqSeen = some q → exec (.reportReleaseRx q) s = .next s) ∧
  (∀ (q : Nat) (s : State), isNode s = true → s.saf.rseqSeen ≠ some q → ∃ t u v, exec (.reportReleaseRx q) s = .next t ∧ u = updSaf (fun x => { x with rseqSeen := some q }) s ∧
    (isApex s = true → v = each (otherNodes u) (fun n => sendToNode 5 2 n (sideB u) (.nreport (.release q))) u) ∧ (isApex s = false → v = u) ∧ t = tryRelease v))

/-- Tasks. ENABLE and DISABLE are refused with STATE for system tasks, and every command of TSK_CMD in ROM service mode. ENABLE of a DORMANT task is refused for the kind OFF, an odd entry or one below the program memory, a stack not of whole words or below the data memory, a phase or offset out of its period, a deadline beyond its interval, or a commit size beyond what is free; taken it makes the task IDLE with an empty buffer, its commit size allotted and its next TICK release computed; an enabled task stays as it is. DISABLE of an enabled task ends it without a counter and returns the allotment, of a DORMANT one changes nothing. SIGNAL, from TSK_CMD or from a port, releases an enabled task bound to it, any other changes nothing. A release of an IDLE task makes it READY at the tail, or ON_DECK where a slot holds it; one of an active task sets PENDING where its kind is EVENT, a further one is lost and counted; in a cell without its application part it changes nothing for an application task. CLEAR_COUNTERS sets the counters per core and per task to 0. TSK_TICK is written from 100 to 40,000 while every application task is DORMANT, else STATE or RANGE, STATE in ROM service mode. Instances. A task goes to a core its affinity allows that is free or runs a task of greater priority number, its latest core first; on a free core with the task in its slot it runs with a hit. An abort counts by its cause, drops the commit, makes the task IDLE and raises source 231. DONE at or after the deadline aborts by cause 1, with a buffer beyond its size by cause 3; else the commit is applied, memory entries first, a word stored in its memory, a refused or wide object counted, and a task still RUNNING ends with its greatest response shown. DELAY parks the instance for its number of ticks. A write of WIN_STATUS clears the bits written as 1. A fault aborts the core's task by cause 2, counted as uncorrectable where memory caused it. The deadline of an active instance aborts it by cause 1: its release and TSK_DEADLINE, or the interval where that is 0 and none for an EVENT task, and for a PERIOD task its next release at the latest. Ports of a core that runs no task, and what is not under way, change nothing. -/
def Obligations.TasksRunAndEnd : Prop :=
  ((∀ (n : Nat) (s : State), n < 16 → exec (.taskEnable n) s = .next (refusedState stState s) ∧ exec (.taskDisable n) s = .next (refusedState stState s)) ∧
  (∀ (n v : Nat) (s : State), n < 256 → rd O.SYS_RECOVERY s ≠ 0 → exec (.taskEnable n) s = .next (refusedState stState s) ∧ exec (.taskDisable n) s = .next (refusedState stState s) ∧
    exec (.taskSignal n) s = .next (refusedState stState s) ∧ exec .tskCmdClearCounters s = .next (refusedState stState s) ∧ exec (.tskTick v) s = .next (refusedState stState s)) ∧
  (∀ (n : Nat) (s : State), rd (O.TSK_KIND n) s = 0 ∨ rd (O.TSK_ENTRY n) s % 2 = 1 ∨ rd (O.TSK_ENTRY n) s < 0x10000000 ∨ rd (O.TSK_STACK n) s % 4 ≠ 0 ∨ rd (O.TSK_STACK n) s < 0x20000000 ∨
      rd (O.TSK_DIV n) s ≤ rd (O.TSK_PHASE n) s ∨ rd O.TIM_PERIOD s ≤ rd (O.TSK_OFFSET n) s ∨ (rd (O.TSK_KIND n) s = 2 ∧ rd (O.TSK_INTERVAL n) s * rd O.TSK_TICK s < rd (O.TSK_DEADLINE n) s) ∨
      (rd (O.TSK_KIND n) s = 1 ∧ rd (O.TSK_DIV n) s * tOf (kNow s) s < rd (O.TSK_DEADLINE n) s) ∨ rd O.TSK_COMMIT_FREE s < rd (O.TSK_COMMIT_MAX n) s → enableRefused n s = true) ∧
  (∀ (n : Nat) (s : State), 16 ≤ n → n < 256 → taskState n s = 0 → enableRefused n s = true → exec (.taskEnable n) s = .next (refusedState stState s)) ∧
  (∀ (n : Nat) (s : State), rd O.SYS_RECOVERY s = 0 → 16 ≤ n → n < 256 → taskState n s = 0 → enableRefused n s = false → ∃ t r, exec (.taskEnable n) s = .next t ∧ taskState n t = 1 ∧
    taskPending n t = taskPending n s ∧
    rd O.TSK_COMMIT_FREE t = rd O.TSK_COMMIT_FREE s - rd (O.TSK_COMMIT_MAX n) s ∧ SameObjs [O.TSK_STATE n, O.TSK_COMMIT_FREE] s t ∧ taskRec? n t = some r ∧ r.buf = [] ∧ r.wake = none ∧
    r.nextTick = (if rd (O.TSK_KIND n) s = 2 then some (tickNo s + rd (O.TSK_INTERVAL n) s) else none) ∧ t.resp = [stOk] ∧ t.mem = s.mem ∧ t.tsk.order = s.tsk.order ∧ t.tsk.ports = s.tsk.ports) ∧
  (∀ (n : Nat) (s : State), rd O.SYS_RECOVERY s = 0 → 16 ≤ n → n < 256 → (taskState n s ≠ 0 → exec (.taskEnable n) s = .next (answer stOk [] s)) ∧
    (taskState n s = 0 → exec (.taskDisable n) s = .next (answer stOk [] s))) ∧
  (∀ (n : Nat) (s : State), rd O.SYS_RECOVERY s = 0 → 16 ≤ n → n < 256 → taskState n s ≠ 0 → ∃ u, exec (.taskDisable n) s = .next (answer stOk [] (dispatch u)) ∧ taskState n u = 0 ∧ taskPending n u = false ∧
    rd (O.TSK_LAST_CAUSE n) u = 5 ∧
    rd O.TSK_COMMIT_FREE u = rd O.TSK_COMMIT_FREE s + rd (O.TSK_COMMIT_MAX n) s ∧ rd (O.TSK_OVERRUNS n) u = rd (O.TSK_OVERRUNS n) s ∧ rd (O.TSK_FAULTS n) u = rd (O.TSK_FAULTS n) s ∧
    rd (O.TSK_COMMIT_DROPPED n) u = rd (O.TSK_COMMIT_DROPPED n) s ∧ taskRec? n u = none ∧ n ∉ u.tsk.order ∧ u.mem = s.mem) ∧
  (∀ (n : Nat) (s : State), rd O.SYS_RECOVERY s = 0 → n < 256 → exec (.taskSignal n) s = .next (answer stOk [] (signalTask n s))) ∧
  (∀ (c n : Nat) (s : State), (coreTask c s ≠ 0xFFFF → n < 256 → exec (.portSignal c n) s = .next (signalTask n s)) ∧ (coreTask c s = 0xFFFF ∨ 256 ≤ n → exec (.portSignal c n) s = .next s)) ∧
  (∀ (n : Nat) (s : State), (rd (O.TSK_KIND n) s ≠ 3 ∨ rd (O.TSK_EVENT n) s ≠ 0 ∨ taskState n s = 0 → signalTask n s = s) ∧
    (rd (O.TSK_KIND n) s = 3 → rd (O.TSK_EVENT n) s = 0 → taskState n s ≠ 0 → signalTask n s = dispatch (release n s))) ∧
  (∀ (n : Nat) (s : State), taskState n s = 0 ∨ (16 ≤ n ∧ appLeftOut s = true) ∨ (2 ≤ taskState n s ∧ rd (O.TSK_KIND n) s ≠ 3) → release n s = s) ∧
  (∀ (n : Nat) (s : State), n < 256 → n < 16 ∨ appLeftOut s = false → taskState n s = 1 → ∃ u, u = release n s ∧ taskState n u = (if deckOf n s = none then 2 else 3) ∧
    rd (O.TSK_RELEASES n) u = satU 32 (rd (O.TSK_RELEASES n) s + 1) ∧ rd O.TSK_READY_N u = u.tsk.order.length ∧ u.tsk.order.getLast? = some n ∧ SameObjs [O.TSK_STATE n, O.TSK_RELEASES n, O.TSK_READY_N] s u ∧
    (∀ r ∈ u.tsk.tasks, r.n = n → r.rel = s.tick ∧ r.entry = rd (O.TSK_ENTRY n) s ∧ r.stack = rd (O.TSK_STACK n) s ∧ r.buf = [])) ∧
  (∀ (n : Nat) (s : State), n < 256 → n < 16 ∨ appLeftOut s = false → rd (O.TSK_KIND n) s = 3 → 2 ≤ taskState n s →
    (taskPending n s = false → OnlyObjs [O.TSK_STATE n] s (release n s) ∧ taskPending n (release n s) = true ∧ taskState n (release n s) = taskState n s) ∧
    (taskPending n s = true → OnlyObjs [O.TSK_RELEASE_LOST n] s (release n s) ∧ rd (O.TSK_RELEASE_LOST n) (release n s) = satU 32 (rd (O.TSK_RELEASE_LOST n) s + 1))) ∧
  (∀ s : State, rd O.SYS_RECOVERY s = 0 → ∃ t, exec .tskCmdClearCounters s = .next t ∧ t.resp = [stOk] ∧ t.mem = s.mem ∧ t.tsk.tasks = s.tsk.tasks ∧ t.tsk.order = s.tsk.order ∧
    (∀ c < 8, rd (O.TSK_ONDECK_HITS c) t = 0 ∧ rd (O.TSK_ONDECK_MISSES c) t = 0 ∧ rd (O.TSK_CORE_BUSY c) t = 0 ∧ coreTask c t = coreTask c s) ∧
    (∀ n < 256, rd (O.TSK_RELEASES n) t = 0 ∧ rd (O.TSK_OVERRUNS n) t = 0 ∧ rd (O.TSK_FAULTS n) t = 0 ∧ rd (O.TSK_RELEASE_LOST n) t = 0 ∧ rd (O.TSK_COMMIT_DROPPED n) t = 0 ∧ rd (O.TSK_COMMIT_ERR n) t = 0 ∧
      taskState n t = taskState n s ∧ rd (O.TSK_RESP_MAX n) t = rd (O.TSK_RESP_MAX n) s)) ∧
  (∀ (n v : Nat) (r : TaskRec) (s : State), r ∈ s.tsk.tasks → r.n = n → 16 ≤ n → taskState n s ≠ 0 → exec (.tskTick v) s = .next (refusedState stState s)) ∧
  (∀ (v : Nat) (s : State), rd O.SYS_RECOVERY s = 0 → (∀ r ∈ s.tsk.tasks, r.n < 16 ∨ taskState r.n s = 0) → (v < 100 ∨ 40000 < v → exec (.tskTick v) s = .next (refusedState stRange s)) ∧
    (100 ≤ v → v ≤ 40000 → ∃ t, exec (.tskTick v) s = .next t ∧ Wrote [O.TSK_TICK] s t ∧ rd O.TSK_TICK t = v))) ∧
  ((∀ (t c : Nat) (s : State), chooseCore t s = some c → c ∈ liveCores s ∧ bit (rd (O.TSK_AFFINITY t) s) c = true ∧ (coreTask c s = 0xFFFF ∨ prio t s < prio (coreTask c s) s)) ∧
  (∀ (t c : Nat) (s : State), c ∈ liveCores s → bit (rd (O.TSK_AFFINITY t) s) c = true → coreTask c s = 0xFFFF → rd (O.TSK_LAST_CORE t) s = c → chooseCore t s = some c) ∧
  (∀ (t c : Nat) (s : State), t < 256 → c < 8 → coreTask c s = 0xFFFF → coreDeck c s = t → ∃ u, u = dispatchOn t c s ∧ taskState t u = 4 ∧ coreTask c u = t ∧ rd (O.TSK_LAST_CORE t) u = c ∧ t ∉ u.tsk.order ∧
    rd (O.TSK_ONDECK_HITS c) u = satU 32 (rd (O.TSK_ONDECK_HITS c) s + 1) ∧ rd (O.TSK_ONDECK_MISSES c) u = rd (O.TSK_ONDECK_MISSES c) s) ∧
  (∀ (n cause : Nat) (s : State), (taskState n s < 2 → abortTask n cause s = s ∧ abortAndDispatch n cause s = s) ∧ (2 ≤ taskState n s → abortAndDispatch n cause s = dispatch (abortTask n cause s))) ∧
  (∀ (n cause : Nat) (s : State), n < 256 → 1 ≤ cause → cause ≤ 4 → 2 ≤ taskState n s → taskPending n s = false → ∃ u, abortTask n cause s = pulse 231 n u ∧ taskState n u = 1 ∧ rd (O.TSK_LAST_CAUSE n) u = cause ∧
    rd (O.TSK_COMMIT_DROPPED n) u = satU 32 (rd (O.TSK_COMMIT_DROPPED n) s + 1) ∧ rd (O.TSK_OVERRUNS n) u = (if cause = 1 then satU 32 (rd (O.TSK_OVERRUNS n) s + 1) else rd (O.TSK_OVERRUNS n) s) ∧
    rd (O.TSK_FAULTS n) u = (if cause = 2 then satU 32 (rd (O.TSK_FAULTS n) s + 1) else rd (O.TSK_FAULTS n) s) ∧ n ∉ u.tsk.order ∧ u.mem = s.mem ∧ (∀ r ∈ u.tsk.tasks, r.n = n → r.buf = [] ∧ r.wake = none)) ∧
  (∀ (c : Nat) (s : State), taskRec? (coreTask c s) s = none → exec (.taskDone c) s = .next s) ∧
  (∀ (c n : Nat) (r : TaskRec) (s : State), coreTask c s = n → taskRec? n s = some r →
    ((∃ d, deadlineAt r s = some d ∧ d ≤ s.tick) → exec (.taskDone c) s = .next (abortAndDispatch n 1 s)) ∧
    ((∀ d, deadlineAt r s = some d → s.tick < d) → rd (O.TSK_COMMIT_MAX n) s < r.buf.length → exec (.taskDone c) s = .next (abortAndDispatch n 3 s)) ∧
    ((∀ d, deadlineAt r s = some d → s.tick < d) → r.buf.length ≤ rd (O.TSK_COMMIT_MAX n) s → ∃ t u v, exec (.taskDone c) s = .next t ∧
      u = each (r.buf.filter fun e => decide (0x28000000 ≤ e.1)) (commitEntry n c) (each (r.buf.filter fun e => decide (e.1 < 0x28000000)) (commitEntry n c) s) ∧
      OnlyObjs [O.TSK_RESP_MAX n] u v ∧ rd (O.TSK_RESP_MAX n) v = satU 32 (max (nsOfTicks (u.tick - r.rel)) (rd (O.TSK_RESP_MAX n) u)) ∧
      (taskState n u = 4 → t = dispatch (endInstance n v)) ∧ (taskState n u ≠ 4 → t = u))) ∧
  (∀ (n c a v : Nat) (s : State), 0x24000000 ≤ a → a < 0x28000000 → ∃ u, u = commitEntry n c (a, v) s ∧ u.objs = s.objs ∧ ldBytes (a - 0x4000000) 4 u = leBytes 4 v ∧
    ∀ b, b < a - 0x4000000 ∨ a - 0x4000000 + 4 ≤ b → ldByte b u = ldByte b s) ∧
  (∀ (n c a v : Nat) (s : State), 0x44000000 ≤ a → (32 < objBits (winKey (a - 0x44000000)) → commitEntry n c (a, v) s = bump (O.TSK_COMMIT_ERR n) s) ∧
    (objBits (winKey (a - 0x44000000)) ≤ 32 → ∃ r, r = winWrite c (winKey (a - 0x44000000)) v (decide (n < 16)) s ∧
      commitEntry n c (a, v) s = if r.1 = 0 then r.2 else bump (O.TSK_COMMIT_ERR n) r.2)) ∧
  (∀ (c n : Nat) (s : State), coreTask c s = 0xFFFF ∨ n = 0 ∨ 2 ^ 24 ≤ n → exec (.taskDelay c n) s = .next s) ∧
  (∀ (c n t : Nat) (s : State), coreTask c s = t → t < 256 → c < 8 → 1 ≤ n → n < 2 ^ 24 → ∃ u, exec (.taskDelay c n) s = .next (dispatch u) ∧ taskState t u = 5 ∧ coreTask c u = 0xFFFF ∧
    (∀ r ∈ u.tsk.tasks, r.n = t → r.wake = some (s.tick / max (rd O.TSK_TICK s) 1 + n)) ∧ u.mem = s.mem) ∧
  (∀ (c v : Nat) (s : State), exec (.winStatus c v) s = .next { s with tsk := { s.tsk with ports := s.tsk.ports.modify c fun p =>
    { p with winErr := p.winErr && !bit v 0, commitFull := p.commitFull && !bit v 1 } } }) ∧
  (∀ (c : Nat) (s : State), (coreTask c s = 0xFFFF → ∀ e, exec (.taskFault c e) s = .next s) ∧ (coreTask c s ≠ 0xFFFF → exec (.taskFault c false) s = .next (abortAndDispatch (coreTask c s) 2 s) ∧
    ∃ u, exec (.taskFault c true) s = .next (abortAndDispatch (coreTask c s) 2 u) ∧ OnlyObjs [O.SYS_ECC_UNCORR] s u ∧ rd O.SYS_ECC_UNCORR u = satU 32 (rd O.SYS_ECC_UNCORR s + 1))) ∧
  (∀ (n d : Nat) (r : TaskRec) (s : State), taskRec? n s = some r → 2 ≤ taskState n s → deadlineAt r s = some d → exec (.taskDeadline n) s = .next (dispatch (abortTask n 1 (advTo d s)))) ∧
  (∀ (n : Nat) (s : State), taskRec? n s = none ∨ taskState n s < 2 ∨ (∃ r, taskRec? n s = some r ∧ deadlineAt r s = none) → exec (.taskDeadline n) s = .next s) ∧
  (∀ (d : Nat) (r : TaskRec) (s : State), d = rd (O.TSK_DEADLINE r.n) s →
    (rd (O.TSK_KIND r.n) s = 3 → deadlineAt r s = if d = 0 then none else some (r.rel + d)) ∧
    (rd (O.TSK_KIND r.n) s = 2 → deadlineAt r s = some (r.rel + if d = 0 then rd (O.TSK_INTERVAL r.n) s * rd O.TSK_TICK s else d)) ∧
    (rd (O.TSK_KIND r.n) s = 1 → deadlineAt r s = some (min (r.rel + if d = 0 then rd (O.TSK_DIV r.n) s * tOf (kNow s) s else d) (tickOfVt (relAt r.n (nextRelPeriod r.n s) s) s)))))

/-- Accesses, releases and ticks. An access of a core that runs a task, of 1, 2 or 4 bytes at a multiple of its size, answers the value the memory map gives, or is a fault that aborts the task where the map has nothing there; one that is not at a multiple is a fault; any other changes nothing. Stores to the program memory, to reserved addresses, by an application task to the system part, of less than a word to a commit alias, and to ports the table does not list are faults. LOCAL memory is each core's own, shared data memory reads what was stored and nothing else changes; a commit store changes nothing but the buffer, and beyond its size marks it full; a refused window access reads 0 and sets ERR; the ports answer task and core. A PERIOD release comes at its offset in a period of its phase, the latest remembered, an active instance aborted first. A dispatcher tick comes at the next multiple of TSK_TICK: due TICK tasks still active are aborted, the due entries act in the order of their wake tick, and the dispatcher runs; without a due entry only time passes. The look-ahead fills the slots TSK_PREFETCH before a release, each with a task its core may run. What is not under way changes nothing. -/
def Obligations.AccessesAndReleases : Prop :=
  (∀ (c a size : Nat) (v : Option Nat) (s : State), coreTask c s = 0xFFFF ∨ (size ≠ 1 ∧ size ≠ 2 ∧ size ≠ 4) → exec (.objectWindowAccess c a size v) s = .next s) ∧
  (∀ (c a size : Nat) (v : Option Nat) (s : State), coreTask c s ≠ 0xFFFF → size = 2 ∨ size = 4 → a % size ≠ 0 → exec (.objectWindowAccess c a size v) s = .next (abortAndDispatch (coreTask c s) 2 s)) ∧
  (∀ (c a size : Nat) (v : Option Nat) (s : State), coreTask c s ≠ 0xFFFF → size = 1 ∨ size = 2 ∨ size = 4 → a % size = 0 →
    (mapAccess c (coreTask c s) a size v s = none → exec (.objectWindowAccess c a size v) s = .next (abortAndDispatch (coreTask c s) 2 s)) ∧
    (∀ x t, mapAccess c (coreTask c s) a size v s = some (x, t) → exec (.objectWindowAccess c a size v) s = .next (answer stOk [x] t))) ∧
  (∀ (c a v : Nat) (s : State), coreTask c s ≠ 0xFFFF → a % 4 = 0 → (0x10000000 ≤ a ∧ a < 0x10080000) ∨ (0x30000000 ≤ a ∧ a < 0x40000000) ∨ (16 ≤ coreTask c s ∧ 0x20000000 ≤ a ∧ a < 0x20040000) ∨ a = 0x4C000020 →
    exec (.objectWindowAccess c a 4 (some v)) s = .next (abortAndDispatch (coreTask c s) 2 s)) ∧
  (∀ (c a v : Nat) (s : State), coreTask c s ≠ 0xFFFF → 0x24000000 ≤ a → a < 0x24400000 → exec (.objectWindowAccess c a 1 (some v)) s = .next (abortAndDispatch (coreTask c s) 2 s)) ∧
  (∀ (c a v : Nat) (s : State), c < 8 → coreTask c s ≠ 0xFFFF → a % 4 = 0 → 0x28000000 ≤ a → a < 0x28010000 → ∃ t, exec (.objectWindowAccess c a 4 (some v)) s = .next t ∧ t.objs = s.objs ∧ t.tsk = s.tsk ∧
    ldBytes (2 ^ 44 * (c + 1) + (a - 0x28000000)) 4 t = leBytes 4 v ∧
    (∀ b, b < 2 ^ 44 * (c + 1) + (a - 0x28000000) ∨ 2 ^ 44 * (c + 1) + (a - 0x28000000) + 4 ≤ b → ldByte b t = ldByte b s)) ∧
  (∀ (c a : Nat) (s : State), coreTask c s ≠ 0xFFFF → a % 4 = 0 → 0x20100000 ≤ a → a < 0x20400000 → isNode s = true → exec (.objectWindowAccess c a 4 none) s = .next (answer stOk [ofLe (ldBytes a 4 s)] s)) ∧
  (∀ (c a v : Nat) (s : State), coreTask c s ≠ 0xFFFF → a % 4 = 0 → 0x20100000 ≤ a → a < 0x20400000 → isNode s = true → ∃ t, exec (.objectWindowAccess c a 4 (some v)) s = .next t ∧ ldBytes a 4 t = leBytes 4 v ∧ t.objs = s.objs ∧
    ∀ b, b < a ∨ a + 4 ≤ b → ldByte b t = ldByte b s) ∧
  (∀ (c a v : Nat) (r : TaskRec) (s : State), coreTask c s ≠ 0xFFFF → a % 4 = 0 → 0x44000000 ≤ a → a < 0x48000000 → taskRec? (coreTask c s) s = some r → r.buf.length < rd (O.TSK_COMMIT_MAX (coreTask c s)) s →
    ∃ t, exec (.objectWindowAccess c a 4 (some v)) s = .next t ∧ t.objs = s.objs ∧ t.mem = s.mem ∧ taskRec? (coreTask c s) t = some { r with buf := r.buf ++ [(a, low 32 v)] } ∧ t.tsk.ports = s.tsk.ports) ∧
  (∀ (c a v : Nat) (r : TaskRec) (s : State), c < s.tsk.ports.length → coreTask c s ≠ 0xFFFF → a % 4 = 0 → 0x44000000 ≤ a → a < 0x48000000 → taskRec? (coreTask c s) s = some r → rd (O.TSK_COMMIT_MAX (coreTask c s)) s ≤ r.buf.length →
    ∃ t, exec (.objectWindowAccess c a 4 (some v)) s = .next t ∧ t.objs = s.objs ∧ t.mem = s.mem ∧ (port c t).commitFull = true) ∧
  (∀ (c : Nat) (s : State), c < s.tsk.ports.length → coreTask c s ≠ 0xFFFF → ∃ t, exec (.objectWindowAccess c 0x40000000 4 none) s = .next t ∧ t.objs = s.objs ∧ t.resp = [stOk, 0] ∧ (port c t).winErr = true) ∧
  (∀ (c : Nat) (s : State), coreTask c s ≠ 0xFFFF → exec (.objectWindowAccess c 0x4C000000 4 none) s = .next (answer stOk [coreTask c s] s) ∧ exec (.objectWindowAccess c 0x4C000004 4 none) s = .next (answer stOk [c] s)) ∧
  (∀ (n : Nat) (s : State), taskState n s = 0 ∨ rd (O.TSK_KIND n) s ≠ 1 ∨ hasGrid s = false → exec (.periodRelease n) s = .next s) ∧
  (∀ (n : Nat) (s : State), taskState n s ≠ 0 → rd (O.TSK_KIND n) s = 1 → hasGrid s = true → ∃ u v, exec (.periodRelease n) s = .next (dispatch (release n (updTask n (fun t => { t with lastK := some (nextRelPeriod n s) }) v))) ∧
    u = advVt (pOf (nextRelPeriod n s) s + min (rd (O.TSK_OFFSET n) s) (tOf (nextRelPeriod n s) s - 1)) s ∧ v = if 2 ≤ taskState n s then abortTask n 1 u else u) ∧
  (∀ (n : Nat) (s : State), 0 < rd (O.TSK_DIV n) s → rd (O.TSK_PHASE n) s < rd (O.TSK_DIV n) s → nextRelPeriod n s % rd (O.TSK_DIV n) s = rd (O.TSK_PHASE n) s ∧ kNow s ≤ nextRelPeriod n s ∧
    ∀ r k, taskRec? n s = some r → r.lastK = some k → k < nextRelPeriod n s) ∧
  (∀ s : State, ∃ t u due, exec .dispatcherTick s = .next t ∧ u = advTo ((s.tick / max (rd O.TSK_TICK s) 1 + 1) * max (rd O.TSK_TICK s) 1) s ∧ due = dueEntries (tickNo u) u ∧ (due = [] → t = u) ∧
    (due ≠ [] → t = dispatch (each due (fun e x => tickEntry e.2.1 e.2.2 x) (each due (fun e x => if e.2.2 && decide (2 ≤ taskState e.2.1 x) then abortTask e.2.1 1 x else x) u)))) ∧
  (∀ (d : Nat) (s : State), (∀ r ∈ s.tsk.tasks, r.nextTick = none ∧ r.wake = none) → dueEntries d s = []) ∧
  (∀ (n x : Nat) (r : TaskRec) (s : State), n < 256 → s.tsk.tasks = [r] → r.n = n → r.nextTick = none → r.wake = some x → x ≤ s.tick / max (rd O.TSK_TICK s) 1 + 1 → taskState n s = 5 →
    ∃ u, exec .dispatcherTick s = .next (dispatch u) ∧ taskState n u = 2 ∧ u.tsk.order.getLast? = some n ∧ u.tick = (s.tick / max (rd O.TSK_TICK s) 1 + 1) * max (rd O.TSK_TICK s) 1 ∧ SameObjs [O.TSK_STATE n, O.TSK_READY_N] s u) ∧
  (∀ (n : Nat) (s : State), taskState n s ≠ 1 ∨ nextRelease n s = none → exec (.onDeckLookAhead n) s = .next s) ∧
  (∀ (n t : Nat) (s : State), taskState n s = 1 → nextRelease n s = some t → exec (.onDeckLookAhead n) s = .next (fillDecks (advTo (t - rd O.TSK_PREFETCH s) s))) ∧
  (∀ (c : Nat) (s : State), deckChoice c s ≠ 0xFFFF → bit (rd (O.TSK_AFFINITY (deckChoice c s)) s) c = true)

/-- Data movers. DMA_CMD in a cell answers BLOCK_OFF, above channel 15 NO_OBJECT, in ROM service mode STATE, from a task or JOP for a channel of the firmware RIGHTS, and in a state in which Table 12.4 does not take the command STATE. START runs from DMA_DESC_HEAD; PAUSE stops at the burst boundary reached, in ERROR where an access fails on the way or, with DOMAIN_OFF, where the descriptor touches a domain being taken off; RESUME runs on; SKIP goes to the next descriptor or to IDLE; ABORT stops and forgets the chain; after PAUSE and ABORT a power-down that nothing holds up proceeds. CLEAR_COUNTERS sets the counters of Table 12.8 to 0. A fetch of a running channel without a descriptor reads the one at its address: with an error the channel stops with its code, ECC where memory failed, counted; else it is in progress, with NEXT kept, and a COMPARE begins with no mismatch. A descriptor off its memory rule is a TABLE error, one in the system's part read by another channel a PERMISSION error, and fields that R319 names are an error. An error sets state, code, place and counter, raises source 232 and fires the channel's event. What is not under way changes nothing. What a descriptor moves. A running channel with a descriptor carries it to its end, or to the burst before its first failing byte, where it stops with that code, an uncorrectable error counted, and a power-down that nothing holds up proceeds. COPY takes the source stream as it stood, overlap included, FILL repeats its pattern, COMPARE writes nothing and counts the bytes that differ; a swap takes its byte from the other half of each unit; several pairs that meet are an overlap error. Reads and writes are admitted by the address map and the domains in service. The end of a descriptor without write-back counts, and goes to the next one or to IDLE with its event. A power-down whose wait runs out stops its running channels, with DOMAIN_OFF or the error met on the way, and proceeds; without one nothing happens, and a channel without a running descriptor changes nothing. -/
def Obligations.DataMovers : Prop :=
  ((∀ (c m : Nat) (s : State), isNode s = true → rd O.SYS_RECOVERY s = 0 → c = 0 ∨ c = 8 → exec (.dmaStart c false) s = .next (refusedState stRights s) ∧ exec (.dmaPause c m false) s = .next (refusedState stRights s) ∧
    exec (.dmaResume c false) s = .next (refusedState stRights s) ∧ exec (.dmaSkip c false) s = .next (refusedState stRights s) ∧ exec (.dmaAbort c m false) s = .next (refusedState stRights s)) ∧
  (∀ (c m : Nat) (fw : Bool) (s : State), isNode s = false → c < 16 → exec (.dmaStart c fw) s = .next (refusedState stBlockOff s) ∧ exec (.dmaPause c m fw) s = .next (refusedState stBlockOff s) ∧
    exec (.dmaResume c fw) s = .next (refusedState stBlockOff s) ∧ exec (.dmaSkip c fw) s = .next (refusedState stBlockOff s) ∧ exec (.dmaAbort c m fw) s = .next (refusedState stBlockOff s) ∧
    exec .dmaGcmdClearCounters s = .next (refusedState stBlockOff s)) ∧
  (∀ (c m : Nat) (fw : Bool) (s : State), 16 ≤ c → exec (.dmaStart c fw) s = .next (refusedState stNoObject s) ∧ exec (.dmaPause c m fw) s = .next (refusedState stNoObject s) ∧
    exec (.dmaResume c fw) s = .next (refusedState stNoObject s) ∧ exec (.dmaSkip c fw) s = .next (refusedState stNoObject s) ∧ exec (.dmaAbort c m fw) s = .next (refusedState stNoObject s)) ∧
  (∀ (c m : Nat) (fw : Bool) (s : State), isNode s = true → rd O.SYS_RECOVERY s ≠ 0 → c < 16 → exec (.dmaStart c fw) s = .next (refusedState stState s) ∧ exec (.dmaPause c m fw) s = .next (refusedState stState s) ∧
    exec (.dmaResume c fw) s = .next (refusedState stState s) ∧ exec (.dmaSkip c fw) s = .next (refusedState stState s) ∧ exec (.dmaAbort c m fw) s = .next (refusedState stState s) ∧
    exec .dmaGcmdClearCounters s = .next (refusedState stState s)) ∧
  (∀ (c m : Nat) (fw : Bool) (s : State), isNode s = true → c < 16 → fw = true ∨ c % 8 ≠ 0 → (chanState c s ≠ 0 → exec (.dmaStart c fw) s = .next (refusedState stState s)) ∧
    (chanState c s ≠ 1 → exec (.dmaPause c m fw) s = .next (refusedState stState s)) ∧
    (chanState c s ≠ 2 → chanState c s ≠ 3 ∨ rd (O.DMA_ERR_CODE c) s < 6 → exec (.dmaResume c fw) s = .next (refusedState stState s)) ∧
    (chanState c s ≠ 3 → exec (.dmaSkip c fw) s = .next (refusedState stState s)) ∧ (chanState c s = 0 → exec (.dmaAbort c m fw) s = .next (refusedState stState s))) ∧
  (∀ (c : Nat) (fw : Bool) (s : State), isNode s = true → rd O.SYS_RECOVERY s = 0 → c < 16 → fw = true ∨ c % 8 ≠ 0 → chanState c s = 0 → ∃ t, exec (.dmaStart c fw) s = .next t ∧ t.resp = [stOk] ∧ chanState c t = 1 ∧
    rdBit O.DMA_ACTIVE c t = true ∧ SameObjs [O.DMA_STATE c, O.DMA_ACTIVE] s t ∧ t.mem = s.mem ∧
    t.dma.chans = s.dma.chans.modify c (fun _ => { cur := none, fetchAt := some (rd (O.DMA_DESC_HEAD c) s % 2 ^ 40), next := 0 })) ∧
  (∀ (c m : Nat) (fw : Bool) (s : State), isNode s = true → rd O.SYS_RECOVERY s = 0 → c < 16 → fw = true ∨ c % 8 ≠ 0 →
    (chanState c s = 1 → exec (.dmaPause c m fw) s = .next (answer stOk [] (pdProceed (dmaStopTo c m 2 s)))) ∧
    (chanState c s = 1 → exec (.dmaAbort c m fw) s = .next (answer stOk [] (pdProceed (setChanState c 0 (updChan c (fun _ => DmaChan.init) (dmaStopTo c m 0 s)))))) ∧
    (chanState c s ≠ 0 → chanState c s ≠ 1 → exec (.dmaAbort c m fw) s = .next (answer stOk [] (pdProceed (setChanState c 0 (updChan c (fun _ => DmaChan.init) s)))))) ∧
  (∀ (c m st : Nat) (s : State), ((chan c s).cur = none → dmaStop c m s = (none, s)) ∧
    (∀ u, dmaStop c m s = (none, u) → (st ≠ 2 ∨ s.dma.pd.any (fun p => touches c p.1 s) = false → dmaStopTo c m st s = setChanState c st u) ∧
      (st = 2 → s.dma.pd.any (fun p => touches c p.1 s) = true → dmaStopTo c m st s = chanError c 7 (rd (O.DMA_CUR_DESC c) u) (rd (O.DMA_CUR_OFFSET c) u) u)) ∧
    (∀ o e u, dmaStop c m s = (some (o, e), u) → dmaStopTo c m st s = chanError c e (rd (O.DMA_CUR_DESC c) u) o u)) ∧
  (∀ (c : Nat) (d : DmaDesc) (m : Nat) (s : State), (chan c s).cur = some d → dmaStop c m s = dmaRun c (min d.total ((rd (O.DMA_CUR_OFFSET c) s + m) / 64 * 64)) none d s) ∧
  (∀ s : State, s.dma.pd = [] → pdProceed s = s) ∧
  (∀ (c v : Nat) (s : State), c < 16 → chanState c (setChanState c v s) = v ∧ rdBit O.DMA_ACTIVE c (setChanState c v s) = (v == 1 || v == 2) ∧ OnlyObjs [O.DMA_STATE c, O.DMA_ACTIVE] s (setChanState c v s)) ∧
  (∀ (c : Nat) (fw : Bool) (s : State), isNode s = true → rd O.SYS_RECOVERY s = 0 → c < 16 → fw = true ∨ c % 8 ≠ 0 → chanState c s = 2 ∨ (chanState c s = 3 ∧ 6 ≤ rd (O.DMA_ERR_CODE c) s) →
    exec (.dmaResume c fw) s = .next (answer stOk [] (setChanState c 1 s))) ∧
  (∀ (c n : Nat) (fw : Bool) (s : State), isNode s = true → rd O.SYS_RECOVERY s = 0 → c < 16 → fw = true ∨ c % 8 ≠ 0 → chanState c s = 3 → n = (chan c s).next % 2 ^ 40 →
    exec (.dmaSkip c fw) s = .next (answer stOk [] (setChanState c (if n = 0 then 0 else 1) (updChan c (fun x => { x with cur := none, fetchAt := if n = 0 then none else some n }) s)))) ∧
  (∀ s : State, isNode s = true → rd O.SYS_RECOVERY s = 0 → ∃ t, exec .dmaGcmdClearCounters s = .next t ∧ Wrote dmaCounters s t ∧ ∀ c < 16, rd (O.DMA_DONE_COUNT c) t = 0 ∧ rd (O.DMA_BYTES c) t = 0 ∧ rd (O.DMA_ERRORS c) t = 0) ∧
  (∀ (c : Nat) (ecc : Option Bool) (s : State), chanState c s ≠ 1 ∨ (chan c s).fetchAt = none ∨ (chan c s).cur ≠ none → exec (.dmaDescriptorFetch c ecc) s = .next s) ∧
  (∀ (c a : Nat) (ecc : Option Bool) (s : State), c < 16 → (chan c s).fetchAt = some a → chanState c s = 1 → (chan c s).cur = none → ∃ t u v nx r, exec (.dmaDescriptorFetch c ecc) s = .next t ∧
    OnlyObjs [O.DMA_CUR_OFFSET c, O.DMA_CUR_DESC c] s u ∧ rd (O.DMA_CUR_DESC c) u = a ∧ rd (O.DMA_CUR_OFFSET c) u = 0 ∧
    (ecc = none ∨ (ecc = some false ∧ (readDesc c a u).1 = none) → (nx, r) = readDesc c a u) ∧ (ecc = some true → nx = none ∧ r = .inl 6) ∧ (∀ n, ecc = some false → (readDesc c a u).1 = some n → nx = some n ∧ r = .inl 6) ∧
    v = updChan c (fun x => { x with next := nx.getD 0 }) (if ecc = none then u else bump O.SYS_ECC_UNCORR u) ∧
    (∀ code, r = .inl code → t = chanError c code a 0 v) ∧
    (∀ d, r = .inr d → t.dma.chans = v.dma.chans.modify c (fun x => { x with cur := some d, fetchAt := none }) ∧ t.mem = s.mem ∧ SameObjs [O.DMA_CMP_MISMATCH c, O.DMA_CMP_FIRST c] v t ∧
      (d.op = 2 → rd (O.DMA_CMP_MISMATCH c) t = 0 ∧ rd (O.DMA_CMP_FIRST c) t = 0xFFFFFFFF) ∧ (d.op ≠ 2 → t.objs = v.objs))) ∧
  (∀ (c a : Nat) (s : State), a % 64 ≠ 0 ∨ dmaPlace a s = none → readDesc c a s = (none, .inl 1)) ∧
  (∀ (c a : Nat) (s : State), c % 8 ≠ 0 → a % 64 = 0 → 0x20000000 ≤ a → a < 0x20100000 → readDesc c a s = (none, .inl 5)) ∧
  (∀ (c ctrl n m : Nat), (c < 8 → ctrl / 2 ^ 28 % 16 ≠ 0 → descFieldBad c ctrl n m = true) ∧ (8 ≤ c → ctrl / 2 ^ 26 % 4 ≠ 0 → descFieldBad c ctrl n m = true) ∧
    (m = 0 ∨ 256 < m → descFieldBad c ctrl n m = true) ∧ (8 ≤ c → ctrl / 2 ^ 28 % 16 = 1 → n ≠ 0 → descFieldBad c ctrl n m = true)) ∧
  (∀ (c code a o : Nat) (s : State), c < 16 → o < 2 ^ 32 → ∃ u, chanError c code a o s = fireEvent (2 + c) (pulse 232 c u) ∧ chanState c u = 3 ∧ rd (O.DMA_ERR_CODE c) u = code ∧ rd (O.DMA_ERR_DESC c) u = a ∧
    rd (O.DMA_ERR_OFFSET c) u = o ∧ rd (O.DMA_ERRORS c) u = satU 32 (rd (O.DMA_ERRORS c) s + 1) ∧ rdBit O.DMA_ACTIVE c u = false ∧ u.mem = s.mem ∧
    SameObjs [O.DMA_ERR_CODE c, O.DMA_ERR_DESC c, O.DMA_ERR_OFFSET c, O.DMA_ERRORS c, O.DMA_STATE c, O.DMA_ACTIVE] s u)) ∧
  ((∀ (c a b n : Nat) (d : DmaDesc) (s : State), c < 16 → (chan c s).cur = some d → chanState c s = 1 → rd (O.DMA_CUR_OFFSET c) s = 0 → d.op = 0 → d.swap = 0 → d.src = [(a, n)] → d.dst = [(b, n)] → d.snap = none →
    0x20100000 ≤ a → a + n ≤ 0x20400000 → 0x20100000 ≤ b → b + n ≤ 0x20400000 → ∃ u, exec (.dmaDescriptorDone c none) s = .next (descDone c d u) ∧ (∀ i < n, ldByte (b + i) u = ldByte (a + i) s) ∧
      (∀ x, x < b ∨ b + n ≤ x → ldByte x u = ldByte x s) ∧ rd (O.DMA_CUR_OFFSET c) u = n ∧ rd (O.DMA_BYTES c) u = satU 64 (rd (O.DMA_BYTES c) s + n) ∧ SameObjs [O.DMA_CUR_OFFSET c, O.DMA_BYTES c] s u) ∧
  (∀ (c b n : Nat) (d : DmaDesc) (s : State), c < 16 → (chan c s).cur = some d → chanState c s = 1 → rd (O.DMA_CUR_OFFSET c) s = 0 → d.op = 1 → d.src = [] → d.dst = [(b, n)] → (∀ x ∈ d.pattern, x < 256) → 0x20100000 ≤ b → b + n ≤ 0x20400000 →
    ∃ u, exec (.dmaDescriptorDone c none) s = .next (descDone c d u) ∧ (∀ i < n, ldByte (b + i) u = d.pattern.getD (i % 8) 0) ∧ (∀ x, x < b ∨ b + n ≤ x → ldByte x u = ldByte x s)) ∧
  (∀ (c a b n : Nat) (d : DmaDesc) (s : State), c < 16 → (chan c s).cur = some d → chanState c s = 1 → rd (O.DMA_CUR_OFFSET c) s = 0 → rd (O.DMA_CMP_MISMATCH c) s = 0 → d.op = 2 → d.src = [(a, n)] → d.dst = [(b, n)] →
    0x20100000 ≤ a → a + n ≤ 0x20400000 → 0x20100000 ≤ b → b + n ≤ 0x20400000 → ∃ u, exec (.dmaDescriptorDone c none) s = .next (descDone c d u) ∧ u.mem = s.mem ∧
      rd (O.DMA_CMP_MISMATCH c) u = ((List.range n).filter fun i => ldByte (a + i) s != ldByte (b + i) s).length) ∧
  (∀ o : Nat, swapIndex 0 o = o ∧ swapIndex 1 (2 * o) = 2 * o + 1 ∧ swapIndex 1 (2 * o + 1) = 2 * o ∧ swapIndex 2 (4 * o) = 4 * o + 3 ∧ swapIndex 2 (4 * o + 1) = 4 * o + 2 ∧ swapIndex 2 (4 * o + 2) = 4 * o + 1 ∧
    swapIndex 2 (4 * o + 3) = 4 * o ∧ swapIndex 3 (4 * o) = 4 * o + 2 ∧ swapIndex 3 (4 * o + 1) = 4 * o + 3 ∧ swapIndex 3 (4 * o + 2) = 4 * o ∧ swapIndex 3 (4 * o + 3) = 4 * o + 1) ∧
  (∀ d : DmaDesc, d.op = 0 → d.src.length ≠ 1 ∨ d.dst.length ≠ 1 → ∀ x ∈ d.src, ∀ y ∈ d.dst, x.1 < y.1 + y.2 → y.1 < x.1 + x.2 → descOverlap d = true) ∧
  (∀ d : DmaDesc, (d.src.length = 1 ∧ d.dst.length = 1) ∨ d.op ≠ 0 → descOverlap d = false) ∧
  (∀ (c a : Nat) (w : Bool) (s : State), (a < 0x10000000 → dmaAccess c a w s = 4) ∧ (0x24000000 ≤ a → a < 0x48000000 → dmaAccess c a w s = 4) ∧ (0x10000000 ≤ a → a < 0x10200000 → dmaAccess c a true s = 5) ∧
    (0x20000000 ≤ a → a < 0x20100000 → c % 8 ≠ 0 → dmaAccess c a w s = 5) ∧ (0x20000000 ≤ a → a < 0x20400000 → c % 8 = 0 → dmaAccess c a w s = 0) ∧ (0x20100000 ≤ a → a < 0x20400000 → dmaAccess c a w s = 0) ∧
    (0x50000000 ≤ a → a < 0x52000000 → rdBit O.SYS_DOMAINS 18 s = false → dmaAccess c a false s = 7)) ∧
  (∀ (c o n a b : Nat) (d : DmaDesc) (s : State), c < 16 → (chan c s).cur = some d → chanState c s = 1 → rd (O.DMA_CUR_OFFSET c) s = 0 → d.op = 2 → d.src = [(a, n)] → d.dst = [(b, n)] → 0x20100000 ≤ a → a + n ≤ 0x20400000 →
    0x20100000 ≤ b → b + n ≤ 0x20400000 → o < n → ∃ u, exec (.dmaDescriptorDone c (some o)) s = .next (pdProceed (chanError c 6 d.addr (o / 64 * 64) u)) ∧ rd O.SYS_ECC_UNCORR u = satU 32 (rd O.SYS_ECC_UNCORR s + 1) ∧
      rd (O.DMA_CUR_OFFSET c) u = o / 64 * 64 ∧ u.mem = s.mem) ∧
  (∀ (c : Nat) (ecc : Option Nat) (s : State), (chan c s).cur = none ∨ chanState c s ≠ 1 → exec (.dmaDescriptorDone c ecc) s = .next s) ∧
  (∀ (c : Nat) (ecc : Option Nat) (d : DmaDesc) (u s : State), (chan c s).cur = some d → chanState c s = 1 → (dmaRun c d.total ecc d s = (none, u) → exec (.dmaDescriptorDone c ecc) s = .next (descDone c d u)) ∧
    (∀ o code, dmaRun c d.total ecc d s = (some (o, code), u) → exec (.dmaDescriptorDone c ecc) s =
      .next (pdProceed (chanError c code d.addr o (if code = 6 then bump O.SYS_ECC_UNCORR u else u))))) ∧
  (∀ (c : Nat) (d : DmaDesc) (s : State), c < 16 → c < s.dma.chans.length → d.wb = false → d.evt = false → d.op ≠ 2 → (chan c s).next % 2 ^ 40 ≠ 0 → s.dma.pd = [] → ∃ t, descDone c d s = t ∧ SameObjs [O.DMA_DONE_COUNT c] s t ∧
    rd (O.DMA_DONE_COUNT c) t = satU 32 (rd (O.DMA_DONE_COUNT c) s + 1) ∧ chan c t = { (chan c s) with cur := none, fetchAt := some ((chan c s).next % 2 ^ 40) } ∧ t.mem = s.mem) ∧
  (∀ (c : Nat) (d : DmaDesc) (s : State), c < 16 → d.wb = false → d.op ≠ 2 → (chan c s).next = 0 → ∃ u, descDone c d s = pdProceed (fireEvent (2 + c) u) ∧ chanState c u = 0 ∧ rdBit O.DMA_ACTIVE c u = false ∧
    rd (O.DMA_DONE_COUNT c) u = satU 32 (rd (O.DMA_DONE_COUNT c) s + 1)) ∧
  (∀ (m : Nat) (s : State), s.dma.pd = [] → exec (.dmaPdWaitExpiry m) s = .next s) ∧
  (∀ (m dom x : Nat) (l : List (Nat × Nat)) (s : State), s.dma.pd = (dom, x) :: l → ∃ u v, exec (.dmaPdWaitExpiry m) s = .next (pdProceed v) ∧ u = advTo (x + us (rd O.DMA_PD_WAIT s)) s ∧
    v = each (touching dom 1 u) (fun c y => chanError c (((dmaStop c m y).1.map fun r => r.2).getD 7) (rd (O.DMA_CUR_DESC c) (dmaStop c m y).2)
      (((dmaStop c m y).1.map fun r => r.1).getD (rd (O.DMA_CUR_OFFSET c) (dmaStop c m y).2)) (dmaStop c m y).2) u) ∧
  (∀ (m dom x : Nat) (s : State), s.dma.pd = [(dom, x)] → touching dom 1 s = [] → exec (.dmaPdWaitExpiry m) s = .next (domainOff dom (advTo (x + us (rd O.DMA_PD_WAIT s)) s))) ∧
  (∀ s : State, rd O.ACQ_MEM s ≠ 1 → ∃ t, t = domainOff 17 s ∧ rdBit O.SYS_DOMAINS 17 t = false ∧ SameObjs [O.SYS_DOMAINS] s t ∧ t.mem = s.mem))

/-- The isolation link. In a cell none of its commands changes anything. A down frame first ends the wait for a MAIN frame, as bad, and goes at the next multiple of 2 us, at least 2 us after the one before; its word, fixed 100 ns before, carries SYNC, SEQ, the outputs with a pair taken from its first, CLEAR_FAULTS while one waits, PMARK_OFS 127 without a grid, and a parameter: a changed one first, else the next of the cycle. The island forgets its cycle at an invalid one; a valid one gives it DO, SEQ and one parameter, ends off-times where it clears faults, forgets illegal transitions, and ends the safe state when every parameter has come in consecutive frames; outside the safe state a P-mark instant is added. Where the island has no supply, nothing happens. A MAIN frame, or its missing deadline, counts while one is awaited alone: bad ones count FRAMES_BAD and take the link DOWN at FIO_LINK_MISS of them, good ones give the states, inputs and faults of the frame and take the link UP at the 16th. A good FAST frame gives the inputs, a bad one counts. FIO_SILENCE without a down frame takes an island outside its safe state into it; FLD_VL low resets the island with every output off, and its return starts it in the safe state with every output off. A completed write of a parameter object puts its number among those sent first. -/
def Obligations.IslandLinkFrames : Prop :=
  (∀ (w : Nat) (s : State), isNode s = false → exec .fioDownFrame s = .next s ∧ exec (.islandDownFrameRx w) s = .next s ∧ exec (.mainFrameRx w) s = .next s ∧ exec .mainFrameDeadline s = .next s ∧ exec (.fastFrameRx w) s = .next s ∧
    exec .islandPowerUp s = .next s) ∧
  (∀ s : State, isNode s = true → ∃ u t f w, exec .fioDownFrame s = .next t ∧ u = (if s.fio.await then mainBad (advTo (dieS s + 624) s) else s) ∧ t.objs = u.objs ∧ t.mem = u.mem ∧ u.tick ≤ f ∧ t.tick = max u.tick (f - 40) ∧
    (u.fio.lastF = none → f % 800 = 0 ∧ f < u.tick + 800) ∧ (∀ l, u.fio.lastF = some l → l + 800 ≤ f ∧ (u.tick ≤ l + 800 → f = l + 800)) ∧
    t.fio.lastF = some f ∧ w = (downWord f (advTo (f - 40) u)).1 ∧ t.fio.down = some w ∧ t.fio.await = true ∧ t.fio.clear = false ∧ t.fio.island = u.fio.island) ∧
  (∀ (f i : Nat) (s : State), i < 8 → ∃ w p, w = (downWord f s).1 ∧ p = (nextParam s).1 ∧ downOk w = true ∧ fld w 85 82 = f / 800 % 16 ∧ bit (fld w 77 70) i = dieLevel (if rdBit O.FIO_DO_PAIR (i / 2) s then i / 2 * 2 else i) s ∧
    fld w 81 78 = b2n s.fio.clear ∧ (hasGrid s = false → fld w 69 63 = 127) ∧ fld w 55 48 = p % 256 ∧ fld w 47 16 = rd (fioParams.getD p 0) s % 2 ^ 32 ∧
    (∀ a l, s.fio.changed = a :: l → p = a) ∧ (s.fio.changed = [] → p = s.fio.pos)) ∧
  (∀ (w : Nat) (s : State), isNode s = true → s.fio.island.up = true → downOk w = false → ∃ t, exec (.islandDownFrameRx w) s = .next t ∧ t.objs = s.objs ∧ t.fio.island = { s.fio.island with cyc := [] } ∧
    t.tick = (match s.fio.lastF with | some f => max s.tick (f + linkDelay) | none => s.tick)) ∧
  (∀ (w : Nat) (s : State), s.fio.island.up = false → exec (.islandDownFrameRx w) s = .next s) ∧
  (∀ (w : Nat) (s : State), isNode s = true → s.fio.island.up = true → downOk w = true → ∃ t u c, exec (.islandDownFrameRx w) s = .next t ∧ u = (match s.fio.lastF with | some f => advTo (f + linkDelay) s | none => s) ∧
    c = (if fld w 85 82 = (s.fio.island.seq + 1) % 16 then addTo s.fio.island.cyc (fld w 55 48) else [fld w 55 48]) ∧ t.objs = s.objs ∧ t.tick = u.tick ∧
    t.fio.island.doCmd = doHeld u ∧ t.fio.island.doNew = fld w 77 70 ∧ t.fio.island.params = paramsHeld u ∧ t.fio.island.parNew = some (fld w 55 48, fld w 47 16) ∧
    t.fio.island.seq = fld w 85 82 ∧ t.fio.island.lastDown = u.tick ∧ t.fio.island.sAt = u.tick ∧ (fld w 81 78 = 1 → ∀ i, t.fio.island.off.getD i none = none) ∧ (∀ e ∈ t.fio.island.enc, e.ill = false) ∧
    (s.fio.island.safe = false → t.fio.island.safe = false) ∧ (s.fio.island.safe = true → t.fio.island.safe = !((List.range fioParams.length).all fun i => c.contains i)) ∧
    (t.fio.island.safe = true → t.fio.island.pmAt = s.fio.island.pmAt) ∧ (t.fio.island.safe = false → t.fio.island.pmAt = addInstant s.fio.island.pmAt (ofsAt (fld w 69 63) u.tick))) ∧
  (∀ (w : Nat) (s : State), s.fio.await = false → exec (.mainFrameRx w) s = .next s ∧ exec .mainFrameDeadline s = .next s) ∧
  (∀ (w : Nat) (s : State), isNode s = true → s.fio.await = true → (mainOk w s = true → exec (.mainFrameRx w) s = .next (mainGood w (advTo (dieS s + 600) s))) ∧
    (mainOk w s = false → exec (.mainFrameRx w) s = .next (mainBad (advTo (dieS s + 600) s))) ∧ exec .mainFrameDeadline s = .next (mainBad (advTo (dieS s + 624) s))) ∧
  (∀ s : State, rd O.FIO_LINK_STATE s ≠ 1 ∨ s.fio.bad + 1 < rd O.FIO_LINK_MISS s → SameObjs [O.FIO_FRAMES_BAD] s (mainBad s) ∧ rd O.FIO_FRAMES_BAD (mainBad s) = satU 32 (rd O.FIO_FRAMES_BAD s + 1) ∧
    (mainBad s).fio = { s.fio with bad := s.fio.bad + 1, good := 0, await := false }) ∧
  (∀ s : State, rd O.FIO_LINK_STATE s = 1 → rd O.FIO_LINK_MISS s ≤ s.fio.bad + 1 → ∃ u, mainBad s = evalFns (fioSources u) ∧ rd O.FIO_LINK_STATE u = 0 ∧ rd O.FIO_LINK_DOWNS u = satU 32 (rd O.FIO_LINK_DOWNS s + 1) ∧
    rd O.FIO_FRAMES_BAD u = satU 32 (rd O.FIO_FRAMES_BAD s + 1) ∧ SameObjs [O.FIO_LINK_STATE, O.FIO_LINK_DOWNS, O.FIO_FRAMES_BAD] s u) ∧
  (∀ (w : Nat) (s : State), rd (O.POS_ENC_MODE 0) s = 0 → rd (O.POS_ENC_MODE 1) s = 0 → fld w 67 64 = 0 → ∃ u, mainGood w s = evalFns (wr O.FIO_DI (fld w 31 16) (fioSources u)) ∧
    rd O.FIO_LINK_STATE u = (if rd O.FIO_LINK_STATE s = 0 ∧ 15 ≤ s.fio.good then 1 else rd O.FIO_LINK_STATE s) ∧ rd O.FIO_DO_STATE u = fld w 129 122 ∧ u.fio.faults = fld w 121 114 ∧ SameObjs [O.FIO_LINK_STATE, O.FIO_DO_STATE, O.FIO_SUPPLY] s u ∧
    u.fio.bad = 0 ∧ u.fio.good = s.fio.good + 1 ∧ u.fio.await = false ∧ (rdBit O.FIO_SUPPLY 0 u = bit w 137 ∧ rdBit O.FIO_SUPPLY 1 u = bit w 136 ∧ rdBit O.FIO_SUPPLY 2 u = bit w 135)) ∧
  (∀ (w : Nat) (s : State), isNode s = true → (fastOk w s = true → exec (.fastFrameRx w) s = .next (evalFns (wr O.FIO_DI (fld w 31 16) (advTo (fastF s + linkDelay + 792) s)))) ∧
    (fastOk w s = false → ∃ t, exec (.fastFrameRx w) s = .next t ∧ OnlyObjs [O.FIO_FRAMES_BAD] (advTo (fastF s + linkDelay + 792) s) t ∧ rd O.FIO_FRAMES_BAD t = satU 32 (rd O.FIO_FRAMES_BAD s + 1))) ∧
  (∀ s : State, s.fio.island.up = false ∨ s.fio.island.safe = true → exec .islandSilence s = .next s) ∧
  (∀ s : State, s.fio.island.up = true → s.fio.island.safe = false → ∃ t, exec .islandSilence s = .next t ∧ t.objs = s.objs ∧ t.fio.island.safe = true ∧ t.fio.island.pmAt = [] ∧ t.fio.island.ssiAt = [] ∧
    t.fio.island.silence = satU 16 (s.fio.island.silence + 1) ∧ t.tick = max s.tick (s.fio.island.lastDown + 40000 * islandParam O.FIO_SILENCE s)) ∧
  (∀ s : State, ∃ t, exec .fieldVlLow s = .next t ∧ t.fio.island = IslandSt.init ∧ t.objs = s.objs ∧ ∀ i, outLevel i t = false) ∧
  (∀ s : State, s.fio.island.up = true → exec .islandPowerUp s = .next s) ∧
  (∀ s : State, isNode s = true → s.fio.island.up = false → ∃ t, exec .islandPowerUp s = .next t ∧ t.fio.island.up = true ∧ t.fio.island.safe = true ∧ (∀ i, outLevel i t = false) ∧ t.objs = s.objs) ∧
  (∀ (k i : Nat) (s : State), paramId k = some i → k / 256 ≠ 0xB000 → k / 256 ≠ 0xB100 → k / 256 ≠ 0xB101 → fioWritten k s = updFio (fun x => { x with changed := addTo x.changed i }) s)

/-- Field inputs, outputs and supply. A voltage at an input moves its comparator by its type's thresholds, 5 V and 15 V or 11 V, its old level between them, and starts the strainer's time where the level changed; a comparator level held for FIO_DI_DEBOUNCE becomes the strainer's; inputs above 15 and an island without supply change nothing. An output is off with L+ MISSING or REVERSE, or before the island has left its safe state; at its safe level in the safe state; off in a fault off-time of it or its pair; else as commanded, by its first of a pair. At the die the trip level comes first, then the law's safe level where its owner is the law, not running or faulted, else the software's setting. SHORT counts a trip and starts the off-time, which ends with DO_RETRY_END; OVERTEMP and its cooling set and clear; OPEN follows its condition while L+ is in order and the output is on with its check selected. A measurement of L+ begins the wait of each condition whose threshold it passes and ends the others'; the wait's end sets or clears the condition, and MISSING sets LOW. FIO_DO_PAIR refuses a new pair whose outputs differ with STATE, else a value above 15 with RANGE, else is kept; FIO_CMD asks the island to clear its faults, or sets the counters of the chapter to 0; in a cell these writes answer BLOCK_OFF, in ROM service mode STATE. Shaft feedback. An encoder that does not count changes nothing. Levels of A and B one place on in the sequence count by one, up or down by POS_ENC_DIR, two places on flag an illegal transition and count nothing, the same levels change nothing. An edge of Z is noted; a rising one latches the count in mode LATCH, and in HOME while armed, where it sets the count to 0 and disarms. A P-mark latch carries both counts. The speed is 0 without an entry, or with one alone, and with two falls with the time since the last. An SSI transfer with none due changes nothing; too early, or while one runs, it counts an error and sets TOO EARLY; with the data line high it starts, and its end gives the bits; with the line low, or a failed stop check, the item of errors is pending. Items give position, stamp, status and errors. A selected edge of an armed probe latches the encoder's count as it stood at the clock of the edge, with its edge, the clock and the frame's SEQ, marks an item it overwrites, and ends SINGLE's arming; any other changes nothing. CLEAR_ERR ends ERR, ARM_Z arms in mode HOME and POS_PRB_CMD in SINGLE alone; above the second encoder or probe they answer NO_OBJECT, in a cell BLOCK_OFF, in ROM service mode STATE. -/
def Obligations.FieldAndShaft : Prop :=
  ((∀ (mv : Int) (old : Bool), (11000 ≤ mv → diLevel 3 mv old = true) ∧ (15000 ≤ mv → diLevel 1 mv old = true) ∧ (mv ≤ 5000 → diLevel 1 mv old = false ∧ diLevel 3 mv old = false) ∧
    (5000 < mv → mv < 11000 → diLevel 3 mv old = old) ∧ (5000 < mv → mv < 15000 → diLevel 1 mv old = old)) ∧
  (∀ (n : Nat) (mv : Int) (s : State), 16 ≤ n ∨ s.fio.island.up = false → exec (.diComparatorChange n mv) s = .next s ∧ exec (.strainerSettle n) s = .next s) ∧
  (∀ (n : Nat) (mv : Int) (s : State), n < 16 → s.fio.island.up = true → ∃ t, exec (.diComparatorChange n mv) s = .next t ∧ t.objs = s.objs ∧ t.fio.island.str = s.fio.island.str ∧
    bit t.fio.island.cmp n = diLevel (islandParam (O.FIO_DI_TYPE n) s) mv (bit s.fio.island.cmp n) ∧ (∀ j, j ≠ n → bit t.fio.island.cmp j = bit s.fio.island.cmp j) ∧
    (bit t.fio.island.cmp n ≠ bit s.fio.island.cmp n → t.fio.island.cmpAt = s.fio.island.cmpAt.set n s.tick) ∧ (bit t.fio.island.cmp n = bit s.fio.island.cmp n → t = s)) ∧
  (∀ (n : Nat) (s : State), n < 16 → s.fio.island.up = true → bit s.fio.island.cmp n = bit s.fio.island.str n → exec (.strainerSettle n) s = .next s) ∧
  (∀ (n : Nat) (s : State), n < 16 → s.fio.island.up = true → bit s.fio.island.cmp n ≠ bit s.fio.island.str n → ∃ t, exec (.strainerSettle n) s = .next t ∧ t.objs = s.objs ∧ bit t.fio.island.str n = bit s.fio.island.cmp n ∧
    (∀ j, j ≠ n → bit t.fio.island.str j = bit s.fio.island.str j) ∧ t.tick = max s.tick (s.fio.island.cmpAt.getD n 0 + 400 * islandParam (O.FIO_DI_DEBOUNCE n) s)) ∧
  (∀ (i j : Nat) (s : State), j = (if bit (islandParam O.FIO_DO_PAIR s) (i / 2) then i / 2 * 2 else i) → (bit s.fio.island.flags 1 = true ∨ bit s.fio.island.flags 2 = true ∨ s.fio.island.up = false → outLevel i s = false) ∧
    (s.fio.island.safe = true → s.fio.island.leftSafe = false → outLevel i s = false) ∧
    (s.fio.island.up = true → supplyBad s = false → s.fio.island.safe = true → s.fio.island.leftSafe = true → outLevel i s = bit (islandParam O.FIO_SAFE_LEVEL s) j) ∧
    (s.fio.island.safe = false → withPair (fun j => outOff j s) i s = true → outLevel i s = false) ∧
    (s.fio.island.up = true → supplyBad s = false → s.fio.island.safe = false → withPair (fun j => outOff j s) i s = false → outLevel i s = bit (doHeld s) j)) ∧
  (∀ (i : Nat) (s : State), (s.saf.tripHeld = true → rdBit O.SAF_TRIP_DO i s = true → dieLevel i s = rdBit O.SAF_TRIP_LEVEL i s) ∧
    (s.saf.tripHeld = false → rd (O.FIO_DO_OWNER i) s = 1 → rd O.LAW_STATE s = 0 ∨ rd O.LAW_STATE s = 4 → dieLevel i s = rdBit O.FIO_SAFE_LEVEL i s) ∧
    (s.saf.tripHeld = false → rd (O.FIO_DO_OWNER i) s = 0 → dieLevel i s = rdBit O.FIO_DO_SET i s)) ∧
  (∀ (i : Nat) (s : State), 8 ≤ i ∨ s.fio.island.up = false → exec (.doShort i) s = .next s ∧ exec (.doOvertemp i) s = .next s) ∧
  (∀ (i : Nat) (c : Bool) (s : State), 8 ≤ i ∨ s.fio.island.up = false ∨ supplyBad s = true → exec (.doOpen i c) s = .next s) ∧
  (∀ (i : Nat) (s : State), i < 8 → s.fio.island.up = true → ∃ t, exec (.doShort i) s = .next t ∧ SameObjs [O.FIO_DO_TRIPS i] s t ∧
    rd (O.FIO_DO_TRIPS i) t = satU 32 (rd (O.FIO_DO_TRIPS i) s + 1) ∧ t.fio.island.off = s.fio.island.off.set i (some (s.tick + 400000 * islandParam O.FIO_DO_RETRY s)) ∧ (i < s.fio.island.off.length → outOff i t = true ∧ outFault i t = true)) ∧
  (∀ (i x : Nat) (s : State), s.fio.island.off.getD i none = some x → ∃ t, exec (.doRetryEnd i) s = .next t ∧ t.fio.island.off.getD i none = none ∧ Reached x s t ∧ t.objs = s.objs ∧ outOff i t = bit s.fio.island.hot i) ∧
  (∀ (i : Nat) (s : State), s.fio.island.off.getD i none = none → exec (.doRetryEnd i) s = .next s) ∧
  (∀ (i : Nat) (s : State), i < 8 → s.fio.island.up = true → ∃ t, exec (.doOvertemp i) s = .next t ∧ t = updIsland (fun y => { y with hot := y.hot ||| 2 ^ i }) s ∧ outOff i t = true) ∧
  (∀ (i : Nat) (s : State), i < 8 → ∃ t, exec (.doOvertempCooled i) s = .next t ∧ t.objs = s.objs ∧ bit t.fio.island.hot i = false ∧ ∀ j, j ≠ i → bit t.fio.island.hot j = bit s.fio.island.hot j) ∧
  (∀ (i : Nat) (s : State), 8 ≤ i → exec (.doOvertempCooled i) s = .next s) ∧
  (∀ (i : Nat) (c : Bool) (s : State), i < 8 → s.fio.island.up = true → supplyBad s = false → ∃ t, exec (.doOpen i c) s = .next t ∧ t.objs = s.objs ∧ (∀ j, outLevel j t = outLevel j s) ∧
    bit t.fio.island.opn i = (c && outLevel i s && islandParam (O.FIO_DO_OPENLOAD i) s == 1)) ∧
  (∀ (mv : Int) (s : State), s.fio.island.up = true → ∃ t, exec (.fieldSupplyMeasure mv) s = .next t ∧ t.objs = s.objs ∧ t.fio.island.mv = mv ∧ t.fio.island.flags = s.fio.island.flags ∧
    ∀ c < 3, aget t.fio.island.cond c = (if (if bit s.fio.island.flags c then (supplyTh c).2 < mv else mv < (supplyTh c).1) then some ((aget s.fio.island.cond c).getD s.tick) else none)) ∧
  (supplyTh 0 = (18000, 18500) ∧ supplyTh 1 = (12000, 12500) ∧ supplyTh 2 = (-1000, -500)) ∧
  (∀ (mv : Int) (s : State), s.fio.island.up = false → exec (.fieldSupplyMeasure mv) s = .next s) ∧
  (∀ s : State, s.fio.island.cond = [] → exec .fieldSupplyCondition s = .next s) ∧
  (∀ s : State, s.fio.island.cond ≠ [] → ∃ t x, exec .fieldSupplyCondition s = .next t ∧ t.objs = s.objs ∧ (∀ e ∈ s.fio.island.cond, x ≤ e.2 + 40000) ∧ (∃ e ∈ s.fio.island.cond, x = e.2 + 40000) ∧ Reached x s t ∧
    (∀ e ∈ t.fio.island.cond, e ∈ s.fio.island.cond ∧ t.tick < e.2 + 40000) ∧ (bit t.fio.island.flags 1 = true → bit t.fio.island.flags 0 = true)) ∧
  (∀ (c x : Nat) (s : State), c < 3 → s.fio.island.cond = [(c, x)] → ∃ t, exec .fieldSupplyCondition s = .next t ∧ t.fio.island.cond = [] ∧ Reached (x + 40000) s t ∧
    (c ≠ 0 → bit t.fio.island.flags c = !bit s.fio.island.flags c) ∧ (c = 0 → bit s.fio.island.flags 1 = false → bit t.fio.island.flags 0 = !bit s.fio.island.flags 0)) ∧
  (∀ (v : Nat) (s : State), isNode s = true → rd O.SYS_RECOVERY s = 0 → (∀ p < 4, bit v p = true → rdBit O.FIO_DO_PAIR p s = false → ownLevel (2 * p) s = ownLevel (2 * p + 1) s) →
    (v < 16 → ∃ t u, exec (.fioDoPair v) s = .next (answer stOk [] t) ∧ t = fioWritten O.FIO_DO_PAIR u ∧ OnlyObjs [O.FIO_DO_PAIR] s u ∧ rd O.FIO_DO_PAIR u = v) ∧
    (16 ≤ v → exec (.fioDoPair v) s = .next (refusedState stRange s))) ∧
  (∀ (v p : Nat) (s : State), isNode s = true → p < 4 → bit v p = true → rdBit O.FIO_DO_PAIR p s = false → ownLevel (2 * p) s ≠ ownLevel (2 * p + 1) s → exec (.fioDoPair v) s = .next (refusedState stState s)) ∧
  (∀ s : State, isNode s = true → rd O.SYS_RECOVERY s = 0 → exec .fioClearFaults s = .next { s with fio := { s.fio with clear := true }, resp := [stOk] }) ∧
  (∀ s : State, isNode s = true → rd O.SYS_RECOVERY s = 0 → ∃ t, exec .fioCmdClearCounters s = .next t ∧ Wrote fioCounters s t ∧ ∀ k ∈ fioCounters, rd k t = 0) ∧
  (∀ (v : Nat) (s : State), isCell s = true → exec .fioClearFaults s = .next (refusedState stBlockOff s) ∧ exec .fioCmdClearCounters s = .next (refusedState stBlockOff s) ∧ exec (.fioDoPair v) s = .next (refusedState stBlockOff s)) ∧
  (∀ (v : Nat) (s : State), isNode s = true → rd O.SYS_RECOVERY s ≠ 0 → exec .fioClearFaults s = .next (refusedState stState s) ∧ exec .fioCmdClearCounters s = .next (refusedState stState s) ∧
    exec (.fioDoPair v) s = .next (refusedState stState s))) ∧
  ((∀ (e : Nat) (a b : Bool) (s : State), encCounts e s = false → exec (.encoderEdge e a b) s = .next s ∧ exec (.encoderZEdge e a) s = .next s) ∧
  (∀ (e : Nat) (a b : Bool) (x : EncSt) (s : State), encCounts e s = true → s.fio.island.enc[e]? = some x → x.ab < 4 → ∃ t y p, exec (.encoderEdge e a b) s = .next t ∧ t.objs = s.objs ∧ t.mem = s.mem ∧
    t.fio.island.enc = s.fio.island.enc.set e y ∧ y.ab = 2 * b2n a + b2n b ∧ y.armed = x.armed ∧ y.z = x.z ∧ p = (quadPlace y.ab + 4 - quadPlace x.ab) % 4 ∧ (p = 0 → y = x) ∧
    (p = 2 → y.count = x.count ∧ y.ill = true ∧ y.edgeAt = x.edgeAt) ∧
    (p = 1 ∨ p = 3 → y.count = (if p = 1 ↔ islandParam (O.POS_ENC_DIR e) s ≠ 1 then (x.count + 1) % 2 ^ 32 else (x.count + (2 ^ 32 - 1)) % 2 ^ 32) ∧ y.ill = x.ill ∧ y.edgeAt = some s.tick)) ∧
  (quadPlace 0 = 0 ∧ quadPlace 2 = 1 ∧ quadPlace 3 = 2 ∧ quadPlace 1 = 3) ∧
  (∀ (e : Nat) (r : Bool) (x : EncSt) (s : State), encCounts e s = true → s.fio.island.enc[e]? = some x → ∃ t y, exec (.encoderZEdge e r) s = .next t ∧ t.objs = s.objs ∧ t.fio.island.enc = s.fio.island.enc.set e y ∧ y.z = r ∧ y.ab = x.ab ∧
    (r = false ∨ islandParam (O.POS_Z_MODE e) s = 0 ∨ (islandParam (O.POS_Z_MODE e) s = 2 ∧ x.armed = false) → y.count = x.count ∧ y.armed = x.armed ∧ t.fio.island.slots = s.fio.island.slots) ∧
    (r = true → islandParam (O.POS_Z_MODE e) s = 1 → y.count = x.count ∧ y.armed = x.armed ∧ t.fio.island.slots = aset s.fio.island.slots (4 + e) (x.count % 2 ^ 32)) ∧
    (r = true → islandParam (O.POS_Z_MODE e) s = 2 → x.armed = true → y.count = 0 ∧ y.armed = false ∧ t.fio.island.slots = aset s.fio.island.slots (4 + e) (x.count % 2 ^ 32))) ∧
  (∀ s : State, s.fio.island.pmAt = [] → exec .islandPmarkLatch s = .next s) ∧
  (∀ (x : Nat) (l : List Nat) (s : State), s.fio.island.pmAt = x :: l → ∃ t, exec .islandPmarkLatch s = .next t ∧ Reached x s t ∧ t.fio.island.pmAt = l ∧ t.objs = s.objs ∧
    aget t.fio.island.slots 1 = some ((s.fio.island.enc.getD 1 EncSt.init).count % 65536 * 65536 + (s.fio.island.enc.getD 0 EncSt.init).count % 65536)) ∧
  (∀ (e c : Nat) (s : State), e < 2 → (s.fio.enc.getD e EncDie.init).hist = [] → rd (O.POS_SPEED e) (speedOf e c s) = 0 ∧ rdBit (O.POS_ENC_STATUS e) 1 (speedOf e c s) = true) ∧
  (∀ (e c te : Nat) (ce : Int) (s : State), e < 2 → (s.fio.enc.getD e EncDie.init).hist = [(te, ce)] → c < te + us (rd (O.POS_STANDSTILL e) s) → ∃ t, speedOf e c s = t ∧ rd (O.POS_SPEED e) t = 0 ∧ SameObjs [O.POS_SPEED e] s t) ∧
  (∀ (e c te tr : Nat) (ce cr : Int) (s : State), e < 2 → (s.fio.enc.getD e EncDie.init).hist = [(te, ce), (tr, cr)] → tr < te → te ≤ c → c < te + us (rd (O.POS_STANDSTILL e) s) → rdBit (O.POS_ENC_STATUS e) 2 (speedOf e c s) = false ∧
    ((ce - cr).natAbs * (c - te) ≤ te - tr → rd (O.POS_SPEED e) (speedOf e c s) = fratio fmt32 (ce < cr) ((ce - cr).natAbs * 400000000) (te - tr) 0) ∧
    (te - tr < (ce - cr).natAbs * (c - te) → rd (O.POS_SPEED e) (speedOf e c s) = fratio fmt32 (ce < cr) 400000000 (c - te) 0)) ∧
  (∀ (d : Bool) (s : State), s.fio.island.ssiAt = [] → exec (.ssiTransferStart d) s = .next s) ∧
  (∀ (x : Nat) (l : List Nat) (d : Bool) (s : State), s.fio.island.ssiAt = x :: l → x < s.fio.island.ssiFree ∨ s.fio.island.ssiRun ≠ none → ∃ t, exec (.ssiTransferStart d) s = .next t ∧ Reached x s t ∧ rd O.POS_SSI_STATUS t = 4 ∧
    rd O.POS_SSI_ERRORS t = satU 32 (rd O.POS_SSI_ERRORS s + 1) ∧ SameObjs [O.POS_SSI_STATUS, O.POS_SSI_ERRORS] s t ∧ t.fio.island.ssiRun = s.fio.island.ssiRun ∧ t.fio.island.ssiAt = l) ∧
  (∀ (x : Nat) (l : List Nat) (s : State), s.fio.island.ssiAt = x :: l → s.fio.island.ssiFree ≤ x → s.fio.island.ssiRun = none → (∃ t, exec (.ssiTransferStart true) s = .next t ∧ Reached x s t ∧ t.fio.island.ssiRun = some x ∧ t.objs = s.objs ∧
      t.fio.island.ssiAt = l ∧ t.fio.island.ssiFree = x + ssiTicks t + us (islandParam O.POS_SSI_MONO t)) ∧
    ∃ t, exec (.ssiTransferStart false) s = .next t ∧ Reached x s t ∧ t.fio.island.ssiRun = none ∧ t.objs = s.objs ∧ t.fio.island.ssiAt = l ∧ aget t.fio.island.slots 3 = some 2) ∧
  (∀ (b : Nat) (st : Bool) (s : State), s.fio.island.ssiRun = none → exec (.ssiTransferEnd b st) s = .next s) ∧
  (∀ (x b : Nat) (s : State), s.fio.island.ssiRun = some x → (∃ t, exec (.ssiTransferEnd b false) s = .next t ∧ Reached (x + ssiTicks s) s t ∧ t.fio.island.ssiRun = none ∧ t.objs = s.objs ∧
      aget t.fio.island.slots 2 = some (b % 2 ^ islandParam O.POS_SSI_BITS t % 2 ^ 32)) ∧
    ∃ t, exec (.ssiTransferEnd b true) s = .next t ∧ Reached (x + ssiTicks s) s t ∧ t.fio.island.ssiRun = none ∧ t.objs = s.objs ∧ aget t.fio.island.slots 3 = some 1) ∧
  (∀ (v : Nat) (s : State), rd O.POS_SSI_CODE s = 0 → ∃ t, takeItem 2 v s = t ∧ rd O.POS_SSI_POS t = v % 2 ^ rd O.POS_SSI_BITS s ∧ rd O.POS_SSI_STATUS t = 0 ∧ SameObjs [O.POS_SSI_POS, O.POS_SSI_STATUS, O.POS_SSI_STAMP] s t) ∧
  (∀ (v : Nat) (s : State), ∃ t, takeItem 3 v s = t ∧ rd O.POS_SSI_POS t = rd O.POS_SSI_POS s ∧ rd O.POS_SSI_ERRORS t = satU 32 (rd O.POS_SSI_ERRORS s + 1) ∧ rdBit O.POS_SSI_STATUS 0 t = bit v 1 ∧ rdBit O.POS_SSI_STATUS 1 t = bit v 0) ∧
  (∀ (p m e : Nat) (r : Bool) (s : State), m = islandParam (O.POS_PRB_MODE p) s → e = islandParam (O.POS_PRB_EDGE p) s →
    2 ≤ p ∨ s.fio.island.up = false ∨ (m ≠ 2 ∧ (m ≠ 1 ∨ s.fio.island.prbArm.getD p false = false)) ∨ (e = 0 ∧ r = false) ∨ (e = 1 ∧ r = true) → exec (.probeEdge p r) s = .next s) ∧
  (∀ (p m e a : Nat) (r : Bool) (s : State), m = islandParam (O.POS_PRB_MODE p) s → e = islandParam (O.POS_PRB_EDGE p) s → p < 2 → s.fio.island.up = true → (m = 2 ∨ (m = 1 ∧ s.fio.island.prbArm.getD p false = true)) →
    (e = 2 ∨ (e = 0 ∧ r = true) ∨ (e = 1 ∧ r = false)) → a = s.tick - 8 * (islandParam (O.POS_PRB_FILTER p) s - 1) → ∃ t st c, exec (.probeEdge p r) s = .next t ∧ t.objs = s.objs ∧
    aget t.fio.island.slots (6 + 2 * p) = some c ∧ aget t.fio.island.slots (7 + 2 * p) = some st ∧ bit st 31 = r ∧ bit st 30 = (slotWaits (6 + 2 * p) s || slotWaits (7 + 2 * p) s) ∧ t.fio.island.prbArm = s.fio.island.prbArm.set p false ∧
    (s.fio.island.sAt ≤ a → c = (s.fio.island.enc.getD (islandParam (O.POS_PRB_SRC p) s) EncSt.init).countAt (s.fio.island.sAt + 8 * ((a - s.fio.island.sAt) / 8) + 7) % 2 ^ 32 ∧
      fld st 6 0 = (a - s.fio.island.sAt) / 8 % 128 ∧ fld st 19 16 = s.fio.island.seq % 16)) ∧
  (∀ (e : Nat) (s : State), isNode s = true → rd O.SYS_RECOVERY s = 0 → e < 2 → (∃ t u, exec (.posClearErr e) s = .next (answer stOk [] t) ∧ t = fioSources u ∧ OnlyObjs [O.POS_ENC_STATUS e] s u ∧ rdBit (O.POS_ENC_STATUS e) 0 u = false) ∧
    (rd (O.POS_Z_MODE e) s ≠ 2 → exec (.posArmZ e) s = .next (answer stOk [] s)) ∧
    (rd (O.POS_Z_MODE e) s = 2 → ∃ t, exec (.posArmZ e) s = .next t ∧ t.resp = [stOk] ∧ SameObjs [O.POS_ENC_STATUS e] s t ∧ rdBit (O.POS_ENC_STATUS e) 3 t = true ∧
      t.fio.island.enc = s.fio.island.enc.modify e (fun x => { x with armed := true }))) ∧
  (∀ (p : Nat) (s : State), isNode s = true → rd O.SYS_RECOVERY s = 0 → p < 2 → (rd (O.POS_PRB_MODE p) s ≠ 1 → exec (.prbArm p) s = .next (answer stOk [] s)) ∧ (rd (O.POS_PRB_MODE p) s = 1 → ∃ t, exec (.prbArm p) s = .next t ∧
    t.resp = [stOk] ∧ SameObjs [O.POS_PRB_STATUS p] s t ∧ rdBit (O.POS_PRB_STATUS p) 0 t = true ∧ t.fio.island.prbArm = s.fio.island.prbArm.set p true)) ∧
  (∀ (n : Nat) (s : State), 2 ≤ n → exec (.posClearErr n) s = .next (refusedState stNoObject s) ∧ exec (.posArmZ n) s = .next (refusedState stNoObject s) ∧ exec (.prbArm n) s = .next (refusedState stNoObject s)) ∧
  (∀ (n : Nat) (s : State), n < 2 → isCell s = true → exec (.posClearErr n) s = .next (refusedState stBlockOff s) ∧ exec (.posArmZ n) s = .next (refusedState stBlockOff s) ∧ exec (.prbArm n) s = .next (refusedState stBlockOff s)) ∧
  (∀ (n : Nat) (s : State), n < 2 → isNode s = true → rd O.SYS_RECOVERY s ≠ 0 → exec (.posClearErr n) s = .next (refusedState stState s) ∧ exec (.posArmZ n) s = .next (refusedState stState s) ∧
    exec (.prbArm n) s = .next (refusedState stState s)))

/-- Object accesses. The checks of a write come in order: no object, not of this place, a right lacking, a class that is not written, ROM service mode; then an object that is a command answers what its command does, and a plain one takes its unreserved bits where its unit's rules, its place and its range allow them, or answers STATE or RANGE or the unit's status and changes nothing. RIGHTS of cores and nodes. A read answers no object, the place, ACCESS for write-only and STATE in ROM service mode outside two areas, else the object's value and what reading it changes; a value is stored but for those computed. COUNT sub-indices are read and written one by one in ascending order up to the first error, and too few bytes answer LENGTH where the checks before it pass. Requests to other devices. A repeated request whose response is still kept is answered with it and counted, whatever its operation. Else a request for this device runs here; PROXY at a device that is no apex answers NO_OBJECT, and a notice there does nothing; at an apex it runs where this is the target, goes on as a request of the apex elsewhere, and a notice goes on as a notice. Running: a read answers the objects' bytes, NO_OBJECT without a sub-index or beyond the last, LENGTH above what a frame takes; a write answers the status and the number written, one of claim and K_X of a parent being taken together; a notice writes and answers nothing, one of the duplicate apex's lag figures being kept; ATTEST answers a report of 512 bytes with the nonce, LENGTH for another length, STATE in ROM service mode. A response is kept, newest first, at most 32. A response with the number of an outstanding request ends it, and any other does nothing; a timeout repeats a request with retries left and else ends it UNREACHABLE, counted. The outcome goes to the core's registers, the host's reply or the apex that asked. TREE_REM_CMD begins a request of its operation, and answers STATE while one runs or in ROM service mode and BLOCK_OFF in a cell. LANE reports name the node's lanes in L5 and go from a node that is no apex; the apex, and a node that routes to the sender, keep them in place of the sender's earlier ones; the apex shows wiring differences of nodes below 64. -/
def Obligations.ObjectsAndRemoteRequests : Prop :=
  ((∀ (w : Who) (i sub v : Nat) (s : State), objRow? (i * 256 + sub % 256) = none → exec (.objectWrite w i sub v) s = .next (refusedState stNoObject s)) ∧
  (∀ (w : Who) (i sub v : Nat) (r : ObjRow) (s : State), objRow? (i * 256 + sub % 256) = some r → r.place.here s = false → exec (.objectWrite w i sub v) s = .next (refusedState stBlockOff s)) ∧
  (∀ (w : Who) (i sub v : Nat) (r : ObjRow) (s : State), objRow? (i * 256 + sub % 256) = some r → r.place.here s = true → w.holds (needRight (i * 256 + sub % 256) v) = false →
    exec (.objectWrite w i sub v) s = .next (refusedState stRights s)) ∧
  (∀ (w : Who) (i sub v : Nat) (r : ObjRow) (s : State), objRow? (i * 256 + sub % 256) = some r → r.place.here s = true → w.holds (needRight (i * 256 + sub % 256) v) = true →
    r.acc = .ro ∨ (r.acc = .saf ∧ (isCell s = true ∨ rd O.SAF_STATE s ≠ 1)) → exec (.objectWrite w i sub v) s = .next (refusedState stAccess s)) ∧
  (∀ (w : Who) (i sub v k : Nat) (r : ObjRow) (s : State), k = i * 256 + sub % 256 → objRow? k = some r → r.place.here s = true → w.holds (needRight k v) = true →
    r.acc ≠ .ro → (r.acc = .saf → isCell s = false ∧ rd O.SAF_STATE s = 1) →
    (romRefuses k v s = true → exec (.objectWrite w i sub v) s = .next (refusedState stState s)) ∧
    (romRefuses k v s = false → (∀ st t, writeTime k v s = some (st, t) → exec (.objectWrite w i sub v) s = .next (answer st [] t)) ∧
      (∀ st t, writeTime k v s = none → writeSwitch k v s = some (st, t) → exec (.objectWrite w i sub v) s = .next (answer st [] t)) ∧
      (∀ st t, writeTime k v s = none → writeSwitch k v s = none → writeSense k v s = some (st, t) → exec (.objectWrite w i sub v) s = .next (answer st [] t)) ∧
      (∀ st t, writeTime k v s = none → writeSwitch k v s = none → writeSense k v s = none → writeCores w k v s = some (st, t) → exec (.objectWrite w i sub v) s = .next (answer st [] t)))) ∧
  (∀ (w : Who) (i sub v k : Nat) (r : ObjRow) (s : State), k = i * 256 + sub % 256 → objRow? k = some r → r.place.here s = true → w.holds (needRight k v) = true →
    r.acc ≠ .ro → (r.acc = .saf → isCell s = false ∧ rd O.SAF_STATE s = 1) → rd O.SYS_RECOVERY s = 0 → writeTime k v s = none → writeSwitch k v s = none → writeSense k v s = none → writeCores w k v s = none →
    (r.place.writes s = false → exec (.objectWrite w i sub v) s = .next (refusedState stState s)) ∧
    (r.place.writes s = true → plainGuard w k (keepBits k v) s ≠ 0 → exec (.objectWrite w i sub v) s = .next (refusedState (plainGuard w k (keepBits k v) s) s)) ∧
    (r.place.writes s = true → plainGuard w k (keepBits k v) s = 0 → r.inRange (keepBits k v) = false → exec (.objectWrite w i sub v) s = .next (refusedState stRange s)) ∧
    (r.place.writes s = true → plainGuard w k (keepBits k v) s = 0 → r.inRange (keepBits k v) = true → exec (.objectWrite w i sub v) s =
      .next (answer stOk [] (plainAfter w k (keepBits k v) (if keeps k s then wr k (keepBits k v) s else s))))) ∧
  (∀ (fw : Bool) (v : Nat) (s : State), isNode s = true → rd O.SYS_RECOVERY s = 0 → (1 ≤ v → v ≤ 1000 → ∃ t, exec (.objectWrite (.core fw) 0xA000 3 v) s = .next t ∧ Wrote [O.TSK_PREFETCH] s t ∧ rd O.TSK_PREFETCH t = v) ∧
    (4000 < v → exec (.objectWrite (.core fw) 0xA000 3 v) s = .next (refusedState stRange s))) ∧
  (∀ (src : Nat) (side fw : Bool), (Who.node src side false).holds 3 = false ∧ (Who.node src side true).holds 3 = true ∧ (Who.core fw).holds 3 = false ∧ (Who.core fw).holds 5 = false ∧ (Who.node src side true).holds 5 = false ∧
    ∀ b, b ≠ 3 → b ≠ 5 → (Who.core fw).holds b = true ∧ (Who.node src side false).holds b = true) ∧
  (∀ (w : Who) (k : Nat) (s : State), objRow? k = none → readObj w k s = (stNoObject, 0, s)) ∧
  (∀ (w : Who) (k : Nat) (r : ObjRow) (s : State), objRow? k = some r → (r.place.here s = false → readObj w k s = (stBlockOff, 0, s)) ∧ (r.place.here s = true → w.holds 0 = true → r.acc = .wo → readObj w k s = (stAccess, 0, s)) ∧
    (r.place.here s = true → w.holds 0 = true → r.acc ≠ .wo → rd O.SYS_RECOVERY s ≠ 0 → k / 1048576 ≠ 1 → k / 1048576 ≠ 13 → readObj w k s = (stState, 0, s)) ∧
    (r.place.here s = true → w.holds 0 = true → r.acc ≠ .wo → rd O.SYS_RECOVERY s = 0 → readObj w k s = (stOk, readVal k (readBefore k s), readAfter k (readBefore k s)))) ∧
  (∀ (k : Nat) (s : State), k / 256 < 0xB120 ∨ 0xB121 < k / 256 → readAfter k s = s) ∧
  (∀ s : State, s.tick < 2 ^ 64 → readVal O.TIM_COUNTER s = s.tick) ∧
  (∀ (w : Who) (k n : Nat) (d : List Nat) (s : State), readMany w k 0 n d s = (stOk, n, d, s)) ∧
  (∀ (w : Who) (k c n : Nat) (d : List Nat) (s t : State) (v : Nat), readObj w (k + n) s = (stOk, v, t) → readMany w k (c + 1) n d s = readMany w k c (n + 1) (d ++ valueBytes (k + n) v) t) ∧
  (∀ (w : Who) (k c n st v : Nat) (d : List Nat) (s t : State), st ≠ 0 → readObj w (k + n) s = (st, v, t) → readMany w k (c + 1) n d s = (st, n, d, t)) ∧
  (∀ (w : Who) (k n : Nat) (d : List Nat) (s : State), writeMany w k 0 n d s = (stOk, n, s)) ∧
  (∀ (w : Who) (k c n b : Nat) (d : List Nat) (s t : State), b = ceilDiv (objBits (k + n)) 8 → b ≤ d.length → 0 < c → writeCheck w (k + n) (ofBe (d.take b)) s = stOk →
    (writeObj w (k + n) (ofBe (d.take b)) s = (stOk, t) → writeMany w k (c + 1) n d s = writeMany w k c (n + 1) (d.drop b) t) ∧
    ∀ st, st ≠ 0 → writeObj w (k + n) (ofBe (d.take b)) s = (st, t) → writeMany w k (c + 1) n d s = (st, n, t)) ∧
  (∀ (w : Who) (k n : Nat) (d : List Nat) (s t : State), d.length = ceilDiv (objBits (k + n)) 8 → writeCheck w (k + n) (ofBe d) s = stOk → writeObj w (k + n) (ofBe d) s = (stOk, t) → writeMany w k 1 n d s = (stOk, n + 1, t)) ∧
  (∀ (w : Who) (k c n : Nat) (d : List Nat) (s : State), d.length < ceilDiv (objBits (k + n)) 8 → 0 < c → (writeCheck w (k + n) 0 s = stOk → writeMany w k (c + 1) n d s = (stLength, n, s)) ∧
    (writeCheck w (k + n) 0 s ≠ stOk → writeMany w k (c + 1) n d s = (writeCheck w (k + n) 0 s, n, s)))) ∧
  ((∀ (h : Hdr) (m r : ObjMsg) (s : State), 0 < m.tryN → cached h m s = some r → ∀ c ∈ [Instr.objReqRead h m, .objReqWrite h m, .objReqNotice h m, .objReqAttest h m],
    exec c s = .next (bump O.TREE_REM_CACHED (sendFrame 5 1 false h.src h.srcSide h.srcNode false (.obj r) [backLane h s] s))) ∧
  (∀ (h : Hdr) (m : ObjMsg) (s : State), m.tryN = 0 ∨ cached h m s = none → m.proxy = false → exec (.objReqRead h m) s = .next (reqRun h { m with op := 1 } s) ∧ exec (.objReqWrite h m) s = .next (reqRun h { m with op := 2 } s) ∧
    exec (.objReqNotice h m) s = .next (reqRun h { m with op := 3 } s) ∧ exec (.objReqAttest h m) s = .next (reqRun h { m with op := 4 } s)) ∧
  (∀ (h : Hdr) (m : ObjMsg) (s : State), m.tryN = 0 ∨ cached h m s = none → m.proxy = true → isApex s = false → exec (.objReqRead h m) s = .next (respond h { m with op := 1 } stNoObject 0 [] s) ∧
    exec (.objReqWrite h m) s = .next (respond h { m with op := 2 } stNoObject 0 [] s) ∧ exec (.objReqNotice h m) s = .next s ∧ exec (.objReqAttest h m) s = .next (respond h { m with op := 4 } stNoObject 0 [] s)) ∧
  (∀ (h : Hdr) (m p : ObjMsg) (s : State), m.tryN = 0 ∨ cached h m s = none → m.proxy = true → isApex s = true → p = { m with proxy := false, tgt := 0, tryN := 0 } →
    (tgtHere m.tgt s = true → exec (.objReqRead h m) s = .next (reqRun h { p with op := 1 } s) ∧ exec (.objReqWrite h m) s = .next (reqRun h { p with op := 2 } s) ∧
      exec (.objReqNotice h m) s = .next (reqRun h { p with op := 3 } s) ∧ exec (.objReqAttest h m) s = .next (reqRun h { p with op := 4 } s)) ∧
    (tgtHere m.tgt s = false → exec (.objReqNotice h m) s = .next (noticeOn m.tgt { p with op := 3 } s) ∧
      exec (.objReqRead h m) s = .next (request (.proxy h { m with op := 1 }) (tgtNode m.tgt) (tgtSideB m.tgt) (tgtCell m.tgt) { p with op := 1 } (us (rd O.TREE_REM_TIMEOUT s)) (rd O.TREE_REM_RETRIES s) s) ∧
      exec (.objReqWrite h m) s = .next (request (.proxy h { m with op := 2 }) (tgtNode m.tgt) (tgtSideB m.tgt) (tgtCell m.tgt) { p with op := 2 } (us (rd O.TREE_REM_TIMEOUT s)) (rd O.TREE_REM_RETRIES s) s) ∧
      exec (.objReqAttest h m) s = .next (request (.proxy h { m with op := 4 }) (tgtNode m.tgt) (tgtSideB m.tgt) (tgtCell m.tgt) { p with op := 4 } (us (rd O.TREE_REM_TIMEOUT s)) (rd O.TREE_REM_RETRIES s) s))) ∧
  (∀ (h : Hdr) (m : ObjMsg) (st n : Nat) (d : List Nat) (s t : State), m.op = 1 → reqReads (asker h m) 988 m s = (st, n, d, t) → reqRun h m s = respond h m st n d t) ∧
  (∀ (h : Hdr) (m : ObjMsg) (st n : Nat) (s t : State), reqWrites h m s = (st, n, t) → (m.op = 2 → reqRun h m s = respond h m st n [] t) ∧ (m.op = 3 → figuresRx h m s = false → reqRun h m s = t)) ∧
  (∀ (h : Hdr) (m : ObjMsg) (s : State), m.op = 3 → figuresRx h m s = true → ∃ t, reqRun h m s = { s with tree := t } ∧ (m.index * 256 + m.sub = O.TIM_LAG_MIN → t = { s.tree with peerLagMin := ofBe m.data }) ∧
    (m.index * 256 + m.sub = O.TIM_STAGE_MIN → t = { s.tree with peerStageMin := ofBe m.data })) ∧
  (∀ (w : Who) (lim : Nat) (m : ObjMsg) (s : State), (m.count = 0 ∨ 256 < m.sub + m.count → reqReads w lim m s = (stNoObject, 0, [], s)) ∧
    (0 < m.count → m.sub + m.count ≤ 256 → ∀ st n d t, readMany w (m.index * 256 + m.sub) m.count 0 [] s = (st, n, d, t) → reqReads w lim m s = if lim < d.length then (stLength, 0, [], s) else (st, n, d, t))) ∧
  (∀ (h : Hdr) (m : ObjMsg) (s : State), m.index ≠ 0xC020 ∨ m.count ≠ 2 → (m.count = 0 ∨ 256 < m.sub + m.count → reqWrites h m s = (stNoObject, 0, s)) ∧
    (0 < m.count → m.sub + m.count ≤ 256 → reqWrites h m s = writeMany (.node (h.src / 1024) h.srcSide m.commission) (m.index * 256 + m.sub) m.count 0 m.data s)) ∧
  (∀ (h : Hdr) (m : ObjMsg) (s : State), m.op = 4 → (rd O.SYS_RECOVERY s ≠ 0 → reqRun h m s = respond h m stState 0 [] s) ∧ (rd O.SYS_RECOVERY s = 0 → m.data.length ≠ 32 → reqRun h m s = respond h m stLength 0 [] s) ∧
    (rd O.SYS_RECOVERY s = 0 → m.data.length = 32 → ∃ d, reqRun h m s = respond h m stOk 1 d (bump O.SEC_ATTEST_COUNT (takeFree 256 s).2) ∧ d.length = 512 ∧ d.take 4 = [0x41, 0x54, 0x54, 0x31] ∧ (d.drop 132).take 32 = m.data)) ∧
  (∀ (h : Hdr) (m : ObjMsg) (st n : Nat) (d : List Nat) (s : State), ∃ u e r, respond h m st n d s = sendFrame 5 1 false h.src h.srcSide h.srcNode false (.obj r) [backLane h s] u ∧ u.objs = s.objs ∧ u.rem.cache.head? = some e ∧
    e.resp = r ∧ e.at_ = s.tick ∧ e.src = h.src ∧ r.reqId = m.reqId ∧ r.status = st ∧ r.count = n ∧ r.data = d ∧ u.rem.cache.length ≤ 32 ∧ cached h m u = some r) ∧
  (∀ (m : ObjMsg) (s : State), (∀ r ∈ s.rem.reqs, r.msg.reqId ≠ m.reqId) → exec (.objRespRx m) s = .next s) ∧
  (∀ (m : ObjMsg) (r : RemReq) (s : State), s.rem.reqs.find? (fun r => r.msg.reqId == m.reqId) = some r → ∃ u, exec (.objRespRx m) s = .next (reqDone r m.status m.count m.data u) ∧ u = updRem (fun x => { x with reqs := u.rem.reqs }) s ∧
    u.rem.reqs = s.rem.reqs.filter fun y => y.msg.reqId != m.reqId) ∧
  (∀ (r : RemReq) (st n : Nat) (d : List Nat) (s : State), r.by_ = .core → ∃ t, reqDone r st n d s = t ∧ rd O.TREE_REM_STATE t = 2 ∧ rd O.TREE_REM_RESULT t = st ∧ SameObjs [O.TREE_REM_STATE, O.TREE_REM_RESULT, O.TREE_REM_LEN, O.TREE_REM_DATA] s t ∧
    (r.msg.op = 1 → st = 0 → d.length ≤ 32 → rd O.TREE_REM_LEN t = d.length ∧ rd O.TREE_REM_DATA t = ofBe (padTo 32 0 d)) ∧ (r.msg.op ≠ 1 ∨ st ≠ 0 → SameObjs [O.TREE_REM_STATE, O.TREE_REM_RESULT] s t)) ∧
  (∀ (r : RemReq) (st n : Nat) (d : List Nat) (s : State), (∀ id q op, r.by_ = .jop id q op → reqDone r st n d s = jopReply id q op st (fwdBody op n d) s) ∧ (∀ h m, r.by_ = .proxy h m → reqDone r st n d s = respond h m st n d s)) ∧
  (∀ (id : Nat) (s : State), (∀ r ∈ s.rem.reqs, r.msg.reqId ≠ id) → exec (.remoteTimeout id) s = .next s) ∧
  (∀ (id : Nat) (r : RemReq) (s : State), s.rem.reqs.find? (fun r => r.msg.reqId == id) = some r → 0 < r.left → ∃ u m, exec (.remoteTimeout id) s = .next (bump O.TREE_REM_RETRIED (sendObj 0 r.node r.side r.cell m u)) ∧
    m = { r.msg with tryN := r.msg.tryN + 1 } ∧ u.objs = s.objs ∧ Reached (r.sentAt + r.wait) s u ∧ u.rem.reqs = s.rem.reqs.map (fun y => if y.msg.reqId = id then { y with msg := m, sentAt := u.tick, left := y.left - 1 } else y)) ∧
  (∀ (id : Nat) (r : RemReq) (s : State), s.rem.reqs.find? (fun r => r.msg.reqId == id) = some r → r.left = 0 → ∃ u, exec (.remoteTimeout id) s = .next (reqDone r stUnreachable 0 [] u) ∧
    rd O.TREE_REM_FAILED u = satU 32 (rd O.TREE_REM_FAILED s + 1) ∧ SameObjs [O.TREE_REM_FAILED] s u ∧ u.rem.reqs = (s.rem.reqs.filter fun y => y.msg.reqId != id) ∧ Reached (r.sentAt + r.wait) s u) ∧
  (∀ s : State, isNode s = true → rd O.SYS_RECOVERY s = 0 → (rd O.TREE_REM_STATE s = 1 → exec .treeRemRead s = .next (refusedState stState s) ∧ exec .treeRemWrite s = .next (refusedState stState s)) ∧
    (rd O.TREE_REM_STATE s ≠ 1 → ∃ m n, exec .treeRemRead s = .next (answer stOk [] (requestTo .core (rd O.TREE_REM_TARGET s) m (wr O.TREE_REM_STATE 1 s))) ∧ m.op = 1 ∧ m.count = 1 ∧ m.index = rd O.TREE_REM_OBJECT s / 65536 % 65536 ∧
      m.sub = rd O.TREE_REM_OBJECT s / 256 % 256 ∧ exec .treeRemWrite s = .next (answer stOk [] (requestTo .core (rd O.TREE_REM_TARGET s) n (wr O.TREE_REM_STATE 1 s))) ∧ n.op = 2 ∧ n.count = 1 ∧ n.index = m.index ∧ n.sub = m.sub ∧
      n.data = (beBytes 32 (rd O.TREE_REM_DATA s)).take (rd O.TREE_REM_LEN s))) ∧
  (∀ s : State, isNode s = true → rd O.SYS_RECOVERY s ≠ 0 → exec .treeRemRead s = .next (refusedState stState s) ∧ exec .treeRemWrite s = .next (refusedState stState s)) ∧
  (∀ s : State, isCell s = true → exec .treeRemRead s = .next (refusedState stBlockOff s) ∧ exec .treeRemWrite s = .next (refusedState stBlockOff s) ∧ exec .laneReportSend s = .next s) ∧
  (∀ s : State, isApex s = true → exec .laneReportSend s = .next s) ∧
  (∀ s : State, isNode s = true → isApex s = false → ∃ u l, exec .laneReportSend s = .next (sendToNode 5 2 0 (sideB s) (.nreport (.lanes l)) u) ∧ l.map (fun e => e.lane) = upOf (List.range 68) s ∧ u.objs = s.objs) ∧
  (∀ (n : Nat) (l : List LaneEntry) (s : State), isApex s = false → aget s.tree.routes n = none → exec (.reportLaneRx n l) s = .next s) ∧
  (∀ (n : Nat) (l : List LaneEntry) (s : State), isApex s = true ∨ aget s.tree.routes n ≠ none → ∃ u, exec (.reportLaneRx n l) s = .next (lagRecompute u) ∧ u.objs = s.objs ∧ (∀ r ∈ u.tree.reps, r.node = n → r.entry ∈ l) ∧
    (∀ e ∈ l, { node := n, entry := e } ∈ u.tree.reps) ∧ ∀ r ∈ s.tree.reps, r.node ≠ n → r ∈ u.tree.reps) ∧
  (∀ (n d : Nat) (s : State), isApex s = false ∨ 64 ≤ n → exec (.reportWiringRx n d) s = .next s) ∧
  (∀ (n d : Nat) (s : State), isApex s = true → n < 64 → ∃ t, exec (.reportWiringRx n d) s = .next t ∧ OnlyObjs [O.RED_WIRING_NODES] s t ∧ rdBit O.RED_WIRING_NODES n t = (d != 0) ∧ ∀ j, j ≠ n → rdBit O.RED_WIRING_NODES j t = rdBit O.RED_WIRING_NODES j s))

/-- Bulk transfers. The holder answers a READ_REQ with the status of its region, or BUSY at four transfers, LENGTH above 64 KiB, and data only where the status is OK. The statuses of four regions. DATA of an own read is kept; of a write in progress it goes to the slot, or nowhere where the region refuses it; of a new write it is refused with an ACK, BUSY at four transfers, or begins one. Bytes for the slot that does not run wait while it is being erased, the first of them erases it, and the end of the erase writes them, or takes none where it failed. END of an unknown transfer is answered with its whole range or the refusal; of a write with up to 16 ranges missing, NVM after a failed erase, or the end, with the slot UNVERIFIED, and after a broadcast the result of VERIFY; of an own read with a new READ_REQ for the first range missing, or the outcome to the host. ACK of an unknown transfer does nothing; of a host's write it ends it or sends the ranges again, UNREACHABLE after three rounds; of a distribution it counts the cell. The ranges missing are exactly those not received. DISTRIBUTE answers STATE at a cell, without pistes, in ROM service mode and where the slot is not VALID, BUSY while one runs, else a broadcast of the image begins on every piste with cells. -/
def Obligations.BulkTransfers : Prop :=
  (∀ (h : Hdr) (b : Bulk) (s : State), ∃ x, exec (.readReqRx h b) s = .next (startOut x s) ∧ x.id = b.xfer ∧ x.dst = h.src ∧ x.region = b.region ∧ x.offset = b.offset ∧ x.len = b.len ∧ x.why = .answer ∧
    (serving s < 4 → b.len ≤ 65536 → x.status = readStatus b.region b.offset b.len s) ∧ (4 ≤ serving s → x.status = stBusy) ∧ (serving s < 4 → 65536 < b.len → x.status = stLength) ∧ (x.status ≠ 0 → x.todo = [])) ∧
  (∀ (off n : Nat) (s : State), rd O.SYS_RECOVERY s = 0 → (isNode s = true → readStatus 0x5000 off n s = if 2097152 < off + n then stLength else stOk) ∧ (isNode s = false → readStatus 0x5000 off n s = stBlockOff) ∧
    readStatus 0xD010 off n s = stAccess ∧ readStatus 0xD002 off n s = (if 262144 < off + n then stLength else stOk) ∧ readStatus 0x1234 off n s = stNoObject ∧ writeStatus 0x1234 off n s = stNoObject ∧ writeStatus 0xD011 off n s = stAccess ∧
    (s.nvm.eraseBad = false → writeStatus 0xD010 off n s = if 3145728 < off + n then stLength else stOk)) ∧
  (∀ (h : Hdr) (b : Bulk) (x : InXfer) (d : List Nat) (s : State), s.rem.ins.find? (fun x => x.is h b) = some x → d = b.data.take b.len →
    (x.read ≠ none → exec (.bulkDataRx h b) s = .next (updIn h b (fun y => { y with got := addRange b.offset d.length y.got, data := (b.offset, d) :: y.data }) s)) ∧
    (x.read = none → writeStatus b.region b.offset d.length s ≠ stOk → exec (.bulkDataRx h b) s = .next s) ∧
    (x.read = none → writeStatus b.region b.offset d.length s = stOk → exec (.bulkDataRx h b) s = .next (slotWrite b.offset d (updIn h b (fun y => { y with got := addRange b.offset d.length y.got }) s)))) ∧
  (∀ (h : Hdr) (b : Bulk) (st : Nat) (s : State), (∀ x ∈ s.rem.ins, x.is h b = false) → st = writeStatus b.region b.offset (b.data.take b.len).length s → (st ≠ stOk → exec (.bulkDataRx h b) s = .next (sendAck h b st [] s)) ∧
    (st = stOk → 4 ≤ serving s → exec (.bulkDataRx h b) s = .next (sendAck h b stBusy [] s)) ∧
    (st = stOk → serving s < 4 → ∃ u x, exec (.bulkDataRx h b) s = .next (slotWrite b.offset (b.data.take b.len) u) ∧
      u.rem.ins = s.rem.ins ++ [x] ∧ x.is h b = true ∧ x.got = [(b.offset, (b.data.take b.len).length)] ∧ x.read = none ∧ u.objs = s.objs ∧ u.mem = s.mem)) ∧
  (∀ (off : Nat) (d : List Nat) (s : State), s.nvm.opened = true → (s.nvm.eraseEnd ≠ none → slotWrite off d s = updNvm (fun n => { n with held := n.held ++ [(off, d)] }) s) ∧
    (s.nvm.eraseEnd = none → slotWrite off d s = stBytes (slotBase (otherSlot s) + off) d s)) ∧
  (∀ (off : Nat) (d : List Nat) (s : State), s.nvm.opened = true → s.nvm.eraseEnd = none → off + d.length ≤ 3145728 → (∀ x ∈ d, x < 256) → (1 - rd O.NVM_RUN_SLOT s) ∉ s.nvm.factory → ∃ t, slotWrite off d s = t ∧ t.objs = s.objs ∧
    slotBytes (1 - rd O.NVM_RUN_SLOT s) off d.length t = d ∧ ∀ a, a < slotBase (1 - rd O.NVM_RUN_SLOT s) + off ∨ slotBase (1 - rd O.NVM_RUN_SLOT s) + off + d.length ≤ a → getKey (0 : Byte) a t.mem = getKey (0 : Byte) a s.mem) ∧
  (∀ (off i : Nat) (d : List Nat) (s : State), s.nvm.opened = false → i = 1 - rd O.NVM_RUN_SLOT s → rd O.NVM_RUN_SLOT s ≤ 1 → ∃ t, slotWrite off d s = t ∧ rd (O.NVM_SLOT_STATUS i) t = 1 ∧ t.nvm.opened = true ∧ t.nvm.held = [(off, d)] ∧ i ∉ t.nvm.factory ∧
    t.nvm.eraseEnd = some (s.tick + 400000000) ∧ (∀ o < 3145728, slotByte i o t = 0) ∧ (rd O.NVM_BOOT_SLOT s = i → rd O.NVM_BOOT_SLOT t = rd O.NVM_RUN_SLOT s ∧ rd O.NVM_TRIAL t = 0)) ∧
  (∀ (g : Bool) (s : State), s.nvm.eraseEnd = none → exec (.slotEraseDone g) s = .next s) ∧
  (∀ (x : Nat) (s : State), s.nvm.eraseEnd = some x → exec (.slotEraseDone false) s = .next (updNvm (fun n => { n with eraseEnd := none, held := [], eraseBad := true }) s) ∧
    exec (.slotEraseDone true) s = .next (each s.nvm.held (fun e u => stBytes (slotBase (otherSlot u) + e.1) e.2 u) (updNvm (fun n => { n with eraseEnd := none, held := [], eraseBad := false }) s))) ∧
  (∀ (x o : Nat) (d : List Nat) (s : State), s.nvm.eraseEnd = some x → s.nvm.held = [(o, d)] → ∃ t, exec (.slotEraseDone true) s = .next t ∧ t.mem = (stBytes (slotBase (1 - rd O.NVM_RUN_SLOT s) + o) d s).mem ∧ t.nvm.eraseEnd = none ∧
    t.nvm.held = [] ∧ t.nvm.eraseBad = false ∧ t.objs = s.objs) ∧
  (∀ (h : Hdr) (b : Bulk) (s : State), (∀ x ∈ s.rem.ins, x.is h b = false) → (writeStatus b.region b.offset b.len s = stOk → exec (.bulkEndRx h b) s = .next (sendAck h b stOk [(b.offset, b.len)] s)) ∧
    (writeStatus b.region b.offset b.len s ≠ stOk → exec (.bulkEndRx h b) s = .next (sendAck h b (writeStatus b.region b.offset b.len s) [] s))) ∧
  (∀ (h : Hdr) (b : Bulk) (x : InXfer) (l : List (Nat × Nat)) (s : State), s.rem.ins.find? (fun x => x.is h b) = some x → x.read = none → l = missing b.offset b.len x.got →
    (s.nvm.eraseBad = true → exec (.bulkEndRx h b) s = .next (sendAck h b stNvm [] (dropIn h b s))) ∧
    (s.nvm.eraseBad = false → l ≠ [] → exec (.bulkEndRx h b) s = .next (sendAck h b stOk (l.take 16) s)) ∧
    (s.nvm.eraseBad = false → l = [] → h.bcast = false → exec (.bulkEndRx h b) s = .next (sendAck h b stOk [] (slotWritten (dropIn h b s)))) ∧
    (s.nvm.eraseBad = false → l = [] → h.bcast = true → ∃ u e v, u = slotWritten (dropIn h b s) ∧ verifySlot (otherSlot u) u = (e, v) ∧
      exec (.bulkEndRx h b) s = .next (sendAck h b (if e = 0 then stOk else stAuth) [] (updNvm (fun n => { n with opened := false }) v)))) ∧
  (∀ (h : Hdr) (b : Bulk) (x : InXfer) (id seq : Nat) (s : State), s.rem.ins.find? (fun x => x.is h b) = some x → x.read = some (id, seq) →
    (b.status ≠ 0 → exec (.bulkEndRx h b) s = .next (jopReply id seq 0x30 b.status [] (dropIn h b s))) ∧
    (b.status = 0 → missing x.offset x.len x.got = [] → exec (.bulkEndRx h b) s = .next (jopReply id seq 0x30 stOk (beBytes 4 x.len ++ assemble x.offset x.len x.data) (dropIn h b s))) ∧
    (∀ r l, b.status = 0 → missing x.offset x.len x.got = r :: l → exec (.bulkEndRx h b) s = .next (sendReadReq x r.1 r.2 s))) ∧
  (∀ (h : Hdr) (b : Bulk) (s : State), (dropIn h b s).objs = s.objs ∧ (∀ x ∈ (dropIn h b s).rem.ins, x.is h b = false)) ∧
  (∀ s : State, rd (O.NVM_SLOT_STATUS (1 - rd O.NVM_RUN_SLOT s)) s = 1 → ∃ t, slotWritten s = t ∧ OnlyObjs [O.NVM_SLOT_STATUS (1 - rd O.NVM_RUN_SLOT s)] s t ∧ rd (O.NVM_SLOT_STATUS (1 - rd O.NVM_RUN_SLOT s)) t = 2) ∧
  (∀ (o n x : Nat) (l : List (Nat × Nat)), l.Pairwise (fun a b => a.1 ≤ b.1) → ((∃ r ∈ missing o n l, r.1 ≤ x ∧ x < r.1 + r.2) ↔ (o ≤ x ∧ x < o + n ∧ ∀ r ∈ l, ¬(r.1 ≤ x ∧ x < r.1 + r.2)))) ∧
  (∀ (h : Hdr) (b : Bulk) (s : State), (∀ x ∈ s.rem.outs, x.id ≠ b.xfer ∨ x.why = .answer ∨ (∃ i q, x.why = .write i q ∧ (x.dst ≠ h.src ∨ x.side ≠ h.srcSide)) ∨ ∃ l, x.why = .dist l ∧ fld h.src 9 4 ≠ l) →
    exec (.bulkAckRx h b) s = .next s) ∧
  (∀ (h : Hdr) (b : Bulk) (x : OutXfer) (p l : List OutXfer) (id seq : Nat) (s : State), s.rem.outs = p ++ x :: l → (∀ y ∈ p, y.id ≠ b.xfer) → x.id = b.xfer → x.why = .write id seq → x.dst = h.src → x.side = h.srcSide → ∃ u v, u = updRem (fun r => { r with outs := u.rem.outs }) s ∧
    (∀ y, y ∈ u.rem.outs ↔ (y ∈ p ∨ y ∈ l) ∧ y.same x = false) ∧ v = setOut { x with todo := b.ranges, ended := false, round := x.round + 1 } s ∧
    (b.status ≠ 0 → exec (.bulkAckRx h b) s = .next (jopReply id seq 0x31 b.status [] u)) ∧ (b.status = 0 → b.ranges = [] → exec (.bulkAckRx h b) s = .next (jopReply id seq 0x31 stOk [] u)) ∧
    (b.status = 0 → b.ranges ≠ [] → 3 ≤ x.round → exec (.bulkAckRx h b) s = .next (jopReply id seq 0x31 stUnreachable [] u)) ∧
    (b.status = 0 → b.ranges ≠ [] → x.round < 3 → exec (.bulkAckRx h b) s = .next (pump v))) ∧
  (∀ (h : Hdr) (b : Bulk) (x : OutXfer) (p l : List OutXfer) (k : Nat) (s : State), s.rem.outs = p ++ x :: l → (∀ y ∈ p, y.id ≠ b.xfer) → x.id = b.xfer → x.why = .dist k → fld h.src 9 4 = k → exec (.bulkAckRx h b) s = .next (distAck x k (fld h.src 9 0) b s)) ∧
  (∀ s : State, isNode s = false ∨ s.tree.pistes = [] ∨ rd O.SYS_RECOVERY s ≠ 0 → exec .nvmDistribute s = .next (refusedState stState s)) ∧
  (∀ s : State, rd (O.NVM_SLOT_STATUS (rd O.NVM_DIST_SLOT s)) s ≠ 3 → exec .nvmDistribute s = .next (refusedState stState s)) ∧
  (∀ s : State, isNode s = true → rd O.SYS_RECOVERY s = 0 → s.tree.pistes ≠ [] → rd (O.NVM_SLOT_STATUS (rd O.NVM_DIST_SLOT s)) s = 3 → rd O.NVM_DIST_STATE s = 1 ∨ rd O.NVM_DIST_STATE s = 2 → exec .nvmDistribute s = .next (refusedState stBusy s)) ∧
  (∀ s : State, isNode s = true → rd O.SYS_RECOVERY s = 0 → s.tree.pistes ≠ [] → rd (O.NVM_SLOT_STATUS (rd O.NVM_DIST_SLOT s)) s = 3 → rd O.NVM_DIST_STATE s ≠ 1 → rd O.NVM_DIST_STATE s ≠ 2 → ∃ u xs, exec .nvmDistribute s = .next (answer stOk [] (pump u)) ∧
    u.rem.outs = s.rem.outs ++ xs ∧ (∀ x ∈ xs, x.bcast = true ∧ x.region = 0xD010 ∧ x.todo = [(0, 3145728)] ∧ x.lane ∈ pisteLinks s) ∧ (rd O.NVM_DIST_CELLS u = sumL (u.nvm.dist.map fun d => d.cells.length)))

/-- Host ports and sessions. ARP for an own address is answered, any other ignored; an echo is answered up to 100 a second. A datagram that is not for this apex's JOP port changes nothing. DISCOVER is answered in the clear. OPEN is refused for an unknown slot, a claim of an owned device, a key off the curve, and with four sessions or two OPENs held, else it is held and answered with its number, a nonce and a key. CONFIRM of a held OPEN counts a wrong TAG as a failure, is refused with four sessions, for a claim of an owned device and without SEQ 1 and a valid signature, else opens a session with its slot's rights and answers authenticated. Every other authenticated request is counted bad above 1408 bytes, answers NO_SESSION, counts a wrong TAG, and repeats the reply of one not fresh that has one, does nothing while it runs and counts a replay else; accepted, it answers RIGHTS without the right of its operation and STATE where ROM service mode does not serve it. CONFIRM without a held OPEN then answers STATE; CLOSE answers and ends the session. A failure counts, and above SEC_AUTH_LIMIT in a second sets SEC_STATUS. OPENs end after 1 s, idle sessions after SYS_SESSION_IDLE, the rate condition 10 s on; a malformed datagram counts at an apex. Host requests, accepted and with their right. The reply of a session is authenticated, numbered from its own count, sent to where the request came from and counted; without the session or the request none is sent, and where its own count would reach 2^64 the session closes instead. READ and WRITE of this apex answer the objects' status, number and bytes, WRITE with NO_OBJECT for a wrong number of sub-indices; elsewhere they go on as a request, WRITE with RIGHTS where one of its objects needs a right that is lacking and LENGTH above a frame. EVENT_READ answers up to 40 entries with the fill, RANGE for another number; EVENT_ACK removes entries where the queue's head is the one named, else STATE. BULK_READ and BULK_WRITE answer RANGE for a length they do not take, the region's status and data here, and begin a transfer elsewhere. CORE_MSG answers RANGE for a length beyond 1 to 256, BUSY while one waits, else hands it to the core with its event. ATTEST answers a report here and is sent on elsewhere. SYS_CORE_MSG_LEN is written at an apex up to 256, RANGE above, STATE in ROM service mode, BLOCK_OFF at another device. -/
def Obligations.HostSessionsAndRequests : Prop :=
  ((∀ (p ip : Nat) (v : Option Nat) (s : State), toPort ⟨p, 0, ip, 0, v⟩ s = true → ∃ t, exec (.arpRx p ip v) s = .next t ∧ t.jop.out = some (.arp p ip (madeValue (O.SYS_MAC p))) ∧ t.objs = s.objs) ∧
  (∀ (p ip : Nat) (v : Option Nat) (s : State), toPort ⟨p, 0, ip, 0, v⟩ s = false → exec (.arpRx p ip v) s = .next s) ∧
  (∀ (f : HostFrom) (s : State), isApex s = false ∨ 1 < f.port → toPort f s = false) ∧
  (∀ (f : HostFrom) (d : List Nat) (s : State), (toPort f s = false → exec (.icmpEchoRx f d) s = .next s) ∧ (toPort f s = true →
    ((s.jop.pings.filter fun t => s.tick < t + 400000000).length < 100 → ∃ t, exec (.icmpEchoRx f d) s = .next t ∧ t.jop.out = some (.echo f.port f.addr d) ∧
      t.jop.pings.head? = some s.tick ∧ t.objs = s.objs) ∧ (100 ≤ (s.jop.pings.filter fun t => s.tick < t + 400000000).length → ∃ t, exec (.icmpEchoRx f d) s = .next t ∧ t.jop.out = s.jop.out ∧ t.objs = s.objs))) ∧
  (∀ (f : HostFrom) (q : Nat) (s : State), toJop f s = false → exec (.jopDiscover f q) s = .next s ∧ ∀ sl nh qh ql, exec (.jopOpen f q sl nh qh ql) s = .next s) ∧
  (∀ (f : HostFrom) (q : Nat) (s : State), toJop f s = true → ∃ t r, exec (.jopDiscover f q) s = .next t ∧ t.jop.out = some (.jop r) ∧ r.auth = false ∧ r.session = 0 ∧ r.op = 1 ∧ r.status = 0 ∧ r.echo = q ∧ r.body = discoverBody s ∧
    r.port = f.port ∧ r.addr = f.addr ∧ t.objs = s.objs) ∧
  (∀ (sl qh ql : Nat) (s : State), (rd O.SEC_OWNER_STATE s ≠ 0 → openStatus 0xFF qh ql s = stRights) ∧ (7 < sl → sl ≠ 0xFF → openStatus sl qh ql s = stRights) ∧ (sl ≤ 7 → rd (O.SEC_HOST_KEY sl) s = 0 → openStatus sl qh ql s = stRights) ∧
    (sl ≤ 7 → rd (O.SEC_HOST_KEY sl) s ≠ 0 → onCurve qh = false → openStatus sl qh ql s = stRange) ∧
    (sl ≤ 7 → rd (O.SEC_HOST_KEY sl) s ≠ 0 → onCurve qh = true → 4 ≤ s.jop.sessions.length ∨ 2 ≤ s.jop.opens.length → openStatus sl qh ql s = stBusy) ∧
    (sl ≤ 7 → rd (O.SEC_HOST_KEY sl) s ≠ 0 → onCurve qh = true → s.jop.sessions.length < 4 → s.jop.opens.length < 2 → openStatus sl qh ql s = stOk)) ∧
  (∀ (f : HostFrom) (q sl qh ql : Nat) (nh : List Nat) (s : State), toJop f s = true → openStatus sl qh ql s ≠ 0 → ∃ t r, exec (.jopOpen f q sl nh qh ql) s = .next t ∧ t.jop.out = some (.jop r) ∧ r.status = openStatus sl qh ql s ∧ r.auth = false ∧
    t.jop.opens = s.jop.opens ∧ t.objs = s.objs) ∧
  (∀ (f : HostFrom) (q sl qh ql : Nat) (nh : List Nat) (s : State), toJop f s = true → openStatus sl qh ql s = 0 → ∃ t r o, exec (.jopOpen f q sl nh qh ql) s = .next t ∧ t.jop.out = some (.jop r) ∧ r.status = 0 ∧ r.auth = false ∧ r.op = 2 ∧
    t.jop.opens = s.jop.opens ++ [o] ∧ o.slot = sl ∧ o.id = s.jop.nextId ∧ o.at_ = s.tick ∧ (r.body.take 4) = beBytes 4 o.id ∧ r.body.length = 165 ∧ t.jop.sessions = s.jop.sessions ∧ t.objs = s.objs) ∧
  (∀ (a : JopAuth) (o : OpenSt) (g : Nat) (s : State), toJop a.host s = true → s.jop.opens.find? (fun o => o.id == a.session) = some o → (tagOk o.keyHd a 3 (beBytes 64 g) = false → exec (.jopConfirm a g) s = .next (authFailure s)) ∧
    (tagOk o.keyHd a 3 (beBytes 64 g) = true → (4 ≤ s.jop.sessions.length → exec (.jopConfirm a g) s = .next (clearReply a.host.port a.host.addr 3 stBusy a.seq [] s)) ∧
      (s.jop.sessions.length < 4 → o.slot = 0xFF → rd O.SEC_OWNER_STATE s ≠ 0 → exec (.jopConfirm a g) s = .next (clearReply a.host.port a.host.addr 3 stRights a.seq [] s)) ∧
      (s.jop.sessions.length < 4 → o.slot ≠ 0xFF ∨ rd O.SEC_OWNER_STATE s = 0 → a.seq ≠ 1 ∨ ecdsaVerify (o.key s) (o.t ++ beBytes 64 o.sigD) g = false →
        exec (.jopConfirm a g) s = .next (clearReply a.host.port a.host.addr 3 stAuth a.seq [] (authFailure s))) ∧
      (s.jop.sessions.length < 4 → o.slot ≠ 0xFF ∨ rd O.SEC_OWNER_STATE s = 0 → a.seq = 1 → ecdsaVerify (o.key s) (o.t ++ beBytes 64 o.sigD) g = true → exec (.jopConfirm a g) s = .next (sessionOpens a o s)))) ∧
  (∀ (a : JopAuth) (o : OpenSt) (s : State), (∀ x ∈ s.jop.sessions, x.id ≠ o.id) → o.slot ≠ 0xFF → o.id = a.session → a.seq = 1 → ∃ t x r, sessionOpens a o s = t ∧ t.jop.sessions.map (fun y => y.id) = s.jop.sessions.map (fun y => y.id) ++ [o.id] ∧
    session? o.id t = some x ∧ x.rights = rd (O.SEC_HOST_RIGHTS o.slot) s ∧ x.last = s.tick ∧ x.top = 1 ∧ (∀ y ∈ t.jop.opens, y.id ≠ o.id) ∧ rd O.SYS_SESSIONS t = s.jop.sessions.length + 1 ∧ SameObjs [O.SYS_SESSIONS] s t ∧
    t.jop.out = some (.jop r) ∧ r.auth = true ∧ r.status = 0 ∧ r.seq = 1 ∧ r.tag = hmac o.keyDh (dgramBytes true o.id 1 3 0 1 [])) ∧
  (∀ (a : JopAuth) (op : Nat) (b : List Nat) (c : Instr) (s : State), JopCmd a op b c → toJop a.host s = false → exec c s = .next s) ∧
  (∀ (a : JopAuth) (op : Nat) (b : List Nat) (c : Instr) (s : State), JopCmd a op b c → toJop a.host s = true → (op = 3 → ∀ o ∈ s.jop.opens, o.id ≠ a.session) → (1408 < b.length → exec c s = .next (bump O.SYS_JOP_BAD s)) ∧
    (b.length ≤ 1408 → session? a.session s = none → exec c s = .next (bump O.SYS_JOP_NO_SESSION (clearReply a.host.port a.host.addr op stNoSession a.seq [] s))) ∧
    (∀ x, b.length ≤ 1408 → session? a.session s = some x → (tagOk x.keyHd a op b = false → exec c s = .next (authFailure s)) ∧
      (tagOk x.keyHd a op b = true → x.fresh a.seq = false → (∀ n r, x.replies.find? (fun e => e.1 == a.seq) = some (n, r) → ∃ t, exec c s = .next t ∧ t = { s with jop := { s.jop with out := some (.jop { r with port := a.host.port, addr := a.host.addr }) } }) ∧
        ((∀ e ∈ x.replies, e.1 ≠ a.seq) → (∃ w ∈ x.waiting, w.seq = a.seq) → exec c s = .next s) ∧ ((∀ e ∈ x.replies, e.1 ≠ a.seq) → (∀ w ∈ x.waiting, w.seq ≠ a.seq) → exec c s = .next (bump O.SYS_JOP_REPLAY s))) ∧
      (tagOk x.keyHd a op b = true → x.fresh a.seq = true → (∀ n, opRight op = some n → bit x.rights n = false → exec c s = .next (authReply a op stRights [] (acceptedBy a op s))) ∧
        ((∀ n, opRight op = some n → bit x.rights n = true) → rd O.SYS_RECOVERY s ≠ 0 → romServes op = false → exec c s = .next (authReply a op stState [] (acceptedBy a op s)))))) ∧
  (opRight 3 = none ∧ opRight 4 = none ∧ opRight 0x10 = some 0 ∧ opRight 0x11 = none ∧ opRight 0x20 = some 0 ∧ opRight 0x21 = some 1 ∧ opRight 0x30 = some 0 ∧ opRight 0x31 = some 4 ∧ opRight 0x40 = some 6 ∧ opRight 0x50 = some 0) ∧
  (∀ (a : JopAuth) (x : Session) (g : Nat) (s : State), ValidRequest a 3 (beBytes 64 g) x s → (∀ o ∈ s.jop.opens, o.id ≠ a.session) → exec (.jopConfirm a g) s = .next (authReply a 3 stState [] (acceptedBy a 3 s))) ∧
  (∀ (a : JopAuth) (x : Session) (s : State), ValidRequest a 4 [] x s → ∃ t, exec (.jopClose a) s = .next t ∧ t = closeSession a.session (authReply a 4 stOk [] (acceptedBy a 4 s)) ∧ session? a.session t = none ∧ rd O.SYS_SESSIONS t = t.jop.sessions.length) ∧
  (∀ (x : Session) (n : Nat), (x.top < n → x.fresh n = true) ∧ (n + 64 < x.top → x.fresh n = false) ∧ x.fresh x.top = false ∧ (n ∈ x.seen → n ≤ x.top → x.fresh n = false) ∧ (n < x.top → x.top ≤ n + 64 → n ∉ x.seen → x.fresh n = true)) ∧
  (∀ s : State, (s.jop.fails.filter fun t => s.tick < t + 400000000).length < rd O.SEC_AUTH_LIMIT s → ∃ t, authFailure s = t ∧ SameObjs [O.SYS_JOP_AUTH_FAIL] s t ∧ rd O.SYS_JOP_AUTH_FAIL t = satU 32 (rd O.SYS_JOP_AUTH_FAIL s + 1) ∧
    t.jop.fails.head? = some s.tick) ∧
  (∀ s : State, rd O.SEC_AUTH_LIMIT s ≤ (s.jop.fails.filter fun t => s.tick < t + 400000000).length → ∃ u, authFailure s = updSecurity u ∧ rdBit O.SEC_STATUS 0 u = true ∧ u.jop.authEnd = some (s.tick + 4000000000) ∧
    rd O.SYS_JOP_AUTH_FAIL u = satU 32 (rd O.SYS_JOP_AUTH_FAIL s + 1)) ∧
  (∀ (id : Nat) (s : State), (s.jop.opens.find? fun o => o.id == id) = none → exec (.jopOpenExpiry id) s = .next s) ∧
  (∀ (id : Nat) (o : OpenSt) (s : State), (s.jop.opens.find? fun o => o.id == id) = some o → ∃ t, exec (.jopOpenExpiry id) s = .next t ∧ (∀ y ∈ t.jop.opens, y.id ≠ id) ∧ Reached (o.at_ + 400000000) s t ∧ t.objs = s.objs) ∧
  (∀ (id : Nat) (s : State), session? id s = none → exec (.sessionIdleTimeout id) s = .next s) ∧
  (∀ (id : Nat) (x : Session) (s : State), session? id s = some x → ∃ t, exec (.sessionIdleTimeout id) s = .next t ∧ session? id t = none ∧ Reached (x.last + 400000 * (1000 * rd O.SYS_SESSION_IDLE s)) s t ∧ SameObjs [O.SYS_SESSIONS] s t ∧
    rd O.SYS_SESSIONS t = t.jop.sessions.length) ∧
  (∀ s : State, s.jop.authEnd = none → exec .authRateEnd s = .next s) ∧
  (∀ (x : Nat) (s : State), s.jop.authEnd = some x → ∃ u, exec .authRateEnd s = .next (updSecurity u) ∧ rdBit O.SEC_STATUS 0 u = false ∧ u.jop.authEnd = none ∧ Reached x s u ∧ SameObjs [O.SEC_STATUS] s u) ∧
  (∀ s : State, isApex s = true → ∃ t, exec .jopDatagramMalformed s = .next t ∧ OnlyObjs [O.SYS_JOP_BAD] s t ∧ rd O.SYS_JOP_BAD t = satU 32 (rd O.SYS_JOP_BAD s + 1)) ∧
  (∀ s : State, isApex s = false → exec .jopDatagramMalformed s = .next s)) ∧
  ((∀ (id q op st : Nat) (b : List Nat) (x : Session) (w : Waiting) (s : State), session? id s = some x → (x.waiting.find? fun w => w.seq == q) = some w → (2 ^ 64 ≤ x.sent + 1 → jopReply id q op st b s = closeSession id s) ∧
    (x.sent + 1 < 2 ^ 64 → ∃ t r y, jopReply id q op st b s = t ∧ t.jop.out = some (.jop r) ∧
    r.seq = x.sent + 1 ∧ r.echo = q ∧ r.status = st ∧ r.body = b ∧ r.op = op ∧ r.port = w.port ∧ r.addr = w.addr ∧ r.auth = true ∧ r.tag = hmac x.keyDh (dgramBytes true id (x.sent + 1) op st q b) ∧ session? id t = some y ∧ y.sent = x.sent + 1 ∧
    y.rights = x.rights ∧ t.objs = s.objs)) ∧
  (∀ (id q op st : Nat) (b : List Nat) (s : State), (session? id s = none → jopReply id q op st b s = s) ∧ (∀ x, session? id s = some x → (∀ w ∈ x.waiting, w.seq ≠ q) → jopReply id q op st b s = s)) ∧
  (∀ (a : JopAuth) (x : Session) (n : Nat) (s : State), ValidRequest a 0x20 [low 8 n] x s → bit x.rights 0 = true → (n = 0 ∨ 40 < n → exec (.jopEventRead a n) s = .next (authReply a 0x20 stRange [] (acceptedBy a 0x20 s))) ∧
    (1 ≤ n → n ≤ 40 → exec (.jopEventRead a n) s = .next (authReply a 0x20 stOk ([min n s.ket.queue.length, 0] ++ beBytes 2 (rd O.KET_Q_FILL s) ++ (s.ket.queue.take n).flatMap (·.bytes)) (acceptedBy a 0x20 s)))) ∧
  (∀ (a : JopAuth) (x : Session) (n o e : Nat) (s : State), ValidRequest a 0x21 ([low 8 n, 0] ++ beBytes 2 o ++ beBytes 4 e) x s → bit x.rights 1 = true →
    (s.ket.queue = [] → exec (.jopEventAck a n o e) s = .next (authReply a 0x21 stState [] (acceptedBy a 0x21 s))) ∧
    (∀ h l, s.ket.queue = h :: l → h.origin ≠ o ∨ h.eseq ≠ e → exec (.jopEventAck a n o e) s = .next (authReply a 0x21 stState [] (acceptedBy a 0x21 s))) ∧
    (∀ h l, s.ket.queue = h :: l → h.origin = o → h.eseq = e → ∃ u, exec (.jopEventAck a n o e) s = .next (authReply a 0x21 stOk [] (queueShrunk u)) ∧ u.ket.queue = (h :: l).drop (n % 256) ∧ u.objs = s.objs)) ∧
  (∀ (a : JopAuth) (x : Session) (t i u c : Nat) (s : State), ValidRequest a 0x10 (readHead t i u c) x s → bit x.rights 0 = true →
    (tgtHere t s = true → ∀ st n d v, reqReads (.jop x.rights) 1404 (hostMsg x 1 (low 16 i) (low 8 u) (low 8 c) []) (acceptedBy a 0x10 s) = (st, n, d, v) →
      exec (.jopRead a t i u c) s = .next (authReply a 0x10 st ([n, 0] ++ beBytes 2 d.length ++ d) v)) ∧
    (tgtHere t s = false → ∃ m, exec (.jopRead a t i u c) s = .next (requestTo (.jop a.session a.seq 0x10) t m (acceptedBy a 0x10 s)) ∧ m.op = 1 ∧ m.index = i % 65536 ∧ m.sub = u % 256 ∧ m.count = c % 256 ∧ m.commission = bit x.rights 3)) ∧
  (∀ (a : JopAuth) (x : Session) (t i u c : Nat) (d : List Nat) (s : State), ValidRequest a 0x11 (readHead t i u c ++ beBytes 2 d.length ++ d) x s →
    (tgtHere t s = true → c % 256 = 0 ∨ 256 < u % 256 + c % 256 → exec (.jopWrite a t i u c d) s = .next (authReply a 0x11 stNoObject [0] (acceptedBy a 0x11 s))) ∧
    (tgtHere t s = true → 0 < c % 256 → u % 256 + c % 256 ≤ 256 → ∀ st n v, writeMany (.jop x.rights) (i % 65536 * 256 + u % 256) (c % 256) 0 d (acceptedBy a 0x11 s) = (st, n, v) → exec (.jopWrite a t i u c d) s = .next (authReply a 0x11 st [n] v)) ∧
    (tgtHere t s = false → mayWrite x.rights (i % 65536 * 256 + u % 256) (c % 256) 0 d = false → exec (.jopWrite a t i u c d) s = .next (authReply a 0x11 stRights [0] (acceptedBy a 0x11 s))) ∧
    (tgtHere t s = false → mayWrite x.rights (i % 65536 * 256 + u % 256) (c % 256) 0 d = true → 988 < d.length → exec (.jopWrite a t i u c d) s = .next (authReply a 0x11 stLength [0] (acceptedBy a 0x11 s))) ∧
    (tgtHere t s = false → mayWrite x.rights (i % 65536 * 256 + u % 256) (c % 256) 0 d = true → d.length ≤ 988 → ∃ m, exec (.jopWrite a t i u c d) s = .next (requestTo (.jop a.session a.seq 0x11) t m (acceptedBy a 0x11 s)) ∧ m.op = 2 ∧
      m.index = i % 65536 ∧ m.sub = u % 256 ∧ m.count = c % 256 ∧ m.data = d ∧ m.commission = bit x.rights 3)) ∧
  (∀ (a : JopAuth) (x : Session) (t r o n : Nat) (s : State), ValidRequest a 0x30 (bulkHead t r o n) x s → bit x.rights 0 = true → (n = 0 ∨ 1392 < n → exec (.jopBulkRead a t r o n) s = .next (authReply a 0x30 stRange [] (acceptedBy a 0x30 s))) ∧
    (1 ≤ n → n ≤ 1392 → tgtHere t s = true → (readStatus r o n s = stOk → exec (.jopBulkRead a t r o n) s = .next (authReply a 0x30 stOk (beBytes 4 n ++ regionBytes r o n (acceptedBy a 0x30 s)) (acceptedBy a 0x30 s))) ∧
      (readStatus r o n s ≠ stOk → exec (.jopBulkRead a t r o n) s = .next (authReply a 0x30 (readStatus r o n s) [] (acceptedBy a 0x30 s)))) ∧
    (1 ≤ n → n ≤ 1392 → tgtHere t s = false → ∃ u y, exec (.jopBulkRead a t r o n) s = .next (sendReadReq y o n u) ∧ u.rem.ins = s.rem.ins ++ [y] ∧ y.read = some (a.session, a.seq) ∧ y.region = r ∧ y.id = s.rem.nextXfer)) ∧
  (∀ (a : JopAuth) (x : Session) (t r o : Nat) (d : List Nat) (s : State), ValidRequest a 0x31 (bulkHead t r o d.length ++ d) x s → bit x.rights 4 = true →
    (d.length = 0 ∨ 1376 < d.length → exec (.jopBulkWrite a t r o d) s = .next (authReply a 0x31 stRange [] (acceptedBy a 0x31 s))) ∧
    (1 ≤ d.length → d.length ≤ 1376 → tgtHere t s = true → (writeStatus r o d.length s = stOk → exec (.jopBulkWrite a t r o d) s = .next (authReply a 0x31 stOk [] (slotWritten (slotWrite o d (acceptedBy a 0x31 s))))) ∧
      (writeStatus r o d.length s ≠ stOk → exec (.jopBulkWrite a t r o d) s = .next (authReply a 0x31 (writeStatus r o d.length s) [] (acceptedBy a 0x31 s)))) ∧
    (1 ≤ d.length → d.length ≤ 1376 → tgtHere t s = false → ∃ y u, exec (.jopBulkWrite a t r o d) s = .next (startOut y u) ∧ y.why = .write a.session a.seq ∧ y.todo = [(o, d.length)] ∧ y.data = d ∧ y.region = r ∧ y.id = s.rem.nextXfer)) ∧
  (∀ (a : JopAuth) (x : Session) (d : List Nat) (s : State), ValidRequest a 0x40 (beBytes 2 d.length ++ d) x s → bit x.rights 6 = true → (d.length = 0 ∨ 256 < d.length → exec (.jopCoreMsg a d) s = .next (authReply a 0x40 stRange [] (acceptedBy a 0x40 s))) ∧
    (1 ≤ d.length → d.length ≤ 256 → rd O.SYS_CORE_MSG_LEN s ≠ 0 → exec (.jopCoreMsg a d) s = .next (authReply a 0x40 stBusy [] (acceptedBy a 0x40 s))) ∧
    (1 ≤ d.length → d.length ≤ 256 → rd O.SYS_CORE_MSG_LEN s = 0 → ∃ u, exec (.jopCoreMsg a d) s = .next (authReply a 0x40 stOk [] (fireEvent 19 u)) ∧ rd O.SYS_CORE_MSG_LEN u = d.length ∧
      (d.length = 32 → (∀ y ∈ d, y < 256) → beBytes 32 (rd (O.SYS_CORE_MSG 0) u) = d) ∧ u.mem = s.mem)) ∧
  (∀ (a : JopAuth) (x : Session) (t : Nat) (n : List Nat) (s : State), ValidRequest a 0x50 (beBytes 4 t ++ padTo 32 0 n) x s → bit x.rights 0 = true → (tgtHere t s = true → ∃ d, exec (.jopAttest a t n) s =
      .next (authReply a 0x50 stOk d (bump O.SEC_ATTEST_COUNT (takeFree 256 (acceptedBy a 0x50 s)).2)) ∧ d.length = 512) ∧
    (tgtHere t s = false → ∃ m, exec (.jopAttest a t n) s = .next (requestTo (.jop a.session a.seq 0x50) t m (acceptedBy a 0x50 s)) ∧ m.op = 4 ∧ m.data = padTo 32 0 n)) ∧
  (∀ (v : Nat) (s : State), isApex s = true → (rd O.SYS_RECOVERY s ≠ 0 → exec (.sysCoreMsgLen v) s = .next (refusedState stState s)) ∧ (rd O.SYS_RECOVERY s = 0 → 256 < v → exec (.sysCoreMsgLen v) s = .next (refusedState stRange s)) ∧
    (rd O.SYS_RECOVERY s = 0 → v ≤ 256 → ∃ t, exec (.sysCoreMsgLen v) s = .next t ∧ Wrote [O.SYS_CORE_MSG_LEN] s t ∧ rd O.SYS_CORE_MSG_LEN t = v)) ∧
  (∀ (v : Nat) (s : State), isApex s = false → exec (.sysCoreMsgLen v) s = .next (refusedState stBlockOff s)))

/-- Parameter store, images and keys. STORE takes the stored objects' values at once and ends within 400 ms, and answers BUSY while one runs; its end writes the copy of the lower generation, and a good one sets generation and count and ends the conditions of NVM_STATUS, a bad one sets STORE_FAILED and leaves the loaded one in force. RESTORE_DEFAULTS forgets both copies, BUSY while one is written. VERIFY answers BUSY while the slot is erased, else reports its first failing check, or VALID with version and SVN. A header without its magic word or with a field out of its place fails check 1, an object too long check 2; a valid image is not below SEC_SVN_MIN. ACTIVATE answers STATE for a slot not VALID, else marks it for a trial; COMMIT answers STATE outside a trial, else ends it and raises SEC_SVN_MIN. Keys are installed, removed and given up over JOP with KEYS alone, else RIGHTS; INSTALL_HOST and INSTALL_IMAGE_KEY answer STATE with nothing staged, RANGE beyond slot 7, REMOVE_HOST STATE for the last key with KEYS; DISOWN empties all. In ROM service mode every one answers STATE, but for VERIFY and ACTIVATE with NO_IMAGE. A key is an uncompressed point. -/
def Obligations.StoreImagesAndKeys : Prop :=
  (∀ (r : Bool) (n : Nat) (s : State), rd O.SYS_RECOVERY s ≠ 0 → exec .nvmStore s = .next (refusedState stState s) ∧ exec .nvmRestoreDefaults s = .next (refusedState stState s) ∧ exec .nvmCommit s = .next (refusedState stState s) ∧
    exec (.secInstallHost r n) s = .next (refusedState stState s) ∧ exec (.secRemoveHost r n) s = .next (refusedState stState s) ∧ exec (.secInstallImageKey r) s = .next (refusedState stState s) ∧ exec (.secDisown r) s = .next (refusedState stState s) ∧
    (rd O.SYS_RECOVERY s ≠ 1 → exec .nvmVerify s = .next (refusedState stState s) ∧ exec .nvmActivate s = .next (refusedState stState s))) ∧
  (∀ s : State, rd O.SYS_RECOVERY s = 0 → s.nvm.busy = none → ∃ t c, exec .nvmStore s = .next t ∧ Wrote [O.NVM_STORE_STATE] { s with nvm := t.nvm } t ∧ rd O.NVM_STORE_STATE t = 1 ∧ t.nvm.busy = some (c, s.tick + 160000000) ∧
    c.gen = max (copyGen 0 s) (copyGen 1 s) + 1 ∧ c.vals = (s.objs.filter fun e => storable s.straps e.1) ∧ t.nvm.copies = s.nvm.copies) ∧
  (∀ s : State, rd O.SYS_RECOVERY s = 0 → s.nvm.busy ≠ none → exec .nvmStore s = .next (refusedState stBusy s) ∧ exec .nvmRestoreDefaults s = .next (refusedState stBusy s)) ∧
  (∀ (g : Bool) (s : State), s.nvm.busy = none → exec (.nvmStoreDone g) s = .next s) ∧
  (∀ (c : StoreCopy) (x : Nat) (s : State), s.nvm.busy = some (c, x) → (∃ u, exec (.nvmStoreDone false) s = .next (setNvmBit 0 true u) ∧ u.nvm.copies = s.nvm.copies.set (olderCopy s) (some { c with good := false }) ∧
      u.nvm.busy = none ∧ rd O.NVM_STORE_STATE u = 0 ∧ SameObjs [O.NVM_STORE_STATE] s u ∧ u.nvm.loaded = s.nvm.loaded) ∧
    ∃ u, exec (.nvmStoreDone true) s = .next (setNvmBit 2 false (setNvmBit 1 false (setNvmBit 0 false u))) ∧ u.nvm.copies = s.nvm.copies.set (olderCopy s) (some { c with good := true }) ∧ u.nvm.made = true ∧ u.nvm.busy = none ∧ u.nvm.loaded = some c ∧
      rd O.NVM_STORE_STATE u = 0 ∧ rd O.NVM_STORE_GEN u = c.gen ∧ rd O.NVM_STORE_COUNT u = satU 32 (rd O.NVM_STORE_COUNT s + 1) ∧ SameObjs [O.NVM_STORE_STATE, O.NVM_STORE_GEN, O.NVM_STORE_COUNT] s u) ∧
  (∀ s : State, olderCopy s < 2 ∧ copyGen (olderCopy s) s ≤ copyGen (1 - olderCopy s) s) ∧
  (∀ s : State, rd O.SYS_RECOVERY s = 0 → s.nvm.busy = none → exec .nvmRestoreDefaults s = .next { s with nvm := { s.nvm with copies := [none, none], made := false }, resp := [stOk] }) ∧
  (∀ s : State, rd O.SYS_RECOVERY s ≤ 1 → s.nvm.eraseEnd ≠ none → exec .nvmVerify s = .next (refusedState stBusy s)) ∧
  (∀ (i e : Nat) (s : State), rd O.SYS_RECOVERY s ≤ 1 → s.nvm.eraseEnd = none → i = 1 - rd O.NVM_RUN_SLOT s → e = slotError i s → e ≠ 0 → ∃ t, exec .nvmVerify s = .next t ∧ t.resp = [stOk] ∧ rd (O.NVM_SLOT_STATUS i) t = 4 ∧ rd (O.NVM_SLOT_ERROR i) t = e ∧
    t.nvm.opened = false ∧ t.mem = s.mem ∧ (e = 6 → rdBit O.SEC_STATUS 1 t = true) ∧ SameObjs [O.NVM_SLOT_STATUS i, O.NVM_SLOT_ERROR i, O.NVM_SLOT_SVN i, O.NVM_SLOT_VERSION i, O.SEC_STATUS] s t) ∧
  (∀ (i : Nat) (s : State), rd O.SYS_RECOVERY s ≤ 1 → s.nvm.eraseEnd = none → i = 1 - rd O.NVM_RUN_SLOT s → slotError i s = 0 → ∃ u, exec .nvmVerify s = .next (answer stOk [] (updNvm (fun n => { n with opened := false }) (setNvmBit 4 false u))) ∧
    rd (O.NVM_SLOT_STATUS i) u = 3 ∧ rd (O.NVM_SLOT_ERROR i) u = 0 ∧ rd (O.NVM_SLOT_VERSION i) u = slotField i 8 4 s ∧ rd (O.NVM_SLOT_SVN i) u = slotField i 12 4 s ∧ rdBit O.SEC_STATUS 1 u = false) ∧
  (∀ (i : Nat) (s : State), i ∉ s.nvm.factory → (slotField i 0 4 s ≠ 0x55544449 → slotError i s = 1) ∧ (slotField i 0 4 s = 0x55544449 → slotField i 4 4 s = 1 → slotField i 24 4 s = 0 → slotField i 252 260 s = 0 → 393216 < slotField i 16 4 s → slotError i s = 2)) ∧
  (∀ (i : Nat) (s : State), slotError i s = 0 → rd O.SEC_SVN_MIN s ≤ slotField i 12 4 s) ∧
  (∀ s : State, rd (O.NVM_SLOT_STATUS (1 - rd O.NVM_RUN_SLOT s)) s ≠ 3 → exec .nvmActivate s = .next (refusedState stState s)) ∧
  (∀ s : State, rd O.SYS_RECOVERY s ≤ 1 → rd (O.NVM_SLOT_STATUS (1 - rd O.NVM_RUN_SLOT s)) s = 3 → ∃ t, exec .nvmActivate s = .next t ∧ t.resp = [stOk] ∧ rd O.NVM_BOOT_SLOT t = 1 - rd O.NVM_RUN_SLOT s ∧ rd O.NVM_TRIAL t = 1 ∧
    SameObjs [O.NVM_BOOT_SLOT, O.NVM_TRIAL] s t ∧ t.mem = s.mem) ∧
  (∀ s : State, rd O.NVM_TRIAL s = 0 ∨ rd O.NVM_BOOT_SLOT s ≠ rd O.NVM_RUN_SLOT s → exec .nvmCommit s = .next (refusedState stState s)) ∧
  (∀ s : State, rd O.SYS_RECOVERY s = 0 → rd O.NVM_TRIAL s ≠ 0 → rd O.NVM_BOOT_SLOT s = rd O.NVM_RUN_SLOT s → ∃ t, exec .nvmCommit s = .next t ∧ Wrote [O.NVM_TRIAL, O.SEC_SVN_MIN] s t ∧ rd O.NVM_TRIAL t = 0 ∧
    rd O.SEC_SVN_MIN t = max (rd O.SEC_SVN_MIN s) (slotField (rd O.NVM_RUN_SLOT s) 12 4 s)) ∧
  (∀ (n : Nat) (s : State), rd O.SYS_RECOVERY s = 0 → exec (.secInstallHost false n) s = .next (refusedState stRights s) ∧ exec (.secRemoveHost false n) s = .next (refusedState stRights s) ∧ exec (.secInstallImageKey false) s = .next (refusedState stRights s) ∧
    exec (.secDisown false) s = .next (refusedState stRights s)) ∧
  (∀ (n : Nat) (s : State), rd O.SYS_RECOVERY s = 0 → 7 < n → exec (.secInstallHost true n) s = .next (refusedState stRange s) ∧ exec (.secRemoveHost true n) s = .next (refusedState stRange s)) ∧
  (∀ (n : Nat) (s : State), n ≤ 7 → rd O.SEC_KEY_STAGE s = 0 ∨ rd O.SEC_RIGHTS_STAGE s = 0 → exec (.secInstallHost true n) s = .next (refusedState stState s)) ∧
  (∀ s : State, rd O.SEC_KEY_STAGE s = 0 → exec (.secInstallImageKey true) s = .next (refusedState stState s)) ∧
  (∀ (n : Nat) (s : State), rd O.SYS_RECOVERY s = 0 → n ≤ 7 → rd O.SEC_KEY_STAGE s ≠ 0 → rd O.SEC_RIGHTS_STAGE s ≠ 0 → ∃ t, exec (.secInstallHost true n) s = .next t ∧ Wrote [O.SEC_HOST_KEY n, O.SEC_HOST_RIGHTS n, O.SEC_OWNER_STATE] s t ∧
    rd (O.SEC_HOST_KEY n) t = rd O.SEC_KEY_STAGE s ∧ rd (O.SEC_HOST_RIGHTS n) t = rd O.SEC_RIGHTS_STAGE s ∧ rd O.SEC_OWNER_STATE t = 1) ∧
  (∀ (n : Nat) (s : State), n ≤ 7 → rdBit (O.SEC_HOST_RIGHTS n) 5 s = true → (∀ j < 8, j ≠ n → rdBit (O.SEC_HOST_RIGHTS j) 5 s = false) → exec (.secRemoveHost true n) s = .next (refusedState stState s)) ∧
  (∀ (n : Nat) (s : State), rd O.SYS_RECOVERY s = 0 → n ≤ 7 → (rdBit (O.SEC_HOST_RIGHTS n) 5 s = false ∨ ∃ m < 8, m ≠ n ∧ rdBit (O.SEC_HOST_RIGHTS m) 5 s = true) → ∃ t, exec (.secRemoveHost true n) s = .next t ∧ rd (O.SEC_HOST_KEY n) t = 0 ∧
    rd (O.SEC_HOST_RIGHTS n) t = 0 ∧ Wrote [O.SEC_HOST_KEY n, O.SEC_HOST_RIGHTS n, O.SEC_OWNER_STATE] s t ∧ (rd O.SEC_OWNER_STATE t = 1 ↔ ∃ j < 8, rd (O.SEC_HOST_KEY j) t ≠ 0)) ∧
  (∀ s : State, rd O.SYS_RECOVERY s = 0 → rd O.SEC_KEY_STAGE s ≠ 0 → ∃ t, exec (.secInstallImageKey true) s = .next t ∧ Wrote [O.SEC_IMAGE_KEY] s t ∧ rd O.SEC_IMAGE_KEY t = rd O.SEC_KEY_STAGE s) ∧
  (∀ s : State, rd O.SYS_RECOVERY s = 0 → ∃ t, exec (.secDisown true) s = .next t ∧ t.resp = [stOk] ∧ (∀ n < 8, rd (O.SEC_HOST_KEY n) t = 0 ∧ rd (O.SEC_HOST_RIGHTS n) t = 0) ∧ rd O.SEC_IMAGE_KEY t = 0 ∧ rd O.SEC_OWNER_STATE t = 0 ∧ t.mem = s.mem ∧ t.nvm = s.nvm ∧
    ∀ k, k / 256 ≠ 0xD110 → k / 256 ≠ 0xD118 → k ≠ O.SEC_IMAGE_KEY → k ≠ O.SEC_OWNER_STATE → rd k t = rd k s) ∧
  (∀ x : Nat, onCurve x = true → x / 2 ^ 512 = 4)
end

