-- ==== Sys2Proof/Laws/State.lean ====
section
/-! SUPPORT. One lemma per field of State per update: what the update does to it. -/
namespace Sys2Proof.Machine

/-! updKet changes ket alone. -/

@[simp] theorem updKet_straps (f : KetSt → KetSt) (s : State) : (updKet f s).straps = s.straps := rfl
@[simp] theorem updKet_tick (f : KetSt → KetSt) (s : State) : (updKet f s).tick = s.tick := rfl
@[simp] theorem updKet_pending (f : KetSt → KetSt) (s : State) : (updKet f s).pending = s.pending := rfl
@[simp] theorem updKet_objs (f : KetSt → KetSt) (s : State) : (updKet f s).objs = s.objs := rfl
@[simp] theorem updKet_mem (f : KetSt → KetSt) (s : State) : (updKet f s).mem = s.mem := rfl
@[simp] theorem updKet_free (f : KetSt → KetSt) (s : State) : (updKet f s).free = s.free := rfl
@[simp] theorem updKet_resp (f : KetSt → KetSt) (s : State) : (updKet f s).resp = s.resp := rfl
@[simp] theorem updKet_tree (f : KetSt → KetSt) (s : State) : (updKet f s).tree = s.tree := rfl
@[simp] theorem updKet_cell (f : KetSt → KetSt) (s : State) : (updKet f s).cell = s.cell := rfl
@[simp] theorem updKet_bal (f : KetSt → KetSt) (s : State) : (updKet f s).bal = s.bal := rfl
@[simp] theorem updKet_lnk (f : KetSt → KetSt) (s : State) : (updKet f s).lnk = s.lnk := rfl
@[simp] theorem updKet_tim (f : KetSt → KetSt) (s : State) : (updKet f s).tim = s.tim := rfl
@[simp] theorem updKet_red (f : KetSt → KetSt) (s : State) : (updKet f s).red = s.red := rfl
@[simp] theorem updKet_law (f : KetSt → KetSt) (s : State) : (updKet f s).law = s.law := rfl
@[simp] theorem updKet_adc (f : KetSt → KetSt) (s : State) : (updKet f s).adc = s.adc := rfl
@[simp] theorem updKet_acq (f : KetSt → KetSt) (s : State) : (updKet f s).acq = s.acq := rfl
@[simp] theorem updKet_ket (f : KetSt → KetSt) (s : State) : (updKet f s).ket = f s.ket := rfl
@[simp] theorem updKet_saf (f : KetSt → KetSt) (s : State) : (updKet f s).saf = s.saf := rfl
@[simp] theorem updKet_tsk (f : KetSt → KetSt) (s : State) : (updKet f s).tsk = s.tsk := rfl
@[simp] theorem updKet_dma (f : KetSt → KetSt) (s : State) : (updKet f s).dma = s.dma := rfl
@[simp] theorem updKet_fio (f : KetSt → KetSt) (s : State) : (updKet f s).fio = s.fio := rfl
@[simp] theorem updKet_rem (f : KetSt → KetSt) (s : State) : (updKet f s).rem = s.rem := rfl
@[simp] theorem updKet_jop (f : KetSt → KetSt) (s : State) : (updKet f s).jop = s.jop := rfl
@[simp] theorem updKet_nvm (f : KetSt → KetSt) (s : State) : (updKet f s).nvm = s.nvm := rfl
@[simp] theorem updKet_sys (f : KetSt → KetSt) (s : State) : (updKet f s).sys = s.sys := rfl
@[simp] theorem updKet_jtag (f : KetSt → KetSt) (s : State) : (updKet f s).jtag = s.jtag := rfl
@[simp] theorem rd_updKet (f : KetSt → KetSt) (q : Nat) (s : State) : rd q (updKet f s) = rd q s := rfl

/-! updSaf changes saf alone. -/

@[simp] theorem updSaf_straps (f : SafSt → SafSt) (s : State) : (updSaf f s).straps = s.straps := rfl
@[simp] theorem updSaf_tick (f : SafSt → SafSt) (s : State) : (updSaf f s).tick = s.tick := rfl
@[simp] theorem updSaf_pending (f : SafSt → SafSt) (s : State) : (updSaf f s).pending = s.pending := rfl
@[simp] theorem updSaf_objs (f : SafSt → SafSt) (s : State) : (updSaf f s).objs = s.objs := rfl
@[simp] theorem updSaf_mem (f : SafSt → SafSt) (s : State) : (updSaf f s).mem = s.mem := rfl
@[simp] theorem updSaf_free (f : SafSt → SafSt) (s : State) : (updSaf f s).free = s.free := rfl
@[simp] theorem updSaf_resp (f : SafSt → SafSt) (s : State) : (updSaf f s).resp = s.resp := rfl
@[simp] theorem updSaf_tree (f : SafSt → SafSt) (s : State) : (updSaf f s).tree = s.tree := rfl
@[simp] theorem updSaf_cell (f : SafSt → SafSt) (s : State) : (updSaf f s).cell = s.cell := rfl
@[simp] theorem updSaf_bal (f : SafSt → SafSt) (s : State) : (updSaf f s).bal = s.bal := rfl
@[simp] theorem updSaf_lnk (f : SafSt → SafSt) (s : State) : (updSaf f s).lnk = s.lnk := rfl
@[simp] theorem updSaf_tim (f : SafSt → SafSt) (s : State) : (updSaf f s).tim = s.tim := rfl
@[simp] theorem updSaf_red (f : SafSt → SafSt) (s : State) : (updSaf f s).red = s.red := rfl
@[simp] theorem updSaf_law (f : SafSt → SafSt) (s : State) : (updSaf f s).law = s.law := rfl
@[simp] theorem updSaf_adc (f : SafSt → SafSt) (s : State) : (updSaf f s).adc = s.adc := rfl
@[simp] theorem updSaf_acq (f : SafSt → SafSt) (s : State) : (updSaf f s).acq = s.acq := rfl
@[simp] theorem updSaf_ket (f : SafSt → SafSt) (s : State) : (updSaf f s).ket = s.ket := rfl
@[simp] theorem updSaf_saf (f : SafSt → SafSt) (s : State) : (updSaf f s).saf = f s.saf := rfl
@[simp] theorem updSaf_tsk (f : SafSt → SafSt) (s : State) : (updSaf f s).tsk = s.tsk := rfl
@[simp] theorem updSaf_dma (f : SafSt → SafSt) (s : State) : (updSaf f s).dma = s.dma := rfl
@[simp] theorem updSaf_fio (f : SafSt → SafSt) (s : State) : (updSaf f s).fio = s.fio := rfl
@[simp] theorem updSaf_rem (f : SafSt → SafSt) (s : State) : (updSaf f s).rem = s.rem := rfl
@[simp] theorem updSaf_jop (f : SafSt → SafSt) (s : State) : (updSaf f s).jop = s.jop := rfl
@[simp] theorem updSaf_nvm (f : SafSt → SafSt) (s : State) : (updSaf f s).nvm = s.nvm := rfl
@[simp] theorem updSaf_sys (f : SafSt → SafSt) (s : State) : (updSaf f s).sys = s.sys := rfl
@[simp] theorem updSaf_jtag (f : SafSt → SafSt) (s : State) : (updSaf f s).jtag = s.jtag := rfl
@[simp] theorem rd_updSaf (f : SafSt → SafSt) (q : Nat) (s : State) : rd q (updSaf f s) = rd q s := rfl

/-! updJtag changes jtag alone. -/

@[simp] theorem updJtag_straps (f : JtagSt → JtagSt) (s : State) : (updJtag f s).straps = s.straps := rfl
@[simp] theorem updJtag_tick (f : JtagSt → JtagSt) (s : State) : (updJtag f s).tick = s.tick := rfl
@[simp] theorem updJtag_pending (f : JtagSt → JtagSt) (s : State) : (updJtag f s).pending = s.pending := rfl
@[simp] theorem updJtag_objs (f : JtagSt → JtagSt) (s : State) : (updJtag f s).objs = s.objs := rfl
@[simp] theorem updJtag_mem (f : JtagSt → JtagSt) (s : State) : (updJtag f s).mem = s.mem := rfl
@[simp] theorem updJtag_free (f : JtagSt → JtagSt) (s : State) : (updJtag f s).free = s.free := rfl
@[simp] theorem updJtag_resp (f : JtagSt → JtagSt) (s : State) : (updJtag f s).resp = s.resp := rfl
@[simp] theorem updJtag_tree (f : JtagSt → JtagSt) (s : State) : (updJtag f s).tree = s.tree := rfl
@[simp] theorem updJtag_cell (f : JtagSt → JtagSt) (s : State) : (updJtag f s).cell = s.cell := rfl
@[simp] theorem updJtag_bal (f : JtagSt → JtagSt) (s : State) : (updJtag f s).bal = s.bal := rfl
@[simp] theorem updJtag_lnk (f : JtagSt → JtagSt) (s : State) : (updJtag f s).lnk = s.lnk := rfl
@[simp] theorem updJtag_tim (f : JtagSt → JtagSt) (s : State) : (updJtag f s).tim = s.tim := rfl
@[simp] theorem updJtag_red (f : JtagSt → JtagSt) (s : State) : (updJtag f s).red = s.red := rfl
@[simp] theorem updJtag_law (f : JtagSt → JtagSt) (s : State) : (updJtag f s).law = s.law := rfl
@[simp] theorem updJtag_adc (f : JtagSt → JtagSt) (s : State) : (updJtag f s).adc = s.adc := rfl
@[simp] theorem updJtag_acq (f : JtagSt → JtagSt) (s : State) : (updJtag f s).acq = s.acq := rfl
@[simp] theorem updJtag_ket (f : JtagSt → JtagSt) (s : State) : (updJtag f s).ket = s.ket := rfl
@[simp] theorem updJtag_saf (f : JtagSt → JtagSt) (s : State) : (updJtag f s).saf = s.saf := rfl
@[simp] theorem updJtag_tsk (f : JtagSt → JtagSt) (s : State) : (updJtag f s).tsk = s.tsk := rfl
@[simp] theorem updJtag_dma (f : JtagSt → JtagSt) (s : State) : (updJtag f s).dma = s.dma := rfl
@[simp] theorem updJtag_fio (f : JtagSt → JtagSt) (s : State) : (updJtag f s).fio = s.fio := rfl
@[simp] theorem updJtag_rem (f : JtagSt → JtagSt) (s : State) : (updJtag f s).rem = s.rem := rfl
@[simp] theorem updJtag_jop (f : JtagSt → JtagSt) (s : State) : (updJtag f s).jop = s.jop := rfl
@[simp] theorem updJtag_nvm (f : JtagSt → JtagSt) (s : State) : (updJtag f s).nvm = s.nvm := rfl
@[simp] theorem updJtag_sys (f : JtagSt → JtagSt) (s : State) : (updJtag f s).sys = s.sys := rfl
@[simp] theorem updJtag_jtag (f : JtagSt → JtagSt) (s : State) : (updJtag f s).jtag = f s.jtag := rfl
@[simp] theorem rd_updJtag (f : JtagSt → JtagSt) (q : Nat) (s : State) : rd q (updJtag f s) = rd q s := rfl

/-! updAcq changes acq alone. -/

@[simp] theorem updAcq_straps (f : AcqSt → AcqSt) (s : State) : (updAcq f s).straps = s.straps := rfl
@[simp] theorem updAcq_tick (f : AcqSt → AcqSt) (s : State) : (updAcq f s).tick = s.tick := rfl
@[simp] theorem updAcq_pending (f : AcqSt → AcqSt) (s : State) : (updAcq f s).pending = s.pending := rfl
@[simp] theorem updAcq_objs (f : AcqSt → AcqSt) (s : State) : (updAcq f s).objs = s.objs := rfl
@[simp] theorem updAcq_mem (f : AcqSt → AcqSt) (s : State) : (updAcq f s).mem = s.mem := rfl
@[simp] theorem updAcq_free (f : AcqSt → AcqSt) (s : State) : (updAcq f s).free = s.free := rfl
@[simp] theorem updAcq_resp (f : AcqSt → AcqSt) (s : State) : (updAcq f s).resp = s.resp := rfl
@[simp] theorem updAcq_tree (f : AcqSt → AcqSt) (s : State) : (updAcq f s).tree = s.tree := rfl
@[simp] theorem updAcq_cell (f : AcqSt → AcqSt) (s : State) : (updAcq f s).cell = s.cell := rfl
@[simp] theorem updAcq_bal (f : AcqSt → AcqSt) (s : State) : (updAcq f s).bal = s.bal := rfl
@[simp] theorem updAcq_lnk (f : AcqSt → AcqSt) (s : State) : (updAcq f s).lnk = s.lnk := rfl
@[simp] theorem updAcq_tim (f : AcqSt → AcqSt) (s : State) : (updAcq f s).tim = s.tim := rfl
@[simp] theorem updAcq_red (f : AcqSt → AcqSt) (s : State) : (updAcq f s).red = s.red := rfl
@[simp] theorem updAcq_law (f : AcqSt → AcqSt) (s : State) : (updAcq f s).law = s.law := rfl
@[simp] theorem updAcq_adc (f : AcqSt → AcqSt) (s : State) : (updAcq f s).adc = s.adc := rfl
@[simp] theorem updAcq_acq (f : AcqSt → AcqSt) (s : State) : (updAcq f s).acq = f s.acq := rfl
@[simp] theorem updAcq_ket (f : AcqSt → AcqSt) (s : State) : (updAcq f s).ket = s.ket := rfl
@[simp] theorem updAcq_saf (f : AcqSt → AcqSt) (s : State) : (updAcq f s).saf = s.saf := rfl
@[simp] theorem updAcq_tsk (f : AcqSt → AcqSt) (s : State) : (updAcq f s).tsk = s.tsk := rfl
@[simp] theorem updAcq_dma (f : AcqSt → AcqSt) (s : State) : (updAcq f s).dma = s.dma := rfl
@[simp] theorem updAcq_fio (f : AcqSt → AcqSt) (s : State) : (updAcq f s).fio = s.fio := rfl
@[simp] theorem updAcq_rem (f : AcqSt → AcqSt) (s : State) : (updAcq f s).rem = s.rem := rfl
@[simp] theorem updAcq_jop (f : AcqSt → AcqSt) (s : State) : (updAcq f s).jop = s.jop := rfl
@[simp] theorem updAcq_nvm (f : AcqSt → AcqSt) (s : State) : (updAcq f s).nvm = s.nvm := rfl
@[simp] theorem updAcq_sys (f : AcqSt → AcqSt) (s : State) : (updAcq f s).sys = s.sys := rfl
@[simp] theorem updAcq_jtag (f : AcqSt → AcqSt) (s : State) : (updAcq f s).jtag = s.jtag := rfl
@[simp] theorem rd_updAcq (f : AcqSt → AcqSt) (q : Nat) (s : State) : rd q (updAcq f s) = rd q s := rfl

/-! updAdc changes adc alone. -/

@[simp] theorem updAdc_straps (f : AdcSt → AdcSt) (s : State) : (updAdc f s).straps = s.straps := rfl
@[simp] theorem updAdc_tick (f : AdcSt → AdcSt) (s : State) : (updAdc f s).tick = s.tick := rfl
@[simp] theorem updAdc_pending (f : AdcSt → AdcSt) (s : State) : (updAdc f s).pending = s.pending := rfl
@[simp] theorem updAdc_objs (f : AdcSt → AdcSt) (s : State) : (updAdc f s).objs = s.objs := rfl
@[simp] theorem updAdc_mem (f : AdcSt → AdcSt) (s : State) : (updAdc f s).mem = s.mem := rfl
@[simp] theorem updAdc_free (f : AdcSt → AdcSt) (s : State) : (updAdc f s).free = s.free := rfl
@[simp] theorem updAdc_resp (f : AdcSt → AdcSt) (s : State) : (updAdc f s).resp = s.resp := rfl
@[simp] theorem updAdc_tree (f : AdcSt → AdcSt) (s : State) : (updAdc f s).tree = s.tree := rfl
@[simp] theorem updAdc_cell (f : AdcSt → AdcSt) (s : State) : (updAdc f s).cell = s.cell := rfl
@[simp] theorem updAdc_bal (f : AdcSt → AdcSt) (s : State) : (updAdc f s).bal = s.bal := rfl
@[simp] theorem updAdc_lnk (f : AdcSt → AdcSt) (s : State) : (updAdc f s).lnk = s.lnk := rfl
@[simp] theorem updAdc_tim (f : AdcSt → AdcSt) (s : State) : (updAdc f s).tim = s.tim := rfl
@[simp] theorem updAdc_red (f : AdcSt → AdcSt) (s : State) : (updAdc f s).red = s.red := rfl
@[simp] theorem updAdc_law (f : AdcSt → AdcSt) (s : State) : (updAdc f s).law = s.law := rfl
@[simp] theorem updAdc_adc (f : AdcSt → AdcSt) (s : State) : (updAdc f s).adc = f s.adc := rfl
@[simp] theorem updAdc_acq (f : AdcSt → AdcSt) (s : State) : (updAdc f s).acq = s.acq := rfl
@[simp] theorem updAdc_ket (f : AdcSt → AdcSt) (s : State) : (updAdc f s).ket = s.ket := rfl
@[simp] theorem updAdc_saf (f : AdcSt → AdcSt) (s : State) : (updAdc f s).saf = s.saf := rfl
@[simp] theorem updAdc_tsk (f : AdcSt → AdcSt) (s : State) : (updAdc f s).tsk = s.tsk := rfl
@[simp] theorem updAdc_dma (f : AdcSt → AdcSt) (s : State) : (updAdc f s).dma = s.dma := rfl
@[simp] theorem updAdc_fio (f : AdcSt → AdcSt) (s : State) : (updAdc f s).fio = s.fio := rfl
@[simp] theorem updAdc_rem (f : AdcSt → AdcSt) (s : State) : (updAdc f s).rem = s.rem := rfl
@[simp] theorem updAdc_jop (f : AdcSt → AdcSt) (s : State) : (updAdc f s).jop = s.jop := rfl
@[simp] theorem updAdc_nvm (f : AdcSt → AdcSt) (s : State) : (updAdc f s).nvm = s.nvm := rfl
@[simp] theorem updAdc_sys (f : AdcSt → AdcSt) (s : State) : (updAdc f s).sys = s.sys := rfl
@[simp] theorem updAdc_jtag (f : AdcSt → AdcSt) (s : State) : (updAdc f s).jtag = s.jtag := rfl
@[simp] theorem rd_updAdc (f : AdcSt → AdcSt) (q : Nat) (s : State) : rd q (updAdc f s) = rd q s := rfl

/-! updBal changes bal alone. -/

@[simp] theorem updBal_straps (f : BalSt → BalSt) (s : State) : (updBal f s).straps = s.straps := rfl
@[simp] theorem updBal_tick (f : BalSt → BalSt) (s : State) : (updBal f s).tick = s.tick := rfl
@[simp] theorem updBal_pending (f : BalSt → BalSt) (s : State) : (updBal f s).pending = s.pending := rfl
@[simp] theorem updBal_objs (f : BalSt → BalSt) (s : State) : (updBal f s).objs = s.objs := rfl
@[simp] theorem updBal_mem (f : BalSt → BalSt) (s : State) : (updBal f s).mem = s.mem := rfl
@[simp] theorem updBal_free (f : BalSt → BalSt) (s : State) : (updBal f s).free = s.free := rfl
@[simp] theorem updBal_resp (f : BalSt → BalSt) (s : State) : (updBal f s).resp = s.resp := rfl
@[simp] theorem updBal_tree (f : BalSt → BalSt) (s : State) : (updBal f s).tree = s.tree := rfl
@[simp] theorem updBal_cell (f : BalSt → BalSt) (s : State) : (updBal f s).cell = s.cell := rfl
@[simp] theorem updBal_bal (f : BalSt → BalSt) (s : State) : (updBal f s).bal = f s.bal := rfl
@[simp] theorem updBal_lnk (f : BalSt → BalSt) (s : State) : (updBal f s).lnk = s.lnk := rfl
@[simp] theorem updBal_tim (f : BalSt → BalSt) (s : State) : (updBal f s).tim = s.tim := rfl
@[simp] theorem updBal_red (f : BalSt → BalSt) (s : State) : (updBal f s).red = s.red := rfl
@[simp] theorem updBal_law (f : BalSt → BalSt) (s : State) : (updBal f s).law = s.law := rfl
@[simp] theorem updBal_adc (f : BalSt → BalSt) (s : State) : (updBal f s).adc = s.adc := rfl
@[simp] theorem updBal_acq (f : BalSt → BalSt) (s : State) : (updBal f s).acq = s.acq := rfl
@[simp] theorem updBal_ket (f : BalSt → BalSt) (s : State) : (updBal f s).ket = s.ket := rfl
@[simp] theorem updBal_saf (f : BalSt → BalSt) (s : State) : (updBal f s).saf = s.saf := rfl
@[simp] theorem updBal_tsk (f : BalSt → BalSt) (s : State) : (updBal f s).tsk = s.tsk := rfl
@[simp] theorem updBal_dma (f : BalSt → BalSt) (s : State) : (updBal f s).dma = s.dma := rfl
@[simp] theorem updBal_fio (f : BalSt → BalSt) (s : State) : (updBal f s).fio = s.fio := rfl
@[simp] theorem updBal_rem (f : BalSt → BalSt) (s : State) : (updBal f s).rem = s.rem := rfl
@[simp] theorem updBal_jop (f : BalSt → BalSt) (s : State) : (updBal f s).jop = s.jop := rfl
@[simp] theorem updBal_nvm (f : BalSt → BalSt) (s : State) : (updBal f s).nvm = s.nvm := rfl
@[simp] theorem updBal_sys (f : BalSt → BalSt) (s : State) : (updBal f s).sys = s.sys := rfl
@[simp] theorem updBal_jtag (f : BalSt → BalSt) (s : State) : (updBal f s).jtag = s.jtag := rfl
@[simp] theorem rd_updBal (f : BalSt → BalSt) (q : Nat) (s : State) : rd q (updBal f s) = rd q s := rfl

/-! updCell changes cell alone. -/

@[simp] theorem updCell_straps (f : CellSt → CellSt) (s : State) : (updCell f s).straps = s.straps := rfl
@[simp] theorem updCell_tick (f : CellSt → CellSt) (s : State) : (updCell f s).tick = s.tick := rfl
@[simp] theorem updCell_pending (f : CellSt → CellSt) (s : State) : (updCell f s).pending = s.pending := rfl
@[simp] theorem updCell_objs (f : CellSt → CellSt) (s : State) : (updCell f s).objs = s.objs := rfl
@[simp] theorem updCell_mem (f : CellSt → CellSt) (s : State) : (updCell f s).mem = s.mem := rfl
@[simp] theorem updCell_free (f : CellSt → CellSt) (s : State) : (updCell f s).free = s.free := rfl
@[simp] theorem updCell_resp (f : CellSt → CellSt) (s : State) : (updCell f s).resp = s.resp := rfl
@[simp] theorem updCell_tree (f : CellSt → CellSt) (s : State) : (updCell f s).tree = s.tree := rfl
@[simp] theorem updCell_cell (f : CellSt → CellSt) (s : State) : (updCell f s).cell = f s.cell := rfl
@[simp] theorem updCell_bal (f : CellSt → CellSt) (s : State) : (updCell f s).bal = s.bal := rfl
@[simp] theorem updCell_lnk (f : CellSt → CellSt) (s : State) : (updCell f s).lnk = s.lnk := rfl
@[simp] theorem updCell_tim (f : CellSt → CellSt) (s : State) : (updCell f s).tim = s.tim := rfl
@[simp] theorem updCell_red (f : CellSt → CellSt) (s : State) : (updCell f s).red = s.red := rfl
@[simp] theorem updCell_law (f : CellSt → CellSt) (s : State) : (updCell f s).law = s.law := rfl
@[simp] theorem updCell_adc (f : CellSt → CellSt) (s : State) : (updCell f s).adc = s.adc := rfl
@[simp] theorem updCell_acq (f : CellSt → CellSt) (s : State) : (updCell f s).acq = s.acq := rfl
@[simp] theorem updCell_ket (f : CellSt → CellSt) (s : State) : (updCell f s).ket = s.ket := rfl
@[simp] theorem updCell_saf (f : CellSt → CellSt) (s : State) : (updCell f s).saf = s.saf := rfl
@[simp] theorem updCell_tsk (f : CellSt → CellSt) (s : State) : (updCell f s).tsk = s.tsk := rfl
@[simp] theorem updCell_dma (f : CellSt → CellSt) (s : State) : (updCell f s).dma = s.dma := rfl
@[simp] theorem updCell_fio (f : CellSt → CellSt) (s : State) : (updCell f s).fio = s.fio := rfl
@[simp] theorem updCell_rem (f : CellSt → CellSt) (s : State) : (updCell f s).rem = s.rem := rfl
@[simp] theorem updCell_jop (f : CellSt → CellSt) (s : State) : (updCell f s).jop = s.jop := rfl
@[simp] theorem updCell_nvm (f : CellSt → CellSt) (s : State) : (updCell f s).nvm = s.nvm := rfl
@[simp] theorem updCell_sys (f : CellSt → CellSt) (s : State) : (updCell f s).sys = s.sys := rfl
@[simp] theorem updCell_jtag (f : CellSt → CellSt) (s : State) : (updCell f s).jtag = s.jtag := rfl
@[simp] theorem rd_updCell (f : CellSt → CellSt) (q : Nat) (s : State) : rd q (updCell f s) = rd q s := rfl

/-! updFio changes fio alone. -/

@[simp] theorem updFio_straps (f : FioSt → FioSt) (s : State) : (updFio f s).straps = s.straps := rfl
@[simp] theorem updFio_tick (f : FioSt → FioSt) (s : State) : (updFio f s).tick = s.tick := rfl
@[simp] theorem updFio_pending (f : FioSt → FioSt) (s : State) : (updFio f s).pending = s.pending := rfl
@[simp] theorem updFio_objs (f : FioSt → FioSt) (s : State) : (updFio f s).objs = s.objs := rfl
@[simp] theorem updFio_mem (f : FioSt → FioSt) (s : State) : (updFio f s).mem = s.mem := rfl
@[simp] theorem updFio_free (f : FioSt → FioSt) (s : State) : (updFio f s).free = s.free := rfl
@[simp] theorem updFio_resp (f : FioSt → FioSt) (s : State) : (updFio f s).resp = s.resp := rfl
@[simp] theorem updFio_tree (f : FioSt → FioSt) (s : State) : (updFio f s).tree = s.tree := rfl
@[simp] theorem updFio_cell (f : FioSt → FioSt) (s : State) : (updFio f s).cell = s.cell := rfl
@[simp] theorem updFio_bal (f : FioSt → FioSt) (s : State) : (updFio f s).bal = s.bal := rfl
@[simp] theorem updFio_lnk (f : FioSt → FioSt) (s : State) : (updFio f s).lnk = s.lnk := rfl
@[simp] theorem updFio_tim (f : FioSt → FioSt) (s : State) : (updFio f s).tim = s.tim := rfl
@[simp] theorem updFio_red (f : FioSt → FioSt) (s : State) : (updFio f s).red = s.red := rfl
@[simp] theorem updFio_law (f : FioSt → FioSt) (s : State) : (updFio f s).law = s.law := rfl
@[simp] theorem updFio_adc (f : FioSt → FioSt) (s : State) : (updFio f s).adc = s.adc := rfl
@[simp] theorem updFio_acq (f : FioSt → FioSt) (s : State) : (updFio f s).acq = s.acq := rfl
@[simp] theorem updFio_ket (f : FioSt → FioSt) (s : State) : (updFio f s).ket = s.ket := rfl
@[simp] theorem updFio_saf (f : FioSt → FioSt) (s : State) : (updFio f s).saf = s.saf := rfl
@[simp] theorem updFio_tsk (f : FioSt → FioSt) (s : State) : (updFio f s).tsk = s.tsk := rfl
@[simp] theorem updFio_dma (f : FioSt → FioSt) (s : State) : (updFio f s).dma = s.dma := rfl
@[simp] theorem updFio_fio (f : FioSt → FioSt) (s : State) : (updFio f s).fio = f s.fio := rfl
@[simp] theorem updFio_rem (f : FioSt → FioSt) (s : State) : (updFio f s).rem = s.rem := rfl
@[simp] theorem updFio_jop (f : FioSt → FioSt) (s : State) : (updFio f s).jop = s.jop := rfl
@[simp] theorem updFio_nvm (f : FioSt → FioSt) (s : State) : (updFio f s).nvm = s.nvm := rfl
@[simp] theorem updFio_sys (f : FioSt → FioSt) (s : State) : (updFio f s).sys = s.sys := rfl
@[simp] theorem updFio_jtag (f : FioSt → FioSt) (s : State) : (updFio f s).jtag = s.jtag := rfl
@[simp] theorem rd_updFio (f : FioSt → FioSt) (q : Nat) (s : State) : rd q (updFio f s) = rd q s := rfl

/-! updJop changes jop alone. -/

@[simp] theorem updJop_straps (f : JopSt → JopSt) (s : State) : (updJop f s).straps = s.straps := rfl
@[simp] theorem updJop_tick (f : JopSt → JopSt) (s : State) : (updJop f s).tick = s.tick := rfl
@[simp] theorem updJop_pending (f : JopSt → JopSt) (s : State) : (updJop f s).pending = s.pending := rfl
@[simp] theorem updJop_objs (f : JopSt → JopSt) (s : State) : (updJop f s).objs = s.objs := rfl
@[simp] theorem updJop_mem (f : JopSt → JopSt) (s : State) : (updJop f s).mem = s.mem := rfl
@[simp] theorem updJop_free (f : JopSt → JopSt) (s : State) : (updJop f s).free = s.free := rfl
@[simp] theorem updJop_resp (f : JopSt → JopSt) (s : State) : (updJop f s).resp = s.resp := rfl
@[simp] theorem updJop_tree (f : JopSt → JopSt) (s : State) : (updJop f s).tree = s.tree := rfl
@[simp] theorem updJop_cell (f : JopSt → JopSt) (s : State) : (updJop f s).cell = s.cell := rfl
@[simp] theorem updJop_bal (f : JopSt → JopSt) (s : State) : (updJop f s).bal = s.bal := rfl
@[simp] theorem updJop_lnk (f : JopSt → JopSt) (s : State) : (updJop f s).lnk = s.lnk := rfl
@[simp] theorem updJop_tim (f : JopSt → JopSt) (s : State) : (updJop f s).tim = s.tim := rfl
@[simp] theorem updJop_red (f : JopSt → JopSt) (s : State) : (updJop f s).red = s.red := rfl
@[simp] theorem updJop_law (f : JopSt → JopSt) (s : State) : (updJop f s).law = s.law := rfl
@[simp] theorem updJop_adc (f : JopSt → JopSt) (s : State) : (updJop f s).adc = s.adc := rfl
@[simp] theorem updJop_acq (f : JopSt → JopSt) (s : State) : (updJop f s).acq = s.acq := rfl
@[simp] theorem updJop_ket (f : JopSt → JopSt) (s : State) : (updJop f s).ket = s.ket := rfl
@[simp] theorem updJop_saf (f : JopSt → JopSt) (s : State) : (updJop f s).saf = s.saf := rfl
@[simp] theorem updJop_tsk (f : JopSt → JopSt) (s : State) : (updJop f s).tsk = s.tsk := rfl
@[simp] theorem updJop_dma (f : JopSt → JopSt) (s : State) : (updJop f s).dma = s.dma := rfl
@[simp] theorem updJop_fio (f : JopSt → JopSt) (s : State) : (updJop f s).fio = s.fio := rfl
@[simp] theorem updJop_rem (f : JopSt → JopSt) (s : State) : (updJop f s).rem = s.rem := rfl
@[simp] theorem updJop_jop (f : JopSt → JopSt) (s : State) : (updJop f s).jop = f s.jop := rfl
@[simp] theorem updJop_nvm (f : JopSt → JopSt) (s : State) : (updJop f s).nvm = s.nvm := rfl
@[simp] theorem updJop_sys (f : JopSt → JopSt) (s : State) : (updJop f s).sys = s.sys := rfl
@[simp] theorem updJop_jtag (f : JopSt → JopSt) (s : State) : (updJop f s).jtag = s.jtag := rfl
@[simp] theorem rd_updJop (f : JopSt → JopSt) (q : Nat) (s : State) : rd q (updJop f s) = rd q s := rfl

/-! updLaw changes law alone. -/

@[simp] theorem updLaw_straps (f : LawSt → LawSt) (s : State) : (updLaw f s).straps = s.straps := rfl
@[simp] theorem updLaw_tick (f : LawSt → LawSt) (s : State) : (updLaw f s).tick = s.tick := rfl
@[simp] theorem updLaw_pending (f : LawSt → LawSt) (s : State) : (updLaw f s).pending = s.pending := rfl
@[simp] theorem updLaw_objs (f : LawSt → LawSt) (s : State) : (updLaw f s).objs = s.objs := rfl
@[simp] theorem updLaw_mem (f : LawSt → LawSt) (s : State) : (updLaw f s).mem = s.mem := rfl
@[simp] theorem updLaw_free (f : LawSt → LawSt) (s : State) : (updLaw f s).free = s.free := rfl
@[simp] theorem updLaw_resp (f : LawSt → LawSt) (s : State) : (updLaw f s).resp = s.resp := rfl
@[simp] theorem updLaw_tree (f : LawSt → LawSt) (s : State) : (updLaw f s).tree = s.tree := rfl
@[simp] theorem updLaw_cell (f : LawSt → LawSt) (s : State) : (updLaw f s).cell = s.cell := rfl
@[simp] theorem updLaw_bal (f : LawSt → LawSt) (s : State) : (updLaw f s).bal = s.bal := rfl
@[simp] theorem updLaw_lnk (f : LawSt → LawSt) (s : State) : (updLaw f s).lnk = s.lnk := rfl
@[simp] theorem updLaw_tim (f : LawSt → LawSt) (s : State) : (updLaw f s).tim = s.tim := rfl
@[simp] theorem updLaw_red (f : LawSt → LawSt) (s : State) : (updLaw f s).red = s.red := rfl
@[simp] theorem updLaw_law (f : LawSt → LawSt) (s : State) : (updLaw f s).law = f s.law := rfl
@[simp] theorem updLaw_adc (f : LawSt → LawSt) (s : State) : (updLaw f s).adc = s.adc := rfl
@[simp] theorem updLaw_acq (f : LawSt → LawSt) (s : State) : (updLaw f s).acq = s.acq := rfl
@[simp] theorem updLaw_ket (f : LawSt → LawSt) (s : State) : (updLaw f s).ket = s.ket := rfl
@[simp] theorem updLaw_saf (f : LawSt → LawSt) (s : State) : (updLaw f s).saf = s.saf := rfl
@[simp] theorem updLaw_tsk (f : LawSt → LawSt) (s : State) : (updLaw f s).tsk = s.tsk := rfl
@[simp] theorem updLaw_dma (f : LawSt → LawSt) (s : State) : (updLaw f s).dma = s.dma := rfl
@[simp] theorem updLaw_fio (f : LawSt → LawSt) (s : State) : (updLaw f s).fio = s.fio := rfl
@[simp] theorem updLaw_rem (f : LawSt → LawSt) (s : State) : (updLaw f s).rem = s.rem := rfl
@[simp] theorem updLaw_jop (f : LawSt → LawSt) (s : State) : (updLaw f s).jop = s.jop := rfl
@[simp] theorem updLaw_nvm (f : LawSt → LawSt) (s : State) : (updLaw f s).nvm = s.nvm := rfl
@[simp] theorem updLaw_sys (f : LawSt → LawSt) (s : State) : (updLaw f s).sys = s.sys := rfl
@[simp] theorem updLaw_jtag (f : LawSt → LawSt) (s : State) : (updLaw f s).jtag = s.jtag := rfl
@[simp] theorem rd_updLaw (f : LawSt → LawSt) (q : Nat) (s : State) : rd q (updLaw f s) = rd q s := rfl

/-! updNvm changes nvm alone. -/

@[simp] theorem updNvm_straps (f : NvmSt → NvmSt) (s : State) : (updNvm f s).straps = s.straps := rfl
@[simp] theorem updNvm_tick (f : NvmSt → NvmSt) (s : State) : (updNvm f s).tick = s.tick := rfl
@[simp] theorem updNvm_pending (f : NvmSt → NvmSt) (s : State) : (updNvm f s).pending = s.pending := rfl
@[simp] theorem updNvm_objs (f : NvmSt → NvmSt) (s : State) : (updNvm f s).objs = s.objs := rfl
@[simp] theorem updNvm_mem (f : NvmSt → NvmSt) (s : State) : (updNvm f s).mem = s.mem := rfl
@[simp] theorem updNvm_free (f : NvmSt → NvmSt) (s : State) : (updNvm f s).free = s.free := rfl
@[simp] theorem updNvm_resp (f : NvmSt → NvmSt) (s : State) : (updNvm f s).resp = s.resp := rfl
@[simp] theorem updNvm_tree (f : NvmSt → NvmSt) (s : State) : (updNvm f s).tree = s.tree := rfl
@[simp] theorem updNvm_cell (f : NvmSt → NvmSt) (s : State) : (updNvm f s).cell = s.cell := rfl
@[simp] theorem updNvm_bal (f : NvmSt → NvmSt) (s : State) : (updNvm f s).bal = s.bal := rfl
@[simp] theorem updNvm_lnk (f : NvmSt → NvmSt) (s : State) : (updNvm f s).lnk = s.lnk := rfl
@[simp] theorem updNvm_tim (f : NvmSt → NvmSt) (s : State) : (updNvm f s).tim = s.tim := rfl
@[simp] theorem updNvm_red (f : NvmSt → NvmSt) (s : State) : (updNvm f s).red = s.red := rfl
@[simp] theorem updNvm_law (f : NvmSt → NvmSt) (s : State) : (updNvm f s).law = s.law := rfl
@[simp] theorem updNvm_adc (f : NvmSt → NvmSt) (s : State) : (updNvm f s).adc = s.adc := rfl
@[simp] theorem updNvm_acq (f : NvmSt → NvmSt) (s : State) : (updNvm f s).acq = s.acq := rfl
@[simp] theorem updNvm_ket (f : NvmSt → NvmSt) (s : State) : (updNvm f s).ket = s.ket := rfl
@[simp] theorem updNvm_saf (f : NvmSt → NvmSt) (s : State) : (updNvm f s).saf = s.saf := rfl
@[simp] theorem updNvm_tsk (f : NvmSt → NvmSt) (s : State) : (updNvm f s).tsk = s.tsk := rfl
@[simp] theorem updNvm_dma (f : NvmSt → NvmSt) (s : State) : (updNvm f s).dma = s.dma := rfl
@[simp] theorem updNvm_fio (f : NvmSt → NvmSt) (s : State) : (updNvm f s).fio = s.fio := rfl
@[simp] theorem updNvm_rem (f : NvmSt → NvmSt) (s : State) : (updNvm f s).rem = s.rem := rfl
@[simp] theorem updNvm_jop (f : NvmSt → NvmSt) (s : State) : (updNvm f s).jop = s.jop := rfl
@[simp] theorem updNvm_nvm (f : NvmSt → NvmSt) (s : State) : (updNvm f s).nvm = f s.nvm := rfl
@[simp] theorem updNvm_sys (f : NvmSt → NvmSt) (s : State) : (updNvm f s).sys = s.sys := rfl
@[simp] theorem updNvm_jtag (f : NvmSt → NvmSt) (s : State) : (updNvm f s).jtag = s.jtag := rfl
@[simp] theorem rd_updNvm (f : NvmSt → NvmSt) (q : Nat) (s : State) : rd q (updNvm f s) = rd q s := rfl

/-! updRed changes red alone. -/

@[simp] theorem updRed_straps (f : RedSt → RedSt) (s : State) : (updRed f s).straps = s.straps := rfl
@[simp] theorem updRed_tick (f : RedSt → RedSt) (s : State) : (updRed f s).tick = s.tick := rfl
@[simp] theorem updRed_pending (f : RedSt → RedSt) (s : State) : (updRed f s).pending = s.pending := rfl
@[simp] theorem updRed_objs (f : RedSt → RedSt) (s : State) : (updRed f s).objs = s.objs := rfl
@[simp] theorem updRed_mem (f : RedSt → RedSt) (s : State) : (updRed f s).mem = s.mem := rfl
@[simp] theorem updRed_free (f : RedSt → RedSt) (s : State) : (updRed f s).free = s.free := rfl
@[simp] theorem updRed_resp (f : RedSt → RedSt) (s : State) : (updRed f s).resp = s.resp := rfl
@[simp] theorem updRed_tree (f : RedSt → RedSt) (s : State) : (updRed f s).tree = s.tree := rfl
@[simp] theorem updRed_cell (f : RedSt → RedSt) (s : State) : (updRed f s).cell = s.cell := rfl
@[simp] theorem updRed_bal (f : RedSt → RedSt) (s : State) : (updRed f s).bal = s.bal := rfl
@[simp] theorem updRed_lnk (f : RedSt → RedSt) (s : State) : (updRed f s).lnk = s.lnk := rfl
@[simp] theorem updRed_tim (f : RedSt → RedSt) (s : State) : (updRed f s).tim = s.tim := rfl
@[simp] theorem updRed_red (f : RedSt → RedSt) (s : State) : (updRed f s).red = f s.red := rfl
@[simp] theorem updRed_law (f : RedSt → RedSt) (s : State) : (updRed f s).law = s.law := rfl
@[simp] theorem updRed_adc (f : RedSt → RedSt) (s : State) : (updRed f s).adc = s.adc := rfl
@[simp] theorem updRed_acq (f : RedSt → RedSt) (s : State) : (updRed f s).acq = s.acq := rfl
@[simp] theorem updRed_ket (f : RedSt → RedSt) (s : State) : (updRed f s).ket = s.ket := rfl
@[simp] theorem updRed_saf (f : RedSt → RedSt) (s : State) : (updRed f s).saf = s.saf := rfl
@[simp] theorem updRed_tsk (f : RedSt → RedSt) (s : State) : (updRed f s).tsk = s.tsk := rfl
@[simp] theorem updRed_dma (f : RedSt → RedSt) (s : State) : (updRed f s).dma = s.dma := rfl
@[simp] theorem updRed_fio (f : RedSt → RedSt) (s : State) : (updRed f s).fio = s.fio := rfl
@[simp] theorem updRed_rem (f : RedSt → RedSt) (s : State) : (updRed f s).rem = s.rem := rfl
@[simp] theorem updRed_jop (f : RedSt → RedSt) (s : State) : (updRed f s).jop = s.jop := rfl
@[simp] theorem updRed_nvm (f : RedSt → RedSt) (s : State) : (updRed f s).nvm = s.nvm := rfl
@[simp] theorem updRed_sys (f : RedSt → RedSt) (s : State) : (updRed f s).sys = s.sys := rfl
@[simp] theorem updRed_jtag (f : RedSt → RedSt) (s : State) : (updRed f s).jtag = s.jtag := rfl
@[simp] theorem rd_updRed (f : RedSt → RedSt) (q : Nat) (s : State) : rd q (updRed f s) = rd q s := rfl

/-! updRem changes rem alone. -/

@[simp] theorem updRem_straps (f : RemSt → RemSt) (s : State) : (updRem f s).straps = s.straps := rfl
@[simp] theorem updRem_tick (f : RemSt → RemSt) (s : State) : (updRem f s).tick = s.tick := rfl
@[simp] theorem updRem_pending (f : RemSt → RemSt) (s : State) : (updRem f s).pending = s.pending := rfl
@[simp] theorem updRem_objs (f : RemSt → RemSt) (s : State) : (updRem f s).objs = s.objs := rfl
@[simp] theorem updRem_mem (f : RemSt → RemSt) (s : State) : (updRem f s).mem = s.mem := rfl
@[simp] theorem updRem_free (f : RemSt → RemSt) (s : State) : (updRem f s).free = s.free := rfl
@[simp] theorem updRem_resp (f : RemSt → RemSt) (s : State) : (updRem f s).resp = s.resp := rfl
@[simp] theorem updRem_tree (f : RemSt → RemSt) (s : State) : (updRem f s).tree = s.tree := rfl
@[simp] theorem updRem_cell (f : RemSt → RemSt) (s : State) : (updRem f s).cell = s.cell := rfl
@[simp] theorem updRem_bal (f : RemSt → RemSt) (s : State) : (updRem f s).bal = s.bal := rfl
@[simp] theorem updRem_lnk (f : RemSt → RemSt) (s : State) : (updRem f s).lnk = s.lnk := rfl
@[simp] theorem updRem_tim (f : RemSt → RemSt) (s : State) : (updRem f s).tim = s.tim := rfl
@[simp] theorem updRem_red (f : RemSt → RemSt) (s : State) : (updRem f s).red = s.red := rfl
@[simp] theorem updRem_law (f : RemSt → RemSt) (s : State) : (updRem f s).law = s.law := rfl
@[simp] theorem updRem_adc (f : RemSt → RemSt) (s : State) : (updRem f s).adc = s.adc := rfl
@[simp] theorem updRem_acq (f : RemSt → RemSt) (s : State) : (updRem f s).acq = s.acq := rfl
@[simp] theorem updRem_ket (f : RemSt → RemSt) (s : State) : (updRem f s).ket = s.ket := rfl
@[simp] theorem updRem_saf (f : RemSt → RemSt) (s : State) : (updRem f s).saf = s.saf := rfl
@[simp] theorem updRem_tsk (f : RemSt → RemSt) (s : State) : (updRem f s).tsk = s.tsk := rfl
@[simp] theorem updRem_dma (f : RemSt → RemSt) (s : State) : (updRem f s).dma = s.dma := rfl
@[simp] theorem updRem_fio (f : RemSt → RemSt) (s : State) : (updRem f s).fio = s.fio := rfl
@[simp] theorem updRem_rem (f : RemSt → RemSt) (s : State) : (updRem f s).rem = f s.rem := rfl
@[simp] theorem updRem_jop (f : RemSt → RemSt) (s : State) : (updRem f s).jop = s.jop := rfl
@[simp] theorem updRem_nvm (f : RemSt → RemSt) (s : State) : (updRem f s).nvm = s.nvm := rfl
@[simp] theorem updRem_sys (f : RemSt → RemSt) (s : State) : (updRem f s).sys = s.sys := rfl
@[simp] theorem updRem_jtag (f : RemSt → RemSt) (s : State) : (updRem f s).jtag = s.jtag := rfl
@[simp] theorem rd_updRem (f : RemSt → RemSt) (q : Nat) (s : State) : rd q (updRem f s) = rd q s := rfl

/-! updSys changes sys alone. -/

@[simp] theorem updSys_straps (f : SysSt → SysSt) (s : State) : (updSys f s).straps = s.straps := rfl
@[simp] theorem updSys_tick (f : SysSt → SysSt) (s : State) : (updSys f s).tick = s.tick := rfl
@[simp] theorem updSys_pending (f : SysSt → SysSt) (s : State) : (updSys f s).pending = s.pending := rfl
@[simp] theorem updSys_objs (f : SysSt → SysSt) (s : State) : (updSys f s).objs = s.objs := rfl
@[simp] theorem updSys_mem (f : SysSt → SysSt) (s : State) : (updSys f s).mem = s.mem := rfl
@[simp] theorem updSys_free (f : SysSt → SysSt) (s : State) : (updSys f s).free = s.free := rfl
@[simp] theorem updSys_resp (f : SysSt → SysSt) (s : State) : (updSys f s).resp = s.resp := rfl
@[simp] theorem updSys_tree (f : SysSt → SysSt) (s : State) : (updSys f s).tree = s.tree := rfl
@[simp] theorem updSys_cell (f : SysSt → SysSt) (s : State) : (updSys f s).cell = s.cell := rfl
@[simp] theorem updSys_bal (f : SysSt → SysSt) (s : State) : (updSys f s).bal = s.bal := rfl
@[simp] theorem updSys_lnk (f : SysSt → SysSt) (s : State) : (updSys f s).lnk = s.lnk := rfl
@[simp] theorem updSys_tim (f : SysSt → SysSt) (s : State) : (updSys f s).tim = s.tim := rfl
@[simp] theorem updSys_red (f : SysSt → SysSt) (s : State) : (updSys f s).red = s.red := rfl
@[simp] theorem updSys_law (f : SysSt → SysSt) (s : State) : (updSys f s).law = s.law := rfl
@[simp] theorem updSys_adc (f : SysSt → SysSt) (s : State) : (updSys f s).adc = s.adc := rfl
@[simp] theorem updSys_acq (f : SysSt → SysSt) (s : State) : (updSys f s).acq = s.acq := rfl
@[simp] theorem updSys_ket (f : SysSt → SysSt) (s : State) : (updSys f s).ket = s.ket := rfl
@[simp] theorem updSys_saf (f : SysSt → SysSt) (s : State) : (updSys f s).saf = s.saf := rfl
@[simp] theorem updSys_tsk (f : SysSt → SysSt) (s : State) : (updSys f s).tsk = s.tsk := rfl
@[simp] theorem updSys_dma (f : SysSt → SysSt) (s : State) : (updSys f s).dma = s.dma := rfl
@[simp] theorem updSys_fio (f : SysSt → SysSt) (s : State) : (updSys f s).fio = s.fio := rfl
@[simp] theorem updSys_rem (f : SysSt → SysSt) (s : State) : (updSys f s).rem = s.rem := rfl
@[simp] theorem updSys_jop (f : SysSt → SysSt) (s : State) : (updSys f s).jop = s.jop := rfl
@[simp] theorem updSys_nvm (f : SysSt → SysSt) (s : State) : (updSys f s).nvm = s.nvm := rfl
@[simp] theorem updSys_sys (f : SysSt → SysSt) (s : State) : (updSys f s).sys = f s.sys := rfl
@[simp] theorem updSys_jtag (f : SysSt → SysSt) (s : State) : (updSys f s).jtag = s.jtag := rfl
@[simp] theorem rd_updSys (f : SysSt → SysSt) (q : Nat) (s : State) : rd q (updSys f s) = rd q s := rfl

/-! updTim changes tim alone. -/

@[simp] theorem updTim_straps (f : TimSt → TimSt) (s : State) : (updTim f s).straps = s.straps := rfl
@[simp] theorem updTim_tick (f : TimSt → TimSt) (s : State) : (updTim f s).tick = s.tick := rfl
@[simp] theorem updTim_pending (f : TimSt → TimSt) (s : State) : (updTim f s).pending = s.pending := rfl
@[simp] theorem updTim_objs (f : TimSt → TimSt) (s : State) : (updTim f s).objs = s.objs := rfl
@[simp] theorem updTim_mem (f : TimSt → TimSt) (s : State) : (updTim f s).mem = s.mem := rfl
@[simp] theorem updTim_free (f : TimSt → TimSt) (s : State) : (updTim f s).free = s.free := rfl
@[simp] theorem updTim_resp (f : TimSt → TimSt) (s : State) : (updTim f s).resp = s.resp := rfl
@[simp] theorem updTim_tree (f : TimSt → TimSt) (s : State) : (updTim f s).tree = s.tree := rfl
@[simp] theorem updTim_cell (f : TimSt → TimSt) (s : State) : (updTim f s).cell = s.cell := rfl
@[simp] theorem updTim_bal (f : TimSt → TimSt) (s : State) : (updTim f s).bal = s.bal := rfl
@[simp] theorem updTim_lnk (f : TimSt → TimSt) (s : State) : (updTim f s).lnk = s.lnk := rfl
@[simp] theorem updTim_tim (f : TimSt → TimSt) (s : State) : (updTim f s).tim = f s.tim := rfl
@[simp] theorem updTim_red (f : TimSt → TimSt) (s : State) : (updTim f s).red = s.red := rfl
@[simp] theorem updTim_law (f : TimSt → TimSt) (s : State) : (updTim f s).law = s.law := rfl
@[simp] theorem updTim_adc (f : TimSt → TimSt) (s : State) : (updTim f s).adc = s.adc := rfl
@[simp] theorem updTim_acq (f : TimSt → TimSt) (s : State) : (updTim f s).acq = s.acq := rfl
@[simp] theorem updTim_ket (f : TimSt → TimSt) (s : State) : (updTim f s).ket = s.ket := rfl
@[simp] theorem updTim_saf (f : TimSt → TimSt) (s : State) : (updTim f s).saf = s.saf := rfl
@[simp] theorem updTim_tsk (f : TimSt → TimSt) (s : State) : (updTim f s).tsk = s.tsk := rfl
@[simp] theorem updTim_dma (f : TimSt → TimSt) (s : State) : (updTim f s).dma = s.dma := rfl
@[simp] theorem updTim_fio (f : TimSt → TimSt) (s : State) : (updTim f s).fio = s.fio := rfl
@[simp] theorem updTim_rem (f : TimSt → TimSt) (s : State) : (updTim f s).rem = s.rem := rfl
@[simp] theorem updTim_jop (f : TimSt → TimSt) (s : State) : (updTim f s).jop = s.jop := rfl
@[simp] theorem updTim_nvm (f : TimSt → TimSt) (s : State) : (updTim f s).nvm = s.nvm := rfl
@[simp] theorem updTim_sys (f : TimSt → TimSt) (s : State) : (updTim f s).sys = s.sys := rfl
@[simp] theorem updTim_jtag (f : TimSt → TimSt) (s : State) : (updTim f s).jtag = s.jtag := rfl
@[simp] theorem rd_updTim (f : TimSt → TimSt) (q : Nat) (s : State) : rd q (updTim f s) = rd q s := rfl

/-! updLane changes lnk alone. -/

@[simp] theorem updLane_straps (n : Nat) (f : LaneSt → LaneSt) (s : State) : (updLane n f s).straps = s.straps := rfl
@[simp] theorem updLane_tick (n : Nat) (f : LaneSt → LaneSt) (s : State) : (updLane n f s).tick = s.tick := rfl
@[simp] theorem updLane_pending (n : Nat) (f : LaneSt → LaneSt) (s : State) : (updLane n f s).pending = s.pending := rfl
@[simp] theorem updLane_objs (n : Nat) (f : LaneSt → LaneSt) (s : State) : (updLane n f s).objs = s.objs := rfl
@[simp] theorem updLane_mem (n : Nat) (f : LaneSt → LaneSt) (s : State) : (updLane n f s).mem = s.mem := rfl
@[simp] theorem updLane_free (n : Nat) (f : LaneSt → LaneSt) (s : State) : (updLane n f s).free = s.free := rfl
@[simp] theorem updLane_resp (n : Nat) (f : LaneSt → LaneSt) (s : State) : (updLane n f s).resp = s.resp := rfl
@[simp] theorem updLane_tree (n : Nat) (f : LaneSt → LaneSt) (s : State) : (updLane n f s).tree = s.tree := rfl
@[simp] theorem updLane_cell (n : Nat) (f : LaneSt → LaneSt) (s : State) : (updLane n f s).cell = s.cell := rfl
@[simp] theorem updLane_bal (n : Nat) (f : LaneSt → LaneSt) (s : State) : (updLane n f s).bal = s.bal := rfl
@[simp] theorem updLane_lnk (n : Nat) (f : LaneSt → LaneSt) (s : State) : (updLane n f s).lnk = { s.lnk with lanes := s.lnk.lanes.modify n f } := rfl
@[simp] theorem updLane_tim (n : Nat) (f : LaneSt → LaneSt) (s : State) : (updLane n f s).tim = s.tim := rfl
@[simp] theorem updLane_red (n : Nat) (f : LaneSt → LaneSt) (s : State) : (updLane n f s).red = s.red := rfl
@[simp] theorem updLane_law (n : Nat) (f : LaneSt → LaneSt) (s : State) : (updLane n f s).law = s.law := rfl
@[simp] theorem updLane_adc (n : Nat) (f : LaneSt → LaneSt) (s : State) : (updLane n f s).adc = s.adc := rfl
@[simp] theorem updLane_acq (n : Nat) (f : LaneSt → LaneSt) (s : State) : (updLane n f s).acq = s.acq := rfl
@[simp] theorem updLane_ket (n : Nat) (f : LaneSt → LaneSt) (s : State) : (updLane n f s).ket = s.ket := rfl
@[simp] theorem updLane_saf (n : Nat) (f : LaneSt → LaneSt) (s : State) : (updLane n f s).saf = s.saf := rfl
@[simp] theorem updLane_tsk (n : Nat) (f : LaneSt → LaneSt) (s : State) : (updLane n f s).tsk = s.tsk := rfl
@[simp] theorem updLane_dma (n : Nat) (f : LaneSt → LaneSt) (s : State) : (updLane n f s).dma = s.dma := rfl
@[simp] theorem updLane_fio (n : Nat) (f : LaneSt → LaneSt) (s : State) : (updLane n f s).fio = s.fio := rfl
@[simp] theorem updLane_rem (n : Nat) (f : LaneSt → LaneSt) (s : State) : (updLane n f s).rem = s.rem := rfl
@[simp] theorem updLane_jop (n : Nat) (f : LaneSt → LaneSt) (s : State) : (updLane n f s).jop = s.jop := rfl
@[simp] theorem updLane_nvm (n : Nat) (f : LaneSt → LaneSt) (s : State) : (updLane n f s).nvm = s.nvm := rfl
@[simp] theorem updLane_sys (n : Nat) (f : LaneSt → LaneSt) (s : State) : (updLane n f s).sys = s.sys := rfl
@[simp] theorem updLane_jtag (n : Nat) (f : LaneSt → LaneSt) (s : State) : (updLane n f s).jtag = s.jtag := rfl
@[simp] theorem rd_updLane (n : Nat) (f : LaneSt → LaneSt) (q : Nat) (s : State) : rd q (updLane n f s) = rd q s := rfl

/-! updChan changes dma alone. -/

@[simp] theorem updChan_straps (n : Nat) (f : DmaChan → DmaChan) (s : State) : (updChan n f s).straps = s.straps := rfl
@[simp] theorem updChan_tick (n : Nat) (f : DmaChan → DmaChan) (s : State) : (updChan n f s).tick = s.tick := rfl
@[simp] theorem updChan_pending (n : Nat) (f : DmaChan → DmaChan) (s : State) : (updChan n f s).pending = s.pending := rfl
@[simp] theorem updChan_objs (n : Nat) (f : DmaChan → DmaChan) (s : State) : (updChan n f s).objs = s.objs := rfl
@[simp] theorem updChan_mem (n : Nat) (f : DmaChan → DmaChan) (s : State) : (updChan n f s).mem = s.mem := rfl
@[simp] theorem updChan_free (n : Nat) (f : DmaChan → DmaChan) (s : State) : (updChan n f s).free = s.free := rfl
@[simp] theorem updChan_resp (n : Nat) (f : DmaChan → DmaChan) (s : State) : (updChan n f s).resp = s.resp := rfl
@[simp] theorem updChan_tree (n : Nat) (f : DmaChan → DmaChan) (s : State) : (updChan n f s).tree = s.tree := rfl
@[simp] theorem updChan_cell (n : Nat) (f : DmaChan → DmaChan) (s : State) : (updChan n f s).cell = s.cell := rfl
@[simp] theorem updChan_bal (n : Nat) (f : DmaChan → DmaChan) (s : State) : (updChan n f s).bal = s.bal := rfl
@[simp] theorem updChan_lnk (n : Nat) (f : DmaChan → DmaChan) (s : State) : (updChan n f s).lnk = s.lnk := rfl
@[simp] theorem updChan_tim (n : Nat) (f : DmaChan → DmaChan) (s : State) : (updChan n f s).tim = s.tim := rfl
@[simp] theorem updChan_red (n : Nat) (f : DmaChan → DmaChan) (s : State) : (updChan n f s).red = s.red := rfl
@[simp] theorem updChan_law (n : Nat) (f : DmaChan → DmaChan) (s : State) : (updChan n f s).law = s.law := rfl
@[simp] theorem updChan_adc (n : Nat) (f : DmaChan → DmaChan) (s : State) : (updChan n f s).adc = s.adc := rfl
@[simp] theorem updChan_acq (n : Nat) (f : DmaChan → DmaChan) (s : State) : (updChan n f s).acq = s.acq := rfl
@[simp] theorem updChan_ket (n : Nat) (f : DmaChan → DmaChan) (s : State) : (updChan n f s).ket = s.ket := rfl
@[simp] theorem updChan_saf (n : Nat) (f : DmaChan → DmaChan) (s : State) : (updChan n f s).saf = s.saf := rfl
@[simp] theorem updChan_tsk (n : Nat) (f : DmaChan → DmaChan) (s : State) : (updChan n f s).tsk = s.tsk := rfl
@[simp] theorem updChan_dma (n : Nat) (f : DmaChan → DmaChan) (s : State) : (updChan n f s).dma = { s.dma with chans := s.dma.chans.modify n f } := rfl
@[simp] theorem updChan_fio (n : Nat) (f : DmaChan → DmaChan) (s : State) : (updChan n f s).fio = s.fio := rfl
@[simp] theorem updChan_rem (n : Nat) (f : DmaChan → DmaChan) (s : State) : (updChan n f s).rem = s.rem := rfl
@[simp] theorem updChan_jop (n : Nat) (f : DmaChan → DmaChan) (s : State) : (updChan n f s).jop = s.jop := rfl
@[simp] theorem updChan_nvm (n : Nat) (f : DmaChan → DmaChan) (s : State) : (updChan n f s).nvm = s.nvm := rfl
@[simp] theorem updChan_sys (n : Nat) (f : DmaChan → DmaChan) (s : State) : (updChan n f s).sys = s.sys := rfl
@[simp] theorem updChan_jtag (n : Nat) (f : DmaChan → DmaChan) (s : State) : (updChan n f s).jtag = s.jtag := rfl
@[simp] theorem rd_updChan (n : Nat) (f : DmaChan → DmaChan) (q : Nat) (s : State) : rd q (updChan n f s) = rd q s := rfl

/-! wr changes objs alone. -/

@[simp] theorem wr_straps (k v : Nat) (s : State) : (wr k v s).straps = s.straps := rfl
@[simp] theorem wr_tick (k v : Nat) (s : State) : (wr k v s).tick = s.tick := rfl
@[simp] theorem wr_pending (k v : Nat) (s : State) : (wr k v s).pending = s.pending := rfl
@[simp] theorem wr_objs (k v : Nat) (s : State) : (wr k v s).objs = putKey (objDefault s.straps k) k v s.objs := rfl
@[simp] theorem wr_mem (k v : Nat) (s : State) : (wr k v s).mem = s.mem := rfl
@[simp] theorem wr_free (k v : Nat) (s : State) : (wr k v s).free = s.free := rfl
@[simp] theorem wr_resp (k v : Nat) (s : State) : (wr k v s).resp = s.resp := rfl
@[simp] theorem wr_tree (k v : Nat) (s : State) : (wr k v s).tree = s.tree := rfl
@[simp] theorem wr_cell (k v : Nat) (s : State) : (wr k v s).cell = s.cell := rfl
@[simp] theorem wr_bal (k v : Nat) (s : State) : (wr k v s).bal = s.bal := rfl
@[simp] theorem wr_lnk (k v : Nat) (s : State) : (wr k v s).lnk = s.lnk := rfl
@[simp] theorem wr_tim (k v : Nat) (s : State) : (wr k v s).tim = s.tim := rfl
@[simp] theorem wr_red (k v : Nat) (s : State) : (wr k v s).red = s.red := rfl
@[simp] theorem wr_law (k v : Nat) (s : State) : (wr k v s).law = s.law := rfl
@[simp] theorem wr_adc (k v : Nat) (s : State) : (wr k v s).adc = s.adc := rfl
@[simp] theorem wr_acq (k v : Nat) (s : State) : (wr k v s).acq = s.acq := rfl
@[simp] theorem wr_ket (k v : Nat) (s : State) : (wr k v s).ket = s.ket := rfl
@[simp] theorem wr_saf (k v : Nat) (s : State) : (wr k v s).saf = s.saf := rfl
@[simp] theorem wr_tsk (k v : Nat) (s : State) : (wr k v s).tsk = s.tsk := rfl
@[simp] theorem wr_dma (k v : Nat) (s : State) : (wr k v s).dma = s.dma := rfl
@[simp] theorem wr_fio (k v : Nat) (s : State) : (wr k v s).fio = s.fio := rfl
@[simp] theorem wr_rem (k v : Nat) (s : State) : (wr k v s).rem = s.rem := rfl
@[simp] theorem wr_jop (k v : Nat) (s : State) : (wr k v s).jop = s.jop := rfl
@[simp] theorem wr_nvm (k v : Nat) (s : State) : (wr k v s).nvm = s.nvm := rfl
@[simp] theorem wr_sys (k v : Nat) (s : State) : (wr k v s).sys = s.sys := rfl
@[simp] theorem wr_jtag (k v : Nat) (s : State) : (wr k v s).jtag = s.jtag := rfl

/-! answer changes resp alone. -/

@[simp] theorem answer_straps (c : Nat) (d : List Nat) (s : State) : (answer c d s).straps = s.straps := rfl
@[simp] theorem answer_tick (c : Nat) (d : List Nat) (s : State) : (answer c d s).tick = s.tick := rfl
@[simp] theorem answer_pending (c : Nat) (d : List Nat) (s : State) : (answer c d s).pending = s.pending := rfl
@[simp] theorem answer_objs (c : Nat) (d : List Nat) (s : State) : (answer c d s).objs = s.objs := rfl
@[simp] theorem answer_mem (c : Nat) (d : List Nat) (s : State) : (answer c d s).mem = s.mem := rfl
@[simp] theorem answer_free (c : Nat) (d : List Nat) (s : State) : (answer c d s).free = s.free := rfl
@[simp] theorem answer_resp (c : Nat) (d : List Nat) (s : State) : (answer c d s).resp = c :: d := rfl
@[simp] theorem answer_tree (c : Nat) (d : List Nat) (s : State) : (answer c d s).tree = s.tree := rfl
@[simp] theorem answer_cell (c : Nat) (d : List Nat) (s : State) : (answer c d s).cell = s.cell := rfl
@[simp] theorem answer_bal (c : Nat) (d : List Nat) (s : State) : (answer c d s).bal = s.bal := rfl
@[simp] theorem answer_lnk (c : Nat) (d : List Nat) (s : State) : (answer c d s).lnk = s.lnk := rfl
@[simp] theorem answer_tim (c : Nat) (d : List Nat) (s : State) : (answer c d s).tim = s.tim := rfl
@[simp] theorem answer_red (c : Nat) (d : List Nat) (s : State) : (answer c d s).red = s.red := rfl
@[simp] theorem answer_law (c : Nat) (d : List Nat) (s : State) : (answer c d s).law = s.law := rfl
@[simp] theorem answer_adc (c : Nat) (d : List Nat) (s : State) : (answer c d s).adc = s.adc := rfl
@[simp] theorem answer_acq (c : Nat) (d : List Nat) (s : State) : (answer c d s).acq = s.acq := rfl
@[simp] theorem answer_ket (c : Nat) (d : List Nat) (s : State) : (answer c d s).ket = s.ket := rfl
@[simp] theorem answer_saf (c : Nat) (d : List Nat) (s : State) : (answer c d s).saf = s.saf := rfl
@[simp] theorem answer_tsk (c : Nat) (d : List Nat) (s : State) : (answer c d s).tsk = s.tsk := rfl
@[simp] theorem answer_dma (c : Nat) (d : List Nat) (s : State) : (answer c d s).dma = s.dma := rfl
@[simp] theorem answer_fio (c : Nat) (d : List Nat) (s : State) : (answer c d s).fio = s.fio := rfl
@[simp] theorem answer_rem (c : Nat) (d : List Nat) (s : State) : (answer c d s).rem = s.rem := rfl
@[simp] theorem answer_jop (c : Nat) (d : List Nat) (s : State) : (answer c d s).jop = s.jop := rfl
@[simp] theorem answer_nvm (c : Nat) (d : List Nat) (s : State) : (answer c d s).nvm = s.nvm := rfl
@[simp] theorem answer_sys (c : Nat) (d : List Nat) (s : State) : (answer c d s).sys = s.sys := rfl
@[simp] theorem answer_jtag (c : Nat) (d : List Nat) (s : State) : (answer c d s).jtag = s.jtag := rfl
@[simp] theorem rd_answer (c : Nat) (d : List Nat) (q : Nat) (s : State) : rd q (answer c d s) = rd q s := rfl

/-! stByte changes mem alone. -/

@[simp] theorem stByte_straps (a v : Nat) (s : State) : (stByte a v s).straps = s.straps := rfl
@[simp] theorem stByte_tick (a v : Nat) (s : State) : (stByte a v s).tick = s.tick := rfl
@[simp] theorem stByte_pending (a v : Nat) (s : State) : (stByte a v s).pending = s.pending := rfl
@[simp] theorem stByte_objs (a v : Nat) (s : State) : (stByte a v s).objs = s.objs := rfl
@[simp] theorem stByte_mem (a v : Nat) (s : State) : (stByte a v s).mem = putKey (0 : Byte) a (BitVec.ofNat 8 v) s.mem := rfl
@[simp] theorem stByte_free (a v : Nat) (s : State) : (stByte a v s).free = s.free := rfl
@[simp] theorem stByte_resp (a v : Nat) (s : State) : (stByte a v s).resp = s.resp := rfl
@[simp] theorem stByte_tree (a v : Nat) (s : State) : (stByte a v s).tree = s.tree := rfl
@[simp] theorem stByte_cell (a v : Nat) (s : State) : (stByte a v s).cell = s.cell := rfl
@[simp] theorem stByte_bal (a v : Nat) (s : State) : (stByte a v s).bal = s.bal := rfl
@[simp] theorem stByte_lnk (a v : Nat) (s : State) : (stByte a v s).lnk = s.lnk := rfl
@[simp] theorem stByte_tim (a v : Nat) (s : State) : (stByte a v s).tim = s.tim := rfl
@[simp] theorem stByte_red (a v : Nat) (s : State) : (stByte a v s).red = s.red := rfl
@[simp] theorem stByte_law (a v : Nat) (s : State) : (stByte a v s).law = s.law := rfl
@[simp] theorem stByte_adc (a v : Nat) (s : State) : (stByte a v s).adc = s.adc := rfl
@[simp] theorem stByte_acq (a v : Nat) (s : State) : (stByte a v s).acq = s.acq := rfl
@[simp] theorem stByte_ket (a v : Nat) (s : State) : (stByte a v s).ket = s.ket := rfl
@[simp] theorem stByte_saf (a v : Nat) (s : State) : (stByte a v s).saf = s.saf := rfl
@[simp] theorem stByte_tsk (a v : Nat) (s : State) : (stByte a v s).tsk = s.tsk := rfl
@[simp] theorem stByte_dma (a v : Nat) (s : State) : (stByte a v s).dma = s.dma := rfl
@[simp] theorem stByte_fio (a v : Nat) (s : State) : (stByte a v s).fio = s.fio := rfl
@[simp] theorem stByte_rem (a v : Nat) (s : State) : (stByte a v s).rem = s.rem := rfl
@[simp] theorem stByte_jop (a v : Nat) (s : State) : (stByte a v s).jop = s.jop := rfl
@[simp] theorem stByte_nvm (a v : Nat) (s : State) : (stByte a v s).nvm = s.nvm := rfl
@[simp] theorem stByte_sys (a v : Nat) (s : State) : (stByte a v s).sys = s.sys := rfl
@[simp] theorem stByte_jtag (a v : Nat) (s : State) : (stByte a v s).jtag = s.jtag := rfl
@[simp] theorem rd_stByte (a v : Nat) (q : Nat) (s : State) : rd q (stByte a v s) = rd q s := rfl

/-! advTo changes tick alone. -/

@[simp] theorem advTo_straps (c : Nat) (s : State) : (advTo c s).straps = s.straps := rfl
@[simp] theorem advTo_tick (c : Nat) (s : State) : (advTo c s).tick = max s.tick c := rfl
@[simp] theorem advTo_pending (c : Nat) (s : State) : (advTo c s).pending = s.pending := rfl
@[simp] theorem advTo_objs (c : Nat) (s : State) : (advTo c s).objs = s.objs := rfl
@[simp] theorem advTo_mem (c : Nat) (s : State) : (advTo c s).mem = s.mem := rfl
@[simp] theorem advTo_free (c : Nat) (s : State) : (advTo c s).free = s.free := rfl
@[simp] theorem advTo_resp (c : Nat) (s : State) : (advTo c s).resp = s.resp := rfl
@[simp] theorem advTo_tree (c : Nat) (s : State) : (advTo c s).tree = s.tree := rfl
@[simp] theorem advTo_cell (c : Nat) (s : State) : (advTo c s).cell = s.cell := rfl
@[simp] theorem advTo_bal (c : Nat) (s : State) : (advTo c s).bal = s.bal := rfl
@[simp] theorem advTo_lnk (c : Nat) (s : State) : (advTo c s).lnk = s.lnk := rfl
@[simp] theorem advTo_tim (c : Nat) (s : State) : (advTo c s).tim = s.tim := rfl
@[simp] theorem advTo_red (c : Nat) (s : State) : (advTo c s).red = s.red := rfl
@[simp] theorem advTo_law (c : Nat) (s : State) : (advTo c s).law = s.law := rfl
@[simp] theorem advTo_adc (c : Nat) (s : State) : (advTo c s).adc = s.adc := rfl
@[simp] theorem advTo_acq (c : Nat) (s : State) : (advTo c s).acq = s.acq := rfl
@[simp] theorem advTo_ket (c : Nat) (s : State) : (advTo c s).ket = s.ket := rfl
@[simp] theorem advTo_saf (c : Nat) (s : State) : (advTo c s).saf = s.saf := rfl
@[simp] theorem advTo_tsk (c : Nat) (s : State) : (advTo c s).tsk = s.tsk := rfl
@[simp] theorem advTo_dma (c : Nat) (s : State) : (advTo c s).dma = s.dma := rfl
@[simp] theorem advTo_fio (c : Nat) (s : State) : (advTo c s).fio = s.fio := rfl
@[simp] theorem advTo_rem (c : Nat) (s : State) : (advTo c s).rem = s.rem := rfl
@[simp] theorem advTo_jop (c : Nat) (s : State) : (advTo c s).jop = s.jop := rfl
@[simp] theorem advTo_nvm (c : Nat) (s : State) : (advTo c s).nvm = s.nvm := rfl
@[simp] theorem advTo_sys (c : Nat) (s : State) : (advTo c s).sys = s.sys := rfl
@[simp] theorem advTo_jtag (c : Nat) (s : State) : (advTo c s).jtag = s.jtag := rfl
@[simp] theorem rd_advTo (c : Nat) (q : Nat) (s : State) : rd q (advTo c s) = rd q s := rfl

/-! takeFree advances the counter of free values alone. -/

@[simp] theorem takeFree_straps (w : Nat) (s : State) : (takeFree w s).2.straps = s.straps := rfl
@[simp] theorem takeFree_tick (w : Nat) (s : State) : (takeFree w s).2.tick = s.tick := rfl
@[simp] theorem takeFree_pending (w : Nat) (s : State) : (takeFree w s).2.pending = s.pending := rfl
@[simp] theorem takeFree_objs (w : Nat) (s : State) : (takeFree w s).2.objs = s.objs := rfl
@[simp] theorem takeFree_mem (w : Nat) (s : State) : (takeFree w s).2.mem = s.mem := rfl
@[simp] theorem takeFree_free (w : Nat) (s : State) : (takeFree w s).2.free = s.free + 1 := rfl
@[simp] theorem takeFree_resp (w : Nat) (s : State) : (takeFree w s).2.resp = s.resp := rfl
@[simp] theorem takeFree_tree (w : Nat) (s : State) : (takeFree w s).2.tree = s.tree := rfl
@[simp] theorem takeFree_cell (w : Nat) (s : State) : (takeFree w s).2.cell = s.cell := rfl
@[simp] theorem takeFree_bal (w : Nat) (s : State) : (takeFree w s).2.bal = s.bal := rfl
@[simp] theorem takeFree_lnk (w : Nat) (s : State) : (takeFree w s).2.lnk = s.lnk := rfl
@[simp] theorem takeFree_tim (w : Nat) (s : State) : (takeFree w s).2.tim = s.tim := rfl
@[simp] theorem takeFree_red (w : Nat) (s : State) : (takeFree w s).2.red = s.red := rfl
@[simp] theorem takeFree_law (w : Nat) (s : State) : (takeFree w s).2.law = s.law := rfl
@[simp] theorem takeFree_adc (w : Nat) (s : State) : (takeFree w s).2.adc = s.adc := rfl
@[simp] theorem takeFree_acq (w : Nat) (s : State) : (takeFree w s).2.acq = s.acq := rfl
@[simp] theorem takeFree_ket (w : Nat) (s : State) : (takeFree w s).2.ket = s.ket := rfl
@[simp] theorem takeFree_saf (w : Nat) (s : State) : (takeFree w s).2.saf = s.saf := rfl
@[simp] theorem takeFree_tsk (w : Nat) (s : State) : (takeFree w s).2.tsk = s.tsk := rfl
@[simp] theorem takeFree_dma (w : Nat) (s : State) : (takeFree w s).2.dma = s.dma := rfl
@[simp] theorem takeFree_fio (w : Nat) (s : State) : (takeFree w s).2.fio = s.fio := rfl
@[simp] theorem takeFree_rem (w : Nat) (s : State) : (takeFree w s).2.rem = s.rem := rfl
@[simp] theorem takeFree_jop (w : Nat) (s : State) : (takeFree w s).2.jop = s.jop := rfl
@[simp] theorem takeFree_nvm (w : Nat) (s : State) : (takeFree w s).2.nvm = s.nvm := rfl
@[simp] theorem takeFree_sys (w : Nat) (s : State) : (takeFree w s).2.sys = s.sys := rfl
@[simp] theorem takeFree_jtag (w : Nat) (s : State) : (takeFree w s).2.jtag = s.jtag := rfl
@[simp] theorem rd_takeFree (w q : Nat) (s : State) : rd q (takeFree w s).2 = rd q s := rfl

/-! advVt changes tick and tim alone. -/

@[simp] theorem advVt_straps (n : Nat) (s : State) : (advVt n s).straps = s.straps := rfl
@[simp] theorem advVt_pending (n : Nat) (s : State) : (advVt n s).pending = s.pending := rfl
@[simp] theorem advVt_objs (n : Nat) (s : State) : (advVt n s).objs = s.objs := rfl
@[simp] theorem advVt_mem (n : Nat) (s : State) : (advVt n s).mem = s.mem := rfl
@[simp] theorem advVt_free (n : Nat) (s : State) : (advVt n s).free = s.free := rfl
@[simp] theorem advVt_resp (n : Nat) (s : State) : (advVt n s).resp = s.resp := rfl
@[simp] theorem advVt_tree (n : Nat) (s : State) : (advVt n s).tree = s.tree := rfl
@[simp] theorem advVt_cell (n : Nat) (s : State) : (advVt n s).cell = s.cell := rfl
@[simp] theorem advVt_bal (n : Nat) (s : State) : (advVt n s).bal = s.bal := rfl
@[simp] theorem advVt_lnk (n : Nat) (s : State) : (advVt n s).lnk = s.lnk := rfl
@[simp] theorem advVt_red (n : Nat) (s : State) : (advVt n s).red = s.red := rfl
@[simp] theorem advVt_law (n : Nat) (s : State) : (advVt n s).law = s.law := rfl
@[simp] theorem advVt_adc (n : Nat) (s : State) : (advVt n s).adc = s.adc := rfl
@[simp] theorem advVt_acq (n : Nat) (s : State) : (advVt n s).acq = s.acq := rfl
@[simp] theorem advVt_ket (n : Nat) (s : State) : (advVt n s).ket = s.ket := rfl
@[simp] theorem advVt_saf (n : Nat) (s : State) : (advVt n s).saf = s.saf := rfl
@[simp] theorem advVt_tsk (n : Nat) (s : State) : (advVt n s).tsk = s.tsk := rfl
@[simp] theorem advVt_dma (n : Nat) (s : State) : (advVt n s).dma = s.dma := rfl
@[simp] theorem advVt_fio (n : Nat) (s : State) : (advVt n s).fio = s.fio := rfl
@[simp] theorem advVt_rem (n : Nat) (s : State) : (advVt n s).rem = s.rem := rfl
@[simp] theorem advVt_jop (n : Nat) (s : State) : (advVt n s).jop = s.jop := rfl
@[simp] theorem advVt_nvm (n : Nat) (s : State) : (advVt n s).nvm = s.nvm := rfl
@[simp] theorem advVt_sys (n : Nat) (s : State) : (advVt n s).sys = s.sys := rfl
@[simp] theorem advVt_jtag (n : Nat) (s : State) : (advVt n s).jtag = s.jtag := rfl
@[simp] theorem rd_advVt (n q : Nat) (s : State) : rd q (advVt n s) = rd q s := rfl

end Sys2Proof.Machine
end

