-- ==== Sys2Proof/Laws/Memory.lean ====
section
/-! SUPPORT. The canonical form of the objects and of the cores' memory, which every operation over them keeps, and reading after writing. -/
namespace Sys2Proof.Machine

/-- Rising keys, as a bound on the head and the rest. -/
@[simp] theorem rising_cons (e : Nat × α) (t : List (Nat × α)) : rising (e :: t) = true ↔ (∀ x ∈ t, e.1 < x.1) ∧ rising t = true := by
  simp [rising]

/-- Dropping entries keeps keys rising. -/
theorem rising_filter (p : Nat × α → Bool) {l : List (Nat × α)} (h : rising l = true) : rising (l.filter p) = true := by
  induction l with
  | nil => rfl
  | cons e t ih =>
    rw [rising_cons] at h
    by_cases hp : p e = true
    · rw [List.filter_cons_of_pos hp, rising_cons]
      exact ⟨fun x hx => h.1 x (List.mem_filter.mp hx).1, ih h.2⟩
    · rw [List.filter_cons_of_neg hp]
      exact ih h.2

/-- Dropping a key keeps keys rising. -/
theorem rising_eraseKey (k : Nat) {l : List (Nat × α)} (h : rising l = true) : rising (eraseKey k l) = true := rising_filter _ h

/-- A dropped key is gone. -/
theorem eraseKey_ne {k : Nat} {l : List (Nat × α)} {e : Nat × α} (h : e ∈ eraseKey k l) : e.1 ≠ k := by
  simp only [eraseKey, List.mem_filter, bne_iff_ne] at h
  exact h.2

/-- What insKey holds. -/
theorem mem_insKey {k : Nat} {v : α} {l : List (Nat × α)} {e : Nat × α} : e ∈ insKey k v l ↔ e = (k, v) ∨ e ∈ l := by
  induction l with
  | nil => simp [insKey]
  | cons x t ih =>
    simp only [insKey]
    split
    · simp
    · simp only [List.mem_cons, ih]
      exact or_left_comm

/-- Inserting a key that the list lacks keeps keys rising. -/
theorem rising_insKey (k : Nat) (v : α) {l : List (Nat × α)} (h : rising l = true) (hk : ∀ e ∈ l, e.1 ≠ k) : rising (insKey k v l) = true := by
  induction l with
  | nil => simp [insKey, rising]
  | cons x t ih =>
    rw [rising_cons] at h
    simp only [insKey]
    split
    · rename_i hlt
      rw [rising_cons, rising_cons]
      refine ⟨?_, h⟩
      intro y hy
      rcases List.mem_cons.mp hy with rfl | hy
      · exact hlt
      · exact Nat.lt_trans hlt (h.1 y hy)
    · rename_i hlt
      rw [rising_cons]
      refine ⟨?_, ih h.2 fun e he => hk e (List.mem_cons_of_mem _ he)⟩
      intro y hy
      rcases mem_insKey.mp hy with rfl | hy
      · have := hk x (List.mem_cons_self ..)
        omega
      · exact h.1 y hy

/-- A write keeps keys rising. -/
theorem rising_putKey [DecidableEq α] (d : α) (k : Nat) (v : α) {l : List (Nat × α)} (h : rising l = true) : rising (putKey d k v l) = true := by
  unfold putKey
  split
  · exact rising_eraseKey k h
  · exact rising_insKey k v (rising_eraseKey k h) fun e he => eraseKey_ne he

/-- What a write leaves in the list: old entries of other keys, and the new one where it is not the default. -/
theorem mem_putKey [DecidableEq α] {d : α} {k : Nat} {v : α} {l : List (Nat × α)} {e : Nat × α} (h : e ∈ putKey d k v l) :
    (e = (k, v) ∧ v ≠ d) ∨ (e ∈ l ∧ e.1 ≠ k) := by
  unfold putKey at h
  split at h
  · exact .inr ⟨(List.mem_filter.mp h).1, eraseKey_ne h⟩
  · rename_i hd
    rcases mem_insKey.mp h with rfl | h
    · exact .inl ⟨rfl, hd⟩
    · exact .inr ⟨(List.mem_filter.mp h).1, eraseKey_ne h⟩

/-- Looking a key up passes over another key's insertion. -/
theorem find_insKey_ne {k q : Nat} (hq : q ≠ k) (v : α) (l : List (Nat × α)) :
    (insKey k v l).find? (fun e => e.1 == q) = l.find? fun e => e.1 == q := by
  induction l with
  | nil => simp [insKey, Ne.symm hq]
  | cons x t ih =>
    simp only [insKey]
    split
    · rw [List.find?_cons_of_neg (by simpa using Ne.symm hq)]
    · by_cases hx : x.1 = q
      · rw [List.find?_cons_of_pos (by simp [hx]), List.find?_cons_of_pos (by simp [hx])]
      · rw [List.find?_cons_of_neg (by simp [hx]), List.find?_cons_of_neg (by simp [hx]), ih]

/-- Looking up a key just inserted in a list that lacked it. -/
theorem find_insKey_eq (k : Nat) (v : α) {l : List (Nat × α)} (h : ∀ e ∈ l, e.1 ≠ k) :
    (insKey k v l).find? (fun e => e.1 == k) = some (k, v) := by
  induction l with
  | nil => simp [insKey]
  | cons x t ih =>
    simp only [insKey]
    split
    · rw [List.find?_cons_of_pos (by simp)]
    · rw [List.find?_cons_of_neg (by simpa using h x (List.mem_cons_self ..)), ih fun e he => h e (List.mem_cons_of_mem _ he)]

/-- Looking up another key passes over a dropped one. -/
theorem find_eraseKey_ne {k q : Nat} (hq : q ≠ k) (l : List (Nat × α)) : (eraseKey k l).find? (fun e => e.1 == q) = l.find? fun e => e.1 == q := by
  unfold eraseKey
  rw [List.find?_filter]
  congr 1
  funext e
  by_cases he : e.1 = q
  · simp [he, hq]
  · simp [he]

/-- Reading what was written. -/
theorem getKey_putKey_eq [DecidableEq α] (d : α) (k : Nat) (v : α) (l : List (Nat × α)) : getKey d k (putKey d k v l) = v := by
  unfold getKey putKey
  split
  · rename_i hv
    have : (eraseKey k l).find? (fun e => e.1 == k) = none := by
      rw [List.find?_eq_none]
      intro e he
      simpa using eraseKey_ne he
    simp [this, hv]
  · rw [find_insKey_eq k v fun e he => eraseKey_ne he]
    rfl

/-- A write leaves every other key alone. -/
theorem getKey_putKey_ne [DecidableEq α] (d d' : α) {k q : Nat} (hq : q ≠ k) (v : α) (l : List (Nat × α)) :
    getKey d' q (putKey d k v l) = getKey d' q l := by
  unfold getKey putKey
  split
  · rw [find_eraseKey_ne hq]
  · rw [find_insKey_ne hq, find_eraseKey_ne hq]

/-- An object reads as last written. -/
@[simp] theorem rd_wr_eq (k v : Nat) (s : State) : rd k (wr k v s) = v := getKey_putKey_eq _ _ _ _

/-- A write of one object leaves the others. -/
theorem rd_wr_ne {k q : Nat} (h : q ≠ k) (v : Nat) (s : State) : rd q (wr k v s) = rd q s := getKey_putKey_ne _ _ h _ _

/-- Reading after writing in one equation. -/
theorem rd_wr (k q v : Nat) (s : State) : rd q (wr k v s) = if q = k then v else rd q s := by
  split
  · subst_vars
    simp
  · exact rd_wr_ne ‹_› v s

/-- Memory in canonical form stays so over a write of one byte. -/
theorem Memory_wf_putKey {m : List Host.Cell} (h : Memory.wf m = true) (a : Nat) (v : Byte) : Memory.wf (putKey (0 : Byte) a v m) = true := by
  simp only [Memory.wf, Bool.and_eq_true, List.all_eq_true, bne_iff_ne] at h ⊢
  refine ⟨rising_putKey _ _ _ h.1, fun e he => ?_⟩
  rcases mem_putKey he with ⟨rfl, hv⟩ | ⟨he, -⟩
  · exact hv
  · exact h.2 e he

/-- Dropping a range of memory keeps the form. -/
theorem Memory_wf_filter {m : List Host.Cell} (h : Memory.wf m = true) (p : Host.Cell → Bool) : Memory.wf (m.filter p) = true := by
  simp only [Memory.wf, Bool.and_eq_true, List.all_eq_true] at h ⊢
  exact ⟨rising_filter p h.1, fun e he => h.2 e (List.mem_filter.mp he).1⟩

/-- Dropping objects keeps the form. -/
theorem objsWf_filter {s : State} (h : s.objsWf = true) (p : Nat × Nat → Bool) : State.objsWf { s with objs := s.objs.filter p } = true := by
  simp only [State.objsWf, Bool.and_eq_true, List.all_eq_true] at h ⊢
  exact ⟨rising_filter p h.1, fun e he => h.2 e (List.mem_filter.mp he).1⟩

/-- A store of one byte keeps the form (stByte). -/
theorem wf_stByte {s : State} (h : s.wf = true) (a v : Nat) : (stByte a v s).wf = true := by
  simp only [State.wf, Bool.and_eq_true] at h ⊢
  exact ⟨Memory_wf_putKey h.1 a _, h.2⟩

/-- A store of a string of bytes keeps the form (stBytes). -/
theorem wf_stBytes {s : State} (h : s.wf = true) (a : Nat) (l : List Nat) : (stBytes a l s).wf = true := by
  induction l generalizing a s with
  | nil => exact h
  | cons b t ih => exact ih (wf_stByte h a b) (a + 1)

/-- A write of an object keeps the form (wr). -/
theorem wf_wr {s : State} (h : s.wf = true) (k v : Nat) : (wr k v s).wf = true := by
  simp only [State.wf, State.objsWf, Bool.and_eq_true, List.all_eq_true, bne_iff_ne] at h ⊢
  refine ⟨h.1, rising_putKey _ _ _ h.2.1, fun e he => ?_⟩
  rcases mem_putKey he with ⟨rfl, hv⟩ | ⟨he, -⟩
  · exact hv
  · exact h.2.2 e he

/-- A byte reads as last stored, in the low eight bits. -/
theorem getKey_stByte_eq (a v : Nat) (s : State) : getKey (0 : Byte) a (stByte a v s).mem = BitVec.ofNat 8 v := getKey_putKey_eq _ _ _ _

/-- A store leaves every other byte. -/
theorem getKey_stByte_ne {a b : Nat} (h : b ≠ a) (v : Nat) (s : State) : getKey (0 : Byte) b (stByte a v s).mem = getKey (0 : Byte) b s.mem :=
  getKey_putKey_ne _ _ h _ _

/-- The state after reset is in canonical form. -/
theorem wf_reset : State.reset.wf = true := by decide

end Sys2Proof.Machine
end

