-- ==== Sys2Proof/Laws/Access.lean ====
section
/-! SUPPORT. What a write of one object answers, by the first check that refuses it, and the row of every object that a command writes. -/
namespace Sys2Proof.Machine

variable {k v st : Nat} {f : State → Res} {s : State} {r : ObjRow}

/-- A write that passes every check has its effect. -/
theorem writeBy_effect (h : objRow? k = some r) (hp : r.place.here s = true) (hm : romRefuses k v s = false) (hw : r.place.writes s = true) (hs : st = 0) (hr : r.inRange v = true) :
    writeBy k v st f s = f s := by
  simp [writeBy, h, hp, hm, hw, hs, hr]

/-- An object of the other role, or of the apex alone. -/
theorem writeBy_off (h : objRow? k = some r) (hp : r.place.here s = false) : writeBy k v st f s = (stBlockOff, s) := by
  simp [writeBy, h, hp]

/-- An object that ROM service mode does not let this write change (R391). -/
theorem writeBy_rom (h : objRow? k = some r) (hp : r.place.here s = true) (hm : romRefuses k v s = true) : writeBy k v st f s = (stState, s) := by
  simp [writeBy, h, hp, hm]

/-- An object that other devices refuse to write. -/
theorem writeBy_elsewhere (h : objRow? k = some r) (hp : r.place.here s = true) (hm : romRefuses k v s = false) (hw : r.place.writes s = false) : writeBy k v st f s = (stState, s) := by
  simp [writeBy, h, hp, hm, hw]

/-- A write that the state of the device refuses. -/
theorem writeBy_refused (h : objRow? k = some r) (hp : r.place.here s = true) (hm : romRefuses k v s = false) (hw : r.place.writes s = true) (hs : st ≠ 0) :
    writeBy k v st f s = (st, s) := by
  simp [writeBy, h, hp, hm, hw, hs]

/-- A value outside the range of the object. -/
theorem writeBy_range (h : objRow? k = some r) (hp : r.place.here s = true) (hm : romRefuses k v s = false) (hw : r.place.writes s = true) (hs : st = 0) (hr : r.inRange v = false) :
    writeBy k v st f s = (stRange, s) := by
  simp [writeBy, h, hp, hm, hw, hs, hr]

/-- An access that failed changed nothing but its answer. -/
theorem finish_refused (c : Nat) (s : State) : finish (c, s) = { s with resp := [c] } := rfl

/-! The rows of the objects that commands write. -/

theorem row_TIM_PERIOD : objRow? O.TIM_PERIOD = some ⟨0x3100, 0x3100, 0x1, 0x1, .u 32, .rws, 0xfa0, .ints [(1000, 40000)], .apexWrites⟩ := rfl
theorem row_TIM_APPLY_LAG : objRow? O.TIM_APPLY_LAG = some ⟨0x3100, 0x3100, 0x2, 0x2, .u 32, .rws, 0xc80, .ints [(1, 160000)], .apexWrites⟩ := rfl
theorem row_TIM_CMD_GUARD : objRow? O.TIM_CMD_GUARD = some ⟨0x3100, 0x3100, 0x3, 0x3, .u 16, .rws, 0x64, .ints [(40, 400)], .apexWrites⟩ := rfl
theorem row_TIM_LAW_START : objRow? O.TIM_LAW_START = some ⟨0x3100, 0x3100, 0x5, 0x5, .u 32, .rws, 0x0, .ints [(0, 160000)], .apexWrites⟩ := rfl
theorem row_BAL_SLALOM_SEED : objRow? O.BAL_SLALOM_SEED = some ⟨0x4000, 0x4000, 0x1, 0x1, .u 32, .rws, 0x1d872b41, .ints [(1, 2147483647)], .node⟩ := rfl
theorem row_CEL_ORDER : objRow? O.CEL_ORDER = some ⟨0x6800, 0x6800, 0x2, 0x2, .u 32, .wo, 0x0, .any, .node⟩ := rfl
theorem row_CEL_CLEAR : objRow? O.CEL_CLEAR = some ⟨0x6100, 0x6100, 0xb, 0xb, .bool, .wo, 0x0, .any, .cell⟩ := rfl
theorem row_CEL_ARM_DEBLOCK : objRow? O.CEL_ARM_DEBLOCK = some ⟨0x6800, 0x6800, 0x1, 0x1, .u 64, .rw, 0x0, .any, .node⟩ := rfl
theorem row_LAW_CMD : objRow? O.LAW_CMD = some ⟨0x5000, 0x5000, 0x1, 0x1, .u 8, .wo, 0x0, .ints [(1, 6)], .node⟩ := rfl
theorem row_LAW_BANK_REQ : objRow? O.LAW_BANK_REQ = some ⟨0x5000, 0x5000, 0xb, 0xb, .u 8, .wo, 0x0, .any, .node⟩ := rfl
theorem row_LAW_TRC_CMD : objRow? O.LAW_TRC_CMD = some ⟨0x5030, 0x5030, 0x1, 0x1, .u 8, .wo, 0x0, .ints [(1, 3)], .node⟩ := rfl
theorem row_TIM_ST_CMD : objRow? O.TIM_ST_CMD = some ⟨0x3020, 0x3020, 0xb, 0xb, .u 8, .wo, 0x0, .ints [(1, 4)], .apexWrites⟩ := rfl
theorem row_TIM_ST_ADJUST : objRow? O.TIM_ST_ADJUST = some ⟨0x3020, 0x3020, 0x5, 0x5, .i 64, .wo, 0x0, .any, .apexWrites⟩ := rfl
theorem row_TIM_ST_INC : objRow? O.TIM_ST_INC = some ⟨0x3020, 0x3020, 0x4, 0x4, .u 32, .rw, 0xa0000000, .ints [(2683817689, 2684891431)], .apexWrites⟩ := rfl
theorem row_RED_CMD : objRow? O.RED_CMD = some ⟨0xc000, 0xc000, 0xb, 0xb, .u 8, .wo, 0x0, .ints [(1, 4)], .node⟩ := rfl
theorem row_ADC_PRIO_REQ : objRow? O.ADC_PRIO_REQ = some ⟨0x7020, 0x7020, 0x1, 0x1, .u 8, .wo, 0x0, .ints [(0, 19)], .all⟩ := rfl
theorem row_ADC_PAIR0 : objRow? O.ADC_PAIR0 = some ⟨0x7030, 0x7030, 0x1, 0x1, .u 8, .rws, 0xff, .ints [(0, 15), (255, 255)], .all⟩ := rfl
theorem row_ADC_PAIR1 : objRow? O.ADC_PAIR1 = some ⟨0x7030, 0x7030, 0x2, 0x2, .u 8, .rws, 0xff, .ints [(0, 15), (255, 255)], .all⟩ := rfl
theorem row_ADC_CMD : objRow? O.ADC_CMD = some ⟨0x7000, 0x7000, 0x1, 0x1, .u 8, .wo, 0x0, .ints [(1, 2)], .all⟩ := rfl
theorem row_ACQ_CMD : objRow? O.ACQ_CMD = some ⟨0x8000, 0x8000, 0x1, 0x1, .u 8, .wo, 0x0, .ints [(1, 4)], .node⟩ := rfl
theorem row_ACQ_REC_LOCK : objRow? O.ACQ_REC_LOCK = some ⟨0x8620, 0x8620, 0x1, 0x1, .u 8, .wo, 0x0, .ints [(0, 63)], .node⟩ := rfl
theorem row_ACQ_REC_RELEASE : objRow? O.ACQ_REC_RELEASE = some ⟨0x8620, 0x8620, 0x2, 0x2, .u 8, .wo, 0x0, .ints [(0, 63)], .node⟩ := rfl
theorem row_ACQ_MEM : objRow? O.ACQ_MEM = some ⟨0x8010, 0x8010, 0x1, 0x1, .u 8, .rws, 0x0, .ints [(0, 1)], .node⟩ := rfl
theorem row_ACQ_AREA : objRow? O.ACQ_AREA = some ⟨0x8010, 0x8010, 0x2, 0x2, .u 16, .rws, 0x400, .ints [(1, 8192)], .node⟩ := rfl
theorem row_ACQ_SLOTS : objRow? O.ACQ_SLOTS = some ⟨0x8010, 0x8010, 0x3, 0x3, .u 8, .rws, 0x4, .ints [(1, 64)], .node⟩ := rfl
theorem row_KET_CLEAR : objRow? O.KET_CLEAR = some ⟨0x9000, 0x9000, 0x2, 0x2, .u 64, .wo, 0x0, .any, .all⟩ := rfl
theorem row_KET_CMD : objRow? O.KET_CMD = some ⟨0x9000, 0x9000, 0x1, 0x1, .u 8, .wo, 0x0, .ints [(2, 2)], .all⟩ := rfl
theorem row_KET_Q_POP : objRow? O.KET_Q_POP = some ⟨0x9000, 0x9000, 0xe, 0xe, .bool, .wo, 0x0, .ints [(1, 1)], .apex⟩ := rfl
theorem row_SAF_CMD : objRow? O.SAF_CMD = some ⟨0x9800, 0x9800, 0x1, 0x1, .u 16, .wo, 0x0, .any, .node⟩ := rfl
theorem row_TSK_CMD : objRow? O.TSK_CMD = some ⟨0xa000, 0xa000, 0x2, 0x2, .u 16, .wo, 0x0, .any, .all⟩ := rfl
theorem row_TSK_TICK : objRow? O.TSK_TICK = some ⟨0xa000, 0xa000, 0x1, 0x1, .u 32, .rws, 0x190, .ints [(100, 40000)], .all⟩ := rfl
theorem row_DMA_GCMD : objRow? O.DMA_GCMD = some ⟨0xa880, 0xa880, 0x1, 0x1, .u 8, .wo, 0x0, .ints [(1, 1)], .node⟩ := rfl
theorem row_FIO_CMD : objRow? O.FIO_CMD = some ⟨0xb000, 0xb000, 0xd, 0xd, .u 8, .wo, 0x0, .ints [(1, 2)], .node⟩ := rfl
theorem row_FIO_DO_PAIR : objRow? O.FIO_DO_PAIR = some ⟨0xb000, 0xb000, 0x12, 0x12, .u 8, .rws, 0x0, .ints [(0, 15)], .node⟩ := rfl
theorem row_TREE_REM_CMD : objRow? O.TREE_REM_CMD = some ⟨0xe100, 0xe100, 0x5, 0x5, .u 8, .wo, 0x0, .ints [(1, 2)], .node⟩ := rfl
theorem row_SYS_CORE_MSG_LEN : objRow? O.SYS_CORE_MSG_LEN = some ⟨0x1020, 0x1020, 0x7, 0x7, .u 16, .rw, 0x0, .ints [(0, 256)], .apex⟩ := rfl
theorem row_NVM_CMD : objRow? O.NVM_CMD = some ⟨0xd000, 0xd000, 0x1, 0x1, .u 8, .wo, 0x0, .ints [(1, 6)], .all⟩ := rfl
theorem row_SEC_CMD : objRow? O.SEC_CMD = some ⟨0xd100, 0xd100, 0x2, 0x2, .u 16, .wo, 0x0, .any, .all⟩ := rfl
theorem row_SYS_CMD : objRow? O.SYS_CMD = some ⟨0x1000, 0x1000, 0x7, 0x7, .u 8, .wo, 0x0, .ints [(1, 1)], .all⟩ := rfl
theorem row_SYS_POWER_CMD : objRow? O.SYS_POWER_CMD = some ⟨0x1100, 0x1100, 0x4, 0x4, .u 8, .wo, 0x0, .ints [(1, 5)], .all⟩ := rfl
theorem row_SYS_TAMPER_ACK : objRow? O.SYS_TAMPER_ACK = some ⟨0x1100, 0x1100, 0xa, 0xa, .u 32, .rw, 0x0, .any, .all⟩ := rfl
theorem row_LNK_ENABLE : ∀ n, n < 68 → objRow? (O.LNK_ENABLE n) = some ⟨0x2010, 0x2010, 0x1, 0x44, .bool, .rws, 0x1, .any, .all⟩ := by decide
theorem row_LNK_CMD : ∀ n, n < 68 → objRow? (O.LNK_CMD n) = some ⟨0x2070, 0x2070, 0x1, 0x44, .u 8, .wo, 0x0, .ints [(1, 3)], .all⟩ := by decide
theorem row_LNK_LOOP : ∀ n, n < 68 → objRow? (O.LNK_LOOP n) = some ⟨0x2050, 0x2050, 0x1, 0x44, .u 8, .rw, 0x0, .ints [(0, 3)], .all⟩ := by decide
theorem row_TIM_ASYM : ∀ n, n < 68 → objRow? (O.TIM_ASYM n) = some ⟨0x3200, 0x3200, 0x1, 0x44, .i 32, .rws, 0x0, .ints [(-100000, 100000)], .all⟩ := by decide
theorem row_RED_CADDY_LIST : ∀ n, n < 32 → objRow? (O.RED_CADDY_LIST n) = some ⟨0xc100, 0xc100, 0x1, 0x20, .u 64, .rws, 0x0, .any, .node⟩ := by decide
theorem row_ADC_SEQ_CMD : ∀ n, n < 4 → objRow? (O.ADC_SEQ_CMD n) = some ⟨0x7200, 0x7203, 0x5, 0x5, .u 8, .wo, 0x0, .ints [(1, 2)], .all⟩ := by decide
theorem row_ADC_SEQ_TRIG : ∀ n, n < 4 → objRow? (O.ADC_SEQ_TRIG n) = some ⟨0x7200, 0x7203, 0x1, 0x1, .u 8, .rws, 0x0, .ints [(0, 5)], .all⟩ := by decide
theorem row_DMA_CMD : ∀ n, n < 16 → objRow? (O.DMA_CMD n) = some ⟨0xa800, 0xa80f, 0x1, 0x1, .u 8, .wo, 0x0, .ints [(1, 5)], .node⟩ := by decide
theorem row_POS_CMD : ∀ n, n < 2 → objRow? (O.POS_CMD n) = some ⟨0xb100, 0xb101, 0x7, 0x7, .u 8, .wo, 0x0, .ints [(1, 2)], .node⟩ := by decide
theorem row_POS_PRB_CMD : ∀ n, n < 2 → objRow? (O.POS_PRB_CMD n) = some ⟨0xb120, 0xb121, 0x8, 0x8, .u 8, .wo, 0x0, .ints [(1, 1)], .node⟩ := by decide

end Sys2Proof.Machine
end

