-- ==== Sys2Proof/Laws/Kept.lean ====
section
/-! SUPPORT. What every operation keeps: the queue, the canonical form of objects and memory, free values never taken back, the straps; and, where it does not reset the device (r false), the direction of time. One lemma per shared operation says it; a caller's proof cites its callees'. -/
namespace Sys2Proof.Machine

/-- t is s after operations that respect queue, canonical form, free values, straps and, unless they may reset (r), time. -/
structure Kept (r : Bool) (s t : State) : Prop where
  pending : t.pending = s.pending
  free : s.free ≤ t.free
  wf : s.wf = true → t.wf = true
  straps : t.straps = s.straps
  clock : r = false → s.tick ≤ t.tick

/-- Nothing done. -/
theorem Kept.refl (r : Bool) (s : State) : Kept r s s := ⟨rfl, Nat.le_refl _, id, rfl, fun _ => Nat.le_refl _⟩

/-- One operation after another. -/
theorem Kept.trans {r : Bool} {a b c : State} (h : Kept r a b) (g : Kept r b c) : Kept r a c :=
  ⟨g.pending.trans h.pending, Nat.le_trans h.free g.free, fun w => g.wf (h.wf w),
   g.straps.trans h.straps, fun q => Nat.le_trans (h.clock q) (g.clock q)⟩

/-- An operation without resets is one that may reset. -/
theorem Kept.weaken {a b : State} (r : Bool) (h : Kept false a b) : Kept r a b := ⟨h.pending, h.free, h.wf, h.straps, fun _ => h.clock rfl⟩

/-- A change of fields other than queue, free values, straps, time, objects and memory. -/
theorem Kept.frame {r : Bool} {s0 s t : State} (h : Kept r s0 s) (hp : t.pending = s.pending) (hf : t.free = s.free) (hs : t.straps = s.straps)
    (ht : t.tick = s.tick) (ho : t.objs = s.objs) (hm : t.mem = s.mem) : Kept r s0 t := by
  refine h.trans ⟨hp, by omega, fun w => ?_, hs, fun _ => by omega⟩
  simpa [State.wf, State.objsWf, ho, hm, hs] using w

variable {r : Bool} {s0 s : State}

theorem ite_kept {c : Prop} [Decidable c] {a b : State} (ha : Kept r s0 a) (hb : Kept r s0 b) : Kept r s0 (if c then a else b) := by
  split <;> assumption

theorem ite2_kept {α : Type} {c : Prop} [Decidable c] {a b : α × State} (ha : Kept r s0 a.2) (hb : Kept r s0 b.2) : Kept r s0 (if c then a else b).2 := by
  split <;> assumption

theorem opt_kept {α : Type} {c : Prop} [Decidable c] {y : α × State} {b : Option (α × State)} (h1 : Kept r s0 y.2) (h2 : ∀ x, b = some x → Kept r s0 x.2) :
    ∀ x, (if c then some y else b) = some x → Kept r s0 x.2 := by
  intro x hx
  split at hx
  · cases hx
    exact h1
  · exact h2 x hx

theorem wr_kept (k v : Nat) (h : Kept r s0 s) : Kept r s0 (wr k v s) :=
  h.trans ⟨rfl, Nat.le_refl _, fun w => wf_wr w k v, rfl, fun _ => Nat.le_refl _⟩

theorem bump_kept (k : Nat) (h : Kept r s0 s) : Kept r s0 (bump k s) := wr_kept _ _ h

theorem bumpN_kept (n k : Nat) (h : Kept r s0 s) : Kept r s0 (bumpN n k s) := wr_kept _ _ h

theorem wrBit_kept (k b : Nat) (v : Bool) (h : Kept r s0 s) : Kept r s0 (wrBit k b v s) := wr_kept _ _ h

theorem stByte_kept (a v : Nat) (h : Kept r s0 s) : Kept r s0 (stByte a v s) :=
  h.trans ⟨rfl, Nat.le_refl _, fun w => wf_stByte w a v, rfl, fun _ => Nat.le_refl _⟩

theorem stBytes_kept (a : Nat) (l : List Nat) (h : Kept r s0 s) : Kept r s0 (stBytes a l s) := by
  induction l generalizing a s with
  | nil => exact h
  | cons b t ih => exact ih (a + 1) (stByte_kept a b h)

theorem answer_kept (c : Nat) (d : List Nat) (h : Kept r s0 s) : Kept r s0 (answer c d s) := h.frame rfl rfl rfl rfl rfl rfl

theorem advTo_kept (c : Nat) (h : Kept r s0 s) : Kept r s0 (advTo c s) :=
  h.trans ⟨rfl, Nat.le_refl _, id, rfl, fun _ => Nat.le_max_left _ _⟩

theorem advVt_kept (n : Nat) (h : Kept r s0 s) : Kept r s0 (advVt n s) := advTo_kept _ (h.frame rfl rfl rfl rfl rfl rfl)

theorem takeFree_kept (w : Nat) (h : Kept r s0 s) : Kept r s0 (takeFree w s).2 :=
  h.trans ⟨rfl, Nat.le_succ _, id, rfl, fun _ => Nat.le_refl _⟩

theorem each_kept {α : Type} {l : List α} {f : α → State → State} (hf : ∀ x t, Kept r s0 t → Kept r s0 (f x t)) (h : Kept r s0 s) : Kept r s0 (each l f s) := by
  unfold each
  induction l generalizing s with
  | nil => exact h
  | cons x t ih => exact ih (hf x s h)

theorem onlyIf_kept {c : Bool} {f : State → State} (hf : ∀ t, Kept r s0 t → Kept r s0 (f t)) (h : Kept r s0 s) : Kept r s0 (onlyIf c f s) := by
  unfold onlyIf
  split
  · exact hf s h
  · exact h

theorem foldl_kept {β : Type} {l : List β} {f : State → β → State} (hf : ∀ t x, Kept r s0 t → Kept r s0 (f t x)) (h : Kept r s0 s) : Kept r s0 (l.foldl f s) := by
  induction l generalizing s with
  | nil => exact h
  | cons x t ih => exact ih (hf s x h)

theorem foldl2_kept {α β : Type} {l : List β} {f : α × State → β → α × State} (hf : ∀ p x, Kept r s0 p.2 → Kept r s0 (f p x).2) {p : α × State}
    (h : Kept r s0 p.2) : Kept r s0 (l.foldl f p).2 := by
  induction l generalizing p with
  | nil => exact h
  | cons x t ih => exact ih (hf p x h)

theorem filterMem_kept (p : Host.Cell → Bool) (h : Kept r s0 s) : Kept r s0 { s with mem := s.mem.filter p } := by
  refine h.trans ⟨rfl, Nat.le_refl _, fun w => ?_, rfl, fun _ => Nat.le_refl _⟩
  simp only [State.wf, Bool.and_eq_true] at w ⊢
  exact ⟨Memory_wf_filter w.1 p, w.2⟩

theorem filterObjs_kept (p : Nat × Nat → Bool) (h : Kept r s0 s) : Kept r s0 { s with objs := s.objs.filter p } := by
  refine h.trans ⟨rfl, Nat.le_refl _, fun w => ?_, rfl, fun _ => Nat.le_refl _⟩
  simp only [State.wf, Bool.and_eq_true] at w ⊢
  exact ⟨w.1, objsWf_filter w.2 p⟩

theorem clearAll_kept (ks : List Nat) (h : Kept r s0 s) : Kept r s0 (clearAll ks s) := by
  unfold clearAll
  induction ks generalizing s with
  | nil => exact h
  | cons x t ih => exact ih (wr_kept x 0 h)

theorem set_resp_kept {x : List Nat} (h : Kept r s0 s) : Kept r s0 { s with resp := x } := h.frame rfl rfl rfl rfl rfl rfl

theorem set_tree_kept {x : TreeSt} (h : Kept r s0 s) : Kept r s0 { s with tree := x } := h.frame rfl rfl rfl rfl rfl rfl

theorem set_cell_kept {x : CellSt} (h : Kept r s0 s) : Kept r s0 { s with cell := x } := h.frame rfl rfl rfl rfl rfl rfl

theorem set_bal_kept {x : BalSt} (h : Kept r s0 s) : Kept r s0 { s with bal := x } := h.frame rfl rfl rfl rfl rfl rfl

theorem set_lnk_kept {x : LnkSt} (h : Kept r s0 s) : Kept r s0 { s with lnk := x } := h.frame rfl rfl rfl rfl rfl rfl

theorem set_tim_kept {x : TimSt} (h : Kept r s0 s) : Kept r s0 { s with tim := x } := h.frame rfl rfl rfl rfl rfl rfl

theorem set_red_kept {x : RedSt} (h : Kept r s0 s) : Kept r s0 { s with red := x } := h.frame rfl rfl rfl rfl rfl rfl

theorem set_law_kept {x : LawSt} (h : Kept r s0 s) : Kept r s0 { s with law := x } := h.frame rfl rfl rfl rfl rfl rfl

theorem set_adc_kept {x : AdcSt} (h : Kept r s0 s) : Kept r s0 { s with adc := x } := h.frame rfl rfl rfl rfl rfl rfl

theorem set_acq_kept {x : AcqSt} (h : Kept r s0 s) : Kept r s0 { s with acq := x } := h.frame rfl rfl rfl rfl rfl rfl

theorem set_ket_kept {x : KetSt} (h : Kept r s0 s) : Kept r s0 { s with ket := x } := h.frame rfl rfl rfl rfl rfl rfl

theorem set_saf_kept {x : SafSt} (h : Kept r s0 s) : Kept r s0 { s with saf := x } := h.frame rfl rfl rfl rfl rfl rfl

theorem set_tsk_kept {x : TskSt} (h : Kept r s0 s) : Kept r s0 { s with tsk := x } := h.frame rfl rfl rfl rfl rfl rfl

theorem set_dma_kept {x : DmaSt} (h : Kept r s0 s) : Kept r s0 { s with dma := x } := h.frame rfl rfl rfl rfl rfl rfl

theorem set_fio_kept {x : FioSt} (h : Kept r s0 s) : Kept r s0 { s with fio := x } := h.frame rfl rfl rfl rfl rfl rfl

theorem set_rem_kept {x : RemSt} (h : Kept r s0 s) : Kept r s0 { s with rem := x } := h.frame rfl rfl rfl rfl rfl rfl

theorem set_jop_kept {x : JopSt} (h : Kept r s0 s) : Kept r s0 { s with jop := x } := h.frame rfl rfl rfl rfl rfl rfl

theorem set_nvm_kept {x : NvmSt} (h : Kept r s0 s) : Kept r s0 { s with nvm := x } := h.frame rfl rfl rfl rfl rfl rfl

theorem set_sys_kept {x : SysSt} (h : Kept r s0 s) : Kept r s0 { s with sys := x } := h.frame rfl rfl rfl rfl rfl rfl

theorem set_jtag_kept {x : JtagSt} (h : Kept r s0 s) : Kept r s0 { s with jtag := x } := h.frame rfl rfl rfl rfl rfl rfl

theorem updKet_kept (f : KetSt → KetSt) (h : Kept r s0 s) : Kept r s0 (updKet f s) := h.frame rfl rfl rfl rfl rfl rfl

theorem updSaf_kept (f : SafSt → SafSt) (h : Kept r s0 s) : Kept r s0 (updSaf f s) := h.frame rfl rfl rfl rfl rfl rfl

theorem updJtag_kept (f : JtagSt → JtagSt) (h : Kept r s0 s) : Kept r s0 (updJtag f s) := h.frame rfl rfl rfl rfl rfl rfl

theorem updAcq_kept (f : AcqSt → AcqSt) (h : Kept r s0 s) : Kept r s0 (updAcq f s) := h.frame rfl rfl rfl rfl rfl rfl

theorem updAdc_kept (f : AdcSt → AdcSt) (h : Kept r s0 s) : Kept r s0 (updAdc f s) := h.frame rfl rfl rfl rfl rfl rfl

theorem updBal_kept (f : BalSt → BalSt) (h : Kept r s0 s) : Kept r s0 (updBal f s) := h.frame rfl rfl rfl rfl rfl rfl

theorem updCell_kept (f : CellSt → CellSt) (h : Kept r s0 s) : Kept r s0 (updCell f s) := h.frame rfl rfl rfl rfl rfl rfl

theorem updFio_kept (f : FioSt → FioSt) (h : Kept r s0 s) : Kept r s0 (updFio f s) := h.frame rfl rfl rfl rfl rfl rfl

theorem updJop_kept (f : JopSt → JopSt) (h : Kept r s0 s) : Kept r s0 (updJop f s) := h.frame rfl rfl rfl rfl rfl rfl

theorem updLaw_kept (f : LawSt → LawSt) (h : Kept r s0 s) : Kept r s0 (updLaw f s) := h.frame rfl rfl rfl rfl rfl rfl

theorem updNvm_kept (f : NvmSt → NvmSt) (h : Kept r s0 s) : Kept r s0 (updNvm f s) := h.frame rfl rfl rfl rfl rfl rfl

theorem updRed_kept (f : RedSt → RedSt) (h : Kept r s0 s) : Kept r s0 (updRed f s) := h.frame rfl rfl rfl rfl rfl rfl

theorem updRem_kept (f : RemSt → RemSt) (h : Kept r s0 s) : Kept r s0 (updRem f s) := h.frame rfl rfl rfl rfl rfl rfl

theorem updSys_kept (f : SysSt → SysSt) (h : Kept r s0 s) : Kept r s0 (updSys f s) := h.frame rfl rfl rfl rfl rfl rfl

theorem updTim_kept (f : TimSt → TimSt) (h : Kept r s0 s) : Kept r s0 (updTim f s) := h.frame rfl rfl rfl rfl rfl rfl

theorem updLane_kept (n : Nat) (f : LaneSt → LaneSt) (h : Kept r s0 s) : Kept r s0 (updLane n f s) := h.frame rfl rfl rfl rfl rfl rfl

theorem updChan_kept (n : Nat) (f : DmaChan → DmaChan) (h : Kept r s0 s) : Kept r s0 (updChan n f s) := h.frame rfl rfl rfl rfl rfl rfl

end Sys2Proof.Machine
end

