-- ==== Sys2Proof/Laws/KOpsLink.lean ====
section
/-! SUPPORT. What the operations of Machine/OpsLink.lean keep. -/
set_option linter.all false
namespace Sys2Proof.Machine

theorem setPd_kept {rr : Bool} {s0 s : State} (p : PdLane) (hk : Kept rr s0 s) : Kept rr s0 (setPd p s) := by
  delta setPd
  repeat' first | with_reducible assumption | (intro x; refine (fun _ => ?_ : Kept rr s0 x → _) ?_; rotate_left; unfold x) | (intro x; refine (fun _ => ?_ : Kept rr s0 x.2 → _) ?_; rotate_left; unfold x) | (intro x; clear_value x) | intro x | with_reducible apply wr_kept | with_reducible apply updTim_kept

theorem stampFrame_kept {rr : Bool} {s0 s : State} (n t : Nat) (f : Frame) (hk : Kept rr s0 s) : Kept rr s0 (stampFrame n t f s).2 := by
  delta stampFrame
  repeat' first | with_reducible assumption | (intro x; refine (fun _ => ?_ : Kept rr s0 x → _) ?_; rotate_left; unfold x) | (intro x; refine (fun _ => ?_ : Kept rr s0 x.2 → _) ?_; rotate_left; unfold x) | (intro x; clear_value x) | intro x | with_reducible apply wr_kept | with_reducible apply setPd_kept | split

theorem leave_kept {rr : Bool} {s0 s : State} (n : Nat) (hk : Kept rr s0 s) : Kept rr s0 (leave n s) := by
  delta leave
  repeat' first | with_reducible assumption | (intro x; refine (fun _ => ?_ : Kept rr s0 x → _) ?_; rotate_left; unfold x) | (intro x; refine (fun _ => ?_ : Kept rr s0 x.2 → _) ?_; rotate_left; unfold x) | (intro x; clear_value x) | intro x | with_reducible apply wr_kept | with_reducible apply stampFrame_kept | with_reducible apply updLane_kept | with_reducible apply takeFree_kept | with_reducible apply ite_kept | with_reducible apply ite2_kept | split | lift_lets

theorem startTx_kept {rr : Bool} {s0 s : State} (n : Nat) (hk : Kept rr s0 s) : Kept rr s0 (startTx n s) := by
  delta startTx
  repeat' first | with_reducible assumption | (intro x; refine (fun _ => ?_ : Kept rr s0 x → _) ?_; rotate_left; unfold x) | (intro x; refine (fun _ => ?_ : Kept rr s0 x.2 → _) ?_; rotate_left; unfold x) | (intro x; clear_value x) | intro x | with_reducible apply wr_kept | with_reducible apply leave_kept | with_reducible apply updLane_kept | with_reducible apply ite_kept | split | lift_lets

theorem enqueue_kept {rr : Bool} {s0 s : State} (n : Nat) (it : TxItem) (hk : Kept rr s0 s) : Kept rr s0 (enqueue n it s) := by
  delta enqueue
  repeat' first | with_reducible assumption | (intro x; refine (fun _ => ?_ : Kept rr s0 x → _) ?_; rotate_left; unfold x) | (intro x; refine (fun _ => ?_ : Kept rr s0 x.2 → _) ?_; rotate_left; unfold x) | (intro x; clear_value x) | intro x | with_reducible apply wr_kept | with_reducible apply leave_kept | with_reducible apply updLane_kept | with_reducible apply bump_kept | with_reducible apply ite_kept | split | lift_lets

theorem sendOn_kept {rr : Bool} {s0 s : State} (n : Nat) (f : Frame) (hk : Kept rr s0 s) : Kept rr s0 (sendOn n f s) := by
  delta sendOn
  repeat' first | with_reducible assumption | (intro x; refine (fun _ => ?_ : Kept rr s0 x → _) ?_; rotate_left; unfold x) | (intro x; refine (fun _ => ?_ : Kept rr s0 x.2 → _) ?_; rotate_left; unfold x) | (intro x; clear_value x) | intro x | with_reducible apply wr_kept | with_reducible apply enqueue_kept | with_reducible apply ite_kept | split

theorem mkHdr_kept {rr : Bool} {s0 s : State} (cls typ : Nat) (hop : Bool) (dst : Nat) (dstSide dstNode bcast : Bool) (hk : Kept rr s0 s) : Kept rr s0 (mkHdr cls typ hop dst dstSide dstNode bcast s).2 := by
  delta mkHdr
  repeat' first | with_reducible assumption | (intro x; refine (fun _ => ?_ : Kept rr s0 x → _) ?_; rotate_left; unfold x) | (intro x; refine (fun _ => ?_ : Kept rr s0 x.2 → _) ?_; rotate_left; unfold x) | (intro x; clear_value x) | intro x | with_reducible apply wr_kept | with_reducible apply set_lnk_kept

theorem sendFrame_kept {rr : Bool} {s0 s : State} (cls typ : Nat) (hop : Bool) (dst : Nat) (dstSide dstNode bcast : Bool) (p : Pay) (lanes : List Nat) (hk : Kept rr s0 s) : Kept rr s0 (sendFrame cls typ hop dst dstSide dstNode bcast p lanes s) := by
  delta sendFrame
  repeat' first | with_reducible assumption | (intro x; refine (fun _ => ?_ : Kept rr s0 x → _) ?_; rotate_left; unfold x) | (intro x; refine (fun _ => ?_ : Kept rr s0 x.2 → _) ?_; rotate_left; unfold x) | (intro x; clear_value x) | intro x | with_reducible apply wr_kept | with_reducible apply mkHdr_kept | with_reducible apply sendOn_kept | with_reducible apply each_kept | lift_lets

theorem sendToNode_kept {rr : Bool} {s0 s : State} (cls typ n : Nat) (side : Bool) (p : Pay) (hk : Kept rr s0 s) : Kept rr s0 (sendToNode cls typ n side p s) := by
  delta sendToNode
  repeat' first | with_reducible assumption | (intro x; refine (fun _ => ?_ : Kept rr s0 x → _) ?_; rotate_left; unfold x) | (intro x; refine (fun _ => ?_ : Kept rr s0 x.2 → _) ?_; rotate_left; unfold x) | (intro x; clear_value x) | intro x | with_reducible apply wr_kept | with_reducible apply sendFrame_kept

theorem sendToCell_kept {rr : Bool} {s0 s : State} (cls typ n idx : Nat) (p : Pay) (hk : Kept rr s0 s) : Kept rr s0 (sendToCell cls typ n idx p s) := by
  delta sendToCell
  repeat' first | with_reducible assumption | (intro x; refine (fun _ => ?_ : Kept rr s0 x → _) ?_; rotate_left; unfold x) | (intro x; refine (fun _ => ?_ : Kept rr s0 x.2 → _) ?_; rotate_left; unfold x) | (intro x; clear_value x) | intro x | with_reducible apply wr_kept | with_reducible apply sendFrame_kept | with_reducible apply ite_kept | split | lift_lets

end Sys2Proof.Machine
end

