-- ==== Sys2Proof/Laws/KOpsParam.lean ====
section
/-! SUPPORT. What the operations of Machine/OpsParam.lean keep. -/
set_option linter.all false
namespace Sys2Proof.Machine

theorem buildSet_kept {rr : Bool} {s0 s : State} (hk : Kept rr s0 s) : Kept rr s0 (buildSet s) := by
  delta buildSet
  split
  · exact hk
  · exact set_tim_kept hk
  · exact set_tim_kept hk

theorem firstSet_kept {rr : Bool} {s0 s : State} (hk : Kept rr s0 s) : Kept rr s0 (firstSet s) := by
  delta firstSet
  split
  · exact set_tim_kept hk
  · exact hk

theorem clearDeblock_kept {rr : Bool} {s0 s : State} (hk : Kept rr s0 s) : Kept rr s0 (clearDeblock s) := by
  delta clearDeblock
  repeat' first | with_reducible assumption | (intro x; refine (fun _ => ?_ : Kept rr s0 x → _) ?_; rotate_left; unfold x) | (intro x; refine (fun _ => ?_ : Kept rr s0 x.2 → _) ?_; rotate_left; unfold x) | (intro x; clear_value x) | intro x | with_reducible apply wr_kept | with_reducible apply buildSet_kept | with_reducible apply ite_kept | split

end Sys2Proof.Machine
end

