-- ==== Sys2Proof/Laws/KOpsTask.lean ====
section
/-! SUPPORT. What the operations of Machine/OpsTask.lean keep. -/
set_option linter.all false
namespace Sys2Proof.Machine

theorem updTask_kept {rr : Bool} {s0 s : State} (n : Nat) (f : TaskRec → TaskRec) (hk : Kept rr s0 s) : Kept rr s0 (updTask n f s) := by
  delta updTask
  repeat' first | with_reducible assumption | (intro x; refine (fun _ => ?_ : Kept rr s0 x → _) ?_; rotate_left; unfold x) | (intro x; refine (fun _ => ?_ : Kept rr s0 x.2 → _) ?_; rotate_left; unfold x) | (intro x; clear_value x) | intro x | with_reducible apply wr_kept | with_reducible apply ite_kept | with_reducible apply set_tsk_kept | split

theorem setTaskState_kept {rr : Bool} {s0 s : State} (n v : Nat) (hk : Kept rr s0 s) : Kept rr s0 (setTaskState n v s) := by
  delta setTaskState
  repeat' first | with_reducible assumption | (intro x; refine (fun _ => ?_ : Kept rr s0 x → _) ?_; rotate_left; unfold x) | (intro x; refine (fun _ => ?_ : Kept rr s0 x.2 → _) ?_; rotate_left; unfold x) | (intro x; clear_value x) | intro x | with_reducible apply wr_kept

theorem setTaskPending_kept {rr : Bool} {s0 s : State} (n : Nat) (b : Bool) (hk : Kept rr s0 s) : Kept rr s0 (setTaskPending n b s) := by
  delta setTaskPending
  repeat' first | with_reducible assumption | (intro x; refine (fun _ => ?_ : Kept rr s0 x → _) ?_; rotate_left; unfold x) | (intro x; refine (fun _ => ?_ : Kept rr s0 x.2 → _) ?_; rotate_left; unfold x) | (intro x; clear_value x) | intro x | with_reducible apply wr_kept | with_reducible apply wrBit_kept

theorem setOrder_kept {rr : Bool} {s0 s : State} (l : List Nat) (hk : Kept rr s0 s) : Kept rr s0 (setOrder l s) := by
  delta setOrder
  repeat' first | with_reducible assumption | (intro x; refine (fun _ => ?_ : Kept rr s0 x → _) ?_; rotate_left; unfold x) | (intro x; refine (fun _ => ?_ : Kept rr s0 x.2 → _) ?_; rotate_left; unfold x) | (intro x; clear_value x) | intro x | with_reducible apply wr_kept | with_reducible apply set_tsk_kept

theorem enqTail_kept {rr : Bool} {s0 s : State} (n : Nat) (hk : Kept rr s0 s) : Kept rr s0 (enqTail n s) := by
  delta enqTail
  repeat' first | with_reducible assumption | (intro x; refine (fun _ => ?_ : Kept rr s0 x → _) ?_; rotate_left; unfold x) | (intro x; refine (fun _ => ?_ : Kept rr s0 x.2 → _) ?_; rotate_left; unfold x) | (intro x; clear_value x) | intro x | with_reducible apply wr_kept | with_reducible apply setOrder_kept

theorem enqHead_kept {rr : Bool} {s0 s : State} (n : Nat) (hk : Kept rr s0 s) : Kept rr s0 (enqHead n s) := by
  delta enqHead
  repeat' first | with_reducible assumption | (intro x; refine (fun _ => ?_ : Kept rr s0 x → _) ?_; rotate_left; unfold x) | (intro x; refine (fun _ => ?_ : Kept rr s0 x.2 → _) ?_; rotate_left; unfold x) | (intro x; clear_value x) | intro x | with_reducible apply wr_kept | with_reducible apply setOrder_kept

theorem deq_kept {rr : Bool} {s0 s : State} (n : Nat) (hk : Kept rr s0 s) : Kept rr s0 (deq n s) := by
  delta deq
  repeat' first | with_reducible assumption | (intro x; refine (fun _ => ?_ : Kept rr s0 x → _) ?_; rotate_left; unfold x) | (intro x; refine (fun _ => ?_ : Kept rr s0 x.2 → _) ?_; rotate_left; unfold x) | (intro x; clear_value x) | intro x | with_reducible apply wr_kept | with_reducible apply setOrder_kept

theorem updPort_kept {rr : Bool} {s0 s : State} (c : Nat) (f : PortSt → PortSt) (hk : Kept rr s0 s) : Kept rr s0 (updPort c f s) := by
  delta updPort
  repeat' first | with_reducible assumption | (intro x; refine (fun _ => ?_ : Kept rr s0 x → _) ?_; rotate_left; unfold x) | (intro x; refine (fun _ => ?_ : Kept rr s0 x.2 → _) ?_; rotate_left; unfold x) | (intro x; clear_value x) | intro x | with_reducible apply wr_kept | with_reducible apply set_tsk_kept

theorem coreStart_kept {rr : Bool} {s0 s : State} (c n : Nat) (hk : Kept rr s0 s) : Kept rr s0 (coreStart c n s) := by
  delta coreStart
  repeat' first | with_reducible assumption | (intro x; refine (fun _ => ?_ : Kept rr s0 x → _) ?_; rotate_left; unfold x) | (intro x; refine (fun _ => ?_ : Kept rr s0 x.2 → _) ?_; rotate_left; unfold x) | (intro x; clear_value x) | intro x | with_reducible apply wr_kept | with_reducible apply updPort_kept

theorem coreStop_kept {rr : Bool} {s0 s : State} (c : Nat) (hk : Kept rr s0 s) : Kept rr s0 (coreStop c s) := by
  delta coreStop
  repeat' first | with_reducible assumption | (intro x; refine (fun _ => ?_ : Kept rr s0 x → _) ?_; rotate_left; unfold x) | (intro x; refine (fun _ => ?_ : Kept rr s0 x.2 → _) ?_; rotate_left; unfold x) | (intro x; clear_value x) | intro x | with_reducible apply wr_kept | with_reducible apply updPort_kept | with_reducible apply bumpN_kept | split | lift_lets

theorem unDeck_kept {rr : Bool} {s0 s : State} (c : Nat) (hk : Kept rr s0 s) : Kept rr s0 (unDeck c s) := by
  delta unDeck
  repeat' first | with_reducible assumption | (intro x; refine (fun _ => ?_ : Kept rr s0 x → _) ?_; rotate_left; unfold x) | (intro x; refine (fun _ => ?_ : Kept rr s0 x.2 → _) ?_; rotate_left; unfold x) | (intro x; clear_value x) | intro x | with_reducible apply wr_kept | with_reducible apply enqHead_kept | with_reducible apply setTaskState_kept | with_reducible apply ite_kept | split | lift_lets

theorem onDeck_kept {rr : Bool} {s0 s : State} (c n : Nat) (hk : Kept rr s0 s) : Kept rr s0 (onDeck c n s) := by
  delta onDeck
  repeat' first | with_reducible assumption | (intro x; refine (fun _ => ?_ : Kept rr s0 x → _) ?_; rotate_left; unfold x) | (intro x; refine (fun _ => ?_ : Kept rr s0 x.2 → _) ?_; rotate_left; unfold x) | (intro x; clear_value x) | intro x | with_reducible apply wr_kept | with_reducible apply unDeck_kept | with_reducible apply setTaskState_kept | with_reducible apply ite_kept | split | lift_lets

theorem dispatchOn_kept {rr : Bool} {s0 s : State} (t c : Nat) (hk : Kept rr s0 s) : Kept rr s0 (dispatchOn t c s) := by
  delta dispatchOn
  repeat' first | with_reducible assumption | (intro x; refine (fun _ => ?_ : Kept rr s0 x → _) ?_; rotate_left; unfold x) | (intro x; refine (fun _ => ?_ : Kept rr s0 x.2 → _) ?_; rotate_left; unfold x) | (intro x; clear_value x) | intro x | with_reducible apply wr_kept | with_reducible apply onDeck_kept | with_reducible apply coreStart_kept | with_reducible apply deq_kept | with_reducible apply enqHead_kept | with_reducible apply setTaskState_kept | with_reducible apply bump_kept | with_reducible apply ite_kept | split | lift_lets

theorem placeAll_kept {rr : Bool} {s0 s : State} (l : List Nat) (hk : Kept rr s0 s) : Kept rr s0 (placeAll l s) := by
  induction l generalizing s with
  | nil => exact hk
  | cons t l ih =>
    unfold placeAll
    apply ih
    split
    · exact dispatchOn_kept _ _ hk
    · exact hk

theorem fillDecks_kept {rr : Bool} {s0 s : State} (hk : Kept rr s0 s) : Kept rr s0 (fillDecks s) := by
  delta fillDecks
  repeat' first | with_reducible assumption | (intro x; refine (fun _ => ?_ : Kept rr s0 x → _) ?_; rotate_left; unfold x) | (intro x; refine (fun _ => ?_ : Kept rr s0 x.2 → _) ?_; rotate_left; unfold x) | (intro x; clear_value x) | intro x | with_reducible apply wr_kept | with_reducible apply onDeck_kept | with_reducible apply unDeck_kept | with_reducible apply each_kept | with_reducible apply ite_kept | split | lift_lets

theorem dispatchPass_kept {rr : Bool} {s0 s : State} (hk : Kept rr s0 s) : Kept rr s0 (dispatchPass s) := by
  delta dispatchPass
  repeat' first | with_reducible assumption | (intro x; refine (fun _ => ?_ : Kept rr s0 x → _) ?_; rotate_left; unfold x) | (intro x; refine (fun _ => ?_ : Kept rr s0 x.2 → _) ?_; rotate_left; unfold x) | (intro x; clear_value x) | intro x | with_reducible apply wr_kept | with_reducible apply fillDecks_kept | with_reducible apply placeAll_kept

theorem dispatchN_kept {rr : Bool} {s0 s : State} (f : Nat) (hk : Kept rr s0 s) : Kept rr s0 (dispatchN f s) := by
  induction f generalizing s with
  | zero => exact hk
  | succ f ih =>
    unfold dispatchN
    dsimp only
    apply ite_kept
    · exact ih (dispatchPass_kept hk)
    · exact dispatchPass_kept hk

theorem dispatch_kept {rr : Bool} {s0 s : State} (hk : Kept rr s0 s) : Kept rr s0 (dispatch s) := by
  delta dispatch
  repeat' first | with_reducible assumption | (intro x; refine (fun _ => ?_ : Kept rr s0 x → _) ?_; rotate_left; unfold x) | (intro x; refine (fun _ => ?_ : Kept rr s0 x.2 → _) ?_; rotate_left; unfold x) | (intro x; clear_value x) | intro x | with_reducible apply wr_kept | with_reducible apply dispatchN_kept

theorem startInstance_kept {rr : Bool} {s0 s : State} (n : Nat) (hk : Kept rr s0 s) : Kept rr s0 (startInstance n s) := by
  delta startInstance
  repeat' first | with_reducible assumption | (intro x; refine (fun _ => ?_ : Kept rr s0 x → _) ?_; rotate_left; unfold x) | (intro x; refine (fun _ => ?_ : Kept rr s0 x.2 → _) ?_; rotate_left; unfold x) | (intro x; clear_value x) | intro x | with_reducible apply wr_kept | with_reducible apply wake_kept | with_reducible apply enqTail_kept | with_reducible apply setTaskState_kept | with_reducible apply updTask_kept | with_reducible apply bump_kept | lift_lets

theorem release_kept {rr : Bool} {s0 s : State} (n : Nat) (hk : Kept rr s0 s) : Kept rr s0 (release n s) := by
  delta release
  repeat' first | with_reducible assumption | (intro x; refine (fun _ => ?_ : Kept rr s0 x → _) ?_; rotate_left; unfold x) | (intro x; refine (fun _ => ?_ : Kept rr s0 x.2 → _) ?_; rotate_left; unfold x) | (intro x; clear_value x) | intro x | with_reducible apply wr_kept | with_reducible apply startInstance_kept | with_reducible apply setTaskPending_kept | with_reducible apply setTaskState_kept | with_reducible apply bump_kept | with_reducible apply ite_kept | split | lift_lets

theorem fireEvent_kept {rr : Bool} {s0 s : State} (e : Nat) (hk : Kept rr s0 s) : Kept rr s0 (fireEvent e s) := by
  delta fireEvent
  repeat' first | with_reducible assumption | (intro x; refine (fun _ => ?_ : Kept rr s0 x → _) ?_; rotate_left; unfold x) | (intro x; refine (fun _ => ?_ : Kept rr s0 x.2 → _) ?_; rotate_left; unfold x) | (intro x; clear_value x) | intro x | with_reducible apply wr_kept | with_reducible apply release_kept | with_reducible apply dispatch_kept | with_reducible apply each_kept | with_reducible apply ite_kept | split | lift_lets

end Sys2Proof.Machine
end

