-- ==== Sys2Proof/Laws/KOpsAcq.lean ====
section
/-! SUPPORT. What the operations of Machine/OpsAcq.lean keep. -/
set_option linter.all false
namespace Sys2Proof.Machine

theorem acqCheck_kept {rr : Bool} {s0 s : State} (hk : Kept rr s0 s) : Kept rr s0 (acqCheck s) := by
  delta acqCheck
  repeat' first | with_reducible assumption | (intro x; refine (fun _ => ?_ : Kept rr s0 x → _) ?_; rotate_left; unfold x) | (intro x; refine (fun _ => ?_ : Kept rr s0 x.2 → _) ?_; rotate_left; unfold x) | (intro x; clear_value x) | intro x | with_reducible apply wr_kept

theorem takeSample_kept {rr : Bool} {s0 s : State} (c word inst : Nat) (hk : Kept rr s0 s) : Kept rr s0 (takeSample c word inst s) := by
  delta takeSample
  repeat' first | with_reducible assumption | (intro x; refine (fun _ => ?_ : Kept rr s0 x → _) ?_; rotate_left; unfold x) | (intro x; refine (fun _ => ?_ : Kept rr s0 x.2 → _) ?_; rotate_left; unfold x) | (intro x; clear_value x) | intro x | with_reducible apply wr_kept | with_reducible apply updAcq_kept | with_reducible apply stBytes_kept | with_reducible apply each_kept | with_reducible apply stBytes_kept | with_reducible apply ite_kept | split | lift_lets

theorem storeRow_kept {rr : Bool} {s0 s : State} (i : RowInfo) (hk : Kept rr s0 s) : Kept rr s0 (storeRow i s) := by
  delta storeRow
  repeat' first | with_reducible assumption | (intro x; refine (fun _ => ?_ : Kept rr s0 x → _) ?_; rotate_left; unfold x) | (intro x; refine (fun _ => ?_ : Kept rr s0 x.2 → _) ?_; rotate_left; unfold x) | (intro x; clear_value x) | intro x | with_reducible apply wr_kept | with_reducible apply updAcq_kept | with_reducible apply stBytes_kept | with_reducible apply stBytes_kept | split | lift_lets

theorem writeHeader_kept {rr : Bool} {s0 s : State} (trunc : Bool) (hk : Kept rr s0 s) : Kept rr s0 (writeHeader trunc s) := by
  delta writeHeader
  repeat' first | with_reducible assumption | (intro x; refine (fun _ => ?_ : Kept rr s0 x → _) ?_; rotate_left; unfold x) | (intro x; refine (fun _ => ?_ : Kept rr s0 x.2 → _) ?_; rotate_left; unfold x) | (intro x; clear_value x) | intro x | with_reducible apply wr_kept | with_reducible apply stBytes_kept | with_reducible apply stBytes_kept | split

theorem endRecord_kept {rr : Bool} {s0 s : State} (trunc : Bool) (hk : Kept rr s0 s) : Kept rr s0 (endRecord trunc s) := by
  delta endRecord
  repeat' first | with_reducible assumption | (intro x; refine (fun _ => ?_ : Kept rr s0 x → _) ?_; rotate_left; unfold x) | (intro x; refine (fun _ => ?_ : Kept rr s0 x.2 → _) ?_; rotate_left; unfold x) | (intro x; clear_value x) | intro x | with_reducible apply wr_kept | with_reducible apply writeHeader_kept | with_reducible apply updAcq_kept | with_reducible apply fireEvent_kept | with_reducible apply stBytes_kept | with_reducible apply bump_kept | with_reducible apply stBytes_kept | split | lift_lets

theorem armRecord_kept {rr : Bool} {s0 s : State} (hk : Kept rr s0 s) : Kept rr s0 (armRecord s) := by
  delta armRecord
  repeat' first | with_reducible assumption | (intro x; refine (fun _ => ?_ : Kept rr s0 x → _) ?_; rotate_left; unfold x) | (intro x; refine (fun _ => ?_ : Kept rr s0 x.2 → _) ?_; rotate_left; unfold x) | (intro x; clear_value x) | intro x | with_reducible apply wr_kept | with_reducible apply writeHeader_kept | with_reducible apply updAcq_kept | with_reducible apply onlyIf_kept | with_reducible apply bump_kept | with_reducible apply ite_kept | split | lift_lets

theorem xtrigDown_kept {rr : Bool} {s0 s : State} (x : Xtrig) (toPeer : Bool) (hk : Kept rr s0 s) : Kept rr s0 (xtrigDown x toPeer s) := by
  delta xtrigDown
  repeat' first | with_reducible assumption | (intro x; refine (fun _ => ?_ : Kept rr s0 x → _) ?_; rotate_left; unfold x) | (intro x; refine (fun _ => ?_ : Kept rr s0 x.2 → _) ?_; rotate_left; unfold x) | (intro x; clear_value x) | intro x | with_reducible apply wr_kept | with_reducible apply sendFrame_kept | with_reducible apply each_kept | with_reducible apply ite_kept | split | lift_lets

theorem originateXtrig_kept {rr : Bool} {s0 s : State} (src inst : Nat) (hk : Kept rr s0 s) : Kept rr s0 (originateXtrig src inst s) := by
  delta originateXtrig
  repeat' first | with_reducible assumption | (intro x; refine (fun _ => ?_ : Kept rr s0 x → _) ?_; rotate_left; unfold x) | (intro x; refine (fun _ => ?_ : Kept rr s0 x.2 → _) ?_; rotate_left; unfold x) | (intro x; clear_value x) | intro x | with_reducible apply wr_kept | with_reducible apply xtrigDown_kept | with_reducible apply updAcq_kept | with_reducible apply sendToNode_kept | with_reducible apply bump_kept | with_reducible apply ite_kept | with_reducible apply set_law_kept | split | lift_lets

theorem takeTrigger_kept {rr : Bool} {s0 s : State} (src inst origin : Nat) (r : RecSt) (hk : Kept rr s0 s) : Kept rr s0 (takeTrigger src inst origin r s) := by
  delta takeTrigger
  repeat' first | with_reducible assumption | (intro x; refine (fun _ => ?_ : Kept rr s0 x → _) ?_; rotate_left; unfold x) | (intro x; refine (fun _ => ?_ : Kept rr s0 x.2 → _) ?_; rotate_left; unfold x) | (intro x; clear_value x) | intro x | with_reducible apply wr_kept | with_reducible apply originateXtrig_kept | with_reducible apply writeHeader_kept | with_reducible apply updAcq_kept | with_reducible apply onlyIf_kept | with_reducible apply bump_kept | with_reducible apply ite_kept | split | lift_lets

theorem furtherTrigger_kept {rr : Bool} {s0 s : State} (src inst origin : Nat) (r : RecSt) (t : TrigRec) (hk : Kept rr s0 s) : Kept rr s0 (furtherTrigger src inst origin r t s) := by
  delta furtherTrigger
  repeat' first | with_reducible assumption | (intro x; refine (fun _ => ?_ : Kept rr s0 x → _) ?_; rotate_left; unfold x) | (intro x; refine (fun _ => ?_ : Kept rr s0 x.2 → _) ?_; rotate_left; unfold x) | (intro x; clear_value x) | intro x | with_reducible apply wr_kept | with_reducible apply updAcq_kept | with_reducible apply onlyIf_kept | with_reducible apply bump_kept | with_reducible apply ite_kept | split | lift_lets

theorem acqTrigger_kept {rr : Bool} {s0 s : State} (src inst origin : Nat) (hk : Kept rr s0 s) : Kept rr s0 (acqTrigger src inst origin s) := by
  delta acqTrigger
  repeat' first | with_reducible assumption | (intro x; refine (fun _ => ?_ : Kept rr s0 x → _) ?_; rotate_left; unfold x) | (intro x; refine (fun _ => ?_ : Kept rr s0 x.2 → _) ?_; rotate_left; unfold x) | (intro x; clear_value x) | intro x | with_reducible apply wr_kept | with_reducible apply furtherTrigger_kept | with_reducible apply takeTrigger_kept | with_reducible apply bump_kept | with_reducible apply ite_kept | split | lift_lets

theorem lvlSample_kept {rr : Bool} {s0 s : State} (u v inst : Nat) (bad : Bool) (hk : Kept rr s0 s) : Kept rr s0 (lvlSample u v inst bad s) := by
  delta lvlSample
  repeat' first | with_reducible assumption | (intro x; refine (fun _ => ?_ : Kept rr s0 x → _) ?_; rotate_left; unfold x) | (intro x; refine (fun _ => ?_ : Kept rr s0 x.2 → _) ?_; rotate_left; unfold x) | (intro x; clear_value x) | intro x | with_reducible apply wr_kept | with_reducible apply acqTrigger_kept | with_reducible apply updAcq_kept | with_reducible apply ite_kept | split | lift_lets

theorem acqChannel_kept {rr : Bool} {s0 s : State} (c word inst : Nat) (hk : Kept rr s0 s) : Kept rr s0 (acqChannel c word inst s) := by
  delta acqChannel
  repeat' first | with_reducible assumption | (intro x; refine (fun _ => ?_ : Kept rr s0 x → _) ?_; rotate_left; unfold x) | (intro x; refine (fun _ => ?_ : Kept rr s0 x.2 → _) ?_; rotate_left; unfold x) | (intro x; clear_value x) | intro x | with_reducible apply wr_kept | with_reducible apply lvlSample_kept | with_reducible apply takeSample_kept | with_reducible apply each_kept | with_reducible apply ite_kept | split | lift_lets

theorem acqSource_kept {rr : Bool} {s0 s : State} (src word inst : Nat) (hk : Kept rr s0 s) : Kept rr s0 (acqSource src word inst s) := by
  delta acqSource
  repeat' first | with_reducible assumption | (intro x; refine (fun _ => ?_ : Kept rr s0 x → _) ?_; rotate_left; unfold x) | (intro x; refine (fun _ => ?_ : Kept rr s0 x.2 → _) ?_; rotate_left; unfold x) | (intro x; clear_value x) | intro x | with_reducible apply wr_kept | with_reducible apply acqChannel_kept | with_reducible apply each_kept | with_reducible apply ite_kept | split

theorem acqLaw_kept {rr : Bool} {s0 s : State} (c word inst : Nat) (hk : Kept rr s0 s) : Kept rr s0 (acqLaw c word inst s) := by
  delta acqLaw
  repeat' first | with_reducible assumption | (intro x; refine (fun _ => ?_ : Kept rr s0 x → _) ?_; rotate_left; unfold x) | (intro x; refine (fun _ => ?_ : Kept rr s0 x.2 → _) ?_; rotate_left; unfold x) | (intro x; clear_value x) | intro x | with_reducible apply wr_kept | with_reducible apply acqChannel_kept | with_reducible apply updAcq_kept | with_reducible apply ite_kept | split

theorem acqComplete_kept {rr : Bool} {s0 s : State} (hk : Kept rr s0 s) : Kept rr s0 (acqComplete s) := by
  delta acqComplete
  repeat' first | with_reducible assumption | (intro x; refine (fun _ => ?_ : Kept rr s0 x → _) ?_; rotate_left; unfold x) | (intro x; refine (fun _ => ?_ : Kept rr s0 x.2 → _) ?_; rotate_left; unfold x) | (intro x; clear_value x) | intro x | with_reducible apply wr_kept | with_reducible apply endRecord_kept | with_reducible apply ite_kept | split

theorem acqPMark_kept {rr : Bool} {s0 s : State} (k : Nat) (changed : Bool) (hk : Kept rr s0 s) : Kept rr s0 (acqPMark k changed s) := by
  delta acqPMark
  repeat' first | with_reducible assumption | (intro x; refine (fun _ => ?_ : Kept rr s0 x → _) ?_; rotate_left; unfold x) | (intro x; refine (fun _ => ?_ : Kept rr s0 x.2 → _) ?_; rotate_left; unfold x) | (intro x; clear_value x) | intro x | with_reducible apply wr_kept | with_reducible apply endRecord_kept | with_reducible apply updAcq_kept | with_reducible apply ite_kept | split | lift_lets

end Sys2Proof.Machine
end

