-- ==== Sys2Proof/Laws/KFlags.lean ====
section
/-! SUPPORT. What the operations of Machine/Flags.lean keep. -/
set_option linter.all false
namespace Sys2Proof.Machine

theorem updFaultN_kept {rr : Bool} {s0 s : State} (hk : Kept rr s0 s) : Kept rr s0 (updFaultN s) := by
  delta updFaultN
  repeat' first | with_reducible assumption | (intro x; refine (fun _ => ?_ : Kept rr s0 x → _) ?_; rotate_left; unfold x) | (intro x; refine (fun _ => ?_ : Kept rr s0 x.2 → _) ?_; rotate_left; unfold x) | (intro x; clear_value x) | intro x | with_reducible apply wr_kept

theorem setKSrc_kept {rr : Bool} {s0 s : State} (k : KSrc) (hk : Kept rr s0 s) : Kept rr s0 (setKSrc k s) := by
  delta setKSrc
  repeat' first | with_reducible assumption | (intro x; refine (fun _ => ?_ : Kept rr s0 x → _) ?_; rotate_left; unfold x) | (intro x; refine (fun _ => ?_ : Kept rr s0 x.2 → _) ?_; rotate_left; unfold x) | (intro x; clear_value x) | intro x | with_reducible apply wr_kept | with_reducible apply updKet_kept

theorem queueEvent_kept {rr : Bool} {s0 s : State} (kind source cls instant count data : Nat) (hk : Kept rr s0 s) : Kept rr s0 (queueEvent kind source cls instant count data s) := by
  delta queueEvent
  repeat' first | with_reducible assumption | (intro x; refine (fun _ => ?_ : Kept rr s0 x → _) ?_; rotate_left; unfold x) | (intro x; refine (fun _ => ?_ : Kept rr s0 x.2 → _) ?_; rotate_left; unfold x) | (intro x; clear_value x) | intro x | with_reducible apply wr_kept | with_reducible apply updKet_kept | with_reducible apply bump_kept | with_reducible apply ite_kept | split | lift_lets

theorem logEvent_kept {rr : Bool} {s0 s : State} (n kind instant : Nat) (hk : Kept rr s0 s) : Kept rr s0 (logEvent n kind instant s) := by
  delta logEvent
  repeat' first | with_reducible assumption | (intro x; refine (fun _ => ?_ : Kept rr s0 x → _) ?_; rotate_left; unfold x) | (intro x; refine (fun _ => ?_ : Kept rr s0 x.2 → _) ?_; rotate_left; unfold x) | (intro x; clear_value x) | intro x | with_reducible apply wr_kept | with_reducible apply queueEvent_kept | with_reducible apply setKSrc_kept | with_reducible apply wrBit_kept | with_reducible apply bump_kept | with_reducible apply ite_kept | split | lift_lets

theorem logIf_kept {rr : Bool} {s0 s : State} (n kind instant : Nat) (hk : Kept rr s0 s) : Kept rr s0 (logIf n kind instant s) := by
  delta logIf
  repeat' first | with_reducible assumption | (intro x; refine (fun _ => ?_ : Kept rr s0 x → _) ?_; rotate_left; unfold x) | (intro x; refine (fun _ => ?_ : Kept rr s0 x.2 → _) ?_; rotate_left; unfold x) | (intro x; clear_value x) | intro x | with_reducible apply wr_kept | with_reducible apply logEvent_kept | with_reducible apply ite_kept | split

theorem sendSchuss_kept {rr : Bool} {s0 s : State} (kind origin seq : Nat) (except_ : Nat) (hk : Kept rr s0 s) : Kept rr s0 (sendSchuss kind origin seq except_ s) := by
  delta sendSchuss
  repeat' first | with_reducible assumption | (intro x; refine (fun _ => ?_ : Kept rr s0 x → _) ?_; rotate_left; unfold x) | (intro x; refine (fun _ => ?_ : Kept rr s0 x.2 → _) ?_; rotate_left; unfold x) | (intro x; clear_value x) | intro x | with_reducible apply wr_kept | with_reducible apply updLane_kept | with_reducible apply each_kept

theorem setSafState_kept {rr : Bool} {s0 s : State} (sl : Nat → Bool → Nat → State → State) (hsl : ∀ n b d t, Kept rr s0 t → Kept rr s0 (sl n b d t)) (new : Nat) (hk : Kept rr s0 s) : Kept rr s0 (setSafState sl new s) := by
  delta setSafState
  repeat' first | with_reducible assumption | (intro x; refine (fun _ => ?_ : Kept rr s0 x → _) ?_; rotate_left; unfold x) | (intro x; refine (fun _ => ?_ : Kept rr s0 x.2 → _) ?_; rotate_left; unfold x) | (intro x; clear_value x) | intro x | with_reducible apply wr_kept | with_reducible apply hsl | with_reducible apply queueEvent_kept | with_reducible apply updSaf_kept | with_reducible apply clearDeblock_kept | with_reducible apply ite_kept | split | lift_lets

theorem enterSafe_kept {rr : Bool} {s0 s : State} (sl : Nat → Bool → Nat → State → State) (hsl : ∀ n b d t, Kept rr s0 t → Kept rr s0 (sl n b d t)) (node : Nat) (side urgent : Bool) (hk : Kept rr s0 s) : Kept rr s0 (enterSafe sl node side urgent s) := by
  delta enterSafe
  repeat' first | with_reducible assumption | (intro x; refine (fun _ => ?_ : Kept rr s0 x → _) ?_; rotate_left; unfold x) | (intro x; refine (fun _ => ?_ : Kept rr s0 x.2 → _) ?_; rotate_left; unfold x) | (intro x; clear_value x) | intro x | with_reducible apply wr_kept | with_reducible apply hsl | with_reducible apply setSafState_kept | with_reducible apply ite_kept | split | lift_lets

theorem originate_kept {rr : Bool} {s0 s : State} (sl : Nat → Bool → Nat → State → State) (hsl : ∀ n b d t, Kept rr s0 t → Kept rr s0 (sl n b d t)) (c : Cause) (urgent : Bool) (source : Nat) (hk : Kept rr s0 s) : Kept rr s0 (originate sl c urgent source s) := by
  delta originate
  repeat' first | with_reducible assumption | (intro x; refine (fun _ => ?_ : Kept rr s0 x → _) ?_; rotate_left; unfold x) | (intro x; refine (fun _ => ?_ : Kept rr s0 x.2 → _) ?_; rotate_left; unfold x) | (intro x; clear_value x) | intro x | with_reducible apply wr_kept | with_reducible apply hsl | with_reducible apply enterSafe_kept | with_reducible apply sendSchuss_kept | with_reducible apply queueEvent_kept | with_reducible apply updSaf_kept | with_reducible apply ite_kept | split | lift_lets

theorem degradeExpire_kept {rr : Bool} {s0 s : State} (sl : Nat → Bool → Nat → State → State) (hsl : ∀ n b d t, Kept rr s0 t → Kept rr s0 (sl n b d t)) (hk : Kept rr s0 s) : Kept rr s0 (degradeExpire sl s) := by
  delta degradeExpire
  repeat' first | with_reducible assumption | (intro x; refine (fun _ => ?_ : Kept rr s0 x → _) ?_; rotate_left; unfold x) | (intro x; refine (fun _ => ?_ : Kept rr s0 x.2 → _) ?_; rotate_left; unfold x) | (intro x; clear_value x) | intro x | with_reducible apply wr_kept | with_reducible apply hsl | with_reducible apply originate_kept | with_reducible apply updSaf_kept | lift_lets

theorem enterDegraded_kept {rr : Bool} {s0 s : State} (sl : Nat → Bool → Nat → State → State) (hsl : ∀ n b d t, Kept rr s0 t → Kept rr s0 (sl n b d t)) (hk : Kept rr s0 s) : Kept rr s0 (enterDegraded sl s) := by
  delta enterDegraded
  repeat' first | with_reducible assumption | (intro x; refine (fun _ => ?_ : Kept rr s0 x → _) ?_; rotate_left; unfold x) | (intro x; refine (fun _ => ?_ : Kept rr s0 x.2 → _) ?_; rotate_left; unfold x) | (intro x; clear_value x) | intro x | with_reducible apply wr_kept | with_reducible apply hsl | with_reducible apply degradeExpire_kept | with_reducible apply setSafState_kept | with_reducible apply updSaf_kept | with_reducible apply ite_kept | split | lift_lets

theorem evalDegrade_kept {rr : Bool} {s0 s : State} (sl : Nat → Bool → Nat → State → State) (hsl : ∀ n b d t, Kept rr s0 t → Kept rr s0 (sl n b d t)) (hk : Kept rr s0 s) : Kept rr s0 (evalDegrade sl s) := by
  delta evalDegrade
  repeat' first | with_reducible assumption | (intro x; refine (fun _ => ?_ : Kept rr s0 x → _) ?_; rotate_left; unfold x) | (intro x; refine (fun _ => ?_ : Kept rr s0 x.2 → _) ?_; rotate_left; unfold x) | (intro x; clear_value x) | intro x | with_reducible apply wr_kept | with_reducible apply hsl | with_reducible apply enterDegraded_kept | with_reducible apply updSaf_kept | with_reducible apply ite_kept | split

theorem react_kept {rr : Bool} {s0 s : State} (sl : Nat → Bool → Nat → State → State) (hsl : ∀ n b d t, Kept rr s0 t → Kept rr s0 (sl n b d t)) (n mask instant : Nat) (hk : Kept rr s0 s) : Kept rr s0 (react sl n mask instant s) := by
  delta react
  repeat' first | with_reducible assumption | (intro x; refine (fun _ => ?_ : Kept rr s0 x → _) ?_; rotate_left; unfold x) | (intro x; refine (fun _ => ?_ : Kept rr s0 x.2 → _) ?_; rotate_left; unfold x) | (intro x; clear_value x) | intro x | with_reducible apply wr_kept | with_reducible apply hsl | with_reducible apply evalDegrade_kept | with_reducible apply originate_kept | with_reducible apply updFaultN_kept | with_reducible apply acqTrigger_kept | with_reducible apply fireEvent_kept | with_reducible apply clearDeblock_kept | with_reducible apply onlyIf_kept | lift_lets

theorem escalate_kept {rr : Bool} {s0 s : State} (sl : Nat → Bool → Nat → State → State) (hsl : ∀ n b d t, Kept rr s0 t → Kept rr s0 (sl n b d t)) (n : Nat) (hk : Kept rr s0 s) : Kept rr s0 (escalate sl n s) := by
  delta escalate
  repeat' first | with_reducible assumption | (intro x; refine (fun _ => ?_ : Kept rr s0 x → _) ?_; rotate_left; unfold x) | (intro x; refine (fun _ => ?_ : Kept rr s0 x.2 → _) ?_; rotate_left; unfold x) | (intro x; clear_value x) | intro x | with_reducible apply wr_kept | with_reducible apply hsl | with_reducible apply react_kept | with_reducible apply logEvent_kept | with_reducible apply setKSrc_kept | with_reducible apply wrBit_kept | with_reducible apply ite_kept | split | lift_lets

theorem liveCore_kept {rr : Bool} {s0 s : State} (sl : Nat → Bool → Nat → State → State) (hsl : ∀ n b d t, Kept rr s0 t → Kept rr s0 (sl n b d t)) (n : Nat) (b : Bool) (data inst : Nat) (hk : Kept rr s0 s) : Kept rr s0 (liveCore sl n b data inst s) := by
  delta liveCore
  repeat' first | with_reducible assumption | (intro x; refine (fun _ => ?_ : Kept rr s0 x → _) ?_; rotate_left; unfold x) | (intro x; refine (fun _ => ?_ : Kept rr s0 x.2 → _) ?_; rotate_left; unfold x) | (intro x; clear_value x) | intro x | with_reducible apply wr_kept | with_reducible apply hsl | with_reducible apply escalate_kept | with_reducible apply react_kept | with_reducible apply evalDegrade_kept | with_reducible apply logIf_kept | with_reducible apply setKSrc_kept | with_reducible apply updKet_kept | with_reducible apply wrBit_kept | with_reducible apply bump_kept | with_reducible apply ite_kept | split | lift_lets

theorem condLive_kept {rr : Bool} {s0 s : State} (sl : Nat → Bool → Nat → State → State) (hsl : ∀ n b d t, Kept rr s0 t → Kept rr s0 (sl n b d t)) (n : Nat) (b : Bool) (data : Nat) (hk : Kept rr s0 s) : Kept rr s0 (condLive sl n b data s) := by
  delta condLive
  repeat' first | with_reducible assumption | (intro x; refine (fun _ => ?_ : Kept rr s0 x → _) ?_; rotate_left; unfold x) | (intro x; refine (fun _ => ?_ : Kept rr s0 x.2 → _) ?_; rotate_left; unfold x) | (intro x; clear_value x) | intro x | with_reducible apply wr_kept | with_reducible apply hsl | with_reducible apply liveCore_kept | with_reducible apply updKet_kept | with_reducible apply ite_kept | split | lift_lets

theorem overflowed_kept {rr : Bool} {s0 s : State} (sl : Nat → Bool → Nat → State → State) (hsl : ∀ n b d t, Kept rr s0 t → Kept rr s0 (sl n b d t)) (hk : Kept rr s0 s) : Kept rr s0 (overflowed sl s) := by
  delta overflowed
  repeat' first | with_reducible assumption | (intro x; refine (fun _ => ?_ : Kept rr s0 x → _) ?_; rotate_left; unfold x) | (intro x; refine (fun _ => ?_ : Kept rr s0 x.2 → _) ?_; rotate_left; unfold x) | (intro x; clear_value x) | intro x | with_reducible apply wr_kept | with_reducible apply hsl | with_reducible apply condLive_kept | with_reducible apply ite_kept | split

theorem liveN_kept {rr : Bool} {s0 s : State} (f n : Nat) (b : Bool) (data : Nat) (hk : Kept rr s0 s) : Kept rr s0 (liveN f n b data s) := by
  induction f generalizing n b data s with
  | zero => exact hk
  | succ f ih => exact overflowed_kept (liveN f) (fun n b d t h => ih n b d h) (condLive_kept (liveN f) (fun n b d t h => ih n b d h) n b data hk)

theorem setLive_kept {rr : Bool} {s0 s : State} (n : Nat) (b : Bool) (data : Nat) (hk : Kept rr s0 s) : Kept rr s0 (setLive n b data s) := by
  delta setLive
  repeat' first | with_reducible assumption | (intro x; refine (fun _ => ?_ : Kept rr s0 x → _) ?_; rotate_left; unfold x) | (intro x; refine (fun _ => ?_ : Kept rr s0 x.2 → _) ?_; rotate_left; unfold x) | (intro x; clear_value x) | intro x | with_reducible apply wr_kept | with_reducible apply liveN_kept

theorem setPath_kept {rr : Bool} {s0 s : State} (n : Nat) (b : Bool) (inst : Nat) (hk : Kept rr s0 s) : Kept rr s0 (setPath n b inst s) :=
  overflowed_kept setLive (fun n b d _ h => setLive_kept n b d h) (liveCore_kept setLive (fun n b d _ h => setLive_kept n b d h) n b 0 inst hk)

theorem pulse_kept {rr : Bool} {s0 s : State} (n data : Nat) (hk : Kept rr s0 s) : Kept rr s0 (pulse n data s) := by
  delta pulse
  repeat' first | with_reducible assumption | (intro x; refine (fun _ => ?_ : Kept rr s0 x → _) ?_; rotate_left; unfold x) | (intro x; refine (fun _ => ?_ : Kept rr s0 x.2 → _) ?_; rotate_left; unfold x) | (intro x; clear_value x) | intro x | with_reducible apply wr_kept | with_reducible apply setLive_kept

theorem safState_kept {rr : Bool} {s0 s : State} (new : Nat) (hk : Kept rr s0 s) : Kept rr s0 (safState new s) := by
  delta safState
  repeat' first | with_reducible assumption | (intro x; refine (fun _ => ?_ : Kept rr s0 x → _) ?_; rotate_left; unfold x) | (intro x; refine (fun _ => ?_ : Kept rr s0 x.2 → _) ?_; rotate_left; unfold x) | (intro x; clear_value x) | intro x | with_reducible apply wr_kept | with_reducible apply setLive_kept | with_reducible apply setSafState_kept

theorem clearSource_kept {rr : Bool} {s0 s : State} (n : Nat) (check : Option Nat) (hk : Kept rr s0 s) : Kept rr s0 (clearSource n check s).2 := by
  delta clearSource
  repeat' first | with_reducible assumption | (intro x; refine (fun _ => ?_ : Kept rr s0 x → _) ?_; rotate_left; unfold x) | (intro x; refine (fun _ => ?_ : Kept rr s0 x.2 → _) ?_; rotate_left; unfold x) | (intro x; clear_value x) | intro x | with_reducible apply wr_kept | with_reducible apply logEvent_kept | with_reducible apply updFaultN_kept | with_reducible apply updSaf_kept | with_reducible apply updKet_kept | with_reducible apply bump_kept | with_reducible apply ite_kept | with_reducible apply ite2_kept | split | lift_lets

theorem clearSources_kept {rr : Bool} {s0 s : State} (l : List Nat) (check : Option Nat) (hk : Kept rr s0 s) : Kept rr s0 (clearSources l check s).2 := by
  delta clearSources
  repeat' first | with_reducible assumption | (intro x; refine (fun _ => ?_ : Kept rr s0 x → _) ?_; rotate_left; unfold x) | (intro x; refine (fun _ => ?_ : Kept rr s0 x.2 → _) ?_; rotate_left; unfold x) | (intro x; clear_value x) | intro x | with_reducible apply wr_kept | with_reducible apply foldl_kept | with_reducible apply foldl2_kept | with_reducible apply clearSource_kept | lift_lets

theorem queueShrunk_kept {rr : Bool} {s0 s : State} (hk : Kept rr s0 s) : Kept rr s0 (queueShrunk s) := by
  delta queueShrunk
  repeat' first | with_reducible assumption | (intro x; refine (fun _ => ?_ : Kept rr s0 x → _) ?_; rotate_left; unfold x) | (intro x; refine (fun _ => ?_ : Kept rr s0 x.2 → _) ?_; rotate_left; unfold x) | (intro x; clear_value x) | intro x | with_reducible apply wr_kept | with_reducible apply setLive_kept | with_reducible apply queueEvent_kept | with_reducible apply updKet_kept | with_reducible apply ite_kept | split | lift_lets

end Sys2Proof.Machine
end

