-- ==== Sys2Proof/Laws/KOpsAccess.lean ====
section
/-! SUPPORT. What the operations of Machine/OpsAccess.lean keep. -/
set_option linter.all false
namespace Sys2Proof.Machine

theorem writeBy_kept {rr : Bool} {s0 s : State} (k v st : Nat) {f : State → Res} (hf : ∀ t, Kept rr s0 t → Kept rr s0 (f t).2) (hk : Kept rr s0 s) :
    Kept rr s0 (writeBy k v st f s).2 := by
  unfold writeBy
  repeat' first | with_reducible assumption | with_reducible apply ite2_kept | split | with_reducible apply hf

theorem done_kept {rr : Bool} {s0 s : State} (hk : Kept rr s0 s) : Kept rr s0 (done s).2 := by
  delta done
  repeat' first | with_reducible assumption | (intro x; refine (fun _ => ?_ : Kept rr s0 x → _) ?_; rotate_left; unfold x) | (intro x; refine (fun _ => ?_ : Kept rr s0 x.2 → _) ?_; rotate_left; unfold x) | (intro x; clear_value x) | intro x | with_reducible apply wr_kept

end Sys2Proof.Machine
end

