-- ==== Sys2Proof/Laws/KOpsDma.lean ====
section
/-! SUPPORT. What the operations of Machine/OpsDma.lean keep. -/
set_option linter.all false
namespace Sys2Proof.Machine

theorem setChanState_kept {rr : Bool} {s0 s : State} (c v : Nat) (hk : Kept rr s0 s) : Kept rr s0 (setChanState c v s) := by
  delta setChanState
  repeat' first | with_reducible assumption | (intro x; refine (fun _ => ?_ : Kept rr s0 x → _) ?_; rotate_left; unfold x) | (intro x; refine (fun _ => ?_ : Kept rr s0 x.2 → _) ?_; rotate_left; unfold x) | (intro x; clear_value x) | intro x | with_reducible apply wr_kept | with_reducible apply wrBit_kept

theorem dmaSt_kept {rr : Bool} {s0 s : State} (a v : Nat) (hk : Kept rr s0 s) : Kept rr s0 (dmaSt a v s) := by
  delta dmaSt
  repeat' first | with_reducible assumption | (intro x; refine (fun _ => ?_ : Kept rr s0 x → _) ?_; rotate_left; unfold x) | (intro x; refine (fun _ => ?_ : Kept rr s0 x.2 → _) ?_; rotate_left; unfold x) | (intro x; clear_value x) | intro x | with_reducible apply wr_kept | with_reducible apply stByte_kept | split

theorem chanError_kept {rr : Bool} {s0 s : State} (c code desc off : Nat) (hk : Kept rr s0 s) : Kept rr s0 (chanError c code desc off s) := by
  delta chanError
  repeat' first | with_reducible assumption | (intro x; refine (fun _ => ?_ : Kept rr s0 x → _) ?_; rotate_left; unfold x) | (intro x; refine (fun _ => ?_ : Kept rr s0 x.2 → _) ?_; rotate_left; unfold x) | (intro x; clear_value x) | intro x | with_reducible apply wr_kept | with_reducible apply setChanState_kept | with_reducible apply pulse_kept | with_reducible apply fireEvent_kept | with_reducible apply bump_kept | lift_lets

theorem dmaMove_kept {rr : Bool} {s0 s : State} (c a b : Nat) (d : DmaDesc) (hk : Kept rr s0 s) : Kept rr s0 (dmaMove c a b d s) := by
  delta dmaMove
  repeat' first | with_reducible assumption | (intro x; refine (fun _ => ?_ : Kept rr s0 x → _) ?_; rotate_left; unfold x) | (intro x; refine (fun _ => ?_ : Kept rr s0 x.2 → _) ?_; rotate_left; unfold x) | (intro x; clear_value x) | intro x | with_reducible apply wr_kept | with_reducible apply dmaSt_kept | with_reducible apply updChan_kept | with_reducible apply each_kept | with_reducible apply bumpN_kept | with_reducible apply ite_kept | split | lift_lets

theorem dmaRun_kept {rr : Bool} {s0 s : State} (c to_ : Nat) (ecc : Option Nat) (d : DmaDesc) (hk : Kept rr s0 s) : Kept rr s0 (dmaRun c to_ ecc d s).2 := by
  delta dmaRun
  repeat' first | with_reducible assumption | (intro x; refine (fun _ => ?_ : Kept rr s0 x → _) ?_; rotate_left; unfold x) | (intro x; refine (fun _ => ?_ : Kept rr s0 x.2 → _) ?_; rotate_left; unfold x) | (intro x; clear_value x) | intro x | with_reducible apply wr_kept | with_reducible apply dmaMove_kept | with_reducible apply ite_kept | with_reducible apply ite2_kept | split | lift_lets

theorem recorderLost_kept {rr : Bool} {s0 s : State} (hk : Kept rr s0 s) : Kept rr s0 (recorderLost s) := by
  delta recorderLost
  repeat' first | with_reducible assumption | (intro x; refine (fun _ => ?_ : Kept rr s0 x → _) ?_; rotate_left; unfold x) | (intro x; refine (fun _ => ?_ : Kept rr s0 x.2 → _) ?_; rotate_left; unfold x) | (intro x; clear_value x) | intro x | with_reducible apply wr_kept | with_reducible apply pulse_kept | with_reducible apply endRecord_kept | with_reducible apply updAcq_kept | with_reducible apply ite_kept | split | lift_lets

theorem domainOff_kept {rr : Bool} {s0 s : State} (dom : Nat) (hk : Kept rr s0 s) : Kept rr s0 (domainOff dom s) := by
  have h1 : Kept rr s0 (wrBit O.SYS_DOMAINS dom false { s with dma := { s.dma with pd := s.dma.pd.filter fun p => p.1 != dom } }) :=
    wrBit_kept _ _ _ (set_dma_kept hk)
  unfold domainOff
  dsimp only
  apply ite_kept
  · apply ite_kept
    · exact each_kept (fun _ _ h => wr_kept _ _ (wr_kept _ _ h)) (filterMem_kept _ h1)
    · exact filterMem_kept _ h1
  · exact recorderLost_kept h1

theorem pdProceed_kept {rr : Bool} {s0 s : State} (hk : Kept rr s0 s) : Kept rr s0 (pdProceed s) := by
  delta pdProceed
  repeat' first | with_reducible assumption | (intro x; refine (fun _ => ?_ : Kept rr s0 x → _) ?_; rotate_left; unfold x) | (intro x; refine (fun _ => ?_ : Kept rr s0 x.2 → _) ?_; rotate_left; unfold x) | (intro x; clear_value x) | intro x | with_reducible apply wr_kept | with_reducible apply domainOff_kept | with_reducible apply each_kept | with_reducible apply ite_kept | split

theorem pdRequest_kept {rr : Bool} {s0 s : State} (dom : Nat) (hk : Kept rr s0 s) : Kept rr s0 (pdRequest dom s) := by
  delta pdRequest
  repeat' first | with_reducible assumption | (intro x; refine (fun _ => ?_ : Kept rr s0 x → _) ?_; rotate_left; unfold x) | (intro x; refine (fun _ => ?_ : Kept rr s0 x.2 → _) ?_; rotate_left; unfold x) | (intro x; clear_value x) | intro x | with_reducible apply wr_kept | with_reducible apply pdProceed_kept | with_reducible apply chanError_kept | with_reducible apply each_kept | with_reducible apply set_dma_kept | lift_lets

theorem domainLost_kept {rr : Bool} {s0 s : State} (dom : Nat) (hk : Kept rr s0 s) : Kept rr s0 (domainLost dom s) := by
  delta domainLost
  repeat' first | with_reducible assumption | (intro x; refine (fun _ => ?_ : Kept rr s0 x → _) ?_; rotate_left; unfold x) | (intro x; refine (fun _ => ?_ : Kept rr s0 x.2 → _) ?_; rotate_left; unfold x) | (intro x; clear_value x) | intro x | with_reducible apply wr_kept | with_reducible apply chanError_kept | with_reducible apply each_kept | with_reducible apply wrBit_kept | lift_lets

theorem descDone_kept {rr : Bool} {s0 s : State} (c : Nat) (d : DmaDesc) (hk : Kept rr s0 s) : Kept rr s0 (descDone c d s) := by
  delta descDone
  repeat' first | with_reducible assumption | (intro x; refine (fun _ => ?_ : Kept rr s0 x → _) ?_; rotate_left; unfold x) | (intro x; refine (fun _ => ?_ : Kept rr s0 x.2 → _) ?_; rotate_left; unfold x) | (intro x; clear_value x) | intro x | with_reducible apply wr_kept | with_reducible apply pdProceed_kept | with_reducible apply chanError_kept | with_reducible apply dmaSt_kept | with_reducible apply setChanState_kept | with_reducible apply updChan_kept | with_reducible apply fireEvent_kept | with_reducible apply each_kept | with_reducible apply bump_kept | with_reducible apply ite_kept | split | lift_lets

end Sys2Proof.Machine
end

