-- ==== Sys2Proof/Laws/KOpsSys.lean ====
section
/-! SUPPORT. What the operations of Machine/OpsSys.lean keep. -/
set_option linter.all false
namespace Sys2Proof.Machine

theorem ledger_kept {rr : Bool} {s0 s : State} (cls kind phase cause phys logical detail : Nat) (hk : Kept rr s0 s) : Kept rr s0 (ledger cls kind phase cause phys logical detail s) := by
  delta ledger
  repeat' first | with_reducible assumption | (intro x; refine (fun _ => ?_ : Kept rr s0 x → _) ?_; rotate_left; unfold x) | (intro x; refine (fun _ => ?_ : Kept rr s0 x.2 → _) ?_; rotate_left; unfold x) | (intro x; clear_value x) | intro x | with_reducible apply wr_kept | with_reducible apply updSys_kept | with_reducible apply bump_kept | with_reducible apply ite_kept | split | lift_lets

theorem mapChanged_kept {rr : Bool} {s0 s : State} (hk : Kept rr s0 s) : Kept rr s0 (mapChanged s) := by
  delta mapChanged
  repeat' first | with_reducible assumption | (intro x; refine (fun _ => ?_ : Kept rr s0 x → _) ?_; rotate_left; unfold x) | (intro x; refine (fun _ => ?_ : Kept rr s0 x.2 → _) ?_; rotate_left; unfold x) | (intro x; clear_value x) | intro x | with_reducible apply wr_kept | with_reducible apply updSys_kept | lift_lets

theorem updHealth_kept {rr : Bool} {s0 s : State} (hk : Kept rr s0 s) : Kept rr s0 (updHealth s) := by
  delta updHealth
  repeat' first | with_reducible assumption | (intro x; refine (fun _ => ?_ : Kept rr s0 x → _) ?_; rotate_left; unfold x) | (intro x; refine (fun _ => ?_ : Kept rr s0 x.2 → _) ?_; rotate_left; unfold x) | (intro x; clear_value x) | intro x | with_reducible apply wr_kept | with_reducible apply setLive_kept | with_reducible apply ite_kept | split | lift_lets

theorem spareGone_kept {rr : Bool} {s0 s : State} (c phase cause phys : Nat) (hk : Kept rr s0 s) : Kept rr s0 (spareGone c phase cause phys s) := by
  delta spareGone
  repeat' first | with_reducible assumption | (intro x; refine (fun _ => ?_ : Kept rr s0 x → _) ?_; rotate_left; unfold x) | (intro x; refine (fun _ => ?_ : Kept rr s0 x.2 → _) ?_; rotate_left; unfold x) | (intro x; clear_value x) | intro x | with_reducible apply wr_kept | with_reducible apply updHealth_kept | with_reducible apply ledger_kept | with_reducible apply wrBit_kept | with_reducible apply ite_kept | split | lift_lets

theorem impaired_kept {rr : Bool} {s0 s : State} (c phase cause phys logical : Nat) (hk : Kept rr s0 s) : Kept rr s0 (impaired c phase cause phys logical s) := by
  delta impaired
  repeat' first | with_reducible assumption | (intro x; refine (fun _ => ?_ : Kept rr s0 x → _) ?_; rotate_left; unfold x) | (intro x; refine (fun _ => ?_ : Kept rr s0 x.2 → _) ?_; rotate_left; unfold x) | (intro x; clear_value x) | intro x | with_reducible apply wr_kept | with_reducible apply updHealth_kept | with_reducible apply ledger_kept | with_reducible apply wrBit_kept | with_reducible apply ite_kept | split

theorem mapOut_kept {rr : Bool} {s0 s : State} (c lg phys : Nat) (repl : Option Nat) (phase cause detail : Nat) (hk : Kept rr s0 s) : Kept rr s0 (mapOut c lg phys repl phase cause detail s) := by
  delta mapOut
  repeat' first | with_reducible assumption | (intro x; refine (fun _ => ?_ : Kept rr s0 x → _) ?_; rotate_left; unfold x) | (intro x; refine (fun _ => ?_ : Kept rr s0 x.2 → _) ?_; rotate_left; unfold x) | (intro x; clear_value x) | intro x | with_reducible apply wr_kept | with_reducible apply impaired_kept | with_reducible apply spareGone_kept | with_reducible apply mapChanged_kept | with_reducible apply ledger_kept | with_reducible apply updSys_kept | with_reducible apply bump_kept | split | lift_lets

theorem mapOutSpare_kept {rr : Bool} {s0 s : State} (c phys phase cause detail : Nat) (hk : Kept rr s0 s) : Kept rr s0 (mapOutSpare c phys phase cause detail s) := by
  delta mapOutSpare
  repeat' first | with_reducible assumption | (intro x; refine (fun _ => ?_ : Kept rr s0 x → _) ?_; rotate_left; unfold x) | (intro x; refine (fun _ => ?_ : Kept rr s0 x.2 → _) ?_; rotate_left; unfold x) | (intro x; clear_value x) | intro x | with_reducible apply wr_kept | with_reducible apply spareGone_kept | with_reducible apply mapChanged_kept | with_reducible apply ledger_kept | with_reducible apply updSys_kept | lift_lets

theorem setClassMap_kept {rr : Bool} {s0 s : State} (m : ClassMap) (hk : Kept rr s0 s) : Kept rr s0 (setClassMap m s) := by
  delta setClassMap
  repeat' first | with_reducible assumption | (intro x; refine (fun _ => ?_ : Kept rr s0 x → _) ?_; rotate_left; unfold x) | (intro x; refine (fun _ => ?_ : Kept rr s0 x.2 → _) ?_; rotate_left; unfold x) | (intro x; clear_value x) | intro x | with_reducible apply wr_kept | with_reducible apply updSys_kept | with_reducible apply ite_kept | split

theorem failLogical_kept {rr : Bool} {s0 s : State} (c lg phase cause detail : Nat) (hk : Kept rr s0 s) : Kept rr s0 (failLogical c lg phase cause detail s) := by
  delta failLogical
  repeat' first | with_reducible assumption | (intro x; refine (fun _ => ?_ : Kept rr s0 x → _) ?_; rotate_left; unfold x) | (intro x; refine (fun _ => ?_ : Kept rr s0 x.2 → _) ?_; rotate_left; unfold x) | (intro x; clear_value x) | intro x | with_reducible apply wr_kept | with_reducible apply setClassMap_kept | with_reducible apply mapOut_kept | split | lift_lets

theorem failSpare_kept {rr : Bool} {s0 s : State} (c phys phase cause detail : Nat) (hk : Kept rr s0 s) : Kept rr s0 (failSpare c phys phase cause detail s) := by
  delta failSpare
  repeat' first | with_reducible assumption | (intro x; refine (fun _ => ?_ : Kept rr s0 x → _) ?_; rotate_left; unfold x) | (intro x; refine (fun _ => ?_ : Kept rr s0 x.2 → _) ?_; rotate_left; unfold x) | (intro x; clear_value x) | intro x | with_reducible apply wr_kept | with_reducible apply setClassMap_kept | with_reducible apply mapOutSpare_kept | with_reducible apply ite_kept | split | lift_lets

end Sys2Proof.Machine
end

