-- ==== Sys2Proof/Laws/KOpsSaf.lean ====
section
/-! SUPPORT. What the operations of Machine/OpsSaf.lean keep. -/
set_option linter.all false
namespace Sys2Proof.Machine

theorem setFnState_kept {rr : Bool} {s0 s : State} (f v data : Nat) (hk : Kept rr s0 s) : Kept rr s0 (setFnState f v data s) := by
  delta setFnState
  repeat' first | with_reducible assumption | (intro x; refine (fun _ => ?_ : Kept rr s0 x → _) ?_; rotate_left; unfold x) | (intro x; refine (fun _ => ?_ : Kept rr s0 x.2 → _) ?_; rotate_left; unfold x) | (intro x; clear_value x) | intro x | with_reducible apply wr_kept | with_reducible apply setLive_kept | with_reducible apply updSaf_kept | with_reducible apply ite_kept | split | lift_lets

theorem actFn_kept {rr : Bool} {s0 s : State} (f : Nat) (hk : Kept rr s0 s) : Kept rr s0 (actFn f s) := by
  delta actFn
  repeat' first | with_reducible assumption | (intro x; refine (fun _ => ?_ : Kept rr s0 x → _) ?_; rotate_left; unfold x) | (intro x; refine (fun _ => ?_ : Kept rr s0 x.2 → _) ?_; rotate_left; unfold x) | (intro x; clear_value x) | intro x | with_reducible apply wr_kept | with_reducible apply setLive_kept | with_reducible apply evalDegrade_kept | with_reducible apply originate_kept | split

theorem updPeerDiff_kept {rr : Bool} {s0 s : State} (hk : Kept rr s0 s) : Kept rr s0 (updPeerDiff s) := by
  delta updPeerDiff
  repeat' first | with_reducible assumption | (intro x; refine (fun _ => ?_ : Kept rr s0 x → _) ?_; rotate_left; unfold x) | (intro x; refine (fun _ => ?_ : Kept rr s0 x.2 → _) ?_; rotate_left; unfold x) | (intro x; clear_value x) | intro x | with_reducible apply wr_kept | with_reducible apply updSaf_kept | with_reducible apply ite_kept | split | lift_lets

theorem evalFn_kept {rr : Bool} {s0 s : State} (f : Nat) (hk : Kept rr s0 s) : Kept rr s0 (evalFn f s) := by
  delta evalFn
  repeat' first | with_reducible assumption | (intro x; refine (fun _ => ?_ : Kept rr s0 x → _) ?_; rotate_left; unfold x) | (intro x; refine (fun _ => ?_ : Kept rr s0 x.2 → _) ?_; rotate_left; unfold x) | (intro x; clear_value x) | intro x | with_reducible apply wr_kept | with_reducible apply updPeerDiff_kept | with_reducible apply actFn_kept | with_reducible apply setFnState_kept | with_reducible apply setLive_kept | with_reducible apply evalDegrade_kept | with_reducible apply updSaf_kept | with_reducible apply ite_kept | split | lift_lets

theorem evalFns_kept {rr : Bool} {s0 s : State} (hk : Kept rr s0 s) : Kept rr s0 (evalFns s) := by
  delta evalFns
  repeat' first | with_reducible assumption | (intro x; refine (fun _ => ?_ : Kept rr s0 x → _) ?_; rotate_left; unfold x) | (intro x; refine (fun _ => ?_ : Kept rr s0 x.2 → _) ?_; rotate_left; unfold x) | (intro x; clear_value x) | intro x | with_reducible apply wr_kept | with_reducible apply evalFn_kept | with_reducible apply each_kept | with_reducible apply ite_kept | split

theorem doRelease_kept {rr : Bool} {s0 s : State} (hk : Kept rr s0 s) : Kept rr s0 (doRelease s) := by
  have h := updSaf_kept (fun x => { x with causes := x.causes.filter (·.1 != .degraded), tripHeld := false, expired := false }) hk
  unfold doRelease
  dsimp only
  split
  · exact h
  · split
    · exact enterDegraded_kept setLive (fun n b d _ g => setLive_kept n b d g) h
    · exact safState_kept 2 h

theorem tryRelease_kept {rr : Bool} {s0 s : State} (hk : Kept rr s0 s) : Kept rr s0 (tryRelease s) := by
  delta tryRelease
  repeat' first | with_reducible assumption | (intro x; refine (fun _ => ?_ : Kept rr s0 x → _) ?_; rotate_left; unfold x) | (intro x; refine (fun _ => ?_ : Kept rr s0 x.2 → _) ?_; rotate_left; unfold x) | (intro x; clear_value x) | intro x | with_reducible apply wr_kept | with_reducible apply doRelease_kept | with_reducible apply ite_kept | split

theorem updBlockNodes_kept {rr : Bool} {s0 s : State} (hk : Kept rr s0 s) : Kept rr s0 (updBlockNodes s) := by
  delta updBlockNodes
  repeat' first | with_reducible assumption | (intro x; refine (fun _ => ?_ : Kept rr s0 x → _) ?_; rotate_left; unfold x) | (intro x; refine (fun _ => ?_ : Kept rr s0 x.2 → _) ?_; rotate_left; unfold x) | (intro x; clear_value x) | intro x | with_reducible apply wr_kept | with_reducible apply foldl_kept | with_reducible apply foldl2_kept | with_reducible apply ite_kept | split

theorem nodeHeard_kept {rr : Bool} {s0 s : State} (n : Nat) (bad : Bool) (hk : Kept rr s0 s) : Kept rr s0 (nodeHeard n bad s) := by
  delta nodeHeard
  repeat' first | with_reducible assumption | (intro x; refine (fun _ => ?_ : Kept rr s0 x → _) ?_; rotate_left; unfold x) | (intro x; refine (fun _ => ?_ : Kept rr s0 x.2 → _) ?_; rotate_left; unfold x) | (intro x; clear_value x) | intro x | with_reducible apply wr_kept | with_reducible apply updBlockNodes_kept | with_reducible apply updSaf_kept

theorem evalPeer_kept {rr : Bool} {s0 s : State} (hk : Kept rr s0 s) : Kept rr s0 (evalPeer s) := by
  delta evalPeer
  repeat' first | with_reducible assumption | (intro x; refine (fun _ => ?_ : Kept rr s0 x → _) ?_; rotate_left; unfold x) | (intro x; refine (fun _ => ?_ : Kept rr s0 x.2 → _) ?_; rotate_left; unfold x) | (intro x; clear_value x) | intro x | with_reducible apply wr_kept | with_reducible apply setLive_kept | with_reducible apply evalDegrade_kept | lift_lets

theorem nodeSchuss_kept {rr : Bool} {s0 s : State} (urgent : Bool) (origin : Nat) (hk : Kept rr s0 s) : Kept rr s0 (nodeSchuss urgent origin s) := by
  delta nodeSchuss
  repeat' first | with_reducible assumption | (intro x; refine (fun _ => ?_ : Kept rr s0 x → _) ?_; rotate_left; unfold x) | (intro x; refine (fun _ => ?_ : Kept rr s0 x.2 → _) ?_; rotate_left; unfold x) | (intro x; clear_value x) | intro x | with_reducible apply wr_kept | with_reducible apply setLive_kept | with_reducible apply enterSafe_kept | with_reducible apply updSaf_kept | with_reducible apply ite_kept | split | lift_lets

end Sys2Proof.Machine
end

