-- ==== Sys2Proof/Laws/KOpsCell.lean ====
section
/-! SUPPORT. What the operations of Machine/OpsCell.lean keep. -/
set_option linter.all false
namespace Sys2Proof.Machine

theorem setLeg_kept {rr : Bool} {s0 s : State} (b : Nat) (d : Leg) (hk : Kept rr s0 s) : Kept rr s0 (setLeg b d s) := by
  delta setLeg
  repeat' first | with_reducible assumption | (intro x; refine (fun _ => ?_ : Kept rr s0 x → _) ?_; rotate_left; unfold x) | (intro x; refine (fun _ => ?_ : Kept rr s0 x.2 → _) ?_; rotate_left; unfold x) | (intro x; clear_value x) | intro x | with_reducible apply wr_kept | with_reducible apply updCell_kept | with_reducible apply ite_kept | split

theorem driveEdge_kept {rr : Bool} {s0 s : State} (e : Edge) (hk : Kept rr s0 s) : Kept rr s0 (driveEdge e s) := by
  delta driveEdge
  repeat' first | with_reducible assumption | (intro x; refine (fun _ => ?_ : Kept rr s0 x → _) ?_; rotate_left; unfold x) | (intro x; refine (fun _ => ?_ : Kept rr s0 x.2 → _) ?_; rotate_left; unfold x) | (intro x; clear_value x) | intro x | with_reducible apply wr_kept | with_reducible apply setLeg_kept | with_reducible apply updCell_kept | with_reducible apply ite_kept | split | lift_lets

theorem addEdge_kept {rr : Bool} {s0 s : State} (e : Edge) (hk : Kept rr s0 s) : Kept rr s0 (addEdge e s) := by
  delta addEdge
  repeat' first | with_reducible assumption | (intro x; refine (fun _ => ?_ : Kept rr s0 x → _) ?_; rotate_left; unfold x) | (intro x; refine (fun _ => ?_ : Kept rr s0 x.2 → _) ?_; rotate_left; unfold x) | (intro x; clear_value x) | intro x | with_reducible apply wr_kept | with_reducible apply updCell_kept

theorem addOn_kept {rr : Bool} {s0 s : State} (o t : Nat) (hk : Kept rr s0 s) : Kept rr s0 (addOn o t s) := by
  delta addOn
  repeat' first | with_reducible assumption | (intro x; refine (fun _ => ?_ : Kept rr s0 x → _) ?_; rotate_left; unfold x) | (intro x; refine (fun _ => ?_ : Kept rr s0 x.2 → _) ?_; rotate_left; unfold x) | (intro x; clear_value x) | intro x | with_reducible apply wr_kept | with_reducible apply addEdge_kept | with_reducible apply bump_kept | with_reducible apply ite_kept | split | lift_lets

theorem legEdges_kept {rr : Bool} {s0 s : State} (b : Nat) (d : Leg) (t now : Nat) (forced : Bool) (hk : Kept rr s0 s) : Kept rr s0 (legEdges b d t now forced s) := by
  delta legEdges
  repeat' first | with_reducible assumption | (intro x; refine (fun _ => ?_ : Kept rr s0 x → _) ?_; rotate_left; unfold x) | (intro x; refine (fun _ => ?_ : Kept rr s0 x.2 → _) ?_; rotate_left; unfold x) | (intro x; clear_value x) | intro x | with_reducible apply wr_kept | with_reducible apply addOn_kept | with_reducible apply addEdge_kept | with_reducible apply ite_kept | split | lift_lets

theorem toTerminal_kept {rr : Bool} {s0 s : State} (x : Terminal) (t now : Nat) (forced : Bool) (hk : Kept rr s0 s) : Kept rr s0 (toTerminal x t now forced s) := by
  delta toTerminal
  repeat' first | with_reducible assumption | (intro x; refine (fun _ => ?_ : Kept rr s0 x → _) ?_; rotate_left; unfold x) | (intro x; refine (fun _ => ?_ : Kept rr s0 x.2 → _) ?_; rotate_left; unfold x) | (intro x; clear_value x) | intro x | with_reducible apply wr_kept | with_reducible apply legEdges_kept | with_reducible apply updCell_kept | lift_lets

theorem takeEdges_kept {rr : Bool} {s0 s : State} (v : Nat) (hk : Kept rr s0 s) : Kept rr s0 (takeEdges v s) := by
  delta takeEdges
  repeat' first | with_reducible assumption | (intro x; refine (fun _ => ?_ : Kept rr s0 x → _) ?_; rotate_left; unfold x) | (intro x; refine (fun _ => ?_ : Kept rr s0 x.2 → _) ?_; rotate_left; unfold x) | (intro x; clear_value x) | intro x | with_reducible apply wr_kept | with_reducible apply driveEdge_kept | with_reducible apply updCell_kept | with_reducible apply each_kept | lift_lets

theorem forceTo_kept {rr : Bool} {s0 s : State} (x : Terminal) (hk : Kept rr s0 s) : Kept rr s0 (forceTo x s) := by
  delta forceTo
  repeat' first | with_reducible assumption | (intro x; refine (fun _ => ?_ : Kept rr s0 x → _) ?_; rotate_left; unfold x) | (intro x; refine (fun _ => ?_ : Kept rr s0 x.2 → _) ?_; rotate_left; unfold x) | (intro x; clear_value x) | intro x | with_reducible apply wr_kept | with_reducible apply takeEdges_kept | with_reducible apply toTerminal_kept | lift_lets

theorem blockNow_kept {rr : Bool} {s0 s : State} (hk : Kept rr s0 s) : Kept rr s0 (blockNow s) := by
  delta blockNow
  repeat' first | with_reducible assumption | (intro x; refine (fun _ => ?_ : Kept rr s0 x → _) ?_; rotate_left; unfold x) | (intro x; refine (fun _ => ?_ : Kept rr s0 x.2 → _) ?_; rotate_left; unfold x) | (intro x; clear_value x) | intro x | with_reducible apply wr_kept | with_reducible apply takeEdges_kept | with_reducible apply toTerminal_kept | lift_lets

theorem allLow_kept {rr : Bool} {s0 s : State} (hk : Kept rr s0 s) : Kept rr s0 (allLow s) := by
  delta allLow
  repeat' first | with_reducible assumption | (intro x; refine (fun _ => ?_ : Kept rr s0 x → _) ?_; rotate_left; unfold x) | (intro x; refine (fun _ => ?_ : Kept rr s0 x.2 → _) ?_; rotate_left; unfold x) | (intro x; clear_value x) | intro x | with_reducible apply wr_kept | with_reducible apply driveEdge_kept | with_reducible apply updCell_kept | with_reducible apply each_kept | lift_lets

theorem saveRecord_kept {rr : Bool} {s0 s : State} (hk : Kept rr s0 s) : Kept rr s0 (saveRecord s) := by
  delta saveRecord
  repeat' first | with_reducible assumption | (intro x; refine (fun _ => ?_ : Kept rr s0 x → _) ?_; rotate_left; unfold x) | (intro x; refine (fun _ => ?_ : Kept rr s0 x.2 → _) ?_; rotate_left; unfold x) | (intro x; clear_value x) | intro x | with_reducible apply wr_kept | with_reducible apply updCell_kept

theorem restoreRecord_kept {rr : Bool} {s0 s : State} (hk : Kept rr s0 s) : Kept rr s0 (restoreRecord s) := by
  delta restoreRecord
  repeat' first | with_reducible assumption | (intro x; refine (fun _ => ?_ : Kept rr s0 x → _) ?_; rotate_left; unfold x) | (intro x; refine (fun _ => ?_ : Kept rr s0 x.2 → _) ?_; rotate_left; unfold x) | (intro x; clear_value x) | intro x | with_reducible apply wr_kept | with_reducible apply updCell_kept | lift_lets

theorem countSw_kept {rr : Bool} {s0 s : State} (x : Terminal) (hk : Kept rr s0 s) : Kept rr s0 (countSw x s) := by
  delta countSw
  repeat' first | with_reducible assumption | (intro x; refine (fun _ => ?_ : Kept rr s0 x → _) ?_; rotate_left; unfold x) | (intro x; refine (fun _ => ?_ : Kept rr s0 x.2 → _) ?_; rotate_left; unfold x) | (intro x; clear_value x) | intro x | with_reducible apply wr_kept | with_reducible apply saveRecord_kept | with_reducible apply updCell_kept | with_reducible apply ite_kept | split | lift_lets

theorem settle_kept {rr : Bool} {s0 s : State} (hk : Kept rr s0 s) : Kept rr s0 (settle s) := by
  delta settle
  repeat' first | with_reducible assumption | (intro x; refine (fun _ => ?_ : Kept rr s0 x → _) ?_; rotate_left; unfold x) | (intro x; refine (fun _ => ?_ : Kept rr s0 x.2 → _) ?_; rotate_left; unfold x) | (intro x; clear_value x) | intro x | with_reducible apply wr_kept | with_reducible apply countSw_kept | with_reducible apply updCell_kept | with_reducible apply each_kept | lift_lets

theorem fallDue_mark_kept {rr : Bool} {s0 s : State} (ch : Change) (now : Nat) (hk : Kept rr s0 s) : Kept rr s0 (fallDue.mark ch now s) := by
  delta fallDue.mark
  repeat' first | with_reducible assumption | (intro x; refine (fun _ => ?_ : Kept rr s0 x → _) ?_; rotate_left; unfold x) | (intro x; refine (fun _ => ?_ : Kept rr s0 x.2 → _) ?_; rotate_left; unfold x) | (intro x; clear_value x) | intro x | with_reducible apply wr_kept | with_reducible apply ite_kept | with_reducible apply ite2_kept | with_reducible apply settle_kept | with_reducible apply toTerminal_kept | with_reducible apply updCell_kept | split | lift_lets

theorem fallDue_kept {rr : Bool} {s0 s : State} (ch : Change) (now : Nat) (hk : Kept rr s0 s) : Kept rr s0 (fallDue ch now s) := by
  delta fallDue
  repeat' first | with_reducible assumption | (intro x; refine (fun _ => ?_ : Kept rr s0 x → _) ?_; rotate_left; unfold x) | (intro x; refine (fun _ => ?_ : Kept rr s0 x.2 → _) ?_; rotate_left; unfold x) | (intro x; clear_value x) | intro x | with_reducible apply wr_kept | with_reducible apply ite_kept | with_reducible apply ite2_kept | with_reducible apply fallDue_mark_kept | with_reducible apply bump_kept | with_reducible apply updCell_kept | split | lift_lets

theorem gatesTo_kept {rr : Bool} {s0 s : State} (f v : Nat) (hk : Kept rr s0 s) : Kept rr s0 (gatesTo f v s) := by
  induction f generalizing s with
  | zero => exact hk
  | succ f ih =>
    unfold gatesTo
    repeat' first | with_reducible assumption | with_reducible apply ite_kept | with_reducible apply ih | with_reducible apply fallDue_kept | with_reducible apply takeEdges_kept | split

theorem gatesNow_kept {rr : Bool} {s0 s : State} (hk : Kept rr s0 s) : Kept rr s0 (gatesNow s) := by
  delta gatesNow
  repeat' first | with_reducible assumption | (intro x; refine (fun _ => ?_ : Kept rr s0 x → _) ?_; rotate_left; unfold x) | (intro x; refine (fun _ => ?_ : Kept rr s0 x.2 → _) ?_; rotate_left; unfold x) | (intro x; clear_value x) | intro x | with_reducible apply wr_kept | with_reducible apply gatesTo_kept

theorem ranAt_kept {rr : Bool} {s0 s : State} (v : Nat) (hk : Kept rr s0 s) : Kept rr s0 (ranAt v s) := by
  delta ranAt
  repeat' first | with_reducible assumption | (intro x; refine (fun _ => ?_ : Kept rr s0 x → _) ?_; rotate_left; unfold x) | (intro x; refine (fun _ => ?_ : Kept rr s0 x.2 → _) ?_; rotate_left; unfold x) | (intro x; clear_value x) | intro x | with_reducible apply wr_kept | with_reducible apply settle_kept | with_reducible apply updCell_kept

theorem addChange_kept {rr : Bool} {s0 s : State} (c : Change) (hk : Kept rr s0 s) : Kept rr s0 (addChange c s) := by
  delta addChange
  repeat' first | with_reducible assumption | (intro x; refine (fun _ => ?_ : Kept rr s0 x → _) ?_; rotate_left; unfold x) | (intro x; refine (fun _ => ?_ : Kept rr s0 x.2 → _) ?_; rotate_left; unfold x) | (intro x; clear_value x) | intro x | with_reducible apply wr_kept | with_reducible apply updCell_kept | lift_lets

theorem celGo_kept {rr : Bool} {s0 s : State} (st : Nat) (hk : Kept rr s0 s) : Kept rr s0 (celGo st s) := by
  delta celGo
  repeat' first | with_reducible assumption | (intro x; refine (fun _ => ?_ : Kept rr s0 x → _) ?_; rotate_left; unfold x) | (intro x; refine (fun _ => ?_ : Kept rr s0 x.2 → _) ?_; rotate_left; unfold x) | (intro x; clear_value x) | intro x | with_reducible apply wr_kept | with_reducible apply saveRecord_kept | with_reducible apply updCell_kept | with_reducible apply bump_kept | with_reducible apply ite_kept | split | lift_lets

theorem readyEval_kept {rr : Bool} {s0 s : State} (hk : Kept rr s0 s) : Kept rr s0 (readyEval s) := by
  delta readyEval
  repeat' first | with_reducible assumption | (intro x; refine (fun _ => ?_ : Kept rr s0 x → _) ?_; rotate_left; unfold x) | (intro x; refine (fun _ => ?_ : Kept rr s0 x.2 → _) ?_; rotate_left; unfold x) | (intro x; clear_value x) | intro x | with_reducible apply wr_kept | with_reducible apply celGo_kept | with_reducible apply ite_kept | split

theorem celBlock_kept {rr : Bool} {s0 s : State} (hk : Kept rr s0 s) : Kept rr s0 (celBlock s) := by
  delta celBlock
  repeat' first | with_reducible assumption | (intro x; refine (fun _ => ?_ : Kept rr s0 x → _) ?_; rotate_left; unfold x) | (intro x; refine (fun _ => ?_ : Kept rr s0 x.2 → _) ?_; rotate_left; unfold x) | (intro x; clear_value x) | intro x | with_reducible apply wr_kept | with_reducible apply celGo_kept | with_reducible apply blockNow_kept | with_reducible apply ite_kept | split | lift_lets

theorem latchFault_kept {rr : Bool} {s0 s : State} (n : Nat) (present : Bool) (hk : Kept rr s0 s) : Kept rr s0 (latchFault n present s) := by
  delta latchFault
  repeat' first | with_reducible assumption | (intro x; refine (fun _ => ?_ : Kept rr s0 x → _) ?_; rotate_left; unfold x) | (intro x; refine (fun _ => ?_ : Kept rr s0 x.2 → _) ?_; rotate_left; unfold x) | (intro x; clear_value x) | intro x | with_reducible apply wr_kept | with_reducible apply pulse_kept | with_reducible apply setLive_kept | with_reducible apply updFaultN_kept | with_reducible apply wrBit_kept | with_reducible apply ite_kept | split | lift_lets

theorem endFault_kept {rr : Bool} {s0 s : State} (n : Nat) (hk : Kept rr s0 s) : Kept rr s0 (endFault n s) := by
  delta endFault
  repeat' first | with_reducible assumption | (intro x; refine (fun _ => ?_ : Kept rr s0 x → _) ?_; rotate_left; unfold x) | (intro x; refine (fun _ => ?_ : Kept rr s0 x.2 → _) ?_; rotate_left; unfold x) | (intro x; clear_value x) | intro x | with_reducible apply wr_kept | with_reducible apply setLive_kept | with_reducible apply wrBit_kept | with_reducible apply ite_kept | split

theorem causeIs_kept {rr : Bool} {s0 s : State} (n : Nat) (b : Bool) (hk : Kept rr s0 s) : Kept rr s0 (causeIs n b s) := by
  delta causeIs
  repeat' first | with_reducible assumption | (intro x; refine (fun _ => ?_ : Kept rr s0 x → _) ?_; rotate_left; unfold x) | (intro x; refine (fun _ => ?_ : Kept rr s0 x.2 → _) ?_; rotate_left; unfold x) | (intro x; clear_value x) | intro x | with_reducible apply wr_kept | with_reducible apply endFault_kept | with_reducible apply wrBit_kept | with_reducible apply ite_kept | split

theorem driveBypass_kept {rr : Bool} {s0 s : State} (hk : Kept rr s0 s) : Kept rr s0 (driveBypass s) := by
  delta driveBypass
  repeat' first | with_reducible assumption | (intro x; refine (fun _ => ?_ : Kept rr s0 x → _) ?_; rotate_left; unfold x) | (intro x; refine (fun _ => ?_ : Kept rr s0 x.2 → _) ?_; rotate_left; unfold x) | (intro x; clear_value x) | intro x | with_reducible apply wr_kept | with_reducible apply allLow_kept | with_reducible apply forceTo_kept | with_reducible apply updCell_kept | split

theorem coilPulse_kept {rr : Bool} {s0 s : State} (hk : Kept rr s0 s) : Kept rr s0 (coilPulse s) := by
  delta coilPulse
  repeat' first | with_reducible assumption | (intro x; refine (fun _ => ?_ : Kept rr s0 x → _) ?_; rotate_left; unfold x) | (intro x; refine (fun _ => ?_ : Kept rr s0 x.2 → _) ?_; rotate_left; unfold x) | (intro x; clear_value x) | intro x | with_reducible apply wr_kept | with_reducible apply windowEnd_kept | with_reducible apply updCell_kept | with_reducible apply bump_kept | lift_lets

theorem bypStart_kept {rr : Bool} {s0 s : State} (hk : Kept rr s0 s) : Kept rr s0 (bypStart s) := by
  delta bypStart
  repeat' first | with_reducible assumption | (intro x; refine (fun _ => ?_ : Kept rr s0 x → _) ?_; rotate_left; unfold x) | (intro x; refine (fun _ => ?_ : Kept rr s0 x.2 → _) ?_; rotate_left; unfold x) | (intro x; clear_value x) | intro x | with_reducible apply wr_kept | with_reducible apply coilPulse_kept | with_reducible apply driveBypass_kept | with_reducible apply celGo_kept | with_reducible apply updCell_kept | with_reducible apply ite_kept | split | lift_lets

theorem heldOut_kept {rr : Bool} {s0 s : State} (hk : Kept rr s0 s) : Kept rr s0 (heldOut s) := by
  delta heldOut
  repeat' first | with_reducible assumption | (intro x; refine (fun _ => ?_ : Kept rr s0 x → _) ?_; rotate_left; unfold x) | (intro x; refine (fun _ => ?_ : Kept rr s0 x.2 → _) ?_; rotate_left; unfold x) | (intro x; clear_value x) | intro x | with_reducible apply wr_kept | with_reducible apply latchFault_kept | with_reducible apply celBlock_kept | with_reducible apply ite_kept | split

theorem celHold_kept {rr : Bool} {s0 s : State} (hk : Kept rr s0 s) : Kept rr s0 (celHold s) := by
  delta celHold
  repeat' first | with_reducible assumption | (intro x; refine (fun _ => ?_ : Kept rr s0 x → _) ?_; rotate_left; unfold x) | (intro x; refine (fun _ => ?_ : Kept rr s0 x.2 → _) ?_; rotate_left; unfold x) | (intro x; clear_value x) | intro x | with_reducible apply wr_kept | with_reducible apply heldOut_kept | with_reducible apply celGo_kept | with_reducible apply ite_kept | split | lift_lets

theorem celReact_kept {rr : Bool} {s0 s : State} (l : List Nat) (hk : Kept rr s0 s) : Kept rr s0 (celReact l s) := by
  delta celReact
  repeat' first | with_reducible assumption | (intro x; refine (fun _ => ?_ : Kept rr s0 x → _) ?_; rotate_left; unfold x) | (intro x; refine (fun _ => ?_ : Kept rr s0 x.2 → _) ?_; rotate_left; unfold x) | (intro x; clear_value x) | intro x | with_reducible apply wr_kept | with_reducible apply celHold_kept | with_reducible apply bypStart_kept | with_reducible apply celBlock_kept | with_reducible apply ite_kept | split | lift_lets

theorem celFaults_kept {rr : Bool} {s0 s : State} (l : List (Nat × Bool)) (hk : Kept rr s0 s) : Kept rr s0 (celFaults l s) := by
  delta celFaults
  repeat' first | with_reducible assumption | (intro x; refine (fun _ => ?_ : Kept rr s0 x → _) ?_; rotate_left; unfold x) | (intro x; refine (fun _ => ?_ : Kept rr s0 x.2 → _) ?_; rotate_left; unfold x) | (intro x; clear_value x) | intro x | with_reducible apply wr_kept | with_reducible apply celReact_kept | with_reducible apply latchFault_kept | with_reducible apply each_kept | with_reducible apply ite_kept | split

theorem celClear_kept {rr : Bool} {s0 s : State} (hk : Kept rr s0 s) : Kept rr s0 (celClear s) := by
  delta celClear
  repeat' first | with_reducible assumption | (intro x; refine (fun _ => ?_ : Kept rr s0 x → _) ?_; rotate_left; unfold x) | (intro x; refine (fun _ => ?_ : Kept rr s0 x.2 → _) ?_; rotate_left; unfold x) | (intro x; clear_value x) | intro x | with_reducible apply wr_kept | with_reducible apply foldl_kept | with_reducible apply foldl2_kept | with_reducible apply readyEval_kept | with_reducible apply updFaultN_kept | with_reducible apply ite_kept | split | lift_lets

theorem setAux_kept {rr : Bool} {s0 s : State} (a : Nat) (hk : Kept rr s0 s) : Kept rr s0 (setAux a s) := by
  delta setAux
  repeat' first | with_reducible assumption | (intro x; refine (fun _ => ?_ : Kept rr s0 x → _) ?_; rotate_left; unfold x) | (intro x; refine (fun _ => ?_ : Kept rr s0 x.2 → _) ?_; rotate_left; unfold x) | (intro x; clear_value x) | intro x | with_reducible apply wr_kept | with_reducible apply causeIs_kept | lift_lets

theorem cellTimeLost_kept {rr : Bool} {s0 s : State} (hk : Kept rr s0 s) : Kept rr s0 (cellTimeLost s) := by
  delta cellTimeLost
  repeat' first | with_reducible assumption | (intro x; refine (fun _ => ?_ : Kept rr s0 x → _) ?_; rotate_left; unfold x) | (intro x; refine (fun _ => ?_ : Kept rr s0 x.2 → _) ?_; rotate_left; unfold x) | (intro x; clear_value x) | intro x | with_reducible apply wr_kept | with_reducible apply celFaults_kept | with_reducible apply readyEval_kept | with_reducible apply gatesNow_kept | with_reducible apply updCell_kept | with_reducible apply ite_kept | split

theorem cellTimeLock_kept {rr : Bool} {s0 s : State} (hk : Kept rr s0 s) : Kept rr s0 (cellTimeLock s) := by
  delta cellTimeLock
  repeat' first | with_reducible assumption | (intro x; refine (fun _ => ?_ : Kept rr s0 x → _) ?_; rotate_left; unfold x) | (intro x; refine (fun _ => ?_ : Kept rr s0 x.2 → _) ?_; rotate_left; unfold x) | (intro x; clear_value x) | intro x | with_reducible apply wr_kept | with_reducible apply endFault_kept | with_reducible apply readyEval_kept | with_reducible apply ite_kept | split

theorem cellSchuss_kept {rr : Bool} {s0 s : State} (hk : Kept rr s0 s) : Kept rr s0 (cellSchuss s) := by
  delta cellSchuss
  repeat' first | with_reducible assumption | (intro x; refine (fun _ => ?_ : Kept rr s0 x → _) ?_; rotate_left; unfold x) | (intro x; refine (fun _ => ?_ : Kept rr s0 x.2 → _) ?_; rotate_left; unfold x) | (intro x; clear_value x) | intro x | with_reducible apply wr_kept | with_reducible apply celGo_kept | with_reducible apply gatesNow_kept | with_reducible apply blockNow_kept | with_reducible apply updCell_kept | with_reducible apply ite_kept | split | lift_lets

theorem loadComparators_kept {rr : Bool} {s0 s : State} (hk : Kept rr s0 s) : Kept rr s0 (loadComparators s) := by
  delta loadComparators
  repeat' first | with_reducible assumption | (intro x; refine (fun _ => ?_ : Kept rr s0 x → _) ?_; rotate_left; unfold x) | (intro x; refine (fun _ => ?_ : Kept rr s0 x.2 → _) ?_; rotate_left; unfold x) | (intro x; clear_value x) | intro x | with_reducible apply wr_kept | with_reducible apply ite_kept | split

theorem acceptCmd_kept {rr : Bool} {s0 s : State} (k : Nat) (b : Bool) (c : Command) (hk : Kept rr s0 s) : Kept rr s0 (acceptCmd k b c s) := by
  delta acceptCmd
  repeat' first | with_reducible assumption | (intro x; refine (fun _ => ?_ : Kept rr s0 x → _) ?_; rotate_left; unfold x) | (intro x; refine (fun _ => ?_ : Kept rr s0 x.2 → _) ?_; rotate_left; unfold x) | (intro x; clear_value x) | intro x | with_reducible apply wr_kept | with_reducible apply carveEnd_kept | with_reducible apply addChange_kept | with_reducible apply updCell_kept | with_reducible apply bump_kept | with_reducible apply ite_kept | split | lift_lets

theorem updCellClaims_kept {rr : Bool} {s0 s : State} (hk : Kept rr s0 s) : Kept rr s0 (updCellClaims s) := by
  delta updCellClaims
  repeat' first | with_reducible assumption | (intro x; refine (fun _ => ?_ : Kept rr s0 x → _) ?_; rotate_left; unfold x) | (intro x; refine (fun _ => ?_ : Kept rr s0 x.2 → _) ?_; rotate_left; unfold x) | (intro x; clear_value x) | intro x | with_reducible apply wr_kept | with_reducible apply ite_kept | split | lift_lets

theorem commandRx_kept {rr : Bool} {s0 s : State} (crcOk b : Bool) (c : Command) (hk : Kept rr s0 s) : Kept rr s0 (commandRx crcOk b c s) := by
  delta commandRx
  repeat' first | with_reducible assumption | (intro x; refine (fun _ => ?_ : Kept rr s0 x → _) ?_; rotate_left; unfold x) | (intro x; refine (fun _ => ?_ : Kept rr s0 x.2 → _) ?_; rotate_left; unfold x) | (intro x; clear_value x) | intro x | with_reducible apply wr_kept | with_reducible apply foldl_kept | with_reducible apply foldl2_kept | with_reducible apply updCellClaims_kept | with_reducible apply acceptCmd_kept | with_reducible apply gatesNow_kept | with_reducible apply updCell_kept | with_reducible apply bump_kept | with_reducible apply ite_kept | split | lift_lets

theorem acceptanceInstant_kept {rr : Bool} {s0 s : State} (k : Nat) (hk : Kept rr s0 s) : Kept rr s0 (acceptanceInstant k s) := by
  delta acceptanceInstant
  repeat' first | with_reducible assumption | (intro x; refine (fun _ => ?_ : Kept rr s0 x → _) ?_; rotate_left; unfold x) | (intro x; refine (fun _ => ?_ : Kept rr s0 x.2 → _) ?_; rotate_left; unfold x) | (intro x; clear_value x) | intro x | with_reducible apply wr_kept | with_reducible apply celFaults_kept | with_reducible apply readyEval_kept | with_reducible apply gatesNow_kept | with_reducible apply updCell_kept | with_reducible apply advVt_kept | with_reducible apply onlyIf_kept | with_reducible apply bump_kept | with_reducible apply ite_kept | split | lift_lets

theorem orderOf_kept {rr : Bool} {s0 s : State} (c : Command) (hk : Kept rr s0 s) : Kept rr s0 (orderOf c s).2 := by
  delta orderOf
  repeat' first | with_reducible assumption | (intro x; refine (fun _ => ?_ : Kept rr s0 x → _) ?_; rotate_left; unfold x) | (intro x; refine (fun _ => ?_ : Kept rr s0 x.2 → _) ?_; rotate_left; unfold x) | (intro x; clear_value x) | intro x | with_reducible apply wr_kept | with_reducible apply updCell_kept | with_reducible apply ite_kept | with_reducible apply ite2_kept | split | lift_lets

theorem commandExecute_kept {rr : Bool} {s0 s : State} (hk : Kept rr s0 s) : Kept rr s0 (commandExecute s) := by
  delta commandExecute
  repeat' first | with_reducible assumption | (intro x; refine (fun _ => ?_ : Kept rr s0 x → _) ?_; rotate_left; unfold x) | (intro x; refine (fun _ => ?_ : Kept rr s0 x.2 → _) ?_; rotate_left; unfold x) | (intro x; clear_value x) | intro x | with_reducible apply wr_kept | with_reducible apply foldl_kept | with_reducible apply foldl2_kept | with_reducible apply orderOf_kept | with_reducible apply celClear_kept | with_reducible apply celFaults_kept | with_reducible apply bypStart_kept | with_reducible apply readyEval_kept | with_reducible apply celGo_kept | with_reducible apply ranAt_kept | with_reducible apply gatesTo_kept | with_reducible apply countSw_kept | with_reducible apply forceTo_kept | with_reducible apply updCell_kept | with_reducible apply advVt_kept | with_reducible apply ite_kept | with_reducible apply ite2_kept | split | lift_lets

theorem carveEnd_kept {rr : Bool} {s0 s : State} (hk : Kept rr s0 s) : Kept rr s0 (carveEnd s) := by
  delta carveEnd
  repeat' first | with_reducible assumption | (intro x; refine (fun _ => ?_ : Kept rr s0 x → _) ?_; rotate_left; unfold x) | (intro x; refine (fun _ => ?_ : Kept rr s0 x.2 → _) ?_; rotate_left; unfold x) | (intro x; clear_value x) | intro x | with_reducible apply wr_kept | with_reducible apply ranAt_kept | with_reducible apply gatesTo_kept | with_reducible apply advVt_kept | split | lift_lets

theorem gateEdge_kept {rr : Bool} {s0 s : State} (hk : Kept rr s0 s) : Kept rr s0 (gateEdge s) := by
  delta gateEdge
  repeat' first | with_reducible assumption | (intro x; refine (fun _ => ?_ : Kept rr s0 x → _) ?_; rotate_left; unfold x) | (intro x; refine (fun _ => ?_ : Kept rr s0 x.2 → _) ?_; rotate_left; unfold x) | (intro x; clear_value x) | intro x | with_reducible apply wr_kept | with_reducible apply gatesTo_kept | with_reducible apply advVt_kept | split | lift_lets

theorem ov1Crossing_kept {rr : Bool} {s0 s : State} (hk : Kept rr s0 s) : Kept rr s0 (ov1Crossing s) := by
  delta ov1Crossing
  repeat' first | with_reducible assumption | (intro x; refine (fun _ => ?_ : Kept rr s0 x → _) ?_; rotate_left; unfold x) | (intro x; refine (fun _ => ?_ : Kept rr s0 x.2 → _) ?_; rotate_left; unfold x) | (intro x; clear_value x) | intro x | with_reducible apply wr_kept | with_reducible apply latchFault_kept | with_reducible apply readyEval_kept | with_reducible apply gatesNow_kept | with_reducible apply countSw_kept | with_reducible apply forceTo_kept | with_reducible apply updCell_kept | with_reducible apply bump_kept | with_reducible apply ite_kept | split | lift_lets

theorem ov1Release_kept {rr : Bool} {s0 s : State} (hk : Kept rr s0 s) : Kept rr s0 (ov1Release s) := by
  delta ov1Release
  repeat' first | with_reducible assumption | (intro x; refine (fun _ => ?_ : Kept rr s0 x → _) ?_; rotate_left; unfold x) | (intro x; refine (fun _ => ?_ : Kept rr s0 x.2 → _) ?_; rotate_left; unfold x) | (intro x; clear_value x) | intro x | with_reducible apply wr_kept | with_reducible apply endFault_kept | with_reducible apply gatesNow_kept | with_reducible apply updCell_kept | with_reducible apply ite_kept | split

theorem ov2Fault_kept {rr : Bool} {s0 s : State} (hk : Kept rr s0 s) : Kept rr s0 (ov2Fault s) := by
  delta ov2Fault
  repeat' first | with_reducible assumption | (intro x; refine (fun _ => ?_ : Kept rr s0 x → _) ?_; rotate_left; unfold x) | (intro x; refine (fun _ => ?_ : Kept rr s0 x.2 → _) ?_; rotate_left; unfold x) | (intro x; clear_value x) | intro x | with_reducible apply wr_kept | with_reducible apply celFaults_kept | with_reducible apply gatesNow_kept | with_reducible apply ite_kept | split

theorem dsatFault_kept {rr : Bool} {s0 s : State} (o : Nat) (hk : Kept rr s0 s) : Kept rr s0 (dsatFault o s) := by
  delta dsatFault
  repeat' first | with_reducible assumption | (intro x; refine (fun _ => ?_ : Kept rr s0 x → _) ?_; rotate_left; unfold x) | (intro x; refine (fun _ => ?_ : Kept rr s0 x.2 → _) ?_; rotate_left; unfold x) | (intro x; clear_value x) | intro x | with_reducible apply wr_kept | with_reducible apply celReact_kept | with_reducible apply driveBypass_kept | with_reducible apply latchFault_kept | with_reducible apply readyEval_kept | with_reducible apply gatesTo_kept | with_reducible apply allLow_kept | with_reducible apply updCell_kept | with_reducible apply bump_kept | with_reducible apply ite_kept | split | lift_lets

theorem bypPulseEnd_kept {rr : Bool} {s0 s : State} (hk : Kept rr s0 s) : Kept rr s0 (bypPulseEnd s) := by
  delta bypPulseEnd
  repeat' first | with_reducible assumption | (intro x; refine (fun _ => ?_ : Kept rr s0 x → _) ?_; rotate_left; unfold x) | (intro x; refine (fun _ => ?_ : Kept rr s0 x.2 → _) ?_; rotate_left; unfold x) | (intro x; clear_value x) | intro x | with_reducible apply wr_kept | with_reducible apply coilPulse_kept | with_reducible apply gatesNow_kept | with_reducible apply updCell_kept | with_reducible apply advTo_kept | with_reducible apply ite_kept | split | lift_lets

theorem bypConfirm_kept {rr : Bool} {s0 s : State} (hk : Kept rr s0 s) : Kept rr s0 (bypConfirm s) := by
  delta bypConfirm
  repeat' first | with_reducible assumption | (intro x; refine (fun _ => ?_ : Kept rr s0 x → _) ?_; rotate_left; unfold x) | (intro x; refine (fun _ => ?_ : Kept rr s0 x.2 → _) ?_; rotate_left; unfold x) | (intro x; clear_value x) | intro x | with_reducible apply wr_kept | with_reducible apply windowEnd_kept | with_reducible apply setAux_kept | with_reducible apply gatesNow_kept | with_reducible apply updCell_kept | with_reducible apply ite_kept | split

theorem bypWindowEnd_kept {rr : Bool} {s0 s : State} (aux : Nat) (hk : Kept rr s0 s) : Kept rr s0 (bypWindowEnd aux s) := by
  delta bypWindowEnd
  repeat' first | with_reducible assumption | (intro x; refine (fun _ => ?_ : Kept rr s0 x → _) ?_; rotate_left; unfold x) | (intro x; refine (fun _ => ?_ : Kept rr s0 x.2 → _) ?_; rotate_left; unfold x) | (intro x; clear_value x) | intro x | with_reducible apply wr_kept | with_reducible apply windowEnd_kept | with_reducible apply setAux_kept | with_reducible apply coilPulse_kept | with_reducible apply latchFault_kept | with_reducible apply gatesNow_kept | with_reducible apply updCell_kept | with_reducible apply advTo_kept | with_reducible apply ite_kept | split | lift_lets

theorem bypHoldEnd_kept {rr : Bool} {s0 s : State} (hk : Kept rr s0 s) : Kept rr s0 (bypHoldEnd s) := by
  delta bypHoldEnd
  repeat' first | with_reducible assumption | (intro x; refine (fun _ => ?_ : Kept rr s0 x → _) ?_; rotate_left; unfold x) | (intro x; refine (fun _ => ?_ : Kept rr s0 x.2 → _) ?_; rotate_left; unfold x) | (intro x; clear_value x) | intro x | with_reducible apply wr_kept | with_reducible apply gatesNow_kept | with_reducible apply allLow_kept | with_reducible apply updCell_kept | with_reducible apply advTo_kept | split | lift_lets

theorem bypUncmd_kept {rr : Bool} {s0 s : State} (aux : Nat) (hk : Kept rr s0 s) : Kept rr s0 (bypUncmd aux s) := by
  delta bypUncmd
  repeat' first | with_reducible assumption | (intro x; refine (fun _ => ?_ : Kept rr s0 x → _) ?_; rotate_left; unfold x) | (intro x; refine (fun _ => ?_ : Kept rr s0 x.2 → _) ?_; rotate_left; unfold x) | (intro x; clear_value x) | intro x | with_reducible apply wr_kept | with_reducible apply setAux_kept | with_reducible apply driveBypass_kept | with_reducible apply latchFault_kept | with_reducible apply celGo_kept | with_reducible apply gatesNow_kept | with_reducible apply updCell_kept | with_reducible apply ite_kept | split | lift_lets

theorem tcSample_kept {rr : Bool} {s0 s : State} (t : Int) (hk : Kept rr s0 s) : Kept rr s0 (tcSample t s) := by
  delta tcSample
  repeat' first | with_reducible assumption | (intro x; refine (fun _ => ?_ : Kept rr s0 x → _) ?_; rotate_left; unfold x) | (intro x; refine (fun _ => ?_ : Kept rr s0 x.2 → _) ?_; rotate_left; unfold x) | (intro x; clear_value x) | intro x | with_reducible apply wr_kept | with_reducible apply updCell_kept | with_reducible apply bump_kept | with_reducible apply ite_kept | split | lift_lets

theorem housekeeping_kept {rr : Bool} {s0 s : State} (tDie tBoard vAux aux : Nat) (hk : Kept rr s0 s) : Kept rr s0 (housekeeping tDie tBoard vAux aux s) := by
  delta housekeeping
  repeat' first | with_reducible assumption | (intro x; refine (fun _ => ?_ : Kept rr s0 x → _) ?_; rotate_left; unfold x) | (intro x; refine (fun _ => ?_ : Kept rr s0 x.2 → _) ?_; rotate_left; unfold x) | (intro x; clear_value x) | intro x | with_reducible apply wr_kept | with_reducible apply tcSample_kept | with_reducible apply bypUncmd_kept | with_reducible apply setAux_kept | with_reducible apply celFaults_kept | with_reducible apply causeIs_kept | with_reducible apply readyEval_kept | with_reducible apply gatesNow_kept | with_reducible apply saveRecord_kept | with_reducible apply ite_kept | split | lift_lets

theorem cellPMark_kept {rr : Bool} {s0 s : State} (k : Nat) (hk : Kept rr s0 s) : Kept rr s0 (cellPMark k s) := by
  delta cellPMark
  repeat' first | with_reducible assumption | (intro x; refine (fun _ => ?_ : Kept rr s0 x → _) ?_; rotate_left; unfold x) | (intro x; refine (fun _ => ?_ : Kept rr s0 x.2 → _) ?_; rotate_left; unfold x) | (intro x; clear_value x) | intro x | with_reducible apply wr_kept | with_reducible apply cellIndex_kept | with_reducible apply updCellClaims_kept | with_reducible apply gatesNow_kept | with_reducible apply updCell_kept | with_reducible apply ite_kept | split | lift_lets

theorem cellSampled_kept {rr : Bool} {s0 s : State} (k raw0 raw1 : Nat) (hk : Kept rr s0 s) : Kept rr s0 (cellSampled k raw0 raw1 s) := by
  delta cellSampled
  repeat' first | with_reducible assumption | (intro x; refine (fun _ => ?_ : Kept rr s0 x → _) ?_; rotate_left; unfold x) | (intro x; refine (fun _ => ?_ : Kept rr s0 x.2 → _) ?_; rotate_left; unfold x) | (intro x; clear_value x) | intro x | with_reducible apply wr_kept | with_reducible apply celFaults_kept | with_reducible apply causeIs_kept | with_reducible apply readyEval_kept | with_reducible apply gatesNow_kept | with_reducible apply updCell_kept | with_reducible apply ite_kept | split | lift_lets

theorem cellReportLaunch_kept {rr : Bool} {s0 s : State} (hk : Kept rr s0 s) : Kept rr s0 (cellReportLaunch s) := by
  delta cellReportLaunch
  repeat' first | with_reducible assumption | (intro x; refine (fun _ => ?_ : Kept rr s0 x → _) ?_; rotate_left; unfold x) | (intro x; refine (fun _ => ?_ : Kept rr s0 x.2 → _) ?_; rotate_left; unfold x) | (intro x; clear_value x) | intro x | with_reducible apply wr_kept | with_reducible apply mkHdr_kept | with_reducible apply sendOn_kept | with_reducible apply advVt_kept | with_reducible apply ite_kept | with_reducible apply ite2_kept | split | lift_lets

end Sys2Proof.Machine
end

