-- ==== Sys2Proof/Laws/KOpsAdc.lean ====
section
/-! SUPPORT. What the operations of Machine/OpsAdc.lean keep. -/
set_option linter.all false
namespace Sys2Proof.Machine

theorem updSeq_kept {rr : Bool} {s0 s : State} (q : Nat) (f : AdcSeq → AdcSeq) (hk : Kept rr s0 s) : Kept rr s0 (updSeq q f s) := by
  delta updSeq
  repeat' first | with_reducible assumption | (intro x; refine (fun _ => ?_ : Kept rr s0 x → _) ?_; rotate_left; unfold x) | (intro x; refine (fun _ => ?_ : Kept rr s0 x.2 → _) ?_; rotate_left; unfold x) | (intro x; clear_value x) | intro x | with_reducible apply wr_kept | with_reducible apply updAdc_kept

theorem setSlice_kept {rr : Bool} {s0 s : State} (l : Nat) (p : Option Nat) (hk : Kept rr s0 s) : Kept rr s0 (setSlice l p s) := by
  delta setSlice
  repeat' first | with_reducible assumption | (intro x; refine (fun _ => ?_ : Kept rr s0 x → _) ?_; rotate_left; unfold x) | (intro x; refine (fun _ => ?_ : Kept rr s0 x.2 → _) ?_; rotate_left; unfold x) | (intro x; clear_value x) | intro x | with_reducible apply wr_kept | lift_lets

theorem beginConv_kept {rr : Bool} {s0 s : State} (l input : Nat) (use : AdcUse) (start n sample : Nat) (held : Bool) (hk : Kept rr s0 s) : Kept rr s0 (beginConv l input use start n sample held s) := by
  delta beginConv
  repeat' first | with_reducible assumption | (intro x; refine (fun _ => ?_ : Kept rr s0 x → _) ?_; rotate_left; unfold x) | (intro x; refine (fun _ => ?_ : Kept rr s0 x.2 → _) ?_; rotate_left; unfold x) | (intro x; clear_value x) | intro x | with_reducible apply wr_kept | with_reducible apply updAdc_kept | with_reducible apply ite_kept | split | lift_lets

theorem entStarted_kept {rr : Bool} {s0 s : State} (q e t sample : Nat) (hk : Kept rr s0 s) : Kept rr s0 (entStarted q e t sample s) := by
  delta entStarted
  repeat' first | with_reducible assumption | (intro x; refine (fun _ => ?_ : Kept rr s0 x → _) ?_; rotate_left; unfold x) | (intro x; refine (fun _ => ?_ : Kept rr s0 x.2 → _) ?_; rotate_left; unfold x) | (intro x; clear_value x) | intro x | with_reducible apply wr_kept | with_reducible apply updSeq_kept | with_reducible apply ite_kept | split

theorem pairEntries_kept {rr : Bool} {s0 s : State} (hk : Kept rr s0 s) : Kept rr s0 (pairEntries s) := by
  delta pairEntries
  repeat' first | with_reducible assumption | (intro x; refine (fun _ => ?_ : Kept rr s0 x → _) ?_; rotate_left; unfold x) | (intro x; refine (fun _ => ?_ : Kept rr s0 x.2 → _) ?_; rotate_left; unfold x) | (intro x; clear_value x) | intro x | with_reducible apply wr_kept | with_reducible apply entStarted_kept | with_reducible apply updAdc_kept | with_reducible apply each_kept | split

theorem adcCatch_kept {rr : Bool} {s0 s : State} (f lim : Nat) (hk : Kept rr s0 s) : Kept rr s0 (adcCatch f lim s) := by
  induction f generalizing s with
  | zero => exact hk
  | succ f ih =>
    have hp := pairEntries_kept hk
    unfold adcCatch
    dsimp only
    split
    · apply ih
      repeat' first | with_reducible assumption | with_reducible apply entStarted_kept | with_reducible apply beginConv_kept
    · exact hp

theorem adcNow_kept {rr : Bool} {s0 s : State} (hk : Kept rr s0 s) : Kept rr s0 (adcNow s) := by
  delta adcNow
  repeat' first | with_reducible assumption | (intro x; refine (fun _ => ?_ : Kept rr s0 x → _) ?_; rotate_left; unfold x) | (intro x; refine (fun _ => ?_ : Kept rr s0 x.2 → _) ?_; rotate_left; unfold x) | (intro x; clear_value x) | intro x | with_reducible apply wr_kept | with_reducible apply adcCatch_kept | with_reducible apply ite_kept | split

theorem showSeq_kept {rr : Bool} {s0 s : State} (q : Nat) (hk : Kept rr s0 s) : Kept rr s0 (showSeq q s) := by
  delta showSeq
  repeat' first | with_reducible assumption | (intro x; refine (fun _ => ?_ : Kept rr s0 x → _) ?_; rotate_left; unfold x) | (intro x; refine (fun _ => ?_ : Kept rr s0 x.2 → _) ?_; rotate_left; unfold x) | (intro x; clear_value x) | intro x | with_reducible apply wr_kept | with_reducible apply ite_kept | split | lift_lets

theorem startRun_kept {rr : Bool} {s0 s : State} (q : Nat) (period : Option Nat) (hk : Kept rr s0 s) : Kept rr s0 (startRun q period s) := by
  delta startRun
  repeat' first | with_reducible assumption | (intro x; refine (fun _ => ?_ : Kept rr s0 x → _) ?_; rotate_left; unfold x) | (intro x; refine (fun _ => ?_ : Kept rr s0 x.2 → _) ?_; rotate_left; unfold x) | (intro x; clear_value x) | intro x | with_reducible apply wr_kept | with_reducible apply showSeq_kept | with_reducible apply updSeq_kept | lift_lets

theorem closeRun_kept {rr : Bool} {s0 s : State} (q : Nat) (hk : Kept rr s0 s) : Kept rr s0 (closeRun q s) := by
  delta closeRun
  repeat' first | with_reducible assumption | (intro x; refine (fun _ => ?_ : Kept rr s0 x → _) ?_; rotate_left; unfold x) | (intro x; refine (fun _ => ?_ : Kept rr s0 x.2 → _) ?_; rotate_left; unfold x) | (intro x; clear_value x) | intro x | with_reducible apply wr_kept | with_reducible apply showSeq_kept | with_reducible apply updSeq_kept | with_reducible apply ite_kept | split | lift_lets

theorem trigSeq_kept {rr : Bool} {s0 s : State} (q : Nat) (hk : Kept rr s0 s) : Kept rr s0 (trigSeq q s) := by
  delta trigSeq
  repeat' first | with_reducible assumption | (intro x; refine (fun _ => ?_ : Kept rr s0 x → _) ?_; rotate_left; unfold x) | (intro x; refine (fun _ => ?_ : Kept rr s0 x.2 → _) ?_; rotate_left; unfold x) | (intro x; clear_value x) | intro x | with_reducible apply wr_kept | with_reducible apply startRun_kept | with_reducible apply showSeq_kept | with_reducible apply updSeq_kept | with_reducible apply bump_kept | with_reducible apply ite_kept | split

theorem chainNext_kept {rr : Bool} {s0 s : State} (q : Nat) (hk : Kept rr s0 s) : Kept rr s0 (chainNext q s) := by
  delta chainNext
  repeat' first | with_reducible assumption | (intro x; refine (fun _ => ?_ : Kept rr s0 x → _) ?_; rotate_left; unfold x) | (intro x; refine (fun _ => ?_ : Kept rr s0 x.2 → _) ?_; rotate_left; unfold x) | (intro x; clear_value x) | intro x | with_reducible apply wr_kept | with_reducible apply trigSeq_kept | with_reducible apply ite_kept | split

theorem runEnd_kept {rr : Bool} {s0 s : State} (q : Nat) (hk : Kept rr s0 s) : Kept rr s0 (runEnd q s) := by
  delta runEnd
  repeat' first | with_reducible assumption | (intro x; refine (fun _ => ?_ : Kept rr s0 x → _) ?_; rotate_left; unfold x) | (intro x; refine (fun _ => ?_ : Kept rr s0 x.2 → _) ?_; rotate_left; unfold x) | (intro x; clear_value x) | intro x | with_reducible apply wr_kept | with_reducible apply chainNext_kept | with_reducible apply closeRun_kept | with_reducible apply startRun_kept | with_reducible apply updSeq_kept | with_reducible apply ite_kept | split | lift_lets

theorem abandonRun_kept {rr : Bool} {s0 s : State} (q : Nat) (hk : Kept rr s0 s) : Kept rr s0 (abandonRun q s) := by
  delta abandonRun
  repeat' first | with_reducible assumption | (intro x; refine (fun _ => ?_ : Kept rr s0 x → _) ?_; rotate_left; unfold x) | (intro x; refine (fun _ => ?_ : Kept rr s0 x.2 → _) ?_; rotate_left; unfold x) | (intro x; clear_value x) | intro x | with_reducible apply wr_kept | with_reducible apply updSeq_kept | with_reducible apply updAdc_kept | with_reducible apply each_kept | split | lift_lets

theorem stopSeq_kept {rr : Bool} {s0 s : State} (q : Nat) (off : Bool) (hk : Kept rr s0 s) : Kept rr s0 (stopSeq q off s) := by
  delta stopSeq
  repeat' first | with_reducible assumption | (intro x; refine (fun _ => ?_ : Kept rr s0 x → _) ?_; rotate_left; unfold x) | (intro x; refine (fun _ => ?_ : Kept rr s0 x.2 → _) ?_; rotate_left; unfold x) | (intro x; clear_value x) | intro x | with_reducible apply wr_kept | with_reducible apply abandonRun_kept | with_reducible apply runEnd_kept | with_reducible apply showSeq_kept | with_reducible apply adcNow_kept | with_reducible apply updSeq_kept | lift_lets

theorem showSettle_kept {rr : Bool} {s0 s : State} (n : Nat) (hk : Kept rr s0 s) : Kept rr s0 (showSettle n s) := by
  delta showSettle
  repeat' first | with_reducible assumption | (intro x; refine (fun _ => ?_ : Kept rr s0 x → _) ?_; rotate_left; unfold x) | (intro x; refine (fun _ => ?_ : Kept rr s0 x.2 → _) ?_; rotate_left; unfold x) | (intro x; clear_value x) | intro x | with_reducible apply wr_kept | with_reducible apply wrBit_kept | with_reducible apply ite_kept | split

theorem openSettle_kept {rr : Bool} {s0 s : State} (n from_ to_ : Nat) (hk : Kept rr s0 s) : Kept rr s0 (openSettle n from_ to_ s) := by
  delta openSettle
  repeat' first | with_reducible assumption | (intro x; refine (fun _ => ?_ : Kept rr s0 x → _) ?_; rotate_left; unfold x) | (intro x; refine (fun _ => ?_ : Kept rr s0 x.2 → _) ?_; rotate_left; unfold x) | (intro x; refine (fun _ => ?_ : Kept rr s0 x.2.2 → _) ?_; rotate_left; unfold x) | (intro x; clear_value x) | intro x | with_reducible apply wr_kept | with_reducible apply showSettle_kept | with_reducible apply updAdc_kept | with_reducible apply settle_kept | lift_lets

theorem codeOf_kept {rr : Bool} {s0 s : State} (phys n : Nat) (cs : List (Int × Nat)) (hk : Kept rr s0 s) : Kept rr s0 (codeOf phys n cs s).2 := by
  delta codeOf
  repeat' first | with_reducible assumption | (intro x; refine (fun _ => ?_ : Kept rr s0 x → _) ?_; rotate_left; unfold x) | (intro x; refine (fun _ => ?_ : Kept rr s0 x.2 → _) ?_; rotate_left; unfold x) | (intro x; clear_value x) | intro x | with_reducible apply wr_kept | with_reducible apply takeFree_kept | with_reducible apply ite_kept | with_reducible apply ite2_kept | split | lift_lets

theorem keepGood_kept {rr : Bool} {s0 s : State} (n w : Nat) (code : Int) (hk : Kept rr s0 s) : Kept rr s0 (keepGood n w code s) := by
  delta keepGood
  repeat' first | with_reducible assumption | (intro x; refine (fun _ => ?_ : Kept rr s0 x → _) ?_; rotate_left; unfold x) | (intro x; refine (fun _ => ?_ : Kept rr s0 x.2 → _) ?_; rotate_left; unfold x) | (intro x; clear_value x) | intro x | with_reducible apply wr_kept | with_reducible apply updAdc_kept | with_reducible apply ite_kept | split

theorem putResult_kept {rr : Bool} {s0 s : State} (q e run phys n sample : Nat) (clip opn settling : Bool) (code : Int) (hk : Kept rr s0 s) : Kept rr s0 (putResult q e run phys n sample clip opn settling code s) := by
  delta putResult
  repeat' first | with_reducible assumption | (intro x; refine (fun _ => ?_ : Kept rr s0 x → _) ?_; rotate_left; unfold x) | (intro x; refine (fun _ => ?_ : Kept rr s0 x.2 → _) ?_; rotate_left; unfold x) | (intro x; clear_value x) | intro x | with_reducible apply wr_kept | with_reducible apply keepGood_kept | with_reducible apply updSeq_kept | with_reducible apply acqSource_kept | with_reducible apply ite_kept | split | lift_lets

theorem owResult_kept {rr : Bool} {s0 s : State} (n : Nat) (clip : Bool) (code : Int) (hk : Kept rr s0 s) : Kept rr s0 (owResult n clip code s) := by
  delta owResult
  repeat' first | with_reducible assumption | (intro x; refine (fun _ => ?_ : Kept rr s0 x → _) ?_; rotate_left; unfold x) | (intro x; refine (fun _ => ?_ : Kept rr s0 x.2 → _) ?_; rotate_left; unfold x) | (intro x; clear_value x) | intro x | with_reducible apply wr_kept | with_reducible apply updAdc_kept | with_reducible apply setLive_kept | with_reducible apply wrBit_kept | with_reducible apply ite_kept | split | lift_lets

theorem updCalState_kept {rr : Bool} {s0 s : State} (hk : Kept rr s0 s) : Kept rr s0 (updCalState s) := by
  delta updCalState
  repeat' first | with_reducible assumption | (intro x; refine (fun _ => ?_ : Kept rr s0 x → _) ?_; rotate_left; unfold x) | (intro x; refine (fun _ => ?_ : Kept rr s0 x.2 → _) ?_; rotate_left; unfold x) | (intro x; clear_value x) | intro x | with_reducible apply wr_kept | with_reducible apply ite_kept | split | lift_lets

theorem adcMapOut_kept {rr : Bool} {s0 s : State} (p phase : Nat) (hk : Kept rr s0 s) : Kept rr s0 (adcMapOut p phase s) := by
  delta adcMapOut
  repeat' first | with_reducible assumption | (intro x; refine (fun _ => ?_ : Kept rr s0 x → _) ?_; rotate_left; unfold x) | (intro x; refine (fun _ => ?_ : Kept rr s0 x.2 → _) ?_; rotate_left; unfold x) | (intro x; clear_value x) | intro x | with_reducible apply wr_kept | with_reducible apply updCalState_kept | with_reducible apply setSlice_kept | with_reducible apply updAdc_kept | with_reducible apply mapOutSpare_kept | with_reducible apply mapOut_kept | with_reducible apply wrBit_kept | with_reducible apply ite_kept | split | lift_lets

theorem swapCompare_kept {rr : Bool} {s0 s : State} (l ph n e x : Nat) (code : Int) (shadow : List (Int × Nat)) (hk : Kept rr s0 s) : Kept rr s0 (swapCompare l ph n e x code shadow s) := by
  delta swapCompare
  repeat' first | with_reducible assumption | (intro x; refine (fun _ => ?_ : Kept rr s0 x → _) ?_; rotate_left; unfold x) | (intro x; refine (fun _ => ?_ : Kept rr s0 x.2 → _) ?_; rotate_left; unfold x) | (intro x; clear_value x) | intro x | with_reducible apply wr_kept | with_reducible apply adcMapOut_kept | with_reducible apply codeOf_kept | with_reducible apply setSlice_kept | with_reducible apply updAdc_kept | with_reducible apply bump_kept | with_reducible apply ite_kept | with_reducible apply ite2_kept | split | lift_lets

theorem applyChange_kept {rr : Bool} {s0 s : State} (n t : Nat) (hk : Kept rr s0 s) : Kept rr s0 (applyChange n t s) := by
  delta applyChange
  repeat' first | with_reducible assumption | (intro x; refine (fun _ => ?_ : Kept rr s0 x → _) ?_; rotate_left; unfold x) | (intro x; refine (fun _ => ?_ : Kept rr s0 x.2 → _) ?_; rotate_left; unfold x) | (intro x; clear_value x) | intro x | with_reducible apply wr_kept | with_reducible apply openSettle_kept | with_reducible apply updAdc_kept | with_reducible apply ite_kept | split | lift_lets

theorem cellTakes_kept {rr : Bool} {s0 s : State} (c : AdcConv) (hk : Kept rr s0 s) : Kept rr s0 (cellTakes c s) := by
  delta cellTakes
  repeat' first | with_reducible assumption | (intro x; refine (fun _ => ?_ : Kept rr s0 x → _) ?_; rotate_left; unfold x) | (intro x; refine (fun _ => ?_ : Kept rr s0 x.2 → _) ?_; rotate_left; unfold x) | (intro x; clear_value x) | intro x | with_reducible apply wr_kept | with_reducible apply cellSampled_kept | with_reducible apply ite_kept | split

theorem deliver_kept {rr : Bool} {s0 s : State} (c : AdcConv) (cs shadow : List Int) (sat : Bool) (hk : Kept rr s0 s) : Kept rr s0 (deliver c cs shadow sat s) := by
  delta deliver
  repeat' first | with_reducible assumption | (intro x; refine (fun _ => ?_ : Kept rr s0 x → _) ?_; rotate_left; unfold x) | (intro x; refine (fun _ => ?_ : Kept rr s0 x.2 → _) ?_; rotate_left; unfold x) | (intro x; clear_value x) | intro x | with_reducible apply wr_kept | with_reducible apply cellTakes_kept | with_reducible apply applyChange_kept | with_reducible apply swapCompare_kept | with_reducible apply owResult_kept | with_reducible apply putResult_kept | with_reducible apply keepGood_kept | with_reducible apply codeOf_kept | with_reducible apply showSettle_kept | with_reducible apply updAdc_kept | with_reducible apply ite_kept | with_reducible apply ite2_kept | split | lift_lets

theorem stampPaired_kept {rr : Bool} {s0 s : State} (q e run t : Nat) (hk : Kept rr s0 s) : Kept rr s0 (stampPaired q e run t s) := by
  delta stampPaired
  repeat' first | with_reducible assumption | (intro x; refine (fun _ => ?_ : Kept rr s0 x → _) ?_; rotate_left; unfold x) | (intro x; refine (fun _ => ?_ : Kept rr s0 x.2 → _) ?_; rotate_left; unfold x) | (intro x; clear_value x) | intro x | with_reducible apply wr_kept | with_reducible apply updSeq_kept | with_reducible apply ite_kept | split

theorem pairServe_kept {rr : Bool} {s0 s : State} (p n t ph : Nat) (clip set_ : Bool) (code : Int) (hk : Kept rr s0 s) : Kept rr s0 (pairServe p n t ph clip set_ code s) := by
  delta pairServe
  repeat' first | with_reducible assumption | (intro x; refine (fun _ => ?_ : Kept rr s0 x → _) ?_; rotate_left; unfold x) | (intro x; refine (fun _ => ?_ : Kept rr s0 x.2 → _) ?_; rotate_left; unfold x) | (intro x; refine (fun _ => ?_ : Kept rr s0 x.2.2 → _) ?_; rotate_left; unfold x) | (intro x; refine (fun _ => ?_ : Kept rr s0 x.2.2.2 → _) ?_; rotate_left; unfold x) | (intro x; clear_value x) | intro x | with_reducible apply wr_kept | with_reducible apply stampPaired_kept | with_reducible apply putResult_kept | with_reducible apply updAdc_kept | with_reducible apply each_kept | lift_lets

theorem pairShadow_kept {rr : Bool} {s0 s : State} (n t l ph : Nat) (code : Int) (shadow : List (Int × Nat)) (hk : Kept rr s0 s) : Kept rr s0 (pairShadow n t l ph code shadow s) := by
  delta pairShadow
  repeat' first | with_reducible assumption | (intro x; refine (fun _ => ?_ : Kept rr s0 x → _) ?_; rotate_left; unfold x) | (intro x; refine (fun _ => ?_ : Kept rr s0 x.2 → _) ?_; rotate_left; unfold x) | (intro x; clear_value x) | intro x | with_reducible apply wr_kept | with_reducible apply swapCompare_kept | with_reducible apply updAdc_kept | with_reducible apply ite_kept | split

theorem pairPut_kept {rr : Bool} {s0 s : State} (p n t w : Nat) (code : Int) (hk : Kept rr s0 s) : Kept rr s0 (pairPut p n t w code s) := by
  delta pairPut
  repeat' first | with_reducible assumption | (intro x; refine (fun _ => ?_ : Kept rr s0 x → _) ?_; rotate_left; unfold x) | (intro x; refine (fun _ => ?_ : Kept rr s0 x.2 → _) ?_; rotate_left; unfold x) | (intro x; clear_value x) | intro x | with_reducible apply wr_kept | with_reducible apply keepGood_kept | with_reducible apply acqSource_kept | with_reducible apply ite_kept | split

theorem pairTake_kept {rr : Bool} {s0 s : State} (p n t l ph : Nat) (cs shadow : List Int) (sat : Bool) (hk : Kept rr s0 s) : Kept rr s0 (pairTake p n t l ph cs shadow sat s) := by
  delta pairTake
  repeat' first | with_reducible assumption | (intro x; refine (fun _ => ?_ : Kept rr s0 x → _) ?_; rotate_left; unfold x) | (intro x; refine (fun _ => ?_ : Kept rr s0 x.2 → _) ?_; rotate_left; unfold x) | (intro x; clear_value x) | intro x | with_reducible apply wr_kept | with_reducible apply pairPut_kept | with_reducible apply pairShadow_kept | with_reducible apply pairServe_kept | with_reducible apply codeOf_kept | with_reducible apply updAdc_kept | with_reducible apply advVt_kept | with_reducible apply takeFree_kept | lift_lets

theorem pairSample_kept {rr : Bool} {s0 s : State} (p : Nat) (cs shadow : List Int) (sat : Bool) (hk : Kept rr s0 s) : Kept rr s0 (pairSample p cs shadow sat s) := by
  delta pairSample
  repeat' first | with_reducible assumption | (intro x; refine (fun _ => ?_ : Kept rr s0 x → _) ?_; rotate_left; unfold x) | (intro x; refine (fun _ => ?_ : Kept rr s0 x.2 → _) ?_; rotate_left; unfold x) | (intro x; clear_value x) | intro x | with_reducible apply wr_kept | with_reducible apply pairTake_kept | with_reducible apply updAdc_kept | split | lift_lets

theorem convEnd_kept {rr : Bool} {s0 s : State} (l : Nat) (cs shadow : List Int) (sat : Bool) (hk : Kept rr s0 s) : Kept rr s0 (convEnd l cs shadow sat s) := by
  delta convEnd
  repeat' first | with_reducible assumption | (intro x; refine (fun _ => ?_ : Kept rr s0 x → _) ?_; rotate_left; unfold x) | (intro x; refine (fun _ => ?_ : Kept rr s0 x.2 → _) ?_; rotate_left; unfold x) | (intro x; clear_value x) | intro x | with_reducible apply wr_kept | with_reducible apply pairSample_kept | with_reducible apply deliver_kept | with_reducible apply adcNow_kept | with_reducible apply advVt_kept | split | lift_lets

theorem setRounds_kept {rr : Bool} {s0 s : State} (p : Nat) (hk : Kept rr s0 s) : Kept rr s0 (setRounds p s) := by
  delta setRounds
  repeat' first | with_reducible assumption | (intro x; refine (fun _ => ?_ : Kept rr s0 x → _) ?_; rotate_left; unfold x) | (intro x; refine (fun _ => ?_ : Kept rr s0 x.2 → _) ?_; rotate_left; unfold x) | (intro x; refine (fun _ => ?_ : Kept rr s0 x.2.2 → _) ?_; rotate_left; unfold x) | (intro x; refine (fun _ => ?_ : Kept rr s0 x.2.2.2 → _) ?_; rotate_left; unfold x) | (intro x; clear_value x) | intro x | with_reducible apply wr_kept | with_reducible apply updAdc_kept | with_reducible apply release_kept | with_reducible apply ite_kept | split | lift_lets

theorem seqPMark_kept {rr : Bool} {s0 s : State} (k q : Nat) (hk : Kept rr s0 s) : Kept rr s0 (seqPMark k q s) := by
  delta seqPMark
  repeat' first | with_reducible assumption | (intro x; refine (fun _ => ?_ : Kept rr s0 x → _) ?_; rotate_left; unfold x) | (intro x; refine (fun _ => ?_ : Kept rr s0 x.2 → _) ?_; rotate_left; unfold x) | (intro x; clear_value x) | intro x | with_reducible apply wr_kept | with_reducible apply abandonRun_kept | with_reducible apply runEnd_kept | with_reducible apply chainNext_kept | with_reducible apply startRun_kept | with_reducible apply bump_kept | with_reducible apply ite_kept | split | lift_lets

theorem adcPMark_kept {rr : Bool} {s0 s : State} (k : Nat) (hk : Kept rr s0 s) : Kept rr s0 (adcPMark k s) := by
  delta adcPMark
  repeat' first | with_reducible assumption | (intro x; refine (fun _ => ?_ : Kept rr s0 x → _) ?_; rotate_left; unfold x) | (intro x; refine (fun _ => ?_ : Kept rr s0 x.2 → _) ?_; rotate_left; unfold x) | (intro x; refine (fun _ => ?_ : Kept rr s0 x.2.2 → _) ?_; rotate_left; unfold x) | (intro x; clear_value x) | intro x | with_reducible apply wr_kept | with_reducible apply seqPMark_kept | with_reducible apply setRounds_kept | with_reducible apply updCalState_kept | with_reducible apply adcNow_kept | with_reducible apply entStarted_kept | with_reducible apply updAdc_kept | with_reducible apply each_kept | with_reducible apply ite_kept | split | lift_lets

theorem adcLoad_kept {rr : Bool} {s0 s : State} (hk : Kept rr s0 s) : Kept rr s0 (adcLoad s) := by
  delta adcLoad
  repeat' first | with_reducible assumption | (intro x; refine (fun _ => ?_ : Kept rr s0 x → _) ?_; rotate_left; unfold x) | (intro x; refine (fun _ => ?_ : Kept rr s0 x.2 → _) ?_; rotate_left; unfold x) | (intro x; clear_value x) | intro x | with_reducible apply wr_kept | with_reducible apply updAdc_kept | with_reducible apply ite_kept | split | lift_lets

theorem adcWritten_kept {rr : Bool} {s0 s : State} (k : Nat) (hk : Kept rr s0 s) : Kept rr s0 (adcWritten k s) := by
  delta adcWritten
  repeat' first | with_reducible assumption | (intro x; refine (fun _ => ?_ : Kept rr s0 x → _) ?_; rotate_left; unfold x) | (intro x; refine (fun _ => ?_ : Kept rr s0 x.2 → _) ?_; rotate_left; unfold x) | (intro x; clear_value x) | intro x | with_reducible apply wr_kept | with_reducible apply updCalState_kept | with_reducible apply updAdc_kept | with_reducible apply ite_kept | split | lift_lets

end Sys2Proof.Machine
end

