-- ==== Sys2Proof/Laws/KAcq.lean ====
section
/-! SUPPORT. What the operations of Machine/Acq.lean keep. -/
set_option linter.all false
namespace Sys2Proof.Machine

theorem acqChecked_kept {rr : Bool} {s0 s : State} (hk : Kept rr s0 s) : Kept rr s0 (acqChecked s) := by
  delta acqChecked
  repeat' first | with_reducible assumption | (intro x; refine (fun _ => ?_ : Kept rr s0 x → _) ?_; rotate_left; unfold x) | (intro x; refine (fun _ => ?_ : Kept rr s0 x.2 → _) ?_; rotate_left; unfold x) | (intro x; clear_value x) | intro x | with_reducible apply wr_kept | with_reducible apply acqCheck_kept | with_reducible apply ite_kept | split

theorem writeAcqCmd_kept {rr : Bool} {s0 s : State} (v : Nat) (hk : Kept rr s0 s) : Kept rr s0 (writeAcqCmd v s).2 := by
  delta writeAcqCmd
  repeat' first | with_reducible assumption | (intro x; refine (fun _ => ?_ : Kept rr s0 x → _) ?_; rotate_left; unfold x) | (intro x; refine (fun _ => ?_ : Kept rr s0 x.2 → _) ?_; rotate_left; unfold x) | (intro x; clear_value x) | intro x | with_reducible apply wr_kept | with_reducible apply acqChecked_kept | with_reducible apply done_kept | with_reducible apply writeBy_kept | with_reducible apply updAcq_kept | lift_lets

theorem acqStop_kept {rr : Bool} {s0 s : State} (hk : Kept rr s0 s) : Kept rr s0 (acqStop s) := by
  delta acqStop
  repeat' first | with_reducible assumption | (intro x; refine (fun _ => ?_ : Kept rr s0 x → _) ?_; rotate_left; unfold x) | (intro x; refine (fun _ => ?_ : Kept rr s0 x.2 → _) ?_; rotate_left; unfold x) | (intro x; clear_value x) | intro x | with_reducible apply wr_kept | with_reducible apply endRecord_kept | with_reducible apply updAcq_kept | with_reducible apply ite_kept | split

theorem acqArmed_kept {rr : Bool} {s0 s : State} (hk : Kept rr s0 s) : Kept rr s0 (acqArmed s) := by
  delta acqArmed
  repeat' first | with_reducible assumption | (intro x; refine (fun _ => ?_ : Kept rr s0 x → _) ?_; rotate_left; unfold x) | (intro x; refine (fun _ => ?_ : Kept rr s0 x.2 → _) ?_; rotate_left; unfold x) | (intro x; clear_value x) | intro x | with_reducible apply wr_kept | with_reducible apply ite_kept | split

theorem regrid_kept {rr : Bool} {s0 s : State} (hk : Kept rr s0 s) : Kept rr s0 (regrid s) := by
  delta regrid
  repeat' first | with_reducible assumption | (intro x; refine (fun _ => ?_ : Kept rr s0 x → _) ?_; rotate_left; unfold x) | (intro x; refine (fun _ => ?_ : Kept rr s0 x.2 → _) ?_; rotate_left; unfold x) | (intro x; clear_value x) | intro x | with_reducible apply wr_kept | with_reducible apply updAcq_kept | lift_lets

theorem setLim_kept {rr : Bool} {s0 s : State} (x : Nat) (hk : Kept rr s0 s) : Kept rr s0 (setLim x s) := by
  delta setLim
  repeat' first | with_reducible assumption | (intro x; refine (fun _ => ?_ : Kept rr s0 x → _) ?_; rotate_left; unfold x) | (intro x; refine (fun _ => ?_ : Kept rr s0 x.2 → _) ?_; rotate_left; unfold x) | (intro x; clear_value x) | intro x | with_reducible apply wr_kept | with_reducible apply updAcq_kept | with_reducible apply ite_kept | split

theorem rowStep1_kept {rr : Bool} {s0 s : State} (arm stop : Bool) (hk : Kept rr s0 s) : Kept rr s0 (rowStep1 arm stop s) := by
  delta rowStep1
  repeat' first | with_reducible assumption | (intro x; refine (fun _ => ?_ : Kept rr s0 x → _) ?_; rotate_left; unfold x) | (intro x; refine (fun _ => ?_ : Kept rr s0 x.2 → _) ?_; rotate_left; unfold x) | (intro x; clear_value x) | intro x | with_reducible apply wr_kept | with_reducible apply acqStop_kept | with_reducible apply acqComplete_kept | with_reducible apply armRecord_kept | with_reducible apply ite_kept | split | lift_lets

theorem rowAt_kept {rr : Bool} {s0 s : State} (t dur : Nat) (hk : Kept rr s0 s) : Kept rr s0 (rowAt t dur s) := by
  delta rowAt
  repeat' first | with_reducible assumption | (intro x; refine (fun _ => ?_ : Kept rr s0 x → _) ?_; rotate_left; unfold x) | (intro x; refine (fun _ => ?_ : Kept rr s0 x.2 → _) ?_; rotate_left; unfold x) | (intro x; clear_value x) | intro x | with_reducible apply wr_kept | with_reducible apply rowStep1_kept | with_reducible apply setLim_kept | with_reducible apply acqArmed_kept | with_reducible apply adcNow_kept | with_reducible apply acqComplete_kept | with_reducible apply acqTrigger_kept | with_reducible apply storeRow_kept | with_reducible apply updAcq_kept | with_reducible apply advVt_kept | with_reducible apply onlyIf_kept | with_reducible apply clearAll_kept | with_reducible apply ite_kept | split | lift_lets

theorem acqRowNow_kept {rr : Bool} {s0 s : State} (hk : Kept rr s0 s) : Kept rr s0 (acqRowNow s) := by
  delta acqRowNow
  repeat' first | with_reducible assumption | (intro x; refine (fun _ => ?_ : Kept rr s0 x → _) ?_; rotate_left; unfold x) | (intro x; refine (fun _ => ?_ : Kept rr s0 x.2 → _) ?_; rotate_left; unfold x) | (intro x; clear_value x) | intro x | with_reducible apply wr_kept | with_reducible apply rowAt_kept | with_reducible apply regrid_kept | with_reducible apply ite_kept | split | lift_lets

theorem patSample_kept {rr : Bool} {s0 s : State} (hk : Kept rr s0 s) : Kept rr s0 (patSample s) := by
  delta patSample
  repeat' first | with_reducible assumption | (intro x; refine (fun _ => ?_ : Kept rr s0 x → _) ?_; rotate_left; unfold x) | (intro x; refine (fun _ => ?_ : Kept rr s0 x.2 → _) ?_; rotate_left; unfold x) | (intro x; clear_value x) | intro x | with_reducible apply wr_kept | with_reducible apply acqTrigger_kept | with_reducible apply updAcq_kept | with_reducible apply ite_kept | split | lift_lets

theorem xtTake_kept {rr : Bool} {s0 s : State} (x : Xtrig) (hk : Kept rr s0 s) : Kept rr s0 (xtTake x s) := by
  delta xtTake
  repeat' first | with_reducible assumption | (intro x; refine (fun _ => ?_ : Kept rr s0 x → _) ?_; rotate_left; unfold x) | (intro x; refine (fun _ => ?_ : Kept rr s0 x.2 → _) ?_; rotate_left; unfold x) | (intro x; clear_value x) | intro x | with_reducible apply wr_kept | with_reducible apply acqTrigger_kept | with_reducible apply updAcq_kept | with_reducible apply bump_kept | with_reducible apply ite_kept | with_reducible apply set_law_kept | split | lift_lets

theorem xtArrive_kept {rr : Bool} {s0 s : State} (n : Nat) (x : Xtrig) (hk : Kept rr s0 s) : Kept rr s0 (xtArrive n x s) := by
  delta xtArrive
  repeat' first | with_reducible assumption | (intro x; refine (fun _ => ?_ : Kept rr s0 x → _) ?_; rotate_left; unfold x) | (intro x; refine (fun _ => ?_ : Kept rr s0 x.2 → _) ?_; rotate_left; unfold x) | (intro x; clear_value x) | intro x | with_reducible apply wr_kept | with_reducible apply xtTake_kept | with_reducible apply xtrigDown_kept | with_reducible apply updAcq_kept | with_reducible apply ite_kept | split | lift_lets

theorem xtDue_kept {rr : Bool} {s0 s : State} (hk : Kept rr s0 s) : Kept rr s0 (xtDue s) := by
  delta xtDue
  repeat' first | with_reducible assumption | (intro x; refine (fun _ => ?_ : Kept rr s0 x → _) ?_; rotate_left; unfold x) | (intro x; refine (fun _ => ?_ : Kept rr s0 x.2 → _) ?_; rotate_left; unfold x) | (intro x; clear_value x) | intro x | with_reducible apply wr_kept | with_reducible apply acqTrigger_kept | with_reducible apply updAcq_kept | with_reducible apply advVt_kept | split | lift_lets

theorem writeRecLock_kept {rr : Bool} {s0 s : State} (v : Nat) (hk : Kept rr s0 s) : Kept rr s0 (writeRecLock v s).2 := by
  delta writeRecLock
  repeat' first | with_reducible assumption | (intro x; refine (fun _ => ?_ : Kept rr s0 x → _) ?_; rotate_left; unfold x) | (intro x; refine (fun _ => ?_ : Kept rr s0 x.2 → _) ?_; rotate_left; unfold x) | (intro x; clear_value x) | intro x | with_reducible apply wr_kept | with_reducible apply acqChecked_kept | with_reducible apply done_kept | with_reducible apply writeBy_kept

theorem writeRecRelease_kept {rr : Bool} {s0 s : State} (v : Nat) (hk : Kept rr s0 s) : Kept rr s0 (writeRecRelease v s).2 := by
  delta writeRecRelease
  repeat' first | with_reducible assumption | (intro x; refine (fun _ => ?_ : Kept rr s0 x → _) ?_; rotate_left; unfold x) | (intro x; refine (fun _ => ?_ : Kept rr s0 x.2 → _) ?_; rotate_left; unfold x) | (intro x; clear_value x) | intro x | with_reducible apply wr_kept | with_reducible apply acqChecked_kept | with_reducible apply done_kept | with_reducible apply writeBy_kept | with_reducible apply ite_kept | with_reducible apply ite2_kept | split | lift_lets

theorem freeSlots_kept {rr : Bool} {s0 s : State} (hk : Kept rr s0 s) : Kept rr s0 (freeSlots s) := by
  delta freeSlots
  repeat' first | with_reducible assumption | (intro x; refine (fun _ => ?_ : Kept rr s0 x → _) ?_; rotate_left; unfold x) | (intro x; refine (fun _ => ?_ : Kept rr s0 x.2 → _) ?_; rotate_left; unfold x) | (intro x; clear_value x) | intro x | with_reducible apply wr_kept | with_reducible apply each_kept

theorem writeAcqMem_kept {rr : Bool} {s0 s : State} (item v : Nat) (hk : Kept rr s0 s) : Kept rr s0 (writeAcqMem item v s).2 := by
  delta writeAcqMem
  repeat' first | with_reducible assumption | (intro x; refine (fun _ => ?_ : Kept rr s0 x → _) ?_; rotate_left; unfold x) | (intro x; refine (fun _ => ?_ : Kept rr s0 x.2 → _) ?_; rotate_left; unfold x) | (intro x; clear_value x) | intro x | with_reducible apply wr_kept | with_reducible apply freeSlots_kept | with_reducible apply done_kept | with_reducible apply writeBy_kept | with_reducible apply acqCheck_kept | with_reducible apply ite_kept | with_reducible apply ite2_kept | split | lift_lets

theorem ddrLost_kept {rr : Bool} {s0 s : State} (hk : Kept rr s0 s) : Kept rr s0 (ddrLost s) := by
  delta ddrLost
  repeat' first | with_reducible assumption | (intro x; refine (fun _ => ?_ : Kept rr s0 x → _) ?_; rotate_left; unfold x) | (intro x; refine (fun _ => ?_ : Kept rr s0 x.2 → _) ?_; rotate_left; unfold x) | (intro x; clear_value x) | intro x | with_reducible apply wr_kept | with_reducible apply domainLost_kept | with_reducible apply recorderLost_kept | with_reducible apply ite_kept | split

theorem acqWritten_kept {rr : Bool} {s0 s : State} (k : Nat) (hk : Kept rr s0 s) : Kept rr s0 (acqWritten k s) := by
  delta acqWritten
  repeat' first | with_reducible assumption | (intro x; refine (fun _ => ?_ : Kept rr s0 x → _) ?_; rotate_left; unfold x) | (intro x; refine (fun _ => ?_ : Kept rr s0 x.2 → _) ?_; rotate_left; unfold x) | (intro x; clear_value x) | intro x | with_reducible apply wr_kept | with_reducible apply regrid_kept | with_reducible apply acqCheck_kept | with_reducible apply onlyIf_kept | with_reducible apply ite_kept | split | lift_lets

end Sys2Proof.Machine
end

