-- ==== Sys2Proof/Laws/KOpsLag.lean ====
section
/-! SUPPORT. What the operations of Machine/OpsLag.lean keep. -/
set_option linter.all false
namespace Sys2Proof.Machine

theorem lagStatus_kept {rr : Bool} {s0 s : State} (hk : Kept rr s0 s) : Kept rr s0 (lagStatus s) := by
  delta lagStatus
  repeat' first | with_reducible assumption | (intro x; refine (fun _ => ?_ : Kept rr s0 x → _) ?_; rotate_left; unfold x) | (intro x; refine (fun _ => ?_ : Kept rr s0 x.2 → _) ?_; rotate_left; unfold x) | (intro x; clear_value x) | intro x | with_reducible apply wr_kept | with_reducible apply setLive_kept | with_reducible apply ite_kept | split | lift_lets

theorem noticePeer_kept {rr : Bool} {s0 s : State} (k : Nat) (hk : Kept rr s0 s) : Kept rr s0 (noticePeer k s) := by
  delta noticePeer
  repeat' first | with_reducible assumption | (intro x; refine (fun _ => ?_ : Kept rr s0 x → _) ?_; rotate_left; unfold x) | (intro x; refine (fun _ => ?_ : Kept rr s0 x.2 → _) ?_; rotate_left; unfold x) | (intro x; clear_value x) | intro x | with_reducible apply wr_kept | with_reducible apply sendToNode_kept | with_reducible apply set_rem_kept | lift_lets

theorem sendFigures_kept {rr : Bool} {s0 s : State} (hk : Kept rr s0 s) : Kept rr s0 (sendFigures s) := by
  delta sendFigures
  repeat' first | with_reducible assumption | (intro x; refine (fun _ => ?_ : Kept rr s0 x → _) ?_; rotate_left; unfold x) | (intro x; refine (fun _ => ?_ : Kept rr s0 x.2 → _) ?_; rotate_left; unfold x) | (intro x; clear_value x) | intro x | with_reducible apply wr_kept | with_reducible apply noticePeer_kept | with_reducible apply ite_kept | split

theorem lagRecompute_kept {rr : Bool} {s0 s : State} (hk : Kept rr s0 s) : Kept rr s0 (lagRecompute s) := by
  delta lagRecompute
  repeat' first | with_reducible assumption | (intro x; refine (fun _ => ?_ : Kept rr s0 x → _) ?_; rotate_left; unfold x) | (intro x; refine (fun _ => ?_ : Kept rr s0 x.2 → _) ?_; rotate_left; unfold x) | (intro x; clear_value x) | intro x | with_reducible apply wr_kept | with_reducible apply sendFigures_kept | with_reducible apply lagStatus_kept | with_reducible apply buildSet_kept | with_reducible apply ite_kept | with_reducible apply set_tree_kept | split | lift_lets

theorem enumRefuse_kept {rr : Bool} {s0 s : State} (c : Nat) (hk : Kept rr s0 s) : Kept rr s0 (enumRefuse c s) := by
  delta enumRefuse
  repeat' first | with_reducible assumption | (intro x; refine (fun _ => ?_ : Kept rr s0 x → _) ?_; rotate_left; unfold x) | (intro x; refine (fun _ => ?_ : Kept rr s0 x.2 → _) ?_; rotate_left; unfold x) | (intro x; clear_value x) | intro x | with_reducible apply wr_kept | with_reducible apply ite_kept | split | lift_lets

theorem nodeJoin_kept {rr : Bool} {s0 s : State} (link : Nat) (hk : Kept rr s0 s) : Kept rr s0 (nodeJoin link s) := by
  unfold nodeJoin
  split
  · exact hk
  split
  · exact enumRefuse_kept _ hk
  split
  · exact hk
  split
  · exact set_tree_kept hk
  split
  · exact enumRefuse_kept _ hk
  split
  · exact enumRefuse_kept _ hk
  · exact wr_kept _ _ (wr_kept _ _ (set_tree_kept hk))

end Sys2Proof.Machine
end

