-- ==== Sys2Proof/Laws/KOpsLnk.lean ====
section
/-! SUPPORT. What the operations of Machine/OpsLnk.lean keep. -/
set_option linter.all false
namespace Sys2Proof.Machine

theorem updLaneDown_kept {rr : Bool} {s0 s : State} (n : Nat) (hk : Kept rr s0 s) : Kept rr s0 (updLaneDown n s) := by
  delta updLaneDown
  repeat' first | with_reducible assumption | (intro x; refine (fun _ => ?_ : Kept rr s0 x → _) ?_; rotate_left; unfold x) | (intro x; refine (fun _ => ?_ : Kept rr s0 x.2 → _) ?_; rotate_left; unfold x) | (intro x; clear_value x) | intro x | with_reducible apply wr_kept | with_reducible apply setLive_kept

theorem updWiring_kept {rr : Bool} {s0 s : State} (hk : Kept rr s0 s) : Kept rr s0 (updWiring s) := by
  delta updWiring
  repeat' first | with_reducible assumption | (intro x; refine (fun _ => ?_ : Kept rr s0 x → _) ?_; rotate_left; unfold x) | (intro x; refine (fun _ => ?_ : Kept rr s0 x.2 → _) ?_; rotate_left; unfold x) | (intro x; clear_value x) | intro x | with_reducible apply wr_kept | with_reducible apply setLive_kept

theorem updPeerLost_kept {rr : Bool} {s0 s : State} (hk : Kept rr s0 s) : Kept rr s0 (updPeerLost s) := by
  delta updPeerLost
  repeat' first | with_reducible assumption | (intro x; refine (fun _ => ?_ : Kept rr s0 x → _) ?_; rotate_left; unfold x) | (intro x; refine (fun _ => ?_ : Kept rr s0 x.2 → _) ?_; rotate_left; unfold x) | (intro x; clear_value x) | intro x | with_reducible apply wr_kept | with_reducible apply setLive_kept | with_reducible apply ite_kept | split | lift_lets

theorem updSplit_kept {rr : Bool} {s0 s : State} (k : Nat) (hk : Kept rr s0 s) : Kept rr s0 (updSplit k s) := by
  delta updSplit
  repeat' first | with_reducible assumption | (intro x; refine (fun _ => ?_ : Kept rr s0 x → _) ?_; rotate_left; unfold x) | (intro x; refine (fun _ => ?_ : Kept rr s0 x.2 → _) ?_; rotate_left; unfold x) | (intro x; clear_value x) | intro x | with_reducible apply wr_kept | with_reducible apply setLive_kept | with_reducible apply wrBit_kept | lift_lets

theorem updPiste_kept {rr : Bool} {s0 s : State} (k : Nat) (hk : Kept rr s0 s) : Kept rr s0 (updPiste k s) := by
  delta updPiste
  repeat' first | with_reducible assumption | (intro x; refine (fun _ => ?_ : Kept rr s0 x → _) ?_; rotate_left; unfold x) | (intro x; refine (fun _ => ?_ : Kept rr s0 x.2 → _) ?_; rotate_left; unfold x) | (intro x; clear_value x) | intro x | with_reducible apply wr_kept | with_reducible apply updSplit_kept | with_reducible apply ite_kept | split | lift_lets

theorem cellIndex_kept {rr : Bool} {s0 s : State} (hk : Kept rr s0 s) : Kept rr s0 (cellIndex s) := by
  have hr : ∀ k v, Kept rr s0 (readyEval (wr k v s)) := fun k v => readyEval_kept (wr_kept k v hk)
  unfold cellIndex
  dsimp only
  repeat' first | with_reducible assumption | with_reducible exact hr _ _ | with_reducible apply ite_kept | split

theorem pisteLearn_kept {rr : Bool} {s0 s : State} (k : Nat) (hk : Kept rr s0 s) : Kept rr s0 (pisteLearn k s) := by
  delta pisteLearn
  repeat' first | with_reducible assumption | (intro x; refine (fun _ => ?_ : Kept rr s0 x → _) ?_; rotate_left; unfold x) | (intro x; refine (fun _ => ?_ : Kept rr s0 x.2 → _) ?_; rotate_left; unfold x) | (intro x; clear_value x) | intro x | with_reducible apply wr_kept | with_reducible apply foldl_kept | with_reducible apply foldl2_kept | with_reducible apply enumRefuse_kept | with_reducible apply setLive_kept | with_reducible apply wrBit_kept | with_reducible apply ite_kept | with_reducible apply set_tree_kept | split | lift_lets

theorem refEval_kept {rr : Bool} {s0 s : State} (hk : Kept rr s0 s) : Kept rr s0 (refEval s) := by
  unfold refEval
  dsimp only
  repeat' first | with_reducible assumption | with_reducible apply ite_kept | with_reducible exact wrBit_kept _ _ _ (wrBit_kept _ _ _ (set_tim_kept hk)) | with_reducible exact wrBit_kept _ _ _ hk | with_reducible exact set_tim_kept hk | split

theorem passOn_kept {rr : Bool} {s0 s : State} (n : Nat) (f : RxFrame) (bad : Bool) (o : Nat) (hk : Kept rr s0 s) : Kept rr s0 (passOn n f bad o s) := by
  delta passOn
  repeat' first | with_reducible assumption | (intro x; refine (fun _ => ?_ : Kept rr s0 x → _) ?_; rotate_left; unfold x) | (intro x; refine (fun _ => ?_ : Kept rr s0 x.2 → _) ?_; rotate_left; unfold x) | (intro x; clear_value x) | intro x | with_reducible apply wr_kept | with_reducible apply enqueue_kept | with_reducible apply bump_kept | with_reducible apply ite_kept | split | lift_lets

theorem discardRx_kept {rr : Bool} {s0 s : State} (n : Nat) (f : RxFrame) (hk : Kept rr s0 s) : Kept rr s0 (discardRx n f s) := by
  delta discardRx
  repeat' first | with_reducible assumption | (intro x; refine (fun _ => ?_ : Kept rr s0 x → _) ?_; rotate_left; unfold x) | (intro x; refine (fun _ => ?_ : Kept rr s0 x.2 → _) ?_; rotate_left; unfold x) | (intro x; clear_value x) | intro x | with_reducible apply wr_kept | with_reducible apply passOn_kept | with_reducible apply each_kept | with_reducible apply bump_kept

theorem cutRx_kept {rr : Bool} {s0 s : State} (n : Nat) (hk : Kept rr s0 s) : Kept rr s0 (cutRx n s) := by
  delta cutRx
  repeat' first | with_reducible assumption | (intro x; refine (fun _ => ?_ : Kept rr s0 x → _) ?_; rotate_left; unfold x) | (intro x; refine (fun _ => ?_ : Kept rr s0 x.2 → _) ?_; rotate_left; unfold x) | (intro x; clear_value x) | intro x | with_reducible apply wr_kept | with_reducible apply discardRx_kept | with_reducible apply updLane_kept | with_reducible apply each_kept | lift_lets

theorem cutTx_kept {rr : Bool} {s0 s : State} (n : Nat) (hk : Kept rr s0 s) : Kept rr s0 (cutTx n s) := by
  delta cutTx
  repeat' first | with_reducible assumption | (intro x; refine (fun _ => ?_ : Kept rr s0 x → _) ?_; rotate_left; unfold x) | (intro x; refine (fun _ => ?_ : Kept rr s0 x.2 → _) ?_; rotate_left; unfold x) | (intro x; clear_value x) | intro x | with_reducible apply wr_kept | with_reducible apply updLane_kept | with_reducible apply each_kept | with_reducible apply bump_kept | lift_lets

theorem dropQueues_kept {rr : Bool} {s0 s : State} (n : Nat) (hk : Kept rr s0 s) : Kept rr s0 (dropQueues n s) := by
  delta dropQueues
  repeat' first | with_reducible assumption | (intro x; refine (fun _ => ?_ : Kept rr s0 x → _) ?_; rotate_left; unfold x) | (intro x; refine (fun _ => ?_ : Kept rr s0 x.2 → _) ?_; rotate_left; unfold x) | (intro x; clear_value x) | intro x | with_reducible apply wr_kept | with_reducible apply cutTx_kept | with_reducible apply cutRx_kept | with_reducible apply updLane_kept | with_reducible apply each_kept | with_reducible apply bump_kept | lift_lets

theorem sayLinkState_kept {rr : Bool} {s0 s : State} (n : Nat) (hk : Kept rr s0 s) : Kept rr s0 (sayLinkState n s) := by
  delta sayLinkState
  repeat' first | with_reducible assumption | (intro x; refine (fun _ => ?_ : Kept rr s0 x → _) ?_; rotate_left; unfold x) | (intro x; refine (fun _ => ?_ : Kept rr s0 x.2 → _) ?_; rotate_left; unfold x) | (intro x; clear_value x) | intro x | with_reducible apply wr_kept | with_reducible apply updLane_kept | lift_lets

theorem lsChange_kept {rr : Bool} {s0 s : State} (l : List Nat) (hk : Kept rr s0 s) : Kept rr s0 (lsChange l s) := by
  delta lsChange
  repeat' first | with_reducible assumption | (intro x; refine (fun _ => ?_ : Kept rr s0 x → _) ?_; rotate_left; unfold x) | (intro x; refine (fun _ => ?_ : Kept rr s0 x.2 → _) ?_; rotate_left; unfold x) | (intro x; clear_value x) | intro x | with_reducible apply wr_kept | with_reducible apply sayLinkState_kept | with_reducible apply each_kept | with_reducible apply ite_kept | split

theorem afterStage_kept {rr : Bool} {s0 s : State} (n : Nat) (was5 : Bool) (hk : Kept rr s0 s) : Kept rr s0 (afterStage n was5 s) := by
  delta afterStage
  repeat' first | with_reducible assumption | (intro x; refine (fun _ => ?_ : Kept rr s0 x → _) ?_; rotate_left; unfold x) | (intro x; refine (fun _ => ?_ : Kept rr s0 x.2 → _) ?_; rotate_left; unfold x) | (intro x; clear_value x) | intro x | with_reducible apply wr_kept | with_reducible apply lsChange_kept | with_reducible apply cutTx_kept | with_reducible apply cutRx_kept | with_reducible apply refEval_kept | with_reducible apply updPiste_kept | with_reducible apply updPeerLost_kept | with_reducible apply updWiring_kept | with_reducible apply updLaneDown_kept | with_reducible apply updLane_kept | with_reducible apply ite_kept | split | lift_lets

theorem goStage_kept {rr : Bool} {s0 s : State} (n st : Nat) (hk : Kept rr s0 s) : Kept rr s0 (goStage n st s) := by
  delta goStage
  repeat' first | with_reducible assumption | (intro x; refine (fun _ => ?_ : Kept rr s0 x → _) ?_; rotate_left; unfold x) | (intro x; refine (fun _ => ?_ : Kept rr s0 x.2 → _) ?_; rotate_left; unfold x) | (intro x; clear_value x) | intro x | with_reducible apply wr_kept | with_reducible apply afterStage_kept | with_reducible apply updLane_kept | lift_lets

theorem forget_kept {rr : Bool} {s0 s : State} (n : Nat) (hk : Kept rr s0 s) : Kept rr s0 (forget n s) := by
  delta forget
  repeat' first | with_reducible assumption | (intro x; refine (fun _ => ?_ : Kept rr s0 x → _) ?_; rotate_left; unfold x) | (intro x; refine (fun _ => ?_ : Kept rr s0 x.2 → _) ?_; rotate_left; unfold x) | (intro x; clear_value x) | intro x | with_reducible apply wr_kept | with_reducible apply updLane_kept

theorem toL0_kept {rr : Bool} {s0 s : State} (n : Nat) (hk : Kept rr s0 s) : Kept rr s0 (toL0 n s) := by
  delta toL0
  repeat' first | with_reducible assumption | (intro x; refine (fun _ => ?_ : Kept rr s0 x → _) ?_; rotate_left; unfold x) | (intro x; refine (fun _ => ?_ : Kept rr s0 x.2 → _) ?_; rotate_left; unfold x) | (intro x; clear_value x) | intro x | with_reducible apply wr_kept | with_reducible apply backoffEnd_kept | with_reducible apply forget_kept | with_reducible apply goStage_kept | with_reducible apply updLane_kept | lift_lets

theorem backoffL0_kept {rr : Bool} {s0 s : State} (n : Nat) (hk : Kept rr s0 s) : Kept rr s0 (backoffL0 n s) := by
  delta backoffL0
  repeat' first | with_reducible assumption | (intro x; refine (fun _ => ?_ : Kept rr s0 x → _) ?_; rotate_left; unfold x) | (intro x; refine (fun _ => ?_ : Kept rr s0 x.2 → _) ?_; rotate_left; unfold x) | (intro x; clear_value x) | intro x | with_reducible apply wr_kept | with_reducible apply backoffEnd_kept | with_reducible apply toL0_kept | with_reducible apply updLane_kept | with_reducible apply wrBit_kept | with_reducible apply ite_kept | split | lift_lets

theorem lineLost_kept {rr : Bool} {s0 s : State} (n cause : Nat) (hk : Kept rr s0 s) : Kept rr s0 (lineLost n cause s) := by
  delta lineLost
  repeat' first | with_reducible assumption | (intro x; refine (fun _ => ?_ : Kept rr s0 x → _) ?_; rotate_left; unfold x) | (intro x; refine (fun _ => ?_ : Kept rr s0 x.2 → _) ?_; rotate_left; unfold x) | (intro x; clear_value x) | intro x | with_reducible apply wr_kept | with_reducible apply backoffL0_kept | with_reducible apply dropQueues_kept | with_reducible apply ite_kept | split

theorem toL1_kept {rr : Bool} {s0 s : State} (n : Nat) (hk : Kept rr s0 s) : Kept rr s0 (toL1 n s) := by
  delta toL1
  repeat' first | with_reducible assumption | (intro x; refine (fun _ => ?_ : Kept rr s0 x → _) ?_; rotate_left; unfold x) | (intro x; refine (fun _ => ?_ : Kept rr s0 x.2 → _) ?_; rotate_left; unfold x) | (intro x; clear_value x) | intro x | with_reducible apply wr_kept | with_reducible apply forget_kept | with_reducible apply goStage_kept | with_reducible apply wrBit_kept | lift_lets

theorem toLoop_kept {rr : Bool} {s0 s : State} (partner : Bool) (n : Nat) (hk : Kept rr s0 s) : Kept rr s0 (toLoop partner n s) := by
  delta toLoop
  repeat' first | with_reducible assumption | (intro x; refine (fun _ => ?_ : Kept rr s0 x → _) ?_; rotate_left; unfold x) | (intro x; refine (fun _ => ?_ : Kept rr s0 x.2 → _) ?_; rotate_left; unfold x) | (intro x; clear_value x) | intro x | with_reducible apply wr_kept | with_reducible apply goStage_kept | with_reducible apply updLane_kept

theorem said_kept {rr : Bool} {s0 s : State} (n : Nat) (o : LaneOut) (hk : Kept rr s0 s) : Kept rr s0 (said n o s) := by
  delta said
  repeat' first | with_reducible assumption | (intro x; refine (fun _ => ?_ : Kept rr s0 x → _) ?_; rotate_left; unfold x) | (intro x; refine (fun _ => ?_ : Kept rr s0 x.2 → _) ?_; rotate_left; unfold x) | (intro x; clear_value x) | intro x | with_reducible apply wr_kept | with_reducible apply toLoop_kept | with_reducible apply toL1_kept | with_reducible apply ite_kept | split

theorem sendLadder_kept {rr : Bool} {s0 s : State} (m : Ladder) (times n : Nat) (hk : Kept rr s0 s) : Kept rr s0 (sendLadder m times n s) := by
  delta sendLadder
  repeat' first | with_reducible assumption | (intro x; refine (fun _ => ?_ : Kept rr s0 x → _) ?_; rotate_left; unfold x) | (intro x; refine (fun _ => ?_ : Kept rr s0 x.2 → _) ?_; rotate_left; unfold x) | (intro x; clear_value x) | intro x | with_reducible apply wr_kept | with_reducible apply said_kept | with_reducible apply updLane_kept | with_reducible apply ite_kept | split | lift_lets

theorem enterL2_kept {rr : Bool} {s0 s : State} (pre : List LaneOut) (n r : Nat) (hk : Kept rr s0 s) : Kept rr s0 (enterL2 pre n r s) := by
  delta enterL2
  repeat' first | with_reducible assumption | (intro x; refine (fun _ => ?_ : Kept rr s0 x → _) ?_; rotate_left; unfold x) | (intro x; refine (fun _ => ?_ : Kept rr s0 x.2 → _) ?_; rotate_left; unfold x) | (intro x; clear_value x) | intro x | with_reducible apply wr_kept | with_reducible apply goStage_kept | with_reducible apply updLane_kept | with_reducible apply wrBit_kept | lift_lets

theorem goL2_kept {rr : Bool} {s0 s : State} (n r : Nat) (hk : Kept rr s0 s) : Kept rr s0 (goL2 n r s) := by
  delta goL2
  repeat' first | with_reducible assumption | (intro x; refine (fun _ => ?_ : Kept rr s0 x → _) ?_; rotate_left; unfold x) | (intro x; refine (fun _ => ?_ : Kept rr s0 x.2 → _) ?_; rotate_left; unfold x) | (intro x; clear_value x) | intro x | with_reducible apply wr_kept | with_reducible apply enterL2_kept

theorem tryL2_kept {rr : Bool} {s0 s : State} (n : Nat) (hk : Kept rr s0 s) : Kept rr s0 (tryL2 n s) := by
  delta tryL2
  repeat' first | with_reducible assumption | (intro x; refine (fun _ => ?_ : Kept rr s0 x → _) ?_; rotate_left; unfold x) | (intro x; refine (fun _ => ?_ : Kept rr s0 x.2 → _) ?_; rotate_left; unfold x) | (intro x; clear_value x) | intro x | with_reducible apply wr_kept | with_reducible apply goL2_kept | with_reducible apply ite_kept | split

theorem retrain_kept {rr : Bool} {s0 s : State} (restore : Bool) (n : Nat) (hk : Kept rr s0 s) : Kept rr s0 (retrain restore n s) := by
  delta retrain
  repeat' first | with_reducible assumption | (intro x; refine (fun _ => ?_ : Kept rr s0 x → _) ?_; rotate_left; unfold x) | (intro x; refine (fun _ => ?_ : Kept rr s0 x.2 → _) ?_; rotate_left; unfold x) | (intro x; clear_value x) | intro x | with_reducible apply wr_kept | with_reducible apply sendLadder_kept | with_reducible apply ite_kept | split

theorem cellTarget_kept {rr : Bool} {s0 s : State} (hk : Kept rr s0 s) : Kept rr s0 (cellTarget s) := by
  delta cellTarget
  repeat' first | with_reducible assumption | (intro x; refine (fun _ => ?_ : Kept rr s0 x → _) ?_; rotate_left; unfold x) | (intro x; refine (fun _ => ?_ : Kept rr s0 x.2 → _) ?_; rotate_left; unfold x) | (intro x; clear_value x) | intro x | with_reducible apply wr_kept | with_reducible apply retrain_kept | with_reducible apply each_kept | with_reducible apply ite_kept | split | lift_lets

theorem trainFail_kept {rr : Bool} {s0 s : State} (n cause : Nat) (hk : Kept rr s0 s) : Kept rr s0 (trainFail n cause s) := by
  delta trainFail
  repeat' first | with_reducible assumption | (intro x; refine (fun _ => ?_ : Kept rr s0 x → _) ?_; rotate_left; unfold x) | (intro x; refine (fun _ => ?_ : Kept rr s0 x.2 → _) ?_; rotate_left; unfold x) | (intro x; clear_value x) | intro x | with_reducible apply wr_kept | with_reducible apply cellTarget_kept | with_reducible apply enterL2_kept | with_reducible apply toL1_kept | with_reducible apply backoffL0_kept | with_reducible apply updLane_kept | with_reducible apply bump_kept | with_reducible apply ite_kept | split | lift_lets

theorem evalL3_kept {rr : Bool} {s0 s : State} (n : Nat) (hk : Kept rr s0 s) : Kept rr s0 (evalL3 n s) := by
  delta evalL3
  repeat' first | with_reducible assumption | (intro x; refine (fun _ => ?_ : Kept rr s0 x → _) ?_; rotate_left; unfold x) | (intro x; refine (fun _ => ?_ : Kept rr s0 x.2 → _) ?_; rotate_left; unfold x) | (intro x; clear_value x) | intro x | with_reducible apply wr_kept | with_reducible apply trainFail_kept | with_reducible apply goStage_kept | with_reducible apply ite_kept | split | lift_lets

theorem enterL5_kept {rr : Bool} {s0 s : State} (n : Nat) (hk : Kept rr s0 s) : Kept rr s0 (enterL5 n s) := by
  delta enterL5
  repeat' first | with_reducible assumption | (intro x; refine (fun _ => ?_ : Kept rr s0 x → _) ?_; rotate_left; unfold x) | (intro x; refine (fun _ => ?_ : Kept rr s0 x.2 → _) ?_; rotate_left; unfold x) | (intro x; clear_value x) | intro x | with_reducible apply wr_kept | with_reducible apply goStage_kept | with_reducible apply pisteLearn_kept | with_reducible apply cellIndex_kept | with_reducible apply nodeJoin_kept | with_reducible apply lagRecompute_kept | with_reducible apply readyEval_kept | with_reducible apply startTx_kept | with_reducible apply updLane_kept | with_reducible apply bump_kept | with_reducible apply ite_kept | split | lift_lets

theorem takeLinkState_kept {rr : Bool} {s0 s : State} (n hops behind : Nat) (hk : Kept rr s0 s) : Kept rr s0 (takeLinkState n hops behind s) := by
  delta takeLinkState
  repeat' first | with_reducible assumption | (intro x; refine (fun _ => ?_ : Kept rr s0 x → _) ?_; rotate_left; unfold x) | (intro x; refine (fun _ => ?_ : Kept rr s0 x.2 → _) ?_; rotate_left; unfold x) | (intro x; clear_value x) | intro x | with_reducible apply wr_kept | with_reducible apply lsChange_kept | with_reducible apply pisteLearn_kept | with_reducible apply cellIndex_kept | with_reducible apply updPiste_kept | with_reducible apply lagRecompute_kept | with_reducible apply updLane_kept | with_reducible apply ite_kept | split | lift_lets

theorem consume_kept {rr : Bool} {s0 s : State} (n : Nat) (b : List Nat) (hk : Kept rr s0 s) : Kept rr s0 (consume n b s) := by
  delta consume
  repeat' first | with_reducible assumption | (intro x; refine (fun _ => ?_ : Kept rr s0 x → _) ?_; rotate_left; unfold x) | (intro x; refine (fun _ => ?_ : Kept rr s0 x.2 → _) ?_; rotate_left; unfold x) | (intro x; clear_value x) | intro x | with_reducible apply wr_kept | with_reducible apply set_lnk_kept

theorem takeFrame_kept {rr : Bool} {s0 s : State} (n : Nat) (b : List Nat) (hk : Kept rr s0 s) : Kept rr s0 (takeFrame n b s) := by
  delta takeFrame
  repeat' first | with_reducible assumption | (intro x; refine (fun _ => ?_ : Kept rr s0 x → _) ?_; rotate_left; unfold x) | (intro x; refine (fun _ => ?_ : Kept rr s0 x.2 → _) ?_; rotate_left; unfold x) | (intro x; clear_value x) | intro x | with_reducible apply wr_kept | with_reducible apply consume_kept | with_reducible apply bump_kept | with_reducible apply ite_kept | split | lift_lets

theorem frameEnd_kept {rr : Bool} {s0 s : State} (n : Nat) (f : RxFrame) (bad : Bool) (hk : Kept rr s0 s) : Kept rr s0 (frameEnd n f bad s) := by
  delta frameEnd
  repeat' first | with_reducible assumption | (intro x; refine (fun _ => ?_ : Kept rr s0 x → _) ?_; rotate_left; unfold x) | (intro x; refine (fun _ => ?_ : Kept rr s0 x.2 → _) ?_; rotate_left; unfold x) | (intro x; clear_value x) | intro x | with_reducible apply wr_kept | with_reducible apply takeFrame_kept | with_reducible apply passOn_kept | with_reducible apply each_kept | with_reducible apply bump_kept | split | lift_lets

end Sys2Proof.Machine
end

