-- ==== Sys2Proof/Laws/KOpsTree.lean ====
section
/-! SUPPORT. What the operations of Machine/OpsTree.lean keep. -/
set_option linter.all false
namespace Sys2Proof.Machine

theorem takePiste_kept {rr : Bool} {s0 s : State} (p : FoundPiste) (hk : Kept rr s0 s) : Kept rr s0 (takePiste p s) := by
  delta takePiste
  repeat' first | with_reducible assumption | (intro x; refine (fun _ => ?_ : Kept rr s0 x → _) ?_; rotate_left; unfold x) | (intro x; refine (fun _ => ?_ : Kept rr s0 x.2 → _) ?_; rotate_left; unfold x) | (intro x; clear_value x) | intro x | with_reducible apply wr_kept | with_reducible apply foldl_kept | with_reducible apply foldl2_kept | with_reducible apply updPiste_kept | with_reducible apply setLive_kept | with_reducible apply onlyIf_kept | with_reducible apply wrBit_kept | with_reducible apply ite_kept | with_reducible apply set_tree_kept | split | lift_lets

theorem enumConflict_kept {rr : Bool} {s0 s : State} (c : Nat × Nat) (num : Nat) (hk : Kept rr s0 s) : Kept rr s0 (enumConflict c num s) := by
  delta enumConflict
  repeat' first | with_reducible assumption | (intro x; refine (fun _ => ?_ : Kept rr s0 x → _) ?_; rotate_left; unfold x) | (intro x; refine (fun _ => ?_ : Kept rr s0 x.2 → _) ?_; rotate_left; unfold x) | (intro x; clear_value x) | intro x | with_reducible apply wr_kept | with_reducible apply ite_kept | split | lift_lets

theorem enumNode_kept {rr : Bool} {s0 s : State} (l : List FoundNode) (w : Walk) (e : Nat) (t : TreeNode) (hk : Kept rr s0 s) : Kept rr s0 (enumNode l w e t s) := by
  delta enumNode
  repeat' first | with_reducible assumption | (intro x; refine (fun _ => ?_ : Kept rr s0 x → _) ?_; rotate_left; unfold x) | (intro x; refine (fun _ => ?_ : Kept rr s0 x.2 → _) ?_; rotate_left; unfold x) | (intro x; clear_value x) | intro x | with_reducible apply wr_kept | with_reducible apply takePiste_kept | with_reducible apply lagRecompute_kept | with_reducible apply onlyIf_kept | with_reducible apply each_kept | with_reducible apply ite_kept | with_reducible apply set_tree_kept | split | lift_lets

theorem enumCell_kept {rr : Bool} {s0 s : State} (l : List FoundNode) (w : Walk) (e link : Nat) (t : TreeNode) (hk : Kept rr s0 s) :
    Kept rr s0 (enumCell l w e link t s) := by
  unfold enumCell
  dsimp only
  split
  · exact hk
  · exact readyEval_kept (cellIndex_kept (wr_kept _ _ (wr_kept _ _ (wr_kept _ _ (set_tree_kept hk)))))

theorem enumeration_kept {rr : Bool} {s0 s : State} (l : List FoundNode) (self link : Nat) (hk : Kept rr s0 s) : Kept rr s0 (enumeration l self link s) := by
  delta enumeration
  repeat' first | with_reducible assumption | (intro x; refine (fun _ => ?_ : Kept rr s0 x → _) ?_; rotate_left; unfold x) | (intro x; refine (fun _ => ?_ : Kept rr s0 x.2 → _) ?_; rotate_left; unfold x) | (intro x; clear_value x) | intro x | with_reducible apply wr_kept | with_reducible apply enumCell_kept | with_reducible apply enumNode_kept | with_reducible apply enumConflict_kept | with_reducible apply ite_kept | split | lift_lets

end Sys2Proof.Machine
end

