-- ==== Sys2Proof/Laws/KOpsBal.lean ====
section
/-! SUPPORT. What the operations of Machine/OpsBal.lean keep. -/
set_option linter.all false
namespace Sys2Proof.Machine

theorem updWork_kept {rr : Bool} {s0 s : State} (k : Nat) (f : PeriodWork → PeriodWork) (hk : Kept rr s0 s) : Kept rr s0 (updWork k f s) := by
  delta updWork
  repeat' first | with_reducible assumption | (intro x; refine (fun _ => ?_ : Kept rr s0 x → _) ?_; rotate_left; unfold x) | (intro x; refine (fun _ => ?_ : Kept rr s0 x.2 → _) ?_; rotate_left; unfold x) | (intro x; clear_value x) | intro x | with_reducible apply wr_kept | with_reducible apply updBal_kept | with_reducible apply ite_kept | split

theorem updSlot_kept {rr : Bool} {s0 s : State} (j : Nat) (f : SlotSt → SlotSt) (hk : Kept rr s0 s) : Kept rr s0 (updSlot j f s) := by
  delta updSlot
  repeat' first | with_reducible assumption | (intro x; refine (fun _ => ?_ : Kept rr s0 x → _) ?_; rotate_left; unfold x) | (intro x; refine (fun _ => ?_ : Kept rr s0 x.2 → _) ?_; rotate_left; unfold x) | (intro x; clear_value x) | intro x | with_reducible apply wr_kept | with_reducible apply updBal_kept

theorem showCounts_kept {rr : Bool} {s0 s : State} (j : Nat) (a : ArmSum) (hk : Kept rr s0 s) : Kept rr s0 (showCounts j a s) := by
  delta showCounts
  repeat' first | with_reducible assumption | (intro x; refine (fun _ => ?_ : Kept rr s0 x → _) ?_; rotate_left; unfold x) | (intro x; refine (fun _ => ?_ : Kept rr s0 x.2 → _) ?_; rotate_left; unfold x) | (intro x; clear_value x) | intro x | with_reducible apply wr_kept

theorem selectSlot_kept {rr : Bool} {s0 s : State} (k j : Nat) (hk : Kept rr s0 s) : Kept rr s0 (selectSlot k j s) := by
  delta selectSlot
  repeat' first | with_reducible assumption | (intro x; refine (fun _ => ?_ : Kept rr s0 x → _) ?_; rotate_left; unfold x) | (intro x; refine (fun _ => ?_ : Kept rr s0 x.2 → _) ?_; rotate_left; unfold x) | (intro x; clear_value x) | intro x | with_reducible apply wr_kept | with_reducible apply updSlot_kept | with_reducible apply updWork_kept | with_reducible apply onlyIf_kept | with_reducible apply bump_kept | with_reducible apply ite_kept | split | lift_lets

theorem headStats_kept {rr : Bool} {s0 s : State} (j : Nat) (g : GroupSum) (hk : Kept rr s0 s) : Kept rr s0 (headStats j g s) := by
  delta headStats
  repeat' first | with_reducible assumption | (intro x; refine (fun _ => ?_ : Kept rr s0 x → _) ?_; rotate_left; unfold x) | (intro x; refine (fun _ => ?_ : Kept rr s0 x.2 → _) ?_; rotate_left; unfold x) | (intro x; clear_value x) | intro x | with_reducible apply wr_kept | with_reducible apply updSlot_kept | with_reducible apply setLive_kept | with_reducible apply ite_kept | split | lift_lets

theorem slotStats_kept {rr : Bool} {s0 s : State} (k j : Nat) (hk : Kept rr s0 s) : Kept rr s0 (slotStats k j s) := by
  delta slotStats
  repeat' first | with_reducible assumption | (intro x; refine (fun _ => ?_ : Kept rr s0 x → _) ?_; rotate_left; unfold x) | (intro x; refine (fun _ => ?_ : Kept rr s0 x.2 → _) ?_; rotate_left; unfold x) | (intro x; clear_value x) | intro x | with_reducible apply wr_kept | with_reducible apply headStats_kept | with_reducible apply updWork_kept | with_reducible apply ite_kept | split

theorem closeSlot_kept {rr : Bool} {s0 s : State} (k j : Nat) (hk : Kept rr s0 s) : Kept rr s0 (closeSlot k j s) := by
  delta closeSlot
  repeat' first | with_reducible assumption | (intro x; refine (fun _ => ?_ : Kept rr s0 x → _) ?_; rotate_left; unfold x) | (intro x; refine (fun _ => ?_ : Kept rr s0 x.2 → _) ?_; rotate_left; unfold x) | (intro x; clear_value x) | intro x | with_reducible apply wr_kept | with_reducible apply slotStats_kept | with_reducible apply selectSlot_kept | with_reducible apply showCounts_kept | with_reducible apply updWork_kept | with_reducible apply each_kept | with_reducible apply bump_kept | with_reducible apply ite_kept | split | lift_lets

theorem fillArms_kept {rr : Bool} {s0 s : State} (w : PeriodWork) (hk : Kept rr s0 s) : Kept rr s0 (fillArms w s) := by
  delta fillArms
  repeat' first | with_reducible assumption | (intro x; refine (fun _ => ?_ : Kept rr s0 x → _) ?_; rotate_left; unfold x) | (intro x; refine (fun _ => ?_ : Kept rr s0 x.2 → _) ?_; rotate_left; unfold x) | (intro x; clear_value x) | intro x | with_reducible apply wr_kept | with_reducible apply each_kept | with_reducible apply ite_kept | split | lift_lets

theorem countLate_kept {rr : Bool} {s0 s : State} (k : Nat) (own : Bool) (hk : Kept rr s0 s) : Kept rr s0 (countLate k own s) := by
  delta countLate
  repeat' first | with_reducible assumption | (intro x; refine (fun _ => ?_ : Kept rr s0 x → _) ?_; rotate_left; unfold x) | (intro x; refine (fun _ => ?_ : Kept rr s0 x.2 → _) ?_; rotate_left; unfold x) | (intro x; clear_value x) | intro x | with_reducible apply wr_kept | with_reducible apply updBal_kept | with_reducible apply setLive_kept | with_reducible apply bump_kept | with_reducible apply ite_kept | with_reducible apply set_red_kept | split | lift_lets

theorem periodLaunched_kept {rr : Bool} {s0 s : State} (k : Nat) (hk : Kept rr s0 s) : Kept rr s0 (periodLaunched k s) := by
  delta periodLaunched
  repeat' first | with_reducible assumption | (intro x; refine (fun _ => ?_ : Kept rr s0 x → _) ?_; rotate_left; unfold x) | (intro x; refine (fun _ => ?_ : Kept rr s0 x.2 → _) ?_; rotate_left; unfold x) | (intro x; clear_value x) | intro x | with_reducible apply wr_kept | with_reducible apply updBal_kept | with_reducible apply setLive_kept | with_reducible apply ite_kept | split | lift_lets

theorem withhold_kept {rr : Bool} {s0 s : State} (k : Nat) (hk : Kept rr s0 s) : Kept rr s0 (withhold k s) := by
  delta withhold
  repeat' first | with_reducible assumption | (intro x; refine (fun _ => ?_ : Kept rr s0 x → _) ?_; rotate_left; unfold x) | (intro x; refine (fun _ => ?_ : Kept rr s0 x.2 → _) ?_; rotate_left; unfold x) | (intro x; clear_value x) | intro x | with_reducible apply wr_kept | with_reducible apply countLate_kept | with_reducible apply updWork_kept | with_reducible apply updBal_kept | with_reducible apply setLive_kept | with_reducible apply bump_kept | with_reducible apply ite_kept | split | lift_lets

theorem compare_kept {rr : Bool} {s0 s : State} (k vote : Nat) (hk : Kept rr s0 s) : Kept rr s0 (compare k vote s).2 := by
  delta compare
  repeat' first | with_reducible assumption | (intro x; refine (fun _ => ?_ : Kept rr s0 x → _) ?_; rotate_left; unfold x) | (intro x; refine (fun _ => ?_ : Kept rr s0 x.2 → _) ?_; rotate_left; unfold x) | (intro x; clear_value x) | intro x | with_reducible apply wr_kept | with_reducible apply withhold_kept | with_reducible apply updBal_kept | with_reducible apply failSpare_kept | with_reducible apply failLogical_kept | with_reducible apply bump_kept | with_reducible apply ite_kept | with_reducible apply ite2_kept | split | lift_lets

theorem ordersUsed_kept {rr : Bool} {s0 s : State} (j : Nat) (hk : Kept rr s0 s) : Kept rr s0 (ordersUsed j s) := by
  delta ordersUsed
  repeat' first | with_reducible assumption | (intro x; refine (fun _ => ?_ : Kept rr s0 x → _) ?_; rotate_left; unfold x) | (intro x; refine (fun _ => ?_ : Kept rr s0 x.2 → _) ?_; rotate_left; unfold x) | (intro x; clear_value x) | intro x | with_reducible apply wr_kept | with_reducible apply updBal_kept | with_reducible apply ite_kept | split | lift_lets

theorem slotEntries_kept {rr : Bool} {s0 s : State} (j : Nat) (e : RefEntry) (w : PeriodWork) (hk : Kept rr s0 s) : Kept rr s0 (slotEntries j e w s).2 := by
  delta slotEntries
  repeat' first | with_reducible assumption | (intro x; refine (fun _ => ?_ : Kept rr s0 x → _) ?_; rotate_left; unfold x) | (intro x; refine (fun _ => ?_ : Kept rr s0 x.2 → _) ?_; rotate_left; unfold x) | (intro x; clear_value x) | intro x | with_reducible apply wr_kept | with_reducible apply updSlot_kept | with_reducible apply onlyIf_kept | with_reducible apply bump_kept | with_reducible apply ite_kept | with_reducible apply ite2_kept | split | lift_lets

theorem entriesDown_kept {rr : Bool} {s0 s : State} (w : PeriodWork) (hk : Kept rr s0 s) : Kept rr s0 (entriesDown w s).2 := by
  delta entriesDown
  repeat' first | with_reducible assumption | (intro x; refine (fun _ => ?_ : Kept rr s0 x → _) ?_; rotate_left; unfold x) | (intro x; refine (fun _ => ?_ : Kept rr s0 x.2 → _) ?_; rotate_left; unfold x) | (intro x; clear_value x) | intro x | with_reducible apply wr_kept | with_reducible apply foldl_kept | with_reducible apply foldl2_kept | with_reducible apply slotEntries_kept | split | lift_lets

theorem takeEntries_kept {rr : Bool} {s0 s : State} (k : Nat) (l : List RefEntry) (hk : Kept rr s0 s) : Kept rr s0 (takeEntries k l s) := by
  delta takeEntries
  repeat' first | with_reducible assumption | (intro x; refine (fun _ => ?_ : Kept rr s0 x → _) ?_; rotate_left; unfold x) | (intro x; refine (fun _ => ?_ : Kept rr s0 x.2 → _) ?_; rotate_left; unfold x) | (intro x; clear_value x) | intro x | with_reducible apply wr_kept | with_reducible apply selectSlot_kept | with_reducible apply updSlot_kept | with_reducible apply updWork_kept | with_reducible apply onlyIf_kept | with_reducible apply each_kept | with_reducible apply ite_kept | split | lift_lets

end Sys2Proof.Machine
end

