-- ==== Sys2Proof/Laws/KOpsRed.lean ====
section
/-! SUPPORT. What the operations of Machine/OpsRed.lean keep. -/
set_option linter.all false
namespace Sys2Proof.Machine

theorem setBase_kept {rr : Bool} {s0 s : State} (kx : Nat) (hk : Kept rr s0 s) : Kept rr s0 (setBase kx s) := by
  delta setBase
  repeat' first | with_reducible assumption | (intro x; refine (fun _ => ?_ : Kept rr s0 x → _) ?_; rotate_left; unfold x) | (intro x; refine (fun _ => ?_ : Kept rr s0 x.2 → _) ?_; rotate_left; unfold x) | (intro x; clear_value x) | intro x | with_reducible apply wr_kept | with_reducible apply updRed_kept | with_reducible apply updBal_kept | with_reducible apply ite_kept | split | lift_lets

theorem redTo_kept {rr : Bool} {s0 s : State} (new kx : Nat) (hk : Kept rr s0 s) : Kept rr s0 (redTo new kx s) := by
  delta redTo
  repeat' first | with_reducible assumption | (intro x; refine (fun _ => ?_ : Kept rr s0 x → _) ?_; rotate_left; unfold x) | (intro x; refine (fun _ => ?_ : Kept rr s0 x.2 → _) ?_; rotate_left; unfold x) | (intro x; clear_value x) | intro x | with_reducible apply wr_kept | with_reducible apply setBase_kept | with_reducible apply updRed_kept | with_reducible apply setLive_kept | with_reducible apply onlyIf_kept | with_reducible apply bump_kept | with_reducible apply ite_kept | split | lift_lets

theorem redEval_kept {rr : Bool} {s0 s : State} (hk : Kept rr s0 s) : Kept rr s0 (redEval s) := by
  delta redEval
  repeat' first | with_reducible assumption | (intro x; refine (fun _ => ?_ : Kept rr s0 x → _) ?_; rotate_left; unfold x) | (intro x; refine (fun _ => ?_ : Kept rr s0 x.2 → _) ?_; rotate_left; unfold x) | (intro x; clear_value x) | intro x | with_reducible apply wr_kept | with_reducible apply redTo_kept | with_reducible apply bump_kept | with_reducible apply ite_kept | split | lift_lets

theorem redEvalMark_kept {rr : Bool} {s0 s : State} (hk : Kept rr s0 s) : Kept rr s0 (redEvalMark s) := by
  delta redEvalMark
  repeat' first | with_reducible assumption | (intro x; refine (fun _ => ?_ : Kept rr s0 x → _) ?_; rotate_left; unfold x) | (intro x; refine (fun _ => ?_ : Kept rr s0 x.2 → _) ?_; rotate_left; unfold x) | (intro x; clear_value x) | intro x | with_reducible apply wr_kept | with_reducible apply redEval_kept | with_reducible apply redTo_kept | with_reducible apply updRed_kept | with_reducible apply ite_kept | split | lift_lets

theorem redLawFault_kept {rr : Bool} {s0 s : State} (hk : Kept rr s0 s) : Kept rr s0 (redLawFault s) := by
  delta redLawFault
  repeat' first | with_reducible assumption | (intro x; refine (fun _ => ?_ : Kept rr s0 x → _) ?_; rotate_left; unfold x) | (intro x; refine (fun _ => ?_ : Kept rr s0 x.2 → _) ?_; rotate_left; unfold x) | (intro x; clear_value x) | intro x | with_reducible apply wr_kept | with_reducible apply redTo_kept | with_reducible apply ite_kept | split | lift_lets

theorem setInstep_kept {rr : Bool} {s0 s : State} (n : Nat) (hk : Kept rr s0 s) : Kept rr s0 (setInstep n s) := by
  delta setInstep
  repeat' first | with_reducible assumption | (intro x; refine (fun _ => ?_ : Kept rr s0 x → _) ?_; rotate_left; unfold x) | (intro x; refine (fun _ => ?_ : Kept rr s0 x.2 → _) ?_; rotate_left; unfold x) | (intro x; clear_value x) | intro x | with_reducible apply wr_kept

theorem startCheck_kept {rr : Bool} {s0 s : State} (k : Nat) (hk : Kept rr s0 s) : Kept rr s0 (startCheck k s) := by
  delta startCheck
  repeat' first | with_reducible assumption | (intro x; refine (fun _ => ?_ : Kept rr s0 x → _) ?_; rotate_left; unfold x) | (intro x; refine (fun _ => ?_ : Kept rr s0 x.2 → _) ?_; rotate_left; unfold x) | (intro x; clear_value x) | intro x | with_reducible apply wr_kept | with_reducible apply updRed_kept | lift_lets

theorem setVerdict_kept {rr : Bool} {s0 s : State} (hk : Kept rr s0 s) : Kept rr s0 (setVerdict s) := by
  delta setVerdict
  repeat' first | with_reducible assumption | (intro x; refine (fun _ => ?_ : Kept rr s0 x → _) ?_; rotate_left; unfold x) | (intro x; refine (fun _ => ?_ : Kept rr s0 x.2 → _) ?_; rotate_left; unfold x) | (intro x; clear_value x) | intro x | with_reducible apply wr_kept | with_reducible apply updRed_kept | with_reducible apply ite_kept | split | lift_lets

theorem endCheck_kept {rr : Bool} {s0 s : State} (c : CheckSt) (code : Nat) (hk : Kept rr s0 s) : Kept rr s0 (endCheck c code s) := by
  delta endCheck
  repeat' first | with_reducible assumption | (intro x; refine (fun _ => ?_ : Kept rr s0 x → _) ?_; rotate_left; unfold x) | (intro x; refine (fun _ => ?_ : Kept rr s0 x.2 → _) ?_; rotate_left; unfold x) | (intro x; clear_value x) | intro x | with_reducible apply wr_kept | with_reducible apply updRed_kept | with_reducible apply bump_kept | with_reducible apply ite_kept | split | lift_lets

theorem decided_kept {rr : Bool} {s0 s : State} (to_ kx : Nat) (hk : Kept rr s0 s) : Kept rr s0 (decided to_ kx s) := by
  delta decided
  repeat' first | with_reducible assumption | (intro x; refine (fun _ => ?_ : Kept rr s0 x → _) ?_; rotate_left; unfold x) | (intro x; refine (fun _ => ?_ : Kept rr s0 x.2 → _) ?_; rotate_left; unfold x) | (intro x; clear_value x) | intro x | with_reducible apply wr_kept | with_reducible apply redTo_kept | with_reducible apply ite_kept | split | lift_lets

theorem tryDecide_kept {rr : Bool} {s0 s : State} (hk : Kept rr s0 s) : Kept rr s0 (tryDecide s) := by
  delta tryDecide
  repeat' first | with_reducible assumption | (intro x; refine (fun _ => ?_ : Kept rr s0 x → _) ?_; rotate_left; unfold x) | (intro x; refine (fun _ => ?_ : Kept rr s0 x.2 → _) ?_; rotate_left; unfold x) | (intro x; clear_value x) | intro x | with_reducible apply wr_kept | with_reducible apply decided_kept | with_reducible apply endCheck_kept | with_reducible apply updRed_kept | with_reducible apply setLive_kept | with_reducible apply onlyIf_kept | with_reducible apply ite_kept | split | lift_lets

theorem comparedAs_kept {rr : Bool} {s0 s : State} (k : Nat) (mismatch : Bool) (hk : Kept rr s0 s) : Kept rr s0 (comparedAs k mismatch s) := by
  delta comparedAs
  repeat' first | with_reducible assumption | (intro x; refine (fun _ => ?_ : Kept rr s0 x → _) ?_; rotate_left; unfold x) | (intro x; refine (fun _ => ?_ : Kept rr s0 x.2 → _) ?_; rotate_left; unfold x) | (intro x; clear_value x) | intro x | with_reducible apply wr_kept | with_reducible apply startCheck_kept | with_reducible apply updRed_kept | with_reducible apply bump_kept | with_reducible apply ite_kept | split | lift_lets

theorem updPair_kept {rr : Bool} {s0 s : State} (k : Nat) (f : DigestPair → DigestPair) (hk : Kept rr s0 s) : Kept rr s0 (updPair k f s) := by
  delta updPair
  repeat' first | with_reducible assumption | (intro x; refine (fun _ => ?_ : Kept rr s0 x → _) ?_; rotate_left; unfold x) | (intro x; refine (fun _ => ?_ : Kept rr s0 x.2 → _) ?_; rotate_left; unfold x) | (intro x; clear_value x) | intro x | with_reducible apply wr_kept | with_reducible apply updRed_kept | with_reducible apply done_kept | with_reducible apply ite_kept | with_reducible apply ite2_kept | split | lift_lets

theorem comparePair_kept {rr : Bool} {s0 s : State} (k : Nat) (hk : Kept rr s0 s) : Kept rr s0 (comparePair k s) := by
  delta comparePair
  repeat' first | with_reducible assumption | (intro x; refine (fun _ => ?_ : Kept rr s0 x → _) ?_; rotate_left; unfold x) | (intro x; refine (fun _ => ?_ : Kept rr s0 x.2 → _) ?_; rotate_left; unfold x) | (intro x; clear_value x) | intro x | with_reducible apply wr_kept | with_reducible apply updPair_kept | with_reducible apply comparedAs_kept | with_reducible apply done_kept | with_reducible apply onlyIf_kept | with_reducible apply bump_kept | with_reducible apply ite_kept | with_reducible apply ite2_kept | split | lift_lets

theorem configLive_kept {rr : Bool} {s0 s : State} (diff : Bool) (hk : Kept rr s0 s) : Kept rr s0 (configLive diff s) := by
  delta configLive
  repeat' first | with_reducible assumption | (intro x; refine (fun _ => ?_ : Kept rr s0 x → _) ?_; rotate_left; unfold x) | (intro x; refine (fun _ => ?_ : Kept rr s0 x.2 → _) ?_; rotate_left; unfold x) | (intro x; clear_value x) | intro x | with_reducible apply wr_kept | with_reducible apply setLive_kept | split | lift_lets

theorem redMode_kept {rr : Bool} {s0 s : State} (hk : Kept rr s0 s) : Kept rr s0 (redMode s) := by
  delta redMode
  repeat' first | with_reducible assumption | (intro x; refine (fun _ => ?_ : Kept rr s0 x → _) ?_; rotate_left; unfold x) | (intro x; refine (fun _ => ?_ : Kept rr s0 x.2 → _) ?_; rotate_left; unfold x) | (intro x; clear_value x) | intro x | with_reducible apply wr_kept | with_reducible apply configLive_kept | with_reducible apply updRed_kept | with_reducible apply ite_kept | split

theorem redPMark_kept {rr : Bool} {s0 s : State} (k : Nat) (hk : Kept rr s0 s) : Kept rr s0 (redPMark k s) := by
  delta redPMark
  repeat' first | with_reducible assumption | (intro x; refine (fun _ => ?_ : Kept rr s0 x → _) ?_; rotate_left; unfold x) | (intro x; refine (fun _ => ?_ : Kept rr s0 x.2 → _) ?_; rotate_left; unfold x) | (intro x; clear_value x) | intro x | with_reducible apply wr_kept | with_reducible apply redEvalMark_kept | with_reducible apply setBase_kept | with_reducible apply updRed_kept | with_reducible apply startTx_kept | with_reducible apply each_kept | with_reducible apply ite_kept | split | lift_lets

end Sys2Proof.Machine
end

