-- ==== Sys2Proof/Laws/KOpsLaw.lean ====
section
/-! SUPPORT. What the operations of Machine/OpsLaw.lean keep. -/
set_option linter.all false
namespace Sys2Proof.Machine

theorem lawValidate_kept {rr : Bool} {s0 s : State} (hk : Kept rr s0 s) : Kept rr s0 (lawValidate s) := by
  delta lawValidate
  repeat' first | with_reducible assumption | (intro x; refine (fun _ => ?_ : Kept rr s0 x → _) ?_; rotate_left; unfold x) | (intro x; refine (fun _ => ?_ : Kept rr s0 x.2 → _) ?_; rotate_left; unfold x) | (intro x; clear_value x) | intro x | with_reducible apply wr_kept | with_reducible apply lagRecompute_kept | split

theorem lawSeal_kept {rr : Bool} {s0 s : State} (b : Nat) (hk : Kept rr s0 s) : Kept rr s0 (lawSeal b s) := by
  delta lawSeal
  repeat' first | with_reducible assumption | (intro x; refine (fun _ => ?_ : Kept rr s0 x → _) ?_; rotate_left; unfold x) | (intro x; refine (fun _ => ?_ : Kept rr s0 x.2 → _) ?_; rotate_left; unfold x) | (intro x; clear_value x) | intro x | with_reducible apply wr_kept | with_reducible apply wrBit_kept | with_reducible apply ite_kept | split

theorem presetAll_kept {rr : Bool} {s0 s : State} (hk : Kept rr s0 s) : Kept rr s0 (presetAll s) := by
  delta presetAll
  repeat' first | with_reducible assumption | (intro x; refine (fun _ => ?_ : Kept rr s0 x → _) ?_; rotate_left; unfold x) | (intro x; refine (fun _ => ?_ : Kept rr s0 x.2 → _) ?_; rotate_left; unfold x) | (intro x; clear_value x) | intro x | with_reducible apply wr_kept | with_reducible apply updLaw_kept | lift_lets

theorem updTrc_kept {rr : Bool} {s0 s : State} (f : TrcSt → TrcSt) (hk : Kept rr s0 s) : Kept rr s0 (updTrc f s) := by
  delta updTrc
  repeat' first | with_reducible assumption | (intro x; refine (fun _ => ?_ : Kept rr s0 x → _) ?_; rotate_left; unfold x) | (intro x; refine (fun _ => ?_ : Kept rr s0 x.2 → _) ?_; rotate_left; unfold x) | (intro x; clear_value x) | intro x | with_reducible apply wr_kept | with_reducible apply updLaw_kept

theorem trcTrigger_kept {rr : Bool} {s0 s : State} (hk : Kept rr s0 s) : Kept rr s0 (trcTrigger s) := by
  delta trcTrigger
  repeat' first | with_reducible assumption | (intro x; refine (fun _ => ?_ : Kept rr s0 x → _) ?_; rotate_left; unfold x) | (intro x; refine (fun _ => ?_ : Kept rr s0 x.2 → _) ?_; rotate_left; unfold x) | (intro x; clear_value x) | intro x | with_reducible apply wr_kept | with_reducible apply updTrc_kept | with_reducible apply bump_kept | with_reducible apply ite_kept | split

theorem lawTo_kept {rr : Bool} {s0 s : State} (new cause : Nat) (hk : Kept rr s0 s) : Kept rr s0 (lawTo new cause s) := by
  delta lawTo
  repeat' first | with_reducible assumption | (intro x; refine (fun _ => ?_ : Kept rr s0 x → _) ?_; rotate_left; unfold x) | (intro x; refine (fun _ => ?_ : Kept rr s0 x.2 → _) ?_; rotate_left; unfold x) | (intro x; clear_value x) | intro x | with_reducible apply wr_kept | with_reducible apply trcTrigger_kept | with_reducible apply redLawFault_kept | with_reducible apply setLive_kept | with_reducible apply clearDeblock_kept | with_reducible apply onlyIf_kept | with_reducible apply ite_kept | split | lift_lets

theorem swapTo_kept {rr : Bool} {s0 s : State} (b : Nat) (preset : Bool) (hk : Kept rr s0 s) : Kept rr s0 (swapTo b preset s) := by
  delta swapTo
  repeat' first | with_reducible assumption | (intro x; refine (fun _ => ?_ : Kept rr s0 x → _) ?_; rotate_left; unfold x) | (intro x; refine (fun _ => ?_ : Kept rr s0 x.2 → _) ?_; rotate_left; unfold x) | (intro x; clear_value x) | intro x | with_reducible apply wr_kept | with_reducible apply presetAll_kept | with_reducible apply ite_kept | split | lift_lets

theorem lawBegin_kept {rr : Bool} {s0 s : State} (hk : Kept rr s0 s) : Kept rr s0 (lawBegin s) := by
  delta lawBegin
  repeat' first | with_reducible assumption | (intro x; refine (fun _ => ?_ : Kept rr s0 x → _) ?_; rotate_left; unfold x) | (intro x; refine (fun _ => ?_ : Kept rr s0 x.2 → _) ?_; rotate_left; unfold x) | (intro x; clear_value x) | intro x | with_reducible apply wr_kept | with_reducible apply lawTo_kept | with_reducible apply presetAll_kept | with_reducible apply updLaw_kept | lift_lets

theorem inputOne_kept {rr : Bool} {s0 : State} (w : LawWait) (lead : List (Nat × Nat)) (i : Nat) {q : InStage × State} (hk : Kept rr s0 q.2) :
    Kept rr s0 (inputOne w lead i q).2 := by
  delta inputOne
  repeat' first | with_reducible assumption | (intro x; refine (fun _ => ?_ : Kept rr s0 x → _) ?_; rotate_left; unfold x) | (intro x; refine (fun _ => ?_ : Kept rr s0 x.2 → _) ?_; rotate_left; unfold x) | (intro x; clear_value x) | intro x | with_reducible apply wr_kept | with_reducible apply ite_kept | with_reducible apply ite2_kept | with_reducible apply updLaw_kept | split | lift_lets

theorem inputStage_kept {rr : Bool} {s0 s : State} (w : LawWait) (hk : Kept rr s0 s) : Kept rr s0 (inputStage w s).2 := by
  delta inputStage
  repeat' first | with_reducible assumption | (intro x; refine (fun _ => ?_ : Kept rr s0 x → _) ?_; rotate_left; unfold x) | (intro x; refine (fun _ => ?_ : Kept rr s0 x.2 → _) ?_; rotate_left; unfold x) | (intro x; clear_value x) | intro x | with_reducible apply wr_kept | with_reducible apply ite_kept | with_reducible apply ite2_kept | with_reducible apply updLaw_kept | with_reducible apply updRed_kept | with_reducible apply bump_kept | with_reducible apply onlyIf_kept | with_reducible apply foldl2_kept | with_reducible apply inputOne_kept | split | lift_lets

theorem supervise_kept {rr : Bool} {s0 s : State} (bad : List Nat) (swapped : Bool) (hk : Kept rr s0 s) : Kept rr s0 (supervise bad swapped s) := by
  delta supervise
  repeat' first | with_reducible assumption | (intro x; refine (fun _ => ?_ : Kept rr s0 x → _) ?_; rotate_left; unfold x) | (intro x; refine (fun _ => ?_ : Kept rr s0 x.2 → _) ?_; rotate_left; unfold x) | (intro x; clear_value x) | intro x | with_reducible apply wr_kept | with_reducible apply swapTo_kept | with_reducible apply lawTo_kept | with_reducible apply updLaw_kept | with_reducible apply bump_kept | with_reducible apply ite_kept | split | lift_lets

theorem scheduleStage_kept {rr : Bool} {s0 s : State} (sig : List (Nat × Nat)) (hk : Kept rr s0 s) : Kept rr s0 (scheduleStage sig s) := by
  delta scheduleStage
  repeat' first | with_reducible assumption | (intro x; refine (fun _ => ?_ : Kept rr s0 x → _) ?_; rotate_left; unfold x) | (intro x; refine (fun _ => ?_ : Kept rr s0 x.2 → _) ?_; rotate_left; unfold x) | (intro x; refine (fun _ => ?_ : Kept rr s0 x.2.2 → _) ?_; rotate_left; unfold x) | (intro x; clear_value x) | intro x | with_reducible apply wr_kept | with_reducible apply updLaw_kept | with_reducible apply bump_kept | with_reducible apply ite_kept | split | lift_lets

theorem evalGraph_kept {rr : Bool} {s0 s : State} (k start extra : Nat) (lost : Bool) (i : InStage) (hk : Kept rr s0 s) : Kept rr s0 (evalGraph k start extra lost i s).2 := by
  delta evalGraph
  repeat' first | with_reducible assumption | (intro x; refine (fun _ => ?_ : Kept rr s0 x → _) ?_; rotate_left; unfold x) | (intro x; refine (fun _ => ?_ : Kept rr s0 x.2 → _) ?_; rotate_left; unfold x) | (intro x; clear_value x) | intro x | with_reducible apply wr_kept | with_reducible apply foldl_kept | with_reducible apply foldl2_kept | with_reducible apply scheduleStage_kept | split | lift_lets

theorem residueFailures_kept {rr : Bool} {s0 s : State} (k : Nat) (fails : List Nat) (hk : Kept rr s0 s) : Kept rr s0 (residueFailures k fails s).2 := by
  delta residueFailures
  repeat' first | with_reducible assumption | (intro x; refine (fun _ => ?_ : Kept rr s0 x → _) ?_; rotate_left; unfold x) | (intro x; refine (fun _ => ?_ : Kept rr s0 x.2 → _) ?_; rotate_left; unfold x) | (intro x; clear_value x) | intro x | with_reducible apply wr_kept | with_reducible apply foldl_kept | with_reducible apply foldl2_kept | with_reducible apply updLaw_kept | with_reducible apply pulse_kept | with_reducible apply each_kept | lift_lets

theorem lawStart_kept {rr : Bool} {s0 s : State} (w : LawWait) (fails : List Nat) (corrected : Nat) (ecc : Bool) (hk : Kept rr s0 s) : Kept rr s0 (lawStart w fails corrected ecc s) := by
  delta lawStart
  repeat' first | with_reducible assumption | (intro x; refine (fun _ => ?_ : Kept rr s0 x → _) ?_; rotate_left; unfold x) | (intro x; refine (fun _ => ?_ : Kept rr s0 x.2 → _) ?_; rotate_left; unfold x) | (intro x; refine (fun _ => ?_ : Kept rr s0 x.2.2 → _) ?_; rotate_left; unfold x) | (intro x; clear_value x) | intro x | with_reducible apply wr_kept | with_reducible apply residueFailures_kept | with_reducible apply evalGraph_kept | with_reducible apply supervise_kept | with_reducible apply inputStage_kept | with_reducible apply swapTo_kept | with_reducible apply updLaw_kept | with_reducible apply onlyIf_kept | with_reducible apply bump_kept | with_reducible apply bumpN_kept | with_reducible apply ite_kept | with_reducible apply ite2_kept | split | lift_lets

theorem lawPMark_kept {rr : Bool} {s0 s : State} (k : Nat) (hk : Kept rr s0 s) : Kept rr s0 (lawPMark k s) := by
  delta lawPMark
  repeat' first | with_reducible assumption | (intro x; refine (fun _ => ?_ : Kept rr s0 x → _) ?_; rotate_left; unfold x) | (intro x; refine (fun _ => ?_ : Kept rr s0 x.2 → _) ?_; rotate_left; unfold x) | (intro x; clear_value x) | intro x | with_reducible apply wr_kept | with_reducible apply lawBegin_kept | with_reducible apply lawTo_kept | with_reducible apply updLaw_kept | with_reducible apply lagRecompute_kept | with_reducible apply failLogical_kept | with_reducible apply each_kept | with_reducible apply ite_kept | split | lift_lets

theorem lawWritten_kept {rr : Bool} {s0 s : State} (k : Nat) (core : Bool) (hk : Kept rr s0 s) : Kept rr s0 (lawWritten k core s) := by
  delta lawWritten
  repeat' first | with_reducible assumption | (intro x; refine (fun _ => ?_ : Kept rr s0 x → _) ?_; rotate_left; unfold x) | (intro x; refine (fun _ => ?_ : Kept rr s0 x.2 → _) ?_; rotate_left; unfold x) | (intro x; clear_value x) | intro x | with_reducible apply wr_kept | with_reducible apply updLaw_kept | with_reducible apply wrBit_kept | with_reducible apply ite_kept | split

end Sys2Proof.Machine
end

