-- ==== Sys2Proof/Laws/KAdc.lean ====
section
/-! SUPPORT. What the operations of Machine/Adc.lean keep. -/
set_option linter.all false
namespace Sys2Proof.Machine

theorem timerTrig_kept {rr : Bool} {s0 s : State} (q : Nat) (hk : Kept rr s0 s) : Kept rr s0 (timerTrig q s) := by
  delta timerTrig
  repeat' first | with_reducible assumption | (intro x; refine (fun _ => ?_ : Kept rr s0 x → _) ?_; rotate_left; unfold x) | (intro x; refine (fun _ => ?_ : Kept rr s0 x.2 → _) ?_; rotate_left; unfold x) | (intro x; clear_value x) | intro x | with_reducible apply wr_kept | with_reducible apply trigSeq_kept | with_reducible apply adcNow_kept | with_reducible apply advVt_kept | with_reducible apply ite_kept | split | lift_lets

theorem writeSeqCmd_kept {rr : Bool} {s0 s : State} (q v : Nat) (hk : Kept rr s0 s) : Kept rr s0 (writeSeqCmd q v s).2 := by
  delta writeSeqCmd
  repeat' first | with_reducible assumption | (intro x; refine (fun _ => ?_ : Kept rr s0 x → _) ?_; rotate_left; unfold x) | (intro x; refine (fun _ => ?_ : Kept rr s0 x.2 → _) ?_; rotate_left; unfold x) | (intro x; clear_value x) | intro x | with_reducible apply wr_kept | with_reducible apply stopSeq_kept | with_reducible apply trigSeq_kept | with_reducible apply adcNow_kept | with_reducible apply done_kept | with_reducible apply writeBy_kept | with_reducible apply ite_kept | with_reducible apply ite2_kept | split

theorem writeSeqTrig_kept {rr : Bool} {s0 s : State} (q v : Nat) (hk : Kept rr s0 s) : Kept rr s0 (writeSeqTrig q v s).2 := by
  delta writeSeqTrig
  repeat' first | with_reducible assumption | (intro x; refine (fun _ => ?_ : Kept rr s0 x → _) ?_; rotate_left; unfold x) | (intro x; refine (fun _ => ?_ : Kept rr s0 x.2 → _) ?_; rotate_left; unfold x) | (intro x; clear_value x) | intro x | with_reducible apply wr_kept | with_reducible apply updCalState_kept | with_reducible apply stopSeq_kept | with_reducible apply startRun_kept | with_reducible apply adcNow_kept | with_reducible apply done_kept | with_reducible apply writeBy_kept | with_reducible apply ite_kept | with_reducible apply ite2_kept | split | lift_lets

theorem holdReserve_kept {rr : Bool} {s0 s : State} (hk : Kept rr s0 s) : Kept rr s0 (holdReserve s) := by
  delta holdReserve
  repeat' first | with_reducible assumption | (intro x; refine (fun _ => ?_ : Kept rr s0 x → _) ?_; rotate_left; unfold x) | (intro x; refine (fun _ => ?_ : Kept rr s0 x.2 → _) ?_; rotate_left; unfold x) | (intro x; clear_value x) | intro x | with_reducible apply wr_kept | with_reducible apply adcNow_kept | with_reducible apply advVt_kept | with_reducible apply ite_kept | split

theorem holdRound_kept {rr : Bool} {s0 s : State} (hk : Kept rr s0 s) : Kept rr s0 (holdRound s) := by
  delta holdRound
  repeat' first | with_reducible assumption | (intro x; refine (fun _ => ?_ : Kept rr s0 x → _) ?_; rotate_left; unfold x) | (intro x; refine (fun _ => ?_ : Kept rr s0 x.2 → _) ?_; rotate_left; unfold x) | (intro x; refine (fun _ => ?_ : Kept rr s0 x.2.2 → _) ?_; rotate_left; unfold x) | (intro x; clear_value x) | intro x | with_reducible apply wr_kept | with_reducible apply adcNow_kept | with_reducible apply entStarted_kept | with_reducible apply beginConv_kept | with_reducible apply updAdc_kept | with_reducible apply advVt_kept | with_reducible apply each_kept | split | lift_lets

theorem prioReq_kept {rr : Bool} {s0 s : State} (v : Nat) (hk : Kept rr s0 s) : Kept rr s0 (prioReq v s) := by
  delta prioReq
  repeat' first | with_reducible assumption | (intro x; refine (fun _ => ?_ : Kept rr s0 x → _) ?_; rotate_left; unfold x) | (intro x; refine (fun _ => ?_ : Kept rr s0 x.2 → _) ?_; rotate_left; unfold x) | (intro x; clear_value x) | intro x | with_reducible apply wr_kept | with_reducible apply adcCatch_kept | with_reducible apply beginConv_kept | with_reducible apply updAdc_kept | with_reducible apply bump_kept | with_reducible apply ite_kept | split | lift_lets

theorem writePrioReq_kept {rr : Bool} {s0 s : State} (v : Nat) (hk : Kept rr s0 s) : Kept rr s0 (writePrioReq v s).2 := by
  delta writePrioReq
  repeat' first | with_reducible assumption | (intro x; refine (fun _ => ?_ : Kept rr s0 x → _) ?_; rotate_left; unfold x) | (intro x; refine (fun _ => ?_ : Kept rr s0 x.2 → _) ?_; rotate_left; unfold x) | (intro x; clear_value x) | intro x | with_reducible apply wr_kept | with_reducible apply prioReq_kept | with_reducible apply done_kept | with_reducible apply writeBy_kept

theorem inputChange_kept {rr : Bool} {s0 s : State} (n : Nat) (hk : Kept rr s0 s) : Kept rr s0 (inputChange n s) := by
  delta inputChange
  repeat' first | with_reducible assumption | (intro x; refine (fun _ => ?_ : Kept rr s0 x → _) ?_; rotate_left; unfold x) | (intro x; refine (fun _ => ?_ : Kept rr s0 x.2 → _) ?_; rotate_left; unfold x) | (intro x; clear_value x) | intro x | with_reducible apply wr_kept | with_reducible apply applyChange_kept | with_reducible apply adcNow_kept | with_reducible apply updAdc_kept | with_reducible apply advVt_kept | with_reducible apply ite_kept | split | lift_lets

theorem settlingEnd_kept {rr : Bool} {s0 s : State} (n : Nat) (hk : Kept rr s0 s) : Kept rr s0 (settlingEnd n s) := by
  delta settlingEnd
  repeat' first | with_reducible assumption | (intro x; refine (fun _ => ?_ : Kept rr s0 x → _) ?_; rotate_left; unfold x) | (intro x; refine (fun _ => ?_ : Kept rr s0 x.2 → _) ?_; rotate_left; unfold x) | (intro x; refine (fun _ => ?_ : Kept rr s0 x.2.2 → _) ?_; rotate_left; unfold x) | (intro x; clear_value x) | intro x | with_reducible apply wr_kept | with_reducible apply showSettle_kept | with_reducible apply adcNow_kept | with_reducible apply advVt_kept | with_reducible apply ite_kept | split | lift_lets

theorem writePair_kept {rr : Bool} {s0 s : State} (p v : Nat) (hk : Kept rr s0 s) : Kept rr s0 (writePair p v s).2 := by
  delta writePair
  repeat' first | with_reducible assumption | (intro x; refine (fun _ => ?_ : Kept rr s0 x → _) ?_; rotate_left; unfold x) | (intro x; refine (fun _ => ?_ : Kept rr s0 x.2 → _) ?_; rotate_left; unfold x) | (intro x; clear_value x) | intro x | with_reducible apply wr_kept | with_reducible apply updCalState_kept | with_reducible apply adcNow_kept | with_reducible apply updAdc_kept | with_reducible apply done_kept | with_reducible apply writeBy_kept | with_reducible apply ite_kept | with_reducible apply ite2_kept | split | lift_lets

theorem owStart_kept {rr : Bool} {s0 s : State} (n : Nat) (hk : Kept rr s0 s) : Kept rr s0 (owStart n s) := by
  delta owStart
  repeat' first | with_reducible assumption | (intro x; refine (fun _ => ?_ : Kept rr s0 x → _) ?_; rotate_left; unfold x) | (intro x; refine (fun _ => ?_ : Kept rr s0 x.2 → _) ?_; rotate_left; unfold x) | (intro x; clear_value x) | intro x | with_reducible apply wr_kept | with_reducible apply openSettle_kept | with_reducible apply adcNow_kept | with_reducible apply updAdc_kept | with_reducible apply settle_kept | with_reducible apply advVt_kept | with_reducible apply bump_kept | with_reducible apply ite_kept | split | lift_lets

theorem owConvert_kept {rr : Bool} {s0 s : State} (n : Nat) (hk : Kept rr s0 s) : Kept rr s0 (owConvert n s) := by
  delta owConvert
  repeat' first | with_reducible assumption | (intro x; refine (fun _ => ?_ : Kept rr s0 x → _) ?_; rotate_left; unfold x) | (intro x; refine (fun _ => ?_ : Kept rr s0 x.2 → _) ?_; rotate_left; unfold x) | (intro x; clear_value x) | intro x | with_reducible apply wr_kept | with_reducible apply openSettle_kept | with_reducible apply adcNow_kept | with_reducible apply beginConv_kept | with_reducible apply updAdc_kept | with_reducible apply settle_kept | with_reducible apply advVt_kept | split | lift_lets

theorem comparator_kept {rr : Bool} {s0 s : State} (n : Nat) (code : Int) (stood : Nat) (hk : Kept rr s0 s) : Kept rr s0 (comparator n code stood s) := by
  delta comparator
  repeat' first | with_reducible assumption | (intro x; refine (fun _ => ?_ : Kept rr s0 x → _) ?_; rotate_left; unfold x) | (intro x; refine (fun _ => ?_ : Kept rr s0 x.2 → _) ?_; rotate_left; unfold x) | (intro x; clear_value x) | intro x | with_reducible apply wr_kept | with_reducible apply evalFns_kept | with_reducible apply setLive_kept | with_reducible apply wrBit_kept | with_reducible apply ite_kept | split | lift_lets

theorem takeCal_kept {rr : Bool} {s0 s : State} (l : List CalEntry) (hk : Kept rr s0 s) : Kept rr s0 (takeCal l s) := by
  delta takeCal
  repeat' first | with_reducible assumption | (intro x; refine (fun _ => ?_ : Kept rr s0 x → _) ?_; rotate_left; unfold x) | (intro x; refine (fun _ => ?_ : Kept rr s0 x.2 → _) ?_; rotate_left; unfold x) | (intro x; clear_value x) | intro x | with_reducible apply wr_kept | with_reducible apply updAdc_kept

theorem calEnd_kept {rr : Bool} {s0 s : State} (l : List CalEntry) (checks : List CalCheck) (hk : Kept rr s0 s) : Kept rr s0 (calEnd l checks s) := by
  delta calEnd
  repeat' first | with_reducible assumption | (intro x; refine (fun _ => ?_ : Kept rr s0 x → _) ?_; rotate_left; unfold x) | (intro x; refine (fun _ => ?_ : Kept rr s0 x.2 → _) ?_; rotate_left; unfold x) | (intro x; clear_value x) | intro x | with_reducible apply wr_kept | with_reducible apply takeCal_kept | with_reducible apply adcMapOut_kept | with_reducible apply updCalState_kept | with_reducible apply startRun_kept | with_reducible apply adcNow_kept | with_reducible apply updAdc_kept | with_reducible apply advVt_kept | with_reducible apply each_kept | with_reducible apply ite_kept | split | lift_lets

theorem calStart_kept {rr : Bool} {s0 s : State} (boot : Bool) (hk : Kept rr s0 s) : Kept rr s0 (calStart boot s) := by
  delta calStart
  repeat' first | with_reducible assumption | (intro x; refine (fun _ => ?_ : Kept rr s0 x → _) ?_; rotate_left; unfold x) | (intro x; refine (fun _ => ?_ : Kept rr s0 x.2 → _) ?_; rotate_left; unfold x) | (intro x; clear_value x) | intro x | with_reducible apply wr_kept | with_reducible apply updAdc_kept

theorem writeAdcCmd_kept {rr : Bool} {s0 s : State} (v : Nat) (hk : Kept rr s0 s) : Kept rr s0 (writeAdcCmd v s).2 := by
  delta writeAdcCmd
  repeat' first | with_reducible assumption | (intro x; refine (fun _ => ?_ : Kept rr s0 x → _) ?_; rotate_left; unfold x) | (intro x; refine (fun _ => ?_ : Kept rr s0 x.2 → _) ?_; rotate_left; unfold x) | (intro x; clear_value x) | intro x | with_reducible apply wr_kept | with_reducible apply calStart_kept | with_reducible apply done_kept | with_reducible apply writeBy_kept | with_reducible apply clearAll_kept | with_reducible apply ite_kept | with_reducible apply ite2_kept | split

theorem swapDueDo_kept {rr : Bool} {s0 s : State} (l : Nat) (hk : Kept rr s0 s) : Kept rr s0 (swapDueDo l s) := by
  delta swapDueDo
  repeat' first | with_reducible assumption | (intro x; refine (fun _ => ?_ : Kept rr s0 x → _) ?_; rotate_left; unfold x) | (intro x; refine (fun _ => ?_ : Kept rr s0 x.2 → _) ?_; rotate_left; unfold x) | (intro x; clear_value x) | intro x | with_reducible apply wr_kept | with_reducible apply updAdc_kept | with_reducible apply bump_kept | with_reducible apply ite_kept | split | lift_lets

theorem recalEnd_kept {rr : Bool} {s0 s : State} (l : List CalEntry) (check : CalCheck) (hk : Kept rr s0 s) : Kept rr s0 (recalEnd l check s) := by
  delta recalEnd
  repeat' first | with_reducible assumption | (intro x; refine (fun _ => ?_ : Kept rr s0 x → _) ?_; rotate_left; unfold x) | (intro x; refine (fun _ => ?_ : Kept rr s0 x.2 → _) ?_; rotate_left; unfold x) | (intro x; clear_value x) | intro x | with_reducible apply wr_kept | with_reducible apply takeCal_kept | with_reducible apply adcMapOut_kept | with_reducible apply updAdc_kept | with_reducible apply advVt_kept | with_reducible apply ite_kept | split | lift_lets

end Sys2Proof.Machine
end

