-- ==== Sys2Proof/Laws/KBal.lean ====
section
/-! SUPPORT. What the operations of Machine/Bal.lean keep. -/
set_option linter.all false
namespace Sys2Proof.Machine

theorem mirrorCell_kept {rr : Bool} {s0 s : State} (r : Report) (hk : Kept rr s0 s) : Kept rr s0 (mirrorCell r s) := by
  delta mirrorCell
  repeat' first | with_reducible assumption | (intro x; refine (fun _ => ?_ : Kept rr s0 x → _) ?_; rotate_left; unfold x) | (intro x; refine (fun _ => ?_ : Kept rr s0 x.2 → _) ?_; rotate_left; unfold x) | (intro x; clear_value x) | intro x | with_reducible apply wr_kept | with_reducible apply ite_kept | split | lift_lets

theorem relayReport_kept {rr : Bool} {s0 s : State} (link : Nat) (h : Hdr) (r : Report) (hk : Kept rr s0 s) : Kept rr s0 (relayReport link h r s) := by
  delta relayReport
  repeat' first | with_reducible assumption | (intro x; refine (fun _ => ?_ : Kept rr s0 x → _) ?_; rotate_left; unfold x) | (intro x; refine (fun _ => ?_ : Kept rr s0 x.2 → _) ?_; rotate_left; unfold x) | (intro x; clear_value x) | intro x | with_reducible apply wr_kept | with_reducible apply sendOn_kept | with_reducible apply each_kept | with_reducible apply ite_kept | split

theorem takeReport_kept {rr : Bool} {s0 s : State} (link : Nat) (relayed : Bool) (r : Report) (j : Nat) (w : PeriodWork) (hk : Kept rr s0 s) : Kept rr s0 (takeReport link relayed r j w s) := by
  delta takeReport
  repeat' first | with_reducible assumption | (intro x; refine (fun _ => ?_ : Kept rr s0 x → _) ?_; rotate_left; unfold x) | (intro x; refine (fun _ => ?_ : Kept rr s0 x.2 → _) ?_; rotate_left; unfold x) | (intro x; clear_value x) | intro x | with_reducible apply wr_kept | with_reducible apply closeSlot_kept | with_reducible apply updWork_kept | with_reducible apply onlyIf_kept | with_reducible apply bump_kept | with_reducible apply ite_kept | split | lift_lets

theorem reportRx_kept {rr : Bool} {s0 s : State} (crcOk : Bool) (link : Nat) (h : Hdr) (r : Report) (hk : Kept rr s0 s) : Kept rr s0 (reportRx crcOk link h r s) := by
  delta reportRx
  repeat' first | with_reducible assumption | (intro x; refine (fun _ => ?_ : Kept rr s0 x → _) ?_; rotate_left; unfold x) | (intro x; refine (fun _ => ?_ : Kept rr s0 x.2 → _) ?_; rotate_left; unfold x) | (intro x; clear_value x) | intro x | with_reducible apply wr_kept | with_reducible apply takeReport_kept | with_reducible apply relayReport_kept | with_reducible apply mirrorCell_kept | with_reducible apply ite_kept | split | lift_lets

theorem reportClose_kept {rr : Bool} {s0 s : State} (j : Nat) (hk : Kept rr s0 s) : Kept rr s0 (reportClose j s) := by
  delta reportClose
  repeat' first | with_reducible assumption | (intro x; refine (fun _ => ?_ : Kept rr s0 x → _) ?_; rotate_left; unfold x) | (intro x; refine (fun _ => ?_ : Kept rr s0 x.2 → _) ?_; rotate_left; unfold x) | (intro x; clear_value x) | intro x | with_reducible apply wr_kept | with_reducible apply closeSlot_kept | with_reducible apply advVt_kept | with_reducible apply ite_kept | split

theorem referenceRx_kept {rr : Bool} {s0 s : State} (crcOk : Bool) (lane : Nat) (r : Reference) (hk : Kept rr s0 s) : Kept rr s0 (referenceRx crcOk lane r s) := by
  delta referenceRx
  repeat' first | with_reducible assumption | (intro x; refine (fun _ => ?_ : Kept rr s0 x → _) ?_; rotate_left; unfold x) | (intro x; refine (fun _ => ?_ : Kept rr s0 x.2 → _) ?_; rotate_left; unfold x) | (intro x; clear_value x) | intro x | with_reducible apply wr_kept | with_reducible apply takeEntries_kept | with_reducible apply updWork_kept | with_reducible apply ite_kept | split | lift_lets

theorem sendCommands_kept {rr : Bool} {s0 s : State} (j : Nat) (w : PeriodWork) (r : Sel) (hk : Kept rr s0 s) : Kept rr s0 (sendCommands j w r s) := by
  delta sendCommands
  repeat' first | with_reducible assumption | (intro x; refine (fun _ => ?_ : Kept rr s0 x → _) ?_; rotate_left; unfold x) | (intro x; refine (fun _ => ?_ : Kept rr s0 x.2 → _) ?_; rotate_left; unfold x) | (intro x; clear_value x) | intro x | with_reducible apply wr_kept | with_reducible apply ordersUsed_kept | with_reducible apply periodLaunched_kept | with_reducible apply updWork_kept | with_reducible apply sendFrame_kept | with_reducible apply each_kept | lift_lets

theorem commandLaunch_kept {rr : Bool} {s0 s : State} (j vote : Nat) (hk : Kept rr s0 s) : Kept rr s0 (commandLaunch j vote s) := by
  delta commandLaunch
  repeat' first | with_reducible assumption | (intro x; refine (fun _ => ?_ : Kept rr s0 x → _) ?_; rotate_left; unfold x) | (intro x; refine (fun _ => ?_ : Kept rr s0 x.2 → _) ?_; rotate_left; unfold x) | (intro x; clear_value x) | intro x | with_reducible apply wr_kept | with_reducible apply sendCommands_kept | with_reducible apply compare_kept | with_reducible apply advVt_kept | with_reducible apply ite_kept | with_reducible apply ite2_kept | split | lift_lets

theorem sendReferences_kept {rr : Bool} {s0 s : State} (w : PeriodWork) (l : List (Nat × RefEntry)) (hk : Kept rr s0 s) : Kept rr s0 (sendReferences w l s) := by
  delta sendReferences
  repeat' first | with_reducible assumption | (intro x; refine (fun _ => ?_ : Kept rr s0 x → _) ?_; rotate_left; unfold x) | (intro x; refine (fun _ => ?_ : Kept rr s0 x.2 → _) ?_; rotate_left; unfold x) | (intro x; clear_value x) | intro x | with_reducible apply wr_kept | with_reducible apply updWork_kept | with_reducible apply sendFrame_kept | with_reducible apply each_kept | with_reducible apply ite_kept | split | lift_lets

theorem apportionLaunch_kept {rr : Bool} {s0 s : State} (hk : Kept rr s0 s) : Kept rr s0 (apportionLaunch s) := by
  delta apportionLaunch
  repeat' first | with_reducible assumption | (intro x; refine (fun _ => ?_ : Kept rr s0 x → _) ?_; rotate_left; unfold x) | (intro x; refine (fun _ => ?_ : Kept rr s0 x.2 → _) ?_; rotate_left; unfold x) | (intro x; clear_value x) | intro x | with_reducible apply wr_kept | with_reducible apply sendReferences_kept | with_reducible apply entriesDown_kept | with_reducible apply periodLaunched_kept | with_reducible apply updWork_kept | with_reducible apply advVt_kept | with_reducible apply ite_kept | with_reducible apply ite2_kept | split | lift_lets

theorem fillExtremes_kept {rr : Bool} {s0 s : State} (g : GroupSum) (hk : Kept rr s0 s) : Kept rr s0 (fillExtremes g s).2 := by
  delta fillExtremes
  repeat' first | with_reducible assumption | (intro x; refine (fun _ => ?_ : Kept rr s0 x → _) ?_; rotate_left; unfold x) | (intro x; refine (fun _ => ?_ : Kept rr s0 x.2 → _) ?_; rotate_left; unfold x) | (intro x; clear_value x) | intro x | with_reducible apply wr_kept | with_reducible apply takeFree_kept | with_reducible apply ite_kept | with_reducible apply ite2_kept | split | lift_lets

theorem buildSummary_kept {rr : Bool} {s0 s : State} (w : PeriodWork) (hk : Kept rr s0 s) : Kept rr s0 (buildSummary w s).2 := by
  delta buildSummary
  repeat' first | with_reducible assumption | (intro x; refine (fun _ => ?_ : Kept rr s0 x → _) ?_; rotate_left; unfold x) | (intro x; refine (fun _ => ?_ : Kept rr s0 x.2 → _) ?_; rotate_left; unfold x) | (intro x; clear_value x) | intro x | with_reducible apply wr_kept | with_reducible apply fillExtremes_kept | split | lift_lets

theorem summaryLaunch_kept {rr : Bool} {s0 s : State} (vote : Nat) (hk : Kept rr s0 s) : Kept rr s0 (summaryLaunch vote s) := by
  delta summaryLaunch
  repeat' first | with_reducible assumption | (intro x; refine (fun _ => ?_ : Kept rr s0 x → _) ?_; rotate_left; unfold x) | (intro x; refine (fun _ => ?_ : Kept rr s0 x.2 → _) ?_; rotate_left; unfold x) | (intro x; clear_value x) | intro x | with_reducible apply wr_kept | with_reducible apply buildSummary_kept | with_reducible apply compare_kept | with_reducible apply updWork_kept | with_reducible apply sendFrame_kept | with_reducible apply advVt_kept | with_reducible apply ite_kept | with_reducible apply ite2_kept | split | lift_lets

theorem countMissing_kept {rr : Bool} {s0 s : State} (g : Nat) (hk : Kept rr s0 s) : Kept rr s0 (countMissing g s) := by
  delta countMissing
  repeat' first | with_reducible assumption | (intro x; refine (fun _ => ?_ : Kept rr s0 x → _) ?_; rotate_left; unfold x) | (intro x; refine (fun _ => ?_ : Kept rr s0 x.2 → _) ?_; rotate_left; unfold x) | (intro x; clear_value x) | intro x | with_reducible apply wr_kept | with_reducible apply bump_kept | with_reducible apply ite_kept | split | lift_lets

theorem showGroups_kept {rr : Bool} {s0 s : State} (k g : Nat) (hk : Kept rr s0 s) : Kept rr s0 (showGroups k g s) := by
  delta showGroups
  repeat' first | with_reducible assumption | (intro x; refine (fun _ => ?_ : Kept rr s0 x → _) ?_; rotate_left; unfold x) | (intro x; refine (fun _ => ?_ : Kept rr s0 x.2 → _) ?_; rotate_left; unfold x) | (intro x; clear_value x) | intro x | with_reducible apply wr_kept | with_reducible apply slotStats_kept | with_reducible apply showCounts_kept | with_reducible apply ite_kept | split | lift_lets

theorem summaryRx_kept {rr : Bool} {s0 s : State} (crcOk : Bool) (link : Nat) (y : Summary) (hk : Kept rr s0 s) : Kept rr s0 (summaryRx crcOk link y s) := by
  delta summaryRx
  repeat' first | with_reducible assumption | (intro x; refine (fun _ => ?_ : Kept rr s0 x → _) ?_; rotate_left; unfold x) | (intro x; refine (fun _ => ?_ : Kept rr s0 x.2 → _) ?_; rotate_left; unfold x) | (intro x; clear_value x) | intro x | with_reducible apply wr_kept | with_reducible apply showGroups_kept | with_reducible apply countMissing_kept | with_reducible apply updWork_kept | with_reducible apply updBal_kept | with_reducible apply onlyIf_kept | with_reducible apply ite_kept | split | lift_lets

theorem summaryDeadline_kept {rr : Bool} {s0 s : State} (link : Nat) (hk : Kept rr s0 s) : Kept rr s0 (summaryDeadline link s) := by
  delta summaryDeadline
  repeat' first | with_reducible assumption | (intro x; refine (fun _ => ?_ : Kept rr s0 x → _) ?_; rotate_left; unfold x) | (intro x; refine (fun _ => ?_ : Kept rr s0 x.2 → _) ?_; rotate_left; unfold x) | (intro x; clear_value x) | intro x | with_reducible apply wr_kept | with_reducible apply showGroups_kept | with_reducible apply countMissing_kept | with_reducible apply updWork_kept | with_reducible apply advVt_kept | with_reducible apply ite_kept | split | lift_lets

theorem periodAbandon_kept {rr : Bool} {s0 s : State} (hk : Kept rr s0 s) : Kept rr s0 (periodAbandon s) := by
  delta periodAbandon
  repeat' first | with_reducible assumption | (intro x; refine (fun _ => ?_ : Kept rr s0 x → _) ?_; rotate_left; unfold x) | (intro x; refine (fun _ => ?_ : Kept rr s0 x.2 → _) ?_; rotate_left; unfold x) | (intro x; clear_value x) | intro x | with_reducible apply wr_kept | with_reducible apply countLate_kept | with_reducible apply updWork_kept | with_reducible apply advVt_kept | with_reducible apply ite_kept | split

theorem balWritten_kept {rr : Bool} {s0 s : State} (k : Nat) (hk : Kept rr s0 s) : Kept rr s0 (balWritten k s) := by
  delta balWritten
  repeat' first | with_reducible assumption | (intro x; refine (fun _ => ?_ : Kept rr s0 x → _) ?_; rotate_left; unfold x) | (intro x; refine (fun _ => ?_ : Kept rr s0 x.2 → _) ?_; rotate_left; unfold x) | (intro x; clear_value x) | intro x | with_reducible apply wr_kept | with_reducible apply updSlot_kept | with_reducible apply updSplit_kept | with_reducible apply ite_kept | split | lift_lets

theorem balPMark_kept {rr : Bool} {s0 s : State} (k claim : Nat) (hk : Kept rr s0 s) : Kept rr s0 (balPMark k claim s) := by
  delta balPMark
  repeat' first | with_reducible assumption | (intro x; refine (fun _ => ?_ : Kept rr s0 x → _) ?_; rotate_left; unfold x) | (intro x; refine (fun _ => ?_ : Kept rr s0 x.2 → _) ?_; rotate_left; unfold x) | (intro x; clear_value x) | intro x | with_reducible apply wr_kept | with_reducible apply updSlot_kept | with_reducible apply updBal_kept | with_reducible apply onlyIf_kept | with_reducible apply each_kept | with_reducible apply ite_kept | split | lift_lets

end Sys2Proof.Machine
end

