-- ==== Sys2Proof/Laws/KCell.lean ====
section
/-! SUPPORT. What the operations of Machine/Cell.lean keep. -/
set_option linter.all false
namespace Sys2Proof.Machine

theorem writeCelOrder_kept {rr : Bool} {s0 s : State} (v : Nat) (hk : Kept rr s0 s) : Kept rr s0 (writeCelOrder v s).2 := by
  delta writeCelOrder
  repeat' first | with_reducible assumption | (intro x; refine (fun _ => ?_ : Kept rr s0 x → _) ?_; rotate_left; unfold x) | (intro x; refine (fun _ => ?_ : Kept rr s0 x.2 → _) ?_; rotate_left; unfold x) | (intro x; clear_value x) | intro x | with_reducible apply wr_kept | with_reducible apply done_kept | with_reducible apply writeBy_kept | with_reducible apply ite_kept | with_reducible apply ite2_kept | with_reducible apply set_bal_kept | split | lift_lets

theorem writeCelClear_kept {rr : Bool} {s0 s : State} (v : Nat) (hk : Kept rr s0 s) : Kept rr s0 (writeCelClear v s).2 := by
  delta writeCelClear
  repeat' first | with_reducible assumption | (intro x; refine (fun _ => ?_ : Kept rr s0 x → _) ?_; rotate_left; unfold x) | (intro x; refine (fun _ => ?_ : Kept rr s0 x.2 → _) ?_; rotate_left; unfold x) | (intro x; clear_value x) | intro x | with_reducible apply wr_kept | with_reducible apply celClear_kept | with_reducible apply done_kept | with_reducible apply writeBy_kept | with_reducible apply ite_kept | with_reducible apply ite2_kept | split

theorem heldTimeout_kept {rr : Bool} {s0 s : State} (hk : Kept rr s0 s) : Kept rr s0 (heldTimeout s) := by
  delta heldTimeout
  repeat' first | with_reducible assumption | (intro x; refine (fun _ => ?_ : Kept rr s0 x → _) ?_; rotate_left; unfold x) | (intro x; refine (fun _ => ?_ : Kept rr s0 x.2 → _) ?_; rotate_left; unfold x) | (intro x; clear_value x) | intro x | with_reducible apply wr_kept | with_reducible apply heldOut_kept | with_reducible apply gatesNow_kept | with_reducible apply advTo_kept | split

end Sys2Proof.Machine
end

