-- ==== Sys2Proof/Laws/KDma.lean ====
section
/-! SUPPORT. What the operations of Machine/Dma.lean keep. -/
set_option linter.all false
namespace Sys2Proof.Machine

theorem dmaStop_kept {rr : Bool} {s0 s : State} (c moved : Nat) (hk : Kept rr s0 s) : Kept rr s0 (dmaStop c moved s).2 := by
  delta dmaStop
  repeat' first | with_reducible assumption | (intro x; refine (fun _ => ?_ : Kept rr s0 x → _) ?_; rotate_left; unfold x) | (intro x; refine (fun _ => ?_ : Kept rr s0 x.2 → _) ?_; rotate_left; unfold x) | (intro x; clear_value x) | intro x | with_reducible apply wr_kept | with_reducible apply dmaRun_kept | split

theorem dmaStopTo_kept {rr : Bool} {s0 s : State} (c moved st : Nat) (hk : Kept rr s0 s) : Kept rr s0 (dmaStopTo c moved st s) := by
  have h := dmaStop_kept c moved hk
  unfold dmaStopTo
  dsimp only
  split
  · exact chanError_kept _ _ _ _ h
  · split
    · exact chanError_kept _ _ _ _ h
    · exact setChanState_kept _ _ h

theorem dmaCmd_kept {rr : Bool} {s0 s : State} (c v moved : Nat) (hk : Kept rr s0 s) : Kept rr s0 (dmaCmd c v moved s) := by
  delta dmaCmd
  repeat' first | with_reducible assumption | (intro x; refine (fun _ => ?_ : Kept rr s0 x → _) ?_; rotate_left; unfold x) | (intro x; refine (fun _ => ?_ : Kept rr s0 x.2 → _) ?_; rotate_left; unfold x) | (intro x; clear_value x) | intro x | with_reducible apply wr_kept | with_reducible apply dmaStopTo_kept | with_reducible apply pdProceed_kept | with_reducible apply setChanState_kept | with_reducible apply updChan_kept | with_reducible apply ite_kept | split | lift_lets

theorem writeDmaCmd_kept {rr : Bool} {s0 s : State} (c v moved : Nat) (fw : Bool) (hk : Kept rr s0 s) : Kept rr s0 (writeDmaCmd c v moved fw s).2 := by
  delta writeDmaCmd
  repeat' first | with_reducible assumption | (intro x; refine (fun _ => ?_ : Kept rr s0 x → _) ?_; rotate_left; unfold x) | (intro x; refine (fun _ => ?_ : Kept rr s0 x.2 → _) ?_; rotate_left; unfold x) | (intro x; clear_value x) | intro x | with_reducible apply wr_kept | with_reducible apply dmaCmd_kept | with_reducible apply done_kept | with_reducible apply writeBy_kept | with_reducible apply ite_kept | with_reducible apply ite2_kept | split

theorem writeDmaGcmd_kept {rr : Bool} {s0 s : State} (v : Nat) (hk : Kept rr s0 s) : Kept rr s0 (writeDmaGcmd v s).2 := by
  delta writeDmaGcmd
  repeat' first | with_reducible assumption | (intro x; refine (fun _ => ?_ : Kept rr s0 x → _) ?_; rotate_left; unfold x) | (intro x; refine (fun _ => ?_ : Kept rr s0 x.2 → _) ?_; rotate_left; unfold x) | (intro x; clear_value x) | intro x | with_reducible apply wr_kept | with_reducible apply done_kept | with_reducible apply writeBy_kept | with_reducible apply clearAll_kept

theorem descFetch_kept {rr : Bool} {s0 s : State} (c : Nat) (ecc : Option Bool) (hk : Kept rr s0 s) : Kept rr s0 (descFetch c ecc s) := by
  delta descFetch
  repeat' first | with_reducible assumption | (intro x; refine (fun _ => ?_ : Kept rr s0 x → _) ?_; rotate_left; unfold x) | (intro x; refine (fun _ => ?_ : Kept rr s0 x.2 → _) ?_; rotate_left; unfold x) | (intro x; clear_value x) | intro x | with_reducible apply wr_kept | with_reducible apply chanError_kept | with_reducible apply updChan_kept | with_reducible apply onlyIf_kept | with_reducible apply bump_kept | with_reducible apply ite_kept | split | lift_lets

theorem descRun_kept {rr : Bool} {s0 s : State} (c : Nat) (ecc : Option Nat) (hk : Kept rr s0 s) : Kept rr s0 (descRun c ecc s) := by
  delta descRun
  repeat' first | with_reducible assumption | (intro x; refine (fun _ => ?_ : Kept rr s0 x → _) ?_; rotate_left; unfold x) | (intro x; refine (fun _ => ?_ : Kept rr s0 x.2 → _) ?_; rotate_left; unfold x) | (intro x; clear_value x) | intro x | with_reducible apply wr_kept | with_reducible apply descDone_kept | with_reducible apply pdProceed_kept | with_reducible apply dmaRun_kept | with_reducible apply chanError_kept | with_reducible apply onlyIf_kept | with_reducible apply bump_kept | with_reducible apply ite_kept | with_reducible apply ite2_kept | split | lift_lets

theorem pdExpiry_kept {rr : Bool} {s0 s : State} (moved : Nat) (hk : Kept rr s0 s) : Kept rr s0 (pdExpiry moved s) := by
  delta pdExpiry
  repeat' first | with_reducible assumption | (intro x; refine (fun _ => ?_ : Kept rr s0 x → _) ?_; rotate_left; unfold x) | (intro x; refine (fun _ => ?_ : Kept rr s0 x.2 → _) ?_; rotate_left; unfold x) | (intro x; clear_value x) | intro x | with_reducible apply wr_kept | with_reducible apply dmaStop_kept | with_reducible apply pdProceed_kept | with_reducible apply chanError_kept | with_reducible apply advTo_kept | with_reducible apply each_kept | split | lift_lets

end Sys2Proof.Machine
end

