-- ==== Sys2Proof/Laws/KOpsFio.lean ====
section
/-! SUPPORT. What the operations of Machine/OpsFio.lean keep. -/
set_option linter.all false
namespace Sys2Proof.Machine

theorem updIsland_kept {rr : Bool} {s0 s : State} (f : IslandSt → IslandSt) (hk : Kept rr s0 s) : Kept rr s0 (updIsland f s) := by
  delta updIsland
  repeat' first | with_reducible assumption | (intro x; refine (fun _ => ?_ : Kept rr s0 x → _) ?_; rotate_left; unfold x) | (intro x; refine (fun _ => ?_ : Kept rr s0 x.2 → _) ?_; rotate_left; unfold x) | (intro x; clear_value x) | intro x | with_reducible apply wr_kept | with_reducible apply updFio_kept

theorem fioSources_kept {rr : Bool} {s0 s : State} (hk : Kept rr s0 s) : Kept rr s0 (fioSources s) := by
  delta fioSources
  repeat' first | with_reducible assumption | (intro x; refine (fun _ => ?_ : Kept rr s0 x → _) ?_; rotate_left; unfold x) | (intro x; refine (fun _ => ?_ : Kept rr s0 x.2 → _) ?_; rotate_left; unfold x) | (intro x; clear_value x) | intro x | with_reducible apply wr_kept | with_reducible apply setLive_kept | lift_lets

theorem slotPend_kept {rr : Bool} {s0 s : State} (id v : Nat) (hk : Kept rr s0 s) : Kept rr s0 (slotPend id v s) := by
  delta slotPend
  repeat' first | with_reducible assumption | (intro x; refine (fun _ => ?_ : Kept rr s0 x → _) ?_; rotate_left; unfold x) | (intro x; refine (fun _ => ?_ : Kept rr s0 x.2 → _) ?_; rotate_left; unfold x) | (intro x; clear_value x) | intro x | with_reducible apply wr_kept | with_reducible apply updIsland_kept

theorem rotItem_kept {rr : Bool} {s0 s : State} (id : Nat) (hk : Kept rr s0 s) : Kept rr s0 (rotItem id s).2 := by
  delta rotItem
  repeat' first | with_reducible assumption | (intro x; refine (fun _ => ?_ : Kept rr s0 x → _) ?_; rotate_left; unfold x) | (intro x; refine (fun _ => ?_ : Kept rr s0 x.2 → _) ?_; rotate_left; unfold x) | (intro x; clear_value x) | intro x | with_reducible apply wr_kept | with_reducible apply takeFree_kept | split | lift_lets

theorem takeSlot_kept {rr : Bool} {s0 s : State} (hk : Kept rr s0 s) : Kept rr s0 (takeSlot s).2 := by
  delta takeSlot
  repeat' first | with_reducible assumption | (intro x; refine (fun _ => ?_ : Kept rr s0 x → _) ?_; rotate_left; unfold x) | (intro x; refine (fun _ => ?_ : Kept rr s0 x.2 → _) ?_; rotate_left; unfold x) | (intro x; clear_value x) | intro x | with_reducible apply wr_kept | with_reducible apply rotItem_kept | with_reducible apply updIsland_kept | with_reducible apply ite_kept | with_reducible apply ite2_kept | split | lift_lets

theorem diChanged_kept {rr : Bool} {s0 s : State} (hk : Kept rr s0 s) : Kept rr s0 (diChanged s) := by
  delta diChanged
  repeat' first | with_reducible assumption | (intro x; refine (fun _ => ?_ : Kept rr s0 x → _) ?_; rotate_left; unfold x) | (intro x; refine (fun _ => ?_ : Kept rr s0 x.2 → _) ?_; rotate_left; unfold x) | (intro x; clear_value x) | intro x | with_reducible apply wr_kept | with_reducible apply updIsland_kept | with_reducible apply ite_kept | split | lift_lets

theorem islandDown_kept {rr : Bool} {s0 s : State} (w : Nat) (hk : Kept rr s0 s) : Kept rr s0 (islandDown w s) := by
  delta islandDown
  repeat' first | with_reducible assumption | (intro x; refine (fun _ => ?_ : Kept rr s0 x → _) ?_; rotate_left; unfold x) | (intro x; refine (fun _ => ?_ : Kept rr s0 x.2 → _) ?_; rotate_left; unfold x) | (intro x; clear_value x) | intro x | with_reducible apply wr_kept | with_reducible apply takeSlot_kept | with_reducible apply updIsland_kept | with_reducible apply ite_kept | with_reducible apply ite2_kept | split | lift_lets

theorem nextParam_kept {rr : Bool} {s0 s : State} (hk : Kept rr s0 s) : Kept rr s0 (nextParam s).2 := by
  delta nextParam
  repeat' first | with_reducible assumption | (intro x; refine (fun _ => ?_ : Kept rr s0 x → _) ?_; rotate_left; unfold x) | (intro x; refine (fun _ => ?_ : Kept rr s0 x.2 → _) ?_; rotate_left; unfold x) | (intro x; clear_value x) | intro x | with_reducible apply wr_kept | with_reducible apply updFio_kept | with_reducible apply ite_kept | with_reducible apply ite2_kept | split

theorem downWord_kept {rr : Bool} {s0 s : State} (f : Nat) (hk : Kept rr s0 s) : Kept rr s0 (downWord f s).2 := by
  delta downWord
  repeat' first | with_reducible assumption | (intro x; refine (fun _ => ?_ : Kept rr s0 x → _) ?_; rotate_left; unfold x) | (intro x; refine (fun _ => ?_ : Kept rr s0 x.2 → _) ?_; rotate_left; unfold x) | (intro x; clear_value x) | intro x | with_reducible apply wr_kept | with_reducible apply foldl_kept | with_reducible apply foldl2_kept | with_reducible apply nextParam_kept | with_reducible apply updFio_kept | with_reducible apply ite_kept | with_reducible apply ite2_kept | split | lift_lets

theorem wrI32_kept {rr : Bool} {s0 s : State} (k : Nat) (z : Int) (hk : Kept rr s0 s) : Kept rr s0 (wrI32 k z s) := by
  delta wrI32
  repeat' first | with_reducible assumption | (intro x; refine (fun _ => ?_ : Kept rr s0 x → _) ?_; rotate_left; unfold x) | (intro x; refine (fun _ => ?_ : Kept rr s0 x.2 → _) ?_; rotate_left; unfold x) | (intro x; clear_value x) | intro x | with_reducible apply wr_kept

theorem speedOf_kept {rr : Bool} {s0 s : State} (e at_ : Nat) (hk : Kept rr s0 s) : Kept rr s0 (speedOf e at_ s) := by
  unfold speedOf
  dsimp only
  repeat' first | with_reducible assumption | with_reducible apply ite_kept | with_reducible apply wr_kept | with_reducible apply wrBit_kept | with_reducible apply updFio_kept | split

theorem takeEnc_kept {rr : Bool} {s0 s : State} (e new age : Nat) (ill : Bool) (hk : Kept rr s0 s) : Kept rr s0 (takeEnc e new age ill s) := by
  delta takeEnc
  repeat' first | with_reducible assumption | (intro x; refine (fun _ => ?_ : Kept rr s0 x → _) ?_; rotate_left; unfold x) | (intro x; refine (fun _ => ?_ : Kept rr s0 x.2 → _) ?_; rotate_left; unfold x) | (intro x; clear_value x) | intro x | with_reducible apply wr_kept | with_reducible apply speedOf_kept | with_reducible apply wrI32_kept | with_reducible apply updFio_kept | with_reducible apply wrBit_kept | with_reducible apply bump_kept | with_reducible apply ite_kept | split | lift_lets

theorem takeItem_kept {rr : Bool} {s0 s : State} (id v : Nat) (hk : Kept rr s0 s) : Kept rr s0 (takeItem id v s) := by
  delta takeItem
  repeat' first | with_reducible assumption | (intro x; refine (fun _ => ?_ : Kept rr s0 x → _) ?_; rotate_left; unfold x) | (intro x; refine (fun _ => ?_ : Kept rr s0 x.2 → _) ?_; rotate_left; unfold x) | (intro x; clear_value x) | intro x | with_reducible apply wr_kept | with_reducible apply wrI32_kept | with_reducible apply updFio_kept | with_reducible apply each_kept | with_reducible apply wrBit_kept | with_reducible apply bump_kept | with_reducible apply ite_kept | split | lift_lets

theorem takeDi_kept {rr : Bool} {s0 s : State} (d : Nat) (hk : Kept rr s0 s) : Kept rr s0 (takeDi d s) := by
  delta takeDi
  repeat' first | with_reducible assumption | (intro x; refine (fun _ => ?_ : Kept rr s0 x → _) ?_; rotate_left; unfold x) | (intro x; refine (fun _ => ?_ : Kept rr s0 x.2 → _) ?_; rotate_left; unfold x) | (intro x; clear_value x) | intro x | with_reducible apply wr_kept | with_reducible apply evalFns_kept

theorem mainBad_kept {rr : Bool} {s0 s : State} (hk : Kept rr s0 s) : Kept rr s0 (mainBad s) := by
  delta mainBad
  repeat' first | with_reducible assumption | (intro x; refine (fun _ => ?_ : Kept rr s0 x → _) ?_; rotate_left; unfold x) | (intro x; refine (fun _ => ?_ : Kept rr s0 x.2 → _) ?_; rotate_left; unfold x) | (intro x; clear_value x) | intro x | with_reducible apply wr_kept | with_reducible apply fioSources_kept | with_reducible apply updFio_kept | with_reducible apply evalFns_kept | with_reducible apply bump_kept | with_reducible apply ite_kept | split | lift_lets

theorem mainGood_kept {rr : Bool} {s0 s : State} (w : Nat) (hk : Kept rr s0 s) : Kept rr s0 (mainGood w s) := by
  delta mainGood
  repeat' first | with_reducible assumption | (intro x; refine (fun _ => ?_ : Kept rr s0 x → _) ?_; rotate_left; unfold x) | (intro x; refine (fun _ => ?_ : Kept rr s0 x.2 → _) ?_; rotate_left; unfold x) | (intro x; clear_value x) | intro x | with_reducible apply wr_kept | with_reducible apply takeDi_kept | with_reducible apply takeItem_kept | with_reducible apply takeEnc_kept | with_reducible apply fioSources_kept | with_reducible apply updFio_kept | with_reducible apply onlyIf_kept | with_reducible apply ite_kept | split | lift_lets

theorem fioWritten_kept {rr : Bool} {s0 s : State} (k : Nat) (hk : Kept rr s0 s) : Kept rr s0 (fioWritten k s) := by
  delta fioWritten
  repeat' first | with_reducible assumption | (intro x; refine (fun _ => ?_ : Kept rr s0 x → _) ?_; rotate_left; unfold x) | (intro x; refine (fun _ => ?_ : Kept rr s0 x.2 → _) ?_; rotate_left; unfold x) | (intro x; clear_value x) | intro x | with_reducible apply wr_kept | with_reducible apply fioSources_kept | with_reducible apply updFio_kept | with_reducible apply ite_kept | split | lift_lets

end Sys2Proof.Machine
end

