-- ==== Sys2Proof/Laws/KFio.lean ====
section
/-! SUPPORT. What the operations of Machine/Fio.lean keep. -/
set_option linter.all false
namespace Sys2Proof.Machine

theorem mainDeadline_kept {rr : Bool} {s0 s : State} (hk : Kept rr s0 s) : Kept rr s0 (mainDeadline s) := by
  delta mainDeadline
  repeat' first | with_reducible assumption | (intro x; refine (fun _ => ?_ : Kept rr s0 x → _) ?_; rotate_left; unfold x) | (intro x; refine (fun _ => ?_ : Kept rr s0 x.2 → _) ?_; rotate_left; unfold x) | (intro x; clear_value x) | intro x | with_reducible apply wr_kept | with_reducible apply mainBad_kept | with_reducible apply advTo_kept | with_reducible apply ite_kept | split

theorem downLaunch_kept {rr : Bool} {s0 s : State} (hk : Kept rr s0 s) : Kept rr s0 (downLaunch s) := by
  delta downLaunch
  repeat' first | with_reducible assumption | (intro x; refine (fun _ => ?_ : Kept rr s0 x → _) ?_; rotate_left; unfold x) | (intro x; refine (fun _ => ?_ : Kept rr s0 x.2 → _) ?_; rotate_left; unfold x) | (intro x; clear_value x) | intro x | with_reducible apply wr_kept | with_reducible apply mainDeadline_kept | with_reducible apply downWord_kept | with_reducible apply updFio_kept | with_reducible apply advTo_kept | with_reducible apply ite_kept | with_reducible apply ite2_kept | split | lift_lets

theorem downArrive_kept {rr : Bool} {s0 s : State} (w : Nat) (hk : Kept rr s0 s) : Kept rr s0 (downArrive w s) := by
  delta downArrive
  repeat' first | with_reducible assumption | (intro x; refine (fun _ => ?_ : Kept rr s0 x → _) ?_; rotate_left; unfold x) | (intro x; refine (fun _ => ?_ : Kept rr s0 x.2 → _) ?_; rotate_left; unfold x) | (intro x; clear_value x) | intro x | with_reducible apply wr_kept | with_reducible apply islandDown_kept | with_reducible apply updIsland_kept | with_reducible apply advTo_kept | with_reducible apply ite_kept | split | lift_lets

theorem mainArrive_kept {rr : Bool} {s0 s : State} (w : Nat) (hk : Kept rr s0 s) : Kept rr s0 (mainArrive w s) := by
  delta mainArrive
  repeat' first | with_reducible assumption | (intro x; refine (fun _ => ?_ : Kept rr s0 x → _) ?_; rotate_left; unfold x) | (intro x; refine (fun _ => ?_ : Kept rr s0 x.2 → _) ?_; rotate_left; unfold x) | (intro x; clear_value x) | intro x | with_reducible apply wr_kept | with_reducible apply mainGood_kept | with_reducible apply mainBad_kept | with_reducible apply advTo_kept | with_reducible apply ite_kept | split | lift_lets

theorem fastArrive_kept {rr : Bool} {s0 s : State} (w : Nat) (hk : Kept rr s0 s) : Kept rr s0 (fastArrive w s) := by
  delta fastArrive
  repeat' first | with_reducible assumption | (intro x; refine (fun _ => ?_ : Kept rr s0 x → _) ?_; rotate_left; unfold x) | (intro x; refine (fun _ => ?_ : Kept rr s0 x.2 → _) ?_; rotate_left; unfold x) | (intro x; clear_value x) | intro x | with_reducible apply wr_kept | with_reducible apply takeDi_kept | with_reducible apply advTo_kept | with_reducible apply bump_kept | with_reducible apply ite_kept | split | lift_lets

theorem silence_kept {rr : Bool} {s0 s : State} (hk : Kept rr s0 s) : Kept rr s0 (silence s) := by
  delta silence
  repeat' first | with_reducible assumption | (intro x; refine (fun _ => ?_ : Kept rr s0 x → _) ?_; rotate_left; unfold x) | (intro x; refine (fun _ => ?_ : Kept rr s0 x.2 → _) ?_; rotate_left; unfold x) | (intro x; clear_value x) | intro x | with_reducible apply wr_kept | with_reducible apply updIsland_kept | with_reducible apply advTo_kept | with_reducible apply ite_kept | split | lift_lets

theorem diChange_kept {rr : Bool} {s0 s : State} (n : Nat) (mv : Int) (hk : Kept rr s0 s) : Kept rr s0 (diChange n mv s) := by
  delta diChange
  repeat' first | with_reducible assumption | (intro x; refine (fun _ => ?_ : Kept rr s0 x → _) ?_; rotate_left; unfold x) | (intro x; refine (fun _ => ?_ : Kept rr s0 x.2 → _) ?_; rotate_left; unfold x) | (intro x; clear_value x) | intro x | with_reducible apply wr_kept | with_reducible apply updIsland_kept | with_reducible apply ite_kept | split | lift_lets

theorem strainer_kept {rr : Bool} {s0 s : State} (n : Nat) (hk : Kept rr s0 s) : Kept rr s0 (strainer n s) := by
  delta strainer
  repeat' first | with_reducible assumption | (intro x; refine (fun _ => ?_ : Kept rr s0 x → _) ?_; rotate_left; unfold x) | (intro x; refine (fun _ => ?_ : Kept rr s0 x.2 → _) ?_; rotate_left; unfold x) | (intro x; clear_value x) | intro x | with_reducible apply wr_kept | with_reducible apply diChanged_kept | with_reducible apply updIsland_kept | with_reducible apply advTo_kept | with_reducible apply ite_kept | split | lift_lets

theorem doShortDo_kept {rr : Bool} {s0 s : State} (i : Nat) (hk : Kept rr s0 s) : Kept rr s0 (doShortDo i s) := by
  delta doShortDo
  repeat' first | with_reducible assumption | (intro x; refine (fun _ => ?_ : Kept rr s0 x → _) ?_; rotate_left; unfold x) | (intro x; refine (fun _ => ?_ : Kept rr s0 x.2 → _) ?_; rotate_left; unfold x) | (intro x; clear_value x) | intro x | with_reducible apply wr_kept | with_reducible apply updIsland_kept | with_reducible apply bump_kept | with_reducible apply ite_kept | split

theorem doRetry_kept {rr : Bool} {s0 s : State} (i : Nat) (hk : Kept rr s0 s) : Kept rr s0 (doRetry i s) := by
  delta doRetry
  repeat' first | with_reducible assumption | (intro x; refine (fun _ => ?_ : Kept rr s0 x → _) ?_; rotate_left; unfold x) | (intro x; refine (fun _ => ?_ : Kept rr s0 x.2 → _) ?_; rotate_left; unfold x) | (intro x; clear_value x) | intro x | with_reducible apply wr_kept | with_reducible apply updIsland_kept | with_reducible apply advTo_kept | split

theorem doOpenDo_kept {rr : Bool} {s0 s : State} (n : Nat) (cond : Bool) (hk : Kept rr s0 s) : Kept rr s0 (doOpenDo n cond s) := by
  delta doOpenDo
  repeat' first | with_reducible assumption | (intro x; refine (fun _ => ?_ : Kept rr s0 x → _) ?_; rotate_left; unfold x) | (intro x; refine (fun _ => ?_ : Kept rr s0 x.2 → _) ?_; rotate_left; unfold x) | (intro x; clear_value x) | intro x | with_reducible apply wr_kept | with_reducible apply updIsland_kept | with_reducible apply ite_kept | split

theorem supplyMeasure_kept {rr : Bool} {s0 s : State} (mv : Int) (hk : Kept rr s0 s) : Kept rr s0 (supplyMeasure mv s) := by
  delta supplyMeasure
  repeat' first | with_reducible assumption | (intro x; refine (fun _ => ?_ : Kept rr s0 x → _) ?_; rotate_left; unfold x) | (intro x; refine (fun _ => ?_ : Kept rr s0 x.2 → _) ?_; rotate_left; unfold x) | (intro x; clear_value x) | intro x | with_reducible apply wr_kept | with_reducible apply updIsland_kept | with_reducible apply ite_kept | split | lift_lets

theorem supplyCondition_kept {rr : Bool} {s0 s : State} (hk : Kept rr s0 s) : Kept rr s0 (supplyCondition s) := by
  delta supplyCondition
  repeat' first | with_reducible assumption | (intro x; refine (fun _ => ?_ : Kept rr s0 x → _) ?_; rotate_left; unfold x) | (intro x; refine (fun _ => ?_ : Kept rr s0 x.2 → _) ?_; rotate_left; unfold x) | (intro x; clear_value x) | intro x | with_reducible apply wr_kept | with_reducible apply foldl_kept | with_reducible apply foldl2_kept | with_reducible apply updIsland_kept | with_reducible apply advTo_kept | with_reducible apply ite_kept | split | lift_lets

theorem encEdge_kept {rr : Bool} {s0 s : State} (e : Nat) (a b : Bool) (hk : Kept rr s0 s) : Kept rr s0 (encEdge e a b s) := by
  delta encEdge
  repeat' first | with_reducible assumption | (intro x; refine (fun _ => ?_ : Kept rr s0 x → _) ?_; rotate_left; unfold x) | (intro x; refine (fun _ => ?_ : Kept rr s0 x.2 → _) ?_; rotate_left; unfold x) | (intro x; clear_value x) | intro x | with_reducible apply wr_kept | with_reducible apply updIsland_kept | with_reducible apply ite_kept | split | lift_lets

theorem zEdge_kept {rr : Bool} {s0 s : State} (e : Nat) (rising : Bool) (hk : Kept rr s0 s) : Kept rr s0 (zEdge e rising s) := by
  delta zEdge
  repeat' first | with_reducible assumption | (intro x; refine (fun _ => ?_ : Kept rr s0 x → _) ?_; rotate_left; unfold x) | (intro x; refine (fun _ => ?_ : Kept rr s0 x.2 → _) ?_; rotate_left; unfold x) | (intro x; clear_value x) | intro x | with_reducible apply wr_kept | with_reducible apply slotPend_kept | with_reducible apply updIsland_kept | with_reducible apply onlyIf_kept | with_reducible apply ite_kept | split | lift_lets

theorem pmLatch_kept {rr : Bool} {s0 s : State} (hk : Kept rr s0 s) : Kept rr s0 (pmLatch s) := by
  delta pmLatch
  repeat' first | with_reducible assumption | (intro x; refine (fun _ => ?_ : Kept rr s0 x → _) ?_; rotate_left; unfold x) | (intro x; refine (fun _ => ?_ : Kept rr s0 x.2 → _) ?_; rotate_left; unfold x) | (intro x; clear_value x) | intro x | with_reducible apply wr_kept | with_reducible apply slotPend_kept | with_reducible apply updIsland_kept | with_reducible apply advTo_kept | split | lift_lets

theorem ssiStart_kept {rr : Bool} {s0 s : State} (dat : Bool) (hk : Kept rr s0 s) : Kept rr s0 (ssiStart dat s) := by
  delta ssiStart
  repeat' first | with_reducible assumption | (intro x; refine (fun _ => ?_ : Kept rr s0 x → _) ?_; rotate_left; unfold x) | (intro x; refine (fun _ => ?_ : Kept rr s0 x.2 → _) ?_; rotate_left; unfold x) | (intro x; clear_value x) | intro x | with_reducible apply wr_kept | with_reducible apply slotPend_kept | with_reducible apply updIsland_kept | with_reducible apply updFio_kept | with_reducible apply advTo_kept | with_reducible apply bump_kept | with_reducible apply ite_kept | split | lift_lets

theorem ssiEnd_kept {rr : Bool} {s0 s : State} (bits : Nat) (stop : Bool) (hk : Kept rr s0 s) : Kept rr s0 (ssiEnd bits stop s) := by
  delta ssiEnd
  repeat' first | with_reducible assumption | (intro x; refine (fun _ => ?_ : Kept rr s0 x → _) ?_; rotate_left; unfold x) | (intro x; refine (fun _ => ?_ : Kept rr s0 x.2 → _) ?_; rotate_left; unfold x) | (intro x; clear_value x) | intro x | with_reducible apply wr_kept | with_reducible apply slotPend_kept | with_reducible apply updIsland_kept | with_reducible apply advTo_kept | with_reducible apply ite_kept | split | lift_lets

theorem prbEdge_kept {rr : Bool} {s0 s : State} (p : Nat) (rising : Bool) (hk : Kept rr s0 s) : Kept rr s0 (prbEdge p rising s) := by
  delta prbEdge
  repeat' first | with_reducible assumption | (intro x; refine (fun _ => ?_ : Kept rr s0 x → _) ?_; rotate_left; unfold x) | (intro x; refine (fun _ => ?_ : Kept rr s0 x.2 → _) ?_; rotate_left; unfold x) | (intro x; clear_value x) | intro x | with_reducible apply wr_kept | with_reducible apply slotPend_kept | with_reducible apply updIsland_kept | with_reducible apply ite_kept | split | lift_lets

theorem writeFioCmd_kept {rr : Bool} {s0 s : State} (v : Nat) (hk : Kept rr s0 s) : Kept rr s0 (writeFioCmd v s).2 := by
  delta writeFioCmd
  repeat' first | with_reducible assumption | (intro x; refine (fun _ => ?_ : Kept rr s0 x → _) ?_; rotate_left; unfold x) | (intro x; refine (fun _ => ?_ : Kept rr s0 x.2 → _) ?_; rotate_left; unfold x) | (intro x; clear_value x) | intro x | with_reducible apply wr_kept | with_reducible apply updFio_kept | with_reducible apply done_kept | with_reducible apply writeBy_kept | with_reducible apply clearAll_kept | with_reducible apply ite_kept | with_reducible apply ite2_kept | split

theorem armZ_kept {rr : Bool} {s0 s : State} (e : Nat) (hk : Kept rr s0 s) : Kept rr s0 (armZ e s) := by
  delta armZ
  repeat' first | with_reducible assumption | (intro x; refine (fun _ => ?_ : Kept rr s0 x → _) ?_; rotate_left; unfold x) | (intro x; refine (fun _ => ?_ : Kept rr s0 x.2 → _) ?_; rotate_left; unfold x) | (intro x; clear_value x) | intro x | with_reducible apply wr_kept | with_reducible apply updIsland_kept | with_reducible apply wrBit_kept | with_reducible apply ite_kept | split

theorem writePosCmd_kept {rr : Bool} {s0 s : State} (e v : Nat) (hk : Kept rr s0 s) : Kept rr s0 (writePosCmd e v s).2 := by
  delta writePosCmd
  repeat' first | with_reducible assumption | (intro x; refine (fun _ => ?_ : Kept rr s0 x → _) ?_; rotate_left; unfold x) | (intro x; refine (fun _ => ?_ : Kept rr s0 x.2 → _) ?_; rotate_left; unfold x) | (intro x; clear_value x) | intro x | with_reducible apply wr_kept | with_reducible apply armZ_kept | with_reducible apply fioSources_kept | with_reducible apply done_kept | with_reducible apply writeBy_kept | with_reducible apply wrBit_kept | with_reducible apply ite_kept | with_reducible apply ite2_kept | split

theorem writePrbCmd_kept {rr : Bool} {s0 s : State} (p v : Nat) (hk : Kept rr s0 s) : Kept rr s0 (writePrbCmd p v s).2 := by
  delta writePrbCmd
  repeat' first | with_reducible assumption | (intro x; refine (fun _ => ?_ : Kept rr s0 x → _) ?_; rotate_left; unfold x) | (intro x; refine (fun _ => ?_ : Kept rr s0 x.2 → _) ?_; rotate_left; unfold x) | (intro x; clear_value x) | intro x | with_reducible apply wr_kept | with_reducible apply updIsland_kept | with_reducible apply done_kept | with_reducible apply writeBy_kept | with_reducible apply wrBit_kept | with_reducible apply ite_kept | with_reducible apply ite2_kept | split

theorem writeDoPair_kept {rr : Bool} {s0 s : State} (v : Nat) (hk : Kept rr s0 s) : Kept rr s0 (writeDoPair v s).2 := by
  delta writeDoPair
  repeat' first | with_reducible assumption | (intro x; refine (fun _ => ?_ : Kept rr s0 x → _) ?_; rotate_left; unfold x) | (intro x; refine (fun _ => ?_ : Kept rr s0 x.2 → _) ?_; rotate_left; unfold x) | (intro x; clear_value x) | intro x | with_reducible apply wr_kept | with_reducible apply fioWritten_kept | with_reducible apply done_kept | with_reducible apply writeBy_kept | lift_lets

end Sys2Proof.Machine
end

