-- ==== Sys2Proof/Laws/KOpsCaddy.lean ====
section
/-! SUPPORT. What the operations of Machine/OpsCaddy.lean keep. -/
set_option linter.all false
namespace Sys2Proof.Machine

theorem caddyCheck_kept {rr : Bool} {s0 s : State} (hk : Kept rr s0 s) : Kept rr s0 (caddyCheck s) := by
  delta caddyCheck
  repeat' first | with_reducible assumption | (intro x; refine (fun _ => ?_ : Kept rr s0 x → _) ?_; rotate_left; unfold x) | (intro x; refine (fun _ => ?_ : Kept rr s0 x.2 → _) ?_; rotate_left; unfold x) | (intro x; clear_value x) | intro x | with_reducible apply wr_kept

theorem caddyCapture_kept {rr : Bool} {s0 s : State} (k : Nat) (hk : Kept rr s0 s) : Kept rr s0 (caddyCapture k s) := by
  delta caddyCapture
  repeat' first | with_reducible assumption | (intro x; refine (fun _ => ?_ : Kept rr s0 x → _) ?_; rotate_left; unfold x) | (intro x; refine (fun _ => ?_ : Kept rr s0 x.2 → _) ?_; rotate_left; unfold x) | (intro x; clear_value x) | intro x | with_reducible apply wr_kept | with_reducible apply updRed_kept | with_reducible apply ite_kept | split

theorem putStates_kept {rr : Bool} {s0 s : State} (l : List (Nat × Elem)) (w : List Nat) (hk : Kept rr s0 s) : Kept rr s0 (putStates l w s) := by
  induction l generalizing w s with
  | nil => exact hk
  | cons e t ih => exact ih _ (updLaw_kept _ hk)

theorem putRamps_kept {rr : Bool} {s0 s : State} (l : List (Nat × Elem)) (w : List Nat) (hk : Kept rr s0 s) : Kept rr s0 (putRamps l w s) := by
  induction l generalizing w s with
  | nil => exact hk
  | cons e t ih => exact ih _ (updLaw_kept _ hk)

theorem putObjs_kept {rr : Bool} {s0 s : State} (l b : List Nat) (hk : Kept rr s0 s) : Kept rr s0 (putObjs l b s) := by
  induction l generalizing b s with
  | nil => exact hk
  | cons e t ih => exact ih _ (wr_kept _ _ hk)

theorem putItem_kept {rr : Bool} {s0 s : State} (x : Nat) (b : List Nat) (hk : Kept rr s0 s) : Kept rr s0 (putItem x b s) := by
  delta putItem
  repeat' first | with_reducible assumption | (intro x; refine (fun _ => ?_ : Kept rr s0 x → _) ?_; rotate_left; unfold x) | (intro x; refine (fun _ => ?_ : Kept rr s0 x.2 → _) ?_; rotate_left; unfold x) | (intro x; clear_value x) | intro x | with_reducible apply wr_kept | with_reducible apply ite_kept | with_reducible apply ite2_kept | with_reducible apply putObjs_kept | with_reducible apply stBytes_kept | with_reducible apply putRamps_kept | with_reducible apply putStates_kept | with_reducible apply updLaw_kept | split | lift_lets

theorem putItems_kept {rr : Bool} {s0 s : State} (l b : List Nat) (hk : Kept rr s0 s) : Kept rr s0 (putItems l b s) := by
  induction l generalizing b s with
  | nil => exact hk
  | cons e t ih => exact ih _ (putItem_kept _ _ hk)

theorem caddyWrite_kept {rr : Bool} {s0 s : State} (k : Nat) (img : List Nat) (hk : Kept rr s0 s) : Kept rr s0 (caddyWrite k img s) := by
  delta caddyWrite
  repeat' first | with_reducible assumption | (intro x; refine (fun _ => ?_ : Kept rr s0 x → _) ?_; rotate_left; unfold x) | (intro x; refine (fun _ => ?_ : Kept rr s0 x.2 → _) ?_; rotate_left; unfold x) | (intro x; clear_value x) | intro x | with_reducible apply wr_kept | with_reducible apply putItems_kept | with_reducible apply updRed_kept | lift_lets

theorem caddyLate_kept {rr : Bool} {s0 s : State} (k : Nat) (hk : Kept rr s0 s) : Kept rr s0 (caddyLate k s) := by
  delta caddyLate
  repeat' first | with_reducible assumption | (intro x; refine (fun _ => ?_ : Kept rr s0 x → _) ?_; rotate_left; unfold x) | (intro x; refine (fun _ => ?_ : Kept rr s0 x.2 → _) ?_; rotate_left; unfold x) | (intro x; clear_value x) | intro x | with_reducible apply wr_kept | with_reducible apply setInstep_kept | with_reducible apply updRed_kept | with_reducible apply bump_kept

theorem caddyApply_kept {rr : Bool} {s0 s : State} (k : Nat) (hk : Kept rr s0 s) : Kept rr s0 (caddyApply k s) := by
  delta caddyApply
  repeat' first | with_reducible assumption | (intro x; refine (fun _ => ?_ : Kept rr s0 x → _) ?_; rotate_left; unfold x) | (intro x; refine (fun _ => ?_ : Kept rr s0 x.2 → _) ?_; rotate_left; unfold x) | (intro x; clear_value x) | intro x | with_reducible apply wr_kept | with_reducible apply caddyLate_kept | with_reducible apply caddyWrite_kept | with_reducible apply updRed_kept | with_reducible apply ite_kept | split | lift_lets

theorem caddyPMark_kept {rr : Bool} {s0 s : State} (hk : Kept rr s0 s) : Kept rr s0 (caddyPMark s) := by
  delta caddyPMark
  repeat' first | with_reducible assumption | (intro x; refine (fun _ => ?_ : Kept rr s0 x → _) ?_; rotate_left; unfold x) | (intro x; refine (fun _ => ?_ : Kept rr s0 x.2 → _) ?_; rotate_left; unfold x) | (intro x; clear_value x) | intro x | with_reducible apply wr_kept | with_reducible apply caddyWrite_kept | with_reducible apply ite_kept | split

end Sys2Proof.Machine
end

