-- ==== Sys2Proof/Laws/KKet.lean ====
section
/-! SUPPORT. What the operations of Machine/Ket.lean keep. -/
set_option linter.all false
namespace Sys2Proof.Machine

theorem ketRise_kept {rr : Bool} {s0 s : State} (n data : Nat) (hk : Kept rr s0 s) : Kept rr s0 (ketRise n data s) := by
  delta ketRise
  repeat' first | with_reducible assumption | (intro x; refine (fun _ => ?_ : Kept rr s0 x → _) ?_; rotate_left; unfold x) | (intro x; refine (fun _ => ?_ : Kept rr s0 x.2 → _) ?_; rotate_left; unfold x) | (intro x; clear_value x) | intro x | with_reducible apply wr_kept | with_reducible apply celFaults_kept | with_reducible apply readyEval_kept | with_reducible apply gatesNow_kept | with_reducible apply setLive_kept | with_reducible apply ite_kept | split

theorem ketFall_kept {rr : Bool} {s0 s : State} (n : Nat) (hk : Kept rr s0 s) : Kept rr s0 (ketFall n s) := by
  delta ketFall
  repeat' first | with_reducible assumption | (intro x; refine (fun _ => ?_ : Kept rr s0 x → _) ?_; rotate_left; unfold x) | (intro x; refine (fun _ => ?_ : Kept rr s0 x.2 → _) ?_; rotate_left; unfold x) | (intro x; clear_value x) | intro x | with_reducible apply wr_kept | with_reducible apply endFault_kept | with_reducible apply setLive_kept | with_reducible apply ite_kept | split

theorem ketBroken_kept {rr : Bool} {s0 s : State} (n : Nat) (on : Bool) (hk : Kept rr s0 s) : Kept rr s0 (ketBroken n on s) := by
  delta ketBroken
  repeat' first | with_reducible assumption | (intro x; refine (fun _ => ?_ : Kept rr s0 x → _) ?_; rotate_left; unfold x) | (intro x; refine (fun _ => ?_ : Kept rr s0 x.2 → _) ?_; rotate_left; unfold x) | (intro x; clear_value x) | intro x | with_reducible apply wr_kept | with_reducible apply setPath_kept | with_reducible apply setLive_kept | with_reducible apply updKet_kept | with_reducible apply wrBit_kept | with_reducible apply bump_kept | with_reducible apply ite_kept | split | lift_lets

theorem ketEscTime_kept {rr : Bool} {s0 s : State} (n : Nat) (hk : Kept rr s0 s) : Kept rr s0 (ketEscTime n s) := by
  delta ketEscTime
  repeat' first | with_reducible assumption | (intro x; refine (fun _ => ?_ : Kept rr s0 x → _) ?_; rotate_left; unfold x) | (intro x; refine (fun _ => ?_ : Kept rr s0 x.2 → _) ?_; rotate_left; unfold x) | (intro x; clear_value x) | intro x | with_reducible apply wr_kept | with_reducible apply setLive_kept | with_reducible apply escalate_kept | with_reducible apply advTo_kept | split

theorem writeKetClear_kept {rr : Bool} {s0 s : State} (v : Nat) (hk : Kept rr s0 s) : Kept rr s0 (writeKetClear v s).2 := by
  delta writeKetClear
  repeat' first | with_reducible assumption | (intro x; refine (fun _ => ?_ : Kept rr s0 x → _) ?_; rotate_left; unfold x) | (intro x; refine (fun _ => ?_ : Kept rr s0 x.2 → _) ?_; rotate_left; unfold x) | (intro x; clear_value x) | intro x | with_reducible apply wr_kept | with_reducible apply writeBy_kept | with_reducible apply clearSources_kept | with_reducible apply ite_kept | with_reducible apply ite2_kept | split | lift_lets

theorem writeKetCmd_kept {rr : Bool} {s0 s : State} (v : Nat) (hk : Kept rr s0 s) : Kept rr s0 (writeKetCmd v s).2 := by
  delta writeKetCmd
  repeat' first | with_reducible assumption | (intro x; refine (fun _ => ?_ : Kept rr s0 x → _) ?_; rotate_left; unfold x) | (intro x; refine (fun _ => ?_ : Kept rr s0 x.2 → _) ?_; rotate_left; unfold x) | (intro x; clear_value x) | intro x | with_reducible apply wr_kept | with_reducible apply done_kept | with_reducible apply writeBy_kept | with_reducible apply clearAll_kept

theorem ketRefill_kept {rr : Bool} {s0 s : State} (n : Nat) (hk : Kept rr s0 s) : Kept rr s0 (ketRefill n s) := by
  delta ketRefill
  repeat' first | with_reducible assumption | (intro x; refine (fun _ => ?_ : Kept rr s0 x → _) ?_; rotate_left; unfold x) | (intro x; refine (fun _ => ?_ : Kept rr s0 x.2 → _) ?_; rotate_left; unfold x) | (intro x; clear_value x) | intro x | with_reducible apply wr_kept | with_reducible apply queueEvent_kept | with_reducible apply setKSrc_kept | with_reducible apply advTo_kept | with_reducible apply wrBit_kept | with_reducible apply ite_kept | split | lift_lets

theorem eventsSend_kept {rr : Bool} {s0 s : State} (hk : Kept rr s0 s) : Kept rr s0 (eventsSend s) := by
  delta eventsSend
  repeat' first | with_reducible assumption | (intro x; refine (fun _ => ?_ : Kept rr s0 x → _) ?_; rotate_left; unfold x) | (intro x; refine (fun _ => ?_ : Kept rr s0 x.2 → _) ?_; rotate_left; unfold x) | (intro x; clear_value x) | intro x | with_reducible apply wr_kept | with_reducible apply queueShrunk_kept | with_reducible apply updKet_kept | with_reducible apply sendFrame_kept | with_reducible apply advTo_kept | with_reducible apply ite_kept | split | lift_lets

theorem placeEvent_kept {rr : Bool} {s0 s : State} (e : Event) (hk : Kept rr s0 s) : Kept rr s0 (placeEvent e s) := by
  delta placeEvent
  repeat' first | with_reducible assumption | (intro x; refine (fun _ => ?_ : Kept rr s0 x → _) ?_; rotate_left; unfold x) | (intro x; refine (fun _ => ?_ : Kept rr s0 x.2 → _) ?_; rotate_left; unfold x) | (intro x; clear_value x) | intro x | with_reducible apply wr_kept | with_reducible apply updKet_kept | with_reducible apply bump_kept | with_reducible apply ite_kept | split | lift_lets

theorem eventsRx_kept {rr : Bool} {s0 s : State} (src : Nat) (side : Bool) (e : Events) (hk : Kept rr s0 s) : Kept rr s0 (eventsRx src side e s) := by
  delta eventsRx
  repeat' first | with_reducible assumption | (intro x; refine (fun _ => ?_ : Kept rr s0 x → _) ?_; rotate_left; unfold x) | (intro x; refine (fun _ => ?_ : Kept rr s0 x.2 → _) ?_; rotate_left; unfold x) | (intro x; clear_value x) | intro x | with_reducible apply wr_kept | with_reducible apply placeEvent_kept | with_reducible apply setLive_kept | with_reducible apply updKet_kept | with_reducible apply each_kept | with_reducible apply bumpN_kept | with_reducible apply ite_kept | split | lift_lets

theorem writeKetQPop_kept {rr : Bool} {s0 s : State} (v : Nat) (hk : Kept rr s0 s) : Kept rr s0 (writeKetQPop v s).2 := by
  delta writeKetQPop
  repeat' first | with_reducible assumption | (intro x; refine (fun _ => ?_ : Kept rr s0 x → _) ?_; rotate_left; unfold x) | (intro x; refine (fun _ => ?_ : Kept rr s0 x.2 → _) ?_; rotate_left; unfold x) | (intro x; clear_value x) | intro x | with_reducible apply wr_kept | with_reducible apply done_kept | with_reducible apply writeBy_kept | with_reducible apply queueShrunk_kept | with_reducible apply updKet_kept

end Sys2Proof.Machine
end

