-- ==== Sys2Proof/Laws/KOpsNvm.lean ====
section
/-! SUPPORT. What the operations of Machine/OpsNvm.lean keep. -/
set_option linter.all false
namespace Sys2Proof.Machine

theorem setNvmBit_kept {rr : Bool} {s0 s : State} (b : Nat) (v : Bool) (hk : Kept rr s0 s) : Kept rr s0 (setNvmBit b v s) := by
  delta setNvmBit
  repeat' first | with_reducible assumption | (intro x; refine (fun _ => ?_ : Kept rr s0 x → _) ?_; rotate_left; unfold x) | (intro x; refine (fun _ => ?_ : Kept rr s0 x.2 → _) ?_; rotate_left; unfold x) | (intro x; clear_value x) | intro x | with_reducible apply wr_kept | with_reducible apply setLive_kept | with_reducible apply wrBit_kept | lift_lets

theorem updSecurity_kept {rr : Bool} {s0 s : State} (hk : Kept rr s0 s) : Kept rr s0 (updSecurity s) := by
  delta updSecurity
  repeat' first | with_reducible assumption | (intro x; refine (fun _ => ?_ : Kept rr s0 x → _) ?_; rotate_left; unfold x) | (intro x; refine (fun _ => ?_ : Kept rr s0 x.2 → _) ?_; rotate_left; unfold x) | (intro x; clear_value x) | intro x | with_reducible apply wr_kept | with_reducible apply setLive_kept

theorem updTamper_kept {rr : Bool} {s0 s : State} (hk : Kept rr s0 s) : Kept rr s0 (updTamper s) := by
  delta updTamper
  repeat' first | with_reducible assumption | (intro x; refine (fun _ => ?_ : Kept rr s0 x → _) ?_; rotate_left; unfold x) | (intro x; refine (fun _ => ?_ : Kept rr s0 x.2 → _) ?_; rotate_left; unfold x) | (intro x; clear_value x) | intro x | with_reducible apply wr_kept | with_reducible apply updSecurity_kept | with_reducible apply wrBit_kept

theorem verifySlot_kept {rr : Bool} {s0 s : State} (i : Nat) (hk : Kept rr s0 s) : Kept rr s0 (verifySlot i s).2 := by
  delta verifySlot
  repeat' first | with_reducible assumption | (intro x; refine (fun _ => ?_ : Kept rr s0 x → _) ?_; rotate_left; unfold x) | (intro x; refine (fun _ => ?_ : Kept rr s0 x.2 → _) ?_; rotate_left; unfold x) | (intro x; clear_value x) | intro x | with_reducible apply wr_kept | with_reducible apply setNvmBit_kept | with_reducible apply wrBit_kept | with_reducible apply ite_kept | with_reducible apply ite2_kept | split | lift_lets

theorem eraseSlot_kept {rr : Bool} {s0 s : State} (i : Nat) (hk : Kept rr s0 s) : Kept rr s0 (eraseSlot i s) := by
  delta eraseSlot
  repeat' first | with_reducible assumption | (intro x; refine (fun _ => ?_ : Kept rr s0 x → _) ?_; rotate_left; unfold x) | (intro x; refine (fun _ => ?_ : Kept rr s0 x.2 → _) ?_; rotate_left; unfold x) | (intro x; clear_value x) | intro x | with_reducible apply wr_kept | with_reducible apply ite_kept | with_reducible apply ite2_kept | with_reducible apply filterMem_kept | with_reducible apply updNvm_kept | split | lift_lets

theorem openSlot_kept {rr : Bool} {s0 s : State} (hk : Kept rr s0 s) : Kept rr s0 (openSlot s) := by
  delta openSlot
  repeat' first | with_reducible assumption | (intro x; refine (fun _ => ?_ : Kept rr s0 x → _) ?_; rotate_left; unfold x) | (intro x; refine (fun _ => ?_ : Kept rr s0 x.2 → _) ?_; rotate_left; unfold x) | (intro x; clear_value x) | intro x | with_reducible apply wr_kept | with_reducible apply eraseSlot_kept | with_reducible apply updNvm_kept | with_reducible apply ite_kept | split | lift_lets

theorem slotWrite_kept {rr : Bool} {s0 s : State} (off : Nat) (b : List Nat) (hk : Kept rr s0 s) : Kept rr s0 (slotWrite off b s) := by
  delta slotWrite
  repeat' first | with_reducible assumption | (intro x; refine (fun _ => ?_ : Kept rr s0 x → _) ?_; rotate_left; unfold x) | (intro x; refine (fun _ => ?_ : Kept rr s0 x.2 → _) ?_; rotate_left; unfold x) | (intro x; clear_value x) | intro x | with_reducible apply wr_kept | with_reducible apply openSlot_kept | with_reducible apply updNvm_kept | with_reducible apply stBytes_kept | with_reducible apply stBytes_kept | with_reducible apply ite_kept | split | lift_lets

theorem slotWritten_kept {rr : Bool} {s0 s : State} (hk : Kept rr s0 s) : Kept rr s0 (slotWritten s) := by
  delta slotWritten
  repeat' first | with_reducible assumption | (intro x; refine (fun _ => ?_ : Kept rr s0 x → _) ?_; rotate_left; unfold x) | (intro x; refine (fun _ => ?_ : Kept rr s0 x.2 → _) ?_; rotate_left; unfold x) | (intro x; clear_value x) | intro x | with_reducible apply wr_kept | with_reducible apply ite_kept | split

theorem eraseDone_kept {rr : Bool} {s0 s : State} (good : Bool) (hk : Kept rr s0 s) : Kept rr s0 (eraseDone good s) := by
  delta eraseDone
  repeat' first | with_reducible assumption | (intro x; refine (fun _ => ?_ : Kept rr s0 x → _) ?_; rotate_left; unfold x) | (intro x; refine (fun _ => ?_ : Kept rr s0 x.2 → _) ?_; rotate_left; unfold x) | (intro x; clear_value x) | intro x | with_reducible apply wr_kept | with_reducible apply updNvm_kept | with_reducible apply stBytes_kept | with_reducible apply each_kept | with_reducible apply stBytes_kept | with_reducible apply ite_kept | split | lift_lets

theorem storeDone_kept {rr : Bool} {s0 s : State} (good : Bool) (hk : Kept rr s0 s) : Kept rr s0 (storeDone good s) := by
  delta storeDone
  repeat' first | with_reducible assumption | (intro x; refine (fun _ => ?_ : Kept rr s0 x → _) ?_; rotate_left; unfold x) | (intro x; refine (fun _ => ?_ : Kept rr s0 x.2 → _) ?_; rotate_left; unfold x) | (intro x; clear_value x) | intro x | with_reducible apply wr_kept | with_reducible apply setNvmBit_kept | with_reducible apply updNvm_kept | with_reducible apply bump_kept | with_reducible apply ite_kept | split | lift_lets

theorem loadOne_kept {rr : Bool} {s0 s : State} (e : Nat × Nat) (hk : Kept rr s0 s) : Kept rr s0 (loadOne e s) := by
  delta loadOne
  repeat' first | with_reducible assumption | (intro x; refine (fun _ => ?_ : Kept rr s0 x → _) ?_; rotate_left; unfold x) | (intro x; refine (fun _ => ?_ : Kept rr s0 x.2 → _) ?_; rotate_left; unfold x) | (intro x; clear_value x) | intro x | with_reducible apply wr_kept | with_reducible apply bump_kept | with_reducible apply ite_kept | split | lift_lets

theorem loadStore_kept {rr : Bool} {s0 s : State} (hk : Kept rr s0 s) : Kept rr s0 (loadStore s) := by
  delta loadStore
  repeat' first | with_reducible assumption | (intro x; refine (fun _ => ?_ : Kept rr s0 x → _) ?_; rotate_left; unfold x) | (intro x; refine (fun _ => ?_ : Kept rr s0 x.2 → _) ?_; rotate_left; unfold x) | (intro x; clear_value x) | intro x | with_reducible apply wr_kept | with_reducible apply loadOne_kept | with_reducible apply setNvmBit_kept | with_reducible apply updNvm_kept | with_reducible apply each_kept | with_reducible apply bumpN_kept | with_reducible apply ite_kept | split | lift_lets

theorem nvmStore_kept {rr : Bool} {s0 s : State} (hk : Kept rr s0 s) : Kept rr s0 (nvmStore s) := by
  delta nvmStore
  repeat' first | with_reducible assumption | (intro x; refine (fun _ => ?_ : Kept rr s0 x → _) ?_; rotate_left; unfold x) | (intro x; refine (fun _ => ?_ : Kept rr s0 x.2 → _) ?_; rotate_left; unfold x) | (intro x; clear_value x) | intro x | with_reducible apply wr_kept | with_reducible apply updNvm_kept

theorem nvmDefaults_kept {rr : Bool} {s0 s : State} (hk : Kept rr s0 s) : Kept rr s0 (nvmDefaults s) := by
  delta nvmDefaults
  repeat' first | with_reducible assumption | (intro x; refine (fun _ => ?_ : Kept rr s0 x → _) ?_; rotate_left; unfold x) | (intro x; refine (fun _ => ?_ : Kept rr s0 x.2 → _) ?_; rotate_left; unfold x) | (intro x; clear_value x) | intro x | with_reducible apply wr_kept | with_reducible apply updNvm_kept

theorem nvmVerify_kept {rr : Bool} {s0 s : State} (hk : Kept rr s0 s) : Kept rr s0 (nvmVerify s) := by
  delta nvmVerify
  repeat' first | with_reducible assumption | (intro x; refine (fun _ => ?_ : Kept rr s0 x → _) ?_; rotate_left; unfold x) | (intro x; refine (fun _ => ?_ : Kept rr s0 x.2 → _) ?_; rotate_left; unfold x) | (intro x; clear_value x) | intro x | with_reducible apply wr_kept | with_reducible apply verifySlot_kept | with_reducible apply updNvm_kept

theorem nvmActivate_kept {rr : Bool} {s0 s : State} (hk : Kept rr s0 s) : Kept rr s0 (nvmActivate s) := by
  delta nvmActivate
  repeat' first | with_reducible assumption | (intro x; refine (fun _ => ?_ : Kept rr s0 x → _) ?_; rotate_left; unfold x) | (intro x; refine (fun _ => ?_ : Kept rr s0 x.2 → _) ?_; rotate_left; unfold x) | (intro x; clear_value x) | intro x | with_reducible apply wr_kept | with_reducible apply updNvm_kept

theorem nvmCommit_kept {rr : Bool} {s0 s : State} (hk : Kept rr s0 s) : Kept rr s0 (nvmCommit s) := by
  delta nvmCommit
  repeat' first | with_reducible assumption | (intro x; refine (fun _ => ?_ : Kept rr s0 x → _) ?_; rotate_left; unfold x) | (intro x; refine (fun _ => ?_ : Kept rr s0 x.2 → _) ?_; rotate_left; unfold x) | (intro x; clear_value x) | intro x | with_reducible apply wr_kept

theorem updOwner_kept {rr : Bool} {s0 s : State} (hk : Kept rr s0 s) : Kept rr s0 (updOwner s) := by
  delta updOwner
  repeat' first | with_reducible assumption | (intro x; refine (fun _ => ?_ : Kept rr s0 x → _) ?_; rotate_left; unfold x) | (intro x; refine (fun _ => ?_ : Kept rr s0 x.2 → _) ?_; rotate_left; unfold x) | (intro x; clear_value x) | intro x | with_reducible apply wr_kept

theorem putHostKey_kept {rr : Bool} {s0 s : State} (i key rights : Nat) (hk : Kept rr s0 s) : Kept rr s0 (putHostKey i key rights s) := by
  delta putHostKey
  repeat' first | with_reducible assumption | (intro x; refine (fun _ => ?_ : Kept rr s0 x → _) ?_; rotate_left; unfold x) | (intro x; refine (fun _ => ?_ : Kept rr s0 x.2 → _) ?_; rotate_left; unfold x) | (intro x; clear_value x) | intro x | with_reducible apply wr_kept | with_reducible apply updOwner_kept

theorem secEffect_kept {rr : Bool} {s0 s : State} (v : Nat) (hk : Kept rr s0 s) : Kept rr s0 (secEffect v s) := by
  delta secEffect
  repeat' first | with_reducible assumption | (intro x; refine (fun _ => ?_ : Kept rr s0 x → _) ?_; rotate_left; unfold x) | (intro x; refine (fun _ => ?_ : Kept rr s0 x.2 → _) ?_; rotate_left; unfold x) | (intro x; clear_value x) | intro x | with_reducible apply wr_kept | with_reducible apply putHostKey_kept | with_reducible apply each_kept | split

theorem writeSecCmd_kept {rr : Bool} {s0 s : State} (right : Bool) (v : Nat) (hk : Kept rr s0 s) : Kept rr s0 (writeSecCmd right v s).2 := by
  delta writeSecCmd
  repeat' first | with_reducible assumption | (intro x; refine (fun _ => ?_ : Kept rr s0 x → _) ?_; rotate_left; unfold x) | (intro x; refine (fun _ => ?_ : Kept rr s0 x.2 → _) ?_; rotate_left; unfold x) | (intro x; clear_value x) | intro x | with_reducible apply wr_kept | with_reducible apply secEffect_kept | with_reducible apply done_kept | with_reducible apply writeBy_kept | with_reducible apply ite_kept | with_reducible apply ite2_kept | split

theorem attest_kept {rr : Bool} {s0 s : State} (nonce : List Nat) (hk : Kept rr s0 s) : Kept rr s0 (attest nonce s).2 := by
  delta attest
  repeat' first | with_reducible assumption | (intro x; refine (fun _ => ?_ : Kept rr s0 x → _) ?_; rotate_left; unfold x) | (intro x; refine (fun _ => ?_ : Kept rr s0 x.2 → _) ?_; rotate_left; unfold x) | (intro x; clear_value x) | intro x | with_reducible apply wr_kept | with_reducible apply takeFree_kept | with_reducible apply bump_kept | lift_lets

end Sys2Proof.Machine
end

