-- ==== Sys2Proof/Laws/KOpsTsk.lean ====
section
/-! SUPPORT. What the operations of Machine/OpsTsk.lean keep. -/
set_option linter.all false
namespace Sys2Proof.Machine

theorem enableTask_kept {rr : Bool} {s0 s : State} (n : Nat) (hk : Kept rr s0 s) : Kept rr s0 (enableTask n s) := by
  delta enableTask
  repeat' first | with_reducible assumption | (intro x; refine (fun _ => ?_ : Kept rr s0 x → _) ?_; rotate_left; unfold x) | (intro x; refine (fun _ => ?_ : Kept rr s0 x.2 → _) ?_; rotate_left; unfold x) | (intro x; clear_value x) | intro x | with_reducible apply wr_kept | with_reducible apply wake_kept | with_reducible apply setTaskState_kept | with_reducible apply ite_kept | with_reducible apply set_tsk_kept | split | lift_lets

theorem offCores_kept {rr : Bool} {s0 s : State} (n : Nat) (hk : Kept rr s0 s) : Kept rr s0 (offCores n s) := by
  delta offCores
  repeat' first | with_reducible assumption | (intro x; refine (fun _ => ?_ : Kept rr s0 x → _) ?_; rotate_left; unfold x) | (intro x; refine (fun _ => ?_ : Kept rr s0 x.2 → _) ?_; rotate_left; unfold x) | (intro x; clear_value x) | intro x | with_reducible apply wr_kept | with_reducible apply coreStop_kept | with_reducible apply deq_kept | split | lift_lets

theorem endInstance_kept {rr : Bool} {s0 s : State} (n : Nat) (hk : Kept rr s0 s) : Kept rr s0 (endInstance n s) := by
  delta endInstance
  repeat' first | with_reducible assumption | (intro x; refine (fun _ => ?_ : Kept rr s0 x → _) ?_; rotate_left; unfold x) | (intro x; refine (fun _ => ?_ : Kept rr s0 x.2 → _) ?_; rotate_left; unfold x) | (intro x; clear_value x) | intro x | with_reducible apply wr_kept | with_reducible apply wake_kept | with_reducible apply offCores_kept | with_reducible apply release_kept | with_reducible apply setTaskPending_kept | with_reducible apply setTaskState_kept | with_reducible apply updTask_kept | with_reducible apply ite_kept | split | lift_lets

theorem abortTask_kept {rr : Bool} {s0 s : State} (n cause : Nat) (hk : Kept rr s0 s) : Kept rr s0 (abortTask n cause s) := by
  delta abortTask
  repeat' first | with_reducible assumption | (intro x; refine (fun _ => ?_ : Kept rr s0 x → _) ?_; rotate_left; unfold x) | (intro x; refine (fun _ => ?_ : Kept rr s0 x.2 → _) ?_; rotate_left; unfold x) | (intro x; clear_value x) | intro x | with_reducible apply wr_kept | with_reducible apply endInstance_kept | with_reducible apply pulse_kept | with_reducible apply bump_kept | with_reducible apply ite_kept | split | lift_lets

theorem abortAndDispatch_kept {rr : Bool} {s0 s : State} (n cause : Nat) (hk : Kept rr s0 s) : Kept rr s0 (abortAndDispatch n cause s) := by
  delta abortAndDispatch
  repeat' first | with_reducible assumption | (intro x; refine (fun _ => ?_ : Kept rr s0 x → _) ?_; rotate_left; unfold x) | (intro x; refine (fun _ => ?_ : Kept rr s0 x.2 → _) ?_; rotate_left; unfold x) | (intro x; clear_value x) | intro x | with_reducible apply wr_kept | with_reducible apply abortTask_kept | with_reducible apply dispatch_kept | with_reducible apply ite_kept | split

theorem disableTask_kept {rr : Bool} {s0 s : State} (n : Nat) (hk : Kept rr s0 s) : Kept rr s0 (disableTask n s) := by
  delta disableTask
  repeat' first | with_reducible assumption | (intro x; refine (fun _ => ?_ : Kept rr s0 x → _) ?_; rotate_left; unfold x) | (intro x; refine (fun _ => ?_ : Kept rr s0 x.2 → _) ?_; rotate_left; unfold x) | (intro x; clear_value x) | intro x | with_reducible apply wr_kept | with_reducible apply abortTask_kept | with_reducible apply offCores_kept | with_reducible apply dispatch_kept | with_reducible apply setTaskPending_kept | with_reducible apply setTaskState_kept | with_reducible apply ite_kept | with_reducible apply set_tsk_kept | split | lift_lets

theorem signalTask_kept {rr : Bool} {s0 s : State} (n : Nat) (hk : Kept rr s0 s) : Kept rr s0 (signalTask n s) := by
  delta signalTask
  repeat' first | with_reducible assumption | (intro x; refine (fun _ => ?_ : Kept rr s0 x → _) ?_; rotate_left; unfold x) | (intro x; refine (fun _ => ?_ : Kept rr s0 x.2 → _) ?_; rotate_left; unfold x) | (intro x; clear_value x) | intro x | with_reducible apply wr_kept | with_reducible apply release_kept | with_reducible apply dispatch_kept | with_reducible apply ite_kept | split

theorem clearTaskCounters_kept {rr : Bool} {s0 s : State} (hk : Kept rr s0 s) : Kept rr s0 (clearTaskCounters s) :=
  filterObjs_kept _ (each_kept (fun _ _ h => updPort_kept _ _ h) (clearAll_kept _ hk))

theorem writeTskCmd_kept {rr : Bool} {s0 s : State} (v : Nat) (hk : Kept rr s0 s) : Kept rr s0 (writeTskCmd v s).2 := by
  delta writeTskCmd
  repeat' first | with_reducible assumption | (intro x; refine (fun _ => ?_ : Kept rr s0 x → _) ?_; rotate_left; unfold x) | (intro x; refine (fun _ => ?_ : Kept rr s0 x.2 → _) ?_; rotate_left; unfold x) | (intro x; clear_value x) | intro x | with_reducible apply wr_kept | with_reducible apply clearTaskCounters_kept | with_reducible apply signalTask_kept | with_reducible apply disableTask_kept | with_reducible apply enableTask_kept | with_reducible apply done_kept | with_reducible apply writeBy_kept | split | lift_lets

theorem tickEntry_kept {rr : Bool} {s0 s : State} (n : Nat) (tickRelease : Bool) (hk : Kept rr s0 s) : Kept rr s0 (tickEntry n tickRelease s) := by
  delta tickEntry
  repeat' first | with_reducible assumption | (intro x; refine (fun _ => ?_ : Kept rr s0 x → _) ?_; rotate_left; unfold x) | (intro x; refine (fun _ => ?_ : Kept rr s0 x.2 → _) ?_; rotate_left; unfold x) | (intro x; clear_value x) | intro x | with_reducible apply wr_kept | with_reducible apply wake_kept | with_reducible apply release_kept | with_reducible apply enqTail_kept | with_reducible apply setTaskState_kept | with_reducible apply updTask_kept | with_reducible apply ite_kept | split | lift_lets

theorem dispatcherTick_kept {rr : Bool} {s0 s : State} (hk : Kept rr s0 s) : Kept rr s0 (dispatcherTick s) := by
  delta dispatcherTick
  repeat' first | with_reducible assumption | (intro x; refine (fun _ => ?_ : Kept rr s0 x → _) ?_; rotate_left; unfold x) | (intro x; refine (fun _ => ?_ : Kept rr s0 x.2 → _) ?_; rotate_left; unfold x) | (intro x; refine (fun _ => ?_ : Kept rr s0 x.2.2 → _) ?_; rotate_left; unfold x) | (intro x; clear_value x) | intro x | with_reducible apply wr_kept | with_reducible apply tickEntry_kept | with_reducible apply abortTask_kept | with_reducible apply dispatch_kept | with_reducible apply advTo_kept | with_reducible apply each_kept | with_reducible apply ite_kept | split | lift_lets

theorem periodRelease_kept {rr : Bool} {s0 s : State} (n : Nat) (hk : Kept rr s0 s) : Kept rr s0 (periodRelease n s) := by
  delta periodRelease
  repeat' first | with_reducible assumption | (intro x; refine (fun _ => ?_ : Kept rr s0 x → _) ?_; rotate_left; unfold x) | (intro x; refine (fun _ => ?_ : Kept rr s0 x.2 → _) ?_; rotate_left; unfold x) | (intro x; clear_value x) | intro x | with_reducible apply wr_kept | with_reducible apply abortTask_kept | with_reducible apply release_kept | with_reducible apply dispatch_kept | with_reducible apply updTask_kept | with_reducible apply advVt_kept | with_reducible apply ite_kept | split | lift_lets

theorem lookAhead_kept {rr : Bool} {s0 s : State} (n : Nat) (hk : Kept rr s0 s) : Kept rr s0 (lookAhead n s) := by
  delta lookAhead
  repeat' first | with_reducible assumption | (intro x; refine (fun _ => ?_ : Kept rr s0 x → _) ?_; rotate_left; unfold x) | (intro x; refine (fun _ => ?_ : Kept rr s0 x.2 → _) ?_; rotate_left; unfold x) | (intro x; clear_value x) | intro x | with_reducible apply wr_kept | with_reducible apply fillDecks_kept | with_reducible apply advTo_kept | with_reducible apply ite_kept | split

theorem delayTask_kept {rr : Bool} {s0 s : State} (c n : Nat) (hk : Kept rr s0 s) : Kept rr s0 (delayTask c n s) := by
  delta delayTask
  repeat' first | with_reducible assumption | (intro x; refine (fun _ => ?_ : Kept rr s0 x → _) ?_; rotate_left; unfold x) | (intro x; refine (fun _ => ?_ : Kept rr s0 x.2 → _) ?_; rotate_left; unfold x) | (intro x; clear_value x) | intro x | with_reducible apply wr_kept | with_reducible apply wake_kept | with_reducible apply dispatch_kept | with_reducible apply coreStop_kept | with_reducible apply setTaskState_kept | with_reducible apply updTask_kept | with_reducible apply ite_kept | split | lift_lets

end Sys2Proof.Machine
end

