-- ==== Sys2Proof/Laws/KOpsTim.lean ====
section
/-! SUPPORT. What the operations of Machine/OpsTim.lean keep. -/
set_option linter.all false
namespace Sys2Proof.Machine

theorem laneReport_kept {rr : Bool} {s0 s : State} (hk : Kept rr s0 s) : Kept rr s0 (laneReport s) := by
  delta laneReport
  repeat' first | with_reducible assumption | (intro x; refine (fun _ => ?_ : Kept rr s0 x → _) ?_; rotate_left; unfold x) | (intro x; refine (fun _ => ?_ : Kept rr s0 x.2 → _) ?_; rotate_left; unfold x) | (intro x; clear_value x) | intro x | with_reducible apply wr_kept | with_reducible apply sendToNode_kept | with_reducible apply setPd_kept | with_reducible apply each_kept | with_reducible apply ite_kept | split | lift_lets

theorem pdDone_kept {rr : Bool} {s0 s : State} (n t1 t2 t4 turn : Nat) (hk : Kept rr s0 s) : Kept rr s0 (pdDone n t1 t2 t4 turn s) := by
  delta pdDone
  repeat' first | with_reducible assumption | (intro x; refine (fun _ => ?_ : Kept rr s0 x → _) ?_; rotate_left; unfold x) | (intro x; refine (fun _ => ?_ : Kept rr s0 x.2 → _) ?_; rotate_left; unfold x) | (intro x; clear_value x) | intro x | with_reducible apply wr_kept | with_reducible apply foldl_kept | with_reducible apply foldl2_kept | with_reducible apply laneReport_kept | with_reducible apply lagRecompute_kept | with_reducible apply setPd_kept | with_reducible apply ite_kept | split | lift_lets

theorem updSrv_kept {rr : Bool} {s0 s : State} (b : Bool) (f : Servo → Servo) (hk : Kept rr s0 s) : Kept rr s0 (updSrv b f s) := by
  delta updSrv
  repeat' first | with_reducible assumption | (intro x; refine (fun _ => ?_ : Kept rr s0 x → _) ?_; rotate_left; unfold x) | (intro x; refine (fun _ => ?_ : Kept rr s0 x.2 → _) ?_; rotate_left; unfold x) | (intro x; clear_value x) | intro x | with_reducible apply wr_kept | with_reducible apply updTim_kept | with_reducible apply ite_kept | split

theorem setScale_kept {rr : Bool} {s0 s : State} (b : Bool) (x : Scale) (hk : Kept rr s0 s) : Kept rr s0 (setScale b x s) := by
  delta setScale
  repeat' first | with_reducible assumption | (intro x; refine (fun _ => ?_ : Kept rr s0 x → _) ?_; rotate_left; unfold x) | (intro x; refine (fun _ => ?_ : Kept rr s0 x.2 → _) ?_; rotate_left; unfold x) | (intro x; clear_value x) | intro x | with_reducible apply wr_kept | with_reducible apply updSrv_kept | with_reducible apply updTim_kept | with_reducible apply ite_kept | split | lift_lets

theorem showState_kept {rr : Bool} {s0 s : State} (c : Nat) (hk : Kept rr s0 s) : Kept rr s0 (showState c s) := by
  delta showState
  repeat' first | with_reducible assumption | (intro x; refine (fun _ => ?_ : Kept rr s0 x → _) ?_; rotate_left; unfold x) | (intro x; refine (fun _ => ?_ : Kept rr s0 x.2 → _) ?_; rotate_left; unfold x) | (intro x; clear_value x) | intro x | with_reducible apply wr_kept | with_reducible apply cellTimeLock_kept | with_reducible apply cellTimeLost_kept | with_reducible apply setLive_kept | with_reducible apply firstSet_kept | with_reducible apply updTim_kept | with_reducible apply bump_kept | with_reducible apply ite_kept | split | lift_lets

theorem vtGo_kept {rr : Bool} {s0 s : State} (b : Bool) (x : VtState) (hk : Kept rr s0 s) : Kept rr s0 (vtGo b x s) := by
  delta vtGo
  repeat' first | with_reducible assumption | (intro x; refine (fun _ => ?_ : Kept rr s0 x → _) ?_; rotate_left; unfold x) | (intro x; refine (fun _ => ?_ : Kept rr s0 x.2 → _) ?_; rotate_left; unfold x) | (intro x; clear_value x) | intro x | with_reducible apply wr_kept | with_reducible apply showState_kept | with_reducible apply updSrv_kept | with_reducible apply ite_kept | split | lift_lets

theorem servoStep_kept {rr : Bool} {s0 s : State} (b : Bool) (num : Int) (hk : Kept rr s0 s) : Kept rr s0 (servoStep b num s) := by
  delta servoStep
  repeat' first | with_reducible assumption | (intro x; refine (fun _ => ?_ : Kept rr s0 x → _) ?_; rotate_left; unfold x) | (intro x; refine (fun _ => ?_ : Kept rr s0 x.2 → _) ?_; rotate_left; unfold x) | (intro x; clear_value x) | intro x | with_reducible apply wr_kept | with_reducible apply setScale_kept | with_reducible apply updSrv_kept | lift_lets

theorem stepBy_kept {rr : Bool} {s0 s : State} (b : Bool) (num : Int) (f : F64) (hk : Kept rr s0 s) : Kept rr s0 (stepBy b num f s) := by
  delta stepBy
  repeat' first | with_reducible assumption | (intro x; refine (fun _ => ?_ : Kept rr s0 x → _) ?_; rotate_left; unfold x) | (intro x; refine (fun _ => ?_ : Kept rr s0 x.2 → _) ?_; rotate_left; unfold x) | (intro x; clear_value x) | intro x | with_reducible apply wr_kept | with_reducible apply setScale_kept | with_reducible apply updSrv_kept | lift_lets

theorem discardPending_kept {rr : Bool} {s0 s : State} (hk : Kept rr s0 s) : Kept rr s0 (discardPending s) := by
  delta discardPending
  repeat' first | with_reducible assumption | (intro x; refine (fun _ => ?_ : Kept rr s0 x → _) ?_; rotate_left; unfold x) | (intro x; refine (fun _ => ?_ : Kept rr s0 x.2 → _) ?_; rotate_left; unfold x) | (intro x; clear_value x) | intro x | with_reducible apply wr_kept | with_reducible apply updCell_kept | with_reducible apply set_bal_kept | lift_lets

theorem syncServo_kept {rr : Bool} {s0 s : State} (b : Bool) (n t : Nat) (sy : Sync) (hk : Kept rr s0 s) : Kept rr s0 (syncServo b n t sy s) := by
  delta syncServo
  repeat' first | with_reducible assumption | (intro x; refine (fun _ => ?_ : Kept rr s0 x → _) ?_; rotate_left; unfold x) | (intro x; refine (fun _ => ?_ : Kept rr s0 x.2 → _) ?_; rotate_left; unfold x) | (intro x; clear_value x) | intro x | with_reducible apply wr_kept | with_reducible apply discardPending_kept | with_reducible apply stepBy_kept | with_reducible apply servoStep_kept | with_reducible apply vtGo_kept | with_reducible apply updSrv_kept | with_reducible apply bump_kept | with_reducible apply ite_kept | split | lift_lets

theorem applyLineage_kept {rr : Bool} {s0 s : State} (b : Bool) (hk : Kept rr s0 s) : Kept rr s0 (applyLineage b s) := by
  delta applyLineage
  repeat' first | with_reducible assumption | (intro x; refine (fun _ => ?_ : Kept rr s0 x → _) ?_; rotate_left; unfold x) | (intro x; refine (fun _ => ?_ : Kept rr s0 x.2 → _) ?_; rotate_left; unfold x) | (intro x; clear_value x) | intro x | with_reducible apply wr_kept | with_reducible apply showState_kept | with_reducible apply setScale_kept | with_reducible apply updSrv_kept | with_reducible apply refEval_kept | with_reducible apply updTim_kept | with_reducible apply ite_kept | split | lift_lets

theorem lineageOffset_kept {rr : Bool} {s0 s : State} (hk : Kept rr s0 s) : Kept rr s0 (lineageOffset s) := by
  delta lineageOffset
  repeat' first | with_reducible assumption | (intro x; refine (fun _ => ?_ : Kept rr s0 x → _) ?_; rotate_left; unfold x) | (intro x; refine (fun _ => ?_ : Kept rr s0 x.2 → _) ?_; rotate_left; unfold x) | (intro x; clear_value x) | intro x | with_reducible apply wr_kept | with_reducible apply setLive_kept | with_reducible apply updTim_kept | with_reducible apply ite_kept | split | lift_lets

theorem becomeMaster_kept {rr : Bool} {s0 s : State} (hk : Kept rr s0 s) : Kept rr s0 (becomeMaster s) := by
  delta becomeMaster
  repeat' first | with_reducible assumption | (intro x; refine (fun _ => ?_ : Kept rr s0 x → _) ?_; rotate_left; unfold x) | (intro x; refine (fun _ => ?_ : Kept rr s0 x.2 → _) ?_; rotate_left; unfold x) | (intro x; clear_value x) | intro x | with_reducible apply wr_kept | with_reducible apply vtGo_kept | with_reducible apply setScale_kept | with_reducible apply updTim_kept | with_reducible apply ite_kept | split | lift_lets

theorem becomeSecondary_kept {rr : Bool} {s0 s : State} (hk : Kept rr s0 s) : Kept rr s0 (becomeSecondary s) := by
  delta becomeSecondary
  repeat' first | with_reducible assumption | (intro x; refine (fun _ => ?_ : Kept rr s0 x → _) ?_; rotate_left; unfold x) | (intro x; refine (fun _ => ?_ : Kept rr s0 x.2 → _) ?_; rotate_left; unfold x) | (intro x; clear_value x) | intro x | with_reducible apply wr_kept | with_reducible apply updTim_kept

theorem syncRx_kept {rr : Bool} {s0 s : State} (n frac : Nat) (sy : Sync) (hk : Kept rr s0 s) : Kept rr s0 (syncRx n frac sy s) := by
  delta syncRx
  repeat' first | with_reducible assumption | (intro x; refine (fun _ => ?_ : Kept rr s0 x → _) ?_; rotate_left; unfold x) | (intro x; refine (fun _ => ?_ : Kept rr s0 x.2 → _) ?_; rotate_left; unfold x) | (intro x; clear_value x) | intro x | with_reducible apply wr_kept | with_reducible apply becomeSecondary_kept | with_reducible apply lineageOffset_kept | with_reducible apply applyLineage_kept | with_reducible apply syncServo_kept | with_reducible apply updTim_kept | with_reducible apply ite_kept | split | lift_lets

theorem peerSyncLoss_kept {rr : Bool} {s0 s : State} (hk : Kept rr s0 s) : Kept rr s0 (peerSyncLoss s) := by
  delta peerSyncLoss
  repeat' first | with_reducible assumption | (intro x; refine (fun _ => ?_ : Kept rr s0 x → _) ?_; rotate_left; unfold x) | (intro x; refine (fun _ => ?_ : Kept rr s0 x.2 → _) ?_; rotate_left; unfold x) | (intro x; clear_value x) | intro x | with_reducible apply wr_kept | with_reducible apply becomeMaster_kept | with_reducible apply advTo_kept | with_reducible apply ite_kept | split

theorem syncTimeout_kept {rr : Bool} {s0 s : State} (b : Bool) (hk : Kept rr s0 s) : Kept rr s0 (syncTimeout b s) := by
  delta syncTimeout
  repeat' first | with_reducible assumption | (intro x; refine (fun _ => ?_ : Kept rr s0 x → _) ?_; rotate_left; unfold x) | (intro x; refine (fun _ => ?_ : Kept rr s0 x.2 → _) ?_; rotate_left; unfold x) | (intro x; clear_value x) | intro x | with_reducible apply wr_kept | with_reducible apply peerSyncLoss_kept | with_reducible apply applyLineage_kept | with_reducible apply vtGo_kept | with_reducible apply updSrv_kept | with_reducible apply advTo_kept | with_reducible apply ite_kept | split | lift_lets

theorem lineageReturn_kept {rr : Bool} {s0 s : State} (hk : Kept rr s0 s) : Kept rr s0 (lineageReturn s) := by
  delta lineageReturn
  repeat' first | with_reducible assumption | (intro x; refine (fun _ => ?_ : Kept rr s0 x → _) ?_; rotate_left; unfold x) | (intro x; refine (fun _ => ?_ : Kept rr s0 x.2 → _) ?_; rotate_left; unfold x) | (intro x; clear_value x) | intro x | with_reducible apply wr_kept | with_reducible apply applyLineage_kept | with_reducible apply advTo_kept | with_reducible apply ite_kept | split

theorem apexPeerWait_kept {rr : Bool} {s0 s : State} (hk : Kept rr s0 s) : Kept rr s0 (apexPeerWait s) := by
  delta apexPeerWait
  repeat' first | with_reducible assumption | (intro x; refine (fun _ => ?_ : Kept rr s0 x → _) ?_; rotate_left; unfold x) | (intro x; refine (fun _ => ?_ : Kept rr s0 x.2 → _) ?_; rotate_left; unfold x) | (intro x; clear_value x) | intro x | with_reducible apply wr_kept | with_reducible apply becomeMaster_kept | with_reducible apply updTim_kept | with_reducible apply advTo_kept | with_reducible apply ite_kept | split | lift_lets

theorem sendPartner_kept {rr : Bool} {s0 s : State} (typ : Nat) (p : Pay) (n : Nat) (hk : Kept rr s0 s) : Kept rr s0 (sendPartner typ p n s) := by
  delta sendPartner
  repeat' first | with_reducible assumption | (intro x; refine (fun _ => ?_ : Kept rr s0 x → _) ?_; rotate_left; unfold x) | (intro x; refine (fun _ => ?_ : Kept rr s0 x.2 → _) ?_; rotate_left; unfold x) | (intro x; refine (fun _ => ?_ : Kept rr s0 x.2.2 → _) ?_; rotate_left; unfold x) | (intro x; clear_value x) | intro x | with_reducible apply wr_kept | with_reducible apply sendFrame_kept | lift_lets

theorem syncSend_kept {rr : Bool} {s0 s : State} (hk : Kept rr s0 s) : Kept rr s0 (syncSend s) := by
  delta syncSend
  repeat' first | with_reducible assumption | (intro x; refine (fun _ => ?_ : Kept rr s0 x → _) ?_; rotate_left; unfold x) | (intro x; refine (fun _ => ?_ : Kept rr s0 x.2 → _) ?_; rotate_left; unfold x) | (intro x; clear_value x) | intro x | with_reducible apply wr_kept | with_reducible apply sendPartner_kept | with_reducible apply each_kept | with_reducible apply ite_kept | split

theorem showParams_kept {rr : Bool} {s0 s : State} (p : ParamSet) (hk : Kept rr s0 s) : Kept rr s0 (showParams p s) := by
  delta showParams
  repeat' first | with_reducible assumption | (intro x; refine (fun _ => ?_ : Kept rr s0 x → _) ?_; rotate_left; unfold x) | (intro x; refine (fun _ => ?_ : Kept rr s0 x.2 → _) ?_; rotate_left; unfold x) | (intro x; clear_value x) | intro x | with_reducible apply wr_kept | with_reducible apply ite_kept | split | lift_lets

theorem paramsAt_kept {rr : Bool} {s0 s : State} (k : Nat) (hk : Kept rr s0 s) : Kept rr s0 (paramsAt k s) := by
  delta paramsAt
  repeat' first | with_reducible assumption | (intro x; refine (fun _ => ?_ : Kept rr s0 x → _) ?_; rotate_left; unfold x) | (intro x; refine (fun _ => ?_ : Kept rr s0 x.2 → _) ?_; rotate_left; unfold x) | (intro x; clear_value x) | intro x | with_reducible apply wr_kept | with_reducible apply showParams_kept | with_reducible apply updTim_kept | with_reducible apply ite_kept | split

theorem paramNow_kept {rr : Bool} {s0 s : State} (k : Nat) (p : ParamSet) (hk : Kept rr s0 s) : Kept rr s0 (paramNow k p s) := by
  delta paramNow
  repeat' first | with_reducible assumption | (intro x; refine (fun _ => ?_ : Kept rr s0 x → _) ?_; rotate_left; unfold x) | (intro x; refine (fun _ => ?_ : Kept rr s0 x.2 → _) ?_; rotate_left; unfold x) | (intro x; clear_value x) | intro x | with_reducible apply wr_kept | with_reducible apply showParams_kept | with_reducible apply updTim_kept | with_reducible apply ite_kept | split | lift_lets

theorem takeSet_kept {rr : Bool} {s0 s : State} (p : ParamSet) (force : Bool) (hk : Kept rr s0 s) : Kept rr s0 (takeSet p force s) := by
  delta takeSet
  repeat' first | with_reducible assumption | (intro x; refine (fun _ => ?_ : Kept rr s0 x → _) ?_; rotate_left; unfold x) | (intro x; refine (fun _ => ?_ : Kept rr s0 x.2 → _) ?_; rotate_left; unfold x) | (intro x; clear_value x) | intro x | with_reducible apply wr_kept | with_reducible apply paramNow_kept | with_reducible apply updTim_kept | with_reducible apply ite_kept | split | lift_lets

theorem paramRx_kept {rr : Bool} {s0 s : State} (n : Nat) (p : ParamSet) (hk : Kept rr s0 s) : Kept rr s0 (paramRx n p s) := by
  delta paramRx
  repeat' first | with_reducible assumption | (intro x; refine (fun _ => ?_ : Kept rr s0 x → _) ?_; rotate_left; unfold x) | (intro x; refine (fun _ => ?_ : Kept rr s0 x.2 → _) ?_; rotate_left; unfold x) | (intro x; clear_value x) | intro x | with_reducible apply wr_kept | with_reducible apply takeSet_kept | with_reducible apply readyEval_kept | with_reducible apply updTim_kept | with_reducible apply bump_kept | with_reducible apply ite_kept | split | lift_lets

theorem paramSend_kept {rr : Bool} {s0 s : State} (hk : Kept rr s0 s) : Kept rr s0 (paramSend s) := by
  delta paramSend
  repeat' first | with_reducible assumption | (intro x; refine (fun _ => ?_ : Kept rr s0 x → _) ?_; rotate_left; unfold x) | (intro x; refine (fun _ => ?_ : Kept rr s0 x.2 → _) ?_; rotate_left; unfold x) | (intro x; clear_value x) | intro x | with_reducible apply wr_kept | with_reducible apply sendFrame_kept | with_reducible apply each_kept | with_reducible apply ite_kept | split | lift_lets

theorem updQuality_kept {rr : Bool} {s0 s : State} (hk : Kept rr s0 s) : Kept rr s0 (updQuality s) := by
  delta updQuality
  repeat' first | with_reducible assumption | (intro x; refine (fun _ => ?_ : Kept rr s0 x → _) ?_; rotate_left; unfold x) | (intro x; refine (fun _ => ?_ : Kept rr s0 x.2 → _) ?_; rotate_left; unfold x) | (intro x; clear_value x) | intro x | with_reducible apply wr_kept | lift_lets

theorem stGo_kept {rr : Bool} {s0 s : State} (st : Nat) (hk : Kept rr s0 s) : Kept rr s0 (stGo st s) := by
  delta stGo
  repeat' first | with_reducible assumption | (intro x; refine (fun _ => ?_ : Kept rr s0 x → _) ?_; rotate_left; unfold x) | (intro x; refine (fun _ => ?_ : Kept rr s0 x.2 → _) ?_; rotate_left; unfold x) | (intro x; clear_value x) | intro x | with_reducible apply wr_kept | with_reducible apply updQuality_kept | with_reducible apply updTim_kept | with_reducible apply ite_kept | split | lift_lets

theorem updStation_kept {rr : Bool} {s0 s : State} (f : Scale → Scale) (hk : Kept rr s0 s) : Kept rr s0 (updStation f s) := by
  delta updStation
  repeat' first | with_reducible assumption | (intro x; refine (fun _ => ?_ : Kept rr s0 x → _) ?_; rotate_left; unfold x) | (intro x; refine (fun _ => ?_ : Kept rr s0 x.2 → _) ?_; rotate_left; unfold x) | (intro x; clear_value x) | intro x | with_reducible apply wr_kept | with_reducible apply updTim_kept | lift_lets

theorem stSetInc_kept {rr : Bool} {s0 s : State} (inc : Nat) (hk : Kept rr s0 s) : Kept rr s0 (stSetInc inc s) := by
  delta stSetInc
  repeat' first | with_reducible assumption | (intro x; refine (fun _ => ?_ : Kept rr s0 x → _) ?_; rotate_left; unfold x) | (intro x; refine (fun _ => ?_ : Kept rr s0 x.2 → _) ?_; rotate_left; unfold x) | (intro x; clear_value x) | intro x | with_reducible apply wr_kept | with_reducible apply updStation_kept

theorem stStep_kept {rr : Bool} {s0 s : State} (z : Int) (hk : Kept rr s0 s) : Kept rr s0 (stStep z s) := by
  delta stStep
  repeat' first | with_reducible assumption | (intro x; refine (fun _ => ?_ : Kept rr s0 x → _) ?_; rotate_left; unfold x) | (intro x; refine (fun _ => ?_ : Kept rr s0 x.2 → _) ?_; rotate_left; unfold x) | (intro x; clear_value x) | intro x | with_reducible apply wr_kept | with_reducible apply updStation_kept

theorem stationSend_kept {rr : Bool} {s0 s : State} (hk : Kept rr s0 s) : Kept rr s0 (stationSend s) := by
  delta stationSend
  repeat' first | with_reducible assumption | (intro x; refine (fun _ => ?_ : Kept rr s0 x → _) ?_; rotate_left; unfold x) | (intro x; refine (fun _ => ?_ : Kept rr s0 x.2 → _) ?_; rotate_left; unfold x) | (intro x; clear_value x) | intro x | with_reducible apply wr_kept | with_reducible apply sendFrame_kept | with_reducible apply updTim_kept | with_reducible apply ite_kept | split | lift_lets

theorem stServo_kept {rr : Bool} {s0 s : State} (hk : Kept rr s0 s) : Kept rr s0 (stServo s) := by
  delta stServo
  repeat' first | with_reducible assumption | (intro x; refine (fun _ => ?_ : Kept rr s0 x → _) ?_; rotate_left; unfold x) | (intro x; refine (fun _ => ?_ : Kept rr s0 x.2 → _) ?_; rotate_left; unfold x) | (intro x; clear_value x) | intro x | with_reducible apply wr_kept | with_reducible apply stSetInc_kept | with_reducible apply takeFree_kept | lift_lets

theorem stLocked_kept {rr : Bool} {s0 s : State} (e : Int) (hk : Kept rr s0 s) : Kept rr s0 (stLocked e s) := by
  delta stLocked
  repeat' first | with_reducible assumption | (intro x; refine (fun _ => ?_ : Kept rr s0 x → _) ?_; rotate_left; unfold x) | (intro x; refine (fun _ => ?_ : Kept rr s0 x.2 → _) ?_; rotate_left; unfold x) | (intro x; clear_value x) | intro x | with_reducible apply wr_kept | with_reducible apply foldl_kept | with_reducible apply foldl2_kept | with_reducible apply stSlewEnd_kept | with_reducible apply stServo_kept | with_reducible apply stStep_kept | with_reducible apply stSetInc_kept | with_reducible apply stGo_kept | with_reducible apply updTim_kept | with_reducible apply bump_kept | with_reducible apply ite_kept | split | lift_lets

theorem stSlewing_kept {rr : Bool} {s0 s : State} (e : Int) (rx : Nat) (hk : Kept rr s0 s) : Kept rr s0 (stSlewing e rx s) := by
  delta stSlewing
  repeat' first | with_reducible assumption | (intro x; refine (fun _ => ?_ : Kept rr s0 x → _) ?_; rotate_left; unfold x) | (intro x; refine (fun _ => ?_ : Kept rr s0 x.2 → _) ?_; rotate_left; unfold x) | (intro x; clear_value x) | intro x | with_reducible apply wr_kept | with_reducible apply bump_kept | with_reducible apply ite_kept | split

theorem stSync_kept {rr : Bool} {s0 s : State} (port t2 rx origin : Nat) (corr : Int) (seq : Nat) (hk : Kept rr s0 s) : Kept rr s0 (stSync port t2 rx origin corr seq s) := by
  delta stSync
  repeat' first | with_reducible assumption | (intro x; refine (fun _ => ?_ : Kept rr s0 x → _) ?_; rotate_left; unfold x) | (intro x; refine (fun _ => ?_ : Kept rr s0 x.2 → _) ?_; rotate_left; unfold x) | (intro x; clear_value x) | intro x | with_reducible apply wr_kept | with_reducible apply stSlewing_kept | with_reducible apply stLocked_kept | with_reducible apply stStep_kept | with_reducible apply stSetInc_kept | with_reducible apply stGo_kept | with_reducible apply updTim_kept | with_reducible apply bump_kept | with_reducible apply ite_kept | split | lift_lets

theorem selectMaster_kept {rr : Bool} {s0 s : State} (hk : Kept rr s0 s) : Kept rr s0 (selectMaster s) := by
  delta selectMaster
  repeat' first | with_reducible assumption | (intro x; refine (fun _ => ?_ : Kept rr s0 x → _) ?_; rotate_left; unfold x) | (intro x; refine (fun _ => ?_ : Kept rr s0 x.2 → _) ?_; rotate_left; unfold x) | (intro x; clear_value x) | intro x | with_reducible apply wr_kept | with_reducible apply stGo_kept | with_reducible apply updQuality_kept | with_reducible apply updTim_kept | with_reducible apply ite_kept | split | lift_lets

end Sys2Proof.Machine
end

