-- ==== Sys2Proof/Laws/KSaf.lean ====
section
/-! SUPPORT. What the operations of Machine/Saf.lean keep. -/
set_option linter.all false
namespace Sys2Proof.Machine

theorem discTime_kept {rr : Bool} {s0 s : State} (f : Nat) (hk : Kept rr s0 s) : Kept rr s0 (discTime f s) := by
  delta discTime
  repeat' first | with_reducible assumption | (intro x; refine (fun _ => ?_ : Kept rr s0 x → _) ?_; rotate_left; unfold x) | (intro x; refine (fun _ => ?_ : Kept rr s0 x.2 → _) ?_; rotate_left; unfold x) | (intro x; clear_value x) | intro x | with_reducible apply wr_kept | with_reducible apply updPeerDiff_kept | with_reducible apply actFn_kept | with_reducible apply setFnState_kept | with_reducible apply advTo_kept | with_reducible apply ite_kept | split | lift_lets

theorem cmdCommission_kept {rr : Bool} {s0 s : State} (right : Bool) (hk : Kept rr s0 s) : Kept rr s0 (cmdCommission right s).2 := by
  delta cmdCommission
  repeat' first | with_reducible assumption | (intro x; refine (fun _ => ?_ : Kept rr s0 x → _) ?_; rotate_left; unfold x) | (intro x; refine (fun _ => ?_ : Kept rr s0 x.2 → _) ?_; rotate_left; unfold x) | (intro x; clear_value x) | intro x | with_reducible apply wr_kept | with_reducible apply done_kept | with_reducible apply writeBy_kept | with_reducible apply safState_kept | with_reducible apply ite_kept | with_reducible apply ite2_kept | split

theorem cmdConfirm_kept {rr : Bool} {s0 s : State} (right : Bool) (hk : Kept rr s0 s) : Kept rr s0 (cmdConfirm right s).2 := by
  delta cmdConfirm
  repeat' first | with_reducible assumption | (intro x; refine (fun _ => ?_ : Kept rr s0 x → _) ?_; rotate_left; unfold x) | (intro x; refine (fun _ => ?_ : Kept rr s0 x.2 → _) ?_; rotate_left; unfold x) | (intro x; clear_value x) | intro x | with_reducible apply wr_kept | with_reducible apply done_kept | with_reducible apply writeBy_kept | with_reducible apply safState_kept | with_reducible apply setLive_kept | with_reducible apply evalDegrade_kept | with_reducible apply updSaf_kept | with_reducible apply bump_kept | with_reducible apply ite_kept | with_reducible apply ite2_kept | split | lift_lets

theorem loadSafety_kept {rr : Bool} {s0 s : State} (hk : Kept rr s0 s) : Kept rr s0 (loadSafety s) := by
  delta loadSafety
  repeat' first | with_reducible assumption | (intro x; refine (fun _ => ?_ : Kept rr s0 x → _) ?_; rotate_left; unfold x) | (intro x; refine (fun _ => ?_ : Kept rr s0 x.2 → _) ?_; rotate_left; unfold x) | (intro x; clear_value x) | intro x | with_reducible apply wr_kept | with_reducible apply safState_kept | with_reducible apply setLive_kept | with_reducible apply evalDegrade_kept | with_reducible apply each_kept | with_reducible apply ite_kept | split | lift_lets

theorem cmdAbort_kept {rr : Bool} {s0 s : State} (right : Bool) (hk : Kept rr s0 s) : Kept rr s0 (cmdAbort right s).2 := by
  delta cmdAbort
  repeat' first | with_reducible assumption | (intro x; refine (fun _ => ?_ : Kept rr s0 x → _) ?_; rotate_left; unfold x) | (intro x; refine (fun _ => ?_ : Kept rr s0 x.2 → _) ?_; rotate_left; unfold x) | (intro x; clear_value x) | intro x | with_reducible apply wr_kept | with_reducible apply loadSafety_kept | with_reducible apply done_kept | with_reducible apply writeBy_kept | with_reducible apply ite_kept | with_reducible apply ite2_kept | split

theorem sendRelease_kept {rr : Bool} {s0 s : State} (hk : Kept rr s0 s) : Kept rr s0 (sendRelease s) := by
  delta sendRelease
  repeat' first | with_reducible assumption | (intro x; refine (fun _ => ?_ : Kept rr s0 x → _) ?_; rotate_left; unfold x) | (intro x; refine (fun _ => ?_ : Kept rr s0 x.2 → _) ?_; rotate_left; unfold x) | (intro x; clear_value x) | intro x | with_reducible apply wr_kept | with_reducible apply release_kept | with_reducible apply sendToNode_kept | with_reducible apply each_kept | lift_lets

theorem cmdRelease_kept {rr : Bool} {s0 s : State} (right : Bool) (hk : Kept rr s0 s) : Kept rr s0 (cmdRelease right s).2 := by
  delta cmdRelease
  repeat' first | with_reducible assumption | (intro x; refine (fun _ => ?_ : Kept rr s0 x → _) ?_; rotate_left; unfold x) | (intro x; refine (fun _ => ?_ : Kept rr s0 x.2 → _) ?_; rotate_left; unfold x) | (intro x; clear_value x) | intro x | with_reducible apply wr_kept | with_reducible apply sendRelease_kept | with_reducible apply tryRelease_kept | with_reducible apply writeBy_kept | with_reducible apply updSaf_kept | with_reducible apply ite_kept | with_reducible apply ite2_kept | split | lift_lets

theorem releaseRepeat_kept {rr : Bool} {s0 s : State} (hk : Kept rr s0 s) : Kept rr s0 (releaseRepeat s) := by
  delta releaseRepeat
  repeat' first | with_reducible assumption | (intro x; refine (fun _ => ?_ : Kept rr s0 x → _) ?_; rotate_left; unfold x) | (intro x; refine (fun _ => ?_ : Kept rr s0 x.2 → _) ?_; rotate_left; unfold x) | (intro x; clear_value x) | intro x | with_reducible apply wr_kept | with_reducible apply sendRelease_kept | with_reducible apply updSaf_kept | with_reducible apply advTo_kept | with_reducible apply ite_kept | split | lift_lets

theorem cmdResetFn_kept {rr : Bool} {s0 s : State} (right : Bool) (f : Nat) (hk : Kept rr s0 s) : Kept rr s0 (cmdResetFn right f s).2 := by
  delta cmdResetFn
  repeat' first | with_reducible assumption | (intro x; refine (fun _ => ?_ : Kept rr s0 x → _) ?_; rotate_left; unfold x) | (intro x; refine (fun _ => ?_ : Kept rr s0 x.2 → _) ?_; rotate_left; unfold x) | (intro x; clear_value x) | intro x | with_reducible apply wr_kept | with_reducible apply updPeerDiff_kept | with_reducible apply setFnState_kept | with_reducible apply done_kept | with_reducible apply writeBy_kept | with_reducible apply ite_kept | with_reducible apply ite2_kept | split

theorem degradedExpiry_kept {rr : Bool} {s0 s : State} (hk : Kept rr s0 s) : Kept rr s0 (degradedExpiry s) := by
  delta degradedExpiry
  repeat' first | with_reducible assumption | (intro x; refine (fun _ => ?_ : Kept rr s0 x → _) ?_; rotate_left; unfold x) | (intro x; refine (fun _ => ?_ : Kept rr s0 x.2 → _) ?_; rotate_left; unfold x) | (intro x; clear_value x) | intro x | with_reducible apply wr_kept | with_reducible apply setLive_kept | with_reducible apply degradeExpire_kept | with_reducible apply advVt_kept | with_reducible apply ite_kept | split

theorem degradedRecover_kept {rr : Bool} {s0 s : State} (hk : Kept rr s0 s) : Kept rr s0 (degradedRecover s) := by
  delta degradedRecover
  repeat' first | with_reducible assumption | (intro x; refine (fun _ => ?_ : Kept rr s0 x → _) ?_; rotate_left; unfold x) | (intro x; refine (fun _ => ?_ : Kept rr s0 x.2 → _) ?_; rotate_left; unfold x) | (intro x; clear_value x) | intro x | with_reducible apply wr_kept | with_reducible apply safState_kept | with_reducible apply advTo_kept | with_reducible apply ite_kept | split

theorem safeStatusSend_kept {rr : Bool} {s0 s : State} (hk : Kept rr s0 s) : Kept rr s0 (safeStatusSend s) := by
  delta safeStatusSend
  repeat' first | with_reducible assumption | (intro x; refine (fun _ => ?_ : Kept rr s0 x → _) ?_; rotate_left; unfold x) | (intro x; refine (fun _ => ?_ : Kept rr s0 x.2 → _) ?_; rotate_left; unfold x) | (intro x; clear_value x) | intro x | with_reducible apply wr_kept | with_reducible apply updSaf_kept | with_reducible apply sendFrame_kept | with_reducible apply ite_kept | split | lift_lets

theorem safeStatusRx_kept {rr : Bool} {s0 s : State} (p : SafeStatus) (hk : Kept rr s0 s) : Kept rr s0 (safeStatusRx p s) := by
  delta safeStatusRx
  repeat' first | with_reducible assumption | (intro x; refine (fun _ => ?_ : Kept rr s0 x → _) ?_; rotate_left; unfold x) | (intro x; refine (fun _ => ?_ : Kept rr s0 x.2 → _) ?_; rotate_left; unfold x) | (intro x; clear_value x) | intro x | with_reducible apply wr_kept | with_reducible apply evalPeer_kept | with_reducible apply updPeerDiff_kept | with_reducible apply updSaf_kept | with_reducible apply ite_kept | split | lift_lets

theorem safPeerTimeout_kept {rr : Bool} {s0 s : State} (hk : Kept rr s0 s) : Kept rr s0 (safPeerTimeout s) := by
  delta safPeerTimeout
  repeat' first | with_reducible assumption | (intro x; refine (fun _ => ?_ : Kept rr s0 x → _) ?_; rotate_left; unfold x) | (intro x; refine (fun _ => ?_ : Kept rr s0 x.2 → _) ?_; rotate_left; unfold x) | (intro x; clear_value x) | intro x | with_reducible apply wr_kept | with_reducible apply evalPeer_kept | with_reducible apply updSaf_kept | with_reducible apply advTo_kept | with_reducible apply ite_kept | split | lift_lets

theorem safStateReport_kept {rr : Bool} {s0 s : State} (hk : Kept rr s0 s) : Kept rr s0 (safStateReport s) := by
  delta safStateReport
  repeat' first | with_reducible assumption | (intro x; refine (fun _ => ?_ : Kept rr s0 x → _) ?_; rotate_left; unfold x) | (intro x; refine (fun _ => ?_ : Kept rr s0 x.2 → _) ?_; rotate_left; unfold x) | (intro x; clear_value x) | intro x | with_reducible apply wr_kept | with_reducible apply safState_kept | with_reducible apply sendToNode_kept | with_reducible apply ite_kept | split

theorem safNodeSilent_kept {rr : Bool} {s0 s : State} (n : Nat) (hk : Kept rr s0 s) : Kept rr s0 (safNodeSilent n s) := by
  delta safNodeSilent
  repeat' first | with_reducible assumption | (intro x; refine (fun _ => ?_ : Kept rr s0 x → _) ?_; rotate_left; unfold x) | (intro x; refine (fun _ => ?_ : Kept rr s0 x.2 → _) ?_; rotate_left; unfold x) | (intro x; clear_value x) | intro x | with_reducible apply wr_kept | with_reducible apply updBlockNodes_kept | with_reducible apply updSaf_kept | with_reducible apply advTo_kept | with_reducible apply ite_kept | split | lift_lets

theorem reportSafStateRx_kept {rr : Bool} {s0 s : State} (n state : Nat) (checkDiffers : Bool) (stored : Nat) (hk : Kept rr s0 s) : Kept rr s0 (reportSafStateRx n state checkDiffers stored s) := by
  delta reportSafStateRx
  repeat' first | with_reducible assumption | (intro x; refine (fun _ => ?_ : Kept rr s0 x → _) ?_; rotate_left; unfold x) | (intro x; refine (fun _ => ?_ : Kept rr s0 x.2 → _) ?_; rotate_left; unfold x) | (intro x; clear_value x) | intro x | with_reducible apply wr_kept | with_reducible apply nodeHeard_kept | with_reducible apply ite_kept | split | lift_lets

theorem reportReleaseRx_kept {rr : Bool} {s0 s : State} (rseq : Nat) (hk : Kept rr s0 s) : Kept rr s0 (reportReleaseRx rseq s) := by
  delta reportReleaseRx
  repeat' first | with_reducible assumption | (intro x; refine (fun _ => ?_ : Kept rr s0 x → _) ?_; rotate_left; unfold x) | (intro x; refine (fun _ => ?_ : Kept rr s0 x.2 → _) ?_; rotate_left; unfold x) | (intro x; clear_value x) | intro x | with_reducible apply wr_kept | with_reducible apply tryRelease_kept | with_reducible apply updSaf_kept | with_reducible apply release_kept | with_reducible apply sendToNode_kept | with_reducible apply each_kept | with_reducible apply ite_kept | split | lift_lets

end Sys2Proof.Machine
end

