-- ==== Sys2Proof/Laws/KOpsPwr.lean ====
section
/-! SUPPORT. What the operations of Machine/OpsPwr.lean keep. -/
set_option linter.all false
namespace Sys2Proof.Machine

theorem dieReset_kept {s0 s : State} (cause : Nat) (hk : Kept true s0 s) : Kept true s0 (dieReset cause s) := by
  refine hk.trans ?_
  have h0 : ∀ f : State, f.pending = s.pending → f.free = s.free → f.straps = s.straps → f.objs = [] → f.mem = s.mem.filter (fun c => decide (2 ^ 50 ≤ c.1)) → Kept true s f := by
    intro f hp hf hs ho hm
    refine ⟨hp, by omega, fun w => ?_, hs, fun q => nomatch q⟩
    simp only [State.wf, State.objsWf, Bool.and_eq_true] at w ⊢
    rw [ho, hm]
    exact ⟨Memory_wf_filter w.1 _, rfl, rfl⟩
  unfold dieReset
  dsimp only
  have h1 := fun f hp hf hs ho hm => wr_kept O.SYS_RESET_CAUSE cause (each_kept (l := keptKeys) (fun k t h => wr_kept k (rd k s) h) (h0 f hp hf hs ho hm))
  apply ite_kept
  · exact wr_kept _ _ (h1 _ rfl rfl rfl rfl rfl)
  · exact h1 _ rfl rfl rfl rfl rfl

theorem powerOn_kept {s0 s : State} (hk : Kept true s0 s) : Kept true s0 (powerOn s) := by
  delta powerOn
  repeat' first | with_reducible assumption | (intro x; refine (fun _ => ?_ : Kept true s0 x → _) ?_; rotate_left; unfold x) | (intro x; refine (fun _ => ?_ : Kept true s0 x.2 → _) ?_; rotate_left; unfold x) | (intro x; clear_value x) | intro x | with_reducible apply wr_kept | with_reducible apply dieReset_kept | with_reducible apply updSys_kept | with_reducible apply ite_kept | split | lift_lets

theorem phaseEnd_kept {rr : Bool} {s0 s : State} (inp : BootIn) (t0 i : Nat) (hk : Kept rr s0 s) : Kept rr s0 (phaseEnd inp t0 i s) := by
  delta phaseEnd
  repeat' first | with_reducible assumption | (intro x; refine (fun _ => ?_ : Kept rr s0 x → _) ?_; rotate_left; unfold x) | (intro x; refine (fun _ => ?_ : Kept rr s0 x.2 → _) ?_; rotate_left; unfold x) | (intro x; clear_value x) | intro x | with_reducible apply wr_kept | with_reducible apply advTo_kept

theorem showSpares_kept {rr : Bool} {s0 s : State} (b : MapBlock) (hk : Kept rr s0 s) : Kept rr s0 (showSpares b s) := by
  delta showSpares
  repeat' first | with_reducible assumption | (intro x; refine (fun _ => ?_ : Kept rr s0 x → _) ?_; rotate_left; unfold x) | (intro x; refine (fun _ => ?_ : Kept rr s0 x.2 → _) ?_; rotate_left; unfold x) | (intro x; clear_value x) | intro x | with_reducible apply wr_kept | with_reducible apply each_kept | with_reducible apply wrBit_kept | with_reducible apply ite_kept | split | lift_lets

theorem loadMap_kept {rr : Bool} {s0 s : State} (b : MapBlock) (hk : Kept rr s0 s) : Kept rr s0 (loadMap b s) := by
  delta loadMap
  repeat' first | with_reducible assumption | (intro x; refine (fun _ => ?_ : Kept rr s0 x → _) ?_; rotate_left; unfold x) | (intro x; refine (fun _ => ?_ : Kept rr s0 x.2 → _) ?_; rotate_left; unfold x) | (intro x; clear_value x) | intro x | with_reducible apply wr_kept | with_reducible apply showSpares_kept | with_reducible apply updSys_kept | lift_lets

theorem bootMap_kept {rr : Bool} {s0 s : State} (inp : BootIn) (hk : Kept rr s0 s) : Kept rr s0 (bootMap inp s) := by
  delta bootMap
  repeat' first | with_reducible assumption | (intro x; refine (fun _ => ?_ : Kept rr s0 x → _) ?_; rotate_left; unfold x) | (intro x; refine (fun _ => ?_ : Kept rr s0 x.2 → _) ?_; rotate_left; unfold x) | (intro x; clear_value x) | intro x | with_reducible apply wr_kept | with_reducible apply loadMap_kept | with_reducible apply ledger_kept | with_reducible apply updSys_kept | with_reducible apply ite_kept | split | lift_lets

theorem bootPaths_kept {rr : Bool} {s0 s : State} (inp : BootIn) (hk : Kept rr s0 s) : Kept rr s0 (bootPaths inp s) := by
  delta bootPaths
  repeat' first | with_reducible assumption | (intro x; refine (fun _ => ?_ : Kept rr s0 x → _) ?_; rotate_left; unfold x) | (intro x; refine (fun _ => ?_ : Kept rr s0 x.2 → _) ?_; rotate_left; unfold x) | (intro x; clear_value x) | intro x | with_reducible apply wr_kept | with_reducible apply ketBroken_kept | with_reducible apply updFaultN_kept | with_reducible apply updKet_kept | with_reducible apply each_kept | lift_lets

theorem coreDead_kept {rr : Bool} {s0 s : State} (p : Nat) (hk : Kept rr s0 s) : Kept rr s0 (coreDead p s) := by
  delta coreDead
  repeat' first | with_reducible assumption | (intro x; refine (fun _ => ?_ : Kept rr s0 x → _) ?_; rotate_left; unfold x) | (intro x; refine (fun _ => ?_ : Kept rr s0 x.2 → _) ?_; rotate_left; unfold x) | (intro x; clear_value x) | intro x | with_reducible apply wr_kept | with_reducible apply mapOutSpare_kept | with_reducible apply mapOut_kept | with_reducible apply impaired_kept | with_reducible apply mapChanged_kept | with_reducible apply ledger_kept | with_reducible apply updSys_kept | with_reducible apply ite_kept | split | lift_lets

theorem bootCores_kept {rr : Bool} {s0 s : State} (inp : BootIn) (hk : Kept rr s0 s) : Kept rr s0 (bootCores inp s) := by
  delta bootCores
  repeat' first | with_reducible assumption | (intro x; refine (fun _ => ?_ : Kept rr s0 x → _) ?_; rotate_left; unfold x) | (intro x; refine (fun _ => ?_ : Kept rr s0 x.2 → _) ?_; rotate_left; unfold x) | (intro x; clear_value x) | intro x | with_reducible apply wr_kept | with_reducible apply coreDead_kept | with_reducible apply mapChanged_kept | with_reducible apply each_kept | with_reducible apply ite_kept | split | lift_lets

theorem sramTake_kept {rr : Bool} {s0 s : State} (cls arr phase cause : Nat) (hk : Kept rr s0 s) : Kept rr s0 (sramTake cls arr phase cause s) := by
  delta sramTake
  repeat' first | with_reducible assumption | (intro x; refine (fun _ => ?_ : Kept rr s0 x → _) ?_; rotate_left; unfold x) | (intro x; refine (fun _ => ?_ : Kept rr s0 x.2 → _) ?_; rotate_left; unfold x) | (intro x; clear_value x) | intro x | with_reducible apply wr_kept | with_reducible apply spareGone_kept | with_reducible apply updSys_kept | with_reducible apply ite_kept | split | lift_lets

theorem sramRepair_kept {rr : Bool} {s0 s : State} (cls arr addr phase cause : Nat) (hk : Kept rr s0 s) : Kept rr s0 (sramRepair cls arr addr phase cause s) := by
  delta sramRepair
  repeat' first | with_reducible assumption | (intro x; refine (fun _ => ?_ : Kept rr s0 x → _) ?_; rotate_left; unfold x) | (intro x; refine (fun _ => ?_ : Kept rr s0 x.2 → _) ?_; rotate_left; unfold x) | (intro x; clear_value x) | intro x | with_reducible apply wr_kept | with_reducible apply sramTake_kept | with_reducible apply impaired_kept | with_reducible apply mapChanged_kept | with_reducible apply ledger_kept | with_reducible apply bump_kept | with_reducible apply ite_kept | split | lift_lets

theorem sramSpareDead_kept {rr : Bool} {s0 s : State} (cls arr : Nat) (hk : Kept rr s0 s) : Kept rr s0 (sramSpareDead cls arr s) := by
  delta sramSpareDead
  repeat' first | with_reducible assumption | (intro x; refine (fun _ => ?_ : Kept rr s0 x → _) ?_; rotate_left; unfold x) | (intro x; refine (fun _ => ?_ : Kept rr s0 x.2 → _) ?_; rotate_left; unfold x) | (intro x; clear_value x) | intro x | with_reducible apply wr_kept | with_reducible apply sramTake_kept | with_reducible apply mapChanged_kept | with_reducible apply ledger_kept | with_reducible apply ite_kept | split | lift_lets

theorem bootMemory_kept {rr : Bool} {s0 s : State} (inp : BootIn) (hk : Kept rr s0 s) : Kept rr s0 (bootMemory inp s).2 := by
  delta bootMemory
  repeat' first | with_reducible assumption | (intro x; refine (fun _ => ?_ : Kept rr s0 x → _) ?_; rotate_left; unfold x) | (intro x; refine (fun _ => ?_ : Kept rr s0 x.2 → _) ?_; rotate_left; unfold x) | (intro x; clear_value x) | intro x | with_reducible apply wr_kept | with_reducible apply sramSpareDead_kept | with_reducible apply sramRepair_kept | with_reducible apply each_kept | lift_lets

theorem sliceDead_kept {rr : Bool} {s0 s : State} (e : Nat × Nat) (hk : Kept rr s0 s) : Kept rr s0 (sliceDead e s) := by
  delta sliceDead
  repeat' first | with_reducible assumption | (intro x; refine (fun _ => ?_ : Kept rr s0 x → _) ?_; rotate_left; unfold x) | (intro x; refine (fun _ => ?_ : Kept rr s0 x.2 → _) ?_; rotate_left; unfold x) | (intro x; clear_value x) | intro x | with_reducible apply wr_kept | with_reducible apply failSpare_kept | with_reducible apply failLogical_kept | with_reducible apply ite_kept | split | lift_lets

theorem bootSlices_kept {rr : Bool} {s0 s : State} (inp : BootIn) (hk : Kept rr s0 s) : Kept rr s0 (bootSlices inp s) := by
  delta bootSlices
  repeat' first | with_reducible assumption | (intro x; refine (fun _ => ?_ : Kept rr s0 x → _) ?_; rotate_left; unfold x) | (intro x; refine (fun _ => ?_ : Kept rr s0 x.2 → _) ?_; rotate_left; unfold x) | (intro x; clear_value x) | intro x | with_reducible apply wr_kept | with_reducible apply sliceDead_kept | with_reducible apply setLive_kept | with_reducible apply each_kept | with_reducible apply ite_kept | split | lift_lets

theorem bootImage_kept {rr : Bool} {s0 s : State} (hk : Kept rr s0 s) : Kept rr s0 (bootImage s).2 := by
  delta bootImage
  repeat' first | with_reducible assumption | (intro x; refine (fun _ => ?_ : Kept rr s0 x → _) ?_; rotate_left; unfold x) | (intro x; refine (fun _ => ?_ : Kept rr s0 x.2 → _) ?_; rotate_left; unfold x) | (intro x; clear_value x) | intro x | with_reducible apply wr_kept | with_reducible apply verifySlot_kept | with_reducible apply setNvmBit_kept | with_reducible apply updNvm_kept | with_reducible apply ite_kept | with_reducible apply ite2_kept | split | lift_lets

theorem bootTamper_kept {rr : Bool} {s0 s : State} (inp : BootIn) (hk : Kept rr s0 s) : Kept rr s0 (bootTamper inp s) := by
  delta bootTamper
  repeat' first | with_reducible assumption | (intro x; refine (fun _ => ?_ : Kept rr s0 x → _) ?_; rotate_left; unfold x) | (intro x; refine (fun _ => ?_ : Kept rr s0 x.2 → _) ?_; rotate_left; unfold x) | (intro x; clear_value x) | intro x | with_reducible apply wr_kept | with_reducible apply updTamper_kept | with_reducible apply updSys_kept | with_reducible apply bumpN_kept | with_reducible apply ite_kept | split | lift_lets

theorem bootNet_kept {rr : Bool} {s0 s : State} (hk : Kept rr s0 s) : Kept rr s0 (bootNet s) := by
  delta bootNet
  repeat' first | with_reducible assumption | (intro x; refine (fun _ => ?_ : Kept rr s0 x → _) ?_; rotate_left; unfold x) | (intro x; refine (fun _ => ?_ : Kept rr s0 x.2 → _) ?_; rotate_left; unfold x) | (intro x; clear_value x) | intro x | with_reducible apply wr_kept | with_reducible apply set_jop_kept

theorem bootDerive_kept {rr : Bool} {s0 s : State} (hk : Kept rr s0 s) : Kept rr s0 (bootDerive s) := by
  delta bootDerive
  repeat' first | with_reducible assumption | (intro x; refine (fun _ => ?_ : Kept rr s0 x → _) ?_; rotate_left; unfold x) | (intro x; refine (fun _ => ?_ : Kept rr s0 x.2 → _) ?_; rotate_left; unfold x) | (intro x; clear_value x) | intro x | with_reducible apply wr_kept | with_reducible apply caddyCheck_kept | with_reducible apply balWritten_kept | with_reducible apply adcLoad_kept | with_reducible apply updCalState_kept | with_reducible apply loadComparators_kept | with_reducible apply acqCheck_kept | with_reducible apply onlyIf_kept | with_reducible apply each_kept | with_reducible apply ite_kept | split | lift_lets

theorem startLanes_kept {rr : Bool} {s0 s : State} (hk : Kept rr s0 s) : Kept rr s0 (startLanes s) := by
  delta startLanes
  repeat' first | with_reducible assumption | (intro x; refine (fun _ => ?_ : Kept rr s0 x → _) ?_; rotate_left; unfold x) | (intro x; refine (fun _ => ?_ : Kept rr s0 x.2 → _) ?_; rotate_left; unfold x) | (intro x; clear_value x) | intro x | with_reducible apply wr_kept | with_reducible apply toL0_kept | with_reducible apply each_kept | with_reducible apply ite_kept | split

theorem loadThresholds_kept {rr : Bool} {s0 s : State} (hk : Kept rr s0 s) : Kept rr s0 (loadThresholds s) := by
  delta loadThresholds
  repeat' first | with_reducible assumption | (intro x; refine (fun _ => ?_ : Kept rr s0 x → _) ?_; rotate_left; unfold x) | (intro x; refine (fun _ => ?_ : Kept rr s0 x.2 → _) ?_; rotate_left; unfold x) | (intro x; clear_value x) | intro x | with_reducible apply wr_kept | with_reducible apply each_kept | with_reducible apply ite_kept | split

theorem romService_kept {rr : Bool} {s0 s : State} (code : Nat) (hk : Kept rr s0 s) : Kept rr s0 (romService code s) := by
  delta romService
  repeat' first | with_reducible assumption | (intro x; refine (fun _ => ?_ : Kept rr s0 x → _) ?_; rotate_left; unfold x) | (intro x; refine (fun _ => ?_ : Kept rr s0 x.2 → _) ?_; rotate_left; unfold x) | (intro x; clear_value x) | intro x | with_reducible apply wr_kept | with_reducible apply startLanes_kept | with_reducible apply updFaultN_kept

theorem bootLoad_kept {rr : Bool} {s0 s : State} (inp : BootIn) (t0 : Nat) (hk : Kept rr s0 s) : Kept rr s0 (bootLoad inp t0 s) := by
  delta bootLoad
  repeat' first | with_reducible assumption | (intro x; refine (fun _ => ?_ : Kept rr s0 x → _) ?_; rotate_left; unfold x) | (intro x; refine (fun _ => ?_ : Kept rr s0 x.2 → _) ?_; rotate_left; unfold x) | (intro x; clear_value x) | intro x | with_reducible apply wr_kept | with_reducible apply startLanes_kept | with_reducible apply bootDerive_kept | with_reducible apply bootNet_kept | with_reducible apply bootTamper_kept | with_reducible apply phaseEnd_kept | with_reducible apply loadSafety_kept | with_reducible apply loadStore_kept | with_reducible apply bypUncmd_kept | with_reducible apply setAux_kept | with_reducible apply celGo_kept | with_reducible apply updTim_kept | with_reducible apply onlyIf_kept | with_reducible apply ite_kept | split | lift_lets

theorem bootCopies_kept {rr : Bool} {s0 s : State} (inp : BootIn) (hk : Kept rr s0 s) : Kept rr s0 (bootCopies inp s) := by
  delta bootCopies
  repeat' first | with_reducible assumption | (intro x; refine (fun _ => ?_ : Kept rr s0 x → _) ?_; rotate_left; unfold x) | (intro x; refine (fun _ => ?_ : Kept rr s0 x.2 → _) ?_; rotate_left; unfold x) | (intro x; clear_value x) | intro x | with_reducible apply wr_kept | with_reducible apply loadThresholds_kept | with_reducible apply updNvm_kept | with_reducible apply loadComparators_kept | split | lift_lets

theorem bootPhases_kept {rr : Bool} {s0 s : State} (inp : BootIn) (t0 : Nat) (hk : Kept rr s0 s) : Kept rr s0 (bootPhases inp t0 s) := by
  delta bootPhases
  repeat' first | with_reducible assumption | (intro x; refine (fun _ => ?_ : Kept rr s0 x → _) ?_; rotate_left; unfold x) | (intro x; refine (fun _ => ?_ : Kept rr s0 x.2 → _) ?_; rotate_left; unfold x) | (intro x; clear_value x) | intro x | with_reducible apply wr_kept | with_reducible apply bootCopies_kept | with_reducible apply bootLoad_kept | with_reducible apply romService_kept | with_reducible apply bootImage_kept | with_reducible apply bootSlices_kept | with_reducible apply bootMemory_kept | with_reducible apply bootCores_kept | with_reducible apply bootPaths_kept | with_reducible apply bootMap_kept | with_reducible apply phaseEnd_kept | with_reducible apply updHealth_kept | with_reducible apply updSys_kept | with_reducible apply updFaultN_kept | with_reducible apply updKet_kept | with_reducible apply ite_kept | with_reducible apply ite2_kept | split | lift_lets

theorem released_kept (inp : BootIn) (s : State) : Kept true { s with objs := [], straps := inp.straps, tick := 0 } (released inp s) := by
  have h0 := Kept.refl true { s with objs := [], straps := inp.straps, tick := 0 }
  generalize hb : ({ s with objs := [], straps := inp.straps, tick := 0 } : State) = s0 at h0
  delta released
  dsimp only
  rw [hb]
  repeat' first | with_reducible assumption | (intro x; refine (fun _ => ?_ : Kept true s0 x → _) ?_; rotate_left; unfold x) | (intro x; refine (fun _ => ?_ : Kept true s0 x.2 → _) ?_; rotate_left; unfold x) | (intro x; clear_value x) | intro x | with_reducible apply wr_kept | with_reducible apply ite_kept | with_reducible apply ite2_kept | with_reducible apply calStart_kept | with_reducible apply restoreRecord_kept | with_reducible apply showSpares_kept | with_reducible apply wrBit_kept | with_reducible apply updSys_kept | with_reducible apply each_kept | split | lift_lets

/-- With no object written, other straps keep the form. -/
theorem newStraps_wf {s : State} (p : Straps) (n : Nat) (h : s.wf = true) : State.wf { s with objs := [], straps := p, tick := n } = true := by
  simp only [State.wf, State.objsWf, Bool.and_eq_true] at h ⊢
  exact ⟨h.1, rfl, rfl⟩

theorem withStraps_kept (p : Straps) (s : State) : Kept true { s with objs := [], straps := p } (withStraps p s) :=
  each_kept (fun _ _ h => wr_kept _ _ h) (Kept.refl _ _)

/-- What RESET_RELEASE does to queue, form, straps and free values (R1, R386, R388): nothing unless reset is held. -/
theorem resetRelease_spec (inp : BootIn) (s : State) :
    resetRelease inp s = s ∨ ((resetRelease inp s).pending = s.pending ∧ s.free ≤ (resetRelease inp s).free ∧ (s.wf = true → (resetRelease inp s).wf = true)
      ∧ (resetRelease inp s).straps = inp.straps) := by
  unfold resetRelease
  split
  · exact .inl rfl
  · right
    split
    · have h := withStraps_kept inp.straps s
      exact ⟨h.pending, h.free, fun w => h.wf (newStraps_wf (s := s) _ s.tick w), h.straps⟩
    · have h := bootPhases_kept inp 0 (released_kept inp s)
      exact ⟨h.pending, h.free, fun w => h.wf (newStraps_wf _ _ w), h.straps⟩

theorem bootRetry_kept {rr : Bool} {s0 s : State} (inp : BootIn) (hk : Kept rr s0 s) : Kept rr s0 (bootRetry inp s) := by
  delta bootRetry
  repeat' first | with_reducible assumption | (intro x; refine (fun _ => ?_ : Kept rr s0 x → _) ?_; rotate_left; unfold x) | (intro x; refine (fun _ => ?_ : Kept rr s0 x.2 → _) ?_; rotate_left; unfold x) | (intro x; clear_value x) | intro x | with_reducible apply wr_kept | with_reducible apply bootPhases_kept | with_reducible apply updSys_kept | with_reducible apply advTo_kept | split | lift_lets

end Sys2Proof.Machine
end

