-- ==== Sys2Proof/Laws/KSys.lean ====
section
/-! SUPPORT. What the operations of Machine/Sys.lean keep. -/
set_option linter.all false
namespace Sys2Proof.Machine

theorem refclkLoss_kept {rr : Bool} {s0 s : State} (hk : Kept rr s0 s) : Kept rr s0 (refclkLoss s) := by
  delta refclkLoss
  repeat' first | with_reducible assumption | (intro x; refine (fun _ => ?_ : Kept rr s0 x → _) ?_; rotate_left; unfold x) | (intro x; refine (fun _ => ?_ : Kept rr s0 x.2 → _) ?_; rotate_left; unfold x) | (intro x; clear_value x) | intro x | with_reducible apply wr_kept | with_reducible apply updSys_kept | with_reducible apply ite_kept | split

theorem pcsParity_kept {rr : Bool} {s0 s : State} (n : Nat) (bad : Bool) (hk : Kept rr s0 s) : Kept rr s0 (pcsParity n bad s) := by
  delta pcsParity
  repeat' first | with_reducible assumption | (intro x; refine (fun _ => ?_ : Kept rr s0 x → _) ?_; rotate_left; unfold x) | (intro x; refine (fun _ => ?_ : Kept rr s0 x.2 → _) ?_; rotate_left; unfold x) | (intro x; clear_value x) | intro x | with_reducible apply wr_kept | with_reducible apply lineLost_kept | with_reducible apply failLogical_kept | with_reducible apply bump_kept | with_reducible apply ite_kept | split | lift_lets

theorem routerParity_kept {rr : Bool} {s0 s : State} (r : Nat) (lanes : List Nat) (hk : Kept rr s0 s) : Kept rr s0 (routerParity r lanes s) := by
  delta routerParity
  repeat' first | with_reducible assumption | (intro x; refine (fun _ => ?_ : Kept rr s0 x → _) ?_; rotate_left; unfold x) | (intro x; refine (fun _ => ?_ : Kept rr s0 x.2 → _) ?_; rotate_left; unfold x) | (intro x; clear_value x) | intro x | with_reducible apply wr_kept | with_reducible apply failLogical_kept | with_reducible apply updLane_kept | with_reducible apply each_kept | lift_lets

theorem writeSysCmd_kept {s0 s : State} (v : Nat) (hk : Kept true s0 s) : Kept true s0 (writeSysCmd v s).2 := by
  delta writeSysCmd
  repeat' first | with_reducible assumption | (intro x; refine (fun _ => ?_ : Kept true s0 x → _) ?_; rotate_left; unfold x) | (intro x; refine (fun _ => ?_ : Kept true s0 x.2 → _) ?_; rotate_left; unfold x) | (intro x; clear_value x) | intro x | with_reducible apply wr_kept | with_reducible apply dieReset_kept | with_reducible apply done_kept | with_reducible apply writeBy_kept

theorem scrubPass_kept {rr : Bool} {s0 s : State} (rows words : List (Nat × Nat)) (hk : Kept rr s0 s) : Kept rr s0 (scrubPass rows words s) := by
  delta scrubPass
  repeat' first | with_reducible assumption | (intro x; refine (fun _ => ?_ : Kept rr s0 x → _) ?_; rotate_left; unfold x) | (intro x; refine (fun _ => ?_ : Kept rr s0 x.2 → _) ?_; rotate_left; unfold x) | (intro x; clear_value x) | intro x | with_reducible apply wr_kept | with_reducible apply foldl_kept | with_reducible apply foldl2_kept | with_reducible apply sramRepair_kept | with_reducible apply updSys_kept | with_reducible apply each_kept | with_reducible apply bump_kept | with_reducible apply bumpN_kept | lift_lets

theorem powerEffect_kept {rr : Bool} {s0 s : State} (v : Nat) (hk : Kept rr s0 s) : Kept rr s0 (powerEffect v s) := by
  delta powerEffect
  repeat' first | with_reducible assumption | (intro x; refine (fun _ => ?_ : Kept rr s0 x → _) ?_; rotate_left; unfold x) | (intro x; refine (fun _ => ?_ : Kept rr s0 x.2 → _) ?_; rotate_left; unfold x) | (intro x; clear_value x) | intro x | with_reducible apply wr_kept | with_reducible apply saveRecord_kept | with_reducible apply updSys_kept | with_reducible apply pdRequest_kept | with_reducible apply wrBit_kept | with_reducible apply ite_kept | split

theorem writePowerCmd_kept {rr : Bool} {s0 s : State} (v : Nat) (hk : Kept rr s0 s) : Kept rr s0 (writePowerCmd v s).2 := by
  delta writePowerCmd
  repeat' first | with_reducible assumption | (intro x; refine (fun _ => ?_ : Kept rr s0 x → _) ?_; rotate_left; unfold x) | (intro x; refine (fun _ => ?_ : Kept rr s0 x.2 → _) ?_; rotate_left; unfold x) | (intro x; clear_value x) | intro x | with_reducible apply wr_kept | with_reducible apply powerEffect_kept | with_reducible apply done_kept | with_reducible apply writeBy_kept

theorem ddrReturn_kept {rr : Bool} {s0 s : State} (hk : Kept rr s0 s) : Kept rr s0 (ddrReturn s) := by
  delta ddrReturn
  repeat' first | with_reducible assumption | (intro x; refine (fun _ => ?_ : Kept rr s0 x → _) ?_; rotate_left; unfold x) | (intro x; refine (fun _ => ?_ : Kept rr s0 x.2 → _) ?_; rotate_left; unfold x) | (intro x; clear_value x) | intro x | with_reducible apply wr_kept | with_reducible apply updSys_kept | with_reducible apply acqCheck_kept | with_reducible apply advTo_kept | with_reducible apply wrBit_kept | split

theorem wake_kept {rr : Bool} {s0 s : State} (hk : Kept rr s0 s) : Kept rr s0 (wake s) := by
  delta wake
  repeat' first | with_reducible assumption | (intro x; refine (fun _ => ?_ : Kept rr s0 x → _) ?_; rotate_left; unfold x) | (intro x; refine (fun _ => ?_ : Kept rr s0 x.2 → _) ?_; rotate_left; unfold x) | (intro x; clear_value x) | intro x | with_reducible apply wr_kept | with_reducible apply updSys_kept | with_reducible apply ite_kept | split

theorem tamperEvent_kept {rr : Bool} {s0 s : State} (kind time : Nat) (hk : Kept rr s0 s) : Kept rr s0 (tamperEvent kind time s) := by
  delta tamperEvent
  repeat' first | with_reducible assumption | (intro x; refine (fun _ => ?_ : Kept rr s0 x → _) ?_; rotate_left; unfold x) | (intro x; refine (fun _ => ?_ : Kept rr s0 x.2 → _) ?_; rotate_left; unfold x) | (intro x; clear_value x) | intro x | with_reducible apply wr_kept | with_reducible apply updSys_kept | with_reducible apply ite_kept | split

theorem writeTamperAck_kept {rr : Bool} {s0 s : State} (v : Nat) (hk : Kept rr s0 s) : Kept rr s0 (writeTamperAck v s).2 := by
  delta writeTamperAck
  repeat' first | with_reducible assumption | (intro x; refine (fun _ => ?_ : Kept rr s0 x → _) ?_; rotate_left; unfold x) | (intro x; refine (fun _ => ?_ : Kept rr s0 x.2 → _) ?_; rotate_left; unfold x) | (intro x; clear_value x) | intro x | with_reducible apply wr_kept | with_reducible apply updTamper_kept | with_reducible apply done_kept | with_reducible apply writeBy_kept | with_reducible apply ite_kept | with_reducible apply ite2_kept | split

theorem overtemp_kept {rr : Bool} {s0 s : State} (t : Int) (hk : Kept rr s0 s) : Kept rr s0 (overtemp t s) := by
  delta overtemp
  repeat' first | with_reducible assumption | (intro x; refine (fun _ => ?_ : Kept rr s0 x → _) ?_; rotate_left; unfold x) | (intro x; refine (fun _ => ?_ : Kept rr s0 x.2 → _) ?_; rotate_left; unfold x) | (intro x; clear_value x) | intro x | with_reducible apply wr_kept | with_reducible apply setLive_kept | with_reducible apply ite_kept | split

theorem coreFail_kept {s0 s : State} (c : Nat) (hk : Kept true s0 s) : Kept true s0 (coreFail c s) := by
  delta coreFail
  repeat' first | with_reducible assumption | (intro x; refine (fun _ => ?_ : Kept true s0 x → _) ?_; rotate_left; unfold x) | (intro x; refine (fun _ => ?_ : Kept true s0 x.2 → _) ?_; rotate_left; unfold x) | (intro x; clear_value x) | intro x | with_reducible apply wr_kept | with_reducible apply dieReset_kept | with_reducible apply abortTask_kept | with_reducible apply mapOut_kept | with_reducible apply dispatch_kept | with_reducible apply unDeck_kept | with_reducible apply ite_kept | split | lift_lets

end Sys2Proof.Machine
end

