-- ==== Sys2Proof/Laws/KOpsLawOut.lean ====
section
/-! SUPPORT. What the operations of Machine/OpsLawOut.lean keep. -/
set_option linter.all false
namespace Sys2Proof.Machine

theorem buildEntry_kept {rr : Bool} {s0 s : State} (a : Nat) (m i : Option Nat) (hk : Kept rr s0 s) : Kept rr s0 (buildEntry a m i s).2 := by
  delta buildEntry
  repeat' first | with_reducible assumption | (intro x; refine (fun _ => ?_ : Kept rr s0 x → _) ?_; rotate_left; unfold x) | (intro x; refine (fun _ => ?_ : Kept rr s0 x.2 → _) ?_; rotate_left; unfold x) | (intro x; clear_value x) | intro x | with_reducible apply wr_kept | with_reducible apply bump_kept | with_reducible apply ite_kept | with_reducible apply ite2_kept | split | lift_lets

theorem buildReferences_kept {rr : Bool} {s0 s : State} (k : Nat) (outs : List (Nat × Nat × Nat)) (hk : Kept rr s0 s) : Kept rr s0 (buildReferences k outs s) := by
  delta buildReferences
  repeat' first | with_reducible assumption | (intro x; refine (fun _ => ?_ : Kept rr s0 x → _) ?_; rotate_left; unfold x) | (intro x; refine (fun _ => ?_ : Kept rr s0 x.2 → _) ?_; rotate_left; unfold x) | (intro x; clear_value x) | intro x | with_reducible apply wr_kept | with_reducible apply foldl_kept | with_reducible apply foldl2_kept | with_reducible apply buildEntry_kept | with_reducible apply takeEntries_kept | with_reducible apply updBal_kept | with_reducible apply ite_kept | with_reducible apply ite2_kept | split | lift_lets

theorem putOutput_kept {rr : Bool} {s0 s : State} (o : Nat × Nat × Nat) (hk : Kept rr s0 s) : Kept rr s0 (putOutput o s) := by
  delta putOutput
  repeat' first | with_reducible assumption | (intro x; refine (fun _ => ?_ : Kept rr s0 x → _) ?_; rotate_left; unfold x) | (intro x; refine (fun _ => ?_ : Kept rr s0 x.2 → _) ?_; rotate_left; unfold x) | (intro x; refine (fun _ => ?_ : Kept rr s0 x.2.2 → _) ?_; rotate_left; unfold x) | (intro x; clear_value x) | intro x | with_reducible apply wr_kept | with_reducible apply updLaw_kept | with_reducible apply acqLaw_kept | split

theorem inputTest_kept {rr : Bool} {s0 s : State} (k : Nat) (hk : Kept rr s0 s) : Kept rr s0 (inputTest k s) := by
  delta inputTest
  repeat' first | with_reducible assumption | (intro x; refine (fun _ => ?_ : Kept rr s0 x → _) ?_; rotate_left; unfold x) | (intro x; refine (fun _ => ?_ : Kept rr s0 x.2 → _) ?_; rotate_left; unfold x) | (intro x; refine (fun _ => ?_ : Kept rr s0 x.2.2 → _) ?_; rotate_left; unfold x) | (intro x; clear_value x) | intro x | with_reducible apply wr_kept | with_reducible apply foldl_kept | with_reducible apply foldl2_kept | with_reducible apply updRed_kept | with_reducible apply ite_kept | split | lift_lets

theorem trcStore_kept {rr : Bool} {s0 s : State} (pos : Nat) (abandoned : Bool) (hk : Kept rr s0 s) : Kept rr s0 (trcStore pos abandoned s) := by
  delta trcStore
  repeat' first | with_reducible assumption | (intro x; refine (fun _ => ?_ : Kept rr s0 x → _) ?_; rotate_left; unfold x) | (intro x; refine (fun _ => ?_ : Kept rr s0 x.2 → _) ?_; rotate_left; unfold x) | (intro x; clear_value x) | intro x | with_reducible apply wr_kept | with_reducible apply stBytes_kept | with_reducible apply each_kept | with_reducible apply stBytes_kept | with_reducible apply ite_kept | split | lift_lets

theorem trcMark_kept {rr : Bool} {s0 s : State} (k n : Nat) (hk : Kept rr s0 s) : Kept rr s0 (trcMark k n s) := by
  delta trcMark
  repeat' first | with_reducible assumption | (intro x; refine (fun _ => ?_ : Kept rr s0 x → _) ?_; rotate_left; unfold x) | (intro x; refine (fun _ => ?_ : Kept rr s0 x.2 → _) ?_; rotate_left; unfold x) | (intro x; clear_value x) | intro x | with_reducible apply wr_kept | with_reducible apply updTrc_kept | with_reducible apply ite_kept | split | lift_lets

theorem trcSample_kept {rr : Bool} {s0 s : State} (k : Nat) (abandoned : Bool) (hk : Kept rr s0 s) : Kept rr s0 (trcSample k abandoned s) := by
  delta trcSample
  repeat' first | with_reducible assumption | (intro x; refine (fun _ => ?_ : Kept rr s0 x → _) ?_; rotate_left; unfold x) | (intro x; refine (fun _ => ?_ : Kept rr s0 x.2 → _) ?_; rotate_left; unfold x) | (intro x; clear_value x) | intro x | with_reducible apply wr_kept | with_reducible apply trcMark_kept | with_reducible apply trcStore_kept | with_reducible apply trcTrigger_kept | with_reducible apply updTrc_kept | with_reducible apply onlyIf_kept | with_reducible apply ite_kept | split | lift_lets

theorem trcCommit_kept {rr : Bool} {s0 s : State} (k : Nat) (abandoned : Bool) (hk : Kept rr s0 s) : Kept rr s0 (trcCommit k abandoned s) := by
  delta trcCommit
  repeat' first | with_reducible assumption | (intro x; refine (fun _ => ?_ : Kept rr s0 x → _) ?_; rotate_left; unfold x) | (intro x; refine (fun _ => ?_ : Kept rr s0 x.2 → _) ?_; rotate_left; unfold x) | (intro x; clear_value x) | intro x | with_reducible apply wr_kept | with_reducible apply trcSample_kept | with_reducible apply trcTrigger_kept | with_reducible apply updTrc_kept | with_reducible apply updLaw_kept | with_reducible apply each_kept | with_reducible apply ite_kept | split | lift_lets

theorem lawUndo_kept {rr : Bool} {s0 s : State} (hk : Kept rr s0 s) : Kept rr s0 (lawUndo s) := by
  delta lawUndo
  repeat' first | with_reducible assumption | (intro x; refine (fun _ => ?_ : Kept rr s0 x → _) ?_; rotate_left; unfold x) | (intro x; refine (fun _ => ?_ : Kept rr s0 x.2 → _) ?_; rotate_left; unfold x) | (intro x; clear_value x) | intro x | with_reducible apply wr_kept | with_reducible apply updLaw_kept | split

theorem lawAbandon_kept {rr : Bool} {s0 s : State} (k : Nat) (hk : Kept rr s0 s) : Kept rr s0 (lawAbandon k s) := by
  delta lawAbandon
  repeat' first | with_reducible assumption | (intro x; refine (fun _ => ?_ : Kept rr s0 x → _) ?_; rotate_left; unfold x) | (intro x; refine (fun _ => ?_ : Kept rr s0 x.2 → _) ?_; rotate_left; unfold x) | (intro x; clear_value x) | intro x | with_reducible apply wr_kept | with_reducible apply lawUndo_kept | with_reducible apply trcCommit_kept | with_reducible apply updRed_kept | with_reducible apply countLate_kept | with_reducible apply updWork_kept | with_reducible apply updBal_kept | with_reducible apply bump_kept | with_reducible apply ite_kept | split | lift_lets

theorem commitResults_kept {rr : Bool} {s0 s : State} (v : LawEval) (hk : Kept rr s0 s) : Kept rr s0 (commitResults v s) := by
  delta commitResults
  repeat' first | with_reducible assumption | (intro x; refine (fun _ => ?_ : Kept rr s0 x → _) ?_; rotate_left; unfold x) | (intro x; refine (fun _ => ?_ : Kept rr s0 x.2 → _) ?_; rotate_left; unfold x) | (intro x; clear_value x) | intro x | with_reducible apply wr_kept | with_reducible apply foldl_kept | with_reducible apply foldl2_kept | with_reducible apply updLaw_kept | with_reducible apply each_kept | with_reducible apply wrBit_kept | with_reducible apply bump_kept | lift_lets

theorem lawCommit_kept {rr : Bool} {s0 s : State} (v : LawEval) (hk : Kept rr s0 s) : Kept rr s0 (lawCommit v s) := by
  delta lawCommit
  repeat' first | with_reducible assumption | (intro x; refine (fun _ => ?_ : Kept rr s0 x → _) ?_; rotate_left; unfold x) | (intro x; refine (fun _ => ?_ : Kept rr s0 x.2 → _) ?_; rotate_left; unfold x) | (intro x; refine (fun _ => ?_ : Kept rr s0 x.2.2 → _) ?_; rotate_left; unfold x) | (intro x; clear_value x) | intro x | with_reducible apply wr_kept | with_reducible apply commitResults_kept | with_reducible apply lawAbandon_kept | with_reducible apply trcCommit_kept | with_reducible apply inputTest_kept | with_reducible apply putOutput_kept | with_reducible apply buildReferences_kept | with_reducible apply caddyCapture_kept | with_reducible apply updLaw_kept | with_reducible apply updRed_kept | with_reducible apply fireEvent_kept | with_reducible apply each_kept | with_reducible apply ite_kept | split | lift_lets

end Sys2Proof.Machine
end

