-- ==== Sys2Proof/Laws/KLaw.lean ====
section
/-! SUPPORT. What the operations of Machine/Law.lean keep. -/
set_option linter.all false
namespace Sys2Proof.Machine

theorem lawEvalStart_kept {rr : Bool} {s0 s : State} (fails : List Nat) (corrected : Nat) (ecc : Bool) (hk : Kept rr s0 s) : Kept rr s0 (lawEvalStart fails corrected ecc s) := by
  delta lawEvalStart
  repeat' first | with_reducible assumption | (intro x; refine (fun _ => ?_ : Kept rr s0 x → _) ?_; rotate_left; unfold x) | (intro x; refine (fun _ => ?_ : Kept rr s0 x.2 → _) ?_; rotate_left; unfold x) | (intro x; clear_value x) | intro x | with_reducible apply wr_kept | with_reducible apply caddyApply_kept | with_reducible apply lawStart_kept | with_reducible apply updLaw_kept | with_reducible apply fillArms_kept | with_reducible apply advVt_kept | with_reducible apply ite_kept | split | lift_lets

theorem lawCommitNow_kept {rr : Bool} {s0 s : State} (hk : Kept rr s0 s) : Kept rr s0 (lawCommitNow s) := by
  delta lawCommitNow
  repeat' first | with_reducible assumption | (intro x; refine (fun _ => ?_ : Kept rr s0 x → _) ?_; rotate_left; unfold x) | (intro x; refine (fun _ => ?_ : Kept rr s0 x.2 → _) ?_; rotate_left; unfold x) | (intro x; clear_value x) | intro x | with_reducible apply wr_kept | with_reducible apply lawCommit_kept | with_reducible apply advVt_kept | split

theorem lawCmdEffect_kept {rr : Bool} {s0 s : State} (v : Nat) (hk : Kept rr s0 s) : Kept rr s0 (lawCmdEffect v s) := by
  delta lawCmdEffect
  repeat' first | with_reducible assumption | (intro x; refine (fun _ => ?_ : Kept rr s0 x → _) ?_; rotate_left; unfold x) | (intro x; refine (fun _ => ?_ : Kept rr s0 x.2 → _) ?_; rotate_left; unfold x) | (intro x; clear_value x) | intro x | with_reducible apply wr_kept | with_reducible apply lawSeal_kept | with_reducible apply lawValidate_kept | with_reducible apply updLaw_kept | split

theorem writeLawCmd_kept {rr : Bool} {s0 s : State} (v : Nat) (hk : Kept rr s0 s) : Kept rr s0 (writeLawCmd v s).2 := by
  delta writeLawCmd
  repeat' first | with_reducible assumption | (intro x; refine (fun _ => ?_ : Kept rr s0 x → _) ?_; rotate_left; unfold x) | (intro x; refine (fun _ => ?_ : Kept rr s0 x.2 → _) ?_; rotate_left; unfold x) | (intro x; clear_value x) | intro x | with_reducible apply wr_kept | with_reducible apply lawCmdEffect_kept | with_reducible apply done_kept | with_reducible apply writeBy_kept

theorem writeBankReq_kept {rr : Bool} {s0 s : State} (v : Nat) (hk : Kept rr s0 s) : Kept rr s0 (writeBankReq v s).2 := by
  delta writeBankReq
  repeat' first | with_reducible assumption | (intro x; refine (fun _ => ?_ : Kept rr s0 x → _) ?_; rotate_left; unfold x) | (intro x; refine (fun _ => ?_ : Kept rr s0 x.2 → _) ?_; rotate_left; unfold x) | (intro x; refine (fun _ => ?_ : Kept rr s0 x.2.2 → _) ?_; rotate_left; unfold x) | (intro x; clear_value x) | intro x | with_reducible apply wr_kept | with_reducible apply updLaw_kept | with_reducible apply done_kept | with_reducible apply writeBy_kept

theorem trcCmd_kept {rr : Bool} {s0 s : State} (v : Nat) (hk : Kept rr s0 s) : Kept rr s0 (trcCmd v s) := by
  delta trcCmd
  repeat' first | with_reducible assumption | (intro x; refine (fun _ => ?_ : Kept rr s0 x → _) ?_; rotate_left; unfold x) | (intro x; refine (fun _ => ?_ : Kept rr s0 x.2 → _) ?_; rotate_left; unfold x) | (intro x; clear_value x) | intro x | with_reducible apply wr_kept | with_reducible apply trcTrigger_kept | with_reducible apply updTrc_kept | with_reducible apply updLaw_kept | split

theorem writeTrcCmd_kept {rr : Bool} {s0 s : State} (v : Nat) (hk : Kept rr s0 s) : Kept rr s0 (writeTrcCmd v s).2 := by
  delta writeTrcCmd
  repeat' first | with_reducible assumption | (intro x; refine (fun _ => ?_ : Kept rr s0 x → _) ?_; rotate_left; unfold x) | (intro x; refine (fun _ => ?_ : Kept rr s0 x.2 → _) ?_; rotate_left; unfold x) | (intro x; clear_value x) | intro x | with_reducible apply wr_kept | with_reducible apply trcCmd_kept | with_reducible apply done_kept | with_reducible apply writeBy_kept

end Sys2Proof.Machine
end

