-- ==== Sys2Proof/Laws/KLnk.lean ====
section
/-! SUPPORT. What the operations of Machine/Lnk.lean keep. -/
set_option linter.all false
namespace Sys2Proof.Machine

theorem loopCount_kept {rr : Bool} {s0 s : State} (n : Nat) (hk : Kept rr s0 s) : Kept rr s0 (loopCount n s) := by
  delta loopCount
  repeat' first | with_reducible assumption | (intro x; refine (fun _ => ?_ : Kept rr s0 x → _) ?_; rotate_left; unfold x) | (intro x; refine (fun _ => ?_ : Kept rr s0 x.2 → _) ?_; rotate_left; unfold x) | (intro x; clear_value x) | intro x | with_reducible apply wr_kept | with_reducible apply updLane_kept | with_reducible apply takeFree_kept | with_reducible apply bumpN_kept | with_reducible apply ite_kept | with_reducible apply ite2_kept | split | lift_lets

theorem inLock_kept {rr : Bool} {s0 s : State} (n : Nat) (hk : Kept rr s0 s) : Kept rr s0 (inLock n s) := by
  delta inLock
  repeat' first | with_reducible assumption | (intro x; refine (fun _ => ?_ : Kept rr s0 x → _) ?_; rotate_left; unfold x) | (intro x; refine (fun _ => ?_ : Kept rr s0 x.2 → _) ?_; rotate_left; unfold x) | (intro x; clear_value x) | intro x | with_reducible apply wr_kept | with_reducible apply wrBit_kept

theorem laneDue_kept {rr : Bool} {s0 s : State} (n : Nat) (hk : Kept rr s0 s) : Kept rr s0 (laneDue n s) := by
  delta laneDue
  repeat' first | with_reducible assumption | (intro x; refine (fun _ => ?_ : Kept rr s0 x → _) ?_; rotate_left; unfold x) | (intro x; refine (fun _ => ?_ : Kept rr s0 x.2 → _) ?_; rotate_left; unfold x) | (intro x; clear_value x) | intro x | with_reducible apply wr_kept | with_reducible apply toL0_kept | with_reducible apply updLane_kept | with_reducible apply ite_kept | split

theorem writeLnkEnable_kept {rr : Bool} {s0 s : State} (n v : Nat) (hk : Kept rr s0 s) : Kept rr s0 (writeLnkEnable n v s).2 := by
  delta writeLnkEnable
  repeat' first | with_reducible assumption | (intro x; refine (fun _ => ?_ : Kept rr s0 x → _) ?_; rotate_left; unfold x) | (intro x; refine (fun _ => ?_ : Kept rr s0 x.2 → _) ?_; rotate_left; unfold x) | (intro x; clear_value x) | intro x | with_reducible apply wr_kept | with_reducible apply backoffEnd_kept | with_reducible apply loopCount_kept | with_reducible apply toL0_kept | with_reducible apply forget_kept | with_reducible apply goStage_kept | with_reducible apply dropQueues_kept | with_reducible apply done_kept | with_reducible apply writeBy_kept | with_reducible apply updLane_kept | with_reducible apply wrBit_kept | with_reducible apply ite_kept | with_reducible apply ite2_kept | split | lift_lets

theorem presenceLock_kept {rr : Bool} {s0 s : State} (n : Nat) (inverted : Bool) (hk : Kept rr s0 s) : Kept rr s0 (presenceLock n inverted s) := by
  delta presenceLock
  repeat' first | with_reducible assumption | (intro x; refine (fun _ => ?_ : Kept rr s0 x → _) ?_; rotate_left; unfold x) | (intro x; refine (fun _ => ?_ : Kept rr s0 x.2 → _) ?_; rotate_left; unfold x) | (intro x; clear_value x) | intro x | with_reducible apply wr_kept | with_reducible apply inLock_kept | with_reducible apply toL1_kept | with_reducible apply updLane_kept | with_reducible apply wrBit_kept | with_reducible apply ite_kept | split | lift_lets

theorem l0Timeout_kept {rr : Bool} {s0 s : State} (n : Nat) (hk : Kept rr s0 s) : Kept rr s0 (l0Timeout n s) := by
  delta l0Timeout
  repeat' first | with_reducible assumption | (intro x; refine (fun _ => ?_ : Kept rr s0 x → _) ?_; rotate_left; unfold x) | (intro x; refine (fun _ => ?_ : Kept rr s0 x.2 → _) ?_; rotate_left; unfold x) | (intro x; clear_value x) | intro x | with_reducible apply wr_kept | with_reducible apply updLaneDown_kept | with_reducible apply advTo_kept | with_reducible apply wrBit_kept | with_reducible apply ite_kept | split | lift_lets

theorem presenceRx_kept {rr : Bool} {s0 s : State} (n : Nat) (holdoff : Bool) (hk : Kept rr s0 s) : Kept rr s0 (presenceRx n holdoff s) := by
  delta presenceRx
  repeat' first | with_reducible assumption | (intro x; refine (fun _ => ?_ : Kept rr s0 x → _) ?_; rotate_left; unfold x) | (intro x; refine (fun _ => ?_ : Kept rr s0 x.2 → _) ?_; rotate_left; unfold x) | (intro x; clear_value x) | intro x | with_reducible apply wr_kept | with_reducible apply inLock_kept | with_reducible apply lineLost_kept | with_reducible apply updLane_kept | with_reducible apply wrBit_kept | with_reducible apply ite_kept | split

theorem capSend_kept {rr : Bool} {s0 s : State} (n : Nat) (hk : Kept rr s0 s) : Kept rr s0 (capSend n s) := by
  delta capSend
  repeat' first | with_reducible assumption | (intro x; refine (fun _ => ?_ : Kept rr s0 x → _) ?_; rotate_left; unfold x) | (intro x; refine (fun _ => ?_ : Kept rr s0 x.2 → _) ?_; rotate_left; unfold x) | (intro x; clear_value x) | intro x | with_reducible apply wr_kept | with_reducible apply tryL2_kept | with_reducible apply sendLadder_kept | with_reducible apply updLane_kept | with_reducible apply ite_kept | split | lift_lets

theorem onLadder_kept {rr : Bool} {s0 s : State} (msg n : Nat) (b : List Nat) {f : Ladder → State → State} (hf : ∀ l t, Kept rr s0 t → Kept rr s0 (f l t))
    (hk : Kept rr s0 s) : Kept rr s0 (onLadder msg n b f s) := by
  unfold onLadder
  repeat' first | with_reducible assumption | with_reducible apply ite_kept | with_reducible apply bump_kept | with_reducible apply inLock_kept | apply hf

theorem keepCap_kept {rr : Bool} {s0 s : State} (n : Nat) (c : Ladder) (hk : Kept rr s0 s) : Kept rr s0 (keepCap n c s) := by
  delta keepCap
  repeat' first | with_reducible assumption | (intro x; refine (fun _ => ?_ : Kept rr s0 x → _) ?_; rotate_left; unfold x) | (intro x; refine (fun _ => ?_ : Kept rr s0 x.2 → _) ?_; rotate_left; unfold x) | (intro x; clear_value x) | intro x | with_reducible apply wr_kept | with_reducible apply updLane_kept

theorem capRx_kept {rr : Bool} {s0 s : State} (n : Nat) (c : Ladder) (hk : Kept rr s0 s) : Kept rr s0 (capRx n c s) := by
  delta capRx
  repeat' first | with_reducible assumption | (intro x; refine (fun _ => ?_ : Kept rr s0 x → _) ?_; rotate_left; unfold x) | (intro x; refine (fun _ => ?_ : Kept rr s0 x.2 → _) ?_; rotate_left; unfold x) | (intro x; clear_value x) | intro x | with_reducible apply wr_kept | with_reducible apply keepCap_kept | with_reducible apply cellTarget_kept | with_reducible apply tryL2_kept | with_reducible apply toL1_kept | with_reducible apply goStage_kept | with_reducible apply ite_kept | split | lift_lets

theorem rateGoRx_kept {rr : Bool} {s0 s : State} (n : Nat) (c : Ladder) (hk : Kept rr s0 s) : Kept rr s0 (rateGoRx n c s) := by
  delta rateGoRx
  repeat' first | with_reducible assumption | (intro x; refine (fun _ => ?_ : Kept rr s0 x → _) ?_; rotate_left; unfold x) | (intro x; refine (fun _ => ?_ : Kept rr s0 x.2 → _) ?_; rotate_left; unfold x) | (intro x; clear_value x) | intro x | with_reducible apply wr_kept | with_reducible apply goL2_kept | with_reducible apply ite_kept | split

theorem l1Timeout_kept {rr : Bool} {s0 s : State} (n : Nat) (hk : Kept rr s0 s) : Kept rr s0 (l1Timeout n s) := by
  delta l1Timeout
  repeat' first | with_reducible assumption | (intro x; refine (fun _ => ?_ : Kept rr s0 x → _) ?_; rotate_left; unfold x) | (intro x; refine (fun _ => ?_ : Kept rr s0 x.2 → _) ?_; rotate_left; unfold x) | (intro x; clear_value x) | intro x | with_reducible apply wr_kept | with_reducible apply backoffL0_kept | with_reducible apply advTo_kept | with_reducible apply bump_kept | with_reducible apply ite_kept | split | lift_lets

theorem tryL3_kept {rr : Bool} {s0 s : State} (n : Nat) (hk : Kept rr s0 s) : Kept rr s0 (tryL3 n s) := by
  delta tryL3
  repeat' first | with_reducible assumption | (intro x; refine (fun _ => ?_ : Kept rr s0 x → _) ?_; rotate_left; unfold x) | (intro x; refine (fun _ => ?_ : Kept rr s0 x.2 → _) ?_; rotate_left; unfold x) | (intro x; clear_value x) | intro x | with_reducible apply wr_kept | with_reducible apply goStage_kept | with_reducible apply updLane_kept | with_reducible apply ite_kept | split | lift_lets

theorem rxLock_kept {rr : Bool} {s0 s : State} (n : Nat) (hk : Kept rr s0 s) : Kept rr s0 (rxLock n s) := by
  delta rxLock
  repeat' first | with_reducible assumption | (intro x; refine (fun _ => ?_ : Kept rr s0 x → _) ?_; rotate_left; unfold x) | (intro x; refine (fun _ => ?_ : Kept rr s0 x.2 → _) ?_; rotate_left; unfold x) | (intro x; clear_value x) | intro x | with_reducible apply wr_kept | with_reducible apply tryL3_kept | with_reducible apply sendLadder_kept | with_reducible apply updLane_kept | with_reducible apply wrBit_kept | with_reducible apply ite_kept | split | lift_lets

theorem lockedSend_kept {rr : Bool} {s0 s : State} (n : Nat) (hk : Kept rr s0 s) : Kept rr s0 (lockedSend n s) := by
  delta lockedSend
  repeat' first | with_reducible assumption | (intro x; refine (fun _ => ?_ : Kept rr s0 x → _) ?_; rotate_left; unfold x) | (intro x; refine (fun _ => ?_ : Kept rr s0 x.2 → _) ?_; rotate_left; unfold x) | (intro x; clear_value x) | intro x | with_reducible apply wr_kept | with_reducible apply sendLadder_kept | with_reducible apply ite_kept | split

theorem lockedRx_kept {rr : Bool} {s0 s : State} (n : Nat) (hk : Kept rr s0 s) : Kept rr s0 (lockedRx n s) := by
  delta lockedRx
  repeat' first | with_reducible assumption | (intro x; refine (fun _ => ?_ : Kept rr s0 x → _) ?_; rotate_left; unfold x) | (intro x; refine (fun _ => ?_ : Kept rr s0 x.2 → _) ?_; rotate_left; unfold x) | (intro x; clear_value x) | intro x | with_reducible apply wr_kept | with_reducible apply tryL3_kept | with_reducible apply updLane_kept | with_reducible apply ite_kept | split

theorem l2Timeout_kept {rr : Bool} {s0 s : State} (n : Nat) (hk : Kept rr s0 s) : Kept rr s0 (l2Timeout n s) := by
  delta l2Timeout
  repeat' first | with_reducible assumption | (intro x; refine (fun _ => ?_ : Kept rr s0 x → _) ?_; rotate_left; unfold x) | (intro x; refine (fun _ => ?_ : Kept rr s0 x.2 → _) ?_; rotate_left; unfold x) | (intro x; clear_value x) | intro x | with_reducible apply wr_kept | with_reducible apply trainFail_kept | with_reducible apply advTo_kept | with_reducible apply ite_kept | split

theorem prbsEnd_kept {rr : Bool} {s0 s : State} (n errors : Nat) (hk : Kept rr s0 s) : Kept rr s0 (prbsEnd n errors s) := by
  delta prbsEnd
  repeat' first | with_reducible assumption | (intro x; refine (fun _ => ?_ : Kept rr s0 x → _) ?_; rotate_left; unfold x) | (intro x; refine (fun _ => ?_ : Kept rr s0 x.2 → _) ?_; rotate_left; unfold x) | (intro x; clear_value x) | intro x | with_reducible apply wr_kept | with_reducible apply evalL3_kept | with_reducible apply sendLadder_kept | with_reducible apply updLane_kept | with_reducible apply advTo_kept | with_reducible apply ite_kept | split | lift_lets

theorem resultRx_kept {rr : Bool} {s0 s : State} (n : Nat) (c : Ladder) (hk : Kept rr s0 s) : Kept rr s0 (resultRx n c s) := by
  delta resultRx
  repeat' first | with_reducible assumption | (intro x; refine (fun _ => ?_ : Kept rr s0 x → _) ?_; rotate_left; unfold x) | (intro x; refine (fun _ => ?_ : Kept rr s0 x.2 → _) ?_; rotate_left; unfold x) | (intro x; clear_value x) | intro x | with_reducible apply wr_kept | with_reducible apply evalL3_kept | with_reducible apply updLane_kept | with_reducible apply ite_kept | split

theorem l3NoResult_kept {rr : Bool} {s0 s : State} (n : Nat) (hk : Kept rr s0 s) : Kept rr s0 (l3NoResult n s) := by
  delta l3NoResult
  repeat' first | with_reducible assumption | (intro x; refine (fun _ => ?_ : Kept rr s0 x → _) ?_; rotate_left; unfold x) | (intro x; refine (fun _ => ?_ : Kept rr s0 x.2 → _) ?_; rotate_left; unfold x) | (intro x; clear_value x) | intro x | with_reducible apply wr_kept | with_reducible apply trainFail_kept | with_reducible apply advTo_kept | with_reducible apply ite_kept | split | lift_lets

theorem laneTimeLock_kept {rr : Bool} {s0 s : State} (n : Nat) (hk : Kept rr s0 s) : Kept rr s0 (laneTimeLock n s) := by
  delta laneTimeLock
  repeat' first | with_reducible assumption | (intro x; refine (fun _ => ?_ : Kept rr s0 x → _) ?_; rotate_left; unfold x) | (intro x; refine (fun _ => ?_ : Kept rr s0 x.2 → _) ?_; rotate_left; unfold x) | (intro x; clear_value x) | intro x | with_reducible apply wr_kept | with_reducible apply enterL5_kept | with_reducible apply ite_kept | split

theorem l4Timeout_kept {rr : Bool} {s0 s : State} (n : Nat) (hk : Kept rr s0 s) : Kept rr s0 (l4Timeout n s) := by
  delta l4Timeout
  repeat' first | with_reducible assumption | (intro x; refine (fun _ => ?_ : Kept rr s0 x → _) ?_; rotate_left; unfold x) | (intro x; refine (fun _ => ?_ : Kept rr s0 x.2 → _) ?_; rotate_left; unfold x) | (intro x; clear_value x) | intro x | with_reducible apply wr_kept | with_reducible apply backoffL0_kept | with_reducible apply advTo_kept | with_reducible apply bump_kept | with_reducible apply ite_kept | split | lift_lets

theorem retrainRx_kept {rr : Bool} {s0 s : State} (n : Nat) (c : Ladder) (hk : Kept rr s0 s) : Kept rr s0 (retrainRx n c s) := by
  delta retrainRx
  repeat' first | with_reducible assumption | (intro x; refine (fun _ => ?_ : Kept rr s0 x → _) ?_; rotate_left; unfold x) | (intro x; refine (fun _ => ?_ : Kept rr s0 x.2 → _) ?_; rotate_left; unfold x) | (intro x; clear_value x) | intro x | with_reducible apply wr_kept | with_reducible apply retrain_kept | with_reducible apply toL1_kept | with_reducible apply ite_kept | split | lift_lets

theorem writeLnkCmd_kept {rr : Bool} {s0 s : State} (n v : Nat) (hk : Kept rr s0 s) : Kept rr s0 (writeLnkCmd n v s).2 := by
  delta writeLnkCmd
  repeat' first | with_reducible assumption | (intro x; refine (fun _ => ?_ : Kept rr s0 x → _) ?_; rotate_left; unfold x) | (intro x; refine (fun _ => ?_ : Kept rr s0 x.2 → _) ?_; rotate_left; unfold x) | (intro x; clear_value x) | intro x | with_reducible apply wr_kept | with_reducible apply retrain_kept | with_reducible apply done_kept | with_reducible apply writeBy_kept | with_reducible apply clearAll_kept | with_reducible apply ite_kept | with_reducible apply ite2_kept | split

theorem leaveFar_kept {rr : Bool} {s0 s : State} (n : Nat) (hk : Kept rr s0 s) : Kept rr s0 (leaveFar n s) := by
  delta leaveFar
  repeat' first | with_reducible assumption | (intro x; refine (fun _ => ?_ : Kept rr s0 x → _) ?_; rotate_left; unfold x) | (intro x; refine (fun _ => ?_ : Kept rr s0 x.2 → _) ?_; rotate_left; unfold x) | (intro x; clear_value x) | intro x | with_reducible apply wr_kept | with_reducible apply toL0_kept | with_reducible apply updLane_kept | with_reducible apply ite_kept | split

theorem laneLos_kept {rr : Bool} {s0 s : State} (n : Nat) (hk : Kept rr s0 s) : Kept rr s0 (laneLos n s) := by
  delta laneLos
  repeat' first | with_reducible assumption | (intro x; refine (fun _ => ?_ : Kept rr s0 x → _) ?_; rotate_left; unfold x) | (intro x; refine (fun _ => ?_ : Kept rr s0 x.2 → _) ?_; rotate_left; unfold x) | (intro x; clear_value x) | intro x | with_reducible apply wr_kept | with_reducible apply lineLost_kept | with_reducible apply updLane_kept | with_reducible apply wrBit_kept | with_reducible apply bump_kept | with_reducible apply ite_kept | split | lift_lets

theorem laneLosClear_kept {rr : Bool} {s0 s : State} (n : Nat) (hk : Kept rr s0 s) : Kept rr s0 (laneLosClear n s) := by
  delta laneLosClear
  repeat' first | with_reducible assumption | (intro x; refine (fun _ => ?_ : Kept rr s0 x → _) ?_; rotate_left; unfold x) | (intro x; refine (fun _ => ?_ : Kept rr s0 x.2 → _) ?_; rotate_left; unfold x) | (intro x; clear_value x) | intro x | with_reducible apply wr_kept | with_reducible apply laneDue_kept | with_reducible apply inLock_kept | with_reducible apply updLane_kept | with_reducible apply wrBit_kept | with_reducible apply ite_kept | split

theorem laneLol_kept {rr : Bool} {s0 s : State} (n : Nat) (hk : Kept rr s0 s) : Kept rr s0 (laneLol n s) := by
  delta laneLol
  repeat' first | with_reducible assumption | (intro x; refine (fun _ => ?_ : Kept rr s0 x → _) ?_; rotate_left; unfold x) | (intro x; refine (fun _ => ?_ : Kept rr s0 x.2 → _) ?_; rotate_left; unfold x) | (intro x; clear_value x) | intro x | with_reducible apply wr_kept | with_reducible apply leaveFar_kept | with_reducible apply lineLost_kept | with_reducible apply wrBit_kept | with_reducible apply bump_kept | with_reducible apply ite_kept | split

theorem laneHiber_kept {rr : Bool} {s0 s : State} (n : Nat) (hk : Kept rr s0 s) : Kept rr s0 (laneHiber n s) := by
  delta laneHiber
  repeat' first | with_reducible assumption | (intro x; refine (fun _ => ?_ : Kept rr s0 x → _) ?_; rotate_left; unfold x) | (intro x; refine (fun _ => ?_ : Kept rr s0 x.2 → _) ?_; rotate_left; unfold x) | (intro x; clear_value x) | intro x | with_reducible apply wr_kept | with_reducible apply lineLost_kept | with_reducible apply updLane_kept | with_reducible apply bump_kept | with_reducible apply bumpN_kept | with_reducible apply ite_kept | split | lift_lets

theorem backoffEnd_kept {rr : Bool} {s0 s : State} (n : Nat) (hk : Kept rr s0 s) : Kept rr s0 (backoffEnd n s) := by
  delta backoffEnd
  repeat' first | with_reducible assumption | (intro x; refine (fun _ => ?_ : Kept rr s0 x → _) ?_; rotate_left; unfold x) | (intro x; refine (fun _ => ?_ : Kept rr s0 x.2 → _) ?_; rotate_left; unfold x) | (intro x; clear_value x) | intro x | with_reducible apply wr_kept | with_reducible apply updLane_kept | with_reducible apply advTo_kept | with_reducible apply wrBit_kept | with_reducible apply ite_kept | split | lift_lets

theorem l5Stable_kept {rr : Bool} {s0 s : State} (n : Nat) (hk : Kept rr s0 s) : Kept rr s0 (l5Stable n s) := by
  delta l5Stable
  repeat' first | with_reducible assumption | (intro x; refine (fun _ => ?_ : Kept rr s0 x → _) ?_; rotate_left; unfold x) | (intro x; refine (fun _ => ?_ : Kept rr s0 x.2 → _) ?_; rotate_left; unfold x) | (intro x; clear_value x) | intro x | with_reducible apply wr_kept | with_reducible apply updLane_kept | with_reducible apply advTo_kept | with_reducible apply ite_kept | split

theorem nearLoop_kept {rr : Bool} {s0 s : State} (v n : Nat) (hk : Kept rr s0 s) : Kept rr s0 (nearLoop v n s) := by
  delta nearLoop
  repeat' first | with_reducible assumption | (intro x; refine (fun _ => ?_ : Kept rr s0 x → _) ?_; rotate_left; unfold x) | (intro x; refine (fun _ => ?_ : Kept rr s0 x.2 → _) ?_; rotate_left; unfold x) | (intro x; clear_value x) | intro x | with_reducible apply wr_kept | with_reducible apply loopCount_kept | with_reducible apply toLoop_kept | with_reducible apply dropQueues_kept | with_reducible apply updLane_kept | lift_lets

theorem writeLnkLoop_kept {rr : Bool} {s0 s : State} (n v : Nat) (hk : Kept rr s0 s) : Kept rr s0 (writeLnkLoop n v s).2 := by
  delta writeLnkLoop
  repeat' first | with_reducible assumption | (intro x; refine (fun _ => ?_ : Kept rr s0 x → _) ?_; rotate_left; unfold x) | (intro x; refine (fun _ => ?_ : Kept rr s0 x.2 → _) ?_; rotate_left; unfold x) | (intro x; clear_value x) | intro x | with_reducible apply wr_kept | with_reducible apply nearLoop_kept | with_reducible apply loopCount_kept | with_reducible apply sendLadder_kept | with_reducible apply toL0_kept | with_reducible apply done_kept | with_reducible apply writeBy_kept | with_reducible apply wrBit_kept | with_reducible apply ite_kept | with_reducible apply ite2_kept | split | lift_lets

theorem loopReqRx_kept {rr : Bool} {s0 s : State} (n : Nat) (hk : Kept rr s0 s) : Kept rr s0 (loopReqRx n s) := by
  delta loopReqRx
  repeat' first | with_reducible assumption | (intro x; refine (fun _ => ?_ : Kept rr s0 x → _) ?_; rotate_left; unfold x) | (intro x; refine (fun _ => ?_ : Kept rr s0 x.2 → _) ?_; rotate_left; unfold x) | (intro x; clear_value x) | intro x | with_reducible apply wr_kept | with_reducible apply sendLadder_kept | with_reducible apply ite_kept | split

theorem loopAckRx_kept {rr : Bool} {s0 s : State} (n : Nat) (hk : Kept rr s0 s) : Kept rr s0 (loopAckRx n s) := by
  delta loopAckRx
  repeat' first | with_reducible assumption | (intro x; refine (fun _ => ?_ : Kept rr s0 x → _) ?_; rotate_left; unfold x) | (intro x; refine (fun _ => ?_ : Kept rr s0 x.2 → _) ?_; rotate_left; unfold x) | (intro x; clear_value x) | intro x | with_reducible apply wr_kept | with_reducible apply toLoop_kept | with_reducible apply updLane_kept | with_reducible apply ite_kept | split

theorem loopNakRx_kept {rr : Bool} {s0 s : State} (n : Nat) (hk : Kept rr s0 s) : Kept rr s0 (loopNakRx n s) := by
  delta loopNakRx
  repeat' first | with_reducible assumption | (intro x; refine (fun _ => ?_ : Kept rr s0 x → _) ?_; rotate_left; unfold x) | (intro x; refine (fun _ => ?_ : Kept rr s0 x.2 → _) ?_; rotate_left; unfold x) | (intro x; clear_value x) | intro x | with_reducible apply wr_kept | with_reducible apply wrBit_kept | with_reducible apply ite_kept | split

theorem linkStateRx_kept {rr : Bool} {s0 s : State} (n hops behind : Nat) (hk : Kept rr s0 s) : Kept rr s0 (linkStateRx n hops behind s) := by
  delta linkStateRx
  repeat' first | with_reducible assumption | (intro x; refine (fun _ => ?_ : Kept rr s0 x → _) ?_; rotate_left; unfold x) | (intro x; refine (fun _ => ?_ : Kept rr s0 x.2 → _) ?_; rotate_left; unfold x) | (intro x; clear_value x) | intro x | with_reducible apply wr_kept | with_reducible apply takeLinkState_kept | with_reducible apply ite_kept | split

theorem linkStateSend_kept {rr : Bool} {s0 s : State} (n : Nat) (hk : Kept rr s0 s) : Kept rr s0 (linkStateSend n s) := by
  delta linkStateSend
  repeat' first | with_reducible assumption | (intro x; refine (fun _ => ?_ : Kept rr s0 x → _) ?_; rotate_left; unfold x) | (intro x; refine (fun _ => ?_ : Kept rr s0 x.2 → _) ?_; rotate_left; unfold x) | (intro x; clear_value x) | intro x | with_reducible apply wr_kept | with_reducible apply sayLinkState_kept | with_reducible apply ite_kept | split

theorem linkStateTimeout_kept {rr : Bool} {s0 s : State} (n : Nat) (hk : Kept rr s0 s) : Kept rr s0 (linkStateTimeout n s) := by
  delta linkStateTimeout
  repeat' first | with_reducible assumption | (intro x; refine (fun _ => ?_ : Kept rr s0 x → _) ?_; rotate_left; unfold x) | (intro x; refine (fun _ => ?_ : Kept rr s0 x.2 → _) ?_; rotate_left; unfold x) | (intro x; clear_value x) | intro x | with_reducible apply wr_kept | with_reducible apply lsChange_kept | with_reducible apply updPiste_kept | with_reducible apply updLane_kept | with_reducible apply advTo_kept | with_reducible apply ite_kept | split | lift_lets

theorem pisteWhole_kept {rr : Bool} {s0 s : State} (k : Nat) (hk : Kept rr s0 s) : Kept rr s0 (pisteWhole k s) := by
  delta pisteWhole
  repeat' first | with_reducible assumption | (intro x; refine (fun _ => ?_ : Kept rr s0 x → _) ?_; rotate_left; unfold x) | (intro x; refine (fun _ => ?_ : Kept rr s0 x.2 → _) ?_; rotate_left; unfold x) | (intro x; clear_value x) | intro x | with_reducible apply wr_kept | with_reducible apply updSplit_kept | with_reducible apply advTo_kept | with_reducible apply ite_kept | split | lift_lets

theorem schussTake_kept {rr : Bool} {s0 s : State} (n key : Nat) (hk : Kept rr s0 s) : Kept rr s0 (schussTake n key s) := by
  delta schussTake
  repeat' first | with_reducible assumption | (intro x; refine (fun _ => ?_ : Kept rr s0 x → _) ?_; rotate_left; unfold x) | (intro x; refine (fun _ => ?_ : Kept rr s0 x.2 → _) ?_; rotate_left; unfold x) | (intro x; clear_value x) | intro x | with_reducible apply wr_kept | with_reducible apply cellSchuss_kept | with_reducible apply nodeSchuss_kept | with_reducible apply pulse_kept | with_reducible apply sendSchuss_kept | with_reducible apply updSaf_kept | with_reducible apply bump_kept | with_reducible apply ite_kept | split | lift_lets

theorem schussSyms_kept {rr : Bool} {s0 s : State} (n : Nat) (l : List (Option (List Nat))) (hk : Kept rr s0 s) : Kept rr s0 (schussSyms n l s) := by
  delta schussSyms
  repeat' first | with_reducible assumption | (intro x; refine (fun _ => ?_ : Kept rr s0 x → _) ?_; rotate_left; unfold x) | (intro x; refine (fun _ => ?_ : Kept rr s0 x.2 → _) ?_; rotate_left; unfold x) | (intro x; clear_value x) | intro x | with_reducible apply wr_kept | with_reducible apply schussTake_kept | with_reducible apply each_kept | with_reducible apply bumpN_kept | with_reducible apply ite_kept | split | lift_lets

theorem schussRepeat_kept {rr : Bool} {s0 s : State} (hk : Kept rr s0 s) : Kept rr s0 (schussRepeat s) := by
  delta schussRepeat
  repeat' first | with_reducible assumption | (intro x; refine (fun _ => ?_ : Kept rr s0 x → _) ?_; rotate_left; unfold x) | (intro x; refine (fun _ => ?_ : Kept rr s0 x.2 → _) ?_; rotate_left; unfold x) | (intro x; clear_value x) | intro x | with_reducible apply wr_kept | with_reducible apply sendSchuss_kept | with_reducible apply updSaf_kept | with_reducible apply advTo_kept | with_reducible apply ite_kept | split | lift_lets

theorem codeErr_kept {rr : Bool} {s0 s : State} (n : Nat) (hk : Kept rr s0 s) : Kept rr s0 (codeErr n s) := by
  delta codeErr
  repeat' first | with_reducible assumption | (intro x; refine (fun _ => ?_ : Kept rr s0 x → _) ?_; rotate_left; unfold x) | (intro x; refine (fun _ => ?_ : Kept rr s0 x.2 → _) ?_; rotate_left; unfold x) | (intro x; clear_value x) | intro x | with_reducible apply wr_kept | with_reducible apply lineLost_kept | with_reducible apply updLane_kept | with_reducible apply bump_kept | with_reducible apply ite_kept | split | lift_lets

theorem ladderEnd_kept {rr : Bool} {s0 s : State} (n : Nat) (b : List Nat) (hk : Kept rr s0 s) : Kept rr s0 (ladderEnd n b s) := by
  delta ladderEnd
  repeat' first | with_reducible assumption | (intro x; refine (fun _ => ?_ : Kept rr s0 x → _) ?_; rotate_left; unfold x) | (intro x; refine (fun _ => ?_ : Kept rr s0 x.2 → _) ?_; rotate_left; unfold x) | (intro x; clear_value x) | intro x | with_reducible apply wr_kept | with_reducible apply loopNakRx_kept | with_reducible apply loopAckRx_kept | with_reducible apply loopReqRx_kept | with_reducible apply retrainRx_kept | with_reducible apply resultRx_kept | with_reducible apply lockedRx_kept | with_reducible apply rateGoRx_kept | with_reducible apply capRx_kept | with_reducible apply onLadder_kept | split

theorem rxEnd_kept {rr : Bool} {s0 s : State} (n : Nat) (bad : Bool) (hk : Kept rr s0 s) : Kept rr s0 (rxEnd n bad s) := by
  delta rxEnd
  repeat' first | with_reducible assumption | (intro x; refine (fun _ => ?_ : Kept rr s0 x → _) ?_; rotate_left; unfold x) | (intro x; refine (fun _ => ?_ : Kept rr s0 x.2 → _) ?_; rotate_left; unfold x) | (intro x; clear_value x) | intro x | with_reducible apply wr_kept | with_reducible apply ladderEnd_kept | with_reducible apply frameEnd_kept | with_reducible apply updLane_kept | with_reducible apply bump_kept | with_reducible apply ite_kept | split | lift_lets

theorem rxResume_kept {rr : Bool} {s0 s : State} (n c : Nat) (hk : Kept rr s0 s) : Kept rr s0 (rxResume n c s) := by
  delta rxResume
  repeat' first | with_reducible assumption | (intro x; refine (fun _ => ?_ : Kept rr s0 x → _) ?_; rotate_left; unfold x) | (intro x; refine (fun _ => ?_ : Kept rr s0 x.2 → _) ?_; rotate_left; unfold x) | (intro x; clear_value x) | intro x | with_reducible apply wr_kept | with_reducible apply discardRx_kept | with_reducible apply updLane_kept | with_reducible apply each_kept | with_reducible apply ite_kept | split | lift_lets

theorem rxSym_kept {rr : Bool} {s0 s : State} (n : Nat) (y : Sym) (hk : Kept rr s0 s) : Kept rr s0 (rxSym n y s) := by
  delta rxSym
  repeat' first | with_reducible assumption | (intro x; refine (fun _ => ?_ : Kept rr s0 x → _) ?_; rotate_left; unfold x) | (intro x; refine (fun _ => ?_ : Kept rr s0 x.2 → _) ?_; rotate_left; unfold x) | (intro x; clear_value x) | intro x | with_reducible apply wr_kept | with_reducible apply rxResume_kept | with_reducible apply rxEnd_kept | with_reducible apply codeErr_kept | with_reducible apply linkStateRx_kept | with_reducible apply presenceRx_kept | with_reducible apply updLane_kept | with_reducible apply ite_kept | split

theorem lineRx_kept {rr : Bool} {s0 s : State} (n prev : Nat) (line : List Nat) (hk : Kept rr s0 s) : Kept rr s0 (lineRx n prev line s) := by
  delta lineRx
  repeat' first | with_reducible assumption | (intro x; refine (fun _ => ?_ : Kept rr s0 x → _) ?_; rotate_left; unfold x) | (intro x; refine (fun _ => ?_ : Kept rr s0 x.2 → _) ?_; rotate_left; unfold x) | (intro x; clear_value x) | intro x | with_reducible apply wr_kept | with_reducible apply rxSym_kept | with_reducible apply schussSyms_kept | with_reducible apply each_kept | with_reducible apply ite_kept | split | lift_lets

theorem frameTxEnd_kept {rr : Bool} {s0 s : State} (n : Nat) (hk : Kept rr s0 s) : Kept rr s0 (frameTxEnd n s) := by
  delta frameTxEnd
  repeat' first | with_reducible assumption | (intro x; refine (fun _ => ?_ : Kept rr s0 x → _) ?_; rotate_left; unfold x) | (intro x; refine (fun _ => ?_ : Kept rr s0 x.2 → _) ?_; rotate_left; unfold x) | (intro x; clear_value x) | intro x | with_reducible apply wr_kept | with_reducible apply said_kept | with_reducible apply startTx_kept | with_reducible apply updLane_kept | with_reducible apply takeFree_kept | with_reducible apply each_kept | with_reducible apply bump_kept | with_reducible apply ite_kept | with_reducible apply ite2_kept | split | lift_lets

theorem suspendTimeout_kept {rr : Bool} {s0 s : State} (n : Nat) (hk : Kept rr s0 s) : Kept rr s0 (suspendTimeout n s) := by
  delta suspendTimeout
  repeat' first | with_reducible assumption | (intro x; refine (fun _ => ?_ : Kept rr s0 x → _) ?_; rotate_left; unfold x) | (intro x; refine (fun _ => ?_ : Kept rr s0 x.2 → _) ?_; rotate_left; unfold x) | (intro x; clear_value x) | intro x | with_reducible apply wr_kept | with_reducible apply discardRx_kept | with_reducible apply updLane_kept | with_reducible apply advTo_kept | split

end Sys2Proof.Machine
end

