-- ==== Sys2Proof/Laws/KTim.lean ====
section
/-! SUPPORT. What the operations of Machine/Tim.lean keep. -/
set_option linter.all false
namespace Sys2Proof.Machine

theorem pdelayReqSend_kept {rr : Bool} {s0 s : State} (n : Nat) (hk : Kept rr s0 s) : Kept rr s0 (pdelayReqSend n s) := by
  delta pdelayReqSend
  repeat' first | with_reducible assumption | (intro x; refine (fun _ => ?_ : Kept rr s0 x → _) ?_; rotate_left; unfold x) | (intro x; refine (fun _ => ?_ : Kept rr s0 x.2 → _) ?_; rotate_left; unfold x) | (intro x; clear_value x) | intro x | with_reducible apply wr_kept | with_reducible apply sendPartner_kept | with_reducible apply ite_kept | split

theorem pdelayReqRx_kept {rr : Bool} {s0 s : State} (n seq frac turn : Nat) (hk : Kept rr s0 s) : Kept rr s0 (pdelayReqRx n seq frac turn s) := by
  delta pdelayReqRx
  repeat' first | with_reducible assumption | (intro x; refine (fun _ => ?_ : Kept rr s0 x → _) ?_; rotate_left; unfold x) | (intro x; refine (fun _ => ?_ : Kept rr s0 x.2 → _) ?_; rotate_left; unfold x) | (intro x; clear_value x) | intro x | with_reducible apply wr_kept | with_reducible apply sendPartner_kept | with_reducible apply ite_kept | split

theorem pdelayRespRx_kept {rr : Bool} {s0 s : State} (n frac : Nat) (p : PdResp) (hk : Kept rr s0 s) : Kept rr s0 (pdelayRespRx n frac p s) := by
  delta pdelayRespRx
  repeat' first | with_reducible assumption | (intro x; refine (fun _ => ?_ : Kept rr s0 x → _) ?_; rotate_left; unfold x) | (intro x; refine (fun _ => ?_ : Kept rr s0 x.2 → _) ?_; rotate_left; unfold x) | (intro x; clear_value x) | intro x | with_reducible apply wr_kept | with_reducible apply pdDone_kept | with_reducible apply ite_kept | split | lift_lets

theorem refHoldoverEnd_kept {rr : Bool} {s0 s : State} (hk : Kept rr s0 s) : Kept rr s0 (refHoldoverEnd s) := by
  delta refHoldoverEnd
  repeat' first | with_reducible assumption | (intro x; refine (fun _ => ?_ : Kept rr s0 x → _) ?_; rotate_left; unfold x) | (intro x; refine (fun _ => ?_ : Kept rr s0 x.2 → _) ?_; rotate_left; unfold x) | (intro x; clear_value x) | intro x | with_reducible apply wr_kept | with_reducible apply refEval_kept | with_reducible apply updTim_kept | with_reducible apply advTo_kept | with_reducible apply wrBit_kept | with_reducible apply ite_kept | split | lift_lets

theorem stationRx_kept {rr : Bool} {s0 s : State} (m : Station) (hk : Kept rr s0 s) : Kept rr s0 (stationRx m s) := by
  delta stationRx
  repeat' first | with_reducible assumption | (intro x; refine (fun _ => ?_ : Kept rr s0 x → _) ?_; rotate_left; unfold x) | (intro x; refine (fun _ => ?_ : Kept rr s0 x.2 → _) ?_; rotate_left; unfold x) | (intro x; clear_value x) | intro x | with_reducible apply wr_kept | with_reducible apply updTim_kept | with_reducible apply ite_kept | split | lift_lets

theorem stationStale_kept {rr : Bool} {s0 s : State} (hk : Kept rr s0 s) : Kept rr s0 (stationStale s) := by
  delta stationStale
  repeat' first | with_reducible assumption | (intro x; refine (fun _ => ?_ : Kept rr s0 x → _) ?_; rotate_left; unfold x) | (intro x; refine (fun _ => ?_ : Kept rr s0 x.2 → _) ?_; rotate_left; unfold x) | (intro x; clear_value x) | intro x | with_reducible apply wr_kept | with_reducible apply advTo_kept | with_reducible apply wrBit_kept | with_reducible apply ite_kept | split

theorem writeTimAsym_kept {rr : Bool} {s0 s : State} (n v : Nat) (hk : Kept rr s0 s) : Kept rr s0 (writeTimAsym n v s).2 := by
  delta writeTimAsym
  repeat' first | with_reducible assumption | (intro x; refine (fun _ => ?_ : Kept rr s0 x → _) ?_; rotate_left; unfold x) | (intro x; refine (fun _ => ?_ : Kept rr s0 x.2 → _) ?_; rotate_left; unfold x) | (intro x; clear_value x) | intro x | with_reducible apply wr_kept | with_reducible apply laneReport_kept | with_reducible apply lagRecompute_kept | with_reducible apply done_kept | with_reducible apply writeBy_kept | with_reducible apply ite_kept | with_reducible apply ite2_kept | split | lift_lets

theorem writeTimPeriod_kept {rr : Bool} {s0 s : State} (v : Nat) (hk : Kept rr s0 s) : Kept rr s0 (writeTimPeriod v s).2 := by
  delta writeTimPeriod
  repeat' first | with_reducible assumption | (intro x; refine (fun _ => ?_ : Kept rr s0 x → _) ?_; rotate_left; unfold x) | (intro x; refine (fun _ => ?_ : Kept rr s0 x.2 → _) ?_; rotate_left; unfold x) | (intro x; clear_value x) | intro x | with_reducible apply wr_kept | with_reducible apply lagRecompute_kept | with_reducible apply done_kept | with_reducible apply writeBy_kept | with_reducible apply buildSet_kept | with_reducible apply ite_kept | with_reducible apply ite2_kept | split

theorem writeTimApplyLag_kept {rr : Bool} {s0 s : State} (v : Nat) (hk : Kept rr s0 s) : Kept rr s0 (writeTimApplyLag v s).2 := by
  delta writeTimApplyLag
  repeat' first | with_reducible assumption | (intro x; refine (fun _ => ?_ : Kept rr s0 x → _) ?_; rotate_left; unfold x) | (intro x; refine (fun _ => ?_ : Kept rr s0 x.2 → _) ?_; rotate_left; unfold x) | (intro x; clear_value x) | intro x | with_reducible apply wr_kept | with_reducible apply lagRecompute_kept | with_reducible apply done_kept | with_reducible apply writeBy_kept | with_reducible apply buildSet_kept | with_reducible apply ite_kept | with_reducible apply ite2_kept | split

theorem writeTimCmdGuard_kept {rr : Bool} {s0 s : State} (v : Nat) (hk : Kept rr s0 s) : Kept rr s0 (writeTimCmdGuard v s).2 := by
  delta writeTimCmdGuard
  repeat' first | with_reducible assumption | (intro x; refine (fun _ => ?_ : Kept rr s0 x → _) ?_; rotate_left; unfold x) | (intro x; refine (fun _ => ?_ : Kept rr s0 x.2 → _) ?_; rotate_left; unfold x) | (intro x; clear_value x) | intro x | with_reducible apply wr_kept | with_reducible apply lagRecompute_kept | with_reducible apply done_kept | with_reducible apply writeBy_kept | with_reducible apply buildSet_kept

theorem writeTimLawStart_kept {rr : Bool} {s0 s : State} (v : Nat) (hk : Kept rr s0 s) : Kept rr s0 (writeTimLawStart v s).2 := by
  delta writeTimLawStart
  repeat' first | with_reducible assumption | (intro x; refine (fun _ => ?_ : Kept rr s0 x → _) ?_; rotate_left; unfold x) | (intro x; refine (fun _ => ?_ : Kept rr s0 x.2 → _) ?_; rotate_left; unfold x) | (intro x; clear_value x) | intro x | with_reducible apply wr_kept | with_reducible apply lagRecompute_kept | with_reducible apply done_kept | with_reducible apply writeBy_kept | with_reducible apply buildSet_kept | with_reducible apply ite_kept | with_reducible apply ite2_kept | split | lift_lets

theorem writeSlalomSeed_kept {rr : Bool} {s0 s : State} (v : Nat) (hk : Kept rr s0 s) : Kept rr s0 (writeSlalomSeed v s).2 := by
  delta writeSlalomSeed
  repeat' first | with_reducible assumption | (intro x; refine (fun _ => ?_ : Kept rr s0 x → _) ?_; rotate_left; unfold x) | (intro x; refine (fun _ => ?_ : Kept rr s0 x.2 → _) ?_; rotate_left; unfold x) | (intro x; clear_value x) | intro x | with_reducible apply wr_kept | with_reducible apply done_kept | with_reducible apply writeBy_kept | with_reducible apply buildSet_kept | with_reducible apply updTim_kept | with_reducible apply ite_kept | with_reducible apply ite2_kept | split

end Sys2Proof.Machine
end

