-- ==== Sys2Proof/Laws/KPtp.lean ====
section
/-! SUPPORT. What the operations of Machine/Ptp.lean keep. -/
set_option linter.all false
namespace Sys2Proof.Machine

theorem updPtp_kept {rr : Bool} {s0 s : State} (port : Nat) (f : PtpPort → PtpPort) (hk : Kept rr s0 s) : Kept rr s0 (updPtp port f s) := by
  delta updPtp
  repeat' first | with_reducible assumption | (intro x; refine (fun _ => ?_ : Kept rr s0 x → _) ?_; rotate_left; unfold x) | (intro x; refine (fun _ => ?_ : Kept rr s0 x.2 → _) ?_; rotate_left; unfold x) | (intro x; clear_value x) | intro x | with_reducible apply wr_kept | with_reducible apply updTim_kept

theorem ptpSyncRx_kept {rr : Bool} {s0 s : State} (h : PtpHdr) (twoStep : Bool) (origin : Nat) (corr : Int) (hk : Kept rr s0 s) : Kept rr s0 (ptpSyncRx h twoStep origin corr s) := by
  delta ptpSyncRx
  repeat' first | with_reducible assumption | (intro x; refine (fun _ => ?_ : Kept rr s0 x → _) ?_; rotate_left; unfold x) | (intro x; refine (fun _ => ?_ : Kept rr s0 x.2 → _) ?_; rotate_left; unfold x) | (intro x; clear_value x) | intro x | with_reducible apply wr_kept | with_reducible apply updPtp_kept | with_reducible apply stSync_kept | with_reducible apply ite_kept | split | lift_lets

theorem ptpFollowUpRx_kept {rr : Bool} {s0 s : State} (h : PtpHdr) (origin : Nat) (corr : Int) (hk : Kept rr s0 s) : Kept rr s0 (ptpFollowUpRx h origin corr s) := by
  delta ptpFollowUpRx
  repeat' first | with_reducible assumption | (intro x; refine (fun _ => ?_ : Kept rr s0 x → _) ?_; rotate_left; unfold x) | (intro x; refine (fun _ => ?_ : Kept rr s0 x.2 → _) ?_; rotate_left; unfold x) | (intro x; clear_value x) | intro x | with_reducible apply wr_kept | with_reducible apply updPtp_kept | with_reducible apply stSync_kept | with_reducible apply ite_kept | split

theorem ptpAnnounceRx_kept {rr : Bool} {s0 s : State} (h : PtpHdr) (a : Announce) (hk : Kept rr s0 s) : Kept rr s0 (ptpAnnounceRx h a s) := by
  delta ptpAnnounceRx
  repeat' first | with_reducible assumption | (intro x; refine (fun _ => ?_ : Kept rr s0 x → _) ?_; rotate_left; unfold x) | (intro x; refine (fun _ => ?_ : Kept rr s0 x.2 → _) ?_; rotate_left; unfold x) | (intro x; clear_value x) | intro x | with_reducible apply wr_kept | with_reducible apply selectMaster_kept | with_reducible apply updTim_kept | with_reducible apply ite_kept | split | lift_lets

theorem ptpSend_kept {rr : Bool} {s0 s : State} (port : Nat) (l : Nat → List PtpMsg) (hk : Kept rr s0 s) : Kept rr s0 (ptpSend port l s) := by
  delta ptpSend
  repeat' first | with_reducible assumption | (intro x; refine (fun _ => ?_ : Kept rr s0 x → _) ?_; rotate_left; unfold x) | (intro x; refine (fun _ => ?_ : Kept rr s0 x.2 → _) ?_; rotate_left; unfold x) | (intro x; clear_value x) | intro x | with_reducible apply wr_kept | with_reducible apply updPtp_kept | with_reducible apply takeFree_kept | lift_lets

theorem ptpReqSend_kept {rr : Bool} {s0 s : State} (port : Nat) (hk : Kept rr s0 s) : Kept rr s0 (ptpReqSend port s) := by
  delta ptpReqSend
  repeat' first | with_reducible assumption | (intro x; refine (fun _ => ?_ : Kept rr s0 x → _) ?_; rotate_left; unfold x) | (intro x; refine (fun _ => ?_ : Kept rr s0 x.2 → _) ?_; rotate_left; unfold x) | (intro x; clear_value x) | intro x | with_reducible apply wr_kept | with_reducible apply updPtp_kept | with_reducible apply takeFree_kept | with_reducible apply ite_kept | with_reducible apply ite2_kept | split | lift_lets

theorem ptpReqRx_kept {rr : Bool} {s0 s : State} (h : PtpHdr) (hk : Kept rr s0 s) : Kept rr s0 (ptpReqRx h s) := by
  delta ptpReqRx
  repeat' first | with_reducible assumption | (intro x; refine (fun _ => ?_ : Kept rr s0 x → _) ?_; rotate_left; unfold x) | (intro x; refine (fun _ => ?_ : Kept rr s0 x.2 → _) ?_; rotate_left; unfold x) | (intro x; clear_value x) | intro x | with_reducible apply wr_kept | with_reducible apply ptpSend_kept | with_reducible apply ite_kept | split

theorem ptpRespRx_kept {rr : Bool} {s0 s : State} (h : PtpHdr) (t2 t3 : Nat) (corr : Int) (hk : Kept rr s0 s) : Kept rr s0 (ptpRespRx h t2 t3 corr s) := by
  delta ptpRespRx
  repeat' first | with_reducible assumption | (intro x; refine (fun _ => ?_ : Kept rr s0 x → _) ?_; rotate_left; unfold x) | (intro x; refine (fun _ => ?_ : Kept rr s0 x.2 → _) ?_; rotate_left; unfold x) | (intro x; clear_value x) | intro x | with_reducible apply wr_kept | with_reducible apply updPtp_kept | with_reducible apply ite_kept | split | lift_lets

theorem ptpTimeout_kept {rr : Bool} {s0 s : State} (hk : Kept rr s0 s) : Kept rr s0 (ptpTimeout s) := by
  delta ptpTimeout
  repeat' first | with_reducible assumption | (intro x; refine (fun _ => ?_ : Kept rr s0 x → _) ?_; rotate_left; unfold x) | (intro x; refine (fun _ => ?_ : Kept rr s0 x.2 → _) ?_; rotate_left; unfold x) | (intro x; clear_value x) | intro x | with_reducible apply wr_kept | with_reducible apply selectMaster_kept | with_reducible apply stGo_kept | with_reducible apply updTim_kept | with_reducible apply advTo_kept | with_reducible apply ite_kept | split | lift_lets

theorem stSlewEnd_kept {rr : Bool} {s0 s : State} (hk : Kept rr s0 s) : Kept rr s0 (stSlewEnd s) := by
  delta stSlewEnd
  repeat' first | with_reducible assumption | (intro x; refine (fun _ => ?_ : Kept rr s0 x → _) ?_; rotate_left; unfold x) | (intro x; refine (fun _ => ?_ : Kept rr s0 x.2 → _) ?_; rotate_left; unfold x) | (intro x; clear_value x) | intro x | with_reducible apply wr_kept | with_reducible apply stSetInc_kept | with_reducible apply stGo_kept | with_reducible apply updTim_kept | with_reducible apply advTo_kept | with_reducible apply ite_kept | split | lift_lets

theorem stHoldLimit_kept {rr : Bool} {s0 s : State} (hk : Kept rr s0 s) : Kept rr s0 (stHoldLimit s) := by
  delta stHoldLimit
  repeat' first | with_reducible assumption | (intro x; refine (fun _ => ?_ : Kept rr s0 x → _) ?_; rotate_left; unfold x) | (intro x; refine (fun _ => ?_ : Kept rr s0 x.2 → _) ?_; rotate_left; unfold x) | (intro x; clear_value x) | intro x | with_reducible apply wr_kept | with_reducible apply advTo_kept | with_reducible apply wrBit_kept | split | lift_lets

theorem syntonise_kept {rr : Bool} {s0 s : State} (hk : Kept rr s0 s) : Kept rr s0 (syntonise s) := by
  delta syntonise
  repeat' first | with_reducible assumption | (intro x; refine (fun _ => ?_ : Kept rr s0 x → _) ?_; rotate_left; unfold x) | (intro x; refine (fun _ => ?_ : Kept rr s0 x.2 → _) ?_; rotate_left; unfold x) | (intro x; clear_value x) | intro x | with_reducible apply wr_kept | with_reducible apply setScale_kept | with_reducible apply updSrv_kept | with_reducible apply updTim_kept | with_reducible apply ite_kept | split | lift_lets

theorem writeStCmd_kept {rr : Bool} {s0 s : State} (v : Nat) (hk : Kept rr s0 s) : Kept rr s0 (writeStCmd v s).2 := by
  delta writeStCmd
  repeat' first | with_reducible assumption | (intro x; refine (fun _ => ?_ : Kept rr s0 x → _) ?_; rotate_left; unfold x) | (intro x; refine (fun _ => ?_ : Kept rr s0 x.2 → _) ?_; rotate_left; unfold x) | (intro x; clear_value x) | intro x | with_reducible apply wr_kept | with_reducible apply stSlewEnd_kept | with_reducible apply stGo_kept | with_reducible apply done_kept | with_reducible apply writeBy_kept | with_reducible apply updTim_kept | split

theorem writeStAdjust_kept {rr : Bool} {s0 s : State} (v : Nat) (hk : Kept rr s0 s) : Kept rr s0 (writeStAdjust v s).2 := by
  delta writeStAdjust
  repeat' first | with_reducible assumption | (intro x; refine (fun _ => ?_ : Kept rr s0 x → _) ?_; rotate_left; unfold x) | (intro x; refine (fun _ => ?_ : Kept rr s0 x.2 → _) ?_; rotate_left; unfold x) | (intro x; clear_value x) | intro x | with_reducible apply wr_kept | with_reducible apply done_kept | with_reducible apply writeBy_kept | with_reducible apply updTim_kept

theorem writeStInc_kept {rr : Bool} {s0 s : State} (v : Nat) (hk : Kept rr s0 s) : Kept rr s0 (writeStInc v s).2 := by
  delta writeStInc
  repeat' first | with_reducible assumption | (intro x; refine (fun _ => ?_ : Kept rr s0 x → _) ?_; rotate_left; unfold x) | (intro x; refine (fun _ => ?_ : Kept rr s0 x.2 → _) ?_; rotate_left; unfold x) | (intro x; clear_value x) | intro x | with_reducible apply wr_kept | with_reducible apply stSetInc_kept | with_reducible apply done_kept | with_reducible apply writeBy_kept

end Sys2Proof.Machine
end

