-- ==== Sys2Proof/Laws/KTree.lean ====
section
/-! SUPPORT. What the operations of Machine/Tree.lean keep. -/
set_option linter.all false
namespace Sys2Proof.Machine

theorem writeArmDeblock_kept {rr : Bool} {s0 s : State} (v : Nat) (hk : Kept rr s0 s) : Kept rr s0 (writeArmDeblock v s).2 := by
  delta writeArmDeblock
  repeat' first | with_reducible assumption | (intro x; refine (fun _ => ?_ : Kept rr s0 x → _) ?_; rotate_left; unfold x) | (intro x; refine (fun _ => ?_ : Kept rr s0 x.2 → _) ?_; rotate_left; unfold x) | (intro x; clear_value x) | intro x | with_reducible apply wr_kept | with_reducible apply done_kept | with_reducible apply writeBy_kept | with_reducible apply buildSet_kept | with_reducible apply ite_kept | with_reducible apply ite2_kept | split | lift_lets

end Sys2Proof.Machine
end

