-- ==== Sys2Proof/Laws/KRed.lean ====
section
/-! SUPPORT. What the operations of Machine/Red.lean keep. -/
set_option linter.all false
namespace Sys2Proof.Machine

theorem redCmdEffect_kept {rr : Bool} {s0 s : State} (v : Nat) (hk : Kept rr s0 s) : Kept rr s0 (redCmdEffect v s) := by
  delta redCmdEffect
  repeat' first | with_reducible assumption | (intro x; refine (fun _ => ?_ : Kept rr s0 x → _) ?_; rotate_left; unfold x) | (intro x; refine (fun _ => ?_ : Kept rr s0 x.2 → _) ?_; rotate_left; unfold x) | (intro x; clear_value x) | intro x | with_reducible apply wr_kept | with_reducible apply redTo_kept | with_reducible apply clearAll_kept | with_reducible apply bump_kept | with_reducible apply ite_kept | split

theorem writeRedCmd_kept {rr : Bool} {s0 s : State} (v : Nat) (hk : Kept rr s0 s) : Kept rr s0 (writeRedCmd v s).2 := by
  delta writeRedCmd
  repeat' first | with_reducible assumption | (intro x; refine (fun _ => ?_ : Kept rr s0 x → _) ?_; rotate_left; unfold x) | (intro x; refine (fun _ => ?_ : Kept rr s0 x.2 → _) ?_; rotate_left; unfold x) | (intro x; clear_value x) | intro x | with_reducible apply wr_kept | with_reducible apply redCmdEffect_kept | with_reducible apply done_kept | with_reducible apply writeBy_kept

theorem claimNotices_kept {rr : Bool} {s0 s : State} (hk : Kept rr s0 s) : Kept rr s0 (claimNotices s) := by
  delta claimNotices
  repeat' first | with_reducible assumption | (intro x; refine (fun _ => ?_ : Kept rr s0 x → _) ?_; rotate_left; unfold x) | (intro x; refine (fun _ => ?_ : Kept rr s0 x.2 → _) ?_; rotate_left; unfold x) | (intro x; clear_value x) | intro x | with_reducible apply wr_kept | with_reducible apply sendFrame_kept | with_reducible apply each_kept | with_reducible apply ite_kept | split

theorem takeNotice_kept {rr : Bool} {s0 s : State} (claim kx : Nat) (hk : Kept rr s0 s) : Kept rr s0 (takeNotice claim kx s) := by
  delta takeNotice
  repeat' first | with_reducible assumption | (intro x; refine (fun _ => ?_ : Kept rr s0 x → _) ?_; rotate_left; unfold x) | (intro x; refine (fun _ => ?_ : Kept rr s0 x.2 → _) ?_; rotate_left; unfold x) | (intro x; clear_value x) | intro x | with_reducible apply wr_kept | with_reducible apply redEval_kept | with_reducible apply setBase_kept | with_reducible apply updRed_kept | with_reducible apply onlyIf_kept | with_reducible apply bump_kept | lift_lets

theorem parentClaim_kept {rr : Bool} {s0 s : State} (src : Nat) (srcSide : Bool) (claim kx : Nat) (hk : Kept rr s0 s) : Kept rr s0 (parentClaim src srcSide claim kx s).2 := by
  delta parentClaim
  repeat' first | with_reducible assumption | (intro x; refine (fun _ => ?_ : Kept rr s0 x → _) ?_; rotate_left; unfold x) | (intro x; refine (fun _ => ?_ : Kept rr s0 x.2 → _) ?_; rotate_left; unfold x) | (intro x; clear_value x) | intro x | with_reducible apply wr_kept | with_reducible apply takeNotice_kept | with_reducible apply done_kept | with_reducible apply ite_kept | with_reducible apply ite2_kept | split

theorem noticeTimeoutDo_kept {rr : Bool} {s0 s : State} (hk : Kept rr s0 s) : Kept rr s0 (noticeTimeoutDo s) := by
  delta noticeTimeoutDo
  repeat' first | with_reducible assumption | (intro x; refine (fun _ => ?_ : Kept rr s0 x → _) ?_; rotate_left; unfold x) | (intro x; refine (fun _ => ?_ : Kept rr s0 x.2 → _) ?_; rotate_left; unfold x) | (intro x; clear_value x) | intro x | with_reducible apply wr_kept | with_reducible apply setBase_kept | with_reducible apply updRed_kept | with_reducible apply advTo_kept | with_reducible apply ite_kept | split

theorem healthPublish_kept {rr : Bool} {s0 s : State} (hk : Kept rr s0 s) : Kept rr s0 (healthPublish s) := by
  delta healthPublish
  repeat' first | with_reducible assumption | (intro x; refine (fun _ => ?_ : Kept rr s0 x → _) ?_; rotate_left; unfold x) | (intro x; refine (fun _ => ?_ : Kept rr s0 x.2 → _) ?_; rotate_left; unfold x) | (intro x; clear_value x) | intro x | with_reducible apply wr_kept | with_reducible apply updRed_kept | with_reducible apply advTo_kept | with_reducible apply ite_kept | split | lift_lets

theorem revertExpiry_kept {rr : Bool} {s0 s : State} (hk : Kept rr s0 s) : Kept rr s0 (revertExpiry s) := by
  delta revertExpiry
  repeat' first | with_reducible assumption | (intro x; refine (fun _ => ?_ : Kept rr s0 x → _) ?_; rotate_left; unfold x) | (intro x; refine (fun _ => ?_ : Kept rr s0 x.2 → _) ?_; rotate_left; unfold x) | (intro x; clear_value x) | intro x | with_reducible apply wr_kept | with_reducible apply redEval_kept | with_reducible apply advVt_kept | with_reducible apply ite_kept | split

theorem digestSend_kept {rr : Bool} {s0 s : State} (hk : Kept rr s0 s) : Kept rr s0 (digestSend s) := by
  delta digestSend
  repeat' first | with_reducible assumption | (intro x; refine (fun _ => ?_ : Kept rr s0 x → _) ?_; rotate_left; unfold x) | (intro x; refine (fun _ => ?_ : Kept rr s0 x.2 → _) ?_; rotate_left; unfold x) | (intro x; clear_value x) | intro x | with_reducible apply wr_kept | with_reducible apply caddyCapture_kept | with_reducible apply comparePair_kept | with_reducible apply updPair_kept | with_reducible apply tryDecide_kept | with_reducible apply setVerdict_kept | with_reducible apply updRed_kept | with_reducible apply sendFrame_kept | with_reducible apply advVt_kept | with_reducible apply ite_kept | split | lift_lets

theorem instepCount_kept {rr : Bool} {s0 s : State} (same : Bool) (hk : Kept rr s0 s) : Kept rr s0 (instepCount same s) := by
  delta instepCount
  repeat' first | with_reducible assumption | (intro x; refine (fun _ => ?_ : Kept rr s0 x → _) ?_; rotate_left; unfold x) | (intro x; refine (fun _ => ?_ : Kept rr s0 x.2 → _) ?_; rotate_left; unfold x) | (intro x; clear_value x) | intro x | with_reducible apply wr_kept | with_reducible apply setInstep_kept | with_reducible apply ite_kept | split

theorem emptyImage_kept {rr : Bool} {s0 s : State} (k : Nat) (d : Digest) (hk : Kept rr s0 s) : Kept rr s0 (emptyImage k d s) := by
  delta emptyImage
  repeat' first | with_reducible assumption | (intro x; refine (fun _ => ?_ : Kept rr s0 x → _) ?_; rotate_left; unfold x) | (intro x; refine (fun _ => ?_ : Kept rr s0 x.2 → _) ?_; rotate_left; unfold x) | (intro x; clear_value x) | intro x | with_reducible apply wr_kept | with_reducible apply instepCount_kept | with_reducible apply updRed_kept | with_reducible apply ite_kept | split

theorem digestTake_kept {rr : Bool} {s0 s : State} (d : Digest) (hk : Kept rr s0 s) : Kept rr s0 (digestTake d s) := by
  delta digestTake
  repeat' first | with_reducible assumption | (intro x; refine (fun _ => ?_ : Kept rr s0 x → _) ?_; rotate_left; unfold x) | (intro x; refine (fun _ => ?_ : Kept rr s0 x.2 → _) ?_; rotate_left; unfold x) | (intro x; clear_value x) | intro x | with_reducible apply wr_kept | with_reducible apply emptyImage_kept | with_reducible apply configLive_kept | with_reducible apply comparePair_kept | with_reducible apply updPair_kept | with_reducible apply tryDecide_kept | with_reducible apply startCheck_kept | with_reducible apply redEval_kept | with_reducible apply updRed_kept | with_reducible apply onlyIf_kept | with_reducible apply ite_kept | split | lift_lets

theorem digestArrive_kept {rr : Bool} {s0 s : State} (d : Digest) (hk : Kept rr s0 s) : Kept rr s0 (digestArrive d s) := by
  delta digestArrive
  repeat' first | with_reducible assumption | (intro x; refine (fun _ => ?_ : Kept rr s0 x → _) ?_; rotate_left; unfold x) | (intro x; refine (fun _ => ?_ : Kept rr s0 x.2 → _) ?_; rotate_left; unfold x) | (intro x; clear_value x) | intro x | with_reducible apply wr_kept | with_reducible apply digestTake_kept | with_reducible apply configLive_kept | with_reducible apply updRed_kept | with_reducible apply ite_kept | split

theorem digestMissing_kept {rr : Bool} {s0 s : State} (hk : Kept rr s0 s) : Kept rr s0 (digestMissing s) := by
  delta digestMissing
  repeat' first | with_reducible assumption | (intro x; refine (fun _ => ?_ : Kept rr s0 x → _) ?_; rotate_left; unfold x) | (intro x; refine (fun _ => ?_ : Kept rr s0 x.2 → _) ?_; rotate_left; unfold x) | (intro x; clear_value x) | intro x | with_reducible apply wr_kept | with_reducible apply updPair_kept | with_reducible apply done_kept | with_reducible apply advVt_kept | with_reducible apply bump_kept | with_reducible apply ite_kept | with_reducible apply ite2_kept | split

theorem windowEnd_kept {rr : Bool} {s0 s : State} (hk : Kept rr s0 s) : Kept rr s0 (windowEnd s) := by
  delta windowEnd
  repeat' first | with_reducible assumption | (intro x; refine (fun _ => ?_ : Kept rr s0 x → _) ?_; rotate_left; unfold x) | (intro x; refine (fun _ => ?_ : Kept rr s0 x.2 → _) ?_; rotate_left; unfold x) | (intro x; clear_value x) | intro x | with_reducible apply wr_kept | with_reducible apply tryDecide_kept | with_reducible apply setVerdict_kept | with_reducible apply advVt_kept | split

theorem verdictTimeout_kept {rr : Bool} {s0 s : State} (hk : Kept rr s0 s) : Kept rr s0 (verdictTimeout s) := by
  delta verdictTimeout
  repeat' first | with_reducible assumption | (intro x; refine (fun _ => ?_ : Kept rr s0 x → _) ?_; rotate_left; unfold x) | (intro x; refine (fun _ => ?_ : Kept rr s0 x.2 → _) ?_; rotate_left; unfold x) | (intro x; clear_value x) | intro x | with_reducible apply wr_kept | with_reducible apply decided_kept | with_reducible apply endCheck_kept | with_reducible apply setVerdict_kept | with_reducible apply advVt_kept | with_reducible apply bump_kept | with_reducible apply ite_kept | split | lift_lets

theorem mirrorLane_kept {rr : Bool} {s0 s : State} (hk : Kept rr s0 s) : Kept rr s0 (mirrorLane s).2 := by
  delta mirrorLane
  repeat' first | with_reducible assumption | (intro x; refine (fun _ => ?_ : Kept rr s0 x → _) ?_; rotate_left; unfold x) | (intro x; refine (fun _ => ?_ : Kept rr s0 x.2 → _) ?_; rotate_left; unfold x) | (intro x; clear_value x) | intro x | with_reducible apply wr_kept | with_reducible apply updRed_kept | with_reducible apply ite_kept | with_reducible apply ite2_kept | split

theorem sendMirror_kept {rr : Bool} {s0 s : State} (typ : Nat) (p : Pay) (hk : Kept rr s0 s) : Kept rr s0 (sendMirror typ p s) := by
  delta sendMirror
  repeat' first | with_reducible assumption | (intro x; refine (fun _ => ?_ : Kept rr s0 x → _) ?_; rotate_left; unfold x) | (intro x; refine (fun _ => ?_ : Kept rr s0 x.2 → _) ?_; rotate_left; unfold x) | (intro x; clear_value x) | intro x | with_reducible apply wr_kept | with_reducible apply mirrorLane_kept | with_reducible apply sendFrame_kept | lift_lets

theorem inputsLaunch_kept {rr : Bool} {s0 s : State} (hk : Kept rr s0 s) : Kept rr s0 (inputsLaunch s) := by
  delta inputsLaunch
  repeat' first | with_reducible assumption | (intro x; refine (fun _ => ?_ : Kept rr s0 x → _) ?_; rotate_left; unfold x) | (intro x; refine (fun _ => ?_ : Kept rr s0 x.2 → _) ?_; rotate_left; unfold x) | (intro x; clear_value x) | intro x | with_reducible apply wr_kept | with_reducible apply sendMirror_kept | with_reducible apply updLaw_kept | with_reducible apply updRed_kept | with_reducible apply startTx_kept | with_reducible apply each_kept | with_reducible apply ite_kept | split | lift_lets

theorem inputsArrive_kept {rr : Bool} {s0 s : State} (p : Inputs) (hk : Kept rr s0 s) : Kept rr s0 (inputsArrive p s) := by
  delta inputsArrive
  repeat' first | with_reducible assumption | (intro x; refine (fun _ => ?_ : Kept rr s0 x → _) ?_; rotate_left; unfold x) | (intro x; refine (fun _ => ?_ : Kept rr s0 x.2 → _) ?_; rotate_left; unfold x) | (intro x; clear_value x) | intro x | with_reducible apply wr_kept | with_reducible apply foldl_kept | with_reducible apply foldl2_kept | with_reducible apply updRed_kept | with_reducible apply ite_kept | split | lift_lets

theorem caddyLaunch_kept {rr : Bool} {s0 s : State} (hk : Kept rr s0 s) : Kept rr s0 (caddyLaunch s) := by
  delta caddyLaunch
  repeat' first | with_reducible assumption | (intro x; refine (fun _ => ?_ : Kept rr s0 x → _) ?_; rotate_left; unfold x) | (intro x; refine (fun _ => ?_ : Kept rr s0 x.2 → _) ?_; rotate_left; unfold x) | (intro x; clear_value x) | intro x | with_reducible apply wr_kept | with_reducible apply sendMirror_kept | with_reducible apply updRed_kept | with_reducible apply each_kept | with_reducible apply ite_kept | split

theorem caddyComplete_kept {rr : Bool} {s0 s : State} (k : Nat) (img : List Nat) (hk : Kept rr s0 s) : Kept rr s0 (caddyComplete k img s) := by
  delta caddyComplete
  repeat' first | with_reducible assumption | (intro x; refine (fun _ => ?_ : Kept rr s0 x → _) ?_; rotate_left; unfold x) | (intro x; refine (fun _ => ?_ : Kept rr s0 x.2 → _) ?_; rotate_left; unfold x) | (intro x; clear_value x) | intro x | with_reducible apply wr_kept | with_reducible apply instepCount_kept | with_reducible apply updRed_kept | lift_lets

theorem caddyReject_kept {rr : Bool} {s0 s : State} (k : Nat) (hk : Kept rr s0 s) : Kept rr s0 (caddyReject k s) := by
  delta caddyReject
  repeat' first | with_reducible assumption | (intro x; refine (fun _ => ?_ : Kept rr s0 x → _) ?_; rotate_left; unfold x) | (intro x; refine (fun _ => ?_ : Kept rr s0 x.2 → _) ?_; rotate_left; unfold x) | (intro x; clear_value x) | intro x | with_reducible apply wr_kept | with_reducible apply updRed_kept | with_reducible apply bump_kept | with_reducible apply ite_kept | split

theorem caddyPart_kept {rr : Bool} {s0 s : State} (k : Nat) (c : CaddyPart) (hk : Kept rr s0 s) : Kept rr s0 (caddyPart k c s) := by
  delta caddyPart
  repeat' first | with_reducible assumption | (intro x; refine (fun _ => ?_ : Kept rr s0 x → _) ?_; rotate_left; unfold x) | (intro x; refine (fun _ => ?_ : Kept rr s0 x.2 → _) ?_; rotate_left; unfold x) | (intro x; clear_value x) | intro x | with_reducible apply wr_kept | with_reducible apply caddyReject_kept | with_reducible apply caddyComplete_kept | with_reducible apply updRed_kept | with_reducible apply ite_kept | split | lift_lets

theorem caddyArrive_kept {rr : Bool} {s0 s : State} (c : CaddyPart) (hk : Kept rr s0 s) : Kept rr s0 (caddyArrive c s) := by
  delta caddyArrive
  repeat' first | with_reducible assumption | (intro x; refine (fun _ => ?_ : Kept rr s0 x → _) ?_; rotate_left; unfold x) | (intro x; refine (fun _ => ?_ : Kept rr s0 x.2 → _) ?_; rotate_left; unfold x) | (intro x; clear_value x) | intro x | with_reducible apply wr_kept | with_reducible apply caddyPart_kept | with_reducible apply caddyLate_kept | with_reducible apply ite_kept | split | lift_lets

theorem writeCaddyList_kept {rr : Bool} {s0 s : State} (n v : Nat) (hk : Kept rr s0 s) : Kept rr s0 (writeCaddyList n v s).2 := by
  delta writeCaddyList
  repeat' first | with_reducible assumption | (intro x; refine (fun _ => ?_ : Kept rr s0 x → _) ?_; rotate_left; unfold x) | (intro x; refine (fun _ => ?_ : Kept rr s0 x.2 → _) ?_; rotate_left; unfold x) | (intro x; clear_value x) | intro x | with_reducible apply wr_kept | with_reducible apply caddyCheck_kept | with_reducible apply done_kept | with_reducible apply writeBy_kept | with_reducible apply ite_kept | with_reducible apply ite2_kept | split

theorem wiringLaunch_kept {rr : Bool} {s0 s : State} (hk : Kept rr s0 s) : Kept rr s0 (wiringLaunch s) := by
  delta wiringLaunch
  repeat' first | with_reducible assumption | (intro x; refine (fun _ => ?_ : Kept rr s0 x → _) ?_; rotate_left; unfold x) | (intro x; refine (fun _ => ?_ : Kept rr s0 x.2 → _) ?_; rotate_left; unfold x) | (intro x; clear_value x) | intro x | with_reducible apply wr_kept | with_reducible apply updRed_kept | with_reducible apply sendFrame_kept | with_reducible apply advTo_kept | with_reducible apply ite_kept | split | lift_lets

theorem wiringArrive_kept {rr : Bool} {s0 s : State} (w : Wiring) (hk : Kept rr s0 s) : Kept rr s0 (wiringArrive w s) := by
  delta wiringArrive
  repeat' first | with_reducible assumption | (intro x; refine (fun _ => ?_ : Kept rr s0 x → _) ?_; rotate_left; unfold x) | (intro x; refine (fun _ => ?_ : Kept rr s0 x.2 → _) ?_; rotate_left; unfold x) | (intro x; clear_value x) | intro x | with_reducible apply wr_kept | with_reducible apply updRed_kept | with_reducible apply updWiring_kept | with_reducible apply sendToNode_kept | with_reducible apply wrBit_kept | with_reducible apply ite_kept | split | lift_lets

end Sys2Proof.Machine
end

