-- ==== Sys2Proof/Laws/KOpsJop.lean ====
section
/-! SUPPORT. What the operations of Machine/OpsJop.lean keep. -/
set_option linter.all false
namespace Sys2Proof.Machine

theorem clearReply_kept {rr : Bool} {s0 s : State} (port addr op status echo : Nat) (body : List Nat) (hk : Kept rr s0 s) : Kept rr s0 (clearReply port addr op status echo body s) := by
  delta clearReply
  repeat' first | with_reducible assumption | (intro x; refine (fun _ => ?_ : Kept rr s0 x → _) ?_; rotate_left; unfold x) | (intro x; refine (fun _ => ?_ : Kept rr s0 x.2 → _) ?_; rotate_left; unfold x) | (intro x; clear_value x) | intro x | with_reducible apply wr_kept | with_reducible apply updJop_kept | with_reducible apply takeFree_kept | lift_lets

theorem updSession_kept {rr : Bool} {s0 s : State} (id : Nat) (f : Session → Session) (hk : Kept rr s0 s) : Kept rr s0 (updSession id f s) := by
  delta updSession
  repeat' first | with_reducible assumption | (intro x; refine (fun _ => ?_ : Kept rr s0 x → _) ?_; rotate_left; unfold x) | (intro x; refine (fun _ => ?_ : Kept rr s0 x.2 → _) ?_; rotate_left; unfold x) | (intro x; clear_value x) | intro x | with_reducible apply wr_kept | with_reducible apply updJop_kept | with_reducible apply ite_kept | split

theorem showSessions_kept {rr : Bool} {s0 s : State} (hk : Kept rr s0 s) : Kept rr s0 (showSessions s) := by
  delta showSessions
  repeat' first | with_reducible assumption | (intro x; refine (fun _ => ?_ : Kept rr s0 x → _) ?_; rotate_left; unfold x) | (intro x; refine (fun _ => ?_ : Kept rr s0 x.2 → _) ?_; rotate_left; unfold x) | (intro x; clear_value x) | intro x | with_reducible apply wr_kept

theorem closeSession_kept {rr : Bool} {s0 s : State} (id : Nat) (hk : Kept rr s0 s) : Kept rr s0 (closeSession id s) := by
  delta closeSession
  repeat' first | with_reducible assumption | (intro x; refine (fun _ => ?_ : Kept rr s0 x → _) ?_; rotate_left; unfold x) | (intro x; refine (fun _ => ?_ : Kept rr s0 x.2 → _) ?_; rotate_left; unfold x) | (intro x; clear_value x) | intro x | with_reducible apply wr_kept | with_reducible apply showSessions_kept | with_reducible apply updJop_kept

theorem jopReply_kept {rr : Bool} {s0 s : State} (id seq op status : Nat) (body : List Nat) (hk : Kept rr s0 s) : Kept rr s0 (jopReply id seq op status body s) := by
  delta jopReply
  repeat' first | with_reducible assumption | (intro x; refine (fun _ => ?_ : Kept rr s0 x → _) ?_; rotate_left; unfold x) | (intro x; refine (fun _ => ?_ : Kept rr s0 x.2 → _) ?_; rotate_left; unfold x) | (intro x; clear_value x) | intro x | with_reducible apply wr_kept | with_reducible apply closeSession_kept | with_reducible apply updSession_kept | with_reducible apply updJop_kept | with_reducible apply ite_kept | split | lift_lets

theorem authFailure_kept {rr : Bool} {s0 s : State} (hk : Kept rr s0 s) : Kept rr s0 (authFailure s) := by
  delta authFailure
  repeat' first | with_reducible assumption | (intro x; refine (fun _ => ?_ : Kept rr s0 x → _) ?_; rotate_left; unfold x) | (intro x; refine (fun _ => ?_ : Kept rr s0 x.2 → _) ?_; rotate_left; unfold x) | (intro x; clear_value x) | intro x | with_reducible apply wr_kept | with_reducible apply updJop_kept | with_reducible apply updSecurity_kept | with_reducible apply wrBit_kept | with_reducible apply bump_kept | with_reducible apply ite_kept | split | lift_lets

end Sys2Proof.Machine
end

