-- ==== Sys2Proof/Laws/KOpsRem.lean ====
section
/-! SUPPORT. What the operations of Machine/OpsRem.lean keep. -/
set_option linter.all false
namespace Sys2Proof.Machine

theorem sendObj_kept {rr : Bool} {s0 s : State} (typ node : Nat) (side : Bool) (cell : Option Nat) (m : ObjMsg) (hk : Kept rr s0 s) : Kept rr s0 (sendObj typ node side cell m s) := by
  delta sendObj
  repeat' first | with_reducible assumption | (intro x; refine (fun _ => ?_ : Kept rr s0 x → _) ?_; rotate_left; unfold x) | (intro x; refine (fun _ => ?_ : Kept rr s0 x.2 → _) ?_; rotate_left; unfold x) | (intro x; clear_value x) | intro x | with_reducible apply wr_kept | with_reducible apply sendToCell_kept | with_reducible apply sendToNode_kept | split

theorem request_kept {rr : Bool} {s0 s : State} (b : ReqBy) (node : Nat) (side : Bool) (cell : Option Nat) (m : ObjMsg) (wait left : Nat) (hk : Kept rr s0 s) : Kept rr s0 (request b node side cell m wait left s) := by
  delta request
  repeat' first | with_reducible assumption | (intro x; refine (fun _ => ?_ : Kept rr s0 x → _) ?_; rotate_left; unfold x) | (intro x; refine (fun _ => ?_ : Kept rr s0 x.2 → _) ?_; rotate_left; unfold x) | (intro x; clear_value x) | intro x | with_reducible apply wr_kept | with_reducible apply sendObj_kept | with_reducible apply updRem_kept | lift_lets

theorem requestTo_kept {rr : Bool} {s0 s : State} (b : ReqBy) (t : Nat) (m : ObjMsg) (hk : Kept rr s0 s) : Kept rr s0 (requestTo b t m s) := by
  delta requestTo
  repeat' first | with_reducible assumption | (intro x; refine (fun _ => ?_ : Kept rr s0 x → _) ?_; rotate_left; unfold x) | (intro x; refine (fun _ => ?_ : Kept rr s0 x.2 → _) ?_; rotate_left; unfold x) | (intro x; clear_value x) | intro x | with_reducible apply wr_kept | with_reducible apply request_kept | with_reducible apply ite_kept | split

theorem respond_kept {rr : Bool} {s0 s : State} (h : Hdr) (m : ObjMsg) (status count : Nat) (data : List Nat) (hk : Kept rr s0 s) : Kept rr s0 (respond h m status count data s) := by
  delta respond
  repeat' first | with_reducible assumption | (intro x; refine (fun _ => ?_ : Kept rr s0 x → _) ?_; rotate_left; unfold x) | (intro x; refine (fun _ => ?_ : Kept rr s0 x.2 → _) ?_; rotate_left; unfold x) | (intro x; clear_value x) | intro x | with_reducible apply wr_kept | with_reducible apply updRem_kept | with_reducible apply sendFrame_kept | lift_lets

theorem reqDone_kept {rr : Bool} {s0 s : State} (r : RemReq) (status count : Nat) (data : List Nat) (hk : Kept rr s0 s) : Kept rr s0 (reqDone r status count data s) := by
  delta reqDone
  repeat' first | with_reducible assumption | (intro x; refine (fun _ => ?_ : Kept rr s0 x → _) ?_; rotate_left; unfold x) | (intro x; refine (fun _ => ?_ : Kept rr s0 x.2 → _) ?_; rotate_left; unfold x) | (intro x; clear_value x) | intro x | with_reducible apply wr_kept | with_reducible apply respond_kept | with_reducible apply jopReply_kept | with_reducible apply ite_kept | split | lift_lets

theorem remTimeout_kept {rr : Bool} {s0 s : State} (id : Nat) (hk : Kept rr s0 s) : Kept rr s0 (remTimeout id s) := by
  delta remTimeout
  repeat' first | with_reducible assumption | (intro x; refine (fun _ => ?_ : Kept rr s0 x → _) ?_; rotate_left; unfold x) | (intro x; refine (fun _ => ?_ : Kept rr s0 x.2 → _) ?_; rotate_left; unfold x) | (intro x; clear_value x) | intro x | with_reducible apply wr_kept | with_reducible apply reqDone_kept | with_reducible apply sendObj_kept | with_reducible apply updRem_kept | with_reducible apply advTo_kept | with_reducible apply bump_kept | with_reducible apply ite_kept | split | lift_lets

theorem respRx_kept {rr : Bool} {s0 s : State} (m : ObjMsg) (hk : Kept rr s0 s) : Kept rr s0 (respRx m s) := by
  delta respRx
  repeat' first | with_reducible assumption | (intro x; refine (fun _ => ?_ : Kept rr s0 x → _) ?_; rotate_left; unfold x) | (intro x; refine (fun _ => ?_ : Kept rr s0 x.2 → _) ?_; rotate_left; unfold x) | (intro x; clear_value x) | intro x | with_reducible apply wr_kept | with_reducible apply reqDone_kept | with_reducible apply updRem_kept | split

theorem coreRequest_kept {rr : Bool} {s0 s : State} (op : Nat) (hk : Kept rr s0 s) : Kept rr s0 (coreRequest op s) := by
  delta coreRequest
  repeat' first | with_reducible assumption | (intro x; refine (fun _ => ?_ : Kept rr s0 x → _) ?_; rotate_left; unfold x) | (intro x; refine (fun _ => ?_ : Kept rr s0 x.2 → _) ?_; rotate_left; unfold x) | (intro x; clear_value x) | intro x | with_reducible apply wr_kept | with_reducible apply requestTo_kept | with_reducible apply ite_kept | split | lift_lets

theorem writeRemCmd_kept {rr : Bool} {s0 s : State} (v : Nat) (hk : Kept rr s0 s) : Kept rr s0 (writeRemCmd v s).2 := by
  delta writeRemCmd
  repeat' first | with_reducible assumption | (intro x; refine (fun _ => ?_ : Kept rr s0 x → _) ?_; rotate_left; unfold x) | (intro x; refine (fun _ => ?_ : Kept rr s0 x.2 → _) ?_; rotate_left; unfold x) | (intro x; clear_value x) | intro x | with_reducible apply wr_kept | with_reducible apply coreRequest_kept | with_reducible apply done_kept | with_reducible apply writeBy_kept

theorem bulkSend_kept {rr : Bool} {s0 s : State} (typ : Nat) (x : OutXfer) (status off len : Nat) (data : List Nat) (hk : Kept rr s0 s) : Kept rr s0 (bulkSend typ x status off len data s) := by
  delta bulkSend
  repeat' first | with_reducible assumption | (intro x; refine (fun _ => ?_ : Kept rr s0 x → _) ?_; rotate_left; unfold x) | (intro x; refine (fun _ => ?_ : Kept rr s0 x.2 → _) ?_; rotate_left; unfold x) | (intro x; clear_value x) | intro x | with_reducible apply wr_kept | with_reducible apply sendFrame_kept

theorem setOut_kept {rr : Bool} {s0 s : State} (x : OutXfer) (hk : Kept rr s0 s) : Kept rr s0 (setOut x s) := by
  delta setOut
  repeat' first | with_reducible assumption | (intro x; refine (fun _ => ?_ : Kept rr s0 x → _) ?_; rotate_left; unfold x) | (intro x; refine (fun _ => ?_ : Kept rr s0 x.2 → _) ?_; rotate_left; unfold x) | (intro x; clear_value x) | intro x | with_reducible apply wr_kept | with_reducible apply updRem_kept | with_reducible apply ite_kept | split

theorem pumpOne_kept {rr : Bool} {s0 s : State} (f : Nat) (x : OutXfer) (hk : Kept rr s0 s) : Kept rr s0 (pumpOne f x s) := by
  induction f generalizing x s with
  | zero => exact setOut_kept _ hk
  | succ f ih =>
    unfold pumpOne
    dsimp only
    repeat' first | with_reducible assumption | with_reducible apply ite_kept | with_reducible apply ih | with_reducible apply setOut_kept | with_reducible apply bulkSend_kept | with_reducible apply updRem_kept | split

theorem pump_kept {rr : Bool} {s0 s : State} (hk : Kept rr s0 s) : Kept rr s0 (pump s) := by
  delta pump
  repeat' first | with_reducible assumption | (intro x; refine (fun _ => ?_ : Kept rr s0 x → _) ?_; rotate_left; unfold x) | (intro x; refine (fun _ => ?_ : Kept rr s0 x.2 → _) ?_; rotate_left; unfold x) | (intro x; clear_value x) | intro x | with_reducible apply wr_kept | with_reducible apply pumpOne_kept | with_reducible apply each_kept

theorem startOut_kept {rr : Bool} {s0 s : State} (x : OutXfer) (hk : Kept rr s0 s) : Kept rr s0 (startOut x s) := by
  delta startOut
  repeat' first | with_reducible assumption | (intro x; refine (fun _ => ?_ : Kept rr s0 x → _) ?_; rotate_left; unfold x) | (intro x; refine (fun _ => ?_ : Kept rr s0 x.2 → _) ?_; rotate_left; unfold x) | (intro x; clear_value x) | intro x | with_reducible apply wr_kept | with_reducible apply pump_kept | with_reducible apply updRem_kept

theorem readReqRx_kept {rr : Bool} {s0 s : State} (h : Hdr) (b : Bulk) (hk : Kept rr s0 s) : Kept rr s0 (readReqRx h b s) := by
  delta readReqRx
  repeat' first | with_reducible assumption | (intro x; refine (fun _ => ?_ : Kept rr s0 x → _) ?_; rotate_left; unfold x) | (intro x; refine (fun _ => ?_ : Kept rr s0 x.2 → _) ?_; rotate_left; unfold x) | (intro x; clear_value x) | intro x | with_reducible apply wr_kept | with_reducible apply startOut_kept | with_reducible apply answer_kept | with_reducible apply ite_kept | split | lift_lets

theorem sendAck_kept {rr : Bool} {s0 s : State} (h : Hdr) (b : Bulk) (status : Nat) (ranges : List (Nat × Nat)) (hk : Kept rr s0 s) : Kept rr s0 (sendAck h b status ranges s) := by
  delta sendAck
  repeat' first | with_reducible assumption | (intro x; refine (fun _ => ?_ : Kept rr s0 x → _) ?_; rotate_left; unfold x) | (intro x; refine (fun _ => ?_ : Kept rr s0 x.2 → _) ?_; rotate_left; unfold x) | (intro x; clear_value x) | intro x | with_reducible apply wr_kept | with_reducible apply sendFrame_kept

theorem updIn_kept {rr : Bool} {s0 s : State} (h : Hdr) (b : Bulk) (f : InXfer → InXfer) (hk : Kept rr s0 s) : Kept rr s0 (updIn h b f s) := by
  delta updIn
  repeat' first | with_reducible assumption | (intro x; refine (fun _ => ?_ : Kept rr s0 x → _) ?_; rotate_left; unfold x) | (intro x; refine (fun _ => ?_ : Kept rr s0 x.2 → _) ?_; rotate_left; unfold x) | (intro x; clear_value x) | intro x | with_reducible apply wr_kept | with_reducible apply updRem_kept | with_reducible apply ite_kept | split

theorem dropIn_kept {rr : Bool} {s0 s : State} (h : Hdr) (b : Bulk) (hk : Kept rr s0 s) : Kept rr s0 (dropIn h b s) := by
  delta dropIn
  repeat' first | with_reducible assumption | (intro x; refine (fun _ => ?_ : Kept rr s0 x → _) ?_; rotate_left; unfold x) | (intro x; refine (fun _ => ?_ : Kept rr s0 x.2 → _) ?_; rotate_left; unfold x) | (intro x; clear_value x) | intro x | with_reducible apply wr_kept | with_reducible apply updRem_kept

theorem bulkDataRx_kept {rr : Bool} {s0 s : State} (h : Hdr) (b : Bulk) (hk : Kept rr s0 s) : Kept rr s0 (bulkDataRx h b s) := by
  delta bulkDataRx
  repeat' first | with_reducible assumption | (intro x; refine (fun _ => ?_ : Kept rr s0 x → _) ?_; rotate_left; unfold x) | (intro x; refine (fun _ => ?_ : Kept rr s0 x.2 → _) ?_; rotate_left; unfold x) | (intro x; clear_value x) | intro x | with_reducible apply wr_kept | with_reducible apply updIn_kept | with_reducible apply sendAck_kept | with_reducible apply updRem_kept | with_reducible apply slotWrite_kept | with_reducible apply ite_kept | split | lift_lets

theorem sendReadReq_kept {rr : Bool} {s0 s : State} (x : InXfer) (off len : Nat) (hk : Kept rr s0 s) : Kept rr s0 (sendReadReq x off len s) := by
  delta sendReadReq
  repeat' first | with_reducible assumption | (intro x; refine (fun _ => ?_ : Kept rr s0 x → _) ?_; rotate_left; unfold x) | (intro x; refine (fun _ => ?_ : Kept rr s0 x.2 → _) ?_; rotate_left; unfold x) | (intro x; clear_value x) | intro x | with_reducible apply wr_kept | with_reducible apply sendFrame_kept | with_reducible apply ite_kept | split | lift_lets

theorem bulkEndRx_kept {rr : Bool} {s0 s : State} (h : Hdr) (b : Bulk) (hk : Kept rr s0 s) : Kept rr s0 (bulkEndRx h b s) := by
  delta bulkEndRx
  repeat' first | with_reducible assumption | (intro x; refine (fun _ => ?_ : Kept rr s0 x → _) ?_; rotate_left; unfold x) | (intro x; refine (fun _ => ?_ : Kept rr s0 x.2 → _) ?_; rotate_left; unfold x) | (intro x; clear_value x) | intro x | with_reducible apply wr_kept | with_reducible apply sendReadReq_kept | with_reducible apply dropIn_kept | with_reducible apply sendAck_kept | with_reducible apply jopReply_kept | with_reducible apply slotWritten_kept | with_reducible apply verifySlot_kept | with_reducible apply updNvm_kept | with_reducible apply ite_kept | with_reducible apply ite2_kept | split | lift_lets

theorem updDist_kept {rr : Bool} {s0 s : State} (link : Nat) (f : DistPiste → DistPiste) (hk : Kept rr s0 s) : Kept rr s0 (updDist link f s) := by
  delta updDist
  repeat' first | with_reducible assumption | (intro x; refine (fun _ => ?_ : Kept rr s0 x → _) ?_; rotate_left; unfold x) | (intro x; refine (fun _ => ?_ : Kept rr s0 x.2 → _) ?_; rotate_left; unfold x) | (intro x; clear_value x) | intro x | with_reducible apply wr_kept | with_reducible apply updNvm_kept | with_reducible apply ite_kept | split

theorem showDist_kept {rr : Bool} {s0 s : State} (hk : Kept rr s0 s) : Kept rr s0 (showDist s) := by
  delta showDist
  repeat' first | with_reducible assumption | (intro x; refine (fun _ => ?_ : Kept rr s0 x → _) ?_; rotate_left; unfold x) | (intro x; refine (fun _ => ?_ : Kept rr s0 x.2 → _) ?_; rotate_left; unfold x) | (intro x; clear_value x) | intro x | with_reducible apply wr_kept | with_reducible apply ite_kept | split | lift_lets

theorem distAck_kept {rr : Bool} {s0 s : State} (x : OutXfer) (link cell : Nat) (b : Bulk) (hk : Kept rr s0 s) : Kept rr s0 (distAck x link cell b s) := by
  delta distAck
  repeat' first | with_reducible assumption | (intro x; refine (fun _ => ?_ : Kept rr s0 x → _) ?_; rotate_left; unfold x) | (intro x; refine (fun _ => ?_ : Kept rr s0 x.2 → _) ?_; rotate_left; unfold x) | (intro x; clear_value x) | intro x | with_reducible apply wr_kept | with_reducible apply foldl_kept | with_reducible apply foldl2_kept | with_reducible apply showDist_kept | with_reducible apply updDist_kept | with_reducible apply pump_kept | with_reducible apply setOut_kept | with_reducible apply updRem_kept | with_reducible apply ite_kept | split | lift_lets

theorem bulkAckRx_kept {rr : Bool} {s0 s : State} (h : Hdr) (b : Bulk) (hk : Kept rr s0 s) : Kept rr s0 (bulkAckRx h b s) := by
  delta bulkAckRx
  repeat' first | with_reducible assumption | (intro x; refine (fun _ => ?_ : Kept rr s0 x → _) ?_; rotate_left; unfold x) | (intro x; refine (fun _ => ?_ : Kept rr s0 x.2 → _) ?_; rotate_left; unfold x) | (intro x; clear_value x) | intro x | with_reducible apply wr_kept | with_reducible apply distAck_kept | with_reducible apply pump_kept | with_reducible apply setOut_kept | with_reducible apply updRem_kept | with_reducible apply jopReply_kept | with_reducible apply answer_kept | with_reducible apply ite_kept | split | lift_lets

theorem distribute_kept {rr : Bool} {s0 s : State} (hk : Kept rr s0 s) : Kept rr s0 (distribute s) := by
  delta distribute
  repeat' first | with_reducible assumption | (intro x; refine (fun _ => ?_ : Kept rr s0 x → _) ?_; rotate_left; unfold x) | (intro x; refine (fun _ => ?_ : Kept rr s0 x.2 → _) ?_; rotate_left; unfold x) | (intro x; clear_value x) | intro x | with_reducible apply wr_kept | with_reducible apply showDist_kept | with_reducible apply pump_kept | with_reducible apply updRem_kept | with_reducible apply updNvm_kept | lift_lets

theorem nvmEffect_kept {rr : Bool} {s0 s : State} (v : Nat) (hk : Kept rr s0 s) : Kept rr s0 (nvmEffect v s) := by
  delta nvmEffect
  repeat' first | with_reducible assumption | (intro x; refine (fun _ => ?_ : Kept rr s0 x → _) ?_; rotate_left; unfold x) | (intro x; refine (fun _ => ?_ : Kept rr s0 x.2 → _) ?_; rotate_left; unfold x) | (intro x; clear_value x) | intro x | with_reducible apply wr_kept | with_reducible apply distribute_kept | with_reducible apply nvmCommit_kept | with_reducible apply nvmActivate_kept | with_reducible apply nvmVerify_kept | with_reducible apply nvmDefaults_kept | with_reducible apply nvmStore_kept | split

theorem writeNvmCmd_kept {rr : Bool} {s0 s : State} (v : Nat) (hk : Kept rr s0 s) : Kept rr s0 (writeNvmCmd v s).2 := by
  delta writeNvmCmd
  repeat' first | with_reducible assumption | (intro x; refine (fun _ => ?_ : Kept rr s0 x → _) ?_; rotate_left; unfold x) | (intro x; refine (fun _ => ?_ : Kept rr s0 x.2 → _) ?_; rotate_left; unfold x) | (intro x; clear_value x) | intro x | with_reducible apply wr_kept | with_reducible apply nvmEffect_kept | with_reducible apply done_kept | with_reducible apply writeBy_kept

end Sys2Proof.Machine
end

