-- ==== Sys2Proof/Laws/KObjAccess.lean ====
section
/-! SUPPORT. What the operations of Machine/ObjAccess.lean keep. -/
set_option linter.all false
namespace Sys2Proof.Machine

theorem plainAfter_kept {rr : Bool} {s0 s : State} (w : Who) (k v : Nat) (hk : Kept rr s0 s) : Kept rr s0 (plainAfter w k v s) := by
  delta plainAfter
  repeat' first | with_reducible assumption | (intro x; refine (fun _ => ?_ : Kept rr s0 x → _) ?_; rotate_left; unfold x) | (intro x; refine (fun _ => ?_ : Kept rr s0 x.2 → _) ?_; rotate_left; unfold x) | (intro x; clear_value x) | intro x | with_reducible apply wr_kept | with_reducible apply fioWritten_kept | with_reducible apply balWritten_kept | with_reducible apply lawWritten_kept | with_reducible apply redMode_kept | with_reducible apply redEval_kept | with_reducible apply setBase_kept | with_reducible apply updLaneDown_kept | with_reducible apply acqWritten_kept | with_reducible apply adcWritten_kept | with_reducible apply loadComparators_kept | with_reducible apply evalPeer_kept | with_reducible apply evalFns_kept | with_reducible apply updFaultN_kept | with_reducible apply updSaf_kept | with_reducible apply ite_kept | split | lift_lets

theorem writePlain_kept {rr : Bool} {s0 s : State} (w : Who) (k v : Nat) (hk : Kept rr s0 s) : Kept rr s0 (writePlain w k v s).2 := by
  delta writePlain
  repeat' first | with_reducible assumption | (intro x; refine (fun _ => ?_ : Kept rr s0 x → _) ?_; rotate_left; unfold x) | (intro x; refine (fun _ => ?_ : Kept rr s0 x.2 → _) ?_; rotate_left; unfold x) | (intro x; clear_value x) | intro x | with_reducible apply wr_kept | with_reducible apply plainAfter_kept | with_reducible apply done_kept | with_reducible apply writeBy_kept | with_reducible apply ite_kept | with_reducible apply ite2_kept | split | lift_lets

theorem writeSafCmd_kept {rr : Bool} {s0 s : State} (v : Nat) (hk : Kept rr s0 s) : Kept rr s0 (writeSafCmd v s).2 := by
  delta writeSafCmd
  repeat' first | with_reducible assumption | (intro x; refine (fun _ => ?_ : Kept rr s0 x → _) ?_; rotate_left; unfold x) | (intro x; refine (fun _ => ?_ : Kept rr s0 x.2 → _) ?_; rotate_left; unfold x) | (intro x; clear_value x) | intro x | with_reducible apply wr_kept | with_reducible apply cmdResetFn_kept | with_reducible apply cmdRelease_kept | with_reducible apply cmdAbort_kept | with_reducible apply cmdConfirm_kept | with_reducible apply cmdCommission_kept | split

theorem writeParent_kept {rr : Bool} {s0 s : State} (w : Who) (claim kx : Nat) (hk : Kept rr s0 s) : Kept rr s0 (writeParent w claim kx s).2 := by
  delta writeParent
  repeat' first | with_reducible assumption | (intro x; refine (fun _ => ?_ : Kept rr s0 x → _) ?_; rotate_left; unfold x) | (intro x; refine (fun _ => ?_ : Kept rr s0 x.2 → _) ?_; rotate_left; unfold x) | (intro x; clear_value x) | intro x | with_reducible apply wr_kept | with_reducible apply parentClaim_kept | split

theorem writeTime_kept {rr : Bool} {s0 s : State} (k v : Nat) (hk : Kept rr s0 s) : ∀ x, writeTime k v s = some x → Kept rr s0 x.2 := by
  unfold writeTime
  try dsimp only
  repeat' first | with_reducible assumption | with_reducible apply opt_kept | (intro x hx; exact nomatch hx) | with_reducible apply writeTimAsym_kept | with_reducible apply writeTimPeriod_kept | with_reducible apply writeTimApplyLag_kept | with_reducible apply writeTimCmdGuard_kept | with_reducible apply writeTimLawStart_kept | with_reducible apply writeStCmd_kept | with_reducible apply writeStAdjust_kept | with_reducible apply writeStInc_kept

theorem writeSwitch_kept {rr : Bool} {s0 s : State} (k v : Nat) (hk : Kept rr s0 s) : ∀ x, writeSwitch k v s = some x → Kept rr s0 x.2 := by
  unfold writeSwitch
  try dsimp only
  repeat' first | with_reducible assumption | with_reducible apply opt_kept | (intro x hx; exact nomatch hx) | with_reducible apply writeCelOrder_kept | with_reducible apply writeCelClear_kept | with_reducible apply writeLawCmd_kept | with_reducible apply writeBankReq_kept | with_reducible apply writeTrcCmd_kept | with_reducible apply writeLnkEnable_kept | with_reducible apply writeLnkCmd_kept | with_reducible apply writeLnkLoop_kept | with_reducible apply writeSlalomSeed_kept | with_reducible apply writeArmDeblock_kept

theorem writeSense_kept {rr : Bool} {s0 s : State} (k v : Nat) (hk : Kept rr s0 s) : ∀ x, writeSense k v s = some x → Kept rr s0 x.2 := by
  unfold writeSense
  try dsimp only
  repeat' first | with_reducible assumption | with_reducible apply opt_kept | (intro x hx; exact nomatch hx) | with_reducible apply writeAcqCmd_kept | with_reducible apply writeRecLock_kept | with_reducible apply writeRecRelease_kept | with_reducible apply writeAcqMem_kept | with_reducible apply writeSeqCmd_kept | with_reducible apply writeSeqTrig_kept | with_reducible apply writePrioReq_kept | with_reducible apply writePair_kept | with_reducible apply writeAdcCmd_kept | with_reducible apply writeKetClear_kept | with_reducible apply writeKetCmd_kept | with_reducible apply writeKetQPop_kept | with_reducible apply writeSafCmd_kept

theorem writeCores_kept {s0 s : State} (w : Who) (k v : Nat) (hk : Kept true s0 s) : ∀ x, writeCores w k v s = some x → Kept true s0 x.2 := by
  unfold writeCores
  try dsimp only
  repeat' first | with_reducible assumption | with_reducible apply opt_kept | (intro x hx; exact nomatch hx) | with_reducible apply takeFree_kept | with_reducible apply writeDmaCmd_kept | with_reducible apply writeDmaGcmd_kept | with_reducible apply writeFioCmd_kept | with_reducible apply writePosCmd_kept | with_reducible apply writePrbCmd_kept | with_reducible apply writeDoPair_kept | with_reducible apply writeSecCmd_kept | with_reducible apply writeTskCmd_kept | with_reducible apply writeSysCmd_kept | with_reducible apply writePowerCmd_kept | with_reducible apply writeTamperAck_kept | with_reducible apply writeRedCmd_kept | with_reducible apply writeCaddyList_kept | with_reducible apply writeRemCmd_kept | with_reducible apply writeNvmCmd_kept | with_reducible apply writeParent_kept

theorem writeObj_kept {s0 s : State} (w : Who) (k v : Nat) (hk : Kept true s0 s) : Kept true s0 (writeObj w k v s).2 := by
  unfold writeObj
  repeat' first | with_reducible assumption | with_reducible apply ite2_kept | with_reducible apply writePlain_kept | split
  all_goals first | exact writeTime_kept _ _ hk _ (by assumption) | exact writeSwitch_kept _ _ hk _ (by assumption) | exact writeSense_kept _ _ hk _ (by assumption) | exact writeCores_kept _ _ _ hk _ (by assumption)

theorem readBefore_kept {rr : Bool} {s0 s : State} (k : Nat) (hk : Kept rr s0 s) : Kept rr s0 (readBefore k s) := by
  delta readBefore
  repeat' first | with_reducible assumption | (intro x; refine (fun _ => ?_ : Kept rr s0 x → _) ?_; rotate_left; unfold x) | (intro x; refine (fun _ => ?_ : Kept rr s0 x.2 → _) ?_; rotate_left; unfold x) | (intro x; clear_value x) | intro x | with_reducible apply wr_kept | with_reducible apply loopCount_kept | with_reducible apply ite_kept | split

theorem readAfter_kept {rr : Bool} {s0 s : State} (k : Nat) (hk : Kept rr s0 s) : Kept rr s0 (readAfter k s) := by
  delta readAfter
  repeat' first | with_reducible assumption | (intro x; refine (fun _ => ?_ : Kept rr s0 x → _) ?_; rotate_left; unfold x) | (intro x; refine (fun _ => ?_ : Kept rr s0 x.2 → _) ?_; rotate_left; unfold x) | (intro x; clear_value x) | intro x | with_reducible apply wr_kept | with_reducible apply wrBit_kept | with_reducible apply ite_kept | split

theorem readObj_kept {rr : Bool} {s0 s : State} (w : Who) (k : Nat) (hk : Kept rr s0 s) : Kept rr s0 (readObj w k s).2.2 := by
  delta readObj
  repeat' first | with_reducible assumption | (intro x; refine (fun _ => ?_ : Kept rr s0 x → _) ?_; rotate_left; unfold x) | (intro x; refine (fun _ => ?_ : Kept rr s0 x.2 → _) ?_; rotate_left; unfold x) | (intro x; clear_value x) | intro x | with_reducible apply wr_kept | with_reducible apply readAfter_kept | with_reducible apply readBefore_kept | with_reducible apply ite_kept | with_reducible apply ite2_kept | split | lift_lets

theorem readMany_kept {rr : Bool} {s0 s : State} (w : Who) (k c n : Nat) (d : List Nat) (hk : Kept rr s0 s) : Kept rr s0 (readMany w k c n d s).2.2.2 := by
  induction c generalizing n d s with
  | zero => exact hk
  | succ c ih =>
    have hr := readObj_kept w (k + n) hk
    unfold readMany
    dsimp only
    split
    · exact hk
    · exact ih _ _ hr

theorem writeMany_kept {s0 s : State} (w : Who) (k c n : Nat) (d : List Nat) (hk : Kept true s0 s) : Kept true s0 (writeMany w k c n d s).2.2 := by
  induction c generalizing n d s with
  | zero => exact hk
  | succ c ih =>
    have hr := fun v => writeObj_kept w (k + n) v hk
    unfold writeMany
    dsimp only
    repeat' first | with_reducible assumption | with_reducible exact hr _ | with_reducible apply ih | split

end Sys2Proof.Machine
end

