-- ==== Sys2Proof/Laws/KRem.lean ====
section
/-! SUPPORT. What the operations of Machine/Rem.lean keep. -/
set_option linter.all false
namespace Sys2Proof.Machine

theorem reqWrites_kept {s0 s : State} (h : Hdr) (m : ObjMsg) (hk : Kept true s0 s) : Kept true s0 (reqWrites h m s).2.2 := by
  delta reqWrites
  repeat' first | with_reducible assumption | (intro x; refine (fun _ => ?_ : Kept true s0 x → _) ?_; rotate_left; unfold x) | (intro x; refine (fun _ => ?_ : Kept true s0 x.2 → _) ?_; rotate_left; unfold x) | (intro x; clear_value x) | intro x | with_reducible apply wr_kept | with_reducible apply writeMany_kept | with_reducible apply parentClaim_kept | with_reducible apply ite_kept | with_reducible apply ite2_kept | split | lift_lets

theorem reqReads_kept {rr : Bool} {s0 s : State} (w : Who) (lim : Nat) (m : ObjMsg) (hk : Kept rr s0 s) : Kept rr s0 (reqReads w lim m s).2.2.2 := by
  have hr := fun k c n d => readMany_kept w k c n d hk
  unfold reqReads
  dsimp only
  split
  · exact hk
  · split
    · exact hk
    · exact hr _ _ _ _

theorem reqRun_kept {s0 s : State} (h : Hdr) (m : ObjMsg) (hk : Kept true s0 s) : Kept true s0 (reqRun h m s) := by
  unfold reqRun
  dsimp only
  split
  · exact respond_kept _ _ _ _ _ (reqReads_kept _ _ _ hk)
  · exact respond_kept _ _ _ _ _ (reqWrites_kept _ _ hk)
  · apply ite_kept
    · exact set_tree_kept hk
    · exact reqWrites_kept _ _ hk
  · apply ite_kept
    · exact respond_kept _ _ _ _ _ hk
    · apply ite_kept
      · exact respond_kept _ _ _ _ _ hk
      · exact respond_kept _ _ _ _ _ (attest_kept _ hk)

theorem noticeOn_kept {rr : Bool} {s0 s : State} (t : Nat) (m : ObjMsg) (hk : Kept rr s0 s) : Kept rr s0 (noticeOn t m s) := by
  delta noticeOn
  repeat' first | with_reducible assumption | (intro x; refine (fun _ => ?_ : Kept rr s0 x → _) ?_; rotate_left; unfold x) | (intro x; refine (fun _ => ?_ : Kept rr s0 x.2 → _) ?_; rotate_left; unfold x) | (intro x; clear_value x) | intro x | with_reducible apply wr_kept | with_reducible apply sendObj_kept | with_reducible apply updRem_kept

theorem reqRx_kept {s0 s : State} (h : Hdr) (m : ObjMsg) (hk : Kept true s0 s) : Kept true s0 (reqRx h m s) := by
  delta reqRx
  repeat' first | with_reducible assumption | (intro x; refine (fun _ => ?_ : Kept true s0 x → _) ?_; rotate_left; unfold x) | (intro x; refine (fun _ => ?_ : Kept true s0 x.2 → _) ?_; rotate_left; unfold x) | (intro x; clear_value x) | intro x | with_reducible apply wr_kept | with_reducible apply noticeOn_kept | with_reducible apply reqRun_kept | with_reducible apply respond_kept | with_reducible apply request_kept | with_reducible apply sendFrame_kept | with_reducible apply bump_kept | with_reducible apply ite_kept | split | lift_lets

theorem laneReportRx_kept {rr : Bool} {s0 s : State} (node : Nat) (l : List LaneEntry) (hk : Kept rr s0 s) : Kept rr s0 (laneReportRx node l s) := by
  delta laneReportRx
  repeat' first | with_reducible assumption | (intro x; refine (fun _ => ?_ : Kept rr s0 x → _) ?_; rotate_left; unfold x) | (intro x; refine (fun _ => ?_ : Kept rr s0 x.2 → _) ?_; rotate_left; unfold x) | (intro x; clear_value x) | intro x | with_reducible apply wr_kept | with_reducible apply lagRecompute_kept | with_reducible apply ite_kept | with_reducible apply set_tree_kept | split | lift_lets

theorem wiringReportRx_kept {rr : Bool} {s0 s : State} (node diff : Nat) (hk : Kept rr s0 s) : Kept rr s0 (wiringReportRx node diff s) := by
  delta wiringReportRx
  repeat' first | with_reducible assumption | (intro x; refine (fun _ => ?_ : Kept rr s0 x → _) ?_; rotate_left; unfold x) | (intro x; refine (fun _ => ?_ : Kept rr s0 x.2 → _) ?_; rotate_left; unfold x) | (intro x; clear_value x) | intro x | with_reducible apply wr_kept | with_reducible apply wrBit_kept | with_reducible apply ite_kept | split

end Sys2Proof.Machine
end

