-- ==== Sys2Proof/Laws/KJop.lean ====
section
/-! SUPPORT. What the operations of Machine/Jop.lean keep. -/
set_option linter.all false
namespace Sys2Proof.Machine

theorem clearTo_kept {rr : Bool} {s0 s : State} (f : HostFrom) (op status seq : Nat) (body : List Nat) (hk : Kept rr s0 s) : Kept rr s0 (clearTo f op status seq body s) := by
  delta clearTo
  repeat' first | with_reducible assumption | (intro x; refine (fun _ => ?_ : Kept rr s0 x → _) ?_; rotate_left; unfold x) | (intro x; refine (fun _ => ?_ : Kept rr s0 x.2 → _) ?_; rotate_left; unfold x) | (intro x; clear_value x) | intro x | with_reducible apply wr_kept | with_reducible apply clearReply_kept

theorem repeated_kept {rr : Bool} {s0 s : State} (a : JopAuth) (x : Session) (hk : Kept rr s0 s) : Kept rr s0 (repeated a x s) := by
  delta repeated
  repeat' first | with_reducible assumption | (intro x; refine (fun _ => ?_ : Kept rr s0 x → _) ?_; rotate_left; unfold x) | (intro x; refine (fun _ => ?_ : Kept rr s0 x.2 → _) ?_; rotate_left; unfold x) | (intro x; clear_value x) | intro x | with_reducible apply wr_kept | with_reducible apply updJop_kept | with_reducible apply bump_kept | with_reducible apply ite_kept | split

theorem authRequest_kept {rr : Bool} {s0 s : State} (a : JopAuth) (op : Nat) (body : List Nat) {run : Session → State → State}
    (hf : ∀ x t, Kept rr s0 t → Kept rr s0 (run x t)) (hk : Kept rr s0 s) : Kept rr s0 (authRequest a op body run s) := by
  have hu := fun f => updSession_kept a.session f hk
  unfold authRequest
  dsimp only
  repeat' first | with_reducible assumption | with_reducible exact hu _ | with_reducible apply ite_kept | with_reducible apply bump_kept | with_reducible apply clearTo_kept | with_reducible apply authFailure_kept | with_reducible apply repeated_kept | with_reducible apply jopReply_kept | with_reducible apply hf | split

theorem authReply_kept {rr : Bool} {s0 s : State} (a : JopAuth) (op status : Nat) (body : List Nat) (hk : Kept rr s0 s) : Kept rr s0 (authReply a op status body s) := by
  delta authReply
  repeat' first | with_reducible assumption | (intro x; refine (fun _ => ?_ : Kept rr s0 x → _) ?_; rotate_left; unfold x) | (intro x; refine (fun _ => ?_ : Kept rr s0 x.2 → _) ?_; rotate_left; unfold x) | (intro x; clear_value x) | intro x | with_reducible apply wr_kept | with_reducible apply jopReply_kept

theorem arpEffect_kept {rr : Bool} {s0 s : State} (port ip : Nat) (vlan : Option Nat) (hk : Kept rr s0 s) : Kept rr s0 (arpEffect port ip vlan s) := by
  delta arpEffect
  repeat' first | with_reducible assumption | (intro x; refine (fun _ => ?_ : Kept rr s0 x → _) ?_; rotate_left; unfold x) | (intro x; refine (fun _ => ?_ : Kept rr s0 x.2 → _) ?_; rotate_left; unfold x) | (intro x; clear_value x) | intro x | with_reducible apply wr_kept | with_reducible apply updJop_kept | with_reducible apply ite_kept | split

theorem echoEffect_kept {rr : Bool} {s0 s : State} (f : HostFrom) (data : List Nat) (hk : Kept rr s0 s) : Kept rr s0 (echoEffect f data s) := by
  delta echoEffect
  repeat' first | with_reducible assumption | (intro x; refine (fun _ => ?_ : Kept rr s0 x → _) ?_; rotate_left; unfold x) | (intro x; refine (fun _ => ?_ : Kept rr s0 x.2 → _) ?_; rotate_left; unfold x) | (intro x; clear_value x) | intro x | with_reducible apply wr_kept | with_reducible apply updJop_kept | with_reducible apply ite_kept | split | lift_lets

theorem discoverEffect_kept {rr : Bool} {s0 s : State} (f : HostFrom) (seq : Nat) (hk : Kept rr s0 s) : Kept rr s0 (discoverEffect f seq s) := by
  delta discoverEffect
  repeat' first | with_reducible assumption | (intro x; refine (fun _ => ?_ : Kept rr s0 x → _) ?_; rotate_left; unfold x) | (intro x; refine (fun _ => ?_ : Kept rr s0 x.2 → _) ?_; rotate_left; unfold x) | (intro x; clear_value x) | intro x | with_reducible apply wr_kept | with_reducible apply clearTo_kept | with_reducible apply ite_kept | split

theorem openEffect_kept {rr : Bool} {s0 s : State} (f : HostFrom) (seq slot : Nat) (nh : List Nat) (qh ql : Nat) (hk : Kept rr s0 s) : Kept rr s0 (openEffect f seq slot nh qh ql s) := by
  delta openEffect
  repeat' first | with_reducible assumption | (intro x; refine (fun _ => ?_ : Kept rr s0 x → _) ?_; rotate_left; unfold x) | (intro x; refine (fun _ => ?_ : Kept rr s0 x.2 → _) ?_; rotate_left; unfold x) | (intro x; clear_value x) | intro x | with_reducible apply wr_kept | with_reducible apply clearTo_kept | with_reducible apply updJop_kept | with_reducible apply takeFree_kept | with_reducible apply ite_kept | with_reducible apply ite2_kept | split | lift_lets

theorem sessionOpens_kept {rr : Bool} {s0 s : State} (a : JopAuth) (o : OpenSt) (hk : Kept rr s0 s) : Kept rr s0 (sessionOpens a o s) := by
  delta sessionOpens
  repeat' first | with_reducible assumption | (intro x; refine (fun _ => ?_ : Kept rr s0 x → _) ?_; rotate_left; unfold x) | (intro x; refine (fun _ => ?_ : Kept rr s0 x.2 → _) ?_; rotate_left; unfold x) | (intro x; clear_value x) | intro x | with_reducible apply wr_kept | with_reducible apply authReply_kept | with_reducible apply showSessions_kept | with_reducible apply updJop_kept | with_reducible apply putHostKey_kept | with_reducible apply ite_kept | split | lift_lets

theorem confirmOpen_kept {rr : Bool} {s0 s : State} (a : JopAuth) (o : OpenSt) (sigH : Nat) (body : List Nat) (hk : Kept rr s0 s) : Kept rr s0 (confirmOpen a o sigH body s) := by
  delta confirmOpen
  repeat' first | with_reducible assumption | (intro x; refine (fun _ => ?_ : Kept rr s0 x → _) ?_; rotate_left; unfold x) | (intro x; refine (fun _ => ?_ : Kept rr s0 x.2 → _) ?_; rotate_left; unfold x) | (intro x; clear_value x) | intro x | with_reducible apply wr_kept | with_reducible apply sessionOpens_kept | with_reducible apply clearTo_kept | with_reducible apply authFailure_kept | with_reducible apply ite_kept | split

theorem confirmEffect_kept {rr : Bool} {s0 s : State} (a : JopAuth) (sigH : Nat) (hk : Kept rr s0 s) : Kept rr s0 (confirmEffect a sigH s) := by
  delta confirmEffect
  repeat' first | with_reducible assumption | (intro x; refine (fun _ => ?_ : Kept rr s0 x → _) ?_; rotate_left; unfold x) | (intro x; refine (fun _ => ?_ : Kept rr s0 x.2 → _) ?_; rotate_left; unfold x) | (intro x; clear_value x) | intro x | with_reducible apply wr_kept | with_reducible apply confirmOpen_kept | with_reducible apply authReply_kept | with_reducible apply authRequest_kept | with_reducible apply ite_kept | split | lift_lets

theorem closeEffect_kept {rr : Bool} {s0 s : State} (a : JopAuth) (hk : Kept rr s0 s) : Kept rr s0 (closeEffect a s) := by
  delta closeEffect
  repeat' first | with_reducible assumption | (intro x; refine (fun _ => ?_ : Kept rr s0 x → _) ?_; rotate_left; unfold x) | (intro x; refine (fun _ => ?_ : Kept rr s0 x.2 → _) ?_; rotate_left; unfold x) | (intro x; clear_value x) | intro x | with_reducible apply wr_kept | with_reducible apply authReply_kept | with_reducible apply authRequest_kept | with_reducible apply closeSession_kept

theorem jopReadEffect_kept {rr : Bool} {s0 s : State} (a : JopAuth) (tgt index sub count : Nat) (hk : Kept rr s0 s) : Kept rr s0 (jopReadEffect a tgt index sub count s) := by
  delta jopReadEffect
  repeat' first | with_reducible assumption | (intro x; refine (fun _ => ?_ : Kept rr s0 x → _) ?_; rotate_left; unfold x) | (intro x; refine (fun _ => ?_ : Kept rr s0 x.2 → _) ?_; rotate_left; unfold x) | (intro x; refine (fun _ => ?_ : Kept rr s0 x.2.2 → _) ?_; rotate_left; unfold x) | (intro x; refine (fun _ => ?_ : Kept rr s0 x.2.2.2 → _) ?_; rotate_left; unfold x) | (intro x; clear_value x) | intro x | with_reducible apply wr_kept | with_reducible apply authReply_kept | with_reducible apply authRequest_kept | with_reducible apply reqReads_kept | with_reducible apply requestTo_kept | with_reducible apply ite_kept | with_reducible apply ite2_kept | split | lift_lets

theorem jopWriteEffect_kept {s0 s : State} (a : JopAuth) (tgt index sub count : Nat) (data : List Nat) (hk : Kept true s0 s) : Kept true s0 (jopWriteEffect a tgt index sub count data s) := by
  delta jopWriteEffect
  repeat' first | with_reducible assumption | (intro x; refine (fun _ => ?_ : Kept true s0 x → _) ?_; rotate_left; unfold x) | (intro x; refine (fun _ => ?_ : Kept true s0 x.2 → _) ?_; rotate_left; unfold x) | (intro x; refine (fun _ => ?_ : Kept true s0 x.2.2 → _) ?_; rotate_left; unfold x) | (intro x; clear_value x) | intro x | with_reducible apply wr_kept | with_reducible apply authReply_kept | with_reducible apply authRequest_kept | with_reducible apply writeMany_kept | with_reducible apply requestTo_kept | with_reducible apply ite_kept | with_reducible apply ite2_kept | split | lift_lets

theorem eventReadEffect_kept {rr : Bool} {s0 s : State} (a : JopAuth) (n : Nat) (hk : Kept rr s0 s) : Kept rr s0 (eventReadEffect a n s) := by
  delta eventReadEffect
  repeat' first | with_reducible assumption | (intro x; refine (fun _ => ?_ : Kept rr s0 x → _) ?_; rotate_left; unfold x) | (intro x; refine (fun _ => ?_ : Kept rr s0 x.2 → _) ?_; rotate_left; unfold x) | (intro x; clear_value x) | intro x | with_reducible apply wr_kept | with_reducible apply authReply_kept | with_reducible apply authRequest_kept | with_reducible apply ite_kept | split | lift_lets

theorem eventAckEffect_kept {rr : Bool} {s0 s : State} (a : JopAuth) (n origin eseq : Nat) (hk : Kept rr s0 s) : Kept rr s0 (eventAckEffect a n origin eseq s) := by
  delta eventAckEffect
  repeat' first | with_reducible assumption | (intro x; refine (fun _ => ?_ : Kept rr s0 x → _) ?_; rotate_left; unfold x) | (intro x; refine (fun _ => ?_ : Kept rr s0 x.2 → _) ?_; rotate_left; unfold x) | (intro x; clear_value x) | intro x | with_reducible apply wr_kept | with_reducible apply authReply_kept | with_reducible apply authRequest_kept | with_reducible apply queueShrunk_kept | with_reducible apply updKet_kept | with_reducible apply ite_kept | split

theorem takeXfer_kept {rr : Bool} {s0 s : State} (hk : Kept rr s0 s) : Kept rr s0 (takeXfer s).2 := by
  delta takeXfer
  repeat' first | with_reducible assumption | (intro x; refine (fun _ => ?_ : Kept rr s0 x → _) ?_; rotate_left; unfold x) | (intro x; refine (fun _ => ?_ : Kept rr s0 x.2 → _) ?_; rotate_left; unfold x) | (intro x; clear_value x) | intro x | with_reducible apply wr_kept | with_reducible apply updRem_kept

theorem bulkReadEffect_kept {rr : Bool} {s0 s : State} (a : JopAuth) (tgt region off len : Nat) (hk : Kept rr s0 s) : Kept rr s0 (bulkReadEffect a tgt region off len s) := by
  delta bulkReadEffect
  repeat' first | with_reducible assumption | (intro x; refine (fun _ => ?_ : Kept rr s0 x → _) ?_; rotate_left; unfold x) | (intro x; refine (fun _ => ?_ : Kept rr s0 x.2 → _) ?_; rotate_left; unfold x) | (intro x; clear_value x) | intro x | with_reducible apply wr_kept | with_reducible apply takeXfer_kept | with_reducible apply authReply_kept | with_reducible apply authRequest_kept | with_reducible apply sendReadReq_kept | with_reducible apply updRem_kept | with_reducible apply ite_kept | with_reducible apply ite2_kept | split | lift_lets

theorem bulkWriteEffect_kept {rr : Bool} {s0 s : State} (a : JopAuth) (tgt region off : Nat) (data : List Nat) (hk : Kept rr s0 s) : Kept rr s0 (bulkWriteEffect a tgt region off data s) := by
  delta bulkWriteEffect
  repeat' first | with_reducible assumption | (intro x; refine (fun _ => ?_ : Kept rr s0 x → _) ?_; rotate_left; unfold x) | (intro x; refine (fun _ => ?_ : Kept rr s0 x.2 → _) ?_; rotate_left; unfold x) | (intro x; clear_value x) | intro x | with_reducible apply wr_kept | with_reducible apply takeXfer_kept | with_reducible apply authReply_kept | with_reducible apply authRequest_kept | with_reducible apply startOut_kept | with_reducible apply slotWritten_kept | with_reducible apply slotWrite_kept | with_reducible apply ite_kept | with_reducible apply ite2_kept | split | lift_lets

theorem putCoreMsg_kept {rr : Bool} {s0 s : State} (data : List Nat) (hk : Kept rr s0 s) : Kept rr s0 (putCoreMsg data s) := by
  delta putCoreMsg
  repeat' first | with_reducible assumption | (intro x; refine (fun _ => ?_ : Kept rr s0 x → _) ?_; rotate_left; unfold x) | (intro x; refine (fun _ => ?_ : Kept rr s0 x.2 → _) ?_; rotate_left; unfold x) | (intro x; clear_value x) | intro x | with_reducible apply wr_kept | with_reducible apply each_kept | lift_lets

theorem coreMsgEffect_kept {rr : Bool} {s0 s : State} (a : JopAuth) (data : List Nat) (hk : Kept rr s0 s) : Kept rr s0 (coreMsgEffect a data s) := by
  delta coreMsgEffect
  repeat' first | with_reducible assumption | (intro x; refine (fun _ => ?_ : Kept rr s0 x → _) ?_; rotate_left; unfold x) | (intro x; refine (fun _ => ?_ : Kept rr s0 x.2 → _) ?_; rotate_left; unfold x) | (intro x; clear_value x) | intro x | with_reducible apply wr_kept | with_reducible apply putCoreMsg_kept | with_reducible apply authReply_kept | with_reducible apply authRequest_kept | with_reducible apply fireEvent_kept | with_reducible apply ite_kept | split

theorem jopAttestEffect_kept {rr : Bool} {s0 s : State} (a : JopAuth) (tgt : Nat) (nonce : List Nat) (hk : Kept rr s0 s) : Kept rr s0 (jopAttestEffect a tgt nonce s) := by
  delta jopAttestEffect
  repeat' first | with_reducible assumption | (intro x; refine (fun _ => ?_ : Kept rr s0 x → _) ?_; rotate_left; unfold x) | (intro x; refine (fun _ => ?_ : Kept rr s0 x.2 → _) ?_; rotate_left; unfold x) | (intro x; clear_value x) | intro x | with_reducible apply wr_kept | with_reducible apply authReply_kept | with_reducible apply authRequest_kept | with_reducible apply requestTo_kept | with_reducible apply attest_kept | with_reducible apply ite_kept | with_reducible apply ite2_kept | split | lift_lets

theorem openExpires_kept {rr : Bool} {s0 s : State} (id : Nat) (hk : Kept rr s0 s) : Kept rr s0 (openExpires id s) := by
  delta openExpires
  repeat' first | with_reducible assumption | (intro x; refine (fun _ => ?_ : Kept rr s0 x → _) ?_; rotate_left; unfold x) | (intro x; refine (fun _ => ?_ : Kept rr s0 x.2 → _) ?_; rotate_left; unfold x) | (intro x; clear_value x) | intro x | with_reducible apply wr_kept | with_reducible apply updJop_kept | with_reducible apply advTo_kept | split

theorem sessionExpires_kept {rr : Bool} {s0 s : State} (id : Nat) (hk : Kept rr s0 s) : Kept rr s0 (sessionExpires id s) := by
  delta sessionExpires
  repeat' first | with_reducible assumption | (intro x; refine (fun _ => ?_ : Kept rr s0 x → _) ?_; rotate_left; unfold x) | (intro x; refine (fun _ => ?_ : Kept rr s0 x.2 → _) ?_; rotate_left; unfold x) | (intro x; clear_value x) | intro x | with_reducible apply wr_kept | with_reducible apply closeSession_kept | with_reducible apply advTo_kept | split

theorem authRateEnds_kept {rr : Bool} {s0 s : State} (hk : Kept rr s0 s) : Kept rr s0 (authRateEnds s) := by
  delta authRateEnds
  repeat' first | with_reducible assumption | (intro x; refine (fun _ => ?_ : Kept rr s0 x → _) ?_; rotate_left; unfold x) | (intro x; refine (fun _ => ?_ : Kept rr s0 x.2 → _) ?_; rotate_left; unfold x) | (intro x; clear_value x) | intro x | with_reducible apply wr_kept | with_reducible apply updJop_kept | with_reducible apply updSecurity_kept | with_reducible apply advTo_kept | with_reducible apply wrBit_kept | split

theorem writeCoreMsgLen_kept {rr : Bool} {s0 s : State} (v : Nat) (hk : Kept rr s0 s) : Kept rr s0 (writeCoreMsgLen v s).2 := by
  delta writeCoreMsgLen
  repeat' first | with_reducible assumption | (intro x; refine (fun _ => ?_ : Kept rr s0 x → _) ?_; rotate_left; unfold x) | (intro x; refine (fun _ => ?_ : Kept rr s0 x.2 → _) ?_; rotate_left; unfold x) | (intro x; clear_value x) | intro x | with_reducible apply wr_kept | with_reducible apply done_kept | with_reducible apply writeBy_kept

end Sys2Proof.Machine
end

