-- ==== Sys2Proof/Laws/KJtag.lean ====
section
/-! SUPPORT. What the operations of Machine/Jtag.lean keep. -/
set_option linter.all false
namespace Sys2Proof.Machine

theorem jtagBypass_kept {rr : Bool} {s0 s : State} (code : Nat) (hk : Kept rr s0 s) : Kept rr s0 (jtagBypass code s) := by
  delta jtagBypass
  repeat' first | with_reducible assumption | (intro x; refine (fun _ => ?_ : Kept rr s0 x → _) ?_; rotate_left; unfold x) | (intro x; refine (fun _ => ?_ : Kept rr s0 x.2 → _) ?_; rotate_left; unfold x) | (intro x; clear_value x) | intro x | with_reducible apply wr_kept | with_reducible apply updJtag_kept

theorem jtagTest_kept {rr : Bool} {s0 s : State} (code : Nat) (f : JtagSt → JtagSt) (hk : Kept rr s0 s) : Kept rr s0 (jtagTest code f s) := by
  delta jtagTest
  repeat' first | with_reducible assumption | (intro x; refine (fun _ => ?_ : Kept rr s0 x → _) ?_; rotate_left; unfold x) | (intro x; refine (fun _ => ?_ : Kept rr s0 x.2 → _) ?_; rotate_left; unfold x) | (intro x; clear_value x) | intro x | with_reducible apply wr_kept | with_reducible apply jtagBypass_kept | with_reducible apply updJtag_kept | with_reducible apply ite_kept | split

end Sys2Proof.Machine
end

