-- ==== Sys2Proof/Laws/KPeriod.lean ====
section
/-! SUPPORT. What the operations of Machine/Period.lean keep. -/
set_option linter.all false
namespace Sys2Proof.Machine

theorem pMarkAt_kept {rr : Bool} {s0 s : State} (k : Nat) (hk : Kept rr s0 s) : Kept rr s0 (pMarkAt k s) := by
  delta pMarkAt
  repeat' first | with_reducible assumption | (intro x; refine (fun _ => ?_ : Kept rr s0 x → _) ?_; rotate_left; unfold x) | (intro x; refine (fun _ => ?_ : Kept rr s0 x.2 → _) ?_; rotate_left; unfold x) | (intro x; clear_value x) | intro x | with_reducible apply wr_kept | with_reducible apply laneDue_kept | with_reducible apply paramsAt_kept | with_reducible apply caddyPMark_kept | with_reducible apply balPMark_kept | with_reducible apply lawPMark_kept | with_reducible apply redPMark_kept | with_reducible apply adcPMark_kept | with_reducible apply adcNow_kept | with_reducible apply cellPMark_kept | with_reducible apply acqPMark_kept | with_reducible apply advVt_kept | with_reducible apply each_kept | lift_lets

theorem pMark_kept {rr : Bool} {s0 s : State} (hk : Kept rr s0 s) : Kept rr s0 (pMark s) := by
  delta pMark
  repeat' first | with_reducible assumption | (intro x; refine (fun _ => ?_ : Kept rr s0 x → _) ?_; rotate_left; unfold x) | (intro x; refine (fun _ => ?_ : Kept rr s0 x.2 → _) ?_; rotate_left; unfold x) | (intro x; clear_value x) | intro x | with_reducible apply wr_kept | with_reducible apply pMarkAt_kept | split

end Sys2Proof.Machine
end

