-- ==== Sys2Proof/Laws/KTsk.lean ====
section
/-! SUPPORT. What the operations of Machine/Tsk.lean keep. -/
set_option linter.all false
namespace Sys2Proof.Machine

theorem winWrite_kept {s0 s : State} (c k v : Nat) (fw : Bool) (hk : Kept true s0 s) : Kept true s0 (winWrite c k v fw s).2 := by
  delta winWrite
  repeat' first | with_reducible assumption | (intro x; refine (fun _ => ?_ : Kept true s0 x → _) ?_; rotate_left; unfold x) | (intro x; refine (fun _ => ?_ : Kept true s0 x.2 → _) ?_; rotate_left; unfold x) | (intro x; clear_value x) | intro x | with_reducible apply wr_kept | with_reducible apply writeObj_kept | with_reducible apply ite_kept | with_reducible apply ite2_kept | split | lift_lets

theorem winRead_kept {rr : Bool} {s0 s : State} (c k : Nat) (fw : Bool) (hk : Kept rr s0 s) : Kept rr s0 (winRead c k fw s).2.2 := by
  delta winRead
  repeat' first | with_reducible assumption | (intro x; refine (fun _ => ?_ : Kept rr s0 x → _) ?_; rotate_left; unfold x) | (intro x; refine (fun _ => ?_ : Kept rr s0 x.2 → _) ?_; rotate_left; unfold x) | (intro x; refine (fun _ => ?_ : Kept rr s0 x.2.2 → _) ?_; rotate_left; unfold x) | (intro x; clear_value x) | intro x | with_reducible apply wr_kept | with_reducible apply readObj_kept | with_reducible apply updPort_kept | with_reducible apply ite_kept | with_reducible apply ite2_kept | split | lift_lets

theorem winErr_kept {rr : Bool} {s0 s : State} (c st : Nat) (hk : Kept rr s0 s) : Kept rr s0 (winErr c st s) := by
  delta winErr
  repeat' first | with_reducible assumption | (intro x; refine (fun _ => ?_ : Kept rr s0 x → _) ?_; rotate_left; unfold x) | (intro x; refine (fun _ => ?_ : Kept rr s0 x.2 → _) ?_; rotate_left; unfold x) | (intro x; clear_value x) | intro x | with_reducible apply wr_kept | with_reducible apply updPort_kept | with_reducible apply ite_kept | split

theorem commitEntry_kept {s0 s : State} (n c : Nat) (e : Nat × Nat) (hk : Kept true s0 s) : Kept true s0 (commitEntry n c e s) := by
  delta commitEntry
  repeat' first | with_reducible assumption | (intro x; refine (fun _ => ?_ : Kept true s0 x → _) ?_; rotate_left; unfold x) | (intro x; refine (fun _ => ?_ : Kept true s0 x.2 → _) ?_; rotate_left; unfold x) | (intro x; clear_value x) | intro x | with_reducible apply wr_kept | with_reducible apply winWrite_kept | with_reducible apply stBytes_kept | with_reducible apply bump_kept | with_reducible apply stBytes_kept | with_reducible apply ite_kept | with_reducible apply ite2_kept | split | lift_lets

theorem taskDone_kept {s0 s : State} (c : Nat) (hk : Kept true s0 s) : Kept true s0 (taskDone c s) := by
  delta taskDone
  repeat' first | with_reducible assumption | (intro x; refine (fun _ => ?_ : Kept true s0 x → _) ?_; rotate_left; unfold x) | (intro x; refine (fun _ => ?_ : Kept true s0 x.2 → _) ?_; rotate_left; unfold x) | (intro x; clear_value x) | intro x | with_reducible apply wr_kept | with_reducible apply commitEntry_kept | with_reducible apply abortAndDispatch_kept | with_reducible apply endInstance_kept | with_reducible apply dispatch_kept | with_reducible apply each_kept | with_reducible apply ite_kept | split | lift_lets

theorem portSignal_kept {rr : Bool} {s0 s : State} (c v : Nat) (hk : Kept rr s0 s) : Kept rr s0 (portSignal c v s) := by
  delta portSignal
  repeat' first | with_reducible assumption | (intro x; refine (fun _ => ?_ : Kept rr s0 x → _) ?_; rotate_left; unfold x) | (intro x; refine (fun _ => ?_ : Kept rr s0 x.2 → _) ?_; rotate_left; unfold x) | (intro x; clear_value x) | intro x | with_reducible apply wr_kept | with_reducible apply signalTask_kept | with_reducible apply ite_kept | split

theorem winStatus_kept {rr : Bool} {s0 s : State} (c v : Nat) (hk : Kept rr s0 s) : Kept rr s0 (winStatus c v s) := by
  delta winStatus
  repeat' first | with_reducible assumption | (intro x; refine (fun _ => ?_ : Kept rr s0 x → _) ?_; rotate_left; unfold x) | (intro x; refine (fun _ => ?_ : Kept rr s0 x.2 → _) ?_; rotate_left; unfold x) | (intro x; clear_value x) | intro x | with_reducible apply wr_kept | with_reducible apply winErr_kept | with_reducible apply updPort_kept

theorem commitStore_kept {rr : Bool} {s0 s : State} (c n a v : Nat) (hk : Kept rr s0 s) : Kept rr s0 (commitStore c n a v s) := by
  delta commitStore
  repeat' first | with_reducible assumption | (intro x; refine (fun _ => ?_ : Kept rr s0 x → _) ?_; rotate_left; unfold x) | (intro x; refine (fun _ => ?_ : Kept rr s0 x.2 → _) ?_; rotate_left; unfold x) | (intro x; clear_value x) | intro x | with_reducible apply wr_kept | with_reducible apply updPort_kept | with_reducible apply updTask_kept | with_reducible apply ite_kept | split | lift_lets

theorem memAccess_kept {rr : Bool} {s0 s : State} (a size : Nat) (v : Option Nat) (hk : Kept rr s0 s) : ∀ x, memAccess a size v s = some x → Kept rr s0 x.2 := by
  intro x hx
  unfold memAccess at hx
  split at hx <;> cases hx
  · exact stBytes_kept _ _ hk
  · exact hk

theorem portAccess_kept {s0 s : State} (c n off size : Nat) (v : Option Nat) (hk : Kept true s0 s) : ∀ x, portAccess c n off size v s = some x → Kept true s0 x.2 := by
  intro x hx
  unfold portAccess at hx
  dsimp only at hx
  repeat' (split at hx)
  all_goals cases hx
  all_goals first | exact hk | exact updPort_kept _ _ hk | exact taskDone_kept _ hk | exact delayTask_kept _ _ hk | exact portSignal_kept _ _ hk | exact winStatus_kept _ _ hk

theorem ite_opt_kept {rr : Bool} {s0 : State} {c : Prop} [Decidable c] {a b : CoreRes} (ha : ∀ x, a = some x → Kept rr s0 x.2) (hb : ∀ x, b = some x → Kept rr s0 x.2) :
    ∀ x, (if c then a else b) = some x → Kept rr s0 x.2 := by
  split <;> assumption

theorem none_kept {rr : Bool} {s0 : State} : ∀ x : Nat × State, (none : CoreRes) = some x → Kept rr s0 x.2 := by
  intro x hx
  cases hx

theorem some_kept {rr : Bool} {s0 s : State} (v : Nat) (h : Kept rr s0 s) : ∀ x : Nat × State, some (v, s) = some x → Kept rr s0 x.2 := by
  intro x hx
  cases hx
  exact h

theorem mapAccess_kept {s0 s : State} (c n a size : Nat) (v : Option Nat) (hk : Kept true s0 s) : ∀ x, mapAccess c n a size v s = some x → Kept true s0 x.2 := by
  unfold mapAccess
  dsimp only
  repeat' first | with_reducible apply ite_opt_kept | with_reducible exact memAccess_kept _ _ _ hk | with_reducible exact portAccess_kept _ _ _ _ _ hk | with_reducible exact some_kept _ hk | with_reducible exact some_kept _ (takeFree_kept _ hk) | with_reducible exact some_kept _ (commitStore_kept _ _ _ _ hk) | with_reducible exact some_kept _ (winErr_kept _ _ (winWrite_kept _ _ _ _ hk)) | with_reducible exact some_kept _ (winErr_kept _ _ (winRead_kept _ _ _ hk)) | with_reducible exact none_kept | split
  all_goals first | exact some_kept _ hk | exact some_kept _ (takeFree_kept _ hk)

theorem coreAccess_kept {s0 s : State} (c a size : Nat) (v : Option Nat) (hk : Kept true s0 s) : Kept true s0 (coreAccess c a size v s) := by
  unfold coreAccess
  dsimp only
  split
  · exact hk
  · split
    · rename_i r hx
      refine answer_kept _ _ ?_
      split at hx
      · exact mapAccess_kept _ _ _ _ _ hk _ hx
      · exact nomatch hx
    · exact abortAndDispatch_kept _ _ hk

theorem taskDeadline_kept {rr : Bool} {s0 s : State} (n : Nat) (hk : Kept rr s0 s) : Kept rr s0 (taskDeadline n s) := by
  delta taskDeadline
  repeat' first | with_reducible assumption | (intro x; refine (fun _ => ?_ : Kept rr s0 x → _) ?_; rotate_left; unfold x) | (intro x; refine (fun _ => ?_ : Kept rr s0 x.2 → _) ?_; rotate_left; unfold x) | (intro x; clear_value x) | intro x | with_reducible apply wr_kept | with_reducible apply abortAndDispatch_kept | with_reducible apply advTo_kept | with_reducible apply ite_kept | split

theorem taskFault_kept {rr : Bool} {s0 s : State} (c : Nat) (ecc : Bool) (hk : Kept rr s0 s) : Kept rr s0 (taskFault c ecc s) := by
  delta taskFault
  repeat' first | with_reducible assumption | (intro x; refine (fun _ => ?_ : Kept rr s0 x → _) ?_; rotate_left; unfold x) | (intro x; refine (fun _ => ?_ : Kept rr s0 x.2 → _) ?_; rotate_left; unfold x) | (intro x; clear_value x) | intro x | with_reducible apply wr_kept | with_reducible apply abortAndDispatch_kept | with_reducible apply onlyIf_kept | with_reducible apply bump_kept | with_reducible apply ite_kept | split | lift_lets

end Sys2Proof.Machine
end

