-- ==== Sys2Proof/WellFormed.lean ====
section
/-! DEFINITION. Which commands are well-formed: every operand within the width or the numbering that the spec gives it (Tables 0.4, 1.2, 2.1 to 2.10, 3.2, 5.2, 5.3, 5.7, 6.2 to 6.8, 7.6 to 7.10, 10.3, 10.4, 10.7, 11.1, 14.5 to 14.10). -/
namespace Sys2Proof.Machine

/-- A field of w bits. -/
def fits (w v : Nat) : Bool := v < 2 ^ w

/-- A two's complement field of w bits. -/
def fitsI (w : Nat) (x : Int) : Bool := -(2 ^ (w - 1) : Int) ≤ x && x < (2 ^ (w - 1) : Int)

/-- A number from lo to hi. -/
def between (lo hi v : Nat) : Bool := lo ≤ v && v ≤ hi

/-- Bytes. -/
def areBytes (l : List Nat) : Bool := l.all (fits 8)

/-- A string of n bytes. -/
def bytesOf (n : Nat) (l : List Nat) : Bool := l.length == n && areBytes l

/-- A TS80 or TS96 instant: 48 bits of seconds, in nanoseconds. -/
def isTs80 (ns : Nat) : Bool := ns < 2 ^ 48 * 1000000000

/-- A TS96 instant in 2^-16 ns. -/
def isTs96 (f : Nat) : Bool := f < 2 ^ 64 * 1000000000

/-- Table 5.3. -/
def Hdr.wf (h : Hdr) : Bool := fits 3 h.cls && fits 4 h.typ && fits 16 h.dst && fits 16 h.src && fits 8 h.seq

/-- Table 3.2. -/
def CellStatus.wf (x : CellStatus) : Bool :=
  fits 16 x.tDie && fits 16 x.tBoard && fits 16 x.vAux && fits 16 x.lateCount && fits 32 x.faults && fits 32 x.tc && fits 8 x.ov1 && fits 8 x.dsat

/-- Table 2.4. -/
def Report.wf (r : Report) : Bool :=
  fits 32 r.period && fits 16 r.vKey && fits 16 r.vChk && fits 2 r.insPrev && fitsI 8 r.w && fits 8 r.cellState && fits 32 r.swHi && fits 16 r.cellIndex
    && fits 16 r.claimSeen && r.status.wf

/-- Table 2.2. -/
def RefEntry.wf (e : RefEntry) : Bool :=
  fits 8 e.arm && fits 2 e.dir && fits 8 e.binShift && fits 8 e.stick && fitsI 40 e.m && fits 16 e.binBase && fits 32 e.wearRef && fits 8 e.wearGain

/-- Table 2.1. -/
def Reference.wf (r : Reference) : Bool := fits 32 r.period && r.entries.length ≤ 6 && r.entries.all RefEntry.wf

/-- Tables 2.6 and 3.3. -/
def Command.wf (c : Command) : Bool :=
  fits 32 c.period && isTs80 c.exec && fits 2 c.dir && fits 8 c.stick && fits 32 c.kTh && fits 32 c.kCarve && fits 16 c.tCarve && fits 16 c.exclude
    && fits 32 c.slalomNext && fits 32 c.wearRef && fits 8 c.wearGain && fits 16 c.claim && fits 8 c.originNode && fits 8 c.originLink && bytesOf 16 c.orders

/-- Tables 2.9 and 2.10. -/
def ArmSum.wf (a : ArmSum) : Bool :=
  fits 8 a.arm && fits 16 a.nAv && fits 16 a.nFb && fits 16 a.nIns && fits 16 a.nInsNeg && fits 32 a.vSum

/-- Table 2.9. -/
def GroupSum.wf (g : GroupSum) : Bool :=
  g.a.wf && fits 16 g.binBase && fits 8 g.binShift && fits 48 g.swSum && fits 32 g.swMin && fits 32 g.swMax
    && g.histC.length == 64 && g.histD.length == 64 && g.histH.length == 16 && (g.histC ++ g.histD ++ g.histH).all (fits 11)

/-- A summary frame. -/
def Summary.wf : Summary → Bool
  | .group p g => fits 32 p && g.wf
  | .arms p l => fits 32 p && l.length ≤ 14 && l.all ArmSum.wf

/-- Table 6.2. -/
def Sync.wf (y : Sync) : Bool := isTs96 y.vt && fits 8 y.steps

/-- Table 6.3. -/
def PdResp.wf (p : PdResp) : Bool := fits 8 p.reqSeq && fits 64 p.t2 && fits 32 p.turn

/-- Table 6.6. -/
def ParamSet.wf (p : ParamSet) : Bool :=
  fits 64 p.kEff && isTs80 p.pEff && fits 16 p.g && fits 32 p.t && fits 32 p.l && fits 32 p.lawStart && fits 32 p.slalom && fits 64 p.deblock && fits 32 p.pseq

/-- Table 6.8. -/
def Station.wf (m : Station) : Bool := isTs80 m.vM && isTs80 m.sM && fitsI 32 m.rho && fits 8 m.quality && fitsI 16 m.utc

/-- Table 10.3. -/
def Event.wf (e : Event) : Bool :=
  fits 16 e.origin && fits 8 e.oflags && fits 8 e.kind && fits 16 e.source && fits 8 e.cls && isTs96 e.instant && fits 32 e.count && fits 32 e.data && fits 32 e.eseq

/-- Table 10.4. -/
def Events.wf (e : Events) : Bool := fits 32 e.fseq && between 1 7 e.entries.length && e.entries.all Event.wf

/-- Table 10.7. -/
def SafeStatus.wf (p : SafeStatus) : Bool := fits 32 p.sseq && fits 8 p.state && fits 32 p.check && fits 32 p.fnState && fits 32 p.degLeft

/-- Table 14.5. -/
def ObjMsg.wf (m : ObjMsg) : Bool :=
  fits 16 m.reqId && fits 8 m.op && fits 8 m.status && fits 16 m.index && fits 8 m.sub && fits 8 m.count && fits 8 m.tryN && fits 32 m.tgt
    && m.data.length ≤ 988 && areBytes m.data

/-- Table 14.6, an entry of LANE. -/
def LaneEntry.wf (e : LaneEntry) : Bool := fits 8 e.lane && fits 8 e.rate && fits 8 e.cells && fits 8 e.kind && fits 32 e.dIn && fits 32 e.dOut

/-- Table 14.7. -/
def Bulk.wf (b : Bulk) : Bool :=
  fits 16 b.xfer && fits 8 b.status && fits 16 b.region && fits 64 b.offset && fits 32 b.len && b.ranges.length ≤ 16
    && b.ranges.all (fun r => fits 64 r.1 && fits 32 r.2) && b.data.length ≤ 980 && areBytes b.data

/-- What comes with an IEEE 1588 message. -/
def PtpHdr.wf (h : PtpHdr) : Bool :=
  fits 1 h.port && fits 16 h.etype && fits 48 h.mac && (match h.vlan with | some v => fits 12 v | none => true) && fits 8 h.domain && fits 80 h.ident && fits 16 h.seq && fits 5 h.frac

/-- An Announce. -/
def Announce.wf (a : Announce) : Bool :=
  fits 8 a.prio1 && fits 8 a.cls && fits 8 a.accuracy && fits 16 a.variance && fits 8 a.prio2 && fits 64 a.gm && fits 16 a.steps && fitsI 16 a.utc

/-- Table 7.6. -/
def Digest.wf (d : Digest) : Bool :=
  fits 32 d.period && fits 16 d.claim && fits 8 d.state && fits 2 d.verdict && fits 32 d.dOut && fits 32 d.dSum && fits 32 d.dLaw && fits 32 d.dRefIn
    && fits 32 d.misses && fits 32 d.bankCrc && fits 32 d.caddyCrc && fits 32 d.caddyPeriod && fits 32 d.checkEnd

/-- Table 7.7, INPUTS. -/
def Inputs.wf (p : Inputs) : Bool := fits 32 p.period && fits 16 p.first && p.words.length ≤ 128 && p.words.all (fits 32)

/-- Table 7.7, CADDY. -/
def CaddyPart.wf (c : CaddyPart) : Bool := fits 32 c.period && fits 16 c.first && c.bytes.length ≤ 512 && areBytes c.bytes

/-- Table 9.4. -/
def Xtrig.wf (x : Xtrig) : Bool := isTs96 x.instant && fits 8 x.node && fits 7 x.source && fits 16 x.seq

/-- Table 7.10. -/
def Wiring.wf (w : Wiring) : Bool :=
  fits 8 w.node && fits 8 w.level && w.kinds.length == 64 && w.details.length == 64 && w.kinds.all (fits 2) && areBytes w.details

/-- A piste found on a downlink. -/
def FoundPiste.wf (p : FoundPiste) : Bool := p.link ≤ 63 && p.len ≤ 30 && p.cells ≤ 16 && p.cfg ≤ 16

/-- A node found by enumeration, entry k of its list: its parent stands before it (R3). -/
def FoundNode.wf (k : Nat) (n : FoundNode) : Bool :=
  (if k == 0 then n.parent == 0 else decide (n.parent < k)) && n.link ≤ 63 && (match n.link1 with | some l => l ≤ 63 | none => true)
    && (match n.num with | some x => 1 ≤ x && x ≤ 63 | none => true) && n.pistes.all FoundPiste.wf

/-- The nodes found, the apex first. -/
def foundWf (l : List FoundNode) : Bool := !l.isEmpty && (l.zipIdx.all fun e => e.1.wf e.2)

/-- A calibration result of a slice and a path. -/
def CalEntry.wf (c : CalEntry) : Bool := c.phys ≤ 4 && c.input ≤ 18 && fits 2 c.gain && fits 32 c.g && fitsI 32 c.o

/-- What a calibration found of a slice. -/
def CalCheck.wf (c : CalCheck) : Bool := c.phys ≤ 4 && fitsI 16 c.c17 && fitsI 16 c.c18

/-- A requester. -/
def Who.wf : Who → Bool
  | .jop r => fits 7 r
  | .node n _ _ => fits 6 n
  | .core _ => true

/-- Where a packet goes. -/
def HostFrom.wf (f : HostFrom) : Bool := f.port ≤ 1 && fits 32 f.ip && fits 16 f.udp && (match f.vlan with | some v => v ≤ 4094 | none => true)

/-- Table 14.9. -/
def JopAuth.wf (a : JopAuth) : Bool := a.host.wf && fits 32 a.session && fits 64 a.seq && fits 256 a.tag

/-- What a start finds: seven phases, spare arrays and slices as numbered (R385 to R390). -/
def BootIn.wf (b : BootIn) : Bool := b.ddrMiB ≤ 8192 && b.cores.all (between 0 8) && b.paths.all (fits 8) && b.slices.all (fun x => x.1 ≤ 7) && b.badCopies.all (fits 1) && b.badBlocks.all (fits 1) && fits 2 b.aux

/-- ADC codes of one conversion: sixteen bits each. -/
def codesWf (l : List Int) : Bool := l.all (fitsI 16)

end Sys2Proof.Machine

namespace Sys2Proof
open Sys2Proof.Machine

/-- A command every operand of which lies within its width or numbering. -/
def Instr.wf : Instr → Bool
  | .powerOn => true
  | .resetPin => true
  | .supplyDip => true
  | .resetRelease inp => inp.wf
  | .bootRetry inp => inp.wf
  | .refclkLoss => true
  | .refclkReturn => true
  | .enumeration nodes self link => foundWf nodes && self < nodes.length && link ≤ 63
  | .timPeriodWrite v => fits 64 v
  | .timApplyLagWrite v => fits 64 v
  | .timCmdGuardWrite v => fits 64 v
  | .timLawStartWrite v => fits 64 v
  | .balSlalomSeedWrite v => fits 64 v
  | .pMark => true
  | .cellReportLaunch => true
  | .reportRx _ link h r => link ≤ 63 && h.wf && r.wf
  | .reportClose slot => slot ≤ 5
  | .referenceRx _ lane r => lane ≤ 67 && r.wf
  | .commandLaunch slot vote => slot ≤ 5 && vote ≤ 4
  | .apportionLaunch => true
  | .summaryLaunch vote => vote ≤ 4
  | .summaryRx _ link y => link ≤ 63 && y.wf
  | .groupSummaryDeadline link => link ≤ 63
  | .nodePeriodAbandon => true
  | .commandRx _ _ c => c.wf
  | .acceptanceInstant k => fits 32 k
  | .commandExecute => true
  | .carveEnd => true
  | .gateEdge => true
  | .celOrder v => fits 64 v
  | .celClear => true
  | .celArmDeblock v => fits 64 v
  | .housekeepingSample tDie tBoard vAux aux => fits 16 tDie && fits 16 tBoard && fits 16 vAux && fits 2 aux
  | .ov1Crossing => true
  | .ov1Release => true
  | .ov2Fault => true
  | .dsatFault out => between 0 3 out
  | .bypPulseEnd => true
  | .bypConfirm => true
  | .bypConfirmWindowEnd aux => fits 2 aux
  | .bypHoldEnd => true
  | .bypUncmd aux => fits 2 aux
  | .heldTimeout => true
  | .lawEvalStart fails corrected _ => fails.all (fits 9) && fits 32 corrected
  | .lawCommit => true
  | .lawCmdValidate => true
  | .lawCmdStart => true
  | .lawCmdStop => true
  | .lawCmdSeal0 => true
  | .lawCmdSeal1 => true
  | .lawCmdClearErr => true
  | .lawBankReq v => fits 64 v
  | .lawTrcArm => true
  | .lawTrcForce => true
  | .lawTrcStop => true
  | .lnkEnableWrite n v => n ≤ 67 && fits 64 v
  | .lanePresenceLock n _ => n ≤ 67
  | .laneL0Timeout n => n ≤ 67
  | .capRx n b => n ≤ 67 && areBytes b && b.length ≤ 1024
  | .rateGoRx n b => n ≤ 67 && areBytes b && b.length ≤ 1024
  | .laneL1Timeout n => n ≤ 67
  | .laneRxLock n => n ≤ 67
  | .lockedRx n b => n ≤ 67 && areBytes b && b.length ≤ 1024
  | .laneL2Timeout n => n ≤ 67
  | .lanePrbsEnd n errors => n ≤ 67 && fits 32 errors
  | .resultRx n b => n ≤ 67 && areBytes b && b.length ≤ 1024
  | .laneL3NoResult n => n ≤ 67
  | .laneTimeLock n => n ≤ 67
  | .laneL4Timeout n => n ≤ 67
  | .retrainRx n b => n ≤ 67 && areBytes b && b.length ≤ 1024
  | .lnkCmdRetrain n => n ≤ 67
  | .lnkCmdRestoreRate n => n ≤ 67
  | .lnkCmdClearCounters n => n ≤ 67
  | .laneLos n => n ≤ 67
  | .laneLosClear n => n ≤ 67
  | .laneLol n => n ≤ 67
  | .laneHiber n => n ≤ 67
  | .laneBackoffEnd n => n ≤ 67
  | .laneL5Stable n => n ≤ 67
  | .loopNone n => n ≤ 67
  | .loopNearPma n => n ≤ 67
  | .loopNearPcs n => n ≤ 67
  | .loopFar n => n ≤ 67
  | .loopReqRx n b => n ≤ 67 && areBytes b && b.length ≤ 1024
  | .loopAckRx n b => n ≤ 67 && areBytes b && b.length ≤ 1024
  | .loopNakRx n b => n ≤ 67 && areBytes b && b.length ≤ 1024
  | .linkStateRx n hops behind => n ≤ 67 && fits 8 hops && fits 8 behind
  | .linkStateSend n => n ≤ 67
  | .linkStateTimeout n => n ≤ 67
  | .pisteWhole k => k ≤ 63
  | .schussRx n l => n ≤ 67 && l.length ≤ 64 && l.all fun y => match y with | some b => areBytes b && (b.length == 3 || b.length == 6) | none => true
  | .schussRepeat => true
  | .frameRx n prev line => n ≤ 67 && fits 58 prev && line.length ≤ 8192 && line.all (fits 66)
  | .frameTxEnd n => n ≤ 67
  | .suspendTimeout n => n ≤ 67
  | .pcsParityError n _ => n ≤ 67
  | .routerParityError r lanes => between 0 17 r && lanes.all (between 0 67)
  | .pdelayReqSend n => n ≤ 67
  | .pdelayReqRx n seq frac turn => n ≤ 67 && fits 8 seq && between 0 31 frac && fits 32 turn
  | .pdelayRespRx n frac p => n ≤ 67 && between 0 31 frac && p.wf
  | .syncSend => true
  | .syncRx n frac y => n ≤ 67 && between 0 31 frac && y.wf
  | .syncTimeout _ => true
  | .lineageReturn => true
  | .apexPeerWait => true
  | .peerSyncLoss => true
  | .refHoldoverEnd => true
  | .paramSend => true
  | .paramRx n p => n ≤ 67 && p.wf
  | .stationSend => true
  | .stationRx m => m.wf
  | .stationStale => true
  | .ptpSyncRx h _ origin corr => h.wf && isTs80 origin && fitsI 64 corr
  | .ptpFollowUpRx h origin corr => h.wf && isTs80 origin && fitsI 64 corr
  | .ptpAnnounceRx h a => h.wf && a.wf
  | .ptpPdelayReqSend port => fits 1 port
  | .ptpPdelayReqRx h => h.wf
  | .ptpPdelayRespRx h t2 t3 corr => h.wf && isTs80 t2 && isTs80 t3 && fitsI 64 corr
  | .ptpAnnounceTimeout => true
  | .stSlewEnd => true
  | .stHoldLimit => true
  | .syntonise => true
  | .stAllowStep => true
  | .stRestart => true
  | .stSetLocked => true
  | .stClearLocked => true
  | .timStAdjust v => fitsI 64 v
  | .timStInc v => fits 64 v
  | .timAsym n v => n ≤ 67 && fitsI 32 v
  | .redCmdReturn => true
  | .redCmdRestore => true
  | .redCmdDemote => true
  | .redCmdClearCounters => true
  | .claimNoticeSend => true
  | .redParentClaim src _ claim kx => fits 6 src && fits 16 claim && fits 64 kx
  | .noticeTimeout => true
  | .healthUpdate => true
  | .revertHoldExpiry => true
  | .digestLaunch => true
  | .digestRx d => d.wf
  | .digestDeadline => true
  | .checkWindowEnd => true
  | .checkVerdictTimeout => true
  | .inputsSend => true
  | .inputsRx p => p.wf
  | .caddySend => true
  | .caddyRx c => c.wf
  | .redCaddyList n v => n ≤ 127 && fits 64 v
  | .wiringSend => true
  | .wiringRx w => w.wf
  | .adcConversionEnd slice cs shadow _ => slice ≤ 3 && codesWf cs && codesWf shadow
  | .adcRunEnd q => q ≤ 3
  | .adcSeqTimer q => q ≤ 3
  | .adcSeqStart q => q ≤ 3
  | .adcSeqStop q => q ≤ 3
  | .adcSeqTrig q v => q ≤ 3 && fits 64 v
  | .adcHoldReserve => true
  | .adcHoldRound => true
  | .adcPrioReq v => fits 64 v
  | .adcInputChange n => n ≤ 15
  | .adcSettlingEnd n => n ≤ 15
  | .adcPairWrite p v => p ≤ 7 && fits 64 v
  | .openWireTestStart n => n ≤ 15
  | .openWireTestConvert n => n ≤ 15
  | .comparatorTrip n code stood => n ≤ 15 && fitsI 16 code && fits 32 stood
  | .adcCalibrationEnd l checks => l.all CalEntry.wf && checks.all CalCheck.wf
  | .adcCmdCalibrate => true
  | .adcCmdClearCounters => true
  | .adcSwapDue l => l ≤ 3
  | .adcSliceRecalEnd l check => l.all CalEntry.wf && check.wf
  | .acqCmdArm => true
  | .acqCmdStop => true
  | .acqCmdForce => true
  | .acqCmdClearCounters => true
  | .acqRow => true
  | .patternTrigger => true
  | .xtrigRx n x => n ≤ 67 && x.wf
  | .xtrigInstantDue => true
  | .acqRecLock v => fits 64 v
  | .acqRecRelease v => fits 64 v
  | .acqMemWrite item v => item ≤ 2 && fits 64 v
  | .ddrOutOfService => true
  | .kettleSourceRise n data => n ≤ 255 && fits 32 data
  | .kettleSourceFall n => n ≤ 255
  | .kettleBrokenPath n _ => n ≤ 255
  | .kettleEscalateTime n => n ≤ 255
  | .ketClear v => fits 64 v
  | .ketCmdClearCounters => true
  | .kettleTokenRefill n => n ≤ 255
  | .eventsFrameSend => true
  | .eventsRx src _ e => fits 16 src && e.wf
  | .ketQPop v => fits 64 v
  | .safChannelChange => true
  | .safDiscrepancyTime f => f ≤ 7
  | .safCommission _ => true
  | .safConfirm _ => true
  | .safAbort _ => true
  | .safRelease _ => true
  | .safResetFn _ f => fits 8 f
  | .safDegradedExpiry => true
  | .safDegradedRecover => true
  | .safeStatusSend => true
  | .safeStatusRx p => p.wf
  | .safPeerTimeout => true
  | .safStateReport => true
  | .safNodeSilent n => n ≤ 63
  | .taskEnable n => n ≤ 255
  | .taskDisable n => n ≤ 255
  | .taskSignal n => fits 8 n
  | .tskCmdClearCounters => true
  | .taskDone c => between 0 8 c
  | .taskDelay c n => between 0 8 c && fits 32 n
  | .portSignal c v => between 0 8 c && fits 32 v
  | .winStatus c v => between 0 8 c && fits 32 v
  | .objectWindowAccess c a size v => between 0 8 c && fits 32 a && (size == 1 || size == 2 || size == 4) && (match v with | some y => fits 32 y | none => true)
  | .periodRelease n => n ≤ 255
  | .dispatcherTick => true
  | .taskDeadline n => n ≤ 255
  | .taskFault c _ => between 0 8 c
  | .tskTick v => fits 64 v
  | .dmaStart c _ => c ≤ 15
  | .dmaPause c moved _ => c ≤ 15 && fits 32 moved
  | .dmaResume c _ => c ≤ 15
  | .dmaSkip c _ => c ≤ 15
  | .dmaAbort c moved _ => c ≤ 15 && fits 32 moved
  | .dmaGcmdClearCounters => true
  | .dmaDescriptorFetch c _ => c ≤ 15
  | .dmaDescriptorDone c ecc => c ≤ 15 && (match ecc with | some y => fits 32 y | none => true)
  | .dmaPdWaitExpiry moved => fits 32 moved
  | .fioDownFrame => true
  | .islandDownFrameRx _ => true
  | .mainFrameRx w => fits 512 w
  | .mainFrameDeadline => true
  | .fastFrameRx w => fits 512 w
  | .islandSilence => true
  | .fieldVlLow => true
  | .diComparatorChange n _ => n ≤ 15
  | .strainerSettle n => n ≤ 15
  | .doShort n => n ≤ 15
  | .doRetryEnd n => n ≤ 15
  | .doOvertemp n => n ≤ 15
  | .doOvertempCooled n => n ≤ 15
  | .doOpen n _ => n ≤ 15
  | .fieldSupplyMeasure _ => true
  | .fieldSupplyCondition => true
  | .encoderEdge e _ _ => fits 1 e
  | .encoderZEdge e _ => fits 1 e
  | .islandPmarkLatch => true
  | .ssiTransferStart _ => true
  | .ssiTransferEnd bits _ => fits 64 bits
  | .probeEdge p _ => fits 1 p
  | .fioClearFaults => true
  | .fioCmdClearCounters => true
  | .posClearErr e => fits 1 e
  | .posArmZ e => fits 1 e
  | .prbArm p => fits 1 p
  | .fioDoPair v => fits 64 v
  | .objReqRead h m => h.wf && m.wf
  | .objReqWrite h m => h.wf && m.wf
  | .objReqNotice h m => h.wf && m.wf
  | .objReqAttest h m => h.wf && m.wf
  | .objRespRx m => m.wf
  | .remoteTimeout id => fits 16 id
  | .laneReportSend => true
  | .reportLaneRx node l => fits 6 node && l.all LaneEntry.wf
  | .reportWiringRx node diff => fits 6 node && fits 64 diff
  | .reportSafStateRx n state _ stored => fits 6 n && fits 8 state && fits 32 stored
  | .reportReleaseRx rseq => fits 32 rseq
  | .treeRemRead => true
  | .treeRemWrite => true
  | .readReqRx h b => h.wf && b.wf
  | .bulkDataRx h b => h.wf && b.wf
  | .bulkAckRx h b => h.wf && b.wf
  | .bulkEndRx h b => h.wf && b.wf
  | .arpRx port ip vlan => port ≤ 1 && fits 32 ip && (match vlan with | some y => y ≤ 4094 | none => true)
  | .icmpEchoRx f data => f.wf && areBytes data
  | .jopDiscover f seq => f.wf && fits 64 seq
  | .jopOpen f seq slot nh qh ql => f.wf && fits 64 seq && fits 8 slot && bytesOf 32 nh && fits 520 qh && fits 520 ql
  | .jopConfirm a sigH => a.wf && fits 512 sigH
  | .jopClose a => a.wf
  | .jopRead a tgt index sub count => a.wf && fits 32 tgt && fits 16 index && fits 8 sub && fits 8 count
  | .jopWrite a tgt index sub count data => a.wf && fits 32 tgt && fits 16 index && fits 8 sub && fits 8 count && areBytes data
  | .jopEventRead a n => a.wf && fits 8 n
  | .jopEventAck a n origin eseq => a.wf && fits 8 n && fits 16 origin && fits 32 eseq
  | .jopBulkRead a tgt region off len => a.wf && fits 32 tgt && fits 16 region && fits 64 off && fits 32 len
  | .jopBulkWrite a tgt region off data => a.wf && fits 32 tgt && fits 16 region && fits 64 off && areBytes data
  | .jopCoreMsg a data => a.wf && areBytes data
  | .jopAttest a tgt nonce => a.wf && fits 32 tgt && bytesOf 32 nonce
  | .jopOpenExpiry id => fits 32 id
  | .sessionIdleTimeout id => fits 32 id
  | .authRateEnd => true
  | .sysCoreMsgLen v => fits 64 v
  | .nvmStore => true
  | .nvmStoreDone _ => true
  | .nvmRestoreDefaults => true
  | .nvmVerify => true
  | .nvmActivate => true
  | .nvmCommit => true
  | .nvmDistribute => true
  | .slotEraseDone _ => true
  | .secInstallHost _ slot => fits 8 slot
  | .secRemoveHost _ slot => fits 8 slot
  | .secInstallImageKey _ => true
  | .secDisown _ => true
  | .sysCmdReset => true
  | .scrubPass _ _ => true
  | .sysShelf => true
  | .sysDdrOff => true
  | .sysDdrOn => true
  | .sysCaptureOff => true
  | .sysCaptureOn => true
  | .sysWake => true
  | .tamperEvent kind _ => fits 8 kind
  | .sysTamperAck v => fits 64 v
  | .overtempReading _ => true
  | .jtagExtest _ _ => true
  | .jtagSamplePreload _ _ => true
  | .jtagIdcode => true
  | .jtagHighz => true
  | .jtagClamp => true
  | .jtagBypass code => fits 5 code
  | .objectWrite w index sub v => w.wf && fits 16 index && fits 8 sub && fits 64 v
  | .presenceRx n _ => n ≤ 67
  | .capSend n => n ≤ 67
  | .lockedSend n => n ≤ 67
  | .releaseRepeat => true
  | .coreCheckFailure c => between 0 8 c
  | .islandPowerUp => true
  | .onDeckLookAhead n => n ≤ 255
  | .ddrBackInService => true
  | .jtagReset => true
  | .jopDatagramMalformed => true

end Sys2Proof
end

