-- ==== Sys2Proof/Tests/Slice0.lean ====
section
/-! SUPPORT. The model's own tests: ill-formed commands refused (test_ill_formed_…), worked examples of the spec and single steps (test_…), and for each statement with hypotheses states and operands that meet them, clause by clause (witness_…). -/
set_option maxRecDepth 20000
set_option exponentiation.threshold 600
namespace Sys2Proof.Tests
open Sys2Proof.Machine
/-- A host of the first port. -/
def host0 : HostFrom := { port := 0, addr := 5, ip := 0xC0A80A40, udp := 47600, vlan := none }
/-- A datagram of session 1 with SEQ 1 and the TAG of key 11. -/
def auth (op : Nat) (body : List Nat) : JopAuth := { host := host0, session := 1, seq := 1, tag := hmac 11 (dgramBytes true 1 1 op 0 0 body) }
/-- A support lemma for the witnesses below: auth valid. -/
theorem auth_valid (op : Nat) (body : List Nat) (x : Session) (s : State)
    (h : toJop host0 s = true ∧ body.length ≤ 1408 ∧ session? 1 s = some x ∧ x.keyHd = 11 ∧ x.fresh 1 = true ∧ (rd O.SYS_RECOVERY s = 0 ∨ romServes op = true)) :
    ValidRequest (auth op body) op body x s := by
  refine ⟨h.1, h.2.1, h.2.2.1, ?_, h.2.2.2.2.1, h.2.2.2.2.2⟩
  rw [h.2.2.2.1]; exact beq_self_eq_true _
/-- A state after reset release with straps p: every object at its default. -/
def released (p : Straps) : State := { State.reset with straps := p, sys := { State.reset.sys with held := false } }
/-- A cell. -/
def cell : State := released { Straps.low with node := false }
/-- A node that is no apex. -/
def node : State := released { Straps.low with node := true }
/-- An apex. -/
def apex : State := released { Straps.low with node := true, hosten := true }
/-- A parameter set with the defaults of chapter 6. -/
def P0 : ParamSet := { kEff := 0, pEff := 0, g := 100, t := 4000, l := 3200, lawStart := 400, slalom := 0, deblock := 0, pseq := 1 }
/-- A smallest value of etSrv. -/
def setSrv (b : Bool) (f : Servo → Servo) (s : State) : State := if b then { s with tim := { s.tim with srvB := f s.tim.srvB } } else { s with tim := { s.tim with srvA := f s.tim.srvA } }
/-- The state with a parameter set in force. -/
def grid (s : State) : State := { s with tim := { s.tim with inForce := some P0 } }
/-- The state with arm 0 deblocked by the set in force. -/
def deb (s : State) : State := { s with tim := { s.tim with inForce := some { P0 with deblock := 1 } } }
/-- A task that has started at tick 0. -/
def rec0 (n : Nat) : TaskRec := { n := n, rel := 0, entry := 0, stack := 0, wake := none, buf := [], nextTick := none, lastK := none }
/-- The work of period 0. -/
def wk0 : PeriodWork := PeriodWork.init 0 5 0x1000 []
/-- A smallest value of BootIn. -/
def dBootIn : BootIn := { straps := { node := false, hosten := false, sideB := false, bootsel := false, testEn := false }, unstable := false, ddrMiB := 0, badBlocks := [], paths := [], cores := [], rows := [], cols := [], spareRows := [], spareCols := [], vital := [], slices := [], badCopies := [], aux := 0, vbatLost := false, oscStop := false, aonTime := 0, phaseUs := [] }
/-- A smallest value of Report. -/
def dReport : Report := { period := 0, vKey := 0, vChk := 0, avail := false, maskOk := false, fb := false, insPrev := 0, carvePrev := false, shortfall := false, latePrev := false, w := 0, cellState := 0, swHi := 0, cellIndex := 0, claimSeen := 0, status := { tDie := 0, tBoard := 0, vAux := 0, lateCount := 0, faults := 0, tc := 0, ov1 := 0, dsat := 0, coil := false, aux1 := false, aux2 := false, u0 := false, u1 := false, onB := false } }
/-- A smallest value of Hdr. -/
def dHdr : Hdr := { cls := 0, hop := false, typ := 0, dst := 0, src := 0, dstSide := false, srcSide := false, relayed := false, dstNode := false, srcNode := false, bcast := false, seq := 0 }
/-- A smallest value of RefEntry. -/
def dRefEntry : RefEntry := { arm := 0, dir := 0, binValid := false, binShift := 0, stick := 0, m := 0, binBase := 0, wearRef := 0, wearGain := 0 }
/-- A smallest value of Reference. -/
def dReference : Reference := { period := 0, entries := [] }
/-- A smallest value of PeriodWork. -/
def dPeriodWork : PeriodWork := { k := 0, slalom := 0, claim := 0, sticks := [], heard := [], direct := [], closed := [], inputAt := 0, refs := none, refAt := 0, sel := [], sums := [], lost := [], launched := [], apportioned := false, sumSent := false, ended := false, bins := [], splitLate := [], out := [], refOut := [], sumOut := [], refIn := [] }
/-- A smallest value of Sel. -/
def dSel : Sel := { n := 0, f := 0, sat := false, kTh := 0, kCarve := 0, tCarve := 0, entry := dRefEntry, stick := 0, wearRef := 0, wearGain := 0 }
/-- A smallest value of Command. -/
def dCommand : Command := { period := 0, exec := 0, dir := 0, pol := false, carveEn := false, sat := false, stick := 0, kTh := 0, kCarve := 0, tCarve := 0, exclude := 0, slalomNext := 0, wearRef := 0, wearGain := 0, claim := 0, originNode := 0, originLink := 0, deblock := false, orders := [] }
/-- A smallest value of ArmSum. -/
def dArmSum : ArmSum := { arm := 0, sat := false, part := false, nAv := 0, nFb := 0, nIns := 0, nInsNeg := 0, vSum := 0 }
/-- A smallest value of GroupSum. -/
def dGroupSum : GroupSum := { a := dArmSum, hpol := false, hinc := false, binBase := 0, binShift := 0, swSum := 0, swMin := 0, swMax := 0, histC := [], histD := [], histH := [] }
/-- A smallest value of Summary. -/
def dSummary : Summary := Summary.group 0 dGroupSum
/-- A smallest value of LawWait. -/
def dLawWait : LawWait := { k := 0, adc := [], held := false, role := 0 }
/-- A smallest value of LawEval. -/
def dLawEval : LawEval := { k := 0, start := 0, sig := [], states := [], c0s := [], ramps := [], err := [], cycles := 0, lost := false, idle := false }
/-- A smallest value of Ladder. -/
def dLadder : Ladder := { msg := 0, ver := 0, roleNode := false, sideB := false, restore := false, lane := 0, rateMax := 0, target := 0, partnerOk := false, refReady := false, pass := false, rate := 0, errors := 0, node := 0, serial := 0 }
/-- A smallest value of LaneSt. -/
def dLaneSt : LaneSt := { entered := 0, presence := none, holdoffRx := false, cap := none, capAt := none, capSent := false, rate := none, tries := [], consecutive := 0, b := 0, backoffEnd := none, rxLocked := false, partnerLocked := false, ownPass := none, partnerPass := none, everL5 := false, q := [], cur := none, susp := [], wait := [], out := [], sent := [], rx := none, rxSusp := [], code := (0, 0), lsAt := none, hops := 0, behind := 0, knownAt := none, lsSaid := none, loopPartner := false, loopAt := 0, loopLeave := none }
/-- A smallest value of Frame. -/
def dFrame : Frame := { hdr := dHdr, len := 0, pay := Pay.report dReport }
/-- A smallest value of TxItem. -/
def dTxItem : TxItem := { cls := 0, len := 0, reserve := false, ahead := false, born := 0, body := TxBody.own dFrame false }
/-- A smallest value of PdResp. -/
def dPdResp : PdResp := { reqSeq := 0, t2 := 0, turn := 0 }
/-- A smallest value of Station. -/
def dStation : Station := { vM := 0, sM := 0, rho := 0, quality := 0, utc := 0 }
/-- A smallest value of Sync. -/
def dSync : Sync := { vt := 0, steps := 0, valid := false, lineageB := false }
/-- A smallest value of Announce. -/
def dAnnounce : Announce := { prio1 := 0, cls := 0, accuracy := 0, variance := 0, prio2 := 0, gm := 0, steps := 0, utc := 0, utcValid := false }
/-- A smallest value of Digest. -/
def dDigest : Digest := { period := 0, claim := 0, state := 0, abandoned := false, ownInputs := false, inDisc := false, checking := false, verdict := 0, primaryB := false, inStep := false, dOut := 0, dSum := 0, dLaw := 0, dRefIn := 0, misses := 0, bankCrc := 0, caddyCrc := 0, caddyPeriod := 0, checkEnd := 0 }
/-- A smallest value of CheckSt. -/
def dCheckSt : CheckSt := { start := 0, last := 0, follower := false, fails := [], misses0 := 0, misses := 0, sent := false }
/-- A smallest value of CaddyPart. -/
def dCaddyPart : CaddyPart := { period := 0, first := 0, bytes := [] }
/-- A smallest value of Wiring. -/
def dWiring : Wiring := { node := 0, level := 0, kinds := [], details := [] }
/-- A smallest value of AdcConv. -/
def dAdcConv : AdcConv := { slice := 0, phys := 0, input := 0, use := AdcUse.entry 0 0 0, start := 0, n := 0, sample := 0, held := false, shadow := none, gains := [], opn := false }
/-- A smallest value of CalCheck. -/
def dCalCheck : CalCheck := { phys := 0, pass := false, c17 := 0, c18 := 0 }
/-- A smallest value of Xtrig. -/
def dXtrig : Xtrig := { instant := 0, node := 0, sideB := false, source := 0, seq := 0 }
/-- A smallest value of Event. -/
def dEvent : Event := { origin := 0, oflags := 0, kind := 0, source := 0, cls := 0, instant := 0, count := 0, data := 0, eseq := 0 }
/-- A smallest value of TaskRec. -/
def dTaskRec : TaskRec := { n := 0, rel := 0, entry := 0, stack := 0, wake := none, buf := [], nextTick := none, lastK := none }
/-- A smallest value of DmaDesc. -/
def dDmaDesc : DmaDesc := { addr := 0, op := 0, swap := 0, barrier := false, evt := false, wb := false, stopDiff := false, src := [], dst := [], pattern := [], snap := none }
/-- A smallest value of ObjMsg. -/
def dObjMsg : ObjMsg := { reqId := 0, op := 0, status := 0, index := 0, sub := 0, count := 0, tryN := 0, proxy := false, commission := false, tgt := 0, data := [] }
/-- A smallest value of RemReq. -/
def dRemReq : RemReq := { by_ := ReqBy.core, node := 0, side := false, cell := none, msg := dObjMsg, sentAt := 0, wait := 0, left := 0 }
/-- A smallest value of Bulk. -/
def dBulk : Bulk := { typ := 0, xfer := 0, status := 0, region := 0, offset := 0, len := 0, ranges := [], data := [] }
/-- A smallest value of InXfer. -/
def dInXfer : InXfer := { src := 0, srcSide := false, srcNode := false, id := 0, region := 0, got := [], read := none, offset := 0, len := 0, data := [], round := 0 }
/-- A smallest value of OutXfer. -/
def dOutXfer : OutXfer := { id := 0, dst := 0, side := false, dstNode := false, bcast := false, lane := 0, region := 0, todo := [], offset := 0, len := 0, ended := false, status := 0, round := 0, why := OutWhy.answer, data := [] }
/-- A smallest value of HostFrom. -/
def dHostFrom : HostFrom := { port := 0, addr := 0, ip := 0, udp := 0, vlan := none }
/-- A smallest value of JopAuth. -/
def dJopAuth : JopAuth := { host := dHostFrom, session := 0, seq := 0, tag := 0 }
/-- A smallest value of OpenSt. -/
def dOpenSt : OpenSt := { id := 0, slot := 0, ql := 0, t := [], sigD := 0, keyHd := 0, keyDh := 0, at_ := 0 }
/-- A smallest value of Session. -/
def dSession : Session := { id := 0, rights := 0, keyHd := 0, keyDh := 0, top := 0, seen := [], sent := 0, latest := [], replies := [], waiting := [], last := 0 }
/-- A smallest value of StoreCopy. -/
def dStoreCopy : StoreCopy := { gen := 0, good := false, straps := { node := false, hosten := false, sideB := false, bootsel := false, testEn := false }, vals := [] }
/-- A smallest value of TreeNode. -/
def dTreeNode : TreeNode := { num := 0, parent := 0, link := 0, link1 := none, dist := 0, pistes := [] }
/-- A smallest value of ParamSet. -/
def dParamSet : ParamSet := { kEff := 0, pEff := 0, g := 0, t := 0, l := 0, lawStart := 0, slalom := 0, deblock := 0, pseq := 0 }
/-- A smallest value of TamperEntry. -/
def dTamperEntry : TamperEntry := { kind := 0, time := 0 }
/-- A smallest value of Accepted. -/
def dAccepted : Accepted := { k := 0, cmd := dCommand, dec := Decision.bypass, streamB := false }
/-- A smallest value of ClassMap. -/
def dClassMap : ClassMap := { cls := 0, map := [], spares := [] }
/-- A smallest value of RxFrame. -/
def dRxFrame : RxFrame := { cls := 0, bytes := [], born := 0 }
/-- A smallest value of PtpHdr. -/
def dPtpHdr : PtpHdr := { port := 0, etype := 0, mac := 0, vlan := none, domain := 0, ident := 0, seq := 0, frac := 0 }
/-- A smallest value of AdcRun. -/
def dAdcRun : AdcRun := { num := 0, todo := [], out := [], stopped := false, stamp := none, period := none, ready := 0 }
/-- A smallest value of Reply. -/
def dReply : Reply := { port := 0, addr := 0, auth := false, session := 0, seq := 0, op := 0, status := 0, echo := 0, body := [], tag := 0 }
/-- A smallest value of ObjRow. -/
def dObjRow : ObjRow := { i0 := 0, i1 := 0, s0 := 0, s1 := 0, ty := Ty.bool, acc := Acc.ro, dflt := 0, rng := Rng.any, place := Place.all }

/-- An open session request. -/
def open1 : OpenSt := { id := 1, slot := 7, ql := 0, t := [1], sigD := 2, keyHd := 11, keyDh := 12, at_ := 5 }
/-- An apex with that request. -/
def opened : State := { apex with jop := { apex.jop with opens := [open1] } }
/-- An apex with one session. -/
def inSession (x : Session) : State := { apex with jop := { apex.jop with sessions := [x] } }
/-- A node whose active law bank is 1. -/
def bank1 : State := wr O.LAW_ACTIVE_BANK 1 node
/-- A support lemma for the witnesses below: coef zero. -/
theorem coef_zero (b c : Nat) (p : Straps) (hb : b < 2) (hc : c < 4096) : objDefault p (O.LAW_COEF b c) = 0 := by
  have h0 : O.LAW_COEF b c = (0x5800 + b * 0x20 + c / 128) * 256 + (1 + c % 128) := by unfold O.LAW_COEF; omega
  generalize hk : O.LAW_COEF b c = k at h0
  have h1 : k / 256 = 0x5800 + b * 0x20 + c / 128 := by omega
  have h2 : k % 256 = 1 + c % 128 := by omega
  have h3 : k / 256 / 4096 = 5 := by omega
  have h4 : k / 256 / 256 = 88 := by omega
  have h6 : objRow? k = some ⟨0x5800, 0x583f, 0x1, 0x80, .f32, .rws, 0x0, .finite, .node⟩ := by
    have h5 : ObjRow.covers ⟨0x5800, 0x583f, 0x1, 0x80, .f32, .rws, 0x0, .finite, .node⟩ (k / 256) (k % 256) = true := by
      simp only [ObjRow.covers, Bool.and_eq_true, decide_eq_true_eq]; omega
    simp only [objRow?, objRowsOf, h3, h4, objRowsX58, objRowsX58p0, List.find?, h5]
  have n1 : (k == 0xE00001) = false := beq_false_of_ne (by omega)
  have n2 : (k == 0x101002) = false := beq_false_of_ne (by omega)
  have n3 : (k == 0xD01001) = false := beq_false_of_ne (by omega)
  have n4 : (k == 0x80000B) = false := beq_false_of_ne (by omega)
  have m : ∀ i : Nat, i < 0x5800 ∨ 0x5840 ≤ i → (k / 256 == i) = false := fun i hi => beq_false_of_ne (by omega)
  have m2 : (decide (0x9110 ≤ k / 256) && decide (k / 256 ≤ 0x9111)) = false := by simp only [Bool.and_eq_false_iff, decide_eq_false_iff_not]; omega
  have m3 : (decide (0xA106 ≤ k / 256) && decide (k / 256 ≤ 0xA107)) = false := by simp only [Bool.and_eq_false_iff, decide_eq_false_iff_not]; omega
  have c1 : cellAdc.find? (fun e => e.1 == k) = none := by
    rw [List.find?_eq_none]; intro x hx; simp only [cellAdc, List.mem_cons, List.not_mem_nil, or_false] at hx
    rcases hx with rfl | rfl | rfl | rfl | rfl | rfl | rfl | rfl | rfl | rfl | rfl | rfl | rfl <;> simp <;> omega
  simp [objDefault, h6, n1, n2, n3, n4, m 0x4020, m 0x6020, m 0x2010, m 0x2020, m 0x1110, m 0x1120, m2, m3, c1]
/-- A support lemma for the witnesses below: coef node. -/
theorem coef_node (b c : Nat) (hb : b < 2) (hc : c < 4096) (s : State) (hs : s = node ∨ s = bank1) : coefAt b c s = 0 := by
  have h : coefAt b c node = 0 := coef_zero b c _ hb hc
  rcases hs with rfl | rfl
  · exact h
  · have e : coefAt b c bank1 = coefAt b c node := rd_wr_ne (by unfold O.LAW_COEF O.LAW_ACTIVE_BANK; omega) _ _
    rw [e, h]
/-- A support lemma for the witnesses below: seal ok. -/
theorem seal_ok (b : Nat) (s : State) (hb : b < 2) (hs : s = node ∨ s = bank1) (h1 : rd O.LAW_ACTIVE_BANK s ≠ b)
    (h2 : (List.range 8).any (fun i => !ffinite fmt32 (rd (O.LAW_SCH_BP b i) s)) = false) (h3 : rd (O.LAW_SCH_POINTS b) s ≤ 1 ∧ rd (O.LAW_SCH_COUNT b) s = 0) :
    sealRefused b s = false := by
  have ht : schTargets b s = [] := by simp only [schTargets, h3.2]; rfl
  have hc : (List.range 4096).any (fun c => !ffinite fmt32 (coefAt b c s)) = false := by
    rw [List.any_eq_false]; intro c hc
    rw [coef_node b c hb (List.mem_range.mp hc) s hs]; decide
  have hn : rd (O.LAW_SCH_POINTS b) s - 1 = 0 := by omega
  simp [sealRefused, ht, hc, h2, hn, h1]
/-- The state with a value in SAF_CHECK_CONFIRM. -/
def confirmed (v : Nat) (s : State) : State := { s with saf := { s.saf with confirmVal := v } }
/-- A support lemma for the witnesses below: safCheck confirmed. -/
theorem safCheck_confirmed (v : Nat) (s : State) : safCheck (confirmed v s) = safCheck s := rfl
/-- A support lemma for the witnesses below: confirmed differs. -/
theorem confirmed_differs (s : State) : (confirmed (safCheck s + 1) s).saf.confirmVal ≠ safCheck (confirmed (safCheck s + 1) s) := by
  rw [safCheck_confirmed]; exact Nat.succ_ne_self _
/-- A support lemma for the witnesses below: confirmed agrees. -/
theorem confirmed_agrees (s : State) : (confirmed (safCheck s) s).saf.confirmVal = safCheck (confirmed (safCheck s) s) := (safCheck_confirmed _ s).symm
/-- A node in COMMISSIONING. -/
def commissioning : State := wr O.SAF_STATE 1 node

/-- A support lemma for the witnesses below: jop close. -/
theorem jop_close (a : JopAuth) : JopCmd a 4 [] (.jopClose a) := .inr (.inl ⟨rfl, rfl, rfl⟩)
/-- A support lemma for the witnesses below: jop core. -/
theorem jop_core (a : JopAuth) (d : List Nat) : JopCmd a 0x40 (beBytes 2 d.length ++ d) (.jopCoreMsg a d) :=
  .inr (.inr (.inr (.inr (.inr (.inr (.inr (.inr (.inl ⟨d, rfl, rfl, rfl⟩))))))))
/-- A support lemma for the witnesses below: jop event. -/
theorem jop_event (a : JopAuth) (n : Nat) : JopCmd a 0x20 [low 8 n] (.jopEventRead a n) := .inr (.inr (.inr (.inr (.inl ⟨n, rfl, rfl, rfl⟩))))

/-- A smallest value of Command. -/
def wCommand : Command := { dCommand with orders := List.replicate 16 0 }
/-- A smallest value of Wiring. -/
def wWiring : Wiring := { node := 0, level := 0, kinds := List.replicate 64 0, details := List.replicate 64 0 }
/-- A smallest value of Events. -/
def wEvents : Events := { fseq := 0, entries := [dEvent] }
/-- A smallest value of Safe. -/
def wSafe : SafeStatus := { sseq := 0, state := 0, blockHeld := false, urgentHeld := false, check := 0, fnState := 0, degLeft := 0 }
/-- A smallest value of Inputs. -/
def wInputs : Inputs := { period := 0, first := 0, words := [] }
/-- A smallest value of Cal. -/
def wCal : CalEntry := { phys := 0, input := 0, gain := 0, g := 0, o := 0 }
/-- A smallest value of Lane. -/
def wLane : LaneEntry := { lane := 0, rate := 0, cells := 0, kind := 0, dIn := 0, dOut := 0 }
/-- A smallest value of Piste. -/
def wPiste : FoundPiste := { link := 0, len := 16, whole := true, cells := 16, cfg := 0 }
/-- A smallest value of Node. -/
def wNode : FoundNode := { num := none, parent := 0, link := 0, link1 := none, hosten := true, pistes := [] }
/-- A smallest value of Group. -/
def wGroup : GroupSum := { dGroupSum with histC := List.replicate 64 0, histD := List.replicate 64 0, histH := List.replicate 16 0 }
/-- A smallest value of Summary. -/
def wSummary : Summary := .group 0 wGroup

/-- One well-formed command for each row with operands to check: its neighbours below differ in one operand. -/
theorem test_well_formed_commands_0 : (
    [.resetRelease dBootIn, .bootRetry dBootIn, .enumeration [wNode] 0 0, .timPeriodWrite 0, .timApplyLagWrite 0, .timCmdGuardWrite 0, .timLawStartWrite 0,
     .balSlalomSeedWrite 0, .reportRx false 0 dHdr dReport, .reportClose 0, .referenceRx false 0 dReference, .commandLaunch 0 0, .summaryLaunch 0,
     .summaryRx false 0 wSummary, .groupSummaryDeadline 0, .commandRx false false wCommand, .acceptanceInstant 0, .celOrder 0, .celArmDeblock 0,
     .housekeepingSample 0 0 0 0, .dsatFault 0, .bypConfirmWindowEnd 0, .bypUncmd 0, .lawEvalStart [] 0 false, .lawBankReq 0, .lnkEnableWrite 0 0,
     .lanePresenceLock 0 false, .laneL0Timeout 0, .capRx 0 [], .rateGoRx 0 [], .laneL1Timeout 0, .laneRxLock 0, .lockedRx 0 [], .laneL2Timeout 0, .lanePrbsEnd 0 0,
     .resultRx 0 [], .laneL3NoResult 0, .laneTimeLock 0, .laneL4Timeout 0, .retrainRx 0 [], .lnkCmdRetrain 0, .lnkCmdRestoreRate 0, .lnkCmdClearCounters 0, .laneLos 0,
     .laneLosClear 0, .laneLol 0, .laneHiber 0, .laneBackoffEnd 0, .laneL5Stable 0, .loopNone 0, .loopNearPma 0, .loopNearPcs 0, .loopFar 0, .loopReqRx 0 [],
     .loopAckRx 0 [], .loopNakRx 0 [], .linkStateRx 0 0 0, .linkStateSend 0, .linkStateTimeout 0, .pisteWhole 0, .schussRx 0 [], .frameRx 0 0 [], .frameTxEnd 0,
     .suspendTimeout 0, .pcsParityError 0 false, .routerParityError 0 [], .pdelayReqSend 0, .pdelayReqRx 0 0 0 0, .pdelayRespRx 0 0 dPdResp, .syncRx 0 0 dSync] : List Instr).all (fun x => x.wf) = true := by decide

/-- One well-formed command for each row with operands to check: its neighbours below differ in one operand. -/
theorem test_well_formed_commands_1 : (
    [.paramRx 0 dParamSet, .stationRx dStation, .ptpSyncRx dPtpHdr false 0 0, .ptpFollowUpRx dPtpHdr 0 0, .ptpAnnounceRx dPtpHdr dAnnounce, .ptpPdelayReqSend 0,
     .ptpPdelayReqRx dPtpHdr, .ptpPdelayRespRx dPtpHdr 0 0 0, .timStAdjust 0, .timStInc 0, .timAsym 0 0, .redParentClaim 0 false 0 0, .digestRx dDigest,
     .inputsRx wInputs, .caddyRx dCaddyPart, .redCaddyList 0 0, .wiringRx wWiring, .adcConversionEnd 0 [] [] false, .adcRunEnd 0, .adcSeqTimer 0, .adcSeqStart 0,
     .adcSeqStop 0, .adcSeqTrig 0 0, .adcPrioReq 0, .adcInputChange 0, .adcSettlingEnd 0, .adcPairWrite 0 0, .openWireTestStart 0, .openWireTestConvert 0,
     .comparatorTrip 0 0 0, .adcCalibrationEnd [] [], .adcSwapDue 0, .adcSliceRecalEnd [] dCalCheck, .xtrigRx 0 dXtrig, .acqRecLock 0, .acqRecRelease 0,
     .acqMemWrite 0 0, .kettleSourceRise 0 0, .kettleSourceFall 0, .kettleBrokenPath 0 false, .kettleEscalateTime 0, .ketClear 0, .kettleTokenRefill 0,
     .eventsRx 0 false wEvents, .ketQPop 0, .safDiscrepancyTime 0, .safResetFn false 0, .safeStatusRx wSafe, .safNodeSilent 0, .taskEnable 0, .taskDisable 0,
     .taskSignal 0, .taskDone 0, .taskDelay 0 0, .portSignal 0 0, .winStatus 0 0, .objectWindowAccess 0 0 1 none, .periodRelease 0, .taskDeadline 0, .taskFault 0 false,
     .tskTick 0, .dmaStart 0 false, .dmaPause 0 0 false, .dmaResume 0 false, .dmaSkip 0 false, .dmaAbort 0 0 false, .dmaDescriptorFetch 0 none,
     .dmaDescriptorDone 0 none, .dmaPdWaitExpiry 0, .mainFrameRx 0] : List Instr).all (fun x => x.wf) = true := by decide

/-- One well-formed command for each row with operands to check: its neighbours below differ in one operand. -/
theorem test_well_formed_commands_2 : (
    [.fastFrameRx 0, .diComparatorChange 0 0, .strainerSettle 0, .doShort 0, .doRetryEnd 0, .doOvertemp 0, .doOvertempCooled 0, .doOpen 0 false,
     .encoderEdge 0 false false, .encoderZEdge 0 false, .ssiTransferEnd 0 false, .probeEdge 0 false, .posClearErr 0, .posArmZ 0, .prbArm 0, .fioDoPair 0,
     .objReqRead dHdr dObjMsg, .objReqWrite dHdr dObjMsg, .objReqNotice dHdr dObjMsg, .objReqAttest dHdr dObjMsg, .objRespRx dObjMsg, .remoteTimeout 0,
     .reportLaneRx 0 [], .reportWiringRx 0 0, .reportSafStateRx 0 0 false 0, .reportReleaseRx 0, .readReqRx dHdr dBulk, .bulkDataRx dHdr dBulk, .bulkAckRx dHdr dBulk,
     .bulkEndRx dHdr dBulk, .arpRx 0 0 none, .icmpEchoRx host0 [], .jopDiscover host0 0, .jopOpen host0 0 0 (List.replicate 32 0) 0 0, .jopConfirm dJopAuth 0,
     .jopClose dJopAuth, .jopRead dJopAuth 0 0 0 0, .jopWrite dJopAuth 0 0 0 0 [], .jopEventRead dJopAuth 0, .jopEventAck dJopAuth 0 0 0, .jopBulkRead dJopAuth 0 0 0 0,
     .jopBulkWrite dJopAuth 0 0 0 [], .jopCoreMsg dJopAuth [], .jopAttest dJopAuth 0 (List.replicate 32 0), .jopOpenExpiry 0, .sessionIdleTimeout 0, .sysCoreMsgLen 0,
     .secInstallHost false 0, .secRemoveHost false 0, .tamperEvent 0 0, .sysTamperAck 0, .jtagBypass 0, .objectWrite (.core false) 0 0 0, .presenceRx 0 false,
     .capSend 0, .lockedSend 0, .coreCheckFailure 0, .onDeckLookAhead 0] : List Instr).all (fun x => x.wf) = true := by decide

/-- For each check of Instr.wf a command that breaks it alone is refused. -/
theorem test_ill_formed_commands_0 : (
    [.resetRelease ({ dBootIn with aux := 4 }), .bootRetry ({ dBootIn with aux := 4 }), .enumeration [wNode] 0 64, .timPeriodWrite (2 ^ 64), .timApplyLagWrite (2 ^ 64),
     .timCmdGuardWrite (2 ^ 64), .timLawStartWrite (2 ^ 64), .balSlalomSeedWrite (2 ^ 64), .reportRx false 64 dHdr dReport,
     .reportRx false 0 ({ dHdr with cls := 8 }) dReport, .reportRx false 0 dHdr ({ dReport with insPrev := 4 }), .reportClose 6, .referenceRx false 68 dReference,
     .referenceRx false 0 ({ dReference with period := 2 ^ 32 }), .commandLaunch 6 0, .commandLaunch 0 5, .summaryLaunch 5, .summaryRx false 64 wSummary,
     .summaryRx false 0 (.arms (2 ^ 32) [] : Summary), .groupSummaryDeadline 64, .commandRx false false ({ wCommand with dir := 4 }), .acceptanceInstant (2 ^ 32),
     .celOrder (2 ^ 64), .celArmDeblock (2 ^ 64), .housekeepingSample (2 ^ 16) 0 0 0, .housekeepingSample 0 (2 ^ 16) 0 0, .housekeepingSample 0 0 (2 ^ 16) 0,
     .housekeepingSample 0 0 0 (2 ^ 2), .dsatFault 4, .bypConfirmWindowEnd (2 ^ 2), .bypUncmd (2 ^ 2), .lawEvalStart [2 ^ 9] 0 false, .lawEvalStart [] (2 ^ 32) false,
     .lawBankReq (2 ^ 64), .lnkEnableWrite 68 0, .lnkEnableWrite 0 (2 ^ 64), .lanePresenceLock 68 false, .laneL0Timeout 68, .capRx 68 [], .capRx 0 [256],
     .capRx 0 (List.replicate 1025 0), .rateGoRx 68 [], .rateGoRx 0 [256], .rateGoRx 0 (List.replicate 1025 0), .laneL1Timeout 68, .laneRxLock 68, .lockedRx 68 [],
     .lockedRx 0 [256], .lockedRx 0 (List.replicate 1025 0), .laneL2Timeout 68, .lanePrbsEnd 68 0, .lanePrbsEnd 0 (2 ^ 32), .resultRx 68 [], .resultRx 0 [256],
     .resultRx 0 (List.replicate 1025 0), .laneL3NoResult 68, .laneTimeLock 68, .laneL4Timeout 68, .retrainRx 68 [], .retrainRx 0 [256],
     .retrainRx 0 (List.replicate 1025 0), .lnkCmdRetrain 68, .lnkCmdRestoreRate 68, .lnkCmdClearCounters 68, .laneLos 68, .laneLosClear 68, .laneLol 68, .laneHiber 68,
     .laneBackoffEnd 68, .laneL5Stable 68] : List Instr).all (fun x => !x.wf) = true := by decide

/-- For each check of Instr.wf a command that breaks it alone is refused. -/
theorem test_ill_formed_commands_1 : (
    [.loopNone 68, .loopNearPma 68, .loopNearPcs 68, .loopFar 68, .loopReqRx 68 [], .loopReqRx 0 [256], .loopReqRx 0 (List.replicate 1025 0), .loopAckRx 68 [],
     .loopAckRx 0 [256], .loopAckRx 0 (List.replicate 1025 0), .loopNakRx 68 [], .loopNakRx 0 [256], .loopNakRx 0 (List.replicate 1025 0), .linkStateRx 68 0 0,
     .linkStateRx 0 (2 ^ 8) 0, .linkStateRx 0 0 (2 ^ 8), .linkStateSend 68, .linkStateTimeout 68, .pisteWhole 64, .schussRx 68 [], .schussRx 0 (List.replicate 65 none),
     .frameRx 68 0 [], .frameRx 0 (2 ^ 58) [], .frameRx 0 0 [2 ^ 66], .frameTxEnd 68, .suspendTimeout 68, .pcsParityError 68 false, .routerParityError 18 [],
     .routerParityError 0 [68], .pdelayReqSend 68, .pdelayReqRx 68 0 0 0, .pdelayReqRx 0 (2 ^ 8) 0 0, .pdelayReqRx 0 0 32 0, .pdelayReqRx 0 0 0 (2 ^ 32),
     .pdelayRespRx 68 0 dPdResp, .pdelayRespRx 0 32 dPdResp, .pdelayRespRx 0 0 ({ dPdResp with reqSeq := 256 }), .syncRx 68 0 dSync, .syncRx 0 32 dSync,
     .syncRx 0 0 ({ dSync with steps := 256 }), .paramRx 68 dParamSet, .paramRx 0 ({ dParamSet with g := 2 ^ 16 }), .stationRx ({ dStation with quality := 256 }),
     .ptpSyncRx ({ dPtpHdr with port := 2 }) false 0 0, .ptpSyncRx dPtpHdr false (2 ^ 48 * 1000000000) 0, .ptpSyncRx dPtpHdr false 0 (2 ^ 63),
     .ptpSyncRx dPtpHdr false 0 (-(2 ^ 63) - 1), .ptpFollowUpRx ({ dPtpHdr with port := 2 }) 0 0, .ptpFollowUpRx dPtpHdr (2 ^ 48 * 1000000000) 0,
     .ptpFollowUpRx dPtpHdr 0 (2 ^ 63), .ptpFollowUpRx dPtpHdr 0 (-(2 ^ 63) - 1), .ptpAnnounceRx ({ dPtpHdr with port := 2 }) dAnnounce,
     .ptpAnnounceRx dPtpHdr ({ dAnnounce with cls := 256 }), .ptpPdelayReqSend (2 ^ 1), .ptpPdelayReqRx ({ dPtpHdr with port := 2 }),
     .ptpPdelayRespRx ({ dPtpHdr with port := 2 }) 0 0 0, .ptpPdelayRespRx dPtpHdr (2 ^ 48 * 1000000000) 0 0, .ptpPdelayRespRx dPtpHdr 0 (2 ^ 48 * 1000000000) 0,
     .ptpPdelayRespRx dPtpHdr 0 0 (2 ^ 63), .ptpPdelayRespRx dPtpHdr 0 0 (-(2 ^ 63) - 1), .timStAdjust (2 ^ 63), .timStAdjust (-(2 ^ 63) - 1), .timStInc (2 ^ 64),
     .timAsym 68 0, .timAsym 0 (2 ^ 31), .timAsym 0 (-(2 ^ 31) - 1), .redParentClaim (2 ^ 6) false 0 0, .redParentClaim 0 false (2 ^ 16) 0,
     .redParentClaim 0 false 0 (2 ^ 64), .digestRx ({ dDigest with verdict := 4 })] : List Instr).all (fun x => !x.wf) = true := by decide

/-- For each check of Instr.wf a command that breaks it alone is refused. -/
theorem test_ill_formed_commands_2 : (
    [.inputsRx ({ wInputs with period := 2 ^ 32 }), .caddyRx ({ dCaddyPart with bytes := [256] }), .redCaddyList 128 0, .redCaddyList 0 (2 ^ 64),
     .wiringRx ({ wWiring with kinds := [] }), .adcConversionEnd 4 [] [] false, .adcConversionEnd 0 [32768] [] false, .adcConversionEnd 0 [] [32768] false, .adcRunEnd 4,
     .adcSeqTimer 4, .adcSeqStart 4, .adcSeqStop 4, .adcSeqTrig 4 0, .adcSeqTrig 0 (2 ^ 64), .adcPrioReq (2 ^ 64), .adcInputChange 16, .adcSettlingEnd 16,
     .adcPairWrite 8 0, .adcPairWrite 0 (2 ^ 64), .openWireTestStart 16, .openWireTestConvert 16, .comparatorTrip 16 0 0, .comparatorTrip 0 (2 ^ 15) 0,
     .comparatorTrip 0 (-(2 ^ 15) - 1) 0, .comparatorTrip 0 0 (2 ^ 32), .adcCalibrationEnd [{ wCal with phys := 5 }] [],
     .adcCalibrationEnd [] [{ dCalCheck with phys := 5 }], .adcSwapDue 4, .adcSliceRecalEnd [{ wCal with phys := 5 }] dCalCheck,
     .adcSliceRecalEnd [] ({ dCalCheck with phys := 5 }), .xtrigRx 68 dXtrig, .xtrigRx 0 ({ dXtrig with source := 128 }), .acqRecLock (2 ^ 64), .acqRecRelease (2 ^ 64),
     .acqMemWrite 3 0, .acqMemWrite 0 (2 ^ 64), .kettleSourceRise 256 0, .kettleSourceRise 0 (2 ^ 32), .kettleSourceFall 256, .kettleBrokenPath 256 false,
     .kettleEscalateTime 256, .ketClear (2 ^ 64), .kettleTokenRefill 256, .eventsRx (2 ^ 16) false wEvents, .eventsRx 0 false ({ wEvents with entries := [] }),
     .ketQPop (2 ^ 64), .safDiscrepancyTime 8, .safResetFn false (2 ^ 8), .safeStatusRx ({ wSafe with state := 256 }), .safNodeSilent 64, .taskEnable 256,
     .taskDisable 256, .taskSignal (2 ^ 8), .taskDone 9, .taskDelay 9 0, .taskDelay 0 (2 ^ 32), .portSignal 9 0, .portSignal 0 (2 ^ 32), .winStatus 9 0,
     .winStatus 0 (2 ^ 32), .objectWindowAccess 9 0 1 none, .objectWindowAccess 0 (2 ^ 32) 1 none, .objectWindowAccess 0 0 1 (some (2 ^ 32)), .periodRelease 256,
     .taskDeadline 256, .taskFault 9 false, .tskTick (2 ^ 64), .dmaStart 16 false, .dmaPause 16 0 false, .dmaPause 0 (2 ^ 32) false] : List Instr).all (fun x => !x.wf) = true := by decide

/-- For each check of Instr.wf a command that breaks it alone is refused. -/
theorem test_ill_formed_commands_3 : (
    [.dmaResume 16 false, .dmaSkip 16 false, .dmaAbort 16 0 false, .dmaAbort 0 (2 ^ 32) false, .dmaDescriptorFetch 16 none, .dmaDescriptorDone 16 none,
     .dmaDescriptorDone 0 (some (2 ^ 32)), .dmaPdWaitExpiry (2 ^ 32), .mainFrameRx (2 ^ 512), .fastFrameRx (2 ^ 512), .diComparatorChange 16 0, .strainerSettle 16,
     .doShort 16, .doRetryEnd 16, .doOvertemp 16, .doOvertempCooled 16, .doOpen 16 false, .encoderEdge (2 ^ 1) false false, .encoderZEdge (2 ^ 1) false,
     .ssiTransferEnd (2 ^ 64) false, .probeEdge (2 ^ 1) false, .posClearErr (2 ^ 1), .posArmZ (2 ^ 1), .prbArm (2 ^ 1), .fioDoPair (2 ^ 64),
     .objReqRead ({ dHdr with cls := 8 }) dObjMsg, .objReqRead dHdr ({ dObjMsg with op := 256 }), .objReqWrite ({ dHdr with cls := 8 }) dObjMsg,
     .objReqWrite dHdr ({ dObjMsg with op := 256 }), .objReqNotice ({ dHdr with cls := 8 }) dObjMsg, .objReqNotice dHdr ({ dObjMsg with op := 256 }),
     .objReqAttest ({ dHdr with cls := 8 }) dObjMsg, .objReqAttest dHdr ({ dObjMsg with op := 256 }), .objRespRx ({ dObjMsg with op := 256 }), .remoteTimeout (2 ^ 16),
     .reportLaneRx (2 ^ 6) [], .reportLaneRx 0 [{ wLane with lane := 256 }], .reportWiringRx (2 ^ 6) 0, .reportWiringRx 0 (2 ^ 64), .reportSafStateRx (2 ^ 6) 0 false 0,
     .reportSafStateRx 0 (2 ^ 8) false 0, .reportSafStateRx 0 0 false (2 ^ 32), .reportReleaseRx (2 ^ 32), .readReqRx ({ dHdr with cls := 8 }) dBulk,
     .readReqRx dHdr ({ dBulk with status := 256 }), .bulkDataRx ({ dHdr with cls := 8 }) dBulk, .bulkDataRx dHdr ({ dBulk with status := 256 }),
     .bulkAckRx ({ dHdr with cls := 8 }) dBulk, .bulkAckRx dHdr ({ dBulk with status := 256 }), .bulkEndRx ({ dHdr with cls := 8 }) dBulk,
     .bulkEndRx dHdr ({ dBulk with status := 256 }), .arpRx 2 0 none, .arpRx 0 (2 ^ 32) none, .arpRx 0 0 (some 4095), .icmpEchoRx ({ host0 with port := 2 }) [],
     .icmpEchoRx host0 [256], .jopDiscover ({ host0 with port := 2 }) 0, .jopDiscover host0 (2 ^ 64), .jopOpen ({ host0 with port := 2 }) 0 0 (List.replicate 32 0) 0 0,
     .jopOpen host0 (2 ^ 64) 0 (List.replicate 32 0) 0 0, .jopOpen host0 0 (2 ^ 8) (List.replicate 32 0) 0 0, .jopOpen host0 0 0 [] 0 0,
     .jopOpen host0 0 0 (List.replicate 32 256) 0 0, .jopOpen host0 0 0 (List.replicate 32 0) (2 ^ 520) 0, .jopOpen host0 0 0 (List.replicate 32 0) 0 (2 ^ 520),
     .jopConfirm ({ dJopAuth with session := 2 ^ 32 }) 0, .jopConfirm dJopAuth (2 ^ 512), .jopClose ({ dJopAuth with session := 2 ^ 32 }),
     .jopRead ({ dJopAuth with session := 2 ^ 32 }) 0 0 0 0, .jopRead dJopAuth (2 ^ 32) 0 0 0] : List Instr).all (fun x => !x.wf) = true := by decide

/-- For each check of Instr.wf a command that breaks it alone is refused. -/
theorem test_ill_formed_commands_4 : (
    [.jopRead dJopAuth 0 (2 ^ 16) 0 0, .jopRead dJopAuth 0 0 (2 ^ 8) 0, .jopRead dJopAuth 0 0 0 (2 ^ 8), .jopWrite ({ dJopAuth with session := 2 ^ 32 }) 0 0 0 0 [],
     .jopWrite dJopAuth (2 ^ 32) 0 0 0 [], .jopWrite dJopAuth 0 (2 ^ 16) 0 0 [], .jopWrite dJopAuth 0 0 (2 ^ 8) 0 [], .jopWrite dJopAuth 0 0 0 (2 ^ 8) [],
     .jopWrite dJopAuth 0 0 0 0 [256], .jopEventRead ({ dJopAuth with session := 2 ^ 32 }) 0, .jopEventRead dJopAuth (2 ^ 8),
     .jopEventAck ({ dJopAuth with session := 2 ^ 32 }) 0 0 0, .jopEventAck dJopAuth (2 ^ 8) 0 0, .jopEventAck dJopAuth 0 (2 ^ 16) 0, .jopEventAck dJopAuth 0 0 (2 ^ 32),
     .jopBulkRead ({ dJopAuth with session := 2 ^ 32 }) 0 0 0 0, .jopBulkRead dJopAuth (2 ^ 32) 0 0 0, .jopBulkRead dJopAuth 0 (2 ^ 16) 0 0,
     .jopBulkRead dJopAuth 0 0 (2 ^ 64) 0, .jopBulkRead dJopAuth 0 0 0 (2 ^ 32), .jopBulkWrite ({ dJopAuth with session := 2 ^ 32 }) 0 0 0 [],
     .jopBulkWrite dJopAuth (2 ^ 32) 0 0 [], .jopBulkWrite dJopAuth 0 (2 ^ 16) 0 [], .jopBulkWrite dJopAuth 0 0 (2 ^ 64) [], .jopBulkWrite dJopAuth 0 0 0 [256],
     .jopCoreMsg ({ dJopAuth with session := 2 ^ 32 }) [], .jopCoreMsg dJopAuth [256], .jopAttest ({ dJopAuth with session := 2 ^ 32 }) 0 (List.replicate 32 0),
     .jopAttest dJopAuth (2 ^ 32) (List.replicate 32 0), .jopAttest dJopAuth 0 [], .jopAttest dJopAuth 0 (List.replicate 32 256), .jopOpenExpiry (2 ^ 32),
     .sessionIdleTimeout (2 ^ 32), .sysCoreMsgLen (2 ^ 64), .secInstallHost false (2 ^ 8), .secRemoveHost false (2 ^ 8), .tamperEvent (2 ^ 8) 0, .sysTamperAck (2 ^ 64),
     .jtagBypass (2 ^ 5), .objectWrite (.jop 128 : Who) 0 0 0, .objectWrite (.core false) (2 ^ 16) 0 0, .objectWrite (.core false) 0 (2 ^ 8) 0,
     .objectWrite (.core false) 0 0 (2 ^ 64), .presenceRx 68 false, .capSend 68, .lockedSend 68, .coreCheckFailure 9, .onDeckLookAhead 256, .enumeration [] 0 0,
     .enumeration [wNode] 1 0, .enumeration [{ wNode with parent := 1 }] 0 0, .schussRx 0 [some [256, 0, 0]], .schussRx 0 [some [0, 0]], .frameRx 0 0 [2 ^ 66],
     .enumeration [wNode, { wNode with parent := 1 }] 0 0, .objectWindowAccess 0 0 3 none, .objectWrite (.node 64 false false) 0 0 0] : List Instr).all (fun x => !x.wf) = true := by decide

/-- Each check of Hdr.wf refuses a value that breaks it alone. -/
theorem test_ill_formed_Hdr : (
    [{ dHdr with cls := 2 ^ 3 }, { dHdr with typ := 2 ^ 4 }, { dHdr with dst := 2 ^ 16 }, { dHdr with src := 2 ^ 16 }, { dHdr with seq := 2 ^ 8 }] : List Hdr).all (fun x => !x.wf) = true := by decide

/-- Each check of CellStatus.wf refuses a value that breaks it alone. -/
theorem test_ill_formed_CellStatus : (
    [{ dReport.status with tDie := 2 ^ 16 }, { dReport.status with tBoard := 2 ^ 16 }, { dReport.status with vAux := 2 ^ 16 },
     { dReport.status with lateCount := 2 ^ 16 }, { dReport.status with faults := 2 ^ 32 }, { dReport.status with tc := 2 ^ 32 }, { dReport.status with ov1 := 2 ^ 8 },
     { dReport.status with dsat := 2 ^ 8 }] : List CellStatus).all (fun x => !x.wf) = true := by decide

/-- Each check of Report.wf refuses a value that breaks it alone. -/
theorem test_ill_formed_Report : (
    [{ dReport with period := 2 ^ 32 }, { dReport with vKey := 2 ^ 16 }, { dReport with vChk := 2 ^ 16 }, { dReport with insPrev := 2 ^ 2 }, { dReport with w := 2 ^ 7 },
     { dReport with w := (-(2 ^ 7) - 1) }, { dReport with cellState := 2 ^ 8 }, { dReport with swHi := 2 ^ 32 }, { dReport with cellIndex := 2 ^ 16 },
     { dReport with claimSeen := 2 ^ 16 }, { dReport with status := ({ dReport.status with dsat := 256 }) }] : List Report).all (fun x => !x.wf) = true := by decide

/-- Each check of RefEntry.wf refuses a value that breaks it alone. -/
theorem test_ill_formed_RefEntry : (
    [{ dRefEntry with arm := 2 ^ 8 }, { dRefEntry with dir := 2 ^ 2 }, { dRefEntry with binShift := 2 ^ 8 }, { dRefEntry with stick := 2 ^ 8 },
     { dRefEntry with m := 2 ^ 39 }, { dRefEntry with m := (-(2 ^ 39) - 1) }, { dRefEntry with binBase := 2 ^ 16 }, { dRefEntry with wearRef := 2 ^ 32 },
     { dRefEntry with wearGain := 2 ^ 8 }] : List RefEntry).all (fun x => !x.wf) = true := by decide

/-- Each check of Reference.wf refuses a value that breaks it alone. -/
theorem test_ill_formed_Reference : (
    [{ dReference with period := 2 ^ 32 }, { dReference with entries := List.replicate 7 dRefEntry }, { dReference with entries := [{ dRefEntry with dir := 4 }] }] : List Reference).all (fun x => !x.wf) = true := by decide

/-- Each check of Command.wf refuses a value that breaks it alone. -/
theorem test_ill_formed_Command : (
    [{ wCommand with period := 2 ^ 32 }, { wCommand with exec := 2 ^ 48 * 1000000000 }, { wCommand with dir := 2 ^ 2 }, { wCommand with stick := 2 ^ 8 },
     { wCommand with kTh := 2 ^ 32 }, { wCommand with kCarve := 2 ^ 32 }, { wCommand with tCarve := 2 ^ 16 }, { wCommand with exclude := 2 ^ 16 },
     { wCommand with slalomNext := 2 ^ 32 }, { wCommand with wearRef := 2 ^ 32 }, { wCommand with wearGain := 2 ^ 8 }, { wCommand with claim := 2 ^ 16 },
     { wCommand with originNode := 2 ^ 8 }, { wCommand with originLink := 2 ^ 8 }, { wCommand with orders := [] }, { wCommand with orders := List.replicate 16 256 }] : List Command).all (fun x => !x.wf) = true := by decide

/-- Each check of ArmSum.wf refuses a value that breaks it alone. -/
theorem test_ill_formed_ArmSum : (
    [{ dArmSum with arm := 2 ^ 8 }, { dArmSum with nAv := 2 ^ 16 }, { dArmSum with nFb := 2 ^ 16 }, { dArmSum with nIns := 2 ^ 16 }, { dArmSum with nInsNeg := 2 ^ 16 },
     { dArmSum with vSum := 2 ^ 32 }] : List ArmSum).all (fun x => !x.wf) = true := by decide

/-- Each check of GroupSum.wf refuses a value that breaks it alone. -/
theorem test_ill_formed_GroupSum : (
    [{ wGroup with a := ({ dArmSum with arm := 256 }) }, { wGroup with binBase := 2 ^ 16 }, { wGroup with binShift := 2 ^ 8 }, { wGroup with swSum := 2 ^ 48 },
     { wGroup with swMin := 2 ^ 32 }, { wGroup with swMax := 2 ^ 32 }, { wGroup with histC := [] }, { wGroup with histD := [] }, { wGroup with histH := [] },
     { wGroup with histC := 2048 :: List.replicate 63 0 }, { wGroup with histD := 2048 :: List.replicate 63 0 }, { wGroup with histH := 2048 :: List.replicate 15 0 }] : List GroupSum).all (fun x => !x.wf) = true := by decide

/-- Each check of Sync.wf refuses a value that breaks it alone. -/
theorem test_ill_formed_Sync : (
    [{ dSync with vt := 2 ^ 64 * 1000000000 }, { dSync with steps := 2 ^ 8 }] : List Sync).all (fun x => !x.wf) = true := by decide

/-- Each check of PdResp.wf refuses a value that breaks it alone. -/
theorem test_ill_formed_PdResp : (
    [{ dPdResp with reqSeq := 2 ^ 8 }, { dPdResp with t2 := 2 ^ 64 }, { dPdResp with turn := 2 ^ 32 }] : List PdResp).all (fun x => !x.wf) = true := by decide

/-- Each check of ParamSet.wf refuses a value that breaks it alone. -/
theorem test_ill_formed_ParamSet : (
    [{ dParamSet with kEff := 2 ^ 64 }, { dParamSet with pEff := 2 ^ 48 * 1000000000 }, { dParamSet with g := 2 ^ 16 }, { dParamSet with t := 2 ^ 32 },
     { dParamSet with l := 2 ^ 32 }, { dParamSet with lawStart := 2 ^ 32 }, { dParamSet with slalom := 2 ^ 32 }, { dParamSet with deblock := 2 ^ 64 },
     { dParamSet with pseq := 2 ^ 32 }] : List ParamSet).all (fun x => !x.wf) = true := by decide

/-- Each check of Station.wf refuses a value that breaks it alone. -/
theorem test_ill_formed_Station : (
    [{ dStation with vM := 2 ^ 48 * 1000000000 }, { dStation with sM := 2 ^ 48 * 1000000000 }, { dStation with rho := 2 ^ 31 }, { dStation with rho := (-(2 ^ 31) - 1) },
     { dStation with quality := 2 ^ 8 }, { dStation with utc := 2 ^ 15 }, { dStation with utc := (-(2 ^ 15) - 1) }] : List Station).all (fun x => !x.wf) = true := by decide

/-- Each check of Event.wf refuses a value that breaks it alone. -/
theorem test_ill_formed_Event : (
    [{ dEvent with origin := 2 ^ 16 }, { dEvent with oflags := 2 ^ 8 }, { dEvent with kind := 2 ^ 8 }, { dEvent with source := 2 ^ 16 }, { dEvent with cls := 2 ^ 8 },
     { dEvent with instant := 2 ^ 64 * 1000000000 }, { dEvent with count := 2 ^ 32 }, { dEvent with data := 2 ^ 32 }, { dEvent with eseq := 2 ^ 32 }] : List Event).all (fun x => !x.wf) = true := by decide

/-- Each check of Events.wf refuses a value that breaks it alone. -/
theorem test_ill_formed_Events : (
    [{ wEvents with fseq := 2 ^ 32 }, { wEvents with entries := [] }, { wEvents with entries := List.replicate 8 dEvent },
     { wEvents with entries := [{ dEvent with kind := 256 }] }] : List Events).all (fun x => !x.wf) = true := by decide

/-- Each check of SafeStatus.wf refuses a value that breaks it alone. -/
theorem test_ill_formed_SafeStatus : (
    [{ wSafe with sseq := 2 ^ 32 }, { wSafe with state := 2 ^ 8 }, { wSafe with check := 2 ^ 32 }, { wSafe with fnState := 2 ^ 32 }, { wSafe with degLeft := 2 ^ 32 }] : List SafeStatus).all (fun x => !x.wf) = true := by decide

/-- Each check of ObjMsg.wf refuses a value that breaks it alone. -/
theorem test_ill_formed_ObjMsg : (
    [{ dObjMsg with reqId := 2 ^ 16 }, { dObjMsg with op := 2 ^ 8 }, { dObjMsg with status := 2 ^ 8 }, { dObjMsg with index := 2 ^ 16 }, { dObjMsg with sub := 2 ^ 8 },
     { dObjMsg with count := 2 ^ 8 }, { dObjMsg with tryN := 2 ^ 8 }, { dObjMsg with tgt := 2 ^ 32 }, { dObjMsg with data := List.replicate 989 0 },
     { dObjMsg with data := [256] }] : List ObjMsg).all (fun x => !x.wf) = true := by decide

/-- Each check of LaneEntry.wf refuses a value that breaks it alone. -/
theorem test_ill_formed_LaneEntry : (
    [{ wLane with lane := 2 ^ 8 }, { wLane with rate := 2 ^ 8 }, { wLane with cells := 2 ^ 8 }, { wLane with kind := 2 ^ 8 }, { wLane with dIn := 2 ^ 32 },
     { wLane with dOut := 2 ^ 32 }] : List LaneEntry).all (fun x => !x.wf) = true := by decide

/-- Each check of Bulk.wf refuses a value that breaks it alone. -/
theorem test_ill_formed_Bulk : (
    [{ dBulk with xfer := 2 ^ 16 }, { dBulk with status := 2 ^ 8 }, { dBulk with region := 2 ^ 16 }, { dBulk with offset := 2 ^ 64 }, { dBulk with len := 2 ^ 32 },
     { dBulk with ranges := List.replicate 17 (0, 0) }, { dBulk with data := List.replicate 981 0 }, { dBulk with data := [256] },
     { dBulk with ranges := [(2 ^ 64, 0)] }, { dBulk with ranges := [(0, 2 ^ 32)] }] : List Bulk).all (fun x => !x.wf) = true := by decide

/-- Each check of PtpHdr.wf refuses a value that breaks it alone. -/
theorem test_ill_formed_PtpHdr : (
    [{ dPtpHdr with port := 2 ^ 1 }, { dPtpHdr with etype := 2 ^ 16 }, { dPtpHdr with mac := 2 ^ 48 }, { dPtpHdr with vlan := (some (2 ^ 12)) },
     { dPtpHdr with domain := 2 ^ 8 }, { dPtpHdr with ident := 2 ^ 80 }, { dPtpHdr with seq := 2 ^ 16 }, { dPtpHdr with frac := 2 ^ 5 }] : List PtpHdr).all (fun x => !x.wf) = true := by decide

/-- Each check of Announce.wf refuses a value that breaks it alone. -/
theorem test_ill_formed_Announce : (
    [{ dAnnounce with prio1 := 2 ^ 8 }, { dAnnounce with cls := 2 ^ 8 }, { dAnnounce with accuracy := 2 ^ 8 }, { dAnnounce with variance := 2 ^ 16 },
     { dAnnounce with prio2 := 2 ^ 8 }, { dAnnounce with gm := 2 ^ 64 }, { dAnnounce with steps := 2 ^ 16 }, { dAnnounce with utc := 2 ^ 15 },
     { dAnnounce with utc := (-(2 ^ 15) - 1) }] : List Announce).all (fun x => !x.wf) = true := by decide

/-- Each check of Digest.wf refuses a value that breaks it alone. -/
theorem test_ill_formed_Digest : (
    [{ dDigest with period := 2 ^ 32 }, { dDigest with claim := 2 ^ 16 }, { dDigest with state := 2 ^ 8 }, { dDigest with verdict := 2 ^ 2 },
     { dDigest with dOut := 2 ^ 32 }, { dDigest with dSum := 2 ^ 32 }, { dDigest with dLaw := 2 ^ 32 }, { dDigest with dRefIn := 2 ^ 32 },
     { dDigest with misses := 2 ^ 32 }, { dDigest with bankCrc := 2 ^ 32 }, { dDigest with caddyCrc := 2 ^ 32 }, { dDigest with caddyPeriod := 2 ^ 32 },
     { dDigest with checkEnd := 2 ^ 32 }] : List Digest).all (fun x => !x.wf) = true := by decide

/-- Each check of Inputs.wf refuses a value that breaks it alone. -/
theorem test_ill_formed_Inputs : (
    [{ wInputs with period := 2 ^ 32 }, { wInputs with first := 2 ^ 16 }, { wInputs with words := List.replicate 129 0 }, { wInputs with words := [2 ^ 32] }] : List Inputs).all (fun x => !x.wf) = true := by decide

/-- Each check of CaddyPart.wf refuses a value that breaks it alone. -/
theorem test_ill_formed_CaddyPart : (
    [{ dCaddyPart with period := 2 ^ 32 }, { dCaddyPart with first := 2 ^ 16 }, { dCaddyPart with bytes := List.replicate 513 0 }, { dCaddyPart with bytes := [256] }] : List CaddyPart).all (fun x => !x.wf) = true := by decide

/-- Each check of Xtrig.wf refuses a value that breaks it alone. -/
theorem test_ill_formed_Xtrig : (
    [{ dXtrig with instant := 2 ^ 64 * 1000000000 }, { dXtrig with node := 2 ^ 8 }, { dXtrig with source := 2 ^ 7 }, { dXtrig with seq := 2 ^ 16 }] : List Xtrig).all (fun x => !x.wf) = true := by decide

/-- Each check of Wiring.wf refuses a value that breaks it alone. -/
theorem test_ill_formed_Wiring : (
    [{ wWiring with node := 2 ^ 8 }, { wWiring with level := 2 ^ 8 }, { wWiring with kinds := [] }, { wWiring with details := [] }, { wWiring with kinds := [2 ^ 2] },
     { wWiring with details := [256] }] : List Wiring).all (fun x => !x.wf) = true := by decide

/-- Each check of FoundPiste.wf refuses a value that breaks it alone. -/
theorem test_ill_formed_FoundPiste : (
    [{ wPiste with link := 64 }, { wPiste with len := 31 }, { wPiste with cells := 17 }, { wPiste with cfg := 17 }] : List FoundPiste).all (fun x => !x.wf) = true := by decide

/-- Each check of CalEntry.wf refuses a value that breaks it alone. -/
theorem test_ill_formed_CalEntry : (
    [{ wCal with phys := 5 }, { wCal with input := 19 }, { wCal with gain := 2 ^ 2 }, { wCal with g := 2 ^ 32 }, { wCal with o := 2 ^ 31 },
     { wCal with o := (-(2 ^ 31) - 1) }] : List CalEntry).all (fun x => !x.wf) = true := by decide

/-- Each check of CalCheck.wf refuses a value that breaks it alone. -/
theorem test_ill_formed_CalCheck : (
    [{ dCalCheck with phys := 5 }, { dCalCheck with c17 := 2 ^ 15 }, { dCalCheck with c17 := (-(2 ^ 15) - 1) }, { dCalCheck with c18 := 2 ^ 15 },
     { dCalCheck with c18 := (-(2 ^ 15) - 1) }] : List CalCheck).all (fun x => !x.wf) = true := by decide

/-- Each check of HostFrom.wf refuses a value that breaks it alone. -/
theorem test_ill_formed_HostFrom : (
    [{ host0 with port := 2 }, { host0 with ip := 2 ^ 32 }, { host0 with udp := 2 ^ 16 }, { host0 with vlan := (some 4095) }] : List HostFrom).all (fun x => !x.wf) = true := by decide

/-- Each check of JopAuth.wf refuses a value that breaks it alone. -/
theorem test_ill_formed_JopAuth : (
    [{ dJopAuth with host := ({ host0 with port := 2 }) }, { dJopAuth with session := 2 ^ 32 }, { dJopAuth with seq := 2 ^ 64 }, { dJopAuth with tag := 2 ^ 256 }] : List JopAuth).all (fun x => !x.wf) = true := by decide

/-- Each check of BootIn.wf refuses a value that breaks it alone. -/
theorem test_ill_formed_BootIn : (
    [{ dBootIn with ddrMiB := 8193 }, { dBootIn with cores := [9] }, { dBootIn with paths := [2 ^ 8] }, { dBootIn with slices := [(8, 0)] },
     { dBootIn with badCopies := [2 ^ 1] }, { dBootIn with badBlocks := [2 ^ 1] }, { dBootIn with aux := 2 ^ 2 }] : List BootIn).all (fun x => !x.wf) = true := by decide

/-- Each check of Summary.wf refuses a value that breaks it alone. -/
theorem test_ill_formed_Summary : (
    [.group (2 ^ 32) wGroup, .group 0 { wGroup with binShift := 256 }, .arms (2 ^ 32) [], .arms 0 (List.replicate 15 dArmSum), .arms 0 [{ dArmSum with arm := 256 }]] : List Summary).all (fun x => !x.wf) = true := by decide

/-- Each check of Who.wf refuses a value that breaks it alone. -/
theorem test_ill_formed_Who : (
    [.jop 128, .node 64 false false] : List Who).all (fun x => !x.wf) = true := by decide

/-- A line of more than 8,192 blocks is refused. -/
theorem test_ill_formed_long_line : (Instr.frameRx 0 0 (List.replicate 8193 0)).wf = false := by
  have h : ¬ (List.replicate 8193 0).length ≤ 8192 := by rw [List.length_replicate]; omega
  simp only [Instr.wf, decide_eq_false h, Bool.and_false, Bool.false_and]

/-- The values the lists above start from are well-formed themselves. -/
theorem test_well_formed_parts : (dReport.wf && dReference.wf && wCommand.wf && wSummary.wf && dSync.wf && dPdResp.wf && dParamSet.wf && dStation.wf && wEvents.wf
    && wSafe.wf && dPtpHdr.wf && dAnnounce.wf && dObjMsg.wf && dBulk.wf && dDigest.wf && wInputs.wf && dCaddyPart.wf && dXtrig.wf && wWiring.wf && foundWf [wNode, wNode] && wPiste.wf
    && wCal.wf && dCalCheck.wf && host0.wf && dJopAuth.wf && dBootIn.wf && wLane.wf) = true := by decide

/-- A node found: its link, its second link and its pistes, each broken alone. -/
theorem test_ill_formed_FoundNode : ([{ wNode with link := 64 }, { wNode with link1 := some 64 }, { wNode with pistes := [{ wPiste with link := 64 }] }, { wNode with pistes := [{ wPiste with cells := 17 }] }, { wNode with pistes := [{ wPiste with cfg := 17 }] }, { wNode with num := some 64 }, { wNode with num := some 0 }, { wNode with parent := 1 }] : List FoundNode).all
    (fun x => !foundWf [x]) = true := by decide

/-! Worked examples of the spec, with its own numbers. -/

/-- A report that counts: key, what was inserted before, wear term. -/
def rep (v ins : Nat) (w : Int) : Report := { dReport with vKey := v, avail := true, maskOk := true, insPrev := ins, w := w }

/-- The fourteen counted cells of Table 2.7, position after position. -/
def table27 : List (Nat × Report) :=
  [(80, rep 25640 0 0), (81, rep 25610 1 0), (82, rep 25598 0 2), (83, rep 25600 0 0), (84, rep 25655 1 (-1)), (85, rep 25580 0 0), (86, rep 25620 1 0),
   (87, rep 25700 0 0), (88, rep 25590 0 1), (89, rep 25600 0 0), (91, rep 25612 1 3), (92, rep 25630 0 0), (93, rep 25575 1 0), (94, rep 25690 0 0)]

/-- Table 2.8: n, F, SAT, K_TH, K_CARVE, T_CARVE and the tie. -/
theorem test_selection_table_2_8 : selectKeys (sortBy (· ≤ ·) (keysOf table27 false 1 16 0x2CE)) 484966 4000 = (7, 26214, false, 0x0190029C, 0x0190029D, 1600, true) := by decide

/-- The negative carve of the second example of R63: M in 40 bits, n and T_CARVE with twelve full-bridge cells, and SAT with two. -/
theorem test_selection_negative : ofI 40 (-190054) = 0xFFFFFD199A ∧ (selectKeys (List.range 12) 190054 4000).1 = 2 ∧ (selectKeys (List.range 12) 190054 4000).2.2.2.2.2.1 = 3600 ∧
    (selectKeys (List.range 2) 190054 4000).2.1 = 0 ∧ (selectKeys (List.range 2) 190054 4000).2.2.1 = true := by decide

/-- Table 2.12: 167 and 133 cells, the carve in G1. -/
theorem test_apportioning_table_2_12 : apportion false 0x012C4000 (718 % 2)
    [⟨0, 500, false, some (List.replicate 10 0 ++ [40, 60, 50, 100, 250])⟩, ⟨1, 500, false, some (List.replicate 10 0 ++ [20, 30, 70, 80, 300])⟩] =
    { n := [167, 133], carve := some 1, sat := false, mism := false, hsat := false, edge := false } := by decide

/-- The window address of BAL_K_TH of slot 0 (the example of 00_scope.md). -/
theorem test_window_address : winKey (0x4104800C - 0x40000000) = O.BAL_K_TH 0 ∧ O.BAL_K_TH 0 = 0x4120 * 256 + 3 := by decide

/-- CRC-32 of the nine characters 1 to 9 (chapter 10, the safety set). -/
theorem test_crc32 : crc32 [0x31, 0x32, 0x33, 0x34, 0x35, 0x36, 0x37, 0x38, 0x39] = 0xCBF43926 := by decide +kernel

/-- Elements of one type, as many as the first number says. -/
def elems (l : List (Nat × Nat)) : List Elem :=
  l.flatMap fun x => List.replicate x.1 { typ := x.2, rate := 0, phase := 0, bumpless := false, freeze := false, ramp := false, coef := 0, ins := [], param := 0 }

/-- The lane loads of a level of such elements on 16 lanes. -/
def loads (l : List (Nat × Nat)) : List Nat := (packLevel (elems l) 16 (List.range (elems l).length)).1

/-- Table 4.5, levels 1 to 4. -/
theorem test_packing_table_4_5 : loads [(6, 10), (8, 1)] = [16, 16, 16, 16, 16, 16, 4, 4, 4, 4, 4, 4, 4, 4, 0, 0] ∧ maxL (loads [(12, 4), (6, 5)]) = 24 ∧
    loads [(12, 1), (6, 11)] = [20, 20, 4, 4, 4, 4, 4, 4, 4, 4, 4, 4, 16, 16, 16, 16] ∧ maxL (loads [(6, 8), (6, 9)]) = 3 := by decide

/-- Binary32 of a ratio. -/
def f32r (a b : Nat) : Nat := fratio fmt32 false a b 0

/-- The breakpoints of Table 4.10. -/
def bps410 : List Nat := [f32r 0 1, f32r 1 5, f32r 2 5, f32r 3 5, f32r 4 5, f32r 1 1, f32r 6 5, f32r 7 5]

/-- Table 4.10: the region moves from 2 to 3 at 0.63 and not before the hysteresis is passed; Kp is 1.17 but for the last bits. -/
theorem test_schedule_table_4_10 : nextRegion 2 bps410 (f32r 1 50) (f32r 63 100) = 3 ∧ nextRegion 2 bps410 (f32r 1 50) (f32r 61 100) = 2 ∧
    schValue false bps410 [f32r 2 1, f32r 2 1, f32r 8 5, f32r 6 5, f32r 1 1, f32r 9 10, f32r 4 5, f32r 4 5] (f32r 63 100) 2 - f32r 117 100 ≤ 4 := by decide +kernel

/-- Node 3 of Table 9.9: its analogue sources and modes, eight slots on chip. -/
def node3 : State := wr (O.ACQ_ACH_SRC 0) 0x2000 (wr (O.ACQ_ACH_MODE 0) 1 (wr (O.ACQ_ACH_SRC 1) 0x1000 (wr (O.ACQ_ACH_SRC 2) 0x3000 (wr O.ACQ_SLOTS 8 node))))

/-- Table 9.9: bytes of a row, bytes of a slot, rows of a slot. -/
theorem test_record_table_9_9 : rowBytesOf node3 = 24 ∧ slotBytesOf node3 = 4194304 ∧ rowCapOf node3 = 174591 := by decide

/-- The four-level tree of Table 1.7 at its apex: one arm node, one segment node, one piste of 16 cells. -/
def tree17 : State :=
  wr O.TREE_NODE_NUMBER 0 (wr (O.LNK_RATE 0) 3 (wr (O.TIM_LANE_DELAY 0) 500000 (wr O.LAW_WCET 400
    { apex with tree := { apex.tree with nodes := [⟨0, 0, 0, none, 0, []⟩, ⟨1, 0, 0, none, 1, []⟩, ⟨2, 1, 0, none, 2, []⟩], kids := [(0, 1)], parent := 0, reps := [⟨1, ⟨0, 3, 0, 1, 250000, 250000⟩⟩, ⟨2, ⟨0, 2, 16, 0, 850000, 850000⟩⟩] } })))

/-- The example of R37 and R38: report_done at the segment and the arm node, t_in, TIM_LAG_MIN and TIM_STAGE_MIN. -/
theorem test_lag_table_1_7 : reportDone 6 2 tree17 = 3148000 ∧ reportDone 6 1 tree17 = 3715600 ∧ tInPs tree17 = 4533200 ∧ lagMin tree17 = 3585 ∧ stageMin tree17 = 992 := by decide

/-! Standards the spec names, by their published vectors. -/

/-- SHA-256 of abc (FIPS 180-4). -/
theorem test_sha256_abc : sha256 [0x61, 0x62, 0x63] = 0xba7816bf8f01cfea414140de5dae2223b00361a396177a9cb410ff61f20015ad := by decide +kernel

/-- HMAC-SHA-256 of the first case of RFC 4231. -/
theorem test_hmac : hmacBytes (List.replicate 20 0x0b) [0x48, 0x69, 0x20, 0x54, 0x68, 0x65, 0x72, 0x65] = 0xb0344c61d8db38535ca8afceaf0bf12b881dc200c9833da726e9376c2e32cff7 := by decide +kernel

/-- Twice the base point of P-256 (SEC 2). -/
theorem test_public_key : publicKey 1 / 2 ^ 256 % 2 ^ 256 = 0x7CF27B188D034F7E8A52380304B51AC3C08969E277F21B35A60B48FC47669978 ∧ onCurve (publicKey 1) = true := by decide +kernel

/-! One step each. -/

/-- An idle step lets one tick pass. -/
theorem test_reset_idle : step State.reset = .next { State.reset with tick := 1 } := rfl

/-- A step takes the front command and leaves the rest of the queue. -/
theorem test_step_front : ∃ t, step { node with pending := [.refclkReturn, .celClear] } = .next t ∧ t.pending = [.celClear] ∧ t.sys.refHeld = false := ⟨_, rfl, rfl, rfl⟩

/-- No word spells a command (log entry 1). -/
theorem test_no_word : decodeTableWord 16 5 = none ∧ State.reset.withFetchWord 16 5 = State.reset := ⟨rfl, rfl⟩

/-- What a write answers and the value of an object after it. -/
def answerOf (k : Nat) (o : Host.Outcome State Fault Refusal) : List Nat × Nat := match o with | .next t => (t.resp, rd k t) | .fault _ => ([], 0) | .refused _ => ([], 0)

/-- The apex refuses the default lag below TIM_LAG_MIN 3585 and takes 3600 (R39). -/
theorem test_apply_lag : answerOf O.TIM_APPLY_LAG (exec (.timApplyLagWrite 3200) (wr O.TIM_LAG_MIN 3585 apex)) = ([stRange], 3200) ∧
    answerOf O.TIM_APPLY_LAG (exec (.timApplyLagWrite 3600) (wr O.TIM_LAG_MIN 3585 apex)) = ([stOk], 3600) := by decide

/-! For each statement with hypotheses: states and operands that meet the hypotheses of its clauses, together for each clause. -/

/-- Obligations.StepRunsFrontCommand: the hypotheses of its clauses can be met. -/
theorem witness_StepRunsFrontCommand :
    (∃ (c : Instr) (rest : List Instr) (s : State), s.pending = c :: rest) :=
  ⟨.powerOn, ([] : List Instr), (let c : Instr := .powerOn; let rest : List Instr := []; let s : State := node; ({ s with pending := c :: rest })), by decide⟩

/-- Obligations.RunsNeverStop: the hypotheses of its clauses can be met. -/
theorem witness_RunsNeverStop :
    (∃ (s : State), s.pending = []) ∧
    (∃ (s : State) (t : State), step s = .next t) :=
  ⟨⟨(let s : State := node; ({ s with pending := [] })), by decide⟩,
   ⟨node, { node with tick := node.tick + 1 }, rfl⟩⟩

/-- Obligations.StepKeepsCanonicalForm: the hypotheses of its clauses can be met. -/
theorem witness_StepKeepsCanonicalForm :
    (∃ (s : State) (t : State), s.wf = true ∧ step s = .next t) :=
  ⟨node, { node with tick := node.tick + 1 }, by decide, rfl⟩

/-- Obligations.RoleHoldsUntilReset: the hypotheses of its clauses can be met. -/
theorem witness_RoleHoldsUntilReset :
    (∃ (c : Instr) (s : State) (t : State), exec c s = .next t) :=
  ⟨.refclkReturn, node, { node with sys := { node.sys with refHeld := false } }, rfl⟩

/-- Obligations.CounterNeverStepsBack: the hypotheses of its clauses can be met. -/
theorem witness_CounterNeverStepsBack :
    (∃ (c : Instr) (s : State) (t : State), exec c s = .next t ∧ c.mayReset = false) :=
  ⟨.refclkReturn, node, { node with sys := { node.sys with refHeld := false } }, rfl, rfl⟩

/-- Obligations.ResetsByCause: where SYS_CMD RESET is carried out and the two ways in which it is refused. -/
theorem witness_ResetsByCause :
    (∃ s : State, isNode s = true ∧ ∀ a ∈ servedArms s, armDeblocked a s = false) ∧
    (∃ s : State, isCell s = true ∧ celLive s = false) ∧
    (∃ s : State, isNode s = true ∧ ∃ a ∈ servedArms s, armDeblocked a s = true) ∧
    (∃ s : State, isCell s = true ∧ celLive s = true) :=
  ⟨⟨node, by decide⟩, ⟨cell, by decide⟩,
   ⟨(let s : State := node; wr (O.BAL_ARM_ID 0) 0 (wr (O.BAL_LINK_ARM 0) 0 (deb { s with tree := { s.tree with pistes := [(0, 3)] } }))), by decide⟩,
   ⟨wr O.CEL_STATE 4 cell, by decide⟩⟩

/-- Obligations.ResetReleaseRunsPhases: the hypotheses of its clauses can be met. -/
theorem witness_ResetReleaseRunsPhases :
    (∃ (inp : BootIn) (s : State), s.sys.held = true ∧ s.sys.retryAt = none ∧ inp.straps.testEn = false ∧ (inp.straps.node = true → s.sys.refHeld = false)) ∧
    (∃ (inp : BootIn) (s : State), s.sys.held = true ∧ s.sys.retryAt = none ∧ inp.straps.testEn = true ∧ (inp.straps.node = true → s.sys.refHeld = false)) ∧
    (∃ (s : State), s.sys.held = false) ∧
    (∃ (s : State), s.sys.retryAt ≠ none) ∧
    (∃ (inp : BootIn) (s : State), (inp.straps.node = true ∧ s.sys.refHeld = true)) ∧
    (∃ (r : Nat) (s : State), s.sys.retryAt = some r) :=
  ⟨⟨(let inp : BootIn := dBootIn; ({ inp with straps := { inp.straps with testEn := false } })), (let s : State := cell; let s : State := ({ s with sys := { s.sys with held := true } }); ({ s with sys := { s.sys with retryAt := none } })), by decide⟩,
   ⟨(let inp : BootIn := dBootIn; ({ inp with straps := { inp.straps with testEn := true } })), (let s : State := node; let s : State := ({ s with sys := { s.sys with held := true } }); ({ s with sys := { s.sys with retryAt := none } })), by decide⟩,
   ⟨(let s : State := node; ({ s with sys := { s.sys with held := false } })), by decide⟩,
   ⟨(let s : State := node; ({ s with sys := { s.sys with retryAt := some default } })), by decide⟩,
   ⟨(let inp : BootIn := dBootIn; ({ inp with straps := { inp.straps with node := true } })), (let s : State := node; ({ s with sys := { s.sys with refHeld := true } })), by decide⟩,
   ⟨0, (let r : Nat := 0; let s : State := cell; ({ s with sys := { s.sys with retryAt := some r } })), by decide⟩⟩

/-- Obligations.WakeNeedsItsArm: the hypotheses of its clauses can be met. -/
theorem witness_WakeNeedsItsArm :
    (∃ (s : State), rd O.SYS_WAKE_ARM s = 1 ∧ s.sys.pwrEn = false) ∧
    (∃ (s : State), rd O.SYS_WAKE_ARM s = 0) ∧
    (∃ (s : State), s.sys.pwrEn = true) :=
  ⟨⟨(let s : State := node; let s : State := (wr O.SYS_WAKE_ARM 1 s); ({ s with sys := { s.sys with pwrEn := false } })), by decide⟩,
   ⟨(let s : State := node; (wr O.SYS_WAKE_ARM 0 s)), by decide⟩,
   ⟨(let s : State := node; ({ s with sys := { s.sys with pwrEn := true } })), by decide⟩⟩

/-- Obligations.SupplyTamperAndPower: the hypotheses of its clauses can be met. -/
theorem witness_SupplyTamperAndPower :
    (∃ (s : State), s.sys.held = true) ∧
    (∃ (s : State), isCell s = true ∧ s.sys.held = false) ∧
    (∃ (s : State), rd O.SYS_WAKE_ARM s = 1 ∧ s.sys.pwrEn = false) ∧
    (∃ (s : State), rd O.SYS_WAKE_ARM s = 0) ∧
    (∃ (s : State), s.sys.aon.length < 16) ∧
    (∃ (s : State), 16 ≤ s.sys.aon.length) ∧
    (∃ (v : Nat) (s : State), rd O.SYS_RECOVERY s = 0 ∧ v < 2 ^ 32 ∧ v ≤ rd O.SYS_TAMPER_COUNT s) ∧
    (∃ (v : Nat) (s : State), rd O.SYS_RECOVERY s = 0 ∧ rd O.SYS_TAMPER_COUNT s < v) ∧
    (∃ (s : State), rd O.SYS_RECOVERY s = 0 ∧ rd O.SYS_NO_BATTERY s = 0 ∧ isNode s = true ∧ (∀ a ∈ servedArms s, armDeblocked a s = false)) ∧
    (∃ (s : State), rd O.SYS_RECOVERY s = 0 ∧ rd O.SYS_NO_BATTERY s = 0 ∧ isCell s = true ∧ celLive s = false) ∧
    (∃ (s : State), rd O.SYS_NO_BATTERY s = 1) ∧
    (∃ (s : State), (isNode s = true ∧ ∃ a ∈ servedArms s, armDeblocked a s = true)) ∧
    (∃ (s : State), (isCell s = true ∧ celLive s = true)) ∧
    (∃ (s : State), rd O.SYS_RECOVERY s = 0 ∧ isNode s = true ∧ (rd O.ACQ_MEM s = 1 → acqIdle s = true)) ∧
    (∃ (s : State), rd O.SYS_RECOVERY s = 0 ∧ isNode s = true ∧ rd O.ACQ_MEM s = 1 ∧ acqIdle s = false) ∧
    (∃ (s : State), rd O.SYS_RECOVERY s = 0 ∧ isNode s = true ∧ ddrUp s = false ∧ s.sys.ddrMiB ≠ 0 ∧ s.sys.ddrBack = none) ∧
    (∃ (s : State), rd O.SYS_RECOVERY s = 0 ∧ isNode s = true ∧ acqIdle s = true) ∧
    (∃ (s : State), rd O.SYS_RECOVERY s = 0 ∧ isNode s = true ∧ rd O.ACQ_MEM s = 0 ∧ acqIdle s = false) ∧
    (∃ (d : Nat) (s : State), s.sys.ddrBack = some d) :=
  ⟨⟨(let s : State := node; ({ s with sys := { s.sys with held := true } })), by decide⟩,
   ⟨(let s : State := cell; ({ s with sys := { s.sys with held := false } })), by decide⟩,
   ⟨(let s : State := node; let s : State := (wr O.SYS_WAKE_ARM 1 s); ({ s with sys := { s.sys with pwrEn := false } })), by decide⟩,
   ⟨(let s : State := node; (wr O.SYS_WAKE_ARM 0 s)), by decide⟩,
   ⟨node, by decide⟩,
   ⟨(let s : State := node; { s with sys := { s.sys with aon := List.replicate 16 dTamperEntry } }), by decide⟩,
   ⟨0, (let v : Nat := 0; let s : State := node; let s : State := (wr O.SYS_RECOVERY 0 s); (wr O.SYS_TAMPER_COUNT v s)), by decide⟩,
   ⟨5, (let v : Nat := 5; let s : State := node; let s : State := (wr O.SYS_RECOVERY 0 s); let s : State := (wr O.SYS_TAMPER_COUNT (v - 1) s); wr O.SYS_TAMPER_COUNT 4 s), by decide⟩,
   ⟨(let s : State := node; let s : State := (wr O.SYS_RECOVERY 0 s); (wr O.SYS_NO_BATTERY 0 s)), by decide⟩,
   ⟨(let s : State := cell; let s : State := (wr O.SYS_RECOVERY 0 s); (wr O.SYS_NO_BATTERY 0 s)), by decide⟩,
   ⟨(let s : State := node; (wr O.SYS_NO_BATTERY 1 s)), by decide⟩,
   ⟨(let s : State := apex; deb (wr O.SYS_NO_BATTERY 0 (wr (O.BAL_ARM_ID 0) 0 (wr (O.BAL_LINK_ARM 0) 0 { s with tree := { s.tree with pistes := [(0,3)] } })))), by decide⟩,
   ⟨(let s : State := cell; (wr O.CEL_STATE 4 s)), by decide⟩,
   ⟨(let s : State := node; (wr O.SYS_RECOVERY 0 s)), by decide⟩,
   ⟨(let s : State := node; let s : State := (wr O.SYS_RECOVERY 0 s); let s : State := (wr O.ACQ_MEM 1 s); wr O.ACQ_MEM 1 (wr O.ACQ_STATE 1 s)), by decide⟩,
   ⟨(let s : State := node; let s : State := (wr O.SYS_RECOVERY 0 s); let s : State := ({ s with sys := { s.sys with ddrMiB := 1 } }); ({ s with sys := { s.sys with ddrBack := none } })), by decide⟩,
   ⟨(let s : State := node; (wr O.SYS_RECOVERY 0 s)), by decide⟩,
   ⟨(let s : State := node; let s : State := (wr O.SYS_RECOVERY 0 s); let s : State := (wr O.ACQ_MEM 0 s); wr O.ACQ_MEM 0 (wr O.ACQ_STATE 1 s)), by decide⟩,
   ⟨0, (let d : Nat := 0; let s : State := node; ({ s with sys := { s.sys with ddrBack := some d } })), by decide⟩⟩

/-- Obligations.RepairAndTestPort: the hypotheses of its clauses can be met. -/
theorem witness_RepairAndTestPort :
    (∃ (n : Nat) (s : State), laneHere n s = true ∧ stage n s ≠ 8) ∧
    (∃ (n : Nat) (s : State), laneHere n s = false) ∧
    (∃ (n : Nat) (s : State), stage n s = 8) ∧
    (∃ (d : Int) (s : State), isNode s = true ∧ 2032 ≤ d) ∧
    (∃ (d : Int) (s : State), isNode s = true ∧ d ≤ 1952) ∧
    (∃ (d : Int) (s : State), isNode s = true ∧ 1952 < d ∧ d < 2032) ∧
    (∃ (c : Nat) (s : State) (p : Nat), c < 8 ∧ isNode s = true ∧ p = fld (rd O.TSK_CORE_MAP s) (4 * c + 3) (4 * c) ∧ p ≠ 15 ∧ rd O.TSK_SPARE s ≠ 15) ∧
    (∃ (c : Nat) (s : State) (p : Nat), c < 8 ∧ c = 0 ∧ p = fld (rd O.TSK_CORE_MAP s) (4 * c + 3) (4 * c) ∧ p ≠ 15 ∧ rd O.TSK_SPARE s ≠ 15) ∧
    (∃ (c : Nat) (s : State) (p : Nat), c < 8 ∧ c = 0 ∧ p = fld (rd O.TSK_CORE_MAP s) (4 * c + 3) (4 * c) ∧ p ≠ 15 ∧ rd O.TSK_SPARE s = 15 ∧ isNode s = true) ∧
    (∃ (c : Nat) (s : State) (p : Nat), c < 8 ∧ c = 0 ∧ p = fld (rd O.TSK_CORE_MAP s) (4 * c + 3) (4 * c) ∧ p ≠ 15 ∧ rd O.TSK_SPARE s = 15 ∧ isCell s = true) ∧
    (∃ (c : Nat), 8 ≤ c) ∧
    (∃ (c : Nat) (s : State), fld (rd O.TSK_CORE_MAP s) (4 * c + 3) (4 * c) = 15) ∧
    (∃ (c : Nat) (s : State), (isCell s = true ∧ c ≠ 0)) ∧
    (∃ (s : State), s.straps.testEn = true) ∧
    (∃ (s : State), s.straps.testEn = false) :=
  ⟨⟨0, (let n : Nat := 0; let s : State := node; (wr (O.LNK_STAGE n) (8 + 1) s)), by decide⟩,
   ⟨68, node, by decide⟩,
   ⟨68, (let n : Nat := 68; let s : State := node; (wr (O.LNK_STAGE n) 8 s)), by decide⟩,
   ⟨2032, node, by decide⟩,
   ⟨0, node, by decide⟩,
   ⟨((1952 + 1) : Int), node, by decide⟩,
   ⟨0, (let s : State := node; (wr O.TSK_SPARE (15 + 1) s)), (let c : Nat := 0; let s : State := node; let s : State := (wr O.TSK_SPARE (15 + 1) s); fld (rd O.TSK_CORE_MAP s) (4 * c + 3) (4 * c)), by decide⟩,
   ⟨0, (let s : State := node; (wr O.TSK_SPARE (15 + 1) s)), (let c : Nat := 0; let s : State := node; let s : State := (wr O.TSK_SPARE (15 + 1) s); fld (rd O.TSK_CORE_MAP s) (4 * c + 3) (4 * c)), by decide⟩,
   ⟨0, (let s : State := node; (wr O.TSK_SPARE 15 s)), (let c : Nat := 0; let s : State := node; let s : State := (wr O.TSK_SPARE 15 s); fld (rd O.TSK_CORE_MAP s) (4 * c + 3) (4 * c)), by decide⟩,
   ⟨0, (let s : State := cell; let s : State := (wr O.TSK_SPARE 15 s); wr O.TSK_CORE_MAP 0 (wr O.TSK_SPARE 15 s)), (let c : Nat := 0; let s : State := cell; let s : State := (wr O.TSK_SPARE 15 s); let s : State := wr O.TSK_CORE_MAP 0 (wr O.TSK_SPARE 15 s); fld (rd O.TSK_CORE_MAP s) (4 * c + 3) (4 * c)), by decide⟩,
   ⟨8, by decide⟩,
   ⟨7, (let s : State := node; wr O.TSK_CORE_MAP 0xF6543210 s), by decide⟩,
   ⟨((0 + 1) : Nat), cell, by decide⟩,
   ⟨(let s : State := node; ({ s with straps := { s.straps with testEn := true } })), by decide⟩,
   ⟨(let s : State := node; ({ s with straps := { s.straps with testEn := false } })), by decide⟩⟩

/-- Obligations.EnumerationNumbersLevelByLevel: the hypotheses of its clauses can be met. -/
theorem witness_EnumerationNumbersLevelByLevel :
    (∃ (l : List FoundNode) (n : Nat × TreeNode), (∀ e ∈ l, e.num = none) ∧ n ∈ (walk [] l).nodes ∧ n.2.num ≠ 0) :=
  ⟨([⟨none,0,0,none,false,[]⟩, ⟨none,0,3,none,false,[]⟩, ⟨none,1,7,none,false,[⟨2,5,true,5,5⟩]⟩] : List FoundNode), (let l : List FoundNode := [⟨none,0,0,none,false,[]⟩, ⟨none,0,3,none,false,[]⟩, ⟨none,1,7,none,false,[⟨2,5,true,5,5⟩]⟩]; ((walk [] l).nodes.getLastD (0, dTreeNode))), by decide⟩

/-- Obligations.SecondApexIsRecorded: the hypotheses of its clauses can be met. -/
theorem witness_SecondApexIsRecorded :
    (∃ (l : List FoundNode) (self : Nat) (n : Nat × TreeNode) (at_ : Nat) (d : Nat) (s : State) (w : Walk), isApex s = true ∧ (walk s.tree.held (l.map fun e => { e with num := none }) = w) ∧ w.nodes.find? (fun x => x.1 == self) = some n ∧ w.conflict = some (at_, d)) :=
  ⟨([⟨none,0,0,none,false,[]⟩, ⟨none,0,3,none,true,[]⟩, ⟨none,1,7,none,false,[⟨2,5,true,5,5⟩]⟩] : List FoundNode), 0, (let l : List FoundNode := [⟨none,0,0,none,false,[]⟩, ⟨none,0,3,none,true,[]⟩, ⟨none,1,7,none,false,[⟨2,5,true,5,5⟩]⟩]; let self : Nat := 0; (((walk [] l).nodes.find? (fun x => x.1 == self)).getD (0, dTreeNode))), (let l : List FoundNode := [⟨none,0,0,none,false,[]⟩, ⟨none,0,3,none,true,[]⟩, ⟨none,1,7,none,false,[⟨2,5,true,5,5⟩]⟩]; ((walk [] l).conflict.getD (0,0)).1), (let l : List FoundNode := [⟨none,0,0,none,false,[]⟩, ⟨none,0,3,none,true,[]⟩, ⟨none,1,7,none,false,[⟨2,5,true,5,5⟩]⟩]; ((walk [] l).conflict.getD (0,0)).2), apex, (let l : List FoundNode := [⟨none,0,0,none,false,[]⟩, ⟨none,0,3,none,true,[]⟩, ⟨none,1,7,none,false,[⟨2,5,true,5,5⟩]⟩]; let s : State := apex; (walk s.tree.held (l.map fun e => { e with num := none }))), by decide⟩

/-- Obligations.EnumerationCompletes: the hypotheses of its clauses can be met. -/
theorem witness_EnumerationCompletes :
    (∃ (l : List FoundNode) (self : Nat) (n : Nat × TreeNode) (s : State) (w : Walk), isNode s = true ∧ isApex s = false ∧ walk (s.tree.held ++ givenNumbers l) l = w ∧ w.nodes.find? (fun x => x.1 == self) = some n ∧ w.conflict = none) ∧
    (∃ (l : List FoundNode) (self : Nat) (n : Nat × TreeNode) (s : State) (w : Walk), isApex s = true ∧ (walk s.tree.held (l.map fun e => { e with num := none }) = w) ∧ w.nodes.find? (fun x => x.1 == self) = some n ∧ w.conflict = none) ∧
    (∃ (l : List FoundNode) (self : Nat) (link : Nat) (n : Nat × TreeNode) (p : FoundPiste) (s : State) (w : Walk), isCell s = true ∧ walk (s.tree.held ++ givenNumbers l) l = w ∧ w.nodes.find? (fun x => x.1 == self) = some n ∧ w.conflict = none ∧ groupsFirst l self = false ∧ (entry l self).pistes.find? (fun x => x.link == link) = some p) ∧
    (∃ (l : List FoundNode) (self : Nat) (s : State), isApex s = false ∧ (walk (s.tree.held ++ givenNumbers l) l).nodes.find? (fun x => x.1 == self) = none) ∧
    (∃ (l : List FoundNode) (self : Nat) (s : State), isCell s = true ∧ (walk (s.tree.held ++ givenNumbers l) l).conflict = none ∧ groupsFirst l self = true) ∧
    (∃ (l : List FoundNode) (self : Nat) (link : Nat) (s : State), isCell s = true ∧ (walk (s.tree.held ++ givenNumbers l) l).conflict = none ∧ (entry l self).pistes.find? (fun x => x.link == link) = none) :=
  ⟨⟨([⟨none,0,0,none,false,[]⟩, ⟨none,0,3,none,false,[]⟩, ⟨none,1,7,none,false,[⟨2,5,true,5,5⟩]⟩] : List FoundNode), 2, (let l : List FoundNode := [⟨none,0,0,none,false,[]⟩, ⟨none,0,3,none,false,[]⟩, ⟨none,1,7,none,false,[⟨2,5,true,5,5⟩]⟩]; let self : Nat := 2; (((walk [] l).nodes.find? (fun x => x.1 == self)).getD (0, dTreeNode))), node, (let l : List FoundNode := [⟨none,0,0,none,false,[]⟩, ⟨none,0,3,none,false,[]⟩, ⟨none,1,7,none,false,[⟨2,5,true,5,5⟩]⟩]; let s : State := node; (walk (s.tree.held ++ givenNumbers l) l)), by decide⟩,
   ⟨([⟨none,0,0,none,false,[]⟩, ⟨none,0,3,none,false,[]⟩, ⟨none,1,7,none,false,[⟨2,5,true,5,5⟩]⟩] : List FoundNode), 0, (let l : List FoundNode := [⟨none,0,0,none,false,[]⟩, ⟨none,0,3,none,false,[]⟩, ⟨none,1,7,none,false,[⟨2,5,true,5,5⟩]⟩]; let self : Nat := 0; (((walk [] l).nodes.find? (fun x => x.1 == self)).getD (0, dTreeNode))), apex, (let l : List FoundNode := [⟨none,0,0,none,false,[]⟩, ⟨none,0,3,none,false,[]⟩, ⟨none,1,7,none,false,[⟨2,5,true,5,5⟩]⟩]; let s : State := apex; (walk s.tree.held (l.map fun e => { e with num := none }))), by decide⟩,
   ⟨([⟨none,0,0,none,false,[]⟩, ⟨none,0,3,none,false,[]⟩, ⟨none,1,7,none,false,[⟨2,5,true,5,5⟩]⟩] : List FoundNode), 2, 2, (let l : List FoundNode := [⟨none,0,0,none,false,[]⟩, ⟨none,0,3,none,false,[]⟩, ⟨none,1,7,none,false,[⟨2,5,true,5,5⟩]⟩]; let self : Nat := 2; (((walk [] l).nodes.find? (fun x => x.1 == self)).getD (0, dTreeNode))), (⟨2,5,true,5,5⟩ : FoundPiste), cell, (let l : List FoundNode := [⟨none,0,0,none,false,[]⟩, ⟨none,0,3,none,false,[]⟩, ⟨none,1,7,none,false,[⟨2,5,true,5,5⟩]⟩]; let s : State := cell; (walk (s.tree.held ++ givenNumbers l) l)), by decide⟩,
   ⟨([] : List FoundNode), 3, node, by decide⟩,
   ⟨([⟨none,0,0,none,false,[]⟩, ⟨none,0,3,none,false,[⟨2,5,true,5,5⟩]⟩, ⟨none,1,1,none,false,[]⟩] : List FoundNode), 1, cell, by decide⟩,
   ⟨([] : List FoundNode), 0, 0, cell, by decide⟩⟩

/-- Obligations.PeriodParameters: the hypotheses of its clauses can be met. -/
theorem witness_PeriodParameters :
    (∃ (v : Nat) (s : State), rd O.SYS_RECOVERY s = 0 ∧ isApex s = true ∧ anyDeblocked s = false ∧ 1000 ≤ v ∧ v ≤ 40000 ∧ twoLevel s = true ∧ stageLimit s ≤ v ∧ rd O.TIM_APPLY_LAG s ≤ 4 * v ∧ ssiShut v s = false) ∧
    (∃ (v : Nat) (s : State), rd O.SYS_RECOVERY s = 0 ∧ isApex s = true ∧ anyDeblocked s = false ∧ 1000 ≤ v ∧ v ≤ 40000 ∧ 2000 ≤ v ∧ stageLimit s ≤ v ∧ rd O.TIM_APPLY_LAG s ≤ 4 * v ∧ ssiShut v s = false) ∧
    (∃ (v : Nat) (s : State), rd O.SYS_RECOVERY s = 0 ∧ isApex s = true ∧ anyDeblocked s = false ∧ 1 ≤ v ∧ v ≤ 160000 ∧ lagLimit s ≤ v ∧ v ≤ 4 * rd O.TIM_PERIOD s) ∧
    (∃ (v : Nat) (s : State), rd O.SYS_RECOVERY s = 0 ∧ isApex s = true ∧ anyDeblocked s = false ∧ 40 ≤ v ∧ v ≤ 400) ∧
    (∃ (v : Nat) (s : State), rd O.SYS_RECOVERY s = 0 ∧ isApex s = true ∧ anyDeblocked s = false ∧ v = 0) ∧
    (∃ (v : Nat) (s : State), rd O.SYS_RECOVERY s = 0 ∧ isApex s = true ∧ anyDeblocked s = false ∧ 1 ≤ v ∧ v ≤ 160000 ∧ s.tree.tIn ≤ 2500 * v) ∧
    (∃ (v : Nat) (s : State), rd O.SYS_RECOVERY s = 0 ∧ isApex s = true ∧ anyDeblocked s = false ∧ 1 ≤ v ∧ v ≤ 0x7FFFFFFF) ∧
    (∃ (s : State), rd O.SYS_RECOVERY s = 0 ∧ isApex s = false ∧ isNode s = true) ∧
    (∃ (s : State), rd O.SYS_RECOVERY s = 0 ∧ anyDeblocked s = true ∧ isNode s = true) ∧
    (∃ (v : Nat) (s : State), rd O.SYS_RECOVERY s = 0 ∧ isApex s = true ∧ anyDeblocked s = false ∧ v < 1000) ∧
    (∃ (v : Nat) (s : State), rd O.SYS_RECOVERY s = 0 ∧ isApex s = true ∧ anyDeblocked s = false ∧ 40000 < v) ∧
    (∃ (v : Nat) (s : State), rd O.SYS_RECOVERY s = 0 ∧ isApex s = true ∧ anyDeblocked s = false ∧ (twoLevel s = false ∧ v < 2000)) ∧
    (∃ (v : Nat) (s : State), rd O.SYS_RECOVERY s = 0 ∧ isApex s = true ∧ anyDeblocked s = false ∧ v < stageLimit s) ∧
    (∃ (v : Nat) (s : State), rd O.SYS_RECOVERY s = 0 ∧ isApex s = true ∧ anyDeblocked s = false ∧ 4 * v < rd O.TIM_APPLY_LAG s) ∧
    (∃ (v : Nat) (s : State), rd O.SYS_RECOVERY s = 0 ∧ isApex s = true ∧ anyDeblocked s = false ∧ ssiShut v s = true) ∧
    (∃ (v : Nat) (s : State), rd O.SYS_RECOVERY s = 0 ∧ isApex s = true ∧ anyDeblocked s = false ∧ 160000 < v) ∧
    (∃ (v : Nat) (s : State), rd O.SYS_RECOVERY s = 0 ∧ isApex s = true ∧ anyDeblocked s = false ∧ v < lagLimit s) ∧
    (∃ (s : State) (v : Nat), rd O.SYS_RECOVERY s = 0 ∧ isApex s = true ∧ anyDeblocked s = false ∧ 4 * rd O.TIM_PERIOD s < v) ∧
    (∃ (v : Nat) (s : State), rd O.SYS_RECOVERY s = 0 ∧ isApex s = true ∧ anyDeblocked s = false ∧ v < 40) ∧
    (∃ (v : Nat) (s : State), rd O.SYS_RECOVERY s = 0 ∧ isApex s = true ∧ anyDeblocked s = false ∧ 400 < v) ∧
    (∃ (v : Nat) (s : State), rd O.SYS_RECOVERY s = 0 ∧ isApex s = true ∧ anyDeblocked s = false ∧ (v ≠ 0 ∧ 2500 * v < s.tree.tIn)) ∧
    (∃ (v : Nat) (s : State), rd O.SYS_RECOVERY s = 0 ∧ isApex s = true ∧ anyDeblocked s = false ∧ 0x7FFFFFFF < v) :=
  ⟨⟨1000, (let v : Nat := 1000; let s : State := apex; let s : State := (wr O.SYS_RECOVERY 0 s); (wr O.TIM_APPLY_LAG (4 * v) s)), by decide⟩,
   ⟨2000, (let v : Nat := 2000; let s : State := apex; let s : State := (wr O.SYS_RECOVERY 0 s); (wr O.TIM_APPLY_LAG (4 * v) s)), by decide⟩,
   ⟨1, (let s : State := apex; (wr O.SYS_RECOVERY 0 s)), by decide⟩,
   ⟨40, (let s : State := apex; (wr O.SYS_RECOVERY 0 s)), by decide⟩,
   ⟨0, (let s : State := apex; (wr O.SYS_RECOVERY 0 s)), by decide⟩,
   ⟨1, (let s : State := apex; (wr O.SYS_RECOVERY 0 s)), by decide⟩,
   ⟨1, (let s : State := apex; (wr O.SYS_RECOVERY 0 s)), by decide⟩,
   ⟨(let s : State := node; (wr O.SYS_RECOVERY 0 s)), by decide⟩,
   ⟨(let s : State := apex; let s : State := (wr O.SYS_RECOVERY 0 s); wr O.CEL_ARM_DEBLOCK 1 s), by decide⟩,
   ⟨0, (let s : State := apex; (wr O.SYS_RECOVERY 0 s)), by decide⟩,
   ⟨((40000 + 1) : Nat), (let s : State := apex; (wr O.SYS_RECOVERY 0 s)), by decide⟩,
   ⟨1500, (let s : State := apex; let s : State := (wr O.SYS_RECOVERY 0 s); wr O.TIM_STAGE_MIN 0 { s with tree := { s.tree with kids := [(3, 1)] } }), by decide⟩,
   ⟨2500, (let s : State := apex; let s : State := (wr O.SYS_RECOVERY 0 s); wr O.TIM_STAGE_MIN 3000 s), by decide⟩,
   ⟨0, (let v : Nat := 0; let s : State := apex; let s : State := (wr O.SYS_RECOVERY 0 s); (wr O.TIM_APPLY_LAG (4 * v + 1) s)), by decide⟩,
   ⟨1000, (let s : State := apex; let s : State := (wr O.SYS_RECOVERY 0 s); wr O.TIM_APPLY_LAG 1 (wr O.POS_SSI_MODE 1 (wr O.POS_SSI_BITS 32 (wr O.POS_SSI_CLOCK 0 (wr O.POS_SSI_DIV 1 s))))), by decide⟩,
   ⟨((160000 + 1) : Nat), (let s : State := apex; let s : State := (wr O.SYS_RECOVERY 0 s); wr O.CEL_ARM_DEBLOCK 0 s), by decide⟩,
   ⟨1, (let s : State := apex; let s : State := (wr O.SYS_RECOVERY 0 s); { (wr O.CEL_ARM_DEBLOCK 0 s) with tree := { s.tree with peerLagMin := 2 } }), by decide⟩,
   ⟨(let s : State := apex; let s : State := (wr O.SYS_RECOVERY 0 s); wr O.CEL_ARM_DEBLOCK 0 s), (let s : State := apex; let s : State := (wr O.SYS_RECOVERY 0 s); let s : State := wr O.CEL_ARM_DEBLOCK 0 s; (4 * rd O.TIM_PERIOD s + 1)), by decide⟩,
   ⟨0, (let s : State := apex; let s : State := (wr O.SYS_RECOVERY 0 s); wr O.CEL_ARM_DEBLOCK 0 s), by decide⟩,
   ⟨((400 + 1) : Nat), (let s : State := apex; let s : State := (wr O.SYS_RECOVERY 0 s); wr O.CEL_ARM_DEBLOCK 0 s), by decide⟩,
   ⟨1, (let s : State := apex; let s : State := (wr O.SYS_RECOVERY 0 s); { (wr O.CEL_ARM_DEBLOCK 0 s) with tree := { s.tree with tIn := 2501 } }), by decide⟩,
   ⟨((0x7FFFFFFF + 1) : Nat), (let s : State := apex; (wr O.SYS_RECOVERY 0 s)), by decide⟩⟩

/-- Obligations.NewSetWaitsFourPeriods: the hypotheses of its clauses can be met. -/
theorem witness_NewSetWaitsFourPeriods :
    (∃ (f : ParamSet) (s : State), s.tim.inForce = some f ∧ 0 < f.t) :=
  ⟨P0, (let f : ParamSet := P0; let s : State := node; let s : State := ({ s with tim := { s.tim with inForce := some f } }); { s with tim := { s.tim with inForce := some P0 } }), by decide⟩

/-- Obligations.ArmDeblockMask: the hypotheses of its clauses can be met. -/
theorem witness_ArmDeblockMask :
    (∃ (v : Nat) (s : State), rd O.SYS_RECOVERY s = 0 ∧ isApex s = true ∧ v < 2 ^ 64 ∧ v ≠ rd O.CEL_ARM_DEBLOCK s ∧ (∀ a, a < 64 → bit v a = true → bit (rd O.CEL_ARM_DEBLOCK s) a = true)) ∧
    (∃ (v : Nat) (s : State), rd O.SYS_RECOVERY s = 0 ∧ isApex s = true ∧ v < 2 ^ 64 ∧ v ≠ rd O.CEL_ARM_DEBLOCK s ∧ (rd O.TIM_LAG_STATUS s ≠ 2 ∧ rd O.LAW_STATE s = 1 ∧ (∀ a, a < 64 → bit v a = true → bit (rd O.CEL_ARM_DEBLOCK s) a = false → armBound a s = true) ∧ rd O.RED_WIRING_NODES s = 0 ∧ (∀ n ∈ s.ket.latched, bit (reactOf n s) 4 = false) ∧ rd O.SAF_BLOCK_NODES s = 0 ∧ inSafeBlock s = false)) ∧
    (∃ (s : State) (v : Nat), rd O.SYS_RECOVERY s = 0 ∧ isApex s = true ∧ v < 2 ^ 64 ∧ v = rd O.CEL_ARM_DEBLOCK s) ∧
    (∃ (v : Nat) (a : Nat) (s : State), isApex s = true ∧ a < 64 ∧ bit v a = true ∧ bit (rd O.CEL_ARM_DEBLOCK s) a = false ∧ rd O.TIM_LAG_STATUS s = 2) ∧
    (∃ (v : Nat) (a : Nat) (s : State), isApex s = true ∧ a < 64 ∧ bit v a = true ∧ bit (rd O.CEL_ARM_DEBLOCK s) a = false ∧ rd O.LAW_STATE s ≠ 1) ∧
    (∃ (v : Nat) (a : Nat) (s : State), isApex s = true ∧ a < 64 ∧ bit v a = true ∧ bit (rd O.CEL_ARM_DEBLOCK s) a = false ∧ armBound a s = false) ∧
    (∃ (v : Nat) (a : Nat) (s : State), isApex s = true ∧ a < 64 ∧ bit v a = true ∧ bit (rd O.CEL_ARM_DEBLOCK s) a = false ∧ rd O.RED_WIRING_NODES s ≠ 0) ∧
    (∃ (v : Nat) (a : Nat) (s : State), isApex s = true ∧ a < 64 ∧ bit v a = true ∧ bit (rd O.CEL_ARM_DEBLOCK s) a = false ∧ rd O.SAF_BLOCK_NODES s ≠ 0) ∧
    (∃ (v : Nat) (a : Nat) (s : State), isApex s = true ∧ a < 64 ∧ bit v a = true ∧ bit (rd O.CEL_ARM_DEBLOCK s) a = false ∧ inSafeBlock s = true) ∧
    (∃ (v : Nat) (a : Nat) (s : State), isApex s = true ∧ a < 64 ∧ bit v a = true ∧ bit (rd O.CEL_ARM_DEBLOCK s) a = false ∧ (∃ n ∈ s.ket.latched, bit (reactOf n s) 4 = true)) ∧
    (∃ (v : Nat) (a : Nat) (s : State), isApex s = true ∧ a < 64 ∧ bit v a = true ∧ bit (rd O.CEL_ARM_DEBLOCK s) a = false ∧ rd O.SYS_RECOVERY s ≠ 0) ∧
    (∃ (s : State), isNode s = true ∧ isApex s = false) ∧
    (∃ (s : State), isCell s = true) :=
  ⟨⟨0, (let s : State := apex; let s : State := (wr O.SYS_RECOVERY 0 s); wr O.CEL_ARM_DEBLOCK 5 s), by decide⟩,
   ⟨1, (let s : State := apex; let s : State := (wr O.SYS_RECOVERY 0 s); let s : State := (wr O.TIM_LAG_STATUS (2 + 1) s); let s : State := (wr O.LAW_STATE 1 s); let s : State := (wr O.RED_WIRING_NODES 0 s); let s : State := (wr O.SAF_BLOCK_NODES 0 s); wr (O.LAW_OUT_BIND 0) 0x10000000 (wr O.LAW_OUTPUTS 1 (wr O.CEL_ARM_DEBLOCK 0 (wr O.SAF_BLOCK_NODES 0 (wr O.RED_WIRING_NODES 0 (wr O.LAW_STATE 1 (wr O.TIM_LAG_STATUS 0 (wr O.SAF_STATE 2 { s with ket := { s.ket with latched := [] } })))))))), by decide⟩,
   ⟨(let s : State := apex; (wr O.SYS_RECOVERY 0 s)), (let s : State := apex; let s : State := (wr O.SYS_RECOVERY 0 s); rd O.CEL_ARM_DEBLOCK s), by decide⟩,
   ⟨1, 0, (let a : Nat := 0; let s : State := apex; let s : State := (wrBit O.CEL_ARM_DEBLOCK a false s); (wr O.TIM_LAG_STATUS 2 s)), by decide⟩,
   ⟨1, 0, (let a : Nat := 0; let s : State := apex; let s : State := (wrBit O.CEL_ARM_DEBLOCK a false s); (wr O.LAW_STATE (1 + 1) s)), by decide⟩,
   ⟨1, 0, (let a : Nat := 0; let s : State := apex; let s : State := (wrBit O.CEL_ARM_DEBLOCK a false s); wr O.LAW_OUTPUTS 0 s), by decide⟩,
   ⟨1, 0, (let a : Nat := 0; let s : State := apex; let s : State := (wrBit O.CEL_ARM_DEBLOCK a false s); (wr O.RED_WIRING_NODES (0 + 1) s)), by decide⟩,
   ⟨1, 0, (let a : Nat := 0; let s : State := apex; let s : State := (wrBit O.CEL_ARM_DEBLOCK a false s); (wr O.SAF_BLOCK_NODES (0 + 1) s)), by decide⟩,
   ⟨1, 0, (let a : Nat := 0; let s : State := apex; (wrBit O.CEL_ARM_DEBLOCK a false s)), by decide⟩,
   ⟨1, 0, (let a : Nat := 0; let s : State := apex; let s : State := (wrBit O.CEL_ARM_DEBLOCK a false s); wr (O.KET_REACT 200) 16 { s with ket := { s.ket with latched := [200] } }), by decide⟩,
   ⟨1, 0, (let a : Nat := 0; let s : State := apex; let s : State := (wrBit O.CEL_ARM_DEBLOCK a false s); (wr O.SYS_RECOVERY (0 + 1) s)), by decide⟩,
   ⟨node, by decide⟩,
   ⟨cell, by decide⟩⟩

/-- Obligations.PMarkBeginsPeriod: the hypotheses of its clauses can be met. -/
theorem witness_PMarkBeginsPeriod :
    (∃ (k : Nat) (s : State), nextPeriod s = some k) ∧
    (∃ (f : ParamSet) (s : State), s.tim.inForce = some f) ∧
    (∃ (s : State), s.tim.inForce = none ∧ s.tim.pend = none) ∧
    (∃ (x : Nat), x < 2 ^ 31) :=
  ⟨⟨6, (let s : State := node; wr O.TIM_PERIOD_NUMBER 5 (grid s)), by decide⟩,
   ⟨dParamSet, (let f : ParamSet := dParamSet; let s : State := node; ({ s with tim := { s.tim with inForce := some f } })), by decide⟩,
   ⟨(let s : State := node; let s : State := ({ s with tim := { s.tim with inForce := none } }); ({ s with tim := { s.tim with pend := none } })), by decide⟩,
   ⟨0, by decide⟩⟩

/-- Obligations.KeysAreUnique: the hypotheses of its clauses can be met. -/
theorem witness_KeysAreUnique :
    (∃ (idx : Nat) (idx' : Nat), idx < 1024 ∧ idx' < 1024 ∧ idx ≠ idx') :=
  ⟨0, 1023, by decide⟩

/-- Obligations.SelectionInsertsExactlyN: the hypotheses of its clauses can be met. -/
theorem witness_SelectionInsertsExactlyN :
    (∃ (keys : List Nat) (mag : Nat) (t : Nat), List.Pairwise (· < ·) keys ∧ (∀ k ∈ keys, k < 2 ^ 26) ∧ 0 < t ∧ (selectKeys keys mag t).1 = 0) ∧
    (∃ (keys : List Nat) (mag : Nat) (t : Nat), List.Pairwise (· < ·) keys ∧ (∀ k ∈ keys, k < 2 ^ 26) ∧ 0 < t ∧ (selectKeys keys mag t).1 ≠ 0) ∧
    (∃ (keys : List Nat) (mag : Nat) (t : Nat), List.Pairwise (· < ·) keys ∧ (∀ k ∈ keys, k < 2 ^ 26) ∧ 0 < t ∧ (selectKeys keys mag t).2.2.2.2.1 ≠ 0xFFFFFFFF) :=
  ⟨⟨([] : List Nat), 0, ((0 + 1) : Nat), by decide⟩,
   ⟨([3,5,67108863] : List Nat), 0x18000, 400, by decide⟩,
   ⟨([3,5,67108863] : List Nat), 0x18000, 400, by decide⟩⟩

/-- Obligations.ApportioningSumsToRequest: the hypotheses of its clauses can be met. -/
theorem witness_ApportioningSumsToRequest :
    (∃ (neg : Bool) (mag : Nat) (start : Nat) (gs : List AppGroup), (apportion neg mag start gs).sat = true) ∧
    (∃ (neg : Bool) (mag : Nat) (start : Nat) (gs : List AppGroup), (apportion neg mag start gs).sat = false) :=
  ⟨⟨false, 65536, 0, ([] : List AppGroup), by decide⟩,
   ⟨false, 0, 0, ([] : List AppGroup), by decide⟩⟩

/-- Obligations.HistogramsHoldEveryCell: the hypotheses of its clauses can be met. -/
theorem witness_HistogramsHoldEveryCell :
    (∃ (l : List (Nat × Report)), l.length ≤ 1024) :=
  ⟨([] : List (Nat × Report)), by decide⟩

/-- Obligations.ReportsAreCountedOrCharged: the hypotheses of its clauses can be met. -/
theorem witness_ReportsAreCountedOrCharged :
    (∃ (s : State), isNode s = false) ∧
    (∃ (crc : Bool), crc = false) ∧
    (∃ (r : Report), r.valid = false) ∧
    (∃ (r : Report) (s : State), isNode s = true ∧ r.valid = true ∧ 1023 < r.cellIndex) ∧
    (∃ (r : Report) (s : State), isNode s = true ∧ r.valid = true ∧ s.bal.works.find? (fun x => low 32 x.k == r.period) = none) ∧
    (∃ (r : Report) (s : State), isNode s = true ∧ r.valid = true ∧ (∃ w, s.bal.works.find? (fun x => low 32 x.k == r.period) = some w ∧ (w.ended = true ∨ (awaited (rd (O.BAL_LINK_ARM (r.cellIndex / 16)) s) s).contains r.cellIndex = false))) ∧
    (∃ (r : Report) (w : PeriodWork) (s : State), isNode s = true ∧ r.valid = true ∧ r.cellIndex ≤ 1023 ∧ s.bal.works.find? (fun x => low 32 x.k == r.period) = some w ∧ w.ended = false ∧ (awaited (rd (O.BAL_LINK_ARM (r.cellIndex / 16)) s) s).contains r.cellIndex = true) ∧
    (∃ (h : Hdr), h.relayed = true) ∧
    (∃ (link : Nat) (s : State), rdBit O.BAL_SPLIT_PISTES link s = false) ∧
    (∃ (link : Nat) (j : Nat) (rel : Bool) (r : Report) (w : PeriodWork) (s : State), j ≤ 5 ∧ work? w.k s = some w ∧ aget w.heard r.cellIndex = none ∧ w.closed.contains j = false ∧ sinceP w.k s ≤ pisteDeadline (r.cellIndex / 16, pisteLen (r.cellIndex / 16) s) s ∧ (rel = true → w.direct.contains r.cellIndex = false ∧ rdBit O.BAL_SPLIT_PISTES (r.cellIndex / 16) s = true) ∧ (rel = false → r.cellIndex / 16 = link)) ∧
    (∃ (j : Nat) (r : Report) (w : PeriodWork) (s : State), j ≤ 5 ∧ work? w.k s = some w ∧ aget w.heard r.cellIndex = none ∧ w.direct.contains r.cellIndex = false ∧ rdBit O.BAL_SPLIT_PISTES (r.cellIndex / 16) s = true ∧ w.splitLate.contains r.cellIndex = false ∧ w.closed.contains j = true) ∧
    (∃ (j : Nat) (r : Report) (w : PeriodWork) (s : State), j ≤ 5 ∧ work? w.k s = some w ∧ aget w.heard r.cellIndex = none ∧ w.direct.contains r.cellIndex = false ∧ rdBit O.BAL_SPLIT_PISTES (r.cellIndex / 16) s = true ∧ w.splitLate.contains r.cellIndex = false ∧ pisteDeadline (r.cellIndex / 16, pisteLen (r.cellIndex / 16) s) s < sinceP w.k s) ∧
    (∃ (link : Nat) (rel : Bool) (r : Report), (rel = false ∧ r.cellIndex / 16 ≠ link)) ∧
    (∃ (rel : Bool) (r : Report) (w : PeriodWork) (s : State), (rel = true ∧ (w.direct.contains r.cellIndex = true ∨ rdBit O.BAL_SPLIT_PISTES (r.cellIndex / 16) s = false))) ∧
    (∃ (j : Nat) (rel : Bool) (r : Report) (w : PeriodWork) (s : State), ((w.closed.contains j = true ∨ pisteDeadline (r.cellIndex / 16, pisteLen (r.cellIndex / 16) s) s < sinceP w.k s) ∧ (rel = false ∨ (aget w.heard r.cellIndex).isSome = true ∨ w.splitLate.contains r.cellIndex = true))) ∧
    (∃ (j : Nat) (w : PeriodWork) (s : State), isNode s = true ∧ slotPistes j s ≠ [] ∧ oldest (fun w => !w.closed.contains j) s = some w) ∧
    (∃ (j : Nat) (s : State), slotPistes j s = []) ∧
    (∃ (j : Nat) (s : State), oldest (fun w => !w.closed.contains j) s = none) ∧
    (∃ (k : Nat) (j : Nat) (w : PeriodWork) (s : State), j ≤ 5 ∧ work? k s = some w ∧ w.closed.contains j = false ∧ rd (O.BAL_MISSING j) s < 2 ^ 32 ∧ rd (O.BAL_MASK_EXCLUDED j) s < 2 ^ 32) ∧
    (∃ (k : Nat) (j : Nat) (w : PeriodWork) (s : State), work? k s = some w ∧ w.closed.contains j = true) ∧
    (∃ (i : Nat) (w : PeriodWork), aget w.heard i = none) ∧
    (∃ (i : Nat) (w : PeriodWork) (r : Report), aget w.heard i = some r) :=
  ⟨⟨cell, by decide⟩,
   ⟨false, by decide⟩,
   ⟨({ dReport with cellIndex := 1024 } : Report), by decide⟩,
   ⟨({ dReport with cellIndex := 0xFFFF } : Report), node, by decide⟩,
   ⟨dReport, (let s : State := node; ({ s with bal := { s.bal with works := [] } })), by decide⟩,
   ⟨({ dReport with cellIndex := 0xFF, period := 0 } : Report), (let s : State := node; { (grid (wr (O.BAL_LINK_ARM 15) 0 s)) with tree := { s.tree with pistes := [(0,5)] }, bal := { s.bal with works := [wk0] } }), by decide⟩,
   ⟨({ dReport with cellIndex := 3, period := 0 } : Report), wk0, (let w : PeriodWork := wk0; let s : State := node; let s : State := ({ s with bal := { s.bal with works := [w] } }); { (grid (wr (O.BAL_LINK_ARM 0) 0 s)) with tree := { s.tree with pistes := [(0,5)] }, bal := { s.bal with works := [w] } }), by decide⟩,
   ⟨(let h : Hdr := dHdr; ({ h with relayed := true })), by decide⟩,
   ⟨0, (let link : Nat := 0; let s : State := node; (wrBit O.BAL_SPLIT_PISTES link false s)), by decide⟩,
   ⟨0, 0, false, dReport, dPeriodWork, (let w : PeriodWork := dPeriodWork; let s : State := cell; { s with bal := { s.bal with works := [{ w with k := w.k }] } }), by decide⟩,
   ⟨0, ({ dReport with cellIndex := 3, period := 0 } : Report), ({ wk0 with closed := [0] } : PeriodWork), (let w : PeriodWork := { wk0 with closed := [0] }; let s : State := cell; let s : State := { s with bal := { s.bal with works := [{ w with k := w.k }] } }; wrBit O.BAL_SPLIT_PISTES 0 true { (grid (wr (O.BAL_LINK_ARM 0) 0 s)) with tree := { s.tree with pistes := [(0,5)] }, bal := { s.bal with works := [w] } }), by decide⟩,
   ⟨0, ({ dReport with cellIndex := 3, period := 0 } : Report), wk0, (let w : PeriodWork := wk0; let s : State := cell; let s : State := { s with bal := { s.bal with works := [{ w with k := w.k }] } }; { wrBit O.BAL_SPLIT_PISTES 0 true { (grid (wr (O.BAL_LINK_ARM 0) 0 s)) with tree := { s.tree with pistes := [(0,5)] }, bal := { s.bal with works := [w] } } with tick := 10000 }), by decide⟩,
   ⟨3, false, dReport, by decide⟩,
   ⟨true, dReport, dPeriodWork, node, by decide⟩,
   ⟨0, false, dReport, ({ wk0 with closed := [0], splitLate := [0] } : PeriodWork), node, by decide⟩,
   ⟨0, wk0, (let s : State := node; { (wr (O.BAL_LINK_ARM 0) 0 (grid s)) with tree := { s.tree with pistes := [(0,3)], kids := [] }, bal := { s.bal with works := [wk0] } }), by decide⟩,
   ⟨0, node, by decide⟩,
   ⟨0, node, by decide⟩,
   ⟨0, 0, dPeriodWork, (let k : Nat := 0; let j : Nat := 0; let w : PeriodWork := dPeriodWork; let s : State := node; let s : State := { s with bal := { s.bal with works := [{ w with k := k }] } }; let s : State := (wr (O.BAL_MISSING j) (2 ^ 32 - 1) s); (wr (O.BAL_MASK_EXCLUDED j) (2 ^ 32 - 1) s)), by decide⟩,
   ⟨0, 0, (let j : Nat := 0; { wk0 with closed := [j] }), (let k : Nat := 0; let j : Nat := 0; let w : PeriodWork := { wk0 with closed := [j] }; let s : State := node; { s with bal := { s.bal with works := [{ w with k := k }] } }), by decide⟩,
   ⟨0, dPeriodWork, by decide⟩,
   ⟨3, ({ wk0 with heard := [(3, { dReport with avail := true })] } : PeriodWork), ({ dReport with avail := true } : Report), by decide⟩⟩

/-- Obligations.ReferenceIsTaken: the hypotheses of its clauses can be met. -/
theorem witness_ReferenceIsTaken :
    (∃ (s : State), isNode s = false) ∧
    (∃ (s : State), isApex s = true) ∧
    (∃ (crc : Bool), crc = false) ∧
    (∃ (r : Reference), r.valid = false) ∧
    (∃ (r : Reference) (s : State), s.bal.works.find? (fun x => low 32 x.k == r.period) = none) ∧
    (∃ (r : Reference) (w : PeriodWork) (s : State), isNode s = true ∧ isApex s = false ∧ r.valid = true ∧ s.bal.works.find? (fun x => low 32 x.k == r.period) = some w ∧ w.refs = none ∧ w.ended = false) ∧
    (∃ (r : Reference) (w : PeriodWork) (s : State), isNode s = true ∧ isApex s = false ∧ r.valid = true ∧ s.bal.works.find? (fun x => low 32 x.k == r.period) = some w ∧ w.refs.isSome = true) ∧
    (∃ (r : Reference) (w : PeriodWork) (s : State), isNode s = true ∧ isApex s = false ∧ r.valid = true ∧ s.bal.works.find? (fun x => low 32 x.k == r.period) = some w ∧ w.ended = true) :=
  ⟨⟨cell, by decide⟩,
   ⟨apex, by decide⟩,
   ⟨false, by decide⟩,
   ⟨dReference, by decide⟩,
   ⟨dReference, (let s : State := node; ({ s with bal := { s.bal with works := [] } })), by decide⟩,
   ⟨({ period := 0, entries := [{ dRefEntry with arm := 63 }] } : Reference), ({ wk0 with refs := none, ended := false } : PeriodWork), (let w : PeriodWork := { wk0 with refs := none, ended := false }; let s : State := node; let s : State := ({ s with bal := { s.bal with works := [w] } }); { s with bal := { s.bal with works := [{ wk0 with refs := none, ended := false }] } }), by decide⟩,
   ⟨({ period := 0, entries := [{ dRefEntry with arm := 63 }] } : Reference), ({ wk0 with refs := some [] } : PeriodWork), (let w : PeriodWork := { wk0 with refs := some [] }; let s : State := node; let s : State := ({ s with bal := { s.bal with works := [w] } }); { s with bal := { s.bal with works := [{ wk0 with refs := some [] }] } }), by decide⟩,
   ⟨({ period := 0, entries := [{ dRefEntry with arm := 63 }] } : Reference), ({ wk0 with ended := true } : PeriodWork), (let w : PeriodWork := { wk0 with ended := true }; let s : State := node; let s : State := ({ s with bal := { s.bal with works := [w] } }); { s with bal := { s.bal with works := [{ wk0 with ended := true }] } }), by decide⟩⟩

/-- Obligations.LatePeriodIsAbandoned: the hypotheses of its clauses can be met. -/
theorem witness_LatePeriodIsAbandoned :
    (∃ (w : PeriodWork) (s : State), isNode s = true ∧ (oldest (fun w => !w.ended && (if (allGroups s).isEmpty then (slotsHere s).any fun j => !w.launched.contains j else !w.apportioned)) s = some w) ∧ work? w.k s = some w) ∧
    (∃ (s : State), isNode s = false) ∧
    (∃ (s : State), (oldest (fun w => !w.ended && (if (allGroups s).isEmpty then (slotsHere s).any fun j => !w.launched.contains j else !w.apportioned)) s = none)) :=
  ⟨⟨wk0, (let w : PeriodWork := wk0; let s : State := node; let s : State := { s with bal := { s.bal with works := [{ w with k := w.k }] } }; { (grid (wr (O.BAL_LINK_ARM 0) 0 s)) with tree := { s.tree with pistes := [(0,3)] }, bal := { s.bal with works := [wk0] } }), by decide⟩,
   ⟨cell, by decide⟩,
   ⟨node, by decide⟩⟩

/-- Obligations.CommandsLaunchAfterComparison: the hypotheses of its clauses can be met. -/
theorem witness_CommandsLaunchAfterComparison :
    (∃ (j : Nat) (w : PeriodWork) (r : Sel) (s : State), isNode s = true ∧ slotPistes j s ≠ [] ∧ oldest (fun w => !w.launched.contains j && !w.ended && (aget w.sel j).isSome) s = some w ∧ aget w.sel j = some r) ∧
    (∃ (s : State), isNode s = false) ∧
    (∃ (j : Nat) (s : State), slotPistes j s = []) ∧
    (∃ (j : Nat) (s : State), oldest (fun w => !w.launched.contains j && !w.ended && (aget w.sel j).isSome) s = none) ∧
    (∃ (k : Nat) (w : PeriodWork) (s : State), work? k s = some w ∧ w.ended = false ∧ (working 0 s).length < 2) ∧
    (∃ (k : Nat) (w : PeriodWork) (vote : Nat) (s : State), work? k s = some w ∧ w.ended = false ∧ 2 ≤ (working 0 s).length ∧ vote = 0) ∧
    (∃ (k : Nat) (w : PeriodWork) (vote : Nat) (s : State), work? k s = some w ∧ w.ended = false ∧ 2 ≤ (working 0 s).length ∧ (vote = 3 ∧ ∀ t, s.bal.triage = some t → k < t)) ∧
    (∃ (k : Nat) (vote : Nat) (w : PeriodWork) (s : State), work? k s = some w ∧ w.ended = false ∧ 2 ≤ (working 0 s).length ∧ s.bal.triage = none ∧ vote ≠ 0 ∧ vote ≠ 3) ∧
    (∃ (k : Nat) (vote : Nat) (w : PeriodWork) (t : Nat) (s : State), work? k s = some w ∧ w.ended = false ∧ 2 ≤ (working 0 s).length ∧ s.bal.triage = some t ∧ k < t ∧ vote ≠ 0 ∧ vote ≠ 3) ∧
    (∃ (k : Nat) (vote : Nat) (w : PeriodWork) (t : Nat) (s : State), work? k s = some w ∧ w.ended = false ∧ 2 ≤ (working 0 s).length ∧ s.bal.triage = some t ∧ t ≤ k ∧ vote = 4) ∧
    (∃ (k : Nat) (w : PeriodWork) (t : Nat) (vote : Nat) (s : State), work? k s = some w ∧ w.ended = false ∧ 2 ≤ (working 0 s).length ∧ s.bal.triage = some t ∧ t ≤ k ∧ vote = 1) ∧
    (∃ (k : Nat) (w : PeriodWork) (t : Nat) (vote : Nat) (s : State), work? k s = some w ∧ w.ended = false ∧ 2 ≤ (working 0 s).length ∧ s.bal.triage = some t ∧ t ≤ k ∧ vote = 2) ∧
    (∃ (k : Nat) (vote : Nat) (w : PeriodWork) (t : Nat) (s : State) (p : Nat), work? k s = some w ∧ w.ended = false ∧ 2 ≤ (working 0 s).length ∧ s.bal.triage = some t ∧ t ≤ k ∧ vote = 3 ∧ (classMap 0 s).spares.head? = some p) ∧
    (∃ (w : PeriodWork) (s : State), work? w.k s = some w) ∧
    (∃ (p : Nat × Nat) (j : Nat) (w : PeriodWork) (r : Sel) (s : State), (commandFor p j w r s).carveEn = false) ∧
    (∃ (q : Nat), q < 16) ∧
    (∃ (s : State), inSafeBlock s = true) :=
  ⟨⟨0, ({ wk0 with sel := [(0, { dSel with kCarve := 77, tCarve := 5, n := 1 })] } : PeriodWork), ({ dSel with kCarve := 77, tCarve := 5, n := 1 } : Sel), (let w : PeriodWork := { wk0 with sel := [(0, { dSel with kCarve := 77, tCarve := 5, n := 1 })] }; let s : State := node; { (grid (wr (O.BAL_LINK_ARM 0) 0 s)) with tree := { s.tree with pistes := [(0,3)] }, bal := { s.bal with works := [w] } }), by decide⟩,
   ⟨cell, by decide⟩,
   ⟨0, node, by decide⟩,
   ⟨0, node, by decide⟩,
   ⟨0, (let w : PeriodWork := dPeriodWork; ({ w with ended := false })), (let k : Nat := 0; let w : PeriodWork := dPeriodWork; let w : PeriodWork := ({ w with ended := false }); let s : State := node; let s : State := { s with bal := { s.bal with works := [{ w with k := k }] } }; { s with sys := { s.sys with maps := s.sys.maps.set 0 { (s.sys.maps.getD 0 dClassMap) with map := [some 0], spares := [3] } } }), by decide⟩,
   ⟨0, (let w : PeriodWork := dPeriodWork; ({ w with ended := false })), 0, (let k : Nat := 0; let w : PeriodWork := dPeriodWork; let w : PeriodWork := ({ w with ended := false }); let s : State := node; { s with bal := { s.bal with works := [{ w with k := k }] } }), by decide⟩,
   ⟨0, (let w : PeriodWork := dPeriodWork; ({ w with ended := false })), 3, (let k : Nat := 0; let w : PeriodWork := dPeriodWork; let w : PeriodWork := ({ w with ended := false }); let s : State := node; { s with bal := { s.bal with works := [{ w with k := k }] } }), by decide⟩,
   ⟨0, ((0 + 1) : Nat), (let w : PeriodWork := dPeriodWork; ({ w with ended := false })), (let k : Nat := 0; let w : PeriodWork := dPeriodWork; let w : PeriodWork := ({ w with ended := false }); let s : State := node; let s : State := { s with bal := { s.bal with works := [{ w with k := k }] } }; ({ s with bal := { s.bal with triage := none } })), by decide⟩,
   ⟨5, 1, (let k : Nat := 5; { wk0 with k := 5 }), 9, (let k : Nat := 5; let w : PeriodWork := { wk0 with k := 5 }; let t : Nat := 9; let s : State := node; let s : State := { s with bal := { s.bal with works := [{ w with k := k }] } }; ({ s with bal := { s.bal with triage := some t } })), by decide⟩,
   ⟨5, 4, (let k : Nat := 5; { wk0 with k := 5 }), 2, (let k : Nat := 5; let w : PeriodWork := { wk0 with k := 5 }; let t : Nat := 2; let s : State := node; let s : State := { s with bal := { s.bal with works := [{ w with k := k }] } }; ({ s with bal := { s.bal with triage := some t } })), by decide⟩,
   ⟨5, (let k : Nat := 5; { wk0 with k := 5 }), 2, 1, (let k : Nat := 5; let w : PeriodWork := { wk0 with k := 5 }; let t : Nat := 2; let s : State := node; let s : State := { s with bal := { s.bal with works := [{ w with k := k }] } }; ({ s with bal := { s.bal with triage := some t } })), by decide⟩,
   ⟨5, (let k : Nat := 5; { wk0 with k := 5 }), 2, 2, (let k : Nat := 5; let w : PeriodWork := { wk0 with k := 5 }; let t : Nat := 2; let s : State := node; let s : State := { s with bal := { s.bal with works := [{ w with k := k }] } }; ({ s with bal := { s.bal with triage := some t } })), by decide⟩,
   ⟨5, 3, (let k : Nat := 5; { wk0 with k := 5 }), 2, (let k : Nat := 5; let w : PeriodWork := { wk0 with k := 5 }; let t : Nat := 2; let s : State := node; let s : State := { s with bal := { s.bal with works := [{ w with k := k }] } }; ({ s with bal := { s.bal with triage := some t } })), (let k : Nat := 5; let w : PeriodWork := { wk0 with k := 5 }; let t : Nat := 2; let s : State := node; let s : State := { s with bal := { s.bal with works := [{ w with k := k }] } }; let s : State := ({ s with bal := { s.bal with triage := some t } }); ((classMap 0 s).spares.headD 0)), by decide⟩,
   ⟨dPeriodWork, (let w : PeriodWork := dPeriodWork; let s : State := node; { s with bal := { s.bal with works := [{ w with k := w.k }] } }), by decide⟩,
   ⟨((0, 0) : Nat × Nat), 0, dPeriodWork, ({ dSel with kCarve := 0xFFFFFFFF, tCarve := 9 } : Sel), node, by decide⟩,
   ⟨0, by decide⟩,
   ⟨node, by decide⟩⟩

/-- Obligations.UncountedCellsAreExcluded: the hypotheses of its clauses can be met. -/
theorem witness_UncountedCellsAreExcluded :
    (∃ (p : Nat × Nat) (q : Nat), q < 16 ∧ q < p.2) ∧
    (∃ (c : Command) (s : State), bit c.exclude (rd O.TREE_CELL_INDEX s % 16) = true) :=
  ⟨⟨((63, 16) : Nat × Nat), 15, by decide⟩,
   ⟨({ dCommand with exclude := 0x8000 } : Command), (let s : State := cell; wr O.TREE_CELL_INDEX 1023 s), by decide⟩⟩

/-- Obligations.GroupFrames: the hypotheses of its clauses can be met. -/
theorem witness_GroupFrames :
    (∃ (w : PeriodWork) (s : State), isNode s = true ∧ allGroups s ≠ [] ∧ oldest (fun w => !w.apportioned && !w.ended && w.refs.isSome) s = some w) ∧
    (∃ (w : PeriodWork) (s : State), isNode s = true ∧ isApex s = false ∧ oldest (fun w => !w.sumSent && !(w.ended && s.bal.withheldK == some w.k) && inputsDone w s) s = some w) ∧
    (∃ (s : State), isNode s = false) ∧
    (∃ (s : State), allGroups s = []) ∧
    (∃ (s : State), oldest (fun w => !w.apportioned && !w.ended && w.refs.isSome) s = none) ∧
    (∃ (s : State), isApex s = true) ∧
    (∃ (s : State), oldest (fun w => !w.sumSent && !(w.ended && s.bal.withheldK == some w.k) && inputsDone w s) s = none) ∧
    (∃ (link : Nat) (y : Summary) (g : Nat) (w : PeriodWork) (s : State), isNode s = true ∧ y.valid = true ∧ groupLink link s = some g ∧ s.bal.works.find? (fun x => low 32 x.k == y.period) = some w ∧ w.lost.contains g = false ∧ aget w.sums g = none ∧ (match y with | .arms _ _ => 6 ≤ rd (O.BAL_LINK_ARM g) s ∨ (slotGroups (rd (O.BAL_LINK_ARM g) s) s).length < 2 | .group _ _ => True) ∧ rd (O.BAL_LINK_ARM g) s ≠ 0xFE) ∧
    (∃ (link : Nat) (p : Nat) (l : List ArmSum) (g : Nat) (w : PeriodWork) (s : State) (j : Nat), isNode s = true ∧ (Summary.arms p l).valid = true ∧ groupLink link s = some g ∧ s.bal.works.find? (fun x => low 32 x.k == p) = some w ∧ w.lost.contains g = false ∧ aget w.sums g = none ∧ j = rd (O.BAL_LINK_ARM g) s ∧ j ≤ 5 ∧ 2 ≤ (slotGroups j s).length) ∧
    (∃ (link : Nat) (y : Summary) (g : Nat) (w : PeriodWork) (s : State), isNode s = true ∧ y.valid = true ∧ groupLink link s = some g ∧ s.bal.works.find? (fun x => low 32 x.k == y.period) = some w ∧ w.lost.contains g = false ∧ aget w.sums g = none ∧ rd (O.BAL_LINK_ARM g) s = 0xFE) ∧
    (∃ (crc : Bool), crc = false) ∧
    (∃ (y : Summary), y.valid = false) ∧
    (∃ (link : Nat) (s : State), groupLink link s = none) ∧
    (∃ (y : Summary) (s : State), s.bal.works.find? (fun x => low 32 x.k == y.period) = none) ∧
    (∃ (link : Nat) (y : Summary) (s : State), (∃ g w, groupLink link s = some g ∧ s.bal.works.find? (fun x => low 32 x.k == y.period) = some w ∧ (w.lost.contains g = true ∨ (aget w.sums g).isSome = true))) ∧
    (∃ (link : Nat) (g : Nat) (w : PeriodWork) (s : State), isNode s = true ∧ groupLink link s = some g ∧ oldest (fun w => (aget w.sums g).isNone && !w.lost.contains g) s = some w ∧ work? w.k s = some w) ∧
    (∃ (g : Nat) (v : State), rd (O.BAL_LINK_ARM g) v ≤ 5 ∧ rd (O.BAL_HEAD (rd (O.BAL_LINK_ARM g) v)) v = 1 ∧ 2 ≤ (slotGroups (rd (O.BAL_LINK_ARM g) v) v).length) ∧
    (∃ (g : Nat) (v : State), 5 < rd (O.BAL_LINK_ARM g) v) ∧
    (∃ (g : Nat) (v : State), rd (O.BAL_HEAD (rd (O.BAL_LINK_ARM g) v)) v ≠ 1) ∧
    (∃ (g : Nat) (v : State), (slotGroups (rd (O.BAL_LINK_ARM g) v) v).length < 2) ∧
    (∃ (link : Nat) (s : State), (∃ g, groupLink link s = some g ∧ oldest (fun w => (aget w.sums g).isNone && !w.lost.contains g) s = none)) :=
  ⟨⟨({ wk0 with refs := some [] } : PeriodWork), (let w : PeriodWork := { wk0 with refs := some [] }; let s : State := node; { (grid s) with tree := { s.tree with kids := [(3,2)] }, bal := { s.bal with works := [w] } }), by decide⟩,
   ⟨({ wk0 with lost := [3] } : PeriodWork), (let w : PeriodWork := { wk0 with lost := [3] }; let s : State := node; { (grid s) with tree := { s.tree with kids := [(3,2)] }, bal := { s.bal with works := [w] } }), by decide⟩,
   ⟨cell, by decide⟩,
   ⟨node, by decide⟩,
   ⟨node, by decide⟩,
   ⟨apex, by decide⟩,
   ⟨node, by decide⟩,
   ⟨63, ((.arms 0 [dArmSum]) : Summary), 63, ({ wk0 with sums := [], lost := [] } : PeriodWork), (let g : Nat := 63; let w : PeriodWork := { wk0 with sums := [], lost := [] }; let s : State := node; let s : State := ({ s with bal := { s.bal with works := [w] } }); let s : State := (wr (O.BAL_LINK_ARM g) (0xFE + 1) s); { (wr (O.BAL_LINK_ARM 63) 0xFF s) with tree := { s.tree with kids := [(63, 4)], parent := 0 }, bal := { s.bal with works := [{ wk0 with sums := [], lost := [] }] } }), by decide⟩,
   ⟨63, 0, ([dArmSum] : List ArmSum), 63, wk0, (let w : PeriodWork := wk0; let s : State := node; let s : State := ({ s with bal := { s.bal with works := [w] } }); { (wr (O.BAL_LINK_ARM 0) 5 (wr (O.BAL_LINK_ARM 63) 5 s)) with tree := { s.tree with kids := [(63,4),(0,3)] }, bal := { s.bal with works := [wk0] } }), (let g : Nat := 63; let w : PeriodWork := wk0; let s : State := node; let s : State := ({ s with bal := { s.bal with works := [w] } }); let s : State := { (wr (O.BAL_LINK_ARM 0) 5 (wr (O.BAL_LINK_ARM 63) 5 s)) with tree := { s.tree with kids := [(63,4),(0,3)] }, bal := { s.bal with works := [wk0] } }; rd (O.BAL_LINK_ARM g) s), by decide⟩,
   ⟨63, ((.arms 0 [dArmSum]) : Summary), 63, wk0, (let g : Nat := 63; let w : PeriodWork := wk0; let s : State := node; let s : State := ({ s with bal := { s.bal with works := [w] } }); let s : State := (wr (O.BAL_LINK_ARM g) 0xFE s); { (wr (O.BAL_LINK_ARM 0) 5 (wr (O.BAL_LINK_ARM 63) 0xFE s)) with tree := { s.tree with kids := [(63,4),(0,3)] }, bal := { s.bal with works := [wk0] } }), by decide⟩,
   ⟨false, by decide⟩,
   ⟨((.arms 0 []) : Summary), by decide⟩,
   ⟨0, node, by decide⟩,
   ⟨dSummary, (let s : State := node; ({ s with bal := { s.bal with works := [] } })), by decide⟩,
   ⟨3, ((.arms 0 []) : Summary), (let s : State := node; { (grid s) with tree := { s.tree with kids := [(3,2)] }, bal := { s.bal with works := [{ wk0 with lost := [3] }] } }), 3, { wk0 with lost := [3] }, by decide, by decide, by decide⟩,
   ⟨63, 63, wk0, (let w : PeriodWork := wk0; let s : State := node; let s : State := { s with bal := { s.bal with works := [{ w with k := w.k }] } }; { (wr (O.BAL_LINK_ARM 63) 5 (grid s)) with tree := { s.tree with kids := [(63, 4)], parent := 0 }, bal := { s.bal with works := [wk0] } }), by decide⟩,
   ⟨63, (let g : Nat := 63; let v : State := node; let v : State := (wr (O.BAL_LINK_ARM g) 5 v); { (wr (O.BAL_HEAD 5) 1 (wr (O.BAL_LINK_ARM 0) 5 (wr (O.BAL_LINK_ARM 63) 5 v))) with tree := { v.tree with kids := [(63,4),(0,3)] } }), by decide⟩,
   ⟨0, (let g : Nat := 0; let v : State := node; (wr (O.BAL_LINK_ARM g) (5 + 1) v)), by decide⟩,
   ⟨0, node, by decide⟩,
   ⟨0, node, by decide⟩,
   ⟨3, (let s : State := node; { (grid s) with tree := { s.tree with kids := [(3,2)] } }), by decide⟩⟩

/-- Obligations.CellDecidesAsItsNode: the hypotheses of its clauses can be met. -/
theorem witness_CellDecidesAsItsNode :
    (∃ (k : Nat) (c : Command) (r : Report) (s : State), aget s.cell.reps k = some r ∧ r.avail = true ∧ r.maskOk = true ∧ bit c.exclude (rd O.TREE_CELL_INDEX s % 16) = false ∧ (c.pol = true → r.fb = true)) ∧
    (∃ (k : Nat) (s : State), aget s.cell.reps k = none) ∧
    (∃ (k : Nat) (c : Command) (s : State), (∃ r, aget s.cell.reps k = some r ∧ (r.countable = false ∨ (c.pol = true ∧ r.fb = false)))) ∧
    (∃ (c : Command) (s : State), bit c.exclude (rd O.TREE_CELL_INDEX s % 16) = true) ∧
    (∃ (s : State), s.cell.noDeblock = none) :=
  ⟨⟨0, dCommand, ({ dReport with avail := true, maskOk := true, vKey := 100, cellIndex := 3 } : Report), (let k : Nat := 0; let r : Report := { dReport with avail := true, maskOk := true, vKey := 100, cellIndex := 3 }; let s : State := cell; let s : State := ({ s with cell := { s.cell with reps := [(k, r)] } }); { (wr O.TREE_CELL_INDEX 3 s) with cell := { s.cell with reps := [(k, { dReport with avail := true, maskOk := true, vKey := 100, cellIndex := 3 })] } }), by decide⟩,
   ⟨0, (let s : State := cell; ({ s with cell := { s.cell with reps := [] } })), by decide⟩,
   ⟨0, dCommand, (let k : Nat := 0; let s : State := cell; { s with cell := { s.cell with reps := [(k, dReport)] } }), by decide⟩,
   ⟨({ dCommand with exclude := 0xFFFF } : Command), (let k : Nat := 0; let s : State := cell; { s with cell := { s.cell with reps := [(k, { dReport with avail := true, maskOk := true, vKey := 100, cellIndex := 3 })] } }), by decide⟩,
   ⟨(let s : State := cell; ({ s with cell := { s.cell with noDeblock := none } })), by decide⟩⟩

/-- Obligations.CellTakesAndRunsCommands: the hypotheses of its clauses can be met. -/
theorem witness_CellTakesAndRunsCommands :
    (∃ (crc : Bool) (s : State), isCell s = true ∧ crc = false) ∧
    (∃ (c : Command) (s : State), isCell s = true ∧ cmdMatches (fullK c.period (gatesNow s)) c (gatesNow s) = false) ∧
    (∃ (c : Command) (s : State), isCell s = true ∧ cmdMatches (fullK c.period (gatesNow s)) c (gatesNow s) = true) ∧
    (∃ (s : State), isCell s = false) ∧
    (∃ (s : State), celState s = 4 ∧ rd O.CEL_HELD_TIME s ≠ 0) ∧
    (∃ (r : Report) (s : State), isCell s = true ∧ aget s.cell.reps (kNow s) = some r) ∧
    (∃ (s : State), aget s.cell.reps (kNow s) = none) ∧
    (∃ (s : State), s.cell.cmds ≠ []) ∧
    (∃ (c : Command) (s : State) (o : Nat), o = c.orders.getD (rd O.TREE_CELL_INDEX s % 16) 0 ∧ o / 16 = 0) ∧
    (∃ (c : Command) (o : Nat) (s : State), o = c.orders.getD (rd O.TREE_CELL_INDEX s % 16) 0 ∧ s.cell.lastOrder = some (o % 16, c.claim)) ∧
    (∃ (c : Command) (o : Nat) (s : State), o = c.orders.getD (rd O.TREE_CELL_INDEX s % 16) 0 ∧ o / 16 ≠ 0 ∧ s.cell.lastOrder ≠ some (o % 16, c.claim)) ∧
    (∃ (s : State), s.cell.cmds = []) ∧
    (∃ (c : Change) (s : State), s.cell.changes.find? (fun c => c.carveEnd) = some c) ∧
    (∃ (s : State), s.cell.changes.find? (fun c => c.carveEnd) = none) ∧
    (∃ (s : State) (t : Nat), nextGate s = some t) ∧
    (∃ (s : State), nextGate s = none) :=
  ⟨⟨false, cell, by decide⟩,
   ⟨dCommand, cell, by decide⟩,
   ⟨({ dCommand with period := 0, exec := nsOfTicks (eOf 0 (grid cell)), kTh := 0xFFFFFFFF, kCarve := 0xFFFFFFFF, originNode := 0, originLink := 0, claim := 0x8000, orders := List.replicate 16 0 } : Command), (let s : State := cell; grid (wr O.TREE_CELL_INDEX 3 (wr O.TREE_NODE_NUMBER 0 (wr O.TIM_PERIOD_NUMBER 0 s)))), by decide⟩,
   ⟨node, by decide⟩,
   ⟨(let s : State := node; let s : State := (wr O.CEL_STATE 4 s); (wr O.CEL_HELD_TIME (0 + 1) s)), by decide⟩,
   ⟨dReport, (let r : Report := dReport; let s : State := cell; ({ s with cell := { s.cell with reps := [((kNow s), r)] } })), by decide⟩,
   ⟨(let s : State := cell; ({ s with cell := { s.cell with reps := [] } })), by decide⟩,
   ⟨(let s : State := cell; ({ s with cell := { s.cell with cmds := [dAccepted] } })), by decide⟩,
   ⟨dCommand, node, (let c : Command := dCommand; let s : State := node; c.orders.getD (rd O.TREE_CELL_INDEX s % 16) 0), by decide⟩,
   ⟨({ { dCommand with period := 0, exec := nsOfTicks (eOf 0 (grid cell)), originNode := 0, originLink := 0, orders := List.replicate 16 0 } with orders := List.replicate 16 0x13 } : Command), 0x13, (let c : Command := { { dCommand with period := 0, exec := nsOfTicks (eOf 0 (grid cell)), originNode := 0, originLink := 0, orders := List.replicate 16 0 } with orders := List.replicate 16 0x13 }; let o : Nat := 0x13; let s : State := node; let s : State := ({ s with cell := { s.cell with lastOrder := some (o % 16, c.claim) } }); { s with cell := { s.cell with lastOrder := some (3, c.claim) } }), by decide⟩,
   ⟨({ { dCommand with period := 0, exec := nsOfTicks (eOf 0 (grid cell)), originNode := 0, originLink := 0, orders := List.replicate 16 0 } with orders := List.replicate 16 0x13 } : Command), 0x13, (let s : State := cell; { s with cell := { s.cell with lastOrder := none } }), by decide⟩,
   ⟨(let s : State := cell; ({ s with cell := { s.cell with cmds := [] } })), by decide⟩,
   ⟨({ k := 0, t := 5000, target := .bypLower, carveEnd := true, due := false, ran := false } : Change), (let c : Change := { k := 0, t := 5000, target := .bypLower, carveEnd := true, due := false, ran := false }; let s : State := cell; let s : State := ({ s with cell := { s.cell with changes := [c] } }); { s with cell := { s.cell with changes := [{ k := 0, t := 5000, target := .bypLower, carveEnd := true, due := false, ran := false }] } }), by decide⟩,
   ⟨(let s : State := cell; ({ s with cell := { s.cell with changes := [] } })), by decide⟩,
   ⟨(let s : State := cell; { s with cell := { s.cell with edges := [{ t := 9000, out := 0, on := true }] } }), (let s : State := cell; let s : State := { s with cell := { s.cell with edges := [{ t := 9000, out := 0, on := true }] } }; ((nextGate s).getD 0)), by decide⟩,
   ⟨cell, by decide⟩⟩

/-- Obligations.GateEngine: the hypotheses of its clauses can be met. -/
theorem witness_GateEngine :
    (∃ (o : Nat) (s : State), lastOff (if o % 2 = 0 then o + 1 else o - 1) s ≠ 0) :=
  ⟨11, (let t : Nat := 10; let s : State := cell; { s with cell := { s.cell with edges := [{ t := 9000, out := 10, on := false }] } }), by decide⟩

/-- Obligations.CellProtection: the hypotheses of its clauses can be met. -/
theorem witness_CellProtection :
    (∃ (v : Nat) (s : State), rd O.SYS_RECOVERY s = 0 ∧ isNode s = true ∧ 1 ≤ fld v 19 16 ∧ fld v 19 16 ≤ 3 ∧ v < 2 ^ 32) ∧
    (∃ (v : Nat) (s : State), rd O.SYS_RECOVERY s = 0 ∧ isNode s = true ∧ fld v 19 16 = 0) ∧
    (∃ (v : Nat) (s : State), rd O.SYS_RECOVERY s = 0 ∧ isNode s = true ∧ 3 < fld v 19 16) ∧
    (∃ (s : State), isNode s = false) ∧
    (∃ (s : State), rd O.SYS_RECOVERY s = 0 ∧ isCell s = true) ∧
    (∃ (tDie : Nat) (tBoard : Nat) (vAux : Nat) (s : State), isCell s = true ∧ tDie < 65536 ∧ tBoard < 65536 ∧ vAux < 65536) ∧
    (∃ (s : State), isCell s = true ∧ celState s ≠ 0 ∧ s.cell.ov1 = false) ∧
    (∃ (s : State), celState s ≠ 6) ∧
    (∃ (s : State), isCell s = true ∧ celState s = 0) ∧
    (∃ (s : State), isCell s = true ∧ s.cell.ov1 = true) ∧
    (∃ (s : State), isCell s = false) :=
  ⟨⟨0x303FF, (let s : State := node; (wr O.SYS_RECOVERY 0 s)), by decide⟩,
   ⟨0, (let s : State := node; (wr O.SYS_RECOVERY 0 s)), by decide⟩,
   ⟨0x40000, (let s : State := node; (wr O.SYS_RECOVERY 0 s)), by decide⟩,
   ⟨cell, by decide⟩,
   ⟨(let s : State := cell; (wr O.SYS_RECOVERY 0 s)), by decide⟩,
   ⟨0, 0, 0, cell, by decide⟩,
   ⟨(let s : State := cell; ({ s with cell := { s.cell with ov1 := false } })), by decide⟩,
   ⟨node, by decide⟩,
   ⟨(let s : State := cell; (wr O.CEL_STATE 0 s)), by decide⟩,
   ⟨(let s : State := cell; ({ s with cell := { s.cell with ov1 := true } })), by decide⟩,
   ⟨node, by decide⟩⟩

/-- Obligations.BypassSequence: the hypotheses of its clauses can be met. -/
theorem witness_BypassSequence :
    (∃ (t : Nat) (s : State), s.cell.pulseEnd = some t) ∧
    (∃ (s : State), s.cell.pulseEnd = none) ∧
    (∃ (s : State), s.cell.byp = .pulsing ∧ s.cell.windowEnd.isSome = true) ∧
    (∃ (s : State), s.cell.byp ≠ .pulsing) ∧
    (∃ (s : State), s.cell.windowEnd = none) ∧
    (∃ (t : Nat) (s : State), s.cell.windowEnd = some t) ∧
    (∃ (t : Nat) (s : State), s.cell.holdEnd = some t) ∧
    (∃ (s : State), s.cell.holdEnd = none) ∧
    (∃ (aux : Nat) (s : State), isCell s = true ∧ low 2 aux ≠ 1 ∧ 2 ≤ celState s ∧ celState s ≠ 6) ∧
    (∃ (aux : Nat) (s : State), isCell s = true ∧ low 2 aux ≠ 1 ∧ celState s = 6) ∧
    (∃ (aux : Nat) (s : State), isCell s = true ∧ low 2 aux ≠ 1 ∧ celState s ≤ 1) ∧
    (∃ (s : State), isCell s = false) ∧
    (∃ (aux : Nat), low 2 aux = 1) ∧
    (∃ (t : Nat) (s : State), s.cell.heldTick = some t) ∧
    (∃ (s : State), s.cell.heldTick = none) ∧
    (∃ (s : State), celState s = 5) :=
  ⟨⟨0, (let t : Nat := 0; let s : State := cell; ({ s with cell := { s.cell with pulseEnd := some t } })), by decide⟩,
   ⟨(let s : State := cell; ({ s with cell := { s.cell with pulseEnd := none } })), by decide⟩,
   ⟨(let s : State := cell; let s : State := ({ s with cell := { s.cell with byp := .pulsing } }); ({ s with cell := { s.cell with windowEnd := some default } })), by decide⟩,
   ⟨cell, by decide⟩,
   ⟨(let s : State := cell; ({ s with cell := { s.cell with windowEnd := none } })), by decide⟩,
   ⟨0, (let t : Nat := 0; let s : State := cell; ({ s with cell := { s.cell with windowEnd := some t } })), by decide⟩,
   ⟨0, (let t : Nat := 0; let s : State := cell; ({ s with cell := { s.cell with holdEnd := some t } })), by decide⟩,
   ⟨(let s : State := cell; ({ s with cell := { s.cell with holdEnd := none } })), by decide⟩,
   ⟨0, (let s : State := cell; (wr O.CEL_STATE 2 s)), by decide⟩,
   ⟨0, (let s : State := cell; (wr O.CEL_STATE 6 s)), by decide⟩,
   ⟨0, cell, by decide⟩,
   ⟨node, by decide⟩,
   ⟨5, by decide⟩,
   ⟨0, (let t : Nat := 0; let s : State := cell; let s : State := ({ s with cell := { s.cell with heldTick := some t } }); wr O.CEL_STATE 5 s), by decide⟩,
   ⟨(let s : State := cell; ({ s with cell := { s.cell with heldTick := none } })), by decide⟩,
   ⟨(let s : State := node; (wr O.CEL_STATE 5 s)), by decide⟩⟩

/-- Obligations.LawCommandsAndCommit: the hypotheses of its clauses can be met. -/
theorem witness_LawCommandsAndCommit :
    (∃ (s : State), rd O.SYS_RECOVERY s = 0 ∧ isNode s = true ∧ rd O.LAW_STATE s = 0 ∧ rd O.LAW_LOAD_STATUS s = 1 ∧ bankSealed (rd O.LAW_ACTIVE_BANK s) s = true) ∧
    (∃ (s : State), rd O.SYS_RECOVERY s = 0 ∧ isNode s = true ∧ rd O.LAW_STATE s ≠ 0) ∧
    (∃ (s : State), rd O.SYS_RECOVERY s = 0 ∧ isNode s = true ∧ rd O.LAW_LOAD_STATUS s ≠ 1) ∧
    (∃ (s : State), rd O.SYS_RECOVERY s = 0 ∧ isNode s = true ∧ bankSealed (rd O.LAW_ACTIVE_BANK s) s = false) ∧
    (∃ (s : State), rd O.SYS_RECOVERY s = 0 ∧ isNode s = true ∧ anyDeblocked s = false) ∧
    (∃ (s : State), rd O.SYS_RECOVERY s = 0 ∧ isNode s = true ∧ rd O.LAW_STATE s ≠ 4 ∧ anyDeblocked s = true) ∧
    (∃ (s : State), rd O.SYS_RECOVERY s = 0 ∧ isNode s = true ∧ sealRefused 0 s = false) ∧
    (∃ (s : State), rd O.SYS_RECOVERY s = 0 ∧ isNode s = true ∧ sealRefused 1 s = false) ∧
    (∃ (s : State), rd O.SYS_RECOVERY s = 0 ∧ isNode s = true ∧ sealRefused 0 s = true) ∧
    (∃ (s : State), rd O.SYS_RECOVERY s = 0 ∧ isNode s = true ∧ sealRefused 1 s = true) ∧
    (∃ (v : Nat) (s : State), rd O.SYS_RECOVERY s = 0 ∧ isNode s = true ∧ v < 256 ∧ v % 2 ≠ rd O.LAW_ACTIVE_BANK s ∧ bankSealed (v % 2) s = true ∧ rd O.LAW_STATE s = 1) ∧
    (∃ (v : Nat) (s : State), rd O.SYS_RECOVERY s = 0 ∧ isNode s = true ∧ v < 256 ∧ v % 2 ≠ rd O.LAW_ACTIVE_BANK s ∧ bankSealed (v % 2) s = true ∧ rd O.LAW_STATE s = 2) ∧
    (∃ (v : Nat) (s : State), rd O.SYS_RECOVERY s = 0 ∧ isNode s = true ∧ v < 256 ∧ v % 2 ≠ rd O.LAW_ACTIVE_BANK s ∧ bankSealed (v % 2) s = true ∧ (rd O.LAW_STATE s = 3 ∧ rd O.LAW_LOSS_RECOVER s ≤ rd O.LAW_GOOD_COUNT s)) ∧
    (∃ (v : Nat) (s : State), rd O.SYS_RECOVERY s = 0 ∧ isNode s = true ∧ v < 256 ∧ v % 2 = rd O.LAW_ACTIVE_BANK s) ∧
    (∃ (v : Nat) (s : State), rd O.SYS_RECOVERY s = 0 ∧ isNode s = true ∧ v < 256 ∧ bankSealed (v % 2) s = false) ∧
    (∃ (v : Nat) (s : State), rd O.SYS_RECOVERY s = 0 ∧ isNode s = true ∧ v < 256 ∧ rd O.LAW_STATE s = 0) ∧
    (∃ (v : Nat) (s : State), rd O.SYS_RECOVERY s = 0 ∧ isNode s = true ∧ v < 256 ∧ rd O.LAW_STATE s = 4) ∧
    (∃ (v : Nat) (s : State), rd O.SYS_RECOVERY s = 0 ∧ isNode s = true ∧ v < 256 ∧ (rd O.LAW_STATE s = 3 ∧ rd O.LAW_GOOD_COUNT s < rd O.LAW_LOSS_RECOVER s)) ∧
    (∃ (s : State), rd O.SYS_RECOVERY s = 0 ∧ isNode s = true ∧ rd O.LAW_TRC_STATE s = 1) ∧
    (∃ (s : State), rd O.SYS_RECOVERY s = 0 ∧ isNode s = true ∧ rd O.LAW_TRC_STATE s ≠ 1) ∧
    (∃ (s : State), isCell s = true) ∧
    (∃ (w : LawWait) (l : List LawWait) (s : State), isNode s = true ∧ s.law.waits = w :: l ∧ s.law.eval = none) ∧
    (∃ (s : State), isNode s = false) ∧
    (∃ (s : State), s.law.waits = []) ∧
    (∃ (s : State), s.law.eval.isSome = true) ∧
    (∃ (v : LawEval) (s : State), s.law.eval = some v) ∧
    (∃ (v : LawEval) (u : State), v.idle = false ∧ v.lost = true ∧ rd O.LAW_TRC_STATE u = 0 ∧ u.law.cross = [] ∧ u.law.undo = none ∧ isApex u = false) ∧
    (∃ (v : LawEval) (u : State), v.idle = false ∧ rd O.LAW_WCET u < v.cycles ∧ rd O.LAW_TRC_STATE u = 0 ∧ u.law.cross = [] ∧ u.law.undo = none ∧ isApex u = false) ∧
    (∃ (v : LawEval) (p : Nat × Nat), v.err = [] ∧ (∀ p ∈ v.sig, p.1 < 2048) ∧ (v.sig.map (·.1)).Nodup ∧ p ∈ v.sig) :=
  ⟨⟨(let s : State := node; let s : State := (wr O.SYS_RECOVERY 0 s); let s : State := (wr O.LAW_STATE 0 s); let s : State := (wr O.LAW_LOAD_STATUS 1 s); wrBit O.LAW_BANK_STATUS (rd O.LAW_ACTIVE_BANK s) true (wr O.LAW_STATE 0 (wr O.LAW_LOAD_STATUS 1 s))), by decide⟩,
   ⟨(let s : State := node; let s : State := (wr O.SYS_RECOVERY 0 s); (wr O.LAW_STATE (0 + 1) s)), by decide⟩,
   ⟨(let s : State := node; let s : State := (wr O.SYS_RECOVERY 0 s); (wr O.LAW_LOAD_STATUS (1 + 1) s)), by decide⟩,
   ⟨(let s : State := node; (wr O.SYS_RECOVERY 0 s)), by decide⟩,
   ⟨(let s : State := node; (wr O.SYS_RECOVERY 0 s)), by decide⟩,
   ⟨(let s : State := node; let s : State := (wr O.SYS_RECOVERY 0 s); let s : State := (wr O.LAW_STATE (4 + 1) s); deb (wr O.LAW_STATE 1 s)), by decide⟩,
   ⟨bank1, by decide, by decide, seal_ok 0 bank1 (by decide) (.inr rfl) (by decide) (by decide) (by decide)⟩,
   ⟨node, by decide, by decide, seal_ok 1 node (by decide) (.inl rfl) (by decide) (by decide) (by decide)⟩,
   ⟨(let s : State := node; (wr O.SYS_RECOVERY 0 s)), by decide⟩,
   ⟨(let s : State := node; let s : State := (wr O.SYS_RECOVERY 0 s); wr O.LAW_ACTIVE_BANK 1 s), by decide⟩,
   ⟨17, (let s : State := node; let s : State := (wr O.SYS_RECOVERY 0 s); let s : State := (wr O.LAW_STATE 1 s); wr O.LAW_LOSS_RECOVER 5 (wr O.LAW_GOOD_COUNT 5 (wr O.LAW_ACTIVE_BANK 0 (wr O.LAW_STATE 1 (wr O.LAW_BANK_STATUS 3 s))))), by decide⟩,
   ⟨17, (let s : State := node; let s : State := (wr O.SYS_RECOVERY 0 s); let s : State := (wr O.LAW_STATE 2 s); wr O.LAW_LOSS_RECOVER 5 (wr O.LAW_GOOD_COUNT 5 (wr O.LAW_ACTIVE_BANK 0 (wr O.LAW_STATE 2 (wr O.LAW_BANK_STATUS 3 s))))), by decide⟩,
   ⟨17, (let s : State := node; let s : State := (wr O.SYS_RECOVERY 0 s); let s : State := (wr O.LAW_STATE 3 s); let s : State := (wr O.LAW_GOOD_COUNT (rd O.LAW_LOSS_RECOVER s) s); wr O.LAW_LOSS_RECOVER 5 (wr O.LAW_GOOD_COUNT 5 (wr O.LAW_ACTIVE_BANK 0 (wr O.LAW_STATE 3 (wr O.LAW_BANK_STATUS 3 s))))), by decide⟩,
   ⟨0, (let s : State := node; (wr O.SYS_RECOVERY 0 s)), by decide⟩,
   ⟨0, (let s : State := node; (wr O.SYS_RECOVERY 0 s)), by decide⟩,
   ⟨0, (let s : State := node; let s : State := (wr O.SYS_RECOVERY 0 s); (wr O.LAW_STATE 0 s)), by decide⟩,
   ⟨0, (let s : State := node; let s : State := (wr O.SYS_RECOVERY 0 s); (wr O.LAW_STATE 4 s)), by decide⟩,
   ⟨0, (let s : State := node; let s : State := (wr O.SYS_RECOVERY 0 s); let s : State := (wr O.LAW_STATE 3 s); (wr O.LAW_LOSS_RECOVER (rd O.LAW_GOOD_COUNT s + 1) s)), by decide⟩,
   ⟨(let s : State := node; let s : State := (wr O.SYS_RECOVERY 0 s); (wr O.LAW_TRC_STATE 1 s)), by decide⟩,
   ⟨(let s : State := node; let s : State := (wr O.SYS_RECOVERY 0 s); (wr O.LAW_TRC_STATE (1 + 1) s)), by decide⟩,
   ⟨cell, by decide⟩,
   ⟨dLawWait, ([] : List LawWait), (let w : LawWait := dLawWait; let l : List LawWait := []; let s : State := node; let s : State := ({ s with law := { s.law with waits := w :: l } }); ({ s with law := { s.law with eval := none } })), by decide⟩,
   ⟨cell, by decide⟩,
   ⟨(let s : State := node; ({ s with law := { s.law with waits := [] } })), by decide⟩,
   ⟨(let s : State := node; ({ s with law := { s.law with eval := some dLawEval } })), by decide⟩,
   ⟨dLawEval, (let v : LawEval := dLawEval; let s : State := node; ({ s with law := { s.law with eval := some v } })), by decide⟩,
   ⟨({ dLawEval with cycles := 10, lost := true, idle := false } : LawEval), (let u : State := node; let u : State := (wr O.LAW_TRC_STATE 0 u); let u : State := ({ u with law := { u.law with cross := [] } }); let u : State := ({ u with law := { u.law with undo := none } }); wr O.LAW_WCET 9 (wr O.LAW_TRC_STATE 0 { u with law := { u.law with cross := [] } })), by decide⟩,
   ⟨({ dLawEval with cycles := 10, lost := false, idle := false } : LawEval), (let v : LawEval := { dLawEval with cycles := 10, lost := false, idle := false }; let u : State := node; let u : State := (wr O.LAW_WCET (v.cycles - 1) u); let u : State := (wr O.LAW_TRC_STATE 0 u); let u : State := ({ u with law := { u.law with cross := [] } }); let u : State := ({ u with law := { u.law with undo := none } }); wr O.LAW_WCET 9 (wr O.LAW_TRC_STATE 0 { u with law := { u.law with cross := [] } })), by decide⟩,
   ⟨({ dLawEval with sig := [(5, 7), (6, 8)], err := [] } : LawEval), ((6, 8) : Nat × Nat), by decide⟩⟩

/-- Obligations.ReferenceEntries: the hypotheses of its clauses can be met. -/
theorem witness_ReferenceEntries :
    (∃ (a : Nat) (m : Nat) (p : RefEntry) (s : State), ffinite fmt32 m = false ∧ aget s.bal.armPrev a = some p) ∧
    (∃ (a : Nat) (i : Nat) (p : RefEntry) (s : State), ffinite fmt32 i = false ∧ aget s.bal.armPrev a = some p) ∧
    (∃ (m : Nat) (i : Nat), ffinite fmt32 m = true ∧ ffinite fmt32 i = true) :=
  ⟨⟨63, 0x7F800000, ({ dRefEntry with arm := 63 } : RefEntry), (let a : Nat := 63; let p : RefEntry := { dRefEntry with arm := 63 }; let s : State := node; let s : State := ({ s with bal := { s.bal with armPrev := [(a, p)] } }); { s with bal := { s.bal with armPrev := [(63, { dRefEntry with arm := 63 })] } }), by decide⟩,
   ⟨63, 0x7FC00000, ({ dRefEntry with arm := 63 } : RefEntry), (let a : Nat := 63; let p : RefEntry := { dRefEntry with arm := 63 }; let s : State := node; let s : State := ({ s with bal := { s.bal with armPrev := [(a, p)] } }); { s with bal := { s.bal with armPrev := [(63, { dRefEntry with arm := 63 })] } }), by decide⟩,
   ⟨0, 0, by decide⟩⟩

/-- Obligations.LanesClimbTheLadder: the hypotheses of its clauses can be met. -/
theorem witness_LanesClimbTheLadder :
    (∃ (n : Nat) (s : State), laneHere n s = true ∧ stage n s = 0 ∧ (lane n s).holdoffRx = false ∧ (∀ b, (lane n s).backoffEnd = some b → b ≤ s.tick)) ∧
    (∃ (n : Nat) (s : State), laneHere n s = true ∧ stage n s = 0 ∧ (lane n s).holdoffRx = true) ∧
    (∃ (n : Nat) (s : State), laneHere n s = true ∧ stage n s = 0 ∧ (∃ b, (lane n s).backoffEnd = some b ∧ s.tick < b)) ∧
    (∃ (n : Nat) (s : State), laneHere n s = true ∧ stage n s ≠ 0) ∧
    (∃ (n : Nat) (s : State), laneHere n s = true ∧ 2 ≤ stage n s ∧ stage n s ≤ 6) ∧
    (∃ (n : Nat) (s : State), laneHere n s = true ∧ 6 < stage n s) ∧
    (∃ (n : Nat) (s : State), laneHere n s = true ∧ stage n s = 6) ∧
    (∃ (n : Nat) (s : State), laneHere n s = true ∧ stage n s ≠ 1 ∧ stage n s ≠ 6) ∧
    (∃ (n : Nat) (s : State), laneHere n s = true ∧ stage n s = 1 ∧ (lane n s).capAt = none) ∧
    (∃ (n : Nat) (s : State), laneHere n s = true ∧ stage n s = 1 ∧ (∀ c, (lane n s).cap = some c → c.partnerOk = false)) ∧
    (∃ (n : Nat) (s : State), laneHere n s = true ∧ (∃ a c, (lane n s).capAt = some a ∧ (lane n s).cap = some c ∧ c.partnerOk = true)) ∧
    (∃ (n : Nat) (s : State), laneHere n s = true ∧ stage n s ≠ 2) ∧
    (∃ (n : Nat) (s : State), laneHere n s = true ∧ stage n s = 2 ∧ (lane n s).rxLocked = true) ∧
    (∃ (n : Nat) (s : State), laneHere n s = true ∧ stage n s = 2 ∧ (lane n s).rxLocked = false) ∧
    (∃ (n : Nat) (s : State), laneHere n s = true ∧ stage n s ≠ 3) ∧
    (∃ (n : Nat) (s : State), laneHere n s = true ∧ stage n s = 3 ∧ (lane n s).partnerPass = none) ∧
    (∃ (n : Nat) (s : State), laneHere n s = true ∧ stage n s = 3 ∧ (lane n s).partnerPass.isSome = true) ∧
    (∃ (n : Nat) (s : State), laneHere n s = true ∧ stage n s = 4 ∧ timeLockMet n s = true) ∧
    (∃ (n : Nat) (s : State), laneHere n s = true ∧ stage n s ≠ 4) ∧
    (∃ (n : Nat) (s : State), laneHere n s = true ∧ timeLockMet n s = false) ∧
    (∃ (n : Nat) (c : Instr) (s : State), laneHere n s = false ∧ c ∈ [Instr.lanePresenceLock n true, .lanePresenceLock n false, .laneL0Timeout n, .presenceRx n true, .presenceRx n false, .capSend n, .laneL1Timeout n, .laneRxLock n, .lockedSend n, .laneL2Timeout n, .lanePrbsEnd n 0, .laneL3NoResult n, .laneTimeLock n, .laneL4Timeout n]) ∧
    (∃ (n : Nat) (s : State), stage n s = 2 ∧ (lane n s).rxLocked = true ∧ (lane n s).partnerLocked = true) ∧
    (∃ (n : Nat) (s : State), (lane n s).partnerLocked = false) ∧
    (∃ (n : Nat) (c : Ladder) (r : Nat) (s : State), (lane n s).cap = some c ∧ stage n s = 1 ∧ (lane n s).capSent = true ∧ (lane n s).capAt.isSome = true ∧ c.partnerOk = true ∧ agreedRate n c s = some r) ∧
    (∃ (n : Nat) (c : Ladder) (s : State), (lane n s).cap = some c ∧ stage n s ≠ 1) ∧
    (∃ (n : Nat) (c : Ladder) (s : State), (lane n s).cap = some c ∧ (lane n s).capSent = false) ∧
    (∃ (n : Nat) (c : Ladder) (s : State), (lane n s).cap = some c ∧ (lane n s).capAt = none) ∧
    (∃ (n : Nat) (c : Ladder) (s : State), (lane n s).cap = some c ∧ c.partnerOk = false) ∧
    (∃ (n : Nat) (c : Ladder) (s : State), (lane n s).cap = some c ∧ agreedRate n c s = none) ∧
    (∃ (n : Nat) (s : State), stage n s = 3 ∧ (lane n s).ownPass = some false) ∧
    (∃ (n : Nat) (s : State), stage n s = 3 ∧ (lane n s).partnerPass = some false) ∧
    (∃ (n : Nat) (s : State), stage n s = 3 ∧ (lane n s).ownPass = some true ∧ (lane n s).partnerPass = some true ∧ isNode s = true) ∧
    (∃ (n : Nat) (s : State), stage n s = 3 ∧ (lane n s).ownPass = some true ∧ (lane n s).partnerPass = some true ∧ s.tim.refLane.isSome = true) ∧
    (∃ (n : Nat) (s : State), stage n s = 3 ∧ (lane n s).ownPass ≠ some false ∧ (lane n s).partnerPass ≠ some false ∧ (lane n s).ownPass = none) ∧
    (∃ (n : Nat) (s : State), stage n s = 3 ∧ (lane n s).ownPass ≠ some false ∧ (lane n s).partnerPass ≠ some false ∧ (lane n s).partnerPass = none) ∧
    (∃ (n : Nat) (s : State), stage n s = 3 ∧ (lane n s).ownPass ≠ some false ∧ (lane n s).partnerPass ≠ some false ∧ (isNode s = false ∧ s.tim.refLane = none)) ∧
    (∃ (n : Nat) (b : List Nat) (p : Nat × Instr) (s : State), p ∈ [(1, Instr.capRx n b), (2, .rateGoRx n b), (3, .lockedRx n b), (4, .resultRx n b), (5, .retrainRx n b), (6, .loopReqRx n b), (7, .loopAckRx n b), (8, .loopNakRx n b)] ∧ laneHere n s = false) ∧
    (∃ (n : Nat) (b : List Nat) (p : Nat × Instr) (s : State), p ∈ [(1, Instr.capRx n b), (2, .rateGoRx n b), (3, .lockedRx n b), (4, .resultRx n b), (5, .retrainRx n b), (6, .loopReqRx n b), (7, .loopAckRx n b), (8, .loopNakRx n b)] ∧ stage n s = 0) ∧
    (∃ (n : Nat) (b : List Nat) (p : Nat × Instr) (s : State), p ∈ [(1, Instr.capRx n b), (2, .rateGoRx n b), (3, .lockedRx n b), (4, .resultRx n b), (5, .retrainRx n b), (6, .loopReqRx n b), (7, .loopAckRx n b), (8, .loopNakRx n b)] ∧ 6 < stage n s) ∧
    (∃ (n : Nat) (b : List Nat) (p : Nat × Instr) (s : State), p ∈ [(1, Instr.capRx n b), (2, .rateGoRx n b), (3, .lockedRx n b), (4, .resultRx n b), (5, .retrainRx n b), (6, .loopReqRx n b), (7, .loopAckRx n b), (8, .loopNakRx n b)] ∧ laneHere n s = true ∧ 1 ≤ stage n s ∧ stage n s ≤ 6 ∧ b.length ≠ 32) ∧
    (∃ (n : Nat) (b : List Nat) (p : Nat × Instr) (s : State), p ∈ [(1, Instr.capRx n b), (2, .rateGoRx n b), (3, .lockedRx n b), (4, .resultRx n b), (5, .retrainRx n b), (6, .loopReqRx n b), (7, .loopAckRx n b), (8, .loopNakRx n b)] ∧ laneHere n s = true ∧ 1 ≤ stage n s ∧ stage n s ≤ 6 ∧ b.length = 32 ∧ crc32c (b.take 28) ≠ ofBe (b.drop 28)) ∧
    (∃ (n : Nat) (b : List Nat) (p : Nat × Instr) (s : State), p ∈ [(1, Instr.capRx n b), (2, .rateGoRx n b), (3, .lockedRx n b), (4, .resultRx n b), (5, .retrainRx n b), (6, .loopReqRx n b), (7, .loopAckRx n b), (8, .loopNakRx n b)] ∧ laneHere n s = true ∧ 1 ≤ stage n s ∧ stage n s ≤ 6 ∧ b.length = 32 ∧ crc32c (b.take 28) = ofBe (b.drop 28) ∧ (ladderOf b).msg ≠ p.1) ∧
    (∃ (n : Nat) (b : List Nat) (p : Nat × Instr) (s : State), p ∈ [(1, Instr.capRx n b), (2, .rateGoRx n b), (3, .lockedRx n b), (4, .resultRx n b), (5, .retrainRx n b), (6, .loopReqRx n b), (7, .loopAckRx n b), (8, .loopNakRx n b)] ∧ laneHere n s = true ∧ 1 ≤ stage n s ∧ stage n s ≤ 6 ∧ b.length = 32 ∧ crc32c (b.take 28) = ofBe (b.drop 28) ∧ (ladderOf b).ver ≠ 1) ∧
    (∃ (n : Nat) (b : List Nat) (s : State), LadderMsg 1 n b s) ∧
    (∃ (n : Nat) (s : State), n < s.lnk.lanes.length) ∧
    (∃ (n : Nat) (b : List Nat) (s : State), LadderMsg 2 n b s) ∧
    (∃ (n : Nat) (b : List Nat) (s : State), LadderMsg 3 n b s) ∧
    (∃ (n : Nat) (b : List Nat) (s : State), LadderMsg 4 n b s) ∧
    (∃ (n : Nat) (b : List Nat) (s : State), LadderMsg 5 n b s) ∧
    (∃ (n : Nat) (b : List Nat) (s : State), LadderMsg 6 n b s) ∧
    (∃ (n : Nat) (b : List Nat) (s : State), LadderMsg 7 n b s) ∧
    (∃ (n : Nat) (b : List Nat) (s : State), LadderMsg 8 n b s) :=
  ⟨⟨0, (let n : Nat := 0; let s : State := node; let s : State := (wr (O.LNK_STAGE n) 0 s); (updLane n (fun y => { y with holdoffRx := false }) s)), by decide⟩,
   ⟨0, (let n : Nat := 0; let s : State := node; let s : State := (wr (O.LNK_STAGE n) 0 s); (updLane n (fun y => { y with holdoffRx := true }) s)), by decide⟩,
   ⟨0, (let n : Nat := 0; let s : State := node; let s : State := (wr (O.LNK_STAGE n) 0 s); updLane n (fun y => { y with backoffEnd := some 99999999 }) s), by decide⟩,
   ⟨0, (let n : Nat := 0; let s : State := node; (wr (O.LNK_STAGE n) (0 + 1) s)), by decide⟩,
   ⟨0, (let n : Nat := 0; let s : State := node; (wr (O.LNK_STAGE n) 2 s)), by decide⟩,
   ⟨0, (let n : Nat := 0; let s : State := node; (wr (O.LNK_STAGE n) (6 + 1) s)), by decide⟩,
   ⟨0, (let n : Nat := 0; let s : State := node; (wr (O.LNK_STAGE n) 6 s)), by decide⟩,
   ⟨0, (let n : Nat := 0; let s : State := node; let s : State := (wr (O.LNK_STAGE n) (1 + 1) s); (wr (O.LNK_STAGE n) (6 + 1) s)), by decide⟩,
   ⟨0, (let n : Nat := 0; let s : State := node; let s : State := (wr (O.LNK_STAGE n) 1 s); (updLane n (fun y => { y with capAt := none }) s)), by decide⟩,
   ⟨0, (let n : Nat := 0; let s : State := node; (wr (O.LNK_STAGE n) 1 s)), by decide⟩,
   ⟨0, (let n : Nat := 0; let s : State := node; updLane n (fun y => { y with capAt := some 5, cap := some { dLadder with partnerOk := true } }) s), by decide, 5, { dLadder with partnerOk := true }, by decide, by decide, by decide⟩,
   ⟨0, (let n : Nat := 0; let s : State := node; (wr (O.LNK_STAGE n) (2 + 1) s)), by decide⟩,
   ⟨0, (let n : Nat := 0; let s : State := node; let s : State := (wr (O.LNK_STAGE n) 2 s); (updLane n (fun y => { y with rxLocked := true }) s)), by decide⟩,
   ⟨0, (let n : Nat := 0; let s : State := node; let s : State := (wr (O.LNK_STAGE n) 2 s); (updLane n (fun y => { y with rxLocked := false }) s)), by decide⟩,
   ⟨0, (let n : Nat := 0; let s : State := node; (wr (O.LNK_STAGE n) (3 + 1) s)), by decide⟩,
   ⟨0, (let n : Nat := 0; let s : State := node; let s : State := (wr (O.LNK_STAGE n) 3 s); (updLane n (fun y => { y with partnerPass := none }) s)), by decide⟩,
   ⟨0, (let n : Nat := 0; let s : State := node; let s : State := (wr (O.LNK_STAGE n) 3 s); (updLane n (fun y => { y with partnerPass := some true }) s)), by decide⟩,
   ⟨67, (let n : Nat := 67; let s : State := node; let s : State := (wr (O.LNK_STAGE n) 4 s); { (wr O.TIM_VT_SOURCE 0xFE (wr (O.TIM_LANE_SPREAD 67) 1000 (wr (O.LNK_STAGE 67) 4 s))) with tim := { s.tim with pd := [{ lane := 67, seq := 0, t1 := none, ex := List.replicate 64 { t1 := 0, t2 := 0, turn := 0, dx := 0 }, reported := 0 }] } }), by decide⟩,
   ⟨0, (let n : Nat := 0; let s : State := node; (wr (O.LNK_STAGE n) (4 + 1) s)), by decide⟩,
   ⟨0, node, by decide⟩,
   ⟨68, (let n : Nat := 68; .laneL0Timeout n), node, by decide⟩,
   ⟨0, (let n : Nat := 0; let s : State := node; let s : State := (wr (O.LNK_STAGE n) 2 s); let s : State := (updLane n (fun y => { y with rxLocked := true }) s); (updLane n (fun y => { y with partnerLocked := true }) s)), by decide⟩,
   ⟨0, (let n : Nat := 0; let s : State := node; (updLane n (fun y => { y with partnerLocked := false }) s)), by decide⟩,
   ⟨0, (let c : Ladder := dLadder; ({ c with partnerOk := true })), 0, (let n : Nat := 0; let c : Ladder := dLadder; let c : Ladder := ({ c with partnerOk := true }); let s : State := node; let s : State := (updLane n (fun y => { y with cap := some c }) s); let s : State := (wr (O.LNK_STAGE n) 1 s); let s : State := (updLane n (fun y => { y with capSent := true }) s); (updLane n (fun y => { y with capAt := some 0 }) s)), by decide⟩,
   ⟨0, dLadder, (let n : Nat := 0; let c : Ladder := dLadder; let s : State := node; let s : State := (updLane n (fun y => { y with cap := some c }) s); (wr (O.LNK_STAGE n) (1 + 1) s)), by decide⟩,
   ⟨0, dLadder, (let n : Nat := 0; let c : Ladder := dLadder; let s : State := node; let s : State := (updLane n (fun y => { y with cap := some c }) s); (updLane n (fun y => { y with capSent := false }) s)), by decide⟩,
   ⟨0, dLadder, (let n : Nat := 0; let c : Ladder := dLadder; let s : State := node; let s : State := (updLane n (fun y => { y with cap := some c }) s); (updLane n (fun y => { y with capAt := none }) s)), by decide⟩,
   ⟨0, (let c : Ladder := dLadder; ({ c with partnerOk := false })), (let n : Nat := 0; let c : Ladder := dLadder; let c : Ladder := ({ c with partnerOk := false }); let s : State := node; (updLane n (fun y => { y with cap := some c }) s)), by decide⟩,
   ⟨64, ({ dLadder with target := 0xF } : Ladder), (let n : Nat := 64; let c : Ladder := { dLadder with target := 0xF }; let s : State := cell; let s : State := (updLane n (fun y => { y with cap := some c }) s); updLane n (fun y => { y with cap := some c }) s), by decide⟩,
   ⟨0, (let n : Nat := 0; let s : State := node; let s : State := (wr (O.LNK_STAGE n) 3 s); (updLane n (fun y => { y with ownPass := some false }) s)), by decide⟩,
   ⟨0, (let n : Nat := 0; let s : State := node; let s : State := (wr (O.LNK_STAGE n) 3 s); (updLane n (fun y => { y with partnerPass := some false }) s)), by decide⟩,
   ⟨0, (let n : Nat := 0; let s : State := node; let s : State := (wr (O.LNK_STAGE n) 3 s); let s : State := (updLane n (fun y => { y with ownPass := some true }) s); (updLane n (fun y => { y with partnerPass := some true }) s)), by decide⟩,
   ⟨0, (let n : Nat := 0; let s : State := node; let s : State := (wr (O.LNK_STAGE n) 3 s); let s : State := (updLane n (fun y => { y with ownPass := some true }) s); let s : State := (updLane n (fun y => { y with partnerPass := some true }) s); ({ s with tim := { s.tim with refLane := some default } })), by decide⟩,
   ⟨0, (let n : Nat := 0; let s : State := node; let s : State := (wr (O.LNK_STAGE n) 3 s); (updLane n (fun y => { y with ownPass := none }) s)), by decide⟩,
   ⟨0, (let n : Nat := 0; let s : State := node; let s : State := (wr (O.LNK_STAGE n) 3 s); (updLane n (fun y => { y with partnerPass := none }) s)), by decide⟩,
   ⟨0, (let n : Nat := 0; let s : State := cell; let s : State := (wr (O.LNK_STAGE n) 3 s); ({ s with tim := { s.tim with refLane := none } })), by decide⟩,
   ⟨64, ([] : List Nat), (let n : Nat := 64; let b : List Nat := []; (2, .rateGoRx n b)), apex, by decide⟩,
   ⟨0, ([] : List Nat), (let n : Nat := 0; let b : List Nat := []; (2, .rateGoRx n b)), (let n : Nat := 0; let s : State := node; (wr (O.LNK_STAGE n) 0 s)), by decide⟩,
   ⟨0, ([] : List Nat), (let n : Nat := 0; let b : List Nat := []; (2, .rateGoRx n b)), (let n : Nat := 0; let s : State := node; (wr (O.LNK_STAGE n) (6 + 1) s)), by decide⟩,
   ⟨0, ([1] : List Nat), (let n : Nat := 0; let b : List Nat := [1]; (2, .rateGoRx n b)), (let n : Nat := 0; let s : State := node; (wr (O.LNK_STAGE n) 1 s)), by decide⟩,
   ⟨0, ((List.replicate 32 1) : List Nat), (let n : Nat := 0; let b : List Nat := (List.replicate 32 1); (2, .rateGoRx n b)), (let n : Nat := 0; let s : State := node; (wr (O.LNK_STAGE n) 1 s)), by decide⟩,
   ⟨0, (({ dLadder with msg := 3, ver := 1 } : Ladder).bytes : List Nat), (let n : Nat := 0; let b : List Nat := ({ dLadder with msg := 3, ver := 1 } : Ladder).bytes; (2, .rateGoRx n b)), (let n : Nat := 0; let s : State := node; (wr (O.LNK_STAGE n) 1 s)), by decide⟩,
   ⟨0, (({ dLadder with msg := 2, ver := 2 } : Ladder).bytes : List Nat), (let n : Nat := 0; let b : List Nat := ({ dLadder with msg := 2, ver := 2 } : Ladder).bytes; (2, .rateGoRx n b)), (let n : Nat := 0; let s : State := node; (wr (O.LNK_STAGE n) 1 s)), by decide⟩,
   ⟨0, (({ dLadder with msg := 1, ver := 1 } : Ladder).bytes : List Nat), (let n : Nat := 0; let s : State := node; wr (O.LNK_STAGE n) 1 s), by unfold LadderMsg; decide⟩,
   ⟨0, node, by decide⟩,
   ⟨0, (({ dLadder with msg := 2, ver := 1 } : Ladder).bytes : List Nat), (let n : Nat := 0; let s : State := node; wr (O.LNK_STAGE n) 1 s), by unfold LadderMsg; decide⟩,
   ⟨0, (({ dLadder with msg := 3, ver := 1 } : Ladder).bytes : List Nat), (let n : Nat := 0; let s : State := node; wr (O.LNK_STAGE n) 2 s), by unfold LadderMsg; decide⟩,
   ⟨0, (({ dLadder with msg := 4, ver := 1 } : Ladder).bytes : List Nat), (let n : Nat := 0; let s : State := node; wr (O.LNK_STAGE n) 3 s), by unfold LadderMsg; decide⟩,
   ⟨0, (({ dLadder with msg := 5, ver := 1 } : Ladder).bytes : List Nat), (let n : Nat := 0; let s : State := node; wr (O.LNK_STAGE n) 4 s), by unfold LadderMsg; decide⟩,
   ⟨0, (({ dLadder with msg := 6, ver := 1 } : Ladder).bytes : List Nat), (let n : Nat := 0; let s : State := node; wr (O.LNK_STAGE n) 5 s), by unfold LadderMsg; decide⟩,
   ⟨0, (({ dLadder with msg := 7, ver := 1 } : Ladder).bytes : List Nat), (let n : Nat := 0; let s : State := node; wr (O.LNK_STAGE n) 5 s), by unfold LadderMsg; decide⟩,
   ⟨0, (({ dLadder with msg := 8, ver := 1 } : Ladder).bytes : List Nat), (let n : Nat := 0; let s : State := node; wr (O.LNK_STAGE n) 5 s), by unfold LadderMsg; decide⟩⟩

/-- Obligations.BackOffAndTrainingFailure: the hypotheses of its clauses can be met. -/
theorem witness_BackOffAndTrainingFailure :
    (∃ (n : Nat) (s : State) (b : Nat), b = (if (lane n s).consecutive = 0 then rd O.LNK_BACKOFF_MIN s else min (2 * (lane n s).b) (rd O.LNK_BACKOFF_MAX s))) ∧
    (∃ (n : Nat) (r : Nat) (s : State), n < s.lnk.lanes.length ∧ (lane n s).rate = some r ∧ r < 4 ∧ (lane n s).tries.length = 4) :=
  ⟨⟨0, node, (let n : Nat := 0; let s : State := node; (if (lane n s).consecutive = 0 then rd O.LNK_BACKOFF_MIN s else min (2 * (lane n s).b) (rd O.LNK_BACKOFF_MAX s))), by decide⟩,
   ⟨67, 0, (let n : Nat := 67; let r : Nat := 0; let s : State := node; let s : State := (updLane n (fun y => { y with rate := some r }) s); updLane n (fun y => { y with rate := some 0, tries := [0,0,0,0] }) s), by decide⟩⟩

/-- Obligations.LaneCommandsAndLoops: the hypotheses of its clauses can be met. -/
theorem witness_LaneCommandsAndLoops :
    (∃ (n : Nat) (s : State), rd O.SYS_RECOVERY s = 0 ∧ laneHere n s = true ∧ stage n s = 8) ∧
    (∃ (n : Nat) (v : Nat) (s : State), rd O.SYS_RECOVERY s = 0 ∧ laneHere n s = true ∧ 2 ≤ v) ∧
    (∃ (n : Nat) (s : State), rd O.SYS_RECOVERY s = 0 ∧ laneHere n s = true ∧ laneBusy n s = true) ∧
    (∃ (n : Nat) (s : State), rd O.SYS_RECOVERY s = 0 ∧ laneHere n s = true ∧ laneBusy n s = false ∧ 2 ≤ stage n s ∧ stage n s ≤ 5) ∧
    (∃ (n : Nat) (s : State), rd O.SYS_RECOVERY s = 0 ∧ laneHere n s = true ∧ laneBusy n s = false ∧ stage n s < 2) ∧
    (∃ (n : Nat) (s : State), rd O.SYS_RECOVERY s = 0 ∧ laneHere n s = true ∧ laneBusy n s = false ∧ 5 < stage n s) ∧
    (∃ (n : Nat) (s : State), laneHere n s = true ∧ stage n s ≠ 8 ∧ rdBit (O.LNK_STATUS n) 0 s = false) ∧
    (∃ (n : Nat) (s : State), laneHere n s = true ∧ rdBit (O.LNK_STATUS n) 0 s = true) ∧
    (∃ (n : Nat) (s : State), laneHere n s = true ∧ stage n s ≠ 8 ∧ rdBit (O.LNK_STATUS n) 1 s = false) ∧
    (∃ (n : Nat) (s : State), laneHere n s = true ∧ rdBit (O.LNK_STATUS n) 1 s = true) ∧
    (∃ (n : Nat) (s : State), laneHere n s = false) ∧
    (∃ (n : Nat) (x : Nat) (s : State), (lane n s).loopLeave = some x ∧ stage n s = 7 ∧ (lane n s).loopPartner = true ∧ x ≤ s.tick) ∧
    (∃ (n : Nat) (s : State), (lane n s).loopLeave = none) ∧
    (∃ (n : Nat) (b : Nat) (s : State), (lane n s).backoffEnd = some b) ∧
    (∃ (n : Nat) (s : State), (lane n s).backoffEnd = none) ∧
    (∃ (n : Nat) (s : State), rd O.SYS_RECOVERY s = 0 ∧ laneHere n s = true ∧ laneBusy n s = false ∧ stage n s ≠ 8) ∧
    (∃ (n : Nat) (s : State), rd O.SYS_RECOVERY s = 0 ∧ laneHere n s = true ∧ laneBusy n s = false ∧ inL5 n s = true) ∧
    (∃ (n : Nat) (s : State), rd O.SYS_RECOVERY s = 0 ∧ laneHere n s = true ∧ inL5 n s = false) ∧
    (∃ (n : Nat) (s : State), rd O.SYS_RECOVERY s = 0 ∧ laneHere n s = true ∧ stage n s = 7 ∧ (lane n s).loopPartner = false) ∧
    (∃ (n : Nat) (s : State), rd O.SYS_RECOVERY s = 0 ∧ laneHere n s = true ∧ stage n s ≠ 7) ∧
    (∃ (n : Nat) (s : State), rd O.SYS_RECOVERY s = 0 ∧ laneHere n s = true ∧ (lane n s).loopPartner = true) ∧
    (∃ (n : Nat) (s : State), inL5 n s = true ∧ pisteHop n s = true) ∧
    (∃ (n : Nat) (s : State), pisteHop n s = false) ∧
    (∃ (s : State), isNode s = false) ∧
    (∃ (n : Nat) (x : Nat) (s : State), (lane n s).knownAt = some x ∧ isNode s = true ∧ n < 64 ∧ inL5 n s = true ∧ carriesPiste n s = true) ∧
    (∃ (n : Nat) (s : State), (lane n s).knownAt = none) ∧
    (∃ (n : Nat), 64 ≤ n) ∧
    (∃ (n : Nat) (s : State), carriesPiste n s = false) :=
  ⟨⟨0, (let n : Nat := 0; let s : State := node; let s : State := (wr O.SYS_RECOVERY 0 s); (wr (O.LNK_STAGE n) 8 s)), by decide⟩,
   ⟨0, 2, (let s : State := node; (wr O.SYS_RECOVERY 0 s)), by decide⟩,
   ⟨67, (let s : State := node; let s : State := (wr O.SYS_RECOVERY 0 s); { s with tim := { s.tim with inForce := some { P0 with deblock := 1 } } }), by decide⟩,
   ⟨0, (let n : Nat := 0; let s : State := node; let s : State := (wr O.SYS_RECOVERY 0 s); (wr (O.LNK_STAGE n) 2 s)), by decide⟩,
   ⟨0, (let n : Nat := 0; let s : State := node; let s : State := (wr O.SYS_RECOVERY 0 s); (wr (O.LNK_STAGE n) (2 - 1) s)), by decide⟩,
   ⟨0, (let n : Nat := 0; let s : State := node; let s : State := (wr O.SYS_RECOVERY 0 s); (wr (O.LNK_STAGE n) (5 + 1) s)), by decide⟩,
   ⟨0, (let n : Nat := 0; let s : State := node; let s : State := (wr (O.LNK_STAGE n) (8 + 1) s); (wrBit (O.LNK_STATUS n) 0 false s)), by decide⟩,
   ⟨0, (let n : Nat := 0; let s : State := node; (wrBit (O.LNK_STATUS n) 0 true s)), by decide⟩,
   ⟨0, (let n : Nat := 0; let s : State := node; let s : State := (wr (O.LNK_STAGE n) (8 + 1) s); (wrBit (O.LNK_STATUS n) 1 false s)), by decide⟩,
   ⟨0, (let n : Nat := 0; let s : State := node; (wrBit (O.LNK_STATUS n) 1 true s)), by decide⟩,
   ⟨68, node, by decide⟩,
   ⟨0, 0, (let n : Nat := 0; let x : Nat := 0; let s : State := node; let s : State := (updLane n (fun y => { y with loopLeave := some x }) s); let s : State := (wr (O.LNK_STAGE n) 7 s); (updLane n (fun y => { y with loopPartner := true }) s)), by decide⟩,
   ⟨0, (let n : Nat := 0; let s : State := node; (updLane n (fun y => { y with loopLeave := none }) s)), by decide⟩,
   ⟨67, 5000, (let n : Nat := 67; let b : Nat := 5000; let s : State := node; let s : State := (updLane n (fun y => { y with backoffEnd := some b }) s); wr (O.LNK_STAGE 67) 0 (updLane 67 (fun y => { y with backoffEnd := some 5000 }) s)), by decide⟩,
   ⟨0, (let n : Nat := 0; let s : State := node; (updLane n (fun y => { y with backoffEnd := none }) s)), by decide⟩,
   ⟨0, (let n : Nat := 0; let s : State := node; let s : State := (wr O.SYS_RECOVERY 0 s); (wr (O.LNK_STAGE n) (8 + 1) s)), by decide⟩,
   ⟨0, (let n : Nat := 0; let s : State := node; let s : State := (wr O.SYS_RECOVERY 0 s); (wr (O.LNK_STAGE n) 5 s)), by decide⟩,
   ⟨0, (let s : State := node; (wr O.SYS_RECOVERY 0 s)), by decide⟩,
   ⟨0, (let n : Nat := 0; let s : State := node; let s : State := (wr O.SYS_RECOVERY 0 s); let s : State := (wr (O.LNK_STAGE n) 7 s); (updLane n (fun y => { y with loopPartner := false }) s)), by decide⟩,
   ⟨0, (let n : Nat := 0; let s : State := node; let s : State := (wr O.SYS_RECOVERY 0 s); (wr (O.LNK_STAGE n) (7 + 1) s)), by decide⟩,
   ⟨0, (let n : Nat := 0; let s : State := node; let s : State := (wr O.SYS_RECOVERY 0 s); (updLane n (fun y => { y with loopPartner := true }) s)), by decide⟩,
   ⟨64, (let n : Nat := 64; let s : State := cell; (wr (O.LNK_STAGE n) 5 s)), by decide⟩,
   ⟨0, node, by decide⟩,
   ⟨cell, by decide⟩,
   ⟨63, 5000, (let n : Nat := 63; let x : Nat := 5000; let s : State := node; let s : State := (updLane n (fun y => { y with knownAt := some x }) s); let s : State := (wr (O.LNK_STAGE n) 5 s); wr (O.LNK_STAGE 63) 5 (updLane 63 (fun y => { y with knownAt := some 5000, cap := some { dLadder with roleNode := false } }) s)), by decide⟩,
   ⟨0, (let n : Nat := 0; let s : State := node; (updLane n (fun y => { y with knownAt := none }) s)), by decide⟩,
   ⟨64, by decide⟩,
   ⟨0, node, by decide⟩⟩

/-- Obligations.FramesAndSchuss: the hypotheses of its clauses can be met. -/
theorem witness_FramesAndSchuss :
    (∃ (n : Nat) (s : State), laneHere n s = true) ∧
    (∃ (n : Nat) (s : State), laneHere n s = false) ∧
    (∃ (n : Nat) (s : State), 1 ≤ stage n s ∧ stage n s ≤ 6 ∧ (lane n s).rx = none) ∧
    (∃ (n : Nat) (f : RxFrame) (s : State), 1 ≤ stage n s ∧ stage n s ≤ 6 ∧ n < s.lnk.lanes.length ∧ (lane n s).rx = some f) ∧
    (∃ (n : Nat) (c : Nat) (f : RxFrame) (x : Nat) (r : List (RxFrame × Nat)) (s : State), (lane n s).rx = none ∧ (lane n s).rxSusp = (f, x) :: r ∧ f.cls = c) ∧
    (∃ (n : Nat) (c : Nat) (f : RxFrame) (x : Nat) (r : List (RxFrame × Nat)) (s : State), (lane n s).rx = none ∧ (lane n s).rxSusp = (f, x) :: r ∧ f.cls ≠ c) ∧
    (∃ (n : Nat) (f : RxFrame) (bad : Bool) (c : Nat), rxFault n f.cls f.bytes bad = some c) ∧
    (∃ (n : Nat) (f : RxFrame) (bad : Bool), rxFault n f.cls f.bytes bad = none) ∧
    (∃ (b : List Nat), hcrcFails b = true) ∧
    (∃ (b : List Nat), hcrcFails b = false ∧ crcFails b = true) ∧
    (∃ (b : List Nat), hcrcFails b = false ∧ crcFails b = false ∧ b.length ≠ lenB b) ∧
    (∃ (sof : Nat) (b : List Nat), hcrcFails b = false ∧ crcFails b = false ∧ (hdrOf b).cls ≠ sof) ∧
    (∃ (l : LaneSt), l.cur = none) ∧
    (∃ (l : LaneSt) (it : TxItem) (c : TxItem), l.cur = some c ∧ it.cls < c.cls) ∧
    (∃ (l : LaneSt) (it : TxItem) (c : TxItem), l.cur = some c ∧ c.cls < it.cls) ∧
    (∃ (l : LaneSt) (c : TxItem) (x : TxItem), List.Pairwise (fun a b : TxItem => a.cls ≤ b.cls) l.q ∧ List.Pairwise (fun a b : TxItem => a.cls < b.cls) l.susp ∧ (l.endFrame false).cur = some c ∧ x ∈ (l.endFrame false).q ++ (l.endFrame false).susp) ∧
    (∃ (n : Nat) (c : TxItem) (s : State), (lane n s).cur = some c) ∧
    (∃ (n : Nat) (s : State), (lane n s).cur = none) ∧
    (∃ (n : Nat) (e : RxFrame × Nat) (s : State), (lane n s).rxSusp.getLast? = some e) ∧
    (∃ (n : Nat) (s : State), (lane n s).rxSusp = []) ∧
    (∃ (h : Nat) (p : Nat), h < 2 ^ 58 ∧ p < 2 ^ 64) ∧
    (∃ (k : Bool) (c : Nat), (k = false → c < 256) ∧ (k = true → c ∈ ctrlChars)) ∧
    (∃ (n : Nat) (s : State), inL5 n s = true) ∧
    (∃ (n : Nat) (s : State), inL5 n s = false) ∧
    (∃ (origin : Nat) (seq : Nat) (g : Nat) (kind : Nat) (b : List Nat), kind = 0x5A ∧ origin < 256 ∧ seq < 256 ∧ b = schussBytes kind origin seq ∧ g ≤ 6) ∧
    (∃ (origin : Nat) (seq : Nat) (g : Nat) (kind : Nat) (b : List Nat), kind = 0xA5 ∧ origin < 256 ∧ seq < 256 ∧ b = schussBytes kind origin seq ∧ g ≤ 6) ∧
    (∃ (b : List Nat), schussKey b = none) ∧
    (∃ (kind : Nat), kind < 256 ∧ kind ≠ 0x5A ∧ kind ≠ 0xA5) ∧
    (∃ (n : Nat) (m : Nat) (s : State), m < 68 ∧ m ≠ n ∧ inL5 m s = true ∧ m < s.lnk.lanes.length) ∧
    (∃ (m : Nat) (s : State), inL5 m s = false) ∧
    (∃ (c : Nat) (s : State), s.saf.repeatAt = some c ∧ s.saf.causes ≠ []) ∧
    (∃ (c : Nat) (s : State), s.saf.repeatAt = some c ∧ s.saf.causes = []) ∧
    (∃ (s : State), s.saf.repeatAt = none) :=
  ⟨⟨0, node, by decide⟩,
   ⟨5, cell, by decide⟩,
   ⟨0, (let n : Nat := 0; let s : State := node; let s : State := (wr (O.LNK_STAGE n) 1 s); (updLane n (fun y => { y with rx := none }) s)), by decide⟩,
   ⟨0, ({ cls := 3, bytes := [1], born := 5 } : RxFrame), (let n : Nat := 0; let f : RxFrame := { cls := 3, bytes := [1], born := 5 }; let s : State := node; let s : State := (wr (O.LNK_STAGE n) 1 s); (updLane n (fun y => { y with rx := some f }) s)), by decide⟩,
   ⟨0, 0, (let c : Nat := 0; let f : RxFrame := dRxFrame; ({ f with cls := c })), 0, ([] : List (RxFrame × Nat)), (let n : Nat := 0; let c : Nat := 0; let f : RxFrame := dRxFrame; let f : RxFrame := ({ f with cls := c }); let x : Nat := 0; let r : List (RxFrame × Nat) := []; let s : State := node; let s : State := (updLane n (fun y => { y with rx := none }) s); (updLane n (fun y => { y with rxSusp := (f, x) :: r }) s)), by decide⟩,
   ⟨3, 3, dRxFrame, 3, ([] : List (RxFrame × Nat)), (let n : Nat := 3; let f : RxFrame := dRxFrame; let x : Nat := 3; let r : List (RxFrame × Nat) := []; let s : State := node; let s : State := (updLane n (fun y => { y with rx := none }) s); (updLane n (fun y => { y with rxSusp := (f, x) :: r }) s)), by decide⟩,
   ⟨0, ({ cls := 3, bytes := [1,2,3], born := 5 } : RxFrame), false, (let n : Nat := 0; (O.LNK_HCRC_ERR n)), by decide⟩,
   ⟨0, ({ cls := 5, bytes := (Frame.bytes { hdr := { dHdr with cls := 5, typ := 1 }, len := 64, pay := .obj dObjMsg }), born := 5 } : RxFrame), false, by decide⟩,
   ⟨([] : List Nat), by decide⟩,
   ⟨((Frame.bytes { hdr := { dHdr with cls := 5, typ := 1 }, len := 64, pay := .obj dObjMsg }).set 30 9 : List Nat), by decide⟩,
   ⟨((Frame.bytes { hdr := { dHdr with cls := 5, typ := 1 }, len := 64, pay := .obj dObjMsg }) ++ [1] : List Nat), by decide⟩,
   ⟨4, ((Frame.bytes { hdr := { dHdr with cls := 5, typ := 1 }, len := 64, pay := .obj dObjMsg }) : List Nat), by decide⟩,
   ⟨(let l : LaneSt := dLaneSt; ({ l with cur := none })), by decide⟩,
   ⟨({ LaneSt.init with cur := some { cls := 3, len := 30, reserve := false, body := .fwd [] false, ahead := false, born := 0 } } : LaneSt), ({ cls := 2, len := 30, reserve := false, body := .fwd [] false, ahead := false, born := 0 } : TxItem), ({ cls := 3, len := 30, reserve := false, body := .fwd [] false, ahead := false, born := 0 } : TxItem), by decide⟩,
   ⟨({ LaneSt.init with cur := some { cls := 2, len := 30, reserve := false, body := .fwd [] false, ahead := false, born := 0 } } : LaneSt), ({ cls := 3, len := 30, reserve := false, body := .fwd [] false, ahead := false, born := 0 } : TxItem), ({ cls := 2, len := 30, reserve := false, body := .fwd [] false, ahead := false, born := 0 } : TxItem), by decide⟩,
   ⟨({ LaneSt.init with cur := some { cls := 1, len := 30, reserve := false, body := .fwd [] false, ahead := false, born := 0 }, q := [{ cls := 2, len := 30, reserve := false, body := .fwd [] false, ahead := false, born := 0 },{ cls := 4, len := 30, reserve := false, body := .fwd [] false, ahead := false, born := 0 }], susp := [{ cls := 3, len := 30, reserve := false, body := .fwd [] false, ahead := false, born := 0 },{ cls := 5, len := 30, reserve := false, body := .fwd [] false, ahead := false, born := 0 }] } : LaneSt), ({ cls := 2, len := 30, reserve := false, body := .fwd [] false, ahead := false, born := 0 } : TxItem), ({ cls := 4, len := 30, reserve := false, body := .fwd [] false, ahead := false, born := 0 } : TxItem), by decide⟩,
   ⟨0, dTxItem, (let n : Nat := 0; let c : TxItem := dTxItem; let s : State := node; (updLane n (fun y => { y with cur := some c }) s)), by decide⟩,
   ⟨0, (let n : Nat := 0; let s : State := node; (updLane n (fun y => { y with cur := none }) s)), by decide⟩,
   ⟨0, (({ cls := 3, bytes := [1], born := 5 }, 7) : RxFrame × Nat), (let n : Nat := 0; let s : State := node; updLane n (fun y => { y with rxSusp := [({ cls := 3, bytes := [1], born := 5 }, 7)] }) s), by decide⟩,
   ⟨0, (let n : Nat := 0; let s : State := node; (updLane n (fun y => { y with rxSusp := [] }) s)), by decide⟩,
   ⟨0, 0, by decide⟩,
   ⟨false, 0, by decide⟩,
   ⟨0, (let n : Nat := 0; let s : State := node; (wr (O.LNK_STAGE n) 5 s)), by decide⟩,
   ⟨0, node, by decide⟩,
   ⟨0, 0, 0, 0x5A, (let origin : Nat := 0; let seq : Nat := 0; let kind : Nat := 0x5A; schussBytes kind origin seq), by decide⟩,
   ⟨0, 0, 0, 0xA5, (let origin : Nat := 0; let seq : Nat := 0; let kind : Nat := 0xA5; schussBytes kind origin seq), by decide⟩,
   ⟨([] : List Nat), by decide⟩,
   ⟨((0x5A + 1) : Nat), by decide⟩,
   ⟨0, (let n : Nat := 0; (n + 1)), (let n : Nat := 0; let m : Nat := (n + 1); let s : State := node; (wr (O.LNK_STAGE m) 5 s)), by decide⟩,
   ⟨0, node, by decide⟩,
   ⟨0, (let c : Nat := 0; let s : State := node; let s : State := ({ s with saf := { s.saf with repeatAt := some c } }); ({ s with saf := { s.saf with causes := [(.degraded, false)] } })), by decide⟩,
   ⟨0, (let c : Nat := 0; let s : State := node; let s : State := ({ s with saf := { s.saf with repeatAt := some c } }); ({ s with saf := { s.saf with causes := [] } })), by decide⟩,
   ⟨(let s : State := node; ({ s with saf := { s.saf with repeatAt := none } })), by decide⟩⟩

/-- Obligations.HopsAndParameters: the hypotheses of its clauses can be met. -/
theorem witness_HopsAndParameters :
    (∃ (n : Nat) (it : TxItem) (f : Frame) (bad : Bool) (s : State), (lane n s).cur = some it ∧ it.body = .own f bad ∧ f.hdr.cls = 1 ∧ f.hdr.typ ≤ 2) ∧
    (∃ (n : Nat) (t1 : Nat) (p : PdResp) (s : State), measures n s = true ∧ (pdLane n s).t1 = some t1 ∧ p.reqSeq = (pdLane n s).seq) ∧
    (∃ (n : Nat) (t1 : Nat) (p : PdResp) (s : State), measures n s = true ∧ (pdLane n s).t1 = some t1 ∧ p.reqSeq ≠ (pdLane n s).seq) ∧
    (∃ (n : Nat) (s : State), n < 68 ∧ (pdLane n s).ex = [] ∧ inL5 n s = false) ∧
    (∃ (n : Nat) (s : State), measures n s = false) ∧
    (∃ (n : Nat) (s : State), (pdLane n s).t1 = none) ∧
    (∃ (p : ParamSet) (s : State), isNode s = true ∧ s.tim.pend = some p) ∧
    (∃ (p : ParamSet) (s : State), isNode s = true ∧ (s.tim.pend = none ∧ s.tim.inForce = some p)) ∧
    (∃ (s : State), isNode s = false) ∧
    (∃ (s : State), (s.tim.pend = none ∧ s.tim.inForce = none)) ∧
    (∃ (s : State), isApex s = true) ∧
    (∃ (p : ParamSet) (s : State), s.tim.inForce = none ∧ vtTicks s < ticksOfNs p.pEff) ∧
    (∃ (p : ParamSet) (s : State), s.tim.inForce = none ∧ ticksOfNs p.pEff ≤ vtTicks s ∧ isNode s = true ∧ isApex s = false) ∧
    (∃ (p : ParamSet) (f : ParamSet) (s : State), s.tim.inForce = some f ∧ kNow s < p.kEff ∧ s.tim.pend = none) ∧
    (∃ (p : ParamSet) (f : ParamSet) (force : Bool) (s : State), s.tim.inForce = some f ∧ kNow s < p.kEff ∧ force = true) ∧
    (∃ (p : ParamSet) (f : ParamSet) (s : State), s.tim.inForce = some f ∧ kNow s < p.kEff ∧ (∃ q, s.tim.pend = some q ∧ q.kEff ≤ p.kEff)) ∧
    (∃ (p : ParamSet) (f : ParamSet) (force : Bool) (q : ParamSet) (s : State), s.tim.inForce = some f ∧ kNow s < p.kEff ∧ s.tim.pend = some q ∧ p.kEff < q.kEff ∧ force = false) ∧
    (∃ (q : Station) (s : State), isNode s = true ∧ isApex s = false ∧ mapFor (vtFrac s / 65536 * 65536) s = some q) ∧
    (∃ (s : State), (isApex s = false ∧ mapFor (vtFrac s / 65536 * 65536) s = none)) ∧
    (∃ (n : Nat) (v : Int) (s : State), rd O.SYS_RECOVERY s = 0 ∧ n < 68 ∧ -100000 ≤ v ∧ v ≤ 100000) ∧
    (∃ (n : Nat) (v : Int) (s : State), rd O.SYS_RECOVERY s = 0 ∧ n < 68 ∧ v < -100000) ∧
    (∃ (n : Nat) (v : Int) (s : State), rd O.SYS_RECOVERY s = 0 ∧ n < 68 ∧ 100000 < v) :=
  ⟨⟨0, ({ cls := 1, len := 30, reserve := false, body := .own { hdr := { dHdr with cls := 1, typ := 2 }, len := 30, pay := .sync dSync } false, ahead := false, born := 0 } : TxItem), ({ hdr := { dHdr with cls := 1, typ := 2 }, len := 30, pay := .sync dSync } : Frame), false, (let n : Nat := 0; let it : TxItem := { cls := 1, len := 30, reserve := false, body := .own { hdr := { dHdr with cls := 1, typ := 2 }, len := 30, pay := .sync dSync } false, ahead := false, born := 0 }; let s : State := node; (updLane n (fun y => { y with cur := some it }) s)), by decide⟩,
   ⟨67, 5, ({ dPdResp with reqSeq := 255 } : PdResp), (let n : Nat := 67; let t1 : Nat := 5; let s : State := node; let s : State := (wr (O.LNK_STAGE n) 5 s); { (wr (O.LNK_STAGE 67) 5 s) with tim := { s.tim with pd := [{ lane := 67, seq := 255, t1 := some 5, ex := [], reported := 0 }] } }), by decide⟩,
   ⟨67, 5, ({ dPdResp with reqSeq := 254 } : PdResp), (let n : Nat := 67; let t1 : Nat := 5; let s : State := node; let s : State := (wr (O.LNK_STAGE n) 5 s); { (wr (O.LNK_STAGE 67) 5 s) with tim := { s.tim with pd := [{ lane := 67, seq := 255, t1 := some 5, ex := [], reported := 0 }] } }), by decide⟩,
   ⟨0, node, by decide⟩,
   ⟨0, node, by decide⟩,
   ⟨0, node, by decide⟩,
   ⟨dParamSet, (let p : ParamSet := dParamSet; let s : State := node; ({ s with tim := { s.tim with pend := some p } })), by decide⟩,
   ⟨dParamSet, (let p : ParamSet := dParamSet; let s : State := node; let s : State := ({ s with tim := { s.tim with pend := none } }); ({ s with tim := { s.tim with inForce := some p } })), by decide⟩,
   ⟨cell, by decide⟩,
   ⟨(let s : State := node; let s : State := ({ s with tim := { s.tim with pend := none } }); ({ s with tim := { s.tim with inForce := none } })), by decide⟩,
   ⟨apex, by decide⟩,
   ⟨({ P0 with pEff := 2 ^ 60 } : ParamSet), (let s : State := node; ({ s with tim := { s.tim with inForce := none } })), by decide⟩,
   ⟨dParamSet, (let s : State := node; ({ s with tim := { s.tim with inForce := none } })), by decide⟩,
   ⟨({ P0 with kEff := 9 } : ParamSet), dParamSet, (let f : ParamSet := dParamSet; let s : State := node; let s : State := ({ s with tim := { s.tim with inForce := some f } }); let s : State := ({ s with tim := { s.tim with pend := none } }); wr O.TIM_PERIOD_NUMBER 3 s), by decide⟩,
   ⟨({ P0 with kEff := 9 } : ParamSet), dParamSet, true, (let f : ParamSet := dParamSet; let s : State := node; let s : State := ({ s with tim := { s.tim with inForce := some f } }); wr O.TIM_PERIOD_NUMBER 3 s), by decide⟩,
   ⟨({ P0 with kEff := 9 } : ParamSet), dParamSet, (let f : ParamSet := dParamSet; let s : State := node; let s : State := ({ s with tim := { s.tim with inForce := some f } }); wr O.TIM_PERIOD_NUMBER 3 { s with tim := { s.tim with pend := some { P0 with kEff := 8 } } }), by decide⟩,
   ⟨({ P0 with kEff := 9 } : ParamSet), dParamSet, false, ({ P0 with kEff := 10 } : ParamSet), (let f : ParamSet := dParamSet; let q : ParamSet := { P0 with kEff := 10 }; let s : State := node; let s : State := ({ s with tim := { s.tim with inForce := some f } }); let s : State := ({ s with tim := { s.tim with pend := some q } }); wr O.TIM_PERIOD_NUMBER 3 { s with tim := { s.tim with pend := some { P0 with kEff := 10 } } }), by decide⟩,
   ⟨dStation, (let s : State := node; { s with tim := { s.tim with maps := [dStation] } }), by decide⟩,
   ⟨node, by decide⟩,
   ⟨0, (-100000 : Int), (let s : State := node; (wr O.SYS_RECOVERY 0 s)), by decide⟩,
   ⟨67, ((-100001) : Int), (let s : State := node; (wr O.SYS_RECOVERY 0 s)), by decide⟩,
   ⟨67, 100001, (let s : State := node; (wr O.SYS_RECOVERY 0 s)), by decide⟩⟩

/-- Obligations.SyncAndRoles: the hypotheses of its clauses can be met. -/
theorem witness_SyncAndRoles :
    (∃ (s : State), isNode s = false) ∧
    (∃ (n : Nat) (s : State), measures n s = false) ∧
    (∃ (y : Sync), y.valid = false) ∧
    (∃ (y : Sync) (s : State), isNode s = true ∧ isApex s = false ∧ y.valid = true ∧ measures 64 s = true) ∧
    (∃ (y : Sync) (s : State), isNode s = true ∧ isApex s = false ∧ y.valid = true ∧ measures 65 s = true ∧ fresh200 s.tim.up0 s = false) ∧
    (∃ (y : Sync) (s : State), isNode s = true ∧ isApex s = false ∧ y.valid = true ∧ measures 65 s = true ∧ fresh200 s.tim.up0 s = true) ∧
    (∃ (y : Sync) (n : Nat) (s : State), isNode s = true ∧ isApex s = false ∧ y.valid = true ∧ measures n s = true ∧ n = 66) ∧
    (∃ (y : Sync) (n : Nat) (s : State), isNode s = true ∧ isApex s = false ∧ y.valid = true ∧ measures n s = true ∧ n = 67) ∧
    (∃ (n : Nat) (s : State), isNode s = true ∧ n < 64) ∧
    (∃ (n : Nat) (s : State), isNode s = true ∧ (isApex s = true ∧ n < 66)) ∧
    (∃ (y : Sync) (n : Nat) (s : State), isApex s = true ∧ measures n s = true ∧ y.valid = true ∧ n = 66) ∧
    (∃ (y : Sync) (n : Nat) (s : State), isApex s = true ∧ measures n s = true ∧ y.valid = true ∧ n = 67) ∧
    (∃ (n : Nat) (y : Sync) (s : State), isCell s = true ∧ y.lineageB = (n != laneU1)) ∧
    (∃ (n : Nat) (s : State), isCell s = true ∧ (n ≠ laneU0 ∧ n ≠ laneU1)) ∧
    (∃ (y : Sync) (s : State), isCell s = true ∧ y.valid = true ∧ measures laneU0 s = true ∧ y.lineageB = false) ∧
    (∃ (y : Sync) (s : State), isCell s = true ∧ y.valid = true ∧ measures laneU1 s = true ∧ y.lineageB = true) ∧
    (∃ (s : State), isNode s = true ∧ rd O.TIM_VT_ROLE s = 1) ∧
    (∃ (s : State), isApex s = true ∧ rd O.TIM_VT_ROLE s = 2) ∧
    (∃ (s : State), isNode s = true ∧ rd O.TIM_VT_ROLE s ≠ 1 ∧ isApex s = false) ∧
    (∃ (s : State), isNode s = true ∧ rd O.TIM_VT_ROLE s ≠ 1 ∧ rd O.TIM_VT_ROLE s ≠ 2) ∧
    (∃ (q : Nat) (s : State), (servo false s).since = some q ∧ isCell s = true ∧ s.tim.onB = true ∧ (servo false s).st ≠ .unlocked) ∧
    (∃ (q : Nat) (s : State), (servo false s).since = some q ∧ isCell s = false) ∧
    (∃ (q : Nat) (s : State), (servo false s).since = some q ∧ s.tim.onB = false) ∧
    (∃ (q : Nat) (s : State), (servo false s).since = some q ∧ (servo false s).st = .unlocked) ∧
    (∃ (s : State), (servo false s).since = none) ∧
    (∃ (w : Nat) (s : State), isApex s = true ∧ rd O.TIM_VT_ROLE s = 0 ∧ s.tim.waitEnd = some w ∧ sideB s = false) ∧
    (∃ (w : Nat) (s : State), isApex s = true ∧ rd O.TIM_VT_ROLE s = 0 ∧ s.tim.waitEnd = some w ∧ 1 ≤ s.tim.waits) ∧
    (∃ (w : Nat) (s : State), isApex s = true ∧ rd O.TIM_VT_ROLE s = 0 ∧ s.tim.waitEnd = some w ∧ sideB s = true ∧ s.tim.waits = 0) ∧
    (∃ (s : State), rd O.TIM_VT_ROLE s ≠ 0) ∧
    (∃ (s : State), s.tim.waitEnd = none) ∧
    (∃ (q : Nat) (s : State), isCell s = true ∧ s.tim.refHoldEnd = some q ∧ (∀ n ∈ [laneU0, laneU1], stage n s = 0 ∨ 6 < stage n s)) ∧
    (∃ (q : Nat) (s : State), isCell s = true ∧ s.tim.refHoldEnd = some q ∧ (∃ n ∈ [laneU0, laneU1], 1 ≤ stage n s ∧ stage n s ≤ 6)) ∧
    (∃ (s : State), s.tim.refHoldEnd = none) :=
  ⟨⟨cell, by decide⟩,
   ⟨0, node, by decide⟩,
   ⟨(let y : Sync := dSync; ({ y with valid := false })), by decide⟩,
   ⟨({ dSync with valid := true } : Sync), (let s : State := node; let s : State := (wr (O.LNK_STAGE 64) 5 s); wr (O.LNK_STAGE 64) 4 s), by decide⟩,
   ⟨(let y : Sync := dSync; ({ y with valid := true })), (let s : State := node; (wr (O.LNK_STAGE 65) 5 s)), by decide⟩,
   ⟨(let y : Sync := dSync; ({ y with valid := true })), (let s : State := node; let s : State := (wr (O.LNK_STAGE 65) 5 s); updTim (fun x => { x with up0 := some s.tick }) s), by decide⟩,
   ⟨(let y : Sync := dSync; ({ y with valid := true })), 66, (let n : Nat := 66; let s : State := node; (wr (O.LNK_STAGE n) 5 s)), by decide⟩,
   ⟨(let y : Sync := dSync; ({ y with valid := true })), 67, (let n : Nat := 67; let s : State := node; (wr (O.LNK_STAGE n) 5 s)), by decide⟩,
   ⟨0, node, by decide⟩,
   ⟨0, apex, by decide⟩,
   ⟨(let y : Sync := dSync; ({ y with valid := true })), 66, (let n : Nat := 66; let s : State := apex; (wr (O.LNK_STAGE n) 5 s)), by decide⟩,
   ⟨(let y : Sync := dSync; ({ y with valid := true })), 67, (let n : Nat := 67; let s : State := apex; (wr (O.LNK_STAGE n) 5 s)), by decide⟩,
   ⟨0, (let n : Nat := 0; let y : Sync := dSync; ({ y with lineageB := (n != laneU1) })), cell, by decide⟩,
   ⟨5, cell, by decide⟩,
   ⟨(let y : Sync := dSync; let y : Sync := ({ y with valid := true }); ({ y with lineageB := false })), (let s : State := cell; (wr (O.LNK_STAGE laneU0) 5 s)), by decide⟩,
   ⟨(let y : Sync := dSync; let y : Sync := ({ y with valid := true }); ({ y with lineageB := true })), (let s : State := cell; (wr (O.LNK_STAGE laneU1) 5 s)), by decide⟩,
   ⟨(let s : State := node; (wr O.TIM_VT_ROLE 1 s)), by decide⟩,
   ⟨(let s : State := apex; (wr O.TIM_VT_ROLE 2 s)), by decide⟩,
   ⟨(let s : State := node; (wr O.TIM_VT_ROLE (1 + 1) s)), by decide⟩,
   ⟨(let s : State := node; let s : State := (wr O.TIM_VT_ROLE (1 + 1) s); (wr O.TIM_VT_ROLE (2 + 1) s)), by decide⟩,
   ⟨0, (let q : Nat := 0; let s : State := cell; let s : State := (setSrv false (fun y => { y with since := some q }) s); let s : State := ({ s with tim := { s.tim with onB := true } }); (setSrv false (fun y => { y with st := .locked }) s)), by decide⟩,
   ⟨0, (let q : Nat := 0; let s : State := node; (setSrv false (fun y => { y with since := some q }) s)), by decide⟩,
   ⟨0, (let q : Nat := 0; let s : State := node; let s : State := (setSrv false (fun y => { y with since := some q }) s); ({ s with tim := { s.tim with onB := false } })), by decide⟩,
   ⟨0, (let q : Nat := 0; let s : State := node; let s : State := (setSrv false (fun y => { y with since := some q }) s); (setSrv false (fun y => { y with st := .unlocked }) s)), by decide⟩,
   ⟨(let s : State := node; (setSrv false (fun y => { y with since := none }) s)), by decide⟩,
   ⟨0, (let w : Nat := 0; let s : State := apex; let s : State := (wr O.TIM_VT_ROLE 0 s); ({ s with tim := { s.tim with waitEnd := some w } })), by decide⟩,
   ⟨5000, (let w : Nat := 5000; let s : State := apex; let s : State := (wr O.TIM_VT_ROLE 0 s); let s : State := ({ s with tim := { s.tim with waitEnd := some w } }); wr O.TIM_VT_ROLE 0 { s with straps := { s.straps with sideB := true }, tim := { s.tim with waits := 1, waitEnd := some 5000 } }), by decide⟩,
   ⟨5000, (let w : Nat := 5000; let s : State := apex; let s : State := (wr O.TIM_VT_ROLE 0 s); let s : State := ({ s with tim := { s.tim with waitEnd := some w } }); let s : State := ({ s with tim := { s.tim with waits := 0 } }); wr O.TIM_VT_ROLE 0 { s with straps := { s.straps with sideB := true }, tim := { s.tim with waits := 0, waitEnd := some 5000 } }), by decide⟩,
   ⟨(let s : State := node; (wr O.TIM_VT_ROLE (0 + 1) s)), by decide⟩,
   ⟨(let s : State := node; ({ s with tim := { s.tim with waitEnd := none } })), by decide⟩,
   ⟨0, (let q : Nat := 0; let s : State := cell; ({ s with tim := { s.tim with refHoldEnd := some q } })), by decide⟩,
   ⟨0, (let q : Nat := 0; let s : State := cell; let s : State := ({ s with tim := { s.tim with refHoldEnd := some q } }); wr (O.LNK_STAGE 64) 1 s), by decide⟩,
   ⟨(let s : State := node; ({ s with tim := { s.tim with refHoldEnd := none } })), by decide⟩⟩

/-- Obligations.HostClockFollowsItsMaster: the hypotheses of its clauses can be met. -/
theorem witness_HostClockFollowsItsMaster :
    (∃ (h : PtpHdr) (t2 : Nat) (rx : Nat) (s : State), ptpTakes ptpMacAll h s = true ∧ s.tim.master = some (h.port, h.ident) ∧ (s.tim.ports.getD h.port PtpPort.init).sync = some (h.seq, t2, rx)) ∧
    (∃ (h : PtpHdr) (q : Nat) (t2 : Nat) (rx : Nat) (s : State), ptpTakes ptpMacAll h s = true ∧ s.tim.master = some (h.port, h.ident) ∧ (s.tim.ports.getD h.port PtpPort.init).sync = some (q, t2, rx) ∧ q ≠ h.seq) ∧
    (∃ (h : PtpHdr) (s : State), ptpTakes ptpMacAll h s = true ∧ s.tim.master = some (h.port, h.ident) ∧ (s.tim.ports.getD h.port PtpPort.init).sync = none) ∧
    (∃ (h : PtpHdr) (s : State), ptpTakes ptpMacAll h s = false) ∧
    (∃ (h : PtpHdr) (s : State), s.tim.master ≠ some (h.port, h.ident)) ∧
    (∃ (p : Nat) (s : State), ptpOn p s = true) ∧
    (∃ (p : Nat) (s : State), ptpOn p s = false) ∧
    (∃ (h : PtpHdr) (t1 : Nat) (s : State), ptpTakes ptpMacPeer h s = true ∧ (s.tim.ports.getD h.port PtpPort.init).pdT1 = some t1 ∧ h.seq = (s.tim.ports.getD h.port PtpPort.init).pdSeq) ∧
    (∃ (h : PtpHdr) (t1 : Nat) (s : State), ptpTakes ptpMacPeer h s = true ∧ (s.tim.ports.getD h.port PtpPort.init).pdT1 = some t1 ∧ h.seq ≠ (s.tim.ports.getD h.port PtpPort.init).pdSeq) ∧
    (∃ (h : PtpHdr) (s : State), (s.tim.ports.getD h.port PtpPort.init).pdT1 = none) ∧
    (∃ (h : PtpHdr) (s : State), ptpTakes ptpMacPeer h s = false) ∧
    (∃ (p : Nat × Nat) (s : State), isApex s = true ∧ s.tim.master = some p) ∧
    (∃ (s : State), isApex s = false) ∧
    (∃ (s : State), s.tim.master = none) :=
  ⟨⟨(({ port := 0, etype := 0x88F7, mac := ptpMacAll, vlan := none, domain := 0, ident := 7, seq := 3, frac := 5 } : PtpHdr) : PtpHdr), 100, 200, (let h : PtpHdr := ({ port := 0, etype := 0x88F7, mac := ptpMacAll, vlan := none, domain := 0, ident := 7, seq := 3, frac := 5 } : PtpHdr); let s : State := apex; let s : State := ({ s with tim := { s.tim with master := some (h.port, h.ident) } }); updPtp 0 (fun p => { p with sync := some (3, 100, 200) }) (updTim (fun x => { x with master := some (0, 7) }) (wrBit O.TIM_PTP_ENABLE 0 true s))), by decide⟩,
   ⟨(({ port := 0, etype := 0x88F7, mac := ptpMacAll, vlan := none, domain := 0, ident := 7, seq := 3, frac := 5 } : PtpHdr) : PtpHdr), 9, 100, 200, (let h : PtpHdr := ({ port := 0, etype := 0x88F7, mac := ptpMacAll, vlan := none, domain := 0, ident := 7, seq := 3, frac := 5 } : PtpHdr); let s : State := apex; let s : State := ({ s with tim := { s.tim with master := some (h.port, h.ident) } }); updPtp 0 (fun p => { p with sync := some (9, 100, 200) }) (updTim (fun x => { x with master := some (0, 7) }) (wrBit O.TIM_PTP_ENABLE 0 true s))), by decide⟩,
   ⟨(({ port := 0, etype := 0x88F7, mac := ptpMacAll, vlan := none, domain := 0, ident := 7, seq := 3, frac := 5 } : PtpHdr) : PtpHdr), (let h : PtpHdr := ({ port := 0, etype := 0x88F7, mac := ptpMacAll, vlan := none, domain := 0, ident := 7, seq := 3, frac := 5 } : PtpHdr); let s : State := apex; let s : State := ({ s with tim := { s.tim with master := some (h.port, h.ident) } }); updPtp 0 (fun p => { p with sync := none }) (updTim (fun x => { x with master := some (0, 7) }) (wrBit O.TIM_PTP_ENABLE 0 true s))), by decide⟩,
   ⟨dPtpHdr, node, by decide⟩,
   ⟨dPtpHdr, node, by decide⟩,
   ⟨0, (let s : State := apex; wrBit O.TIM_PTP_ENABLE 0 true s), by decide⟩,
   ⟨0, node, by decide⟩,
   ⟨(({ port := 0, etype := 0x88F7, mac := ptpMacPeer, vlan := none, domain := 0, ident := 7, seq := 3, frac := 5 } : PtpHdr) : PtpHdr), 50, (let s : State := apex; updPtp 0 (fun p => { p with pdT1 := some 50, pdSeq := 3 }) (wrBit O.TIM_PTP_ENABLE 0 true s)), by decide⟩,
   ⟨(({ port := 0, etype := 0x88F7, mac := ptpMacPeer, vlan := none, domain := 0, ident := 7, seq := 3, frac := 5 } : PtpHdr) : PtpHdr), 50, (let s : State := apex; updPtp 0 (fun p => { p with pdT1 := some 50, pdSeq := 9 }) (wrBit O.TIM_PTP_ENABLE 0 true s)), by decide⟩,
   ⟨dPtpHdr, node, by decide⟩,
   ⟨dPtpHdr, node, by decide⟩,
   ⟨((0, 0) : Nat × Nat), (let p : Nat × Nat := (0, 0); let s : State := apex; ({ s with tim := { s.tim with master := some p } })), by decide⟩,
   ⟨node, by decide⟩,
   ⟨(let s : State := node; ({ s with tim := { s.tim with master := none } })), by decide⟩⟩

/-- Obligations.StationTimeIsKept: the hypotheses of its clauses can be met. -/
theorem witness_StationTimeIsKept :
    (∃ (e : Int) (s : State), rd O.TIM_ST_CONFIRM s = 1 ∧ rd O.TIM_ST_OUTLIER s < (nsOff e).natAbs ∧ s.tim.stAllow = false ∧ rd O.TIM_ST_OUTLIERS s < 2 ^ 32 - 1) ∧
    (∃ (q : Nat) (s : State), s.tim.stSlewEnd = some q) ∧
    (∃ (s : State), s.tim.stSlewEnd = none) ∧
    (∃ (q : Nat) (s : State), s.tim.stHoldSince = some q) ∧
    (∃ (s : State), s.tim.stHoldSince = none) ∧
    (∃ (s : State), isApex s = true ∧ rd O.TIM_VT_SYNTONISE s = 0) ∧
    (∃ (s : State), isApex s = true ∧ rd O.TIM_ST_STATE s ≠ 2) ∧
    (∃ (s : State), isApex s = true ∧ rd O.TIM_VT_ROLE s ≠ 1) ∧
    (∃ (s : State), isApex s = true ∧ rd O.TIM_VT_SYNTONISE s ≠ 0 ∧ rd O.TIM_ST_STATE s = 2 ∧ rd O.TIM_VT_ROLE s = 1) ∧
    (∃ (s : State), isApex s = false) ∧
    (∃ (st : Nat), st ≤ 4) ∧
    (∃ (v : Int) (s : State), rd O.SYS_RECOVERY s = 0 ∧ isApex s = true ∧ -(2 ^ 63) ≤ v ∧ v < 2 ^ 63 ∧ rd O.TIM_ST_MODE s = 0) ∧
    (∃ (v : Int) (s : State), rd O.SYS_RECOVERY s = 0 ∧ isApex s = true ∧ -(2 ^ 63) ≤ v ∧ v < 2 ^ 63 ∧ rd O.TIM_ST_MODE s ≠ 0) ∧
    (∃ (v : Int), v < -(2 ^ 63)) ∧
    (∃ (v : Int), 2 ^ 63 ≤ v) ∧
    (∃ (v : Nat) (s : State), rd O.SYS_RECOVERY s = 0 ∧ isApex s = true ∧ 2683817689 ≤ v ∧ v ≤ 2684891431 ∧ rd O.TIM_ST_MODE s = 0) ∧
    (∃ (v : Nat) (s : State), rd O.SYS_RECOVERY s = 0 ∧ isApex s = true ∧ 2683817689 ≤ v ∧ v ≤ 2684891431 ∧ rd O.TIM_ST_MODE s ≠ 0) ∧
    (∃ (v : Nat) (s : State), rd O.SYS_RECOVERY s = 0 ∧ isApex s = true ∧ rd O.TIM_ST_MODE s = 0 ∧ v < 2683817689) ∧
    (∃ (v : Nat) (s : State), rd O.SYS_RECOVERY s = 0 ∧ isApex s = true ∧ rd O.TIM_ST_MODE s = 0 ∧ 2684891431 < v) :=
  ⟨⟨((2^40) : Int), (let e : Int := (2^40); let s : State := node; let s : State := (wr O.TIM_ST_CONFIRM 1 s); let s : State := (wr O.TIM_ST_OUTLIER ((nsOff e).natAbs - 1) s); let s : State := ({ s with tim := { s.tim with stAllow := false } }); let s : State := (wr O.TIM_ST_OUTLIERS (2 ^ 32 - 1 - 1) s); wr O.TIM_ST_CONFIRM 1 (wr O.TIM_ST_OUTLIER 1000 (wr O.TIM_ST_OUTLIERS (2^32-2) s))), by decide⟩,
   ⟨0, (let q : Nat := 0; let s : State := node; ({ s with tim := { s.tim with stSlewEnd := some q } })), by decide⟩,
   ⟨(let s : State := node; ({ s with tim := { s.tim with stSlewEnd := none } })), by decide⟩,
   ⟨0, (let q : Nat := 0; let s : State := node; ({ s with tim := { s.tim with stHoldSince := some q } })), by decide⟩,
   ⟨(let s : State := node; ({ s with tim := { s.tim with stHoldSince := none } })), by decide⟩,
   ⟨(let s : State := apex; (wr O.TIM_VT_SYNTONISE 0 s)), by decide⟩,
   ⟨(let s : State := apex; (wr O.TIM_ST_STATE (2 + 1) s)), by decide⟩,
   ⟨(let s : State := apex; (wr O.TIM_VT_ROLE (1 + 1) s)), by decide⟩,
   ⟨(let s : State := apex; let s : State := (wr O.TIM_VT_SYNTONISE (0 + 1) s); let s : State := (wr O.TIM_ST_STATE 2 s); (wr O.TIM_VT_ROLE 1 s)), by decide⟩,
   ⟨node, by decide⟩,
   ⟨0, by decide⟩,
   ⟨(-(2 ^ 63) : Int), (let s : State := apex; let s : State := (wr O.SYS_RECOVERY 0 s); (wr O.TIM_ST_MODE 0 s)), by decide⟩,
   ⟨(-(2 ^ 63) : Int), (let s : State := apex; let s : State := (wr O.SYS_RECOVERY 0 s); (wr O.TIM_ST_MODE (0 + 1) s)), by decide⟩,
   ⟨((-(2 ^ 63) - 1) : Int), by decide⟩,
   ⟨(2 ^ 63 : Int), by decide⟩,
   ⟨2683817689, (let s : State := apex; let s : State := (wr O.SYS_RECOVERY 0 s); (wr O.TIM_ST_MODE 0 s)), by decide⟩,
   ⟨2683817689, (let s : State := apex; let s : State := (wr O.SYS_RECOVERY 0 s); (wr O.TIM_ST_MODE (0 + 1) s)), by decide⟩,
   ⟨0, (let s : State := apex; let s : State := (wr O.SYS_RECOVERY 0 s); (wr O.TIM_ST_MODE 0 s)), by decide⟩,
   ⟨((2684891431 + 1) : Nat), (let s : State := apex; let s : State := (wr O.SYS_RECOVERY 0 s); (wr O.TIM_ST_MODE 0 s)), by decide⟩⟩

/-- Obligations.SideStatesAndClaims: the hypotheses of its clauses can be met. -/
theorem witness_SideStatesAndClaims :
    (∃ (s : State), isNode s = false) ∧
    (∃ (s : State), isNode s = true ∧ rd O.SYS_RECOVERY s = 0 ∧ rd O.RED_STATE s ≠ 3) ∧
    (∃ (s : State), isNode s = true ∧ rd O.SYS_RECOVERY s = 0 ∧ rd O.RED_STATE s ≠ 4) ∧
    (∃ (s : State), isNode s = true ∧ rd O.SYS_RECOVERY s = 0 ∧ rd O.RED_STATE s ≠ 1) ∧
    (∃ (s : State), isNode s = true ∧ rd O.SYS_RECOVERY s = 0 ∧ rd O.RED_STATE s = 3 ∧ rd O.RED_INSTEP_PERIODS s ≤ rd O.RED_INSTEP_RUN s) ∧
    (∃ (s : State), isNode s = true ∧ rd O.SYS_RECOVERY s = 0 ∧ rd O.RED_STATE s = 3 ∧ rd O.RED_INSTEP_RUN s < rd O.RED_INSTEP_PERIODS s) ∧
    (∃ (s : State), isNode s = true ∧ rd O.SYS_RECOVERY s = 0 ∧ rd O.RED_STATE s = 4 ∧ rd O.LAW_STATE s ≠ 4 ∧ servesAny s = false) ∧
    (∃ (s : State), isNode s = true ∧ rd O.SYS_RECOVERY s = 0 ∧ rd O.RED_STATE s = 4 ∧ rd O.LAW_STATE s = 4) ∧
    (∃ (s : State), isNode s = true ∧ rd O.SYS_RECOVERY s = 0 ∧ rd O.RED_STATE s = 4 ∧ servesAny s = true) ∧
    (∃ (s : State), isNode s = true ∧ rd O.SYS_RECOVERY s = 0 ∧ rd O.RED_STATE s = 1) ∧
    (∃ (p : Nat × Nat) (s : State) (b : Nat), b = min (redLimit (rd O.RED_STATE s)) (parentBase s) ∧ s.red.basePend = some p ∧ b = p.1) ∧
    (∃ (p : Nat × Nat) (s : State) (b : Nat), b = min (redLimit (rd O.RED_STATE s)) (parentBase s) ∧ s.red.basePend = some p ∧ b ≠ p.1) ∧
    (∃ (s : State) (b : Nat), b = min (redLimit (rd O.RED_STATE s)) (parentBase s) ∧ s.red.basePend = none ∧ b = s.red.base) ∧
    (∃ (s : State) (b : Nat), b = min (redLimit (rd O.RED_STATE s)) (parentBase s) ∧ s.red.basePend = none ∧ b ≠ s.red.base) ∧
    (∃ (s : State), isApex s = false ∧ s.red.noticeLost = false) ∧
    (∃ (s : State), isNode s = true ∧ isApex s = true) ∧
    (∃ (s : State) (src : Nat), isNode s = true ∧ src ≠ s.tree.parent) ∧
    (∃ (side : Bool) (s : State), isNode s = true ∧ side ≠ sideB s) ∧
    (∃ (s : State) (src : Nat), isNode s = true ∧ isApex s = false ∧ src = s.tree.parent ∧ rd O.SYS_RECOVERY s ≠ 0) ∧
    (∃ (claim : Nat) (s : State) (src : Nat), isNode s = true ∧ isApex s = false ∧ src = s.tree.parent ∧ rd O.SYS_RECOVERY s = 0 ∧ claimOk claim = false) ∧
    (∃ (claim : Nat) (s : State) (src : Nat), isNode s = true ∧ isApex s = false ∧ src = s.tree.parent ∧ rd O.SYS_RECOVERY s = 0 ∧ 65536 ≤ claim) ∧
    (∃ (kx : Nat) (s : State) (src : Nat), isNode s = true ∧ isApex s = false ∧ src = s.tree.parent ∧ rd O.SYS_RECOVERY s = 0 ∧ 2 ^ 64 ≤ kx) ∧
    (∃ (claim : Nat) (kx : Nat) (s : State) (src : Nat), isNode s = true ∧ isApex s = false ∧ src = s.tree.parent ∧ rd O.SYS_RECOVERY s = 0 ∧ claim < 65536 ∧ claimOk claim = true ∧ kx < 2 ^ 64) ∧
    (∃ (x : Nat) (s : State), isNode s = true ∧ isApex s = false ∧ s.red.noticeAt = some x) ∧
    (∃ (s : State), s.red.noticeAt = none) ∧
    (∃ (p : Nat × Nat) (s : State), isNode s = true ∧ s.red.basePend = some p) ∧
    (∃ (s : State), isNode s = true ∧ s.red.basePend = none) ∧
    (∃ (x : Nat) (s : State), s.red.revertEnd = some x ∧ rd O.RED_STATE s = 3) ∧
    (∃ (s : State), s.red.revertEnd = none) :=
  ⟨⟨cell, by decide⟩,
   ⟨(let s : State := node; let s : State := (wr O.SYS_RECOVERY 0 s); (wr O.RED_STATE (3 + 1) s)), by decide⟩,
   ⟨(let s : State := node; let s : State := (wr O.SYS_RECOVERY 0 s); (wr O.RED_STATE (4 + 1) s)), by decide⟩,
   ⟨(let s : State := node; let s : State := (wr O.SYS_RECOVERY 0 s); (wr O.RED_STATE (1 + 1) s)), by decide⟩,
   ⟨(let s : State := node; let s : State := (wr O.SYS_RECOVERY 0 s); let s : State := (wr O.RED_STATE 3 s); (wr O.RED_INSTEP_RUN (rd O.RED_INSTEP_PERIODS s) s)), by decide⟩,
   ⟨(let s : State := node; let s : State := (wr O.SYS_RECOVERY 0 s); let s : State := (wr O.RED_STATE 3 s); (wr O.RED_INSTEP_PERIODS (rd O.RED_INSTEP_RUN s + 1) s)), by decide⟩,
   ⟨(let s : State := node; let s : State := (wr O.SYS_RECOVERY 0 s); let s : State := (wr O.RED_STATE 4 s); (wr O.LAW_STATE (4 + 1) s)), by decide⟩,
   ⟨(let s : State := node; let s : State := (wr O.SYS_RECOVERY 0 s); let s : State := (wr O.RED_STATE 4 s); (wr O.LAW_STATE 4 s)), by decide⟩,
   ⟨(let s : State := node; let s : State := (wr O.SYS_RECOVERY 0 s); let s : State := (wr O.RED_STATE 4 s); deb (wr (O.BAL_LINK_ARM 0) 0 (wr (O.BAL_ARM_ID 0) 0 { s with tree := { s.tree with pistes := [(0, 3)] } }))), by decide⟩,
   ⟨(let s : State := node; let s : State := (wr O.SYS_RECOVERY 0 s); (wr O.RED_STATE 1 s)), by decide⟩,
   ⟨((min (redLimit (rd O.RED_STATE apex)) (parentBase apex), 9) : Nat × Nat), (let p : Nat × Nat := (min (redLimit (rd O.RED_STATE apex)) (parentBase apex), 9); let s : State := apex; let s : State := ({ s with red := { s.red with basePend := some p } }); { s with red := { s.red with basePend := some p } }), (let p : Nat × Nat := (min (redLimit (rd O.RED_STATE apex)) (parentBase apex), 9); let s : State := apex; let s : State := ({ s with red := { s.red with basePend := some p } }); let s : State := { s with red := { s.red with basePend := some p } }; min (redLimit (rd O.RED_STATE s)) (parentBase s)), by decide⟩,
   ⟨((1, 9) : Nat × Nat), (let p : Nat × Nat := (1, 9); let s : State := apex; let s : State := ({ s with red := { s.red with basePend := some p } }); { s with red := { s.red with basePend := some p } }), (let p : Nat × Nat := (1, 9); let s : State := apex; let s : State := ({ s with red := { s.red with basePend := some p } }); let s : State := { s with red := { s.red with basePend := some p } }; min (redLimit (rd O.RED_STATE s)) (parentBase s)), by decide⟩,
   ⟨(let s : State := node; ({ s with red := { s.red with basePend := none } })), (let s : State := node; let s : State := ({ s with red := { s.red with basePend := none } }); min (redLimit (rd O.RED_STATE s)) (parentBase s)), by decide⟩,
   ⟨(let s : State := apex; let s : State := ({ s with red := { s.red with basePend := none } }); { s with red := { s.red with base := 1, basePend := none } }), (let s : State := apex; let s : State := ({ s with red := { s.red with basePend := none } }); let s : State := { s with red := { s.red with base := 1, basePend := none } }; min (redLimit (rd O.RED_STATE s)) (parentBase s)), by decide⟩,
   ⟨(let s : State := node; ({ s with red := { s.red with noticeLost := false } })), by decide⟩,
   ⟨apex, by decide⟩,
   ⟨node, (let s : State := node; (s.tree.parent + 1)), by decide⟩,
   ⟨true, (let s : State := node; { s with straps := { s.straps with sideB := false }, tree := { s.tree with parent := 0 } }), by decide⟩,
   ⟨(let s : State := node; (wr O.SYS_RECOVERY (0 + 1) s)), (let s : State := node; let s : State := (wr O.SYS_RECOVERY (0 + 1) s); s.tree.parent), by decide⟩,
   ⟨0x1000, (let s : State := node; (wr O.SYS_RECOVERY 0 s)), (let s : State := node; let s : State := (wr O.SYS_RECOVERY 0 s); s.tree.parent), by decide⟩,
   ⟨65536, (let s : State := node; (wr O.SYS_RECOVERY 0 s)), (let s : State := node; let s : State := (wr O.SYS_RECOVERY 0 s); s.tree.parent), by decide⟩,
   ⟨(2 ^ 64 : Nat), (let s : State := node; (wr O.SYS_RECOVERY 0 s)), (let s : State := node; let s : State := (wr O.SYS_RECOVERY 0 s); s.tree.parent), by decide⟩,
   ⟨0, 0, (let s : State := node; (wr O.SYS_RECOVERY 0 s)), (let s : State := node; let s : State := (wr O.SYS_RECOVERY 0 s); s.tree.parent), by decide⟩,
   ⟨0, (let x : Nat := 0; let s : State := node; ({ s with red := { s.red with noticeAt := some x } })), by decide⟩,
   ⟨(let s : State := node; ({ s with red := { s.red with noticeAt := none } })), by decide⟩,
   ⟨((4, 9) : Nat × Nat), (let p : Nat × Nat := (4, 9); let s : State := node; ({ s with red := { s.red with basePend := some p } })), by decide⟩,
   ⟨(let s : State := node; ({ s with red := { s.red with basePend := none } })), by decide⟩,
   ⟨0, (let x : Nat := 0; let s : State := node; let s : State := ({ s with red := { s.red with revertEnd := some x } }); (wr O.RED_STATE 3 s)), by decide⟩,
   ⟨(let s : State := node; ({ s with red := { s.red with revertEnd := none } })), by decide⟩⟩

/-- Obligations.DigestsInputsAndCaddy: the hypotheses of its clauses can be met. -/
theorem witness_DigestsInputsAndCaddy :
    (∃ (w : PeriodWork) (s : State), isNode s = true ∧ isDuplex s = true ∧ digestDue s = some w) ∧
    (∃ (s : State), s.red.check = none ∧ s.red.lastCheck = none) ∧
    (∃ (s : State), digestDue s = none) ∧
    (∃ (b : List Nat), b ≠ []) ∧
    (∃ (d : Digest) (s : State) (k : Nat), isNode s = true ∧ isDuplex s = true ∧ k = periodOf32 d.period s) ∧
    (∃ (s : State), isNode s = true ∧ isDuplex s = false) ∧
    (∃ (p : DigestPair) (s : State), isNode s = true ∧ isDuplex s = true ∧ (s.red.pairs.reverse.find? fun x => !x.done && x.own.isSome && x.peer.isNone) = some p) ∧
    (∃ (s : State), (s.red.pairs.reverse.find? fun x => !x.done && x.own.isSome && x.peer.isNone) = none) ∧
    (∃ (p : DigestPair) (a : Digest) (b : Digest) (s : State), pair? p.k s = some p ∧ p.own = some a ∧ p.peer = some b ∧ p.done = false ∧ a.abandoned = true) ∧
    (∃ (p : DigestPair) (a : Digest) (b : Digest) (s : State), pair? p.k s = some p ∧ p.own = some a ∧ p.peer = some b ∧ p.done = false ∧ b.abandoned = true) ∧
    (∃ (p : DigestPair) (a : Digest) (b : Digest) (s : State), pair? p.k s = some p ∧ p.own = some a ∧ p.peer = some b ∧ p.done = false ∧ a.ownInputs = true) ∧
    (∃ (p : DigestPair) (a : Digest) (b : Digest) (s : State), pair? p.k s = some p ∧ p.own = some a ∧ p.peer = some b ∧ p.done = false ∧ b.ownInputs = true) ∧
    (∃ (p : DigestPair) (a : Digest) (b : Digest) (s : State), pair? p.k s = some p ∧ p.own = some a ∧ p.peer = some b ∧ p.done = false ∧ a.abandoned = false ∧ b.abandoned = false ∧ a.ownInputs = false ∧ b.ownInputs = false ∧ a.dRefIn ≠ b.dRefIn) ∧
    (∃ (p : DigestPair) (a : Digest) (b : Digest) (s : State), pair? p.k s = some p ∧ p.own = some a ∧ p.peer = some b ∧ p.done = false ∧ a.abandoned = false ∧ b.abandoned = false ∧ a.ownInputs = false ∧ b.ownInputs = false ∧ a.dRefIn = b.dRefIn ∧ a.dOut = b.dOut ∧ a.dLaw = b.dLaw ∧ a.inDisc = false ∧ b.inDisc = false ∧ a.dSum ≠ b.dSum) ∧
    (∃ (p : DigestPair) (a : Digest) (b : Digest) (s : State), pair? p.k s = some p ∧ p.own = some a ∧ p.peer = some b ∧ p.done = false ∧ a.abandoned = false ∧ b.abandoned = false ∧ a.ownInputs = false ∧ b.ownInputs = false ∧ a.dRefIn = b.dRefIn ∧ a.dOut ≠ b.dOut ∧ rd O.RED_STATE s ≠ 1) ∧
    (∃ (p : DigestPair) (a : Digest) (b : Digest) (s : State), pair? p.k s = some p ∧ p.own = some a ∧ p.peer = some b ∧ p.done = false ∧ a.abandoned = false ∧ b.abandoned = false ∧ a.ownInputs = false ∧ b.ownInputs = false ∧ a.dRefIn = b.dRefIn ∧ a.dLaw ≠ b.dLaw ∧ rd O.RED_STATE s ≠ 1) ∧
    (∃ (p : DigestPair) (a : Digest) (b : Digest) (s : State), pair? p.k s = some p ∧ p.own = some a ∧ p.peer = some b ∧ p.done = false ∧ a.abandoned = false ∧ b.abandoned = false ∧ a.ownInputs = false ∧ b.ownInputs = false ∧ a.dRefIn = b.dRefIn ∧ a.inDisc = true ∧ rd O.RED_STATE s ≠ 1) ∧
    (∃ (p : DigestPair) (a : Digest) (b : Digest) (s : State), pair? p.k s = some p ∧ p.own = some a ∧ p.peer = some b ∧ p.done = false ∧ a.abandoned = false ∧ b.abandoned = false ∧ a.ownInputs = false ∧ b.ownInputs = false ∧ a.dRefIn = b.dRefIn ∧ b.inDisc = true ∧ rd O.RED_STATE s ≠ 1) ∧
    (∃ (c : CheckSt) (s : State), s.red.check = some c ∧ rd O.RED_CHECK_STATE s = 1 ∧ s.red.peerVerdict = none) ∧
    (∃ (c : CheckSt) (s : State), s.red.check = some c ∧ s.red.peerVerdict ≠ none) ∧
    (∃ (s : State), rd O.RED_STATE s = 1) ∧
    (∃ (m : Nat) (n : Nat), n < m) ∧
    (∃ (m : Nat) (n : Nat), m < n) ∧
    (∃ (w : LawWait) (s : State), s.law.waits.getLast? = some w ∧ hasGraph s = true ∧ isDuplex s = true ∧ w.role = 1) ∧
    (∃ (w : LawWait) (n : Nat) (f : Inputs), f ∈ inputFrames w n) ∧
    (∃ (s : State), s.law.waits = []) ∧
    (∃ (s : State), hasGraph s = false) ∧
    (∃ (s : State), (∃ w, s.law.waits.getLast? = some w ∧ w.role ≠ 1)) ∧
    (∃ (k : Nat) (img : List Nat) (s : State), isNode s = true ∧ isDuplex s = true ∧ caddySends s = true ∧ caddyBusy s = false ∧ imageDue s = some (k, img) ∧ roleFor k s = 1) ∧
    (∃ (k : Nat) (img : List Nat) (p : CaddyPart), p ∈ caddyParts k img) ∧
    (∃ (s : State), caddySends s = false) ∧
    (∃ (s : State), caddyBusy s = true) ∧
    (∃ (s : State), imageDue s = none) ∧
    (∃ (s : State), (∃ k img, imageDue s = some (k, img) ∧ roleFor k s ≠ 1)) ∧
    (∃ (c : CaddyPart) (s : State) (k : Nat), k = periodOf32 c.period s ∧ isNode s = false) ∧
    (∃ (c : CaddyPart) (s : State) (k : Nat), k = periodOf32 c.period s ∧ isDuplex s = false) ∧
    (∃ (c : CaddyPart) (s : State) (k : Nat), k = periodOf32 c.period s ∧ roleFor k s ≠ 2) ∧
    (∃ (k : Nat) (c : CaddyPart) (s : State), k = periodOf32 c.period s ∧ s.red.lostK = some k) ∧
    (∃ (c : CaddyPart) (s : State) (k : Nat), k = periodOf32 c.period s ∧ k ≤ s.red.caddyK) ∧
    (∃ (k : Nat) (c : CaddyPart) (s : State), isNode s = true ∧ isDuplex s = true ∧ k = periodOf32 c.period s ∧ roleFor k s = 2 ∧ s.red.lostK ≠ some k ∧ s.red.caddyK < k) ∧
    (∃ (c : CaddyPart) (s : State), rd O.RED_CADDY_SIZE s < c.first + c.bytes.length) ∧
    (∃ (c : CaddyPart) (s : State), (c.bytes.length < 512 ∧ c.first + c.bytes.length < rd O.RED_CADDY_SIZE s)) ∧
    (∃ (c : CaddyPart) (s : State), c.first = 0 ∧ c.bytes.length = rd O.RED_CADDY_SIZE s ∧ c.bytes ≠ [] ∧ c.bytes.length < 512 ∧ s.red.rx = none ∧ s.red.ready = none) ∧
    (∃ (n : Nat) (v : Nat) (s : State), isNode s = true ∧ rd O.SYS_RECOVERY s = 0 ∧ n < 32 ∧ v < 2 ^ 64 ∧ servesAny s = true) ∧
    (∃ (n : Nat) (v : Nat) (s : State), isNode s = true ∧ rd O.SYS_RECOVERY s = 0 ∧ n < 32 ∧ v < 2 ^ 64 ∧ servesAny s = false) ∧
    (∃ (n : Nat) (s : State), n < 32 ∧ isNode s = false) ∧
    (∃ (n : Nat) (s : State), n < 32 ∧ isNode s = true ∧ rd O.SYS_RECOVERY s ≠ 0) ∧
    (∃ (n : Nat), 32 ≤ n) ∧
    (∃ (s : State), isNode s = true ∧ isDuplex s = true ∧ rd O.TREE_ENUM_STATUS s = 2) ∧
    (∃ (s : State), rd O.TREE_ENUM_STATUS s ≠ 2) ∧
    (∃ (a : Wiring) (b : Wiring), a.node ≠ b.node) ∧
    (∃ (a : Wiring) (b : Wiring), a.level ≠ b.level) :=
  ⟨⟨wk0, (let s : State := node; let s : State := (wr O.RED_MODE 0 s); { s with bal := { s.bal with works := [wk0] } }), by decide⟩,
   ⟨(let s : State := node; let s : State := ({ s with red := { s.red with check := none } }); ({ s with red := { s.red with lastCheck := none } })), by decide⟩,
   ⟨node, by decide⟩,
   ⟨([1,2,3,255] : List Nat), by decide⟩,
   ⟨dDigest, (let s : State := node; (wr O.RED_MODE 0 s)), (let d : Digest := dDigest; let s : State := node; let s : State := (wr O.RED_MODE 0 s); periodOf32 d.period s), by decide⟩,
   ⟨(let s : State := node; let s : State := (wr O.RED_MODE 1 s); wr O.RED_MODE 1 s), by decide⟩,
   ⟨({ k := 5, own := some dDigest, peer := none, done := false } : DigestPair), (let p : DigestPair := { k := 5, own := some dDigest, peer := none, done := false }; let s : State := node; let s : State := (wr O.RED_MODE 0 s); let s : State := ({ s with red := { s.red with pairs := [p] } }); { s with red := { s.red with pairs := [{ k := 5, own := some dDigest, peer := none, done := false }] } }), by decide⟩,
   ⟨(let s : State := node; ({ s with red := { s.red with pairs := [] } })), by decide⟩,
   ⟨({ k := 7, own := (some { dDigest with abandoned := true }), peer := (some dDigest), done := false } : DigestPair), ({ dDigest with abandoned := true } : Digest), dDigest, (let p : DigestPair := { k := 7, own := (some { dDigest with abandoned := true }), peer := (some dDigest), done := false }; let s : State := node; { (wr O.RED_STATE 2 s) with red := { s.red with pairs := [p], check := none } }), by decide⟩,
   ⟨({ k := 7, own := (some dDigest), peer := (some { dDigest with abandoned := true }), done := false } : DigestPair), dDigest, ({ dDigest with abandoned := true } : Digest), (let p : DigestPair := { k := 7, own := (some dDigest), peer := (some { dDigest with abandoned := true }), done := false }; let s : State := node; { (wr O.RED_STATE 2 s) with red := { s.red with pairs := [p], check := none } }), by decide⟩,
   ⟨({ k := 7, own := (some { dDigest with ownInputs := true }), peer := (some dDigest), done := false } : DigestPair), ({ dDigest with ownInputs := true } : Digest), dDigest, (let p : DigestPair := { k := 7, own := (some { dDigest with ownInputs := true }), peer := (some dDigest), done := false }; let s : State := node; { (wr O.RED_STATE 2 s) with red := { s.red with pairs := [p], check := none } }), by decide⟩,
   ⟨({ k := 7, own := (some dDigest), peer := (some { dDigest with ownInputs := true }), done := false } : DigestPair), dDigest, ({ dDigest with ownInputs := true } : Digest), (let p : DigestPair := { k := 7, own := (some dDigest), peer := (some { dDigest with ownInputs := true }), done := false }; let s : State := node; { (wr O.RED_STATE 2 s) with red := { s.red with pairs := [p], check := none } }), by decide⟩,
   ⟨({ k := 7, own := (some { dDigest with dRefIn := 1 }), peer := (some dDigest), done := false } : DigestPair), ({ dDigest with dRefIn := 1 } : Digest), dDigest, (let p : DigestPair := { k := 7, own := (some { dDigest with dRefIn := 1 }), peer := (some dDigest), done := false }; let s : State := node; { (wr O.RED_STATE 2 s) with red := { s.red with pairs := [p], check := none } }), by decide⟩,
   ⟨({ k := 7, own := (some { dDigest with dSum := 1 }), peer := (some dDigest), done := false } : DigestPair), ({ dDigest with dSum := 1 } : Digest), dDigest, (let p : DigestPair := { k := 7, own := (some { dDigest with dSum := 1 }), peer := (some dDigest), done := false }; let s : State := node; { (wr O.RED_STATE 2 s) with red := { s.red with pairs := [p], check := none } }), by decide⟩,
   ⟨({ k := 7, own := (some { dDigest with dOut := 1 }), peer := (some dDigest), done := false } : DigestPair), ({ dDigest with dOut := 1 } : Digest), dDigest, (let p : DigestPair := { k := 7, own := (some { dDigest with dOut := 1 }), peer := (some dDigest), done := false }; let s : State := node; let s : State := (wr O.RED_STATE (1 + 1) s); { (wr O.RED_STATE 2 s) with red := { s.red with pairs := [p], check := none } }), by decide⟩,
   ⟨({ k := 7, own := (some { dDigest with dLaw := 1 }), peer := (some dDigest), done := false } : DigestPair), ({ dDigest with dLaw := 1 } : Digest), dDigest, (let p : DigestPair := { k := 7, own := (some { dDigest with dLaw := 1 }), peer := (some dDigest), done := false }; let s : State := node; let s : State := (wr O.RED_STATE (1 + 1) s); { (wr O.RED_STATE 2 s) with red := { s.red with pairs := [p], check := none } }), by decide⟩,
   ⟨({ k := 7, own := (some { dDigest with inDisc := true }), peer := (some dDigest), done := false } : DigestPair), ({ dDigest with inDisc := true } : Digest), dDigest, (let p : DigestPair := { k := 7, own := (some { dDigest with inDisc := true }), peer := (some dDigest), done := false }; let s : State := node; let s : State := (wr O.RED_STATE (1 + 1) s); { (wr O.RED_STATE 2 s) with red := { s.red with pairs := [p], check := none } }), by decide⟩,
   ⟨({ k := 7, own := (some dDigest), peer := (some { dDigest with inDisc := true }), done := false } : DigestPair), dDigest, ({ dDigest with inDisc := true } : Digest), (let p : DigestPair := { k := 7, own := (some dDigest), peer := (some { dDigest with inDisc := true }), done := false }; let s : State := node; let s : State := (wr O.RED_STATE (1 + 1) s); { (wr O.RED_STATE 2 s) with red := { s.red with pairs := [p], check := none } }), by decide⟩,
   ⟨dCheckSt, (let c : CheckSt := dCheckSt; let s : State := node; let s : State := ({ s with red := { s.red with check := some c } }); let s : State := (wr O.RED_CHECK_STATE 1 s); ({ s with red := { s.red with peerVerdict := none } })), by decide⟩,
   ⟨dCheckSt, (let c : CheckSt := dCheckSt; let s : State := node; let s : State := ({ s with red := { s.red with check := some c } }); ({ s with red := { s.red with peerVerdict := some default } })), by decide⟩,
   ⟨(let s : State := node; (wr O.RED_STATE 1 s)), by decide⟩,
   ⟨1, 0, by decide⟩,
   ⟨0, (let m : Nat := 0; (m + 1)), by decide⟩,
   ⟨(let w : LawWait := dLawWait; ({ w with role := 1 })), (let w : LawWait := dLawWait; let w : LawWait := ({ w with role := 1 }); let s : State := node; let s : State := ({ s with law := { s.law with waits := [w] } }); let s : State := (wr O.LAW_LOAD_STATUS 1 s); (wr O.RED_MODE 0 s)), by decide⟩,
   ⟨({ k := 5, adc := [(0,3)], held := false, role := 1 } : LawWait), 129, (let w : LawWait := { k := 5, adc := [(0,3)], held := false, role := 1 }; let n : Nat := 129; ((inputFrames w n).getLastD { period := 0, first := 0, words := [] })), by decide⟩,
   ⟨(let s : State := node; ({ s with law := { s.law with waits := [] } })), by decide⟩,
   ⟨(let s : State := node; (wr O.LAW_LOAD_STATUS 0 s)), by decide⟩,
   ⟨(let s : State := node; { (wr O.RED_MODE 0 s) with law := { s.law with waits := [{ dLawWait with role := 2 }] } }), by decide⟩,
   ⟨5, ((List.replicate 600 1) : List Nat), (let k : Nat := 5; let s : State := node; let s : State := (wr O.RED_MODE 0 s); let s : State := (wr O.RED_CADDY_STATUS 0 s); wr O.RED_CADDY_STATUS 0 (wr O.RED_PEER_CLAIM 0 { s with red := { s.red with sentK := 0, images := [(5, List.replicate 600 1)], pairs := [{ k := 5, own := some dDigest, peer := none, done := false }] } })), by decide⟩,
   ⟨5, ((List.replicate 600 1) : List Nat), (let k : Nat := 5; let img : List Nat := (List.replicate 600 1); ((caddyParts k img).getLastD dCaddyPart)), by decide⟩,
   ⟨(let s : State := node; (wr O.RED_CADDY_STATUS 1 s)), by decide⟩,
   ⟨(let s : State := node; updLane laneP0 (fun y => { y with q := [{ cls := 3, len := 30, reserve := false, body := .own { hdr := { dHdr with cls := 7, typ := 2 }, len := 30, pay := .caddy dCaddyPart } false, ahead := false, born := 0 }] }) s), by decide⟩,
   ⟨node, by decide⟩,
   ⟨(let s : State := node; wr O.RED_PEER_CLAIM 0xFFFFFFFF { s with straps := { s.straps with sideB := true }, red := { s.red with sentK := 0, peerPend := none, images := [(5, [1])], pairs := [{ k := 5, own := some dDigest, peer := none, done := false }] } }), 5, [1], by decide, by decide⟩,
   ⟨dCaddyPart, cell, (let c : CaddyPart := dCaddyPart; let s : State := cell; periodOf32 c.period s), by decide⟩,
   ⟨dCaddyPart, (let s : State := node; (wr O.RED_MODE 1 s)), (let c : CaddyPart := dCaddyPart; let s : State := node; let s : State := (wr O.RED_MODE 1 s); periodOf32 c.period s), by decide⟩,
   ⟨dCaddyPart, node, (let c : CaddyPart := dCaddyPart; let s : State := node; periodOf32 c.period s), by decide⟩,
   ⟨((periodOf32 5 node) : Nat), ({ dCaddyPart with period := 5 } : CaddyPart), (let k : Nat := (periodOf32 5 node); let s : State := node; let s : State := ({ s with red := { s.red with lostK := some k } }); { s with red := { s.red with lostK := some (periodOf32 5 s) } }), by decide⟩,
   ⟨dCaddyPart, node, (let c : CaddyPart := dCaddyPart; let s : State := node; periodOf32 c.period s), by decide⟩,
   ⟨((periodOf32 5 node) : Nat), ({ dCaddyPart with period := 5 } : CaddyPart), (let s : State := node; let s : State := (wr O.RED_MODE 0 s); wr O.RED_PEER_CLAIM 0xFFFFFFFF { s with straps := { s.straps with sideB := true }, red := { s.red with peerPend := none, caddyK := 0, lostK := none } }), by decide⟩,
   ⟨({ dCaddyPart with period := 5, first := 1, bytes := [1,2] } : CaddyPart), (let c : CaddyPart := { dCaddyPart with period := 5, first := 1, bytes := [1,2] }; let s : State := node; let s : State := (wr O.RED_CADDY_SIZE (c.first + c.bytes.length - 1) s); wr O.RED_CADDY_SIZE 2 s), by decide⟩,
   ⟨({ dCaddyPart with period := 5, first := 0, bytes := [1,2] } : CaddyPart), (let c : CaddyPart := { dCaddyPart with period := 5, first := 0, bytes := [1,2] }; let s : State := node; let s : State := (wr O.RED_CADDY_SIZE (c.first + c.bytes.length + 1) s); wr O.RED_CADDY_SIZE 3 s), by decide⟩,
   ⟨({ period := 7, first := 0, bytes := [1,2,3,4] } : CaddyPart), (let s : State := node; let s : State := ({ s with red := { s.red with rx := none } }); let s : State := ({ s with red := { s.red with ready := none } }); (wr O.RED_CADDY_SIZE 4 (wr O.TIM_PERIOD_NUMBER 6 (wr O.RED_PEER_CLAIM 0xFFFF (wr O.RED_MODE 0 { s with red := { s.red with lostK := none, rx := none, ready := none, caddyK := 0 } }))))), by decide⟩,
   ⟨0, 0, (let s : State := node; let s : State := (wr O.SYS_RECOVERY 0 s); deb (wr (O.BAL_ARM_ID 0) 0 (wr (O.BAL_LINK_ARM 0) 0 { s with tree := { s.tree with pistes := [(0,3)] } }))), by decide⟩,
   ⟨0, 0, (let s : State := node; (wr O.SYS_RECOVERY 0 s)), by decide⟩,
   ⟨0, cell, by decide⟩,
   ⟨0, (let s : State := node; (wr O.SYS_RECOVERY (0 + 1) s)), by decide⟩,
   ⟨32, by decide⟩,
   ⟨(let s : State := node; let s : State := (wr O.RED_MODE 0 s); (wr O.TREE_ENUM_STATUS 2 s)), by decide⟩,
   ⟨(let s : State := node; (wr O.TREE_ENUM_STATUS (2 + 1) s)), by decide⟩,
   ⟨({ dWiring with node := 1 } : Wiring), dWiring, by decide⟩,
   ⟨({ dWiring with level := 1 } : Wiring), dWiring, by decide⟩⟩

/-- Obligations.ConversionsAndSequencers: the hypotheses of its clauses can be met. -/
theorem witness_ConversionsAndSequencers :
    (∃ (phys : Nat) (code : Int), phys < 8 ∧ -32767 ≤ code ∧ code ≤ 32767) ∧
    (∃ (l : Nat) (p : Nat) (s : State), slicePhys l s = some p) ∧
    (∃ (l : Nat) (c : AdcConv) (s : State), s.adc.convs.find? (fun c => c.slice == l) = some c) ∧
    (∃ (l : Nat) (s : State), s.adc.convs.find? (fun c => c.slice == l) = none) ∧
    (∃ (p : Nat) (s : State), nextSample p s = none) ∧
    (∃ (w : Nat), bit w 16 = true) ∧
    (∃ (w : Nat), bit w 16 = false) ∧
    (∃ (run : Nat) (phys : Nat) (clip : Bool) (opn : Bool) (set_ : Bool) (code : Int) (w : Nat), w = resultWord run phys clip opn set_ code) ∧
    (∃ (s : State), adcReady s = false) ∧
    (∃ (s : State), hasGrid s = false) ∧
    (∃ (s : State), holdLayout s = []) ∧
    (∃ (s : State), adcReady s = true ∧ hasGrid s = true ∧ holdLayout s ≠ []) ∧
    (∃ (r : AdcRound) (rest : List AdcRound) (s : State), s.adc.rounds = r :: rest) ∧
    (∃ (s : State), s.adc.rounds = []) ∧
    (∃ (v : Nat) (s : State), rd O.SYS_RECOVERY s = 0 ∧ v < 20) ∧
    (∃ (v : Nat) (s : State), rd O.SYS_RECOVERY s = 0 ∧ 20 ≤ v) ∧
    (∃ (u : State), adcReady u = false) ∧
    (∃ (s : State) (u : State), idleSlice (adcEdge (halfNow s) s) u = none) ∧
    (∃ (s : State) (l : Nat) (u : State), adcReady u = true ∧ idleSlice (adcEdge (halfNow s) s) u = some l) ∧
    (∃ (q : Nat) (s : State), runOver q s = false) ∧
    (∃ (q : Nat) (s : State), runOver q s = true) ∧
    (∃ (q : Nat) (r : AdcRun) (s : State), q < 4 ∧ s.adc.seqs.length = 4 ∧ (seqSt q s).run = some r) ∧
    (∃ (q : Nat) (s : State), seqTrig q s ≠ 2) ∧
    (∃ (q : Nat) (s : State) (t : Nat), seqTrig q s = 2 ∧ t = (vtTicks s / max 1 (rd (O.ADC_SEQ_TIMER q) s) + 1) * max 1 (rd (O.ADC_SEQ_TIMER q) s)) ∧
    (∃ (q : Nat) (s : State), q < 4 ∧ s.adc.seqs.length = 4 ∧ adcReady s = true ∧ (seqSt q s).run.isSome = true ∧ (seqSt q s).pend = true) ∧
    (∃ (q : Nat) (s : State), q < 4 ∧ s.adc.seqs.length = 4 ∧ adcReady s = true ∧ (seqSt q s).run.isSome = true ∧ (seqSt q s).pend = false) ∧
    (∃ (q : Nat) (s : State), adcReady s = true ∧ (seqSt q s).run = none) ∧
    (∃ (q : Nat) (s : State), rd O.SYS_RECOVERY s = 0 ∧ q < 4 ∧ isNode s = true ∧ seqTrig q s = 3) ∧
    (∃ (q : Nat) (s : State), rd O.SYS_RECOVERY s = 0 ∧ q < 4 ∧ 2 ≤ q ∧ seqTrig q s = 3) ∧
    (∃ (q : Nat) (s : State), rd O.SYS_RECOVERY s = 0 ∧ q < 4 ∧ isNode s = true ∧ seqTrig q s ≠ 3) ∧
    (∃ (q : Nat) (s : State), rd O.SYS_RECOVERY s = 0 ∧ q < 4 ∧ 2 ≤ q ∧ seqTrig q s ≠ 3) ∧
    (∃ (q : Nat) (r : AdcRun) (s : State), q < 4 ∧ (seqSt q s).run = some r ∧ (∀ e ∈ r.todo, e < 64) ∧ r.num < 256) ∧
    (∃ (q : Nat) (s : State), q < 2 ∧ isCell s = true) ∧
    (∃ (q : Nat), 4 ≤ q) ∧
    (∃ (q : Nat) (s : State), q < 4 ∧ rd O.SYS_RECOVERY s ≠ 0) ∧
    (∃ (q : Nat) (s : State), q < 4 ∧ isNode s = true ∧ rd O.LAW_STATE s ≠ 0 ∧ lawBinds q s = true) ∧
    (∃ (q : Nat) (v : Nat) (s : State), rd O.SYS_RECOVERY s = 0 ∧ q < 4 ∧ isNode s = true ∧ rd O.LAW_STATE s = 0 ∧ 5 < v) ∧
    (∃ (q : Nat) (v : Nat) (s : State), rd O.SYS_RECOVERY s = 0 ∧ q < 4 ∧ isNode s = true ∧ rd O.LAW_STATE s = 0 ∧ (v = 5 ∧ q = 0)) ∧
    (∃ (q : Nat) (v : Nat) (s : State), rd O.SYS_RECOVERY s = 0 ∧ q < 4 ∧ isNode s = true ∧ rd O.LAW_STATE s = 0 ∧ (2 ≤ v ∧ v ≤ 5 ∧ (List.range (rd (O.ADC_SEQ_LEN q) s)).any (fun e => entHeld (seqEntry q e s)) = true)) ∧
    (∃ (q : Nat) (v : Nat) (s : State), rd O.SYS_RECOVERY s = 0 ∧ q < 4 ∧ isNode s = true ∧ lawBinds q s = false ∧ 5 < v) ∧
    (∃ (q : Nat) (v : Nat) (s : State), rd O.SYS_RECOVERY s = 0 ∧ q < 4 ∧ isNode s = true ∧ lawBinds q s = false ∧ (v = 5 ∧ q = 0)) ∧
    (∃ (q : Nat) (v : Nat) (s : State), rd O.SYS_RECOVERY s = 0 ∧ q < 4 ∧ isNode s = true ∧ lawBinds q s = false ∧ (2 ≤ v ∧ v ≤ 5 ∧ (List.range (rd (O.ADC_SEQ_LEN q) s)).any (fun e => entHeld (seqEntry q e s)) = true)) ∧
    (∃ (q : Nat) (v : Nat) (s : State), rd O.SYS_RECOVERY s = 0 ∧ q < 4 ∧ 2 ≤ q ∧ isNode s = false ∧ 5 < v) ∧
    (∃ (q : Nat) (v : Nat) (s : State), rd O.SYS_RECOVERY s = 0 ∧ q < 4 ∧ 2 ≤ q ∧ rd O.LAW_STATE s = 0 ∧ 5 < v) ∧
    (∃ (q : Nat) (v : Nat) (s : State), rd O.SYS_RECOVERY s = 0 ∧ q < 4 ∧ 2 ≤ q ∧ rd O.LAW_STATE s = 0 ∧ (2 ≤ v ∧ v ≤ 5 ∧ (List.range (rd (O.ADC_SEQ_LEN q) s)).any (fun e => entHeld (seqEntry q e s)) = true)) ∧
    (∃ (q : Nat) (v : Nat) (s : State), rd O.SYS_RECOVERY s = 0 ∧ q < 4 ∧ 2 ≤ q ∧ lawBinds q s = false ∧ 5 < v) ∧
    (∃ (q : Nat) (v : Nat) (s : State), rd O.SYS_RECOVERY s = 0 ∧ q < 4 ∧ 2 ≤ q ∧ lawBinds q s = false ∧ (2 ≤ v ∧ v ≤ 5 ∧ (List.range (rd (O.ADC_SEQ_LEN q) s)).any (fun e => entHeld (seqEntry q e s)) = true)) ∧
    (∃ (q : Nat) (v : Nat) (s : State), rd O.SYS_RECOVERY s = 0 ∧ q < 4 ∧ isNode s = true ∧ rd O.LAW_STATE s = 0 ∧ v ≤ 5 ∧ v ≠ 5 ∧ v < 2) ∧
    (∃ (q : Nat) (v : Nat) (s : State), rd O.SYS_RECOVERY s = 0 ∧ q < 4 ∧ isNode s = true ∧ rd O.LAW_STATE s = 0 ∧ v ≤ 5 ∧ q ≠ 0 ∧ v < 2) ∧
    (∃ (q : Nat) (v : Nat) (s : State), rd O.SYS_RECOVERY s = 0 ∧ q < 4 ∧ isNode s = true ∧ rd O.LAW_STATE s = 0 ∧ v ≤ 5 ∧ q ≠ 0 ∧ (List.range (rd (O.ADC_SEQ_LEN q) s)).any (fun e => entHeld (seqEntry q e s)) = false) ∧
    (∃ (q : Nat) (v : Nat) (s : State), rd O.SYS_RECOVERY s = 0 ∧ q < 4 ∧ isNode s = true ∧ lawBinds q s = false ∧ v ≤ 5 ∧ v ≠ 5 ∧ v < 2) ∧
    (∃ (q : Nat) (v : Nat) (s : State), rd O.SYS_RECOVERY s = 0 ∧ q < 4 ∧ isNode s = true ∧ lawBinds q s = false ∧ v ≤ 5 ∧ q ≠ 0 ∧ v < 2) ∧
    (∃ (q : Nat) (v : Nat) (s : State), rd O.SYS_RECOVERY s = 0 ∧ q < 4 ∧ isNode s = true ∧ lawBinds q s = false ∧ v ≤ 5 ∧ q ≠ 0 ∧ (List.range (rd (O.ADC_SEQ_LEN q) s)).any (fun e => entHeld (seqEntry q e s)) = false) ∧
    (∃ (q : Nat) (v : Nat) (s : State), rd O.SYS_RECOVERY s = 0 ∧ q < 4 ∧ 2 ≤ q ∧ isNode s = false ∧ v ≤ 5 ∧ v ≠ 5 ∧ v < 2) ∧
    (∃ (q : Nat) (v : Nat) (s : State), rd O.SYS_RECOVERY s = 0 ∧ q < 4 ∧ 2 ≤ q ∧ isNode s = false ∧ v ≤ 5 ∧ q ≠ 0 ∧ v < 2) ∧
    (∃ (q : Nat) (v : Nat) (s : State), rd O.SYS_RECOVERY s = 0 ∧ q < 4 ∧ 2 ≤ q ∧ isNode s = false ∧ v ≤ 5 ∧ q ≠ 0 ∧ (List.range (rd (O.ADC_SEQ_LEN q) s)).any (fun e => entHeld (seqEntry q e s)) = false) ∧
    (∃ (q : Nat) (v : Nat) (s : State), rd O.SYS_RECOVERY s = 0 ∧ q < 4 ∧ 2 ≤ q ∧ rd O.LAW_STATE s = 0 ∧ v ≤ 5 ∧ v ≠ 5 ∧ v < 2) ∧
    (∃ (q : Nat) (v : Nat) (s : State), rd O.SYS_RECOVERY s = 0 ∧ q < 4 ∧ 2 ≤ q ∧ rd O.LAW_STATE s = 0 ∧ v ≤ 5 ∧ q ≠ 0 ∧ v < 2) ∧
    (∃ (q : Nat) (v : Nat) (s : State), rd O.SYS_RECOVERY s = 0 ∧ q < 4 ∧ 2 ≤ q ∧ rd O.LAW_STATE s = 0 ∧ v ≤ 5 ∧ q ≠ 0 ∧ (List.range (rd (O.ADC_SEQ_LEN q) s)).any (fun e => entHeld (seqEntry q e s)) = false) ∧
    (∃ (q : Nat) (v : Nat) (s : State), rd O.SYS_RECOVERY s = 0 ∧ q < 4 ∧ 2 ≤ q ∧ lawBinds q s = false ∧ v ≤ 5 ∧ v ≠ 5 ∧ v < 2) ∧
    (∃ (q : Nat) (v : Nat) (s : State), rd O.SYS_RECOVERY s = 0 ∧ q < 4 ∧ 2 ≤ q ∧ lawBinds q s = false ∧ v ≤ 5 ∧ q ≠ 0 ∧ v < 2) ∧
    (∃ (q : Nat) (v : Nat) (s : State), rd O.SYS_RECOVERY s = 0 ∧ q < 4 ∧ 2 ≤ q ∧ lawBinds q s = false ∧ v ≤ 5 ∧ q ≠ 0 ∧ (List.range (rd (O.ADC_SEQ_LEN q) s)).any (fun e => entHeld (seqEntry q e s)) = false) ∧
    (∃ (p : Nat), 2 ≤ p) ∧
    (∃ (p : Nat) (s : State), p < 2 ∧ rd O.SYS_RECOVERY s ≠ 0) ∧
    (∃ (p : Nat) (v : Nat) (s : State), p < 2 ∧ rd O.SYS_RECOVERY s = 0 ∧ v ≠ 255 ∧ slicePhys (2 * p) s = none) ∧
    (∃ (p : Nat) (v : Nat) (s : State), p < 2 ∧ rd O.SYS_RECOVERY s = 0 ∧ v ≠ 255 ∧ slicePhys (2 * p + 1) s = none) ∧
    (∃ (p : Nat) (v : Nat) (s : State), p < 2 ∧ rd O.SYS_RECOVERY s = 0 ∧ v ≠ 255 ∧ (slicePhys (2 * p) s).isSome = true ∧ (slicePhys (2 * p + 1) s).isSome = true ∧ 16 ≤ v) ∧
    (∃ (p : Nat) (v : Nat) (s : State), p < 2 ∧ rd O.SYS_RECOVERY s = 0 ∧ v ≠ 255 ∧ (slicePhys (2 * p) s).isSome = true ∧ (slicePhys (2 * p + 1) s).isSome = true ∧ pairRefused p v s = true) ∧
    (∃ (p : Nat) (v : Nat) (s : State), p < 2 ∧ rd O.SYS_RECOVERY s = 0 ∧ v ≠ 255 ∧ (slicePhys (2 * p) s).isSome = true ∧ (slicePhys (2 * p + 1) s).isSome = true ∧ v < 16 ∧ pairRefused p v s = false) :=
  ⟨⟨0, (-32767 : Int), by decide⟩,
   ⟨0, 0, cell, by decide⟩,
   ⟨0, dAdcConv, (let c : AdcConv := dAdcConv; let s : State := node; ({ s with adc := { s.adc with convs := [c] } })), by decide⟩,
   ⟨0, (let s : State := node; ({ s with adc := { s.adc with convs := [] } })), by decide⟩,
   ⟨0, node, by decide⟩,
   ⟨65536, by decide⟩,
   ⟨0, by decide⟩,
   ⟨0, 0, false, false, false, 0, (let run : Nat := 0; let phys : Nat := 0; let clip : Bool := false; let opn : Bool := false; let set_ : Bool := false; let code : Int := 0; resultWord run phys clip opn set_ code), by decide⟩,
   ⟨node, by decide⟩,
   ⟨node, by decide⟩,
   ⟨node, by decide⟩,
   ⟨(let s : State := node; let s : State := (grid s); grid (wr (O.ADC_SEQ_ENTRY 0 0) 0x8001 (wr (O.ADC_SEQ_LEN 0) 1 (wr (O.ADC_SEQ_SLICES 0) 15 (wr (O.ADC_SEQ_TRIG 0) 1 (wr O.ADC_STATE 2 s)))))), by decide⟩,
   ⟨([] : AdcRound), ([] : List AdcRound), (let r : AdcRound := []; let rest : List AdcRound := []; let s : State := cell; ({ s with adc := { s.adc with rounds := r :: rest } })), by decide⟩,
   ⟨(let s : State := node; ({ s with adc := { s.adc with rounds := [] } })), by decide⟩,
   ⟨0, (let s : State := node; (wr O.SYS_RECOVERY 0 s)), by decide⟩,
   ⟨20, (let s : State := node; (wr O.SYS_RECOVERY 0 s)), by decide⟩,
   ⟨(let s : State := node; adcCatch 64 (adcEdge (halfNow s) s) s), by decide⟩,
   ⟨(let s : State := node; wr O.ADC_SLICE_MAP 0x7777 (wr O.ADC_STATE 2 s)), (let s : State := node; let s : State := wr O.ADC_SLICE_MAP 0x7777 (wr O.ADC_STATE 2 s); adcCatch 64 (adcEdge (halfNow s) s) s), by decide⟩,
   ⟨(let s : State := node; wr O.ADC_STATE 2 s), (let s : State := node; let s : State := wr O.ADC_STATE 2 s; ((idleSlice (adcEdge (halfNow s) s) (adcCatch 64 (adcEdge (halfNow s) s) s)).getD 9)), (let s : State := node; let s : State := wr O.ADC_STATE 2 s; adcCatch 64 (adcEdge (halfNow s) s) s), by decide⟩,
   ⟨0, node, by decide⟩,
   ⟨0, (let q : Nat := 0; let s : State := node; updSeq q (fun y => { y with run := some { num := 1, todo := [], out := [], stopped := false, stamp := none, period := none, ready := 0 } }) s), by decide⟩,
   ⟨0, dAdcRun, (let q : Nat := 0; let r : AdcRun := dAdcRun; let s : State := node; (updSeq q (fun y => { y with run := some r }) s)), by decide⟩,
   ⟨0, node, by decide⟩,
   ⟨3, (let s : State := node; wr (O.ADC_SEQ_TIMER 3) 500 (wr (O.ADC_SEQ_TRIG 3) 2 (wr O.ADC_STATE 2 s))), (let q : Nat := 3; let s : State := node; let s : State := wr (O.ADC_SEQ_TIMER 3) 500 (wr (O.ADC_SEQ_TRIG 3) 2 (wr O.ADC_STATE 2 s)); (vtTicks s / max 1 (rd (O.ADC_SEQ_TIMER q) s) + 1) * max 1 (rd (O.ADC_SEQ_TIMER q) s)), by decide⟩,
   ⟨3, (let q : Nat := 3; let s : State := node; let s : State := (updSeq q (fun y => { y with pend := true }) s); { (wr O.ADC_STATE 2 s) with adc := { s.adc with seqs := List.replicate 4 { run := some { num := 3, todo := [], out := [], stopped := false, stamp := none, period := none, ready := 0 }, pend := true, started := 3 } } }), by decide⟩,
   ⟨3, (let q : Nat := 3; let s : State := node; let s : State := (updSeq q (fun y => { y with pend := false }) s); { (wr O.ADC_STATE 2 s) with adc := { s.adc with seqs := List.replicate 4 { run := some { num := 3, todo := [], out := [], stopped := false, stamp := none, period := none, ready := 0 }, pend := false, started := 3 } } }), by decide⟩,
   ⟨3, (let q : Nat := 3; let s : State := node; let s : State := (updSeq q (fun y => { y with run := none }) s); wr O.ADC_STATE 2 s), by decide⟩,
   ⟨0, (let s : State := node; let s : State := (wr O.SYS_RECOVERY 0 s); wr (O.ADC_SEQ_TRIG 0) 3 s), by decide⟩,
   ⟨3, (let s : State := cell; let s : State := (wr O.SYS_RECOVERY 0 s); wr (O.ADC_SEQ_TRIG 3) 3 s), by decide⟩,
   ⟨0, (let s : State := node; (wr O.SYS_RECOVERY 0 s)), by decide⟩,
   ⟨2, (let s : State := node; (wr O.SYS_RECOVERY 0 s)), by decide⟩,
   ⟨0, dAdcRun, (let q : Nat := 0; let r : AdcRun := dAdcRun; let s : State := node; (updSeq q (fun y => { y with run := some r }) s)), by decide⟩,
   ⟨0, cell, by decide⟩,
   ⟨4, by decide⟩,
   ⟨0, (let s : State := node; (wr O.SYS_RECOVERY (0 + 1) s)), by decide⟩,
   ⟨3, (let s : State := node; let s : State := (wr O.LAW_STATE (0 + 1) s); wr (O.LAW_IN_BIND 0) 0x1C000000 (wr O.LAW_INPUTS 1 s)), by decide⟩,
   ⟨0, ((5 + 1) : Nat), (let s : State := node; let s : State := (wr O.SYS_RECOVERY 0 s); (wr O.LAW_STATE 0 s)), by decide⟩,
   ⟨0, 5, (let s : State := node; let s : State := (wr O.SYS_RECOVERY 0 s); (wr O.LAW_STATE 0 s)), by decide⟩,
   ⟨3, 2, (let s : State := node; let s : State := (wr O.SYS_RECOVERY 0 s); let s : State := (wr O.LAW_STATE 0 s); wr (O.ADC_SEQ_ENTRY 3 0) 0x8001 (wr (O.ADC_SEQ_LEN 3) 1 s)), by decide⟩,
   ⟨0, ((5 + 1) : Nat), (let s : State := node; (wr O.SYS_RECOVERY 0 s)), by decide⟩,
   ⟨0, 5, (let s : State := node; (wr O.SYS_RECOVERY 0 s)), by decide⟩,
   ⟨3, 2, (let s : State := node; let s : State := (wr O.SYS_RECOVERY 0 s); wr (O.ADC_SEQ_ENTRY 3 0) 0x8001 (wr (O.ADC_SEQ_LEN 3) 1 s)), by decide⟩,
   ⟨2, ((5 + 1) : Nat), (let s : State := cell; (wr O.SYS_RECOVERY 0 s)), by decide⟩,
   ⟨2, ((5 + 1) : Nat), (let s : State := node; let s : State := (wr O.SYS_RECOVERY 0 s); (wr O.LAW_STATE 0 s)), by decide⟩,
   ⟨3, 2, (let s : State := cell; let s : State := (wr O.SYS_RECOVERY 0 s); let s : State := (wr O.LAW_STATE 0 s); wr (O.ADC_SEQ_ENTRY 3 0) 0x8001 (wr (O.ADC_SEQ_LEN 3) 1 s)), by decide⟩,
   ⟨2, ((5 + 1) : Nat), (let s : State := node; (wr O.SYS_RECOVERY 0 s)), by decide⟩,
   ⟨3, 2, (let s : State := cell; let s : State := (wr O.SYS_RECOVERY 0 s); wr (O.ADC_SEQ_ENTRY 3 0) 0x8001 (wr (O.ADC_SEQ_LEN 3) 1 s)), by decide⟩,
   ⟨3, 1, (let s : State := node; let s : State := (wr O.SYS_RECOVERY 0 s); let s : State := (wr O.LAW_STATE 0 s); wr (O.ADC_SEQ_LEN 3) 0 s), by decide⟩,
   ⟨3, 1, (let s : State := node; let s : State := (wr O.SYS_RECOVERY 0 s); let s : State := (wr O.LAW_STATE 0 s); wr (O.ADC_SEQ_LEN 3) 0 s), by decide⟩,
   ⟨3, 5, (let s : State := node; let s : State := (wr O.SYS_RECOVERY 0 s); let s : State := (wr O.LAW_STATE 0 s); wr (O.ADC_SEQ_LEN 3) 0 s), by decide⟩,
   ⟨3, 1, (let s : State := node; let s : State := (wr O.SYS_RECOVERY 0 s); wr (O.ADC_SEQ_LEN 3) 0 s), by decide⟩,
   ⟨3, 1, (let s : State := node; let s : State := (wr O.SYS_RECOVERY 0 s); wr (O.ADC_SEQ_LEN 3) 0 s), by decide⟩,
   ⟨3, 5, (let s : State := node; let s : State := (wr O.SYS_RECOVERY 0 s); wr (O.ADC_SEQ_LEN 3) 0 s), by decide⟩,
   ⟨3, 1, (let s : State := cell; let s : State := (wr O.SYS_RECOVERY 0 s); wr (O.ADC_SEQ_LEN 3) 0 s), by decide⟩,
   ⟨3, 1, (let s : State := cell; let s : State := (wr O.SYS_RECOVERY 0 s); wr (O.ADC_SEQ_LEN 3) 0 s), by decide⟩,
   ⟨3, 5, (let s : State := cell; let s : State := (wr O.SYS_RECOVERY 0 s); wr (O.ADC_SEQ_LEN 3) 0 s), by decide⟩,
   ⟨3, 1, (let s : State := node; let s : State := (wr O.SYS_RECOVERY 0 s); let s : State := (wr O.LAW_STATE 0 s); wr (O.ADC_SEQ_LEN 3) 0 s), by decide⟩,
   ⟨3, 1, (let s : State := node; let s : State := (wr O.SYS_RECOVERY 0 s); let s : State := (wr O.LAW_STATE 0 s); wr (O.ADC_SEQ_LEN 3) 0 s), by decide⟩,
   ⟨3, 5, (let s : State := node; let s : State := (wr O.SYS_RECOVERY 0 s); let s : State := (wr O.LAW_STATE 0 s); wr (O.ADC_SEQ_LEN 3) 0 s), by decide⟩,
   ⟨3, 1, (let s : State := node; let s : State := (wr O.SYS_RECOVERY 0 s); wr (O.ADC_SEQ_LEN 3) 0 s), by decide⟩,
   ⟨3, 1, (let s : State := node; let s : State := (wr O.SYS_RECOVERY 0 s); wr (O.ADC_SEQ_LEN 3) 0 s), by decide⟩,
   ⟨3, 5, (let s : State := node; let s : State := (wr O.SYS_RECOVERY 0 s); wr (O.ADC_SEQ_LEN 3) 0 s), by decide⟩,
   ⟨2, by decide⟩,
   ⟨0, (let s : State := node; (wr O.SYS_RECOVERY (0 + 1) s)), by decide⟩,
   ⟨((2 - 1) : Nat), 15, (let s : State := node; let s : State := (wr O.SYS_RECOVERY 0 s); wr O.ADC_SLICE_MAP 0x3710 s), by decide⟩,
   ⟨((2 - 1) : Nat), 0, (let s : State := node; let s : State := (wr O.SYS_RECOVERY 0 s); wr O.ADC_SLICE_MAP 0x7210 s), by decide⟩,
   ⟨0, 16, (let s : State := node; (wr O.SYS_RECOVERY 0 s)), by decide⟩,
   ⟨0, 1, (let s : State := node; let s : State := (wr O.SYS_RECOVERY 0 s); { (wr (O.ADC_SEQ_ENTRY 0 0) 0x8001 (wr (O.ADC_SEQ_LEN 0) 1 s)) with adc := { s.adc with seqs := List.replicate 4 { run := some { num := 1, todo := [0], out := [], stopped := false, stamp := none, period := none, ready := 0 }, pend := false, started := 0 } } }), by decide⟩,
   ⟨((2 - 1) : Nat), ((16 - 1) : Nat), (let s : State := node; (wr O.SYS_RECOVERY 0 s)), by decide⟩⟩

/-- Obligations.InputsAndCalibration: the hypotheses of its clauses can be met. -/
theorem witness_InputsAndCalibration :
    (∃ (n : Nat), 16 ≤ n) ∧
    (∃ (n : Nat) (s : State), n < 16 ∧ holdsSample n s = true) ∧
    (∃ (n : Nat) (s : State) (t : Nat), n < 16 ∧ holdsSample n s = false ∧ t = 2 * ((vtTicks s + 1) / 2)) ∧
    (∃ (n : Nat) (s : State) (g : Nat) (b : Nat) (d : Nat), n < 16 ∧ s.adc.gainEff.length = 16 ∧ s.adc.bwEff.length = 16 ∧ g = rd (O.ADC_IN_GAIN n) s ∧ b = rd (O.ADC_IN_BW n) s ∧ d = max (if g = s.adc.gainEff.getD n 1 then 0 else 800) (if b = s.adc.bwEff.getD n 0 then 0 else max (bwSettle b) (bwSettle (s.adc.bwEff.getD n 0)))) ∧
    (∃ (n : Nat) (s : State) (l : List Nat), (l = (s.adc.settle.filter fun x => x.1 == n).map (fun x => x.2.2)) ∧ l ≠ []) ∧
    (∃ (n : Nat) (s : State) (l : List Nat), (l = (s.adc.settle.filter fun x => x.1 == n).map (fun x => x.2.2)) ∧ l = []) ∧
    (∃ (s : State), adcReady s = false) ∧
    (∃ (n : Nat) (s : State), rd (O.ADC_IN_OW n) s = 0) ∧
    (∃ (n : Nat) (s : State), (s.adc.ow.getD n OwSt.init).since.isSome = true) ∧
    (∃ (n : Nat) (s : State) (o : OwSt), n < 16 ∧ o = s.adc.ow.getD n OwSt.init ∧ adcReady s = true ∧ rd (O.ADC_IN_OW n) s ≠ 0 ∧ o.since = none) ∧
    (∃ (n : Nat) (b : Nat) (s : State) (o : OwSt), o = s.adc.ow.getD n OwSt.init ∧ o.since = some b) ∧
    (∃ (n : Nat) (s : State), (s.adc.ow.getD n OwSt.init).since = none) ∧
    (∃ (s : State), s.adc.calAt = none) ∧
    (∃ (x : Nat) (s : State), s.adc.calAt = some x) ∧
    (∃ (s : State), rd O.SYS_RECOVERY s ≠ 0) ∧
    (∃ (s : State), adcIdle s = false) ∧
    (∃ (s : State), rd O.SYS_RECOVERY s = 0 ∧ adcIdle s = true) ∧
    (∃ (l : Nat) (s : State), rd O.ADC_CAL_STATE s = 1 ∧ 65536 ≤ s.adc.counts.getD l 0 ∧ (∀ d ∈ s.adc.due, d.1 ≠ l) ∧ s.adc.spareCal = none) ∧
    (∃ (l : Nat) (s : State), rd O.ADC_CAL_STATE s = 1 ∧ 65536 ≤ s.adc.counts.getD l 0 ∧ (∀ d ∈ s.adc.due, d.1 ≠ l) ∧ s.adc.spareCal.isSome = true) ∧
    (∃ (s : State), rd O.ADC_CAL_STATE s ≠ 1) ∧
    (∃ (l : Nat) (s : State), s.adc.counts.getD l 0 < 65536) ∧
    (∃ (l : Nat) (s : State), (∃ d ∈ s.adc.due, d.1 = l)) ∧
    (∃ (x : Nat) (p : Nat) (s : State), s.adc.spareCal = some x ∧ spareSlice s = some p) ∧
    (∃ (s : State), spareSlice s = none) :=
  ⟨⟨16, by decide⟩,
   ⟨15, (let s : State := node; { s with adc := { s.adc with convs := [{ dAdcConv with input := 15, held := true }] } }), by decide⟩,
   ⟨0, node, (let s : State := node; 2 * ((vtTicks s + 1) / 2)), by decide⟩,
   ⟨0, node, (let n : Nat := 0; let s : State := node; rd (O.ADC_IN_GAIN n) s), (let n : Nat := 0; let s : State := node; rd (O.ADC_IN_BW n) s), (let n : Nat := 0; let s : State := node; let g : Nat := rd (O.ADC_IN_GAIN n) s; let b : Nat := rd (O.ADC_IN_BW n) s; max (if g = s.adc.gainEff.getD n 1 then 0 else 800) (if b = s.adc.bwEff.getD n 0 then 0 else max (bwSettle b) (bwSettle (s.adc.bwEff.getD n 0)))), by decide⟩,
   ⟨3, (let s : State := node; { s with adc := { s.adc with settle := [(3, 5, 7)] } }), (let n : Nat := 3; let s : State := node; let s : State := { s with adc := { s.adc with settle := [(3, 5, 7)] } }; (s.adc.settle.filter fun x => x.1 == n).map (fun x => x.2.2)), by decide⟩,
   ⟨0, node, (let n : Nat := 0; let s : State := node; (s.adc.settle.filter fun x => x.1 == n).map (fun x => x.2.2)), by decide⟩,
   ⟨node, by decide⟩,
   ⟨0, (let n : Nat := 0; let s : State := node; (wr (O.ADC_IN_OW n) 0 s)), by decide⟩,
   ⟨3, (let s : State := node; wr (O.ADC_IN_OW 3) 1 (wr O.ADC_STATE 2 { s with adc := { s.adc with ow := List.replicate 16 { since := some 5, last := 0, opens := 0, skipK := none } } })), by decide⟩,
   ⟨3, (let n : Nat := 3; let s : State := node; let s : State := (wr (O.ADC_IN_OW n) (0 + 1) s); wr (O.ADC_IN_OW 3) 1 (wr O.ADC_STATE 2 s)), (let n : Nat := 3; let s : State := node; let s : State := (wr (O.ADC_IN_OW n) (0 + 1) s); let s : State := wr (O.ADC_IN_OW 3) 1 (wr O.ADC_STATE 2 s); s.adc.ow.getD n OwSt.init), by decide⟩,
   ⟨3, 5, (let s : State := node; { s with adc := { s.adc with ow := List.replicate 16 { since := some 5, last := 0, opens := 0, skipK := none } } }), (let n : Nat := 3; let s : State := node; let s : State := { s with adc := { s.adc with ow := List.replicate 16 { since := some 5, last := 0, opens := 0, skipK := none } } }; s.adc.ow.getD n OwSt.init), by decide⟩,
   ⟨0, node, by decide⟩,
   ⟨(let s : State := node; ({ s with adc := { s.adc with calAt := none } })), by decide⟩,
   ⟨0, (let x : Nat := 0; let s : State := node; ({ s with adc := { s.adc with calAt := some x } })), by decide⟩,
   ⟨(let s : State := node; (wr O.SYS_RECOVERY (0 + 1) s)), by decide⟩,
   ⟨(let s : State := node; wr (O.ADC_SEQ_TRIG 3) 1 s), by decide⟩,
   ⟨(let s : State := node; (wr O.SYS_RECOVERY 0 s)), by decide⟩,
   ⟨3, (let s : State := node; let s : State := (wr O.ADC_CAL_STATE 1 s); let s : State := ({ s with adc := { s.adc with spareCal := none } }); { (wr O.ADC_CAL_STATE 1 s) with adc := { s.adc with counts := [0,0,0,65536], due := [(1, 0)], spareCal := none } }), by decide⟩,
   ⟨3, (let s : State := node; let s : State := (wr O.ADC_CAL_STATE 1 s); let s : State := ({ s with adc := { s.adc with spareCal := some 0 } }); { (wr O.ADC_CAL_STATE 1 s) with adc := { s.adc with counts := [0,0,0,65536], due := [(1, 0)], spareCal := some 7 } }), by decide⟩,
   ⟨(let s : State := node; (wr O.ADC_CAL_STATE (1 + 1) s)), by decide⟩,
   ⟨0, node, by decide⟩,
   ⟨2, (let s : State := node; wr O.ADC_CAL_STATE 1 { s with adc := { s.adc with counts := [65536,65536,65536,65536], due := [(2, 9)] } }), by decide⟩,
   ⟨5, 4, (let x : Nat := 5; let s : State := node; let s : State := ({ s with adc := { s.adc with spareCal := some x } }); wr O.ADC_SLICE_MAP 0x43210 { s with adc := { s.adc with spareCal := some 5 } }), by decide⟩,
   ⟨(let s : State := node; wr O.ADC_SLICE_MAP 0x73210 { s with adc := { s.adc with spareCal := some 5 } }), by decide⟩⟩

/-- Obligations.RecorderAndTriggers: the hypotheses of its clauses can be met. -/
theorem witness_RecorderAndTriggers :
    (∃ (s : State), isNode s = true ∧ rd O.SYS_RECOVERY s = 0 ∧ rd O.ACQ_CFG_STATUS (acqCheck s) ≠ 0) ∧
    (∃ (s : State), isNode s = true ∧ rd O.SYS_RECOVERY s = 0 ∧ rd O.ACQ_CFG_STATUS (acqCheck s) = 0) ∧
    (∃ (item : Nat) (s : State), isNode s = true ∧ rd O.SYS_RECOVERY s ≠ 0 ∧ item < 3) ∧
    (∃ (item : Nat) (s : State), isNode s = false ∧ item < 3) ∧
    (∃ (s : State), isNode s = true ∧ hasGrid s = true) ∧
    (∃ (s : State), hasGrid s = false) ∧
    (∃ (s : State) (x : Nat) (d : Nat), rowDue s = some (x, d) ∧ rd O.ACQ_INTERVAL s ≠ 0) ∧
    (∃ (s : State) (x : Nat) (d : Nat), rowDue s = some (x, d) ∧ rd O.ACQ_INTERVAL s = 0) ∧
    (∃ (s : State), rd O.ACQ_STATE s = 5) ∧
    (∃ (stop : Bool) (s : State), rd O.ACQ_STATE s ≠ 5 ∧ acqIdle s = false ∧ stop = true) ∧
    (∃ (s : State), rd O.ACQ_STATE s ≠ 5 ∧ acqIdle s = true) ∧
    (∃ (i : Nat) (s : State), slotToArm s = some (i, false)) ∧
    (∃ (s : State), slotToArm s = none) ∧
    (∃ (i : Nat) (past : Bool) (s : State), slotToArm s = some (i, past) ∧ i < 64) ∧
    (∃ (v : Nat) (s : State), isNode s = true ∧ rd O.SYS_RECOVERY s = 0 ∧ v < 64 ∧ rd (O.ACQ_SLOT_STATE v) s = 2) ∧
    (∃ (v : Nat) (s : State), isNode s = true ∧ rd O.SYS_RECOVERY s = 0 ∧ v < 64 ∧ rd (O.ACQ_SLOT_STATE v) s = 3) ∧
    (∃ (v : Nat) (s : State), isNode s = true ∧ rd O.SYS_RECOVERY s = 0 ∧ v < 64 ∧ rd (O.ACQ_SLOT_STATE v) s ≠ 2 ∧ rd (O.ACQ_SLOT_STATE v) s ≠ 3) ∧
    (∃ (v : Nat) (s : State), isNode s = true ∧ rd O.SYS_RECOVERY s = 0 ∧ 64 ≤ v) ∧
    (∃ (item : Nat), 3 ≤ item) ∧
    (∃ (item : Nat) (s : State), isNode s = true ∧ item < 3 ∧ acqIdle s = false) ∧
    (∃ (item : Nat) (s : State), isNode s = true ∧ item < 3 ∧ (∃ i, i < 64 ∧ rd (O.ACQ_SLOT_STATE i) s = 3)) ∧
    (∃ (v : Nat) (s : State), isNode s = true ∧ rd O.SYS_RECOVERY s = 0 ∧ acqIdle s = true ∧ (∀ i, i < 64 → rd (O.ACQ_SLOT_STATE i) s ≠ 3) ∧ 2 ≤ v) ∧
    (∃ (v : Nat) (s : State), isNode s = true ∧ rd O.SYS_RECOVERY s = 0 ∧ acqIdle s = true ∧ (∀ i, i < 64 → rd (O.ACQ_SLOT_STATE i) s ≠ 3) ∧ v = 0) ∧
    (∃ (v : Nat) (s : State), isNode s = true ∧ rd O.SYS_RECOVERY s = 0 ∧ acqIdle s = true ∧ (∀ i, i < 64 → rd (O.ACQ_SLOT_STATE i) s ≠ 3) ∧ 8192 < v) ∧
    (∃ (s : State) (v : Nat), isNode s = true ∧ rd O.SYS_RECOVERY s = 0 ∧ acqIdle s = true ∧ (∀ i, i < 64 → rd (O.ACQ_SLOT_STATE i) s ≠ 3) ∧ s.sys.ddrMiB < v) ∧
    (∃ (v : Nat) (s : State), isNode s = true ∧ rd O.SYS_RECOVERY s = 0 ∧ acqIdle s = true ∧ (∀ i, i < 64 → rd (O.ACQ_SLOT_STATE i) s ≠ 3) ∧ 64 < v) ∧
    (∃ (item : Nat) (v : Nat) (k : Nat) (s : State), isNode s = true ∧ rd O.SYS_RECOVERY s = 0 ∧ acqIdle s = true ∧ (∀ i, i < 64 → rd (O.ACQ_SLOT_STATE i) s ≠ 3) ∧ (item = 0 ∧ v < 2 ∧ k = O.ACQ_MEM)) ∧
    (∃ (item : Nat) (v : Nat) (k : Nat) (s : State), isNode s = true ∧ rd O.SYS_RECOVERY s = 0 ∧ acqIdle s = true ∧ (∀ i, i < 64 → rd (O.ACQ_SLOT_STATE i) s ≠ 3) ∧ (item = 1 ∧ 1 ≤ v ∧ v ≤ 8192 ∧ v ≤ s.sys.ddrMiB ∧ k = O.ACQ_AREA)) ∧
    (∃ (item : Nat) (v : Nat) (k : Nat) (s : State), isNode s = true ∧ rd O.SYS_RECOVERY s = 0 ∧ acqIdle s = true ∧ (∀ i, i < 64 → rd (O.ACQ_SLOT_STATE i) s ≠ 3) ∧ (item = 2 ∧ 1 ≤ v ∧ v ≤ 64 ∧ k = O.ACQ_SLOTS)) ∧
    (∃ (src : Nat) (s : State), trigEnabled src s = false) ∧
    (∃ (src : Nat) (s : State), isNode s = true ∧ trigEnabled src s = true ∧ s.acq.cur = none) ∧
    (∃ (src : Nat) (inst : Nat) (s : State), isNode s = true ∧ trigEnabled src s = true ∧ (∃ r, s.acq.cur = some r ∧ r.trig = none ∧ r.rowAt inst = none ∧ (r.rows = [] ∨ r.rows.length = r.n ∨ src ≠ 9))) ∧
    (∃ (src : Nat) (inst : Nat) (row : Nat) (r : RecSt) (s : State), isNode s = true ∧ trigEnabled src s = true ∧ s.acq.cur = some r ∧ r.trig = none ∧ r.rowAt inst = some row) ∧
    (∃ (inst : Nat) (r : RecSt) (s : State), isNode s = true ∧ trigEnabled 9 s = true ∧ s.acq.cur = some r ∧ r.trig = none ∧ r.rowAt inst = none ∧ r.rows ≠ [] ∧ r.rows.length ≠ r.n) ∧
    (∃ (src : Nat) (inst : Nat) (row : Nat) (r : RecSt) (g : TrigRec) (s : State), isNode s = true ∧ trigEnabled src s = true ∧ s.acq.cur = some r ∧ r.trig = some g ∧ row = (r.rowAt inst).getD (max (r.n - r.rows.length) (g.row - g.pre))) ∧
    (∃ (x : Xtrig) (s : State), xtSeen x s = true) ∧
    (∃ (x : Xtrig) (s : State), isNode s = true ∧ xtSeen x s = false) ∧
    (∃ (s : State), rdBit O.ACQ_TRIG_EN 9 s = true) ∧
    (∃ (s : State), rdBit O.ACQ_TRIG_EN 9 s = false) ∧
    (∃ (e : Nat × Nat) (s : State), xtNext s.acq.xtHeld = some e) ∧
    (∃ (e : Nat × Nat) (l : List (Nat × Nat)) (x : Nat × Nat), xtNext l = some e ∧ x ∈ l) ∧
    (∃ (s : State), s.acq.xtHeld = []) ∧
    (∃ (n : Nat) (s : State), n < 8 ∧ s.acq.lvl.length = 8 ∧ (s.acq.lvl.getD n LvlSt.init).rise = false ∧ (s.acq.lvl.getD n LvlSt.init).fall = false) ∧
    (∃ (n : Nat) (v : Nat) (s : State) (l : LvlSt), l = s.acq.lvl.getD n LvlSt.init ∧ (l.rise = true ∧ leF (rd (O.ACQ_LVL_THRESH n) s) v = true ∧ rd (O.ACQ_LVL_EDGE n) s ≠ 1)) ∧
    (∃ (n : Nat) (v : Nat) (s : State) (l : LvlSt), l = s.acq.lvl.getD n LvlSt.init ∧ (l.fall = true ∧ leF v (rd (O.ACQ_LVL_THRESH n) s) = true ∧ rd (O.ACQ_LVL_EDGE n) s ≠ 0)) :=
  ⟨⟨(let s : State := node; let s : State := (wr O.SYS_RECOVERY 0 s); wr O.ACQ_PRE 0xFFFFFFFF s), by decide⟩,
   ⟨(let s : State := node; (wr O.SYS_RECOVERY 0 s)), by decide⟩,
   ⟨0, (let s : State := node; (wr O.SYS_RECOVERY (0 + 1) s)), by decide⟩,
   ⟨0, cell, by decide⟩,
   ⟨(let s : State := node; (grid s)), by decide⟩,
   ⟨node, by decide⟩,
   ⟨(let s : State := node; let s : State := (wr O.ACQ_INTERVAL (0 + 1) s); wr O.ACQ_INTERVAL 1000 { (grid (wr O.TIM_PERIOD_NUMBER 0 s)) with acq := { s.acq with gridJ := 1, gridK := some 0 } }), (let s : State := node; let s : State := (wr O.ACQ_INTERVAL (0 + 1) s); let s : State := wr O.ACQ_INTERVAL 1000 { (grid (wr O.TIM_PERIOD_NUMBER 0 s)) with acq := { s.acq with gridJ := 1, gridK := some 0 } }; ((rowDue s).getD (0,0)).1), (let s : State := node; let s : State := (wr O.ACQ_INTERVAL (0 + 1) s); let s : State := wr O.ACQ_INTERVAL 1000 { (grid (wr O.TIM_PERIOD_NUMBER 0 s)) with acq := { s.acq with gridJ := 1, gridK := some 0 } }; ((rowDue s).getD (0,0)).2), by decide⟩,
   ⟨(let s : State := node; let s : State := (wr O.ACQ_INTERVAL 0 s); { (grid (wr O.TIM_PERIOD_NUMBER 0 s)) with acq := { s.acq with gridJ := 0, gridK := some 0 } }), (let s : State := node; let s : State := (wr O.ACQ_INTERVAL 0 s); let s : State := { (grid (wr O.TIM_PERIOD_NUMBER 0 s)) with acq := { s.acq with gridJ := 0, gridK := some 0 } }; ((rowDue s).getD (0,0)).1), (let s : State := node; let s : State := (wr O.ACQ_INTERVAL 0 s); let s : State := { (grid (wr O.TIM_PERIOD_NUMBER 0 s)) with acq := { s.acq with gridJ := 0, gridK := some 0 } }; ((rowDue s).getD (0,0)).2), by decide⟩,
   ⟨(let s : State := node; (wr O.ACQ_STATE 5 s)), by decide⟩,
   ⟨true, (let s : State := node; (wr O.ACQ_STATE (5 + 1) s)), by decide⟩,
   ⟨(let s : State := node; let s : State := (wr O.ACQ_STATE (5 + 1) s); wr O.ACQ_STATE 4 s), by decide⟩,
   ⟨0, node, by decide⟩,
   ⟨(let s : State := node; wr O.ACQ_SLOTS 1 (wr (O.ACQ_SLOT_STATE 0) 2 (wr O.ACQ_OVERWRITE 0 s))), by decide⟩,
   ⟨0, false, node, by decide⟩,
   ⟨0, (let v : Nat := 0; let s : State := node; let s : State := (wr O.SYS_RECOVERY 0 s); (wr (O.ACQ_SLOT_STATE v) 2 s)), by decide⟩,
   ⟨0, (let v : Nat := 0; let s : State := node; let s : State := (wr O.SYS_RECOVERY 0 s); (wr (O.ACQ_SLOT_STATE v) 3 s)), by decide⟩,
   ⟨0, (let v : Nat := 0; let s : State := node; let s : State := (wr O.SYS_RECOVERY 0 s); let s : State := (wr (O.ACQ_SLOT_STATE v) (2 + 1) s); (wr (O.ACQ_SLOT_STATE v) (3 + 1) s)), by decide⟩,
   ⟨64, (let s : State := node; (wr O.SYS_RECOVERY 0 s)), by decide⟩,
   ⟨3, by decide⟩,
   ⟨0, (let s : State := node; wr O.ACQ_STATE 1 s), by decide⟩,
   ⟨0, (let s : State := node; wr (O.ACQ_SLOT_STATE 5) 3 s), by decide⟩,
   ⟨2, (let s : State := node; (wr O.SYS_RECOVERY 0 s)), by decide⟩,
   ⟨0, (let s : State := node; (wr O.SYS_RECOVERY 0 s)), by decide⟩,
   ⟨((8192 + 1) : Nat), (let s : State := node; (wr O.SYS_RECOVERY 0 s)), by decide⟩,
   ⟨(let s : State := node; (wr O.SYS_RECOVERY 0 s)), (let s : State := node; let s : State := (wr O.SYS_RECOVERY 0 s); (s.sys.ddrMiB + 1)), by decide⟩,
   ⟨((64 + 1) : Nat), (let s : State := node; (wr O.SYS_RECOVERY 0 s)), by decide⟩,
   ⟨0, 1, O.ACQ_MEM, (let s : State := node; let s : State := (wr O.SYS_RECOVERY 0 s); { s with sys := { s.sys with ddrMiB := 64 } }), by decide⟩,
   ⟨1, 8, O.ACQ_AREA, (let s : State := node; let s : State := (wr O.SYS_RECOVERY 0 s); { s with sys := { s.sys with ddrMiB := 64 } }), by decide⟩,
   ⟨2, 64, O.ACQ_SLOTS, (let s : State := node; let s : State := (wr O.SYS_RECOVERY 0 s); { s with sys := { s.sys with ddrMiB := 64 } }), by decide⟩,
   ⟨9, (let s : State := node; wrBit O.ACQ_TRIG_EN 9 false s), by decide⟩,
   ⟨9, (let s : State := node; let s : State := ({ s with acq := { s.acq with cur := none } }); wrBit O.ACQ_TRIG_EN 9 true s), by decide⟩,
   ⟨9, 0, (let s : State := node; wrBit O.ACQ_TRIG_EN 9 true (wr O.ACQ_POST 9 (wr O.ACQ_PRE 4 { s with acq := { s.acq with cur := some ({ slot := 0, id := 1, base := 0, cap := 100, rowBytes := 8, n := 0, rows := [], trig := none, t := 4000, lim := none } : RecSt) } }))), by decide⟩,
   ⟨9, 599, 5, (let inst : Nat := 599; ({ slot := 0, id := 1, base := 0, cap := 100, rowBytes := 8, n := 7, rows := [{ k := 0, j := 1, inst := 600, dur := 100 }, { k := 0, j := 0, inst := 500, dur := 100 }], trig := none, t := 4000, lim := none } : RecSt)), (let inst : Nat := 599; let r : RecSt := ({ slot := 0, id := 1, base := 0, cap := 100, rowBytes := 8, n := 7, rows := [{ k := 0, j := 1, inst := 600, dur := 100 }, { k := 0, j := 0, inst := 500, dur := 100 }], trig := none, t := 4000, lim := none } : RecSt); let s : State := node; let s : State := ({ s with acq := { s.acq with cur := some r } }); wrBit O.ACQ_TRIG_EN 9 true (wr O.ACQ_POST 9 (wr O.ACQ_PRE 4 { s with acq := { s.acq with cur := some ({ slot := 0, id := 1, base := 0, cap := 100, rowBytes := 8, n := 7, rows := [{ k := 0, j := 1, inst := 600, dur := 100 }, { k := 0, j := 0, inst := 500, dur := 100 }], trig := none, t := 4000, lim := none } : RecSt) } }))), by decide⟩,
   ⟨400, (let inst : Nat := 400; ({ slot := 0, id := 1, base := 0, cap := 100, rowBytes := 8, n := 7, rows := [{ k := 0, j := 1, inst := 600, dur := 100 }, { k := 0, j := 0, inst := 500, dur := 100 }], trig := none, t := 4000, lim := none } : RecSt)), (let inst : Nat := 400; let r : RecSt := ({ slot := 0, id := 1, base := 0, cap := 100, rowBytes := 8, n := 7, rows := [{ k := 0, j := 1, inst := 600, dur := 100 }, { k := 0, j := 0, inst := 500, dur := 100 }], trig := none, t := 4000, lim := none } : RecSt); let s : State := node; let s : State := ({ s with acq := { s.acq with cur := some r } }); wrBit O.ACQ_TRIG_EN 9 true (wr O.ACQ_POST 9 (wr O.ACQ_PRE 4 { s with acq := { s.acq with cur := some ({ slot := 0, id := 1, base := 0, cap := 100, rowBytes := 8, n := 7, rows := [{ k := 0, j := 1, inst := 600, dur := 100 }, { k := 0, j := 0, inst := 500, dur := 100 }], trig := none, t := 4000, lim := none } : RecSt) } }))), by decide⟩,
   ⟨9, 560, 5, (let src : Nat := 9; let inst : Nat := 560; let row : Nat := 5; ({ slot := 0, id := 1, base := 0, cap := 100, rowBytes := 8, n := 7, rows := [{ k := 0, j := 1, inst := 600, dur := 100 }, { k := 0, j := 0, inst := 500, dur := 100 }], trig := (some { row := 5, frac := 0, src := 9, sources := 512, inst := 550, origin := 0, pre := 2, stop := 12, early := false, extended := false, capped := false, extras := [], extraN := 0 }), t := 4000, lim := none } : RecSt)), (let src : Nat := 9; let inst : Nat := 560; let row : Nat := 5; ({ row := 5, frac := 0, src := 9, sources := 512, inst := 550, origin := 0, pre := 2, stop := 12, early := false, extended := false, capped := false, extras := [], extraN := 0 } : TrigRec)), (let src : Nat := 9; let inst : Nat := 560; let row : Nat := 5; let r : RecSt := ({ slot := 0, id := 1, base := 0, cap := 100, rowBytes := 8, n := 7, rows := [{ k := 0, j := 1, inst := 600, dur := 100 }, { k := 0, j := 0, inst := 500, dur := 100 }], trig := (some { row := 5, frac := 0, src := 9, sources := 512, inst := 550, origin := 0, pre := 2, stop := 12, early := false, extended := false, capped := false, extras := [], extraN := 0 }), t := 4000, lim := none } : RecSt); let s : State := node; let s : State := ({ s with acq := { s.acq with cur := some r } }); wrBit O.ACQ_TRIG_EN 9 true (wr O.ACQ_POST 9 (wr O.ACQ_PRE 4 { s with acq := { s.acq with cur := some ({ slot := 0, id := 1, base := 0, cap := 100, rowBytes := 8, n := 7, rows := [{ k := 0, j := 1, inst := 600, dur := 100 }, { k := 0, j := 0, inst := 500, dur := 100 }], trig := (some { row := 5, frac := 0, src := 9, sources := 512, inst := 550, origin := 0, pre := 2, stop := 12, early := false, extended := false, capped := false, extras := [], extraN := 0 }), t := 4000, lim := none } : RecSt) } }))), by decide⟩,
   ⟨({ dXtrig with node := 3 } : Xtrig), (let s : State := node; { s with acq := { s.acq with xtSeen := [((3, dXtrig.sideB, dXtrig.seq), s.tick)] } }), by decide⟩,
   ⟨dXtrig, node, by decide⟩,
   ⟨(let s : State := node; (wrBit O.ACQ_TRIG_EN 9 true s)), by decide⟩,
   ⟨(let s : State := node; (wrBit O.ACQ_TRIG_EN 9 false s)), by decide⟩,
   ⟨((5, 7) : Nat × Nat), (let s : State := node; { s with acq := { s.acq with xtHeld := [(9, 1), (5, 7)] } }), by decide⟩,
   ⟨((5, 7) : Nat × Nat), ([(9, 1), (5, 7)] : List (Nat × Nat)), ((9, 1) : Nat × Nat), by decide⟩,
   ⟨(let s : State := node; ({ s with acq := { s.acq with xtHeld := [] } })), by decide⟩,
   ⟨0, node, by decide⟩,
   ⟨0, 0x3F800000, (let n : Nat := 0; let s : State := node; let s : State := (wr (O.ACQ_LVL_EDGE n) (1 + 1) s); wr (O.ACQ_LVL_THRESH 0) 0x3F800000 (wr (O.ACQ_LVL_EDGE 0) 0 { s with acq := { s.acq with lvl := [{ last := some (0, 0), rise := true, fall := true }] } })), (let n : Nat := 0; let s : State := node; let s : State := (wr (O.ACQ_LVL_EDGE n) (1 + 1) s); let s : State := wr (O.ACQ_LVL_THRESH 0) 0x3F800000 (wr (O.ACQ_LVL_EDGE 0) 0 { s with acq := { s.acq with lvl := [{ last := some (0, 0), rise := true, fall := true }] } }); s.acq.lvl.getD n LvlSt.init), by decide⟩,
   ⟨0, 0x3F800000, (let n : Nat := 0; let s : State := node; let s : State := (wr (O.ACQ_LVL_EDGE n) (0 + 1) s); wr (O.ACQ_LVL_THRESH 0) 0x3F800000 (wr (O.ACQ_LVL_EDGE 0) 1 { s with acq := { s.acq with lvl := [{ last := some (0, 0), rise := true, fall := true }] } })), (let n : Nat := 0; let s : State := node; let s : State := (wr (O.ACQ_LVL_EDGE n) (0 + 1) s); let s : State := wr (O.ACQ_LVL_THRESH 0) 0x3F800000 (wr (O.ACQ_LVL_EDGE 0) 1 { s with acq := { s.acq with lvl := [{ last := some (0, 0), rise := true, fall := true }] } }); s.acq.lvl.getD n LvlSt.init), by decide⟩⟩

/-- Obligations.KettleAndEvents: the hypotheses of its clauses can be met. -/
theorem witness_KettleAndEvents :
    (∃ (s : State), isNode s = true) ∧
    (∃ (n : Nat), 16 < n) ∧
    (∃ (n : Nat) (s : State), isCell s = true ∧ n ≤ 16 ∧ isLive n s = true) ∧
    (∃ (n : Nat) (s : State), isCell s = true ∧ n ≤ 16 ∧ isLive n s = false) ∧
    (∃ (n : Nat) (s : State), n < 256 ∧ n ≠ 226 ∧ srcExists s.straps n = true ∧ isLive n s = false ∧ reactOf n s < 4 ∧ rd (O.KET_ESC_COUNT n) s = 0 ∧ s.ket.dropped = 0 ∧ s.ket.queue.length < 4080 ∧ min (kSrc n s).tokens (rd O.KET_BURST s) ≠ 0 ∧ bit (reactOf n s) 0 = true) ∧
    (∃ (n : Nat) (s : State), s.ket.dropped = 0 ∧ isLive n s = true ∧ n ∈ s.ket.broken) ∧
    (∃ (n : Nat) (s : State), n < 256 ∧ n ∉ s.ket.broken ∧ srcExists s.straps n = true ∧ isLive n s = true ∧ s.ket.dropped = 0 ∧ s.ket.queue.length < 4080 ∧ rd O.SAF_STATE s ≠ 2 ∧ rd O.SAF_STATE s ≠ 3) ∧
    (∃ (n : Nat) (s : State), isLatched n s = false) ∧
    (∃ (n : Nat) (s : State), isLatched n s = true ∧ isLive n s = true) ∧
    (∃ (n : Nat) (x : Nat) (s : State), isLatched n s = true ∧ rd (O.KET_SRC_RISES n) s ≠ x) ∧
    (∃ (n : Nat) (c : Option Nat) (s : State), n < 256 ∧ isLatched n s = true ∧ isLive n s = false ∧ c = none) ∧
    (∃ (n : Nat) (s : State) (c : Option Nat), n < 256 ∧ isLatched n s = true ∧ isLive n s = false ∧ c = some (rd (O.KET_SRC_RISES n) s)) ∧
    (∃ (v : Nat) (s : State), rd O.SYS_RECOVERY s = 0 ∧ v < 2 ^ 64 ∧ v % 65536 < 256) ∧
    (∃ (v : Nat) (s : State), rd O.SYS_RECOVERY s = 0 ∧ v < 2 ^ 64 ∧ v % 65536 = 65535) ∧
    (∃ (v : Nat) (s : State), rd O.SYS_RECOVERY s = 0 ∧ 2 ^ 64 ≤ v) ∧
    (∃ (v : Nat) (s : State), rd O.SYS_RECOVERY s = 0 ∧ (256 ≤ v % 65536 ∧ v % 65536 < 65535)) ∧
    (∃ (n : Nat) (s : State), srcExists s.straps n = false) ∧
    (∃ (n : Nat) (x : Nat) (s : State), (kSrc n s).escAt = some x) ∧
    (∃ (n : Nat) (s : State), (kSrc n s).escAt = none) ∧
    (∃ (n : Nat) (s : State), isEscalated n s = true) ∧
    (∃ (kind : Nat) (cls : Nat) (s : State), kind < 6 ∧ 4080 ≤ s.ket.queue.length ∧ cls < 13) ∧
    (∃ (kind : Nat) (s : State), 6 ≤ kind ∧ 4096 ≤ s.ket.queue.length) ∧
    (∃ (cls : Nat) (s : State), cls < 13 ∧ s.ket.queue.length < 4080) ∧
    (∃ (kind : Nat) (cls : Nat) (s : State), cls < 13 ∧ (6 ≤ kind ∧ s.ket.queue.length < 4096)) ∧
    (∃ (n : Nat) (s : State), n < 256 ∧ min (kSrc n s).tokens (rd O.KET_BURST s) = 0 ∧ srcClass n < 13) ∧
    (∃ (s : State), inL5 (eventsLane s) s = false) ∧
    (∃ (s : State), isApex s = false ∧ s.ket.queue ≠ [] ∧ inL5 (eventsLane s) s = true) ∧
    (∃ (e : Event) (s : State), 6 ≤ e.kind ∧ 4096 ≤ s.ket.queue.length) ∧
    (∃ (e : Event) (s : State), e.kind < 6 ∧ 4080 ≤ s.ket.queue.length) ∧
    (∃ (e : Event) (s : State), s.ket.queue.length < 4080 ∧ e.cls < 13) ∧
    (∃ (e : Event) (s : State), (6 ≤ e.kind ∧ s.ket.queue.length < 4096) ∧ e.cls < 13) ∧
    (∃ (s : State), isApex s = true ∧ rd O.SYS_RECOVERY s ≠ 0) ∧
    (∃ (s : State), isApex s = true ∧ s.ket.queue = []) ∧
    (∃ (v : Nat) (s : State), isApex s = true ∧ rd O.SYS_RECOVERY s = 0 ∧ s.ket.queue ≠ [] ∧ v ≠ 1) ∧
    (∃ (e : Event) (l : List Event) (s : State), isApex s = true ∧ rd O.SYS_RECOVERY s = 0 ∧ s.ket.queue = e :: l) :=
  ⟨⟨node, by decide⟩,
   ⟨((16 + 1) : Nat), by decide⟩,
   ⟨9, (let n : Nat := 9; let s : State := cell; (wr (O.KET_SRC_STATUS n) 3 { s with ket := { s.ket with latched := [n], live := [n], broken := [n], dropped := 0 } })), by decide⟩,
   ⟨0, cell, by decide⟩,
   ⟨((226 + 1) : Nat), (let n : Nat := (226 + 1); let s : State := node; let s : State := (wr (O.KET_ESC_COUNT n) 0 s); ({ s with ket := { s.ket with dropped := 0 } })), by decide⟩,
   ⟨235, (let n : Nat := 235; let s : State := node; let s : State := ({ s with ket := { s.ket with dropped := 0 } }); let s : State := ({ s with ket := { s.ket with broken := [n] } }); (wr (O.KET_SRC_STATUS n) 3 { s with ket := { s.ket with latched := [n], live := [n], broken := [n], dropped := 0 } })), by decide⟩,
   ⟨235, (let n : Nat := 235; let s : State := node; let s : State := ({ s with ket := { s.ket with dropped := 0 } }); let s : State := (wr O.SAF_STATE (2 + 1) s); let s : State := (wr O.SAF_STATE (3 + 1) s); wr O.SAF_STATE 0 (wr (O.KET_SRC_STATUS n) 3 { s with ket := { s.ket with latched := [n], live := [n], broken := [], dropped := 0 } })), by decide⟩,
   ⟨0, node, by decide⟩,
   ⟨255, (let n : Nat := 255; let s : State := node; (wr (O.KET_SRC_STATUS n) 3 { s with ket := { s.ket with latched := [n], live := [n], broken := [], dropped := 0 } })), by decide⟩,
   ⟨255, 5, (let n : Nat := 255; let x : Nat := 5; let s : State := node; let s : State := (wr (O.KET_SRC_RISES n) (x + 1) s); wr (O.KET_SRC_RISES n) 6 (wr (O.KET_SRC_STATUS n) 2 { s with ket := { s.ket with latched := [n], live := [n], broken := [], dropped := 0 } })), by decide⟩,
   ⟨255, none, (let n : Nat := 255; let s : State := node; (wr (O.KET_SRC_STATUS n) 2 { s with ket := { s.ket with latched := [n], live := [n], broken := [], dropped := 0 } })), by decide⟩,
   ⟨255, (let n : Nat := 255; let s : State := node; (wr (O.KET_SRC_STATUS n) 2 { s with ket := { s.ket with latched := [n], live := [n], broken := [], dropped := 0 } })), (let n : Nat := 255; let s : State := node; let s : State := (wr (O.KET_SRC_STATUS n) 2 { s with ket := { s.ket with latched := [n], live := [n], broken := [], dropped := 0 } }); some (rd (O.KET_SRC_RISES n) s)), by decide⟩,
   ⟨0, (let s : State := node; (wr O.SYS_RECOVERY 0 s)), by decide⟩,
   ⟨((2 ^ 64 - 1) : Nat), (let s : State := node; (wr O.SYS_RECOVERY 0 s)), by decide⟩,
   ⟨(2 ^ 64 : Nat), (let s : State := node; (wr O.SYS_RECOVERY 0 s)), by decide⟩,
   ⟨256, (let s : State := node; (wr O.SYS_RECOVERY 0 s)), by decide⟩,
   ⟨0, node, by decide⟩,
   ⟨255, 6000, (let n : Nat := 255; let s : State := node; { s with ket := { s.ket with srcs := [{ n := n, tokens := 0, lost := 3, refill := some 5000, escAt := some 6000, data := 0 }] } }), by decide⟩,
   ⟨0, node, by decide⟩,
   ⟨255, (let n : Nat := 255; let s : State := node; (wr (O.KET_SRC_STATUS n) 8 { s with ket := { s.ket with latched := [n], live := [n], broken := [], dropped := 0 } })), by decide⟩,
   ⟨5, 12, (let s : State := node; { s with ket := { s.ket with queue := List.replicate 4080 dEvent } }), by decide⟩,
   ⟨6, (let s : State := node; { s with ket := { s.ket with queue := List.replicate 4096 dEvent } }), by decide⟩,
   ⟨0, node, by decide⟩,
   ⟨6, 0, node, by decide⟩,
   ⟨255, (let n : Nat := 255; let s : State := node; { s with ket := { s.ket with srcs := [{ n := n, tokens := 0, lost := 3, refill := some 5000, escAt := some 6000, data := 0 }] } }), by decide⟩,
   ⟨node, by decide⟩,
   ⟨(let s : State := node; let s : State := ({ s with ket := { s.ket with queue := [dEvent] } }); { (wr (O.LNK_STAGE laneU0) 5 (wr (O.LNK_STAGE laneU1) 5 s)) with ket := { s.ket with lastFrame := none, queue := [dEvent, dEvent] } }), by decide⟩,
   ⟨({ dEvent with kind := 6, cls := 3 } : Event), (let s : State := node; { s with ket := { s.ket with queue := List.replicate 4096 dEvent } }), by decide⟩,
   ⟨({ dEvent with kind := 5, cls := 3 } : Event), (let s : State := node; { s with ket := { s.ket with queue := List.replicate 4080 dEvent } }), by decide⟩,
   ⟨dEvent, node, by decide⟩,
   ⟨({ dEvent with kind := 6, cls := 3 } : Event), (let s : State := node; { s with ket := { s.ket with queue := List.replicate 4095 dEvent } }), by decide⟩,
   ⟨(let s : State := apex; (wr O.SYS_RECOVERY (0 + 1) s)), by decide⟩,
   ⟨(let s : State := apex; ({ s with ket := { s.ket with queue := [] } })), by decide⟩,
   ⟨((1 + 1) : Nat), (let s : State := apex; let s : State := (wr O.SYS_RECOVERY 0 s); ({ s with ket := { s.ket with queue := [dEvent] } })), by decide⟩,
   ⟨dEvent, ([] : List Event), (let e : Event := dEvent; let l : List Event := []; let s : State := apex; let s : State := (wr O.SYS_RECOVERY 0 s); ({ s with ket := { s.ket with queue := e :: l } })), by decide⟩⟩

/-- Obligations.SafetyFunctionsAndRelease: the hypotheses of its clauses can be met. -/
theorem witness_SafetyFunctionsAndRelease :
    (∃ (s : State), isNode s = false) ∧
    (∃ (f : Nat) (s : State), bit (rd (O.SAF_FN_CFG f) s) 31 = false ∧ fnState f s = 0) ∧
    (∃ (f : Nat) (s : State), bit (rd (O.SAF_FN_CFG f) s) 31 = false ∧ fnState f s ≠ 0) ∧
    (∃ (f : Nat) (s : State), bit (rd (O.SAF_FN_CFG f) s) 31 = true) ∧
    (∃ (src : Nat) (s : State), bit src 7 = false ∧ rd O.FIO_LINK_STATE s ≠ 1) ∧
    (∃ (f : Nat) (x : Nat) (s : State), isNode s = true ∧ (s.saf.fns.getD f FnSt.init).discAt = some x ∧ fnState f s = 2) ∧
    (∃ (f : Nat) (x : Nat) (s : State), isNode s = true ∧ (s.saf.fns.getD f FnSt.init).discAt = some x ∧ fnState f s ≠ 2) ∧
    (∃ (f : Nat) (s : State), (s.saf.fns.getD f FnSt.init).discAt = none) ∧
    (∃ (f : Nat) (s : State), isNode s = true ∧ rd O.SYS_RECOVERY s = 0 ∧ 7 < f) ∧
    (∃ (f : Nat) (s : State), isNode s = true ∧ rd O.SYS_RECOVERY s = 0 ∧ f < 8 ∧ fnState f s ≠ 4) ∧
    (∃ (f : Nat) (s : State), isNode s = true ∧ rd O.SYS_RECOVERY s = 0 ∧ f < 8 ∧ fnState f s = 4) ∧
    (∃ (s : State), isNode s = true ∧ rd O.SYS_RECOVERY s = 0 ∧ servesDeblocked s = true) ∧
    (∃ (s : State), isNode s = true ∧ rd O.SYS_RECOVERY s = 0 ∧ servesDeblocked s = false) ∧
    (∃ (s : State), isNode s = true ∧ rd O.SYS_RECOVERY s = 0 ∧ rd O.SAF_STATE s ≠ 1) ∧
    (∃ (s : State), isNode s = true ∧ rd O.SYS_RECOVERY s = 0 ∧ s.saf.confirmVal ≠ safCheck s) ∧
    (∃ (s : State), isNode s = true ∧ rd O.SYS_RECOVERY s = 0 ∧ rd O.SAF_STATE s = 1 ∧ s.saf.confirmVal = safCheck s) ∧
    (∃ (s : State), isNode s = true ∧ rd O.SYS_RECOVERY s ≠ 0) ∧
    (∃ (x : Nat) (s : State), s.saf.degEnd = some x ∧ rd O.SAF_STATE s = 3) ∧
    (∃ (s : State), rd O.SAF_STATE s ≠ 3) ∧
    (∃ (s : State), s.saf.degEnd = none) ∧
    (∃ (x : Nat) (s : State), s.saf.noCauseAt = some x ∧ rd O.SAF_STATE s = 3 ∧ degradeCause s = false) ∧
    (∃ (s : State), s.saf.noCauseAt = none) ∧
    (∃ (s : State), degradeCause s = true) ∧
    (∃ (s : State), isApex s = true ∧ isNode s = true ∧ rd O.SYS_RECOVERY s = 0) ∧
    (∃ (s : State), isApex s = false ∧ isNode s = true ∧ rd O.SYS_RECOVERY s = 0) ∧
    (∃ (s : State), releaseOk s = false) ∧
    (∃ (s : State), releaseOk s = true) ∧
    (∃ (x : Nat) (s : State), s.saf.relAt = some x ∧ s.saf.relLeft ≠ 0) ∧
    (∃ (s : State), s.saf.relAt = none) ∧
    (∃ (s : State), s.saf.relLeft = 0) ∧
    (∃ (s : State), isNode s = true ∧ isDuplex s = true) ∧
    (∃ (s : State), isDuplex s = false) ∧
    (∃ (n : Nat) (s : State), isApex s = true ∧ n ≤ 63) ∧
    (∃ (n : Nat), 63 < n) ∧
    (∃ (q : Nat) (s : State), s.saf.rseqSeen = some q) ∧
    (∃ (q : Nat) (s : State), isNode s = true ∧ s.saf.rseqSeen ≠ some q) :=
  ⟨⟨cell, by decide⟩,
   ⟨0, (let f : Nat := 0; let s : State := node; (wrBit (O.SAF_FN_CFG f) 31 false s)), by decide⟩,
   ⟨0, (let f : Nat := 0; let s : State := node; let s : State := (wrBit (O.SAF_FN_CFG f) 31 false s); wr O.SAF_FN_STATE 0xFFFFFFFF s), by decide⟩,
   ⟨0, (let f : Nat := 0; let s : State := node; (wrBit (O.SAF_FN_CFG f) 31 true s)), by decide⟩,
   ⟨0, (let s : State := node; (wr O.FIO_LINK_STATE (1 + 1) s)), by decide⟩,
   ⟨7, 5000, (let s : State := node; wr O.SAF_FN_STATE 0x20000000 { s with saf := { s.saf with fns := List.replicate 8 { FnSt.init with discAt := some 5000 } } }), by decide⟩,
   ⟨7, 5000, (let s : State := node; wr O.SAF_FN_STATE 0x10000000 { s with saf := { s.saf with fns := List.replicate 8 { FnSt.init with discAt := some 5000 } } }), by decide⟩,
   ⟨0, node, by decide⟩,
   ⟨((7 + 1) : Nat), (let s : State := node; (wr O.SYS_RECOVERY 0 s)), by decide⟩,
   ⟨0, (let s : State := node; (wr O.SYS_RECOVERY 0 s)), by decide⟩,
   ⟨7, (let s : State := node; let s : State := (wr O.SYS_RECOVERY 0 s); wr O.SAF_FN_STATE 0x40000000 s), by decide⟩,
   ⟨(let s : State := apex; let s : State := (wr O.SYS_RECOVERY 0 s); wr O.CEL_ARM_DEBLOCK 1 s), by decide⟩,
   ⟨(let s : State := node; (wr O.SYS_RECOVERY 0 s)), by decide⟩,
   ⟨(let s : State := node; let s : State := (wr O.SYS_RECOVERY 0 s); (wr O.SAF_STATE (1 + 1) s)), by decide⟩,
   ⟨confirmed (safCheck node + 1) node, by decide, by decide, confirmed_differs node⟩,
   ⟨confirmed (safCheck commissioning) commissioning, by decide, by decide, by decide, confirmed_agrees commissioning⟩,
   ⟨(let s : State := node; (wr O.SYS_RECOVERY (0 + 1) s)), by decide⟩,
   ⟨0, (let x : Nat := 0; let s : State := node; let s : State := ({ s with saf := { s.saf with degEnd := some x } }); (wr O.SAF_STATE 3 s)), by decide⟩,
   ⟨(let s : State := node; (wr O.SAF_STATE (3 + 1) s)), by decide⟩,
   ⟨(let s : State := node; ({ s with saf := { s.saf with degEnd := none } })), by decide⟩,
   ⟨0, (let x : Nat := 0; let s : State := node; let s : State := ({ s with saf := { s.saf with noCauseAt := some x } }); (wr O.SAF_STATE 3 s)), by decide⟩,
   ⟨(let s : State := node; ({ s with saf := { s.saf with noCauseAt := none } })), by decide⟩,
   ⟨(let s : State := node; wr (O.KET_REACT 200) 128 { s with ket := { s.ket with live := [200] } }), by decide⟩,
   ⟨(let s : State := apex; (wr O.SYS_RECOVERY 0 s)), by decide⟩,
   ⟨(let s : State := node; (wr O.SYS_RECOVERY 0 s)), by decide⟩,
   ⟨(let s : State := node; { s with saf := { s.saf with expired := true } }), by decide⟩,
   ⟨node, by decide⟩,
   ⟨0, (let x : Nat := 0; let s : State := node; let s : State := ({ s with saf := { s.saf with relAt := some x } }); let s : State := ({ s with saf := { s.saf with relLeft := 1 } }); wr O.SAF_FN_STATE 0x40000000 s), by decide⟩,
   ⟨(let s : State := node; ({ s with saf := { s.saf with relAt := none } })), by decide⟩,
   ⟨(let s : State := node; ({ s with saf := { s.saf with relLeft := 0 } })), by decide⟩,
   ⟨(let s : State := node; (wr O.RED_MODE 0 s)), by decide⟩,
   ⟨(let s : State := node; (wr O.RED_MODE 1 s)), by decide⟩,
   ⟨0, apex, by decide⟩,
   ⟨((63 + 1) : Nat), by decide⟩,
   ⟨0, (let q : Nat := 0; let s : State := node; ({ s with saf := { s.saf with rseqSeen := some q } })), by decide⟩,
   ⟨0, node, by decide⟩⟩

/-- Obligations.TasksRunAndEnd: the hypotheses of its clauses can be met. -/
theorem witness_TasksRunAndEnd :
    (∃ (n : Nat) (s : State), n < 256 ∧ rd O.SYS_RECOVERY s ≠ 0) ∧
    (∃ (n : Nat) (s : State), rd (O.TSK_KIND n) s = 0) ∧
    (∃ (n : Nat) (s : State), rd (O.TSK_ENTRY n) s % 2 = 1) ∧
    (∃ (n : Nat) (s : State), rd (O.TSK_ENTRY n) s < 0x10000000) ∧
    (∃ (n : Nat) (s : State), rd (O.TSK_STACK n) s % 4 ≠ 0) ∧
    (∃ (n : Nat) (s : State), rd (O.TSK_STACK n) s < 0x20000000) ∧
    (∃ (n : Nat) (s : State), rd (O.TSK_DIV n) s ≤ rd (O.TSK_PHASE n) s) ∧
    (∃ (n : Nat) (s : State), rd O.TIM_PERIOD s ≤ rd (O.TSK_OFFSET n) s) ∧
    (∃ (n : Nat) (s : State), (rd (O.TSK_KIND n) s = 2 ∧ rd (O.TSK_INTERVAL n) s * rd O.TSK_TICK s < rd (O.TSK_DEADLINE n) s)) ∧
    (∃ (n : Nat) (s : State), (rd (O.TSK_KIND n) s = 1 ∧ rd (O.TSK_DIV n) s * tOf (kNow s) s < rd (O.TSK_DEADLINE n) s)) ∧
    (∃ (n : Nat) (s : State), rd O.TSK_COMMIT_FREE s < rd (O.TSK_COMMIT_MAX n) s) ∧
    (∃ (n : Nat) (s : State), 16 ≤ n ∧ n < 256 ∧ taskState n s = 0 ∧ enableRefused n s = true) ∧
    (∃ (n : Nat) (s : State), rd O.SYS_RECOVERY s = 0 ∧ 16 ≤ n ∧ n < 256 ∧ taskState n s = 0 ∧ enableRefused n s = false) ∧
    (∃ (n : Nat) (s : State), rd O.SYS_RECOVERY s = 0 ∧ 16 ≤ n ∧ n < 256 ∧ taskState n s ≠ 0) ∧
    (∃ (c : Nat) (n : Nat) (s : State), coreTask c s ≠ 0xFFFF ∧ n < 256) ∧
    (∃ (n : Nat), 256 ≤ n) ∧
    (∃ (n : Nat) (s : State), rd (O.TSK_KIND n) s ≠ 3) ∧
    (∃ (n : Nat) (s : State), rd (O.TSK_EVENT n) s ≠ 0) ∧
    (∃ (n : Nat) (s : State), rd (O.TSK_KIND n) s = 3 ∧ rd (O.TSK_EVENT n) s = 0 ∧ taskState n s ≠ 0) ∧
    (∃ (n : Nat) (s : State), (16 ≤ n ∧ appLeftOut s = true)) ∧
    (∃ (n : Nat) (s : State), (2 ≤ taskState n s ∧ rd (O.TSK_KIND n) s ≠ 3)) ∧
    (∃ (n : Nat) (s : State), n < 256 ∧ n < 16 ∧ taskState n s = 1) ∧
    (∃ (n : Nat) (s : State), n < 256 ∧ appLeftOut s = false ∧ taskState n s = 1) ∧
    (∃ (n : Nat) (s : State), n < 256 ∧ n < 16 ∧ rd (O.TSK_KIND n) s = 3 ∧ 2 ≤ taskState n s ∧ taskPending n s = false) ∧
    (∃ (n : Nat) (s : State), n < 256 ∧ appLeftOut s = false ∧ rd (O.TSK_KIND n) s = 3 ∧ 2 ≤ taskState n s ∧ taskPending n s = false) ∧
    (∃ (n : Nat) (s : State), n < 256 ∧ n < 16 ∧ rd (O.TSK_KIND n) s = 3 ∧ 2 ≤ taskState n s ∧ taskPending n s = true) ∧
    (∃ (n : Nat) (s : State), n < 256 ∧ appLeftOut s = false ∧ rd (O.TSK_KIND n) s = 3 ∧ 2 ≤ taskState n s ∧ taskPending n s = true) ∧
    (∃ (n : Nat) (r : TaskRec) (s : State), r ∈ s.tsk.tasks ∧ r.n = n ∧ 16 ≤ n ∧ taskState n s ≠ 0) ∧
    (∃ (v : Nat) (s : State), rd O.SYS_RECOVERY s = 0 ∧ (∀ r ∈ s.tsk.tasks, r.n < 16 ∨ taskState r.n s = 0) ∧ v < 100) ∧
    (∃ (v : Nat) (s : State), rd O.SYS_RECOVERY s = 0 ∧ (∀ r ∈ s.tsk.tasks, r.n < 16 ∨ taskState r.n s = 0) ∧ 40000 < v) ∧
    (∃ (v : Nat) (s : State), rd O.SYS_RECOVERY s = 0 ∧ (∀ r ∈ s.tsk.tasks, r.n < 16 ∨ taskState r.n s = 0) ∧ 100 ≤ v ∧ v ≤ 40000) ∧
    (∃ (t : Nat) (c : Nat) (s : State), chooseCore t s = some c) ∧
    (∃ (t : Nat) (c : Nat) (s : State), c ∈ liveCores s ∧ bit (rd (O.TSK_AFFINITY t) s) c = true ∧ coreTask c s = 0xFFFF ∧ rd (O.TSK_LAST_CORE t) s = c) ∧
    (∃ (t : Nat) (c : Nat) (s : State), t < 256 ∧ c < 8 ∧ coreTask c s = 0xFFFF ∧ coreDeck c s = t) ∧
    (∃ (n : Nat) (s : State), taskState n s < 2) ∧
    (∃ (n : Nat) (cause : Nat) (s : State), n < 256 ∧ 1 ≤ cause ∧ cause ≤ 4 ∧ 2 ≤ taskState n s ∧ taskPending n s = false) ∧
    (∃ (c : Nat) (s : State), taskRec? (coreTask c s) s = none) ∧
    (∃ (c : Nat) (n : Nat) (r : TaskRec) (s : State), coreTask c s = n ∧ taskRec? n s = some r ∧ (∃ d, deadlineAt r s = some d ∧ d ≤ s.tick)) ∧
    (∃ (c : Nat) (n : Nat) (r : TaskRec) (s : State), coreTask c s = n ∧ taskRec? n s = some r ∧ (∀ d, deadlineAt r s = some d → s.tick < d) ∧ rd (O.TSK_COMMIT_MAX n) s < r.buf.length) ∧
    (∃ (c : Nat) (n : Nat) (r : TaskRec) (s : State), coreTask c s = n ∧ taskRec? n s = some r ∧ (∀ d, deadlineAt r s = some d → s.tick < d) ∧ r.buf.length ≤ rd (O.TSK_COMMIT_MAX n) s) ∧
    (∃ (a : Nat), 0x24000000 ≤ a ∧ a < 0x28000000) ∧
    (∃ (a : Nat), 0x44000000 ≤ a ∧ 32 < objBits (winKey (a - 0x44000000))) ∧
    (∃ (a : Nat), 0x44000000 ≤ a ∧ objBits (winKey (a - 0x44000000)) ≤ 32) ∧
    (∃ (n : Nat), n = 0) ∧
    (∃ (n : Nat), 2 ^ 24 ≤ n) ∧
    (∃ (c : Nat) (n : Nat) (t : Nat) (s : State), coreTask c s = t ∧ t < 256 ∧ c < 8 ∧ 1 ≤ n ∧ n < 2 ^ 24) ∧
    (∃ (n : Nat) (d : Nat) (r : TaskRec) (s : State), taskRec? n s = some r ∧ 2 ≤ taskState n s ∧ deadlineAt r s = some d) ∧
    (∃ (n : Nat) (s : State), taskRec? n s = none) ∧
    (∃ (n : Nat) (s : State), (∃ r, taskRec? n s = some r ∧ deadlineAt r s = none)) ∧
    (∃ (r : TaskRec) (s : State) (d : Nat), d = rd (O.TSK_DEADLINE r.n) s ∧ rd (O.TSK_KIND r.n) s = 3) ∧
    (∃ (r : TaskRec) (s : State) (d : Nat), d = rd (O.TSK_DEADLINE r.n) s ∧ rd (O.TSK_KIND r.n) s = 2) ∧
    (∃ (r : TaskRec) (s : State) (d : Nat), d = rd (O.TSK_DEADLINE r.n) s ∧ rd (O.TSK_KIND r.n) s = 1) :=
  ⟨⟨0, (let s : State := node; (wr O.SYS_RECOVERY (0 + 1) s)), by decide⟩,
   ⟨255, (let n : Nat := 255; let s : State := node; let s : State := (wr (O.TSK_KIND n) 0 s); wr (O.TSK_KIND n) 0 s), by decide⟩,
   ⟨255, (let n : Nat := 255; let s : State := node; wr (O.TSK_ENTRY n) 0x10000001 s), by decide⟩,
   ⟨255, (let n : Nat := 255; let s : State := node; let s : State := (wr (O.TSK_ENTRY n) (0x10000000 - 1) s); wr (O.TSK_ENTRY n) 0xFFFFFFE s), by decide⟩,
   ⟨255, (let n : Nat := 255; let s : State := node; wr (O.TSK_STACK n) 0x20000101 s), by decide⟩,
   ⟨255, (let n : Nat := 255; let s : State := node; let s : State := (wr (O.TSK_STACK n) (0x20000000 - 1) s); wr (O.TSK_STACK n) 0x1FFFFFFC s), by decide⟩,
   ⟨255, (let n : Nat := 255; let s : State := node; let s : State := (wr (O.TSK_PHASE n) (rd (O.TSK_DIV n) s) s); wr (O.TSK_KIND n) 0 s), by decide⟩,
   ⟨255, (let n : Nat := 255; let s : State := node; let s : State := (wr (O.TSK_OFFSET n) (rd O.TIM_PERIOD s) s); wr (O.TSK_KIND n) 0 s), by decide⟩,
   ⟨255, (let n : Nat := 255; let s : State := node; let s : State := (wr (O.TSK_KIND n) 2 s); let s : State := (wr (O.TSK_DEADLINE n) (rd (O.TSK_INTERVAL n) s * rd O.TSK_TICK s + 1) s); wr (O.TSK_KIND n) 2 (wr (O.TSK_INTERVAL n) 10 (wr O.TSK_TICK 400 (wr (O.TSK_DEADLINE n) 4001 s)))), by decide⟩,
   ⟨255, (let n : Nat := 255; let s : State := node; let s : State := (wr (O.TSK_KIND n) 1 s); let s : State := (wr (O.TSK_DEADLINE n) (rd (O.TSK_DIV n) s * tOf (kNow s) s + 1) s); wr (O.TSK_KIND n) 1 (wr (O.TSK_DIV n) 10 (wr O.TIM_PERIOD 400 (wr (O.TSK_DEADLINE n) 4001 s)))), by decide⟩,
   ⟨255, (let n : Nat := 255; let s : State := node; let s : State := (wr (O.TSK_COMMIT_MAX n) (rd O.TSK_COMMIT_FREE s + 1) s); wr (O.TSK_KIND n) 0 s), by decide⟩,
   ⟨16, (let n : Nat := 16; let s : State := node; (wr (O.TSK_STATE n) 0 s)), by decide⟩,
   ⟨255, (let n : Nat := 255; let s : State := node; let s : State := (wr O.SYS_RECOVERY 0 s); let s : State := (wr (O.TSK_STATE n) 0 s); (wr O.TSK_COMMIT_FREE 50 (wr (O.TSK_COMMIT_MAX n) 50 (wr (O.TSK_STACK n) 0x20000100 (wr (O.TSK_ENTRY n) 0x10000000 (wr (O.TSK_KIND n) 1 (wr (O.TSK_DIV n) 1 (wr (O.TSK_PHASE n) 0 (wr (O.TSK_OFFSET n) 0 (wr (O.TSK_DEADLINE n) 0 (wr (O.TSK_STATE n) 0 { s with tsk := { s.tsk with tasks := [] } }))))))))))), by decide⟩,
   ⟨16, (let n : Nat := 16; let s : State := node; let s : State := (wr O.SYS_RECOVERY 0 s); (wr (O.TSK_STATE n) (0 + 1) s)), by decide⟩,
   ⟨0, 0, (let c : Nat := 0; let s : State := node; (wr (O.TSK_CORE_TASK c) (0xFFFF + 1) s)), by decide⟩,
   ⟨256, by decide⟩,
   ⟨0, (let n : Nat := 0; let s : State := node; (wr (O.TSK_KIND n) (3 + 1) s)), by decide⟩,
   ⟨0, (let n : Nat := 0; let s : State := node; (wr (O.TSK_EVENT n) (0 + 1) s)), by decide⟩,
   ⟨0, (let n : Nat := 0; let s : State := node; let s : State := (wr (O.TSK_KIND n) 3 s); let s : State := (wr (O.TSK_EVENT n) 0 s); (wr (O.TSK_STATE n) (0 + 1) s)), by decide⟩,
   ⟨16, (let s : State := cell; wr O.NVM_RUN_SLOT 0 (stByte (slotBase 0 + 23) 1 { s with nvm := { s.nvm with factory := [] } })), by decide⟩,
   ⟨0, (let n : Nat := 0; let s : State := node; let s : State := (wr (O.TSK_STATE n) 2 s); (wr (O.TSK_KIND n) (3 + 1) s)), by decide⟩,
   ⟨0, (let n : Nat := 0; let s : State := node; (wr (O.TSK_STATE n) 1 s)), by decide⟩,
   ⟨0, (let n : Nat := 0; let s : State := node; (wr (O.TSK_STATE n) 1 s)), by decide⟩,
   ⟨0, (let n : Nat := 0; let s : State := node; let s : State := (wr (O.TSK_KIND n) 3 s); let s : State := (wr (O.TSK_STATE n) 2 s); (wrBit (O.TSK_STATE n) 7 false s)), by decide⟩,
   ⟨0, (let n : Nat := 0; let s : State := node; let s : State := (wr (O.TSK_KIND n) 3 s); let s : State := (wr (O.TSK_STATE n) 2 s); (wrBit (O.TSK_STATE n) 7 false s)), by decide⟩,
   ⟨0, (let n : Nat := 0; let s : State := node; let s : State := (wr (O.TSK_KIND n) 3 s); let s : State := (wr (O.TSK_STATE n) 2 s); (wrBit (O.TSK_STATE n) 7 true s)), by decide⟩,
   ⟨0, (let n : Nat := 0; let s : State := node; let s : State := (wr (O.TSK_KIND n) 3 s); let s : State := (wr (O.TSK_STATE n) 2 s); (wrBit (O.TSK_STATE n) 7 true s)), by decide⟩,
   ⟨16, (let n : Nat := 16; let r : TaskRec := dTaskRec; ({ r with n := n })), (let n : Nat := 16; let r : TaskRec := dTaskRec; let r : TaskRec := ({ r with n := n }); let s : State := node; let s : State := ({ s with tsk := { s.tsk with tasks := [r] } }); (wr (O.TSK_STATE n) (0 + 1) s)), by decide⟩,
   ⟨0, (let s : State := node; (wr O.SYS_RECOVERY 0 s)), by decide⟩,
   ⟨((40000 + 1) : Nat), (let s : State := node; (wr O.SYS_RECOVERY 0 s)), by decide⟩,
   ⟨100, (let s : State := node; (wr O.SYS_RECOVERY 0 s)), by decide⟩,
   ⟨0, 0, node, by decide⟩,
   ⟨0, 0, (let t : Nat := 0; let c : Nat := 0; let s : State := node; let s : State := (wrBit (O.TSK_AFFINITY t) c true s); let s : State := (wr (O.TSK_CORE_TASK c) 0xFFFF s); (wr (O.TSK_LAST_CORE t) c s)), by decide⟩,
   ⟨0, 0, (let t : Nat := 0; let c : Nat := 0; let s : State := node; let s : State := (wr (O.TSK_CORE_TASK c) 0xFFFF s); (wr (O.TSK_CORE_ONDECK c) t s)), by decide⟩,
   ⟨0, node, by decide⟩,
   ⟨0, 1, (let n : Nat := 0; let s : State := node; let s : State := (wr (O.TSK_STATE n) 2 s); (wrBit (O.TSK_STATE n) 7 false s)), by decide⟩,
   ⟨0, node, by decide⟩,
   ⟨0, 0, dTaskRec, (let c : Nat := 0; let n : Nat := 0; let r : TaskRec := dTaskRec; let s : State := node; let s : State := (wr (O.TSK_CORE_TASK c) n s); { s with tsk := { s.tsk with tasks := [{ r with n := n }] } }), by decide⟩,
   ⟨0, 0, (({ rec0 0 with rel := 5, buf := [(0x44000000, 1)] }) : TaskRec), (let c : Nat := 0; let n : Nat := 0; let r : TaskRec := ({ rec0 0 with rel := 5, buf := [(0x44000000, 1)] }); let s : State := node; let s : State := (wr (O.TSK_CORE_TASK c) n s); let s : State := { s with tsk := { s.tsk with tasks := [{ r with n := n }] } }; let s : State := (wr (O.TSK_COMMIT_MAX n) (r.buf.length - 1) s); wr (O.TSK_CORE_TASK 0) 0 (wr (O.TSK_COMMIT_MAX 0) 0 (wr (O.TSK_KIND 0) 3 (wr (O.TSK_DEADLINE 0) 0 { s with tsk := { s.tsk with tasks := [{ rec0 0 with rel := 5, buf := [(0x44000000, 1)] }] } })))), by decide⟩,
   ⟨0, 0, (({ rec0 0 with rel := 5 }) : TaskRec), (let c : Nat := 0; let n : Nat := 0; let r : TaskRec := ({ rec0 0 with rel := 5 }); let s : State := node; let s : State := (wr (O.TSK_CORE_TASK c) n s); let s : State := { s with tsk := { s.tsk with tasks := [{ r with n := n }] } }; let s : State := (wr (O.TSK_COMMIT_MAX n) r.buf.length s); wr (O.TSK_CORE_TASK 0) 0 (wr (O.TSK_COMMIT_MAX 0) 0 (wr (O.TSK_KIND 0) 3 (wr (O.TSK_DEADLINE 0) 0 { s with tsk := { s.tsk with tasks := [{ rec0 0 with rel := 5 }] } })))), by decide⟩,
   ⟨0x24000000, by decide⟩,
   ⟨((0x44000000 + 0x1000 * 1024 + 4 * 3) : Nat), by decide⟩,
   ⟨0x44000000, by decide⟩,
   ⟨0, by decide⟩,
   ⟨(2 ^ 24 : Nat), by decide⟩,
   ⟨0, 1, 0, (let c : Nat := 0; let t : Nat := 0; let s : State := node; (wr (O.TSK_CORE_TASK c) t s)), by decide⟩,
   ⟨0, 0, dTaskRec, (let n : Nat := 0; let r : TaskRec := dTaskRec; let s : State := node; let s : State := { s with tsk := { s.tsk with tasks := [{ r with n := n }] } }; (wr (O.TSK_STATE n) 2 s)), by decide⟩,
   ⟨0, node, by decide⟩,
   ⟨0, (let s : State := node; wr (O.TSK_KIND 0) 3 (wr (O.TSK_DEADLINE 0) 0 (wr (O.TSK_STATE 0) 2 { s with tsk := { s.tsk with tasks := [{ rec0 0 with rel := 5 }] } }))), by decide⟩,
   ⟨dTaskRec, (let r : TaskRec := dTaskRec; let s : State := node; (wr (O.TSK_KIND r.n) 3 s)), (let r : TaskRec := dTaskRec; let s : State := node; let s : State := (wr (O.TSK_KIND r.n) 3 s); rd (O.TSK_DEADLINE r.n) s), by decide⟩,
   ⟨dTaskRec, (let r : TaskRec := dTaskRec; let s : State := node; (wr (O.TSK_KIND r.n) 2 s)), (let r : TaskRec := dTaskRec; let s : State := node; let s : State := (wr (O.TSK_KIND r.n) 2 s); rd (O.TSK_DEADLINE r.n) s), by decide⟩,
   ⟨dTaskRec, (let r : TaskRec := dTaskRec; let s : State := node; (wr (O.TSK_KIND r.n) 1 s)), (let r : TaskRec := dTaskRec; let s : State := node; let s : State := (wr (O.TSK_KIND r.n) 1 s); rd (O.TSK_DEADLINE r.n) s), by decide⟩⟩

/-- Obligations.AccessesAndReleases: the hypotheses of its clauses can be met. -/
theorem witness_AccessesAndReleases :
    (∃ (c : Nat) (s : State), coreTask c s = 0xFFFF) ∧
    (∃ (size : Nat), (size ≠ 1 ∧ size ≠ 2 ∧ size ≠ 4)) ∧
    (∃ (c : Nat) (a : Nat) (size : Nat) (s : State), coreTask c s ≠ 0xFFFF ∧ size = 2 ∧ a % size ≠ 0) ∧
    (∃ (c : Nat) (a : Nat) (size : Nat) (s : State), coreTask c s ≠ 0xFFFF ∧ size = 4 ∧ a % size ≠ 0) ∧
    (∃ (c : Nat) (a : Nat) (v : Option Nat) (size : Nat) (s : State), coreTask c s ≠ 0xFFFF ∧ size = 1 ∧ a % size = 0 ∧ mapAccess c (coreTask c s) a size v s = none) ∧
    (∃ (c : Nat) (a : Nat) (v : Option Nat) (size : Nat) (s : State), coreTask c s ≠ 0xFFFF ∧ size = 2 ∧ a % size = 0 ∧ mapAccess c (coreTask c s) a size v s = none) ∧
    (∃ (c : Nat) (a : Nat) (v : Option Nat) (size : Nat) (s : State), coreTask c s ≠ 0xFFFF ∧ size = 4 ∧ a % size = 0 ∧ mapAccess c (coreTask c s) a size v s = none) ∧
    (∃ (c : Nat) (a : Nat) (size : Nat) (v : Option Nat) (s : State) (t : State) (x : Nat), coreTask c s ≠ 0xFFFF ∧ size = 1 ∧ a % size = 0 ∧ mapAccess c (coreTask c s) a size v s = some (x, t)) ∧
    (∃ (c : Nat) (a : Nat) (size : Nat) (v : Option Nat) (s : State) (t : State) (x : Nat), coreTask c s ≠ 0xFFFF ∧ size = 2 ∧ a % size = 0 ∧ mapAccess c (coreTask c s) a size v s = some (x, t)) ∧
    (∃ (c : Nat) (a : Nat) (size : Nat) (v : Option Nat) (s : State) (t : State) (x : Nat), coreTask c s ≠ 0xFFFF ∧ size = 4 ∧ a % size = 0 ∧ mapAccess c (coreTask c s) a size v s = some (x, t)) ∧
    (∃ (c : Nat) (a : Nat) (s : State), coreTask c s ≠ 0xFFFF ∧ a % 4 = 0 ∧ (0x10000000 ≤ a ∧ a < 0x10080000)) ∧
    (∃ (c : Nat) (a : Nat) (s : State), coreTask c s ≠ 0xFFFF ∧ a % 4 = 0 ∧ (0x30000000 ≤ a ∧ a < 0x40000000)) ∧
    (∃ (c : Nat) (a : Nat) (s : State), coreTask c s ≠ 0xFFFF ∧ a % 4 = 0 ∧ (16 ≤ coreTask c s ∧ 0x20000000 ≤ a ∧ a < 0x20040000)) ∧
    (∃ (c : Nat) (a : Nat) (s : State), coreTask c s ≠ 0xFFFF ∧ a % 4 = 0 ∧ a = 0x4C000020) ∧
    (∃ (c : Nat) (a : Nat) (s : State), coreTask c s ≠ 0xFFFF ∧ 0x24000000 ≤ a ∧ a < 0x24400000) ∧
    (∃ (c : Nat) (a : Nat) (s : State), c < 8 ∧ coreTask c s ≠ 0xFFFF ∧ a % 4 = 0 ∧ 0x28000000 ≤ a ∧ a < 0x28010000) ∧
    (∃ (c : Nat) (a : Nat) (s : State), coreTask c s ≠ 0xFFFF ∧ a % 4 = 0 ∧ 0x20100000 ≤ a ∧ a < 0x20400000 ∧ isNode s = true) ∧
    (∃ (c : Nat) (a : Nat) (r : TaskRec) (s : State), coreTask c s ≠ 0xFFFF ∧ a % 4 = 0 ∧ 0x44000000 ≤ a ∧ a < 0x48000000 ∧ taskRec? (coreTask c s) s = some r ∧ r.buf.length < rd (O.TSK_COMMIT_MAX (coreTask c s)) s) ∧
    (∃ (c : Nat) (a : Nat) (r : TaskRec) (s : State), c < s.tsk.ports.length ∧ coreTask c s ≠ 0xFFFF ∧ a % 4 = 0 ∧ 0x44000000 ≤ a ∧ a < 0x48000000 ∧ taskRec? (coreTask c s) s = some r ∧ rd (O.TSK_COMMIT_MAX (coreTask c s)) s ≤ r.buf.length) ∧
    (∃ (n : Nat) (s : State), taskState n s = 0) ∧
    (∃ (n : Nat) (s : State), rd (O.TSK_KIND n) s ≠ 1) ∧
    (∃ (s : State), hasGrid s = false) ∧
    (∃ (n : Nat) (s : State), taskState n s ≠ 0 ∧ rd (O.TSK_KIND n) s = 1 ∧ hasGrid s = true) ∧
    (∃ (n : Nat) (r : TaskRec) (k : Nat) (s : State), 0 < rd (O.TSK_DIV n) s ∧ rd (O.TSK_PHASE n) s < rd (O.TSK_DIV n) s ∧ taskRec? n s = some r ∧ r.lastK = some k) ∧
    (∃ (s : State), (∀ r ∈ s.tsk.tasks, r.nextTick = none ∧ r.wake = none)) ∧
    (∃ (n : Nat) (x : Nat) (r : TaskRec) (s : State), n < 256 ∧ s.tsk.tasks = [r] ∧ r.n = n ∧ r.nextTick = none ∧ r.wake = some x ∧ x ≤ s.tick / max (rd O.TSK_TICK s) 1 + 1 ∧ taskState n s = 5) ∧
    (∃ (n : Nat) (s : State), taskState n s ≠ 1) ∧
    (∃ (n : Nat) (s : State), nextRelease n s = none) ∧
    (∃ (n : Nat) (t : Nat) (s : State), taskState n s = 1 ∧ nextRelease n s = some t) ∧
    (∃ (c : Nat) (s : State), deckChoice c s ≠ 0xFFFF) :=
  ⟨⟨0, (let c : Nat := 0; let s : State := node; (wr (O.TSK_CORE_TASK c) 0xFFFF s)), by decide⟩,
   ⟨3, by decide⟩,
   ⟨0, 3, 2, (let c : Nat := 0; let s : State := node; (wr (O.TSK_CORE_TASK c) (0xFFFF + 1) s)), by decide⟩,
   ⟨0, 2, 4, (let c : Nat := 0; let s : State := node; (wr (O.TSK_CORE_TASK c) (0xFFFF + 1) s)), by decide⟩,
   ⟨0, 0, none, 1, (let c : Nat := 0; let s : State := node; (wr (O.TSK_CORE_TASK c) (0xFFFF + 1) s)), by decide⟩,
   ⟨0, 0, none, 2, (let c : Nat := 0; let s : State := node; (wr (O.TSK_CORE_TASK c) (0xFFFF + 1) s)), by decide⟩,
   ⟨0, 0, none, 4, (let c : Nat := 0; let s : State := node; (wr (O.TSK_CORE_TASK c) (0xFFFF + 1) s)), by decide⟩,
   ⟨0, 0x28000000, 1, ((some 5) : Option Nat), (let c : Nat := 0; let s : State := node; let s : State := (wr (O.TSK_CORE_TASK c) (0xFFFF + 1) s); wr (O.TSK_CORE_TASK 0) 20 s), (let c : Nat := 0; let a : Nat := 0x28000000; let size : Nat := 1; let v : Option Nat := (some 5); let s : State := node; let s : State := (wr (O.TSK_CORE_TASK c) (0xFFFF + 1) s); let s : State := wr (O.TSK_CORE_TASK 0) 20 s; ((mapAccess c (coreTask c s) a size v s).getD (0,s)).2), (let c : Nat := 0; let a : Nat := 0x28000000; let size : Nat := 1; let v : Option Nat := (some 5); let s : State := node; let s : State := (wr (O.TSK_CORE_TASK c) (0xFFFF + 1) s); let s : State := wr (O.TSK_CORE_TASK 0) 20 s; ((mapAccess c (coreTask c s) a size v s).getD (0,s)).1), by decide⟩,
   ⟨0, 0x28000000, 2, ((some 5) : Option Nat), (let c : Nat := 0; let s : State := node; let s : State := (wr (O.TSK_CORE_TASK c) (0xFFFF + 1) s); wr (O.TSK_CORE_TASK 0) 20 s), (let c : Nat := 0; let a : Nat := 0x28000000; let size : Nat := 2; let v : Option Nat := (some 5); let s : State := node; let s : State := (wr (O.TSK_CORE_TASK c) (0xFFFF + 1) s); let s : State := wr (O.TSK_CORE_TASK 0) 20 s; ((mapAccess c (coreTask c s) a size v s).getD (0,s)).2), (let c : Nat := 0; let a : Nat := 0x28000000; let size : Nat := 2; let v : Option Nat := (some 5); let s : State := node; let s : State := (wr (O.TSK_CORE_TASK c) (0xFFFF + 1) s); let s : State := wr (O.TSK_CORE_TASK 0) 20 s; ((mapAccess c (coreTask c s) a size v s).getD (0,s)).1), by decide⟩,
   ⟨0, 0x28000000, 4, ((some 5) : Option Nat), (let c : Nat := 0; let s : State := node; let s : State := (wr (O.TSK_CORE_TASK c) (0xFFFF + 1) s); wr (O.TSK_CORE_TASK 0) 20 s), (let c : Nat := 0; let a : Nat := 0x28000000; let size : Nat := 4; let v : Option Nat := (some 5); let s : State := node; let s : State := (wr (O.TSK_CORE_TASK c) (0xFFFF + 1) s); let s : State := wr (O.TSK_CORE_TASK 0) 20 s; ((mapAccess c (coreTask c s) a size v s).getD (0,s)).2), (let c : Nat := 0; let a : Nat := 0x28000000; let size : Nat := 4; let v : Option Nat := (some 5); let s : State := node; let s : State := (wr (O.TSK_CORE_TASK c) (0xFFFF + 1) s); let s : State := wr (O.TSK_CORE_TASK 0) 20 s; ((mapAccess c (coreTask c s) a size v s).getD (0,s)).1), by decide⟩,
   ⟨0, 0x10000000, (let c : Nat := 0; let s : State := node; (wr (O.TSK_CORE_TASK c) (0xFFFF + 1) s)), by decide⟩,
   ⟨0, 0x30000000, (let c : Nat := 0; let s : State := node; (wr (O.TSK_CORE_TASK c) (0xFFFF + 1) s)), by decide⟩,
   ⟨0, 0x20000000, (let c : Nat := 0; let s : State := node; let s : State := (wr (O.TSK_CORE_TASK c) (0xFFFF + 1) s); (wr (O.TSK_CORE_TASK c) 16 s)), by decide⟩,
   ⟨0, 0x4C000020, (let c : Nat := 0; let s : State := node; (wr (O.TSK_CORE_TASK c) (0xFFFF + 1) s)), by decide⟩,
   ⟨0, 0x24000000, (let c : Nat := 0; let s : State := node; (wr (O.TSK_CORE_TASK c) (0xFFFF + 1) s)), by decide⟩,
   ⟨0, 0x28000000, (let c : Nat := 0; let s : State := node; (wr (O.TSK_CORE_TASK c) (0xFFFF + 1) s)), by decide⟩,
   ⟨0, 0x20100000, (let c : Nat := 0; let s : State := node; (wr (O.TSK_CORE_TASK c) (0xFFFF + 1) s)), by decide⟩,
   ⟨0, 0x44000000, (rec0 16 : TaskRec), (let c : Nat := 0; let r : TaskRec := rec0 16; let s : State := node; let s : State := (wr (O.TSK_CORE_TASK c) (0xFFFF + 1) s); let s : State := (wr (O.TSK_COMMIT_MAX (coreTask c s)) (r.buf.length + 1) s); { (wr (O.TSK_COMMIT_MAX 16) 1 (wr (O.TSK_CORE_TASK c) 16 s)) with tsk := { s.tsk with tasks := [rec0 16] } }), by decide⟩,
   ⟨0, 0x44000000, (rec0 16 : TaskRec), (let c : Nat := 0; let r : TaskRec := rec0 16; let s : State := node; let s : State := (wr (O.TSK_CORE_TASK c) (0xFFFF + 1) s); let s : State := (wr (O.TSK_COMMIT_MAX (coreTask c s)) r.buf.length s); { (wr (O.TSK_COMMIT_MAX 16) 0 (wr (O.TSK_CORE_TASK c) 16 s)) with tsk := { s.tsk with tasks := [rec0 16] } }), by decide⟩,
   ⟨0, (let n : Nat := 0; let s : State := node; (wr (O.TSK_STATE n) 0 s)), by decide⟩,
   ⟨0, (let n : Nat := 0; let s : State := node; (wr (O.TSK_KIND n) (1 + 1) s)), by decide⟩,
   ⟨node, by decide⟩,
   ⟨0, (let n : Nat := 0; let s : State := node; let s : State := (wr (O.TSK_STATE n) (0 + 1) s); let s : State := (wr (O.TSK_KIND n) 1 s); (grid s)), by decide⟩,
   ⟨16, ({ rec0 16 with lastK := some 5 } : TaskRec), 5, (let n : Nat := 16; let r : TaskRec := { rec0 16 with lastK := some 5 }; let s : State := node; let s : State := (wr (O.TSK_DIV n) (0 + 1) s); let s : State := (wr (O.TSK_DIV n) (rd (O.TSK_PHASE n) s + 1) s); let s : State := { s with tsk := { s.tsk with tasks := [{ r with n := n }] } }; { (wr (O.TSK_PHASE 16) 1 (wr (O.TSK_DIV 16) 2 s)) with tsk := { s.tsk with tasks := [{ rec0 16 with lastK := some 5 }] } }), by decide⟩,
   ⟨node, by decide⟩,
   ⟨0, 0, (let n : Nat := 0; let x : Nat := 0; let r : TaskRec := dTaskRec; let r : TaskRec := ({ r with n := n }); let r : TaskRec := ({ r with nextTick := none }); ({ r with wake := some x })), (let n : Nat := 0; let x : Nat := 0; let r : TaskRec := dTaskRec; let r : TaskRec := ({ r with n := n }); let r : TaskRec := ({ r with nextTick := none }); let r : TaskRec := ({ r with wake := some x }); let s : State := node; let s : State := ({ s with tsk := { s.tsk with tasks := [r] } }); (wr (O.TSK_STATE n) 5 s)), by decide⟩,
   ⟨0, (let n : Nat := 0; let s : State := node; (wr (O.TSK_STATE n) (1 + 1) s)), by decide⟩,
   ⟨0, node, by decide⟩,
   ⟨0, 50, (let n : Nat := 0; let s : State := node; let s : State := (wr (O.TSK_STATE n) 1 s); wr (O.TSK_STATE 0) 1 (wr (O.TSK_KIND 0) 2 (wr O.TSK_TICK 10 { s with tsk := { s.tsk with tasks := [{ rec0 0 with nextTick := some 5 }] } }))), by decide⟩,
   ⟨0, (let s : State := node; wr (O.TSK_PRIO 0) 3 (wr (O.TSK_AFFINITY 0) 255 (wr (O.TSK_STATE 0) 2 (wr (O.TSK_KIND 0) 3 { s with tsk := { s.tsk with order := [0], tasks := [rec0 0] } })))), by decide⟩⟩

/-- Obligations.DataMovers: the hypotheses of its clauses can be met. -/
theorem witness_DataMovers :
    (∃ (c : Nat) (s : State), isNode s = true ∧ rd O.SYS_RECOVERY s = 0 ∧ c = 0) ∧
    (∃ (c : Nat) (s : State), isNode s = true ∧ rd O.SYS_RECOVERY s = 0 ∧ c = 8) ∧
    (∃ (c : Nat) (s : State), isNode s = false ∧ c < 16) ∧
    (∃ (c : Nat), 16 ≤ c) ∧
    (∃ (c : Nat) (s : State), isNode s = true ∧ rd O.SYS_RECOVERY s ≠ 0 ∧ c < 16) ∧
    (∃ (c : Nat) (fw : Bool) (s : State), isNode s = true ∧ c < 16 ∧ fw = true ∧ chanState c s ≠ 2 ∧ chanState c s ≠ 3) ∧
    (∃ (c : Nat) (fw : Bool) (s : State), isNode s = true ∧ c < 16 ∧ fw = true ∧ chanState c s ≠ 2 ∧ rd (O.DMA_ERR_CODE c) s < 6) ∧
    (∃ (c : Nat) (s : State), isNode s = true ∧ c < 16 ∧ c % 8 ≠ 0 ∧ chanState c s ≠ 2 ∧ chanState c s ≠ 3) ∧
    (∃ (c : Nat) (s : State), isNode s = true ∧ c < 16 ∧ c % 8 ≠ 0 ∧ chanState c s ≠ 2 ∧ rd (O.DMA_ERR_CODE c) s < 6) ∧
    (∃ (c : Nat) (fw : Bool) (s : State), isNode s = true ∧ rd O.SYS_RECOVERY s = 0 ∧ c < 16 ∧ fw = true ∧ chanState c s = 0) ∧
    (∃ (c : Nat) (s : State), isNode s = true ∧ rd O.SYS_RECOVERY s = 0 ∧ c < 16 ∧ c % 8 ≠ 0 ∧ chanState c s = 0) ∧
    (∃ (c : Nat) (fw : Bool) (s : State), isNode s = true ∧ rd O.SYS_RECOVERY s = 0 ∧ c < 16 ∧ fw = true ∧ chanState c s = 1) ∧
    (∃ (c : Nat) (s : State), isNode s = true ∧ rd O.SYS_RECOVERY s = 0 ∧ c < 16 ∧ c % 8 ≠ 0 ∧ chanState c s = 1) ∧
    (∃ (c : Nat) (fw : Bool) (s : State), isNode s = true ∧ rd O.SYS_RECOVERY s = 0 ∧ c < 16 ∧ fw = true ∧ chanState c s ≠ 0 ∧ chanState c s ≠ 1) ∧
    (∃ (c : Nat) (s : State), isNode s = true ∧ rd O.SYS_RECOVERY s = 0 ∧ c < 16 ∧ c % 8 ≠ 0 ∧ chanState c s ≠ 0 ∧ chanState c s ≠ 1) ∧
    (∃ (c : Nat) (m : Nat) (st : Nat) (s : State) (u : State), dmaStop c m s = (none, u) ∧ st ≠ 2) ∧
    (∃ (c : Nat) (m : Nat) (s : State) (u : State), dmaStop c m s = (none, u) ∧ s.dma.pd.any (fun p => touches c p.1 s) = false) ∧
    (∃ (c : Nat) (m : Nat) (st : Nat) (s : State) (u : State), dmaStop c m s = (none, u) ∧ st = 2 ∧ s.dma.pd.any (fun p => touches c p.1 s) = true) ∧
    (∃ (c : Nat) (m : Nat) (s : State) (u : State) (o : Nat) (e : Nat), dmaStop c m s = (some (o, e), u)) ∧
    (∃ (c : Nat) (fw : Bool) (s : State), isNode s = true ∧ rd O.SYS_RECOVERY s = 0 ∧ c < 16 ∧ fw = true ∧ chanState c s = 2) ∧
    (∃ (c : Nat) (fw : Bool) (s : State), isNode s = true ∧ rd O.SYS_RECOVERY s = 0 ∧ c < 16 ∧ fw = true ∧ (chanState c s = 3 ∧ 6 ≤ rd (O.DMA_ERR_CODE c) s)) ∧
    (∃ (c : Nat) (s : State), isNode s = true ∧ rd O.SYS_RECOVERY s = 0 ∧ c < 16 ∧ c % 8 ≠ 0 ∧ chanState c s = 2) ∧
    (∃ (c : Nat) (s : State), isNode s = true ∧ rd O.SYS_RECOVERY s = 0 ∧ c < 16 ∧ c % 8 ≠ 0 ∧ (chanState c s = 3 ∧ 6 ≤ rd (O.DMA_ERR_CODE c) s)) ∧
    (∃ (c : Nat) (fw : Bool) (s : State) (n : Nat), isNode s = true ∧ rd O.SYS_RECOVERY s = 0 ∧ c < 16 ∧ fw = true ∧ chanState c s = 3 ∧ n = (chan c s).next % 2 ^ 40) ∧
    (∃ (c : Nat) (s : State) (n : Nat), isNode s = true ∧ rd O.SYS_RECOVERY s = 0 ∧ c < 16 ∧ c % 8 ≠ 0 ∧ chanState c s = 3 ∧ n = (chan c s).next % 2 ^ 40) ∧
    (∃ (c : Nat) (s : State), (chan c s).fetchAt = none) ∧
    (∃ (c : Nat) (s : State), (chan c s).cur ≠ none) ∧
    (∃ (c : Nat) (a : Nat) (s : State), c < 16 ∧ (chan c s).fetchAt = some a ∧ chanState c s = 1 ∧ (chan c s).cur = none) ∧
    (∃ (a : Nat), a % 64 ≠ 0) ∧
    (∃ (a : Nat) (s : State), dmaPlace a s = none) ∧
    (∃ (c : Nat) (a : Nat), c % 8 ≠ 0 ∧ a % 64 = 0 ∧ 0x20000000 ≤ a ∧ a < 0x20100000) ∧
    (∃ (c : Nat) (ctrl : Nat), c < 8 ∧ ctrl / 2 ^ 28 % 16 ≠ 0) ∧
    (∃ (c : Nat) (ctrl : Nat), 8 ≤ c ∧ ctrl / 2 ^ 26 % 4 ≠ 0) ∧
    (∃ (m : Nat), m = 0) ∧
    (∃ (m : Nat), 256 < m) ∧
    (∃ (c : Nat) (ctrl : Nat) (n : Nat), 8 ≤ c ∧ ctrl / 2 ^ 28 % 16 = 1 ∧ n ≠ 0) ∧
    (∃ (c : Nat) (o : Nat), c < 16 ∧ o < 2 ^ 32) ∧
    (∃ (c : Nat) (a : Nat) (b : Nat) (n : Nat) (d : DmaDesc) (s : State), c < 16 ∧ (chan c s).cur = some d ∧ chanState c s = 1 ∧ rd (O.DMA_CUR_OFFSET c) s = 0 ∧ d.op = 0 ∧ d.swap = 0 ∧ d.src = [(a, n)] ∧ d.dst = [(b, n)] ∧ d.snap = none ∧ 0x20100000 ≤ a ∧ a + n ≤ 0x20400000 ∧ 0x20100000 ≤ b ∧ b + n ≤ 0x20400000) ∧
    (∃ (c : Nat) (b : Nat) (n : Nat) (d : DmaDesc) (s : State), c < 16 ∧ (chan c s).cur = some d ∧ chanState c s = 1 ∧ rd (O.DMA_CUR_OFFSET c) s = 0 ∧ d.op = 1 ∧ d.src = [] ∧ d.dst = [(b, n)] ∧ (∀ x ∈ d.pattern, x < 256) ∧ 0x20100000 ≤ b ∧ b + n ≤ 0x20400000) ∧
    (∃ (c : Nat) (a : Nat) (b : Nat) (n : Nat) (d : DmaDesc) (s : State), c < 16 ∧ (chan c s).cur = some d ∧ chanState c s = 1 ∧ rd (O.DMA_CUR_OFFSET c) s = 0 ∧ rd (O.DMA_CMP_MISMATCH c) s = 0 ∧ d.op = 2 ∧ d.src = [(a, n)] ∧ d.dst = [(b, n)] ∧ 0x20100000 ≤ a ∧ a + n ≤ 0x20400000 ∧ 0x20100000 ≤ b ∧ b + n ≤ 0x20400000) ∧
    (∃ (d : DmaDesc) (x : Nat × Nat) (y : Nat × Nat), d.op = 0 ∧ d.src.length ≠ 1 ∧ x ∈ d.src ∧ y ∈ d.dst ∧ x.1 < y.1 + y.2 ∧ y.1 < x.1 + x.2) ∧
    (∃ (d : DmaDesc) (x : Nat × Nat) (y : Nat × Nat), d.op = 0 ∧ d.dst.length ≠ 1 ∧ x ∈ d.src ∧ y ∈ d.dst ∧ x.1 < y.1 + y.2 ∧ y.1 < x.1 + x.2) ∧
    (∃ (d : DmaDesc), (d.src.length = 1 ∧ d.dst.length = 1)) ∧
    (∃ (d : DmaDesc), d.op ≠ 0) ∧
    (∃ (a : Nat), a < 0x10000000) ∧
    (∃ (a : Nat), 0x24000000 ≤ a ∧ a < 0x48000000) ∧
    (∃ (a : Nat), 0x10000000 ≤ a ∧ a < 0x10200000) ∧
    (∃ (c : Nat) (a : Nat), 0x20000000 ≤ a ∧ a < 0x20400000 ∧ c % 8 = 0) ∧
    (∃ (a : Nat), 0x20100000 ≤ a ∧ a < 0x20400000) ∧
    (∃ (a : Nat) (s : State), 0x50000000 ≤ a ∧ a < 0x52000000 ∧ rdBit O.SYS_DOMAINS 18 s = false) ∧
    (∃ (c : Nat) (o : Nat) (n : Nat) (a : Nat) (b : Nat) (d : DmaDesc) (s : State), c < 16 ∧ (chan c s).cur = some d ∧ chanState c s = 1 ∧ rd (O.DMA_CUR_OFFSET c) s = 0 ∧ d.op = 2 ∧ d.src = [(a, n)] ∧ d.dst = [(b, n)] ∧ 0x20100000 ≤ a ∧ a + n ≤ 0x20400000 ∧ 0x20100000 ≤ b ∧ b + n ≤ 0x20400000 ∧ o < n) ∧
    (∃ (c : Nat) (ecc : Option Nat) (d : DmaDesc) (s : State) (u : State), (chan c s).cur = some d ∧ chanState c s = 1 ∧ dmaRun c d.total ecc d s = (none, u)) ∧
    (∃ (c : Nat) (ecc : Option Nat) (d : DmaDesc) (s : State) (u : State) (o : Nat) (code : Nat), (chan c s).cur = some d ∧ chanState c s = 1 ∧ dmaRun c d.total ecc d s = (some (o, code), u)) ∧
    (∃ (c : Nat) (d : DmaDesc) (s : State), c < 16 ∧ c < s.dma.chans.length ∧ d.wb = false ∧ d.evt = false ∧ d.op ≠ 2 ∧ (chan c s).next % 2 ^ 40 ≠ 0 ∧ s.dma.pd = []) ∧
    (∃ (c : Nat) (d : DmaDesc) (s : State), c < 16 ∧ d.wb = false ∧ d.op ≠ 2 ∧ (chan c s).next = 0) ∧
    (∃ (dom : Nat) (x : Nat) (l : List (Nat × Nat)) (s : State), s.dma.pd = (dom, x) :: l) ∧
    (∃ (dom : Nat) (x : Nat) (s : State), s.dma.pd = [(dom, x)] ∧ touching dom 1 s = []) ∧
    (∃ (s : State), rd O.ACQ_MEM s ≠ 1) :=
  ⟨⟨0, (let s : State := node; (wr O.SYS_RECOVERY 0 s)), by decide⟩,
   ⟨8, (let s : State := node; (wr O.SYS_RECOVERY 0 s)), by decide⟩,
   ⟨0, cell, by decide⟩,
   ⟨16, by decide⟩,
   ⟨0, (let s : State := node; (wr O.SYS_RECOVERY (0 + 1) s)), by decide⟩,
   ⟨0, true, (let c : Nat := 0; let s : State := node; let s : State := (wr (O.DMA_STATE c) (2 + 1) s); (wr (O.DMA_STATE c) (3 + 1) s)), by decide⟩,
   ⟨0, true, (let c : Nat := 0; let s : State := node; let s : State := (wr (O.DMA_STATE c) (2 + 1) s); (wr (O.DMA_ERR_CODE c) (6 - 1) s)), by decide⟩,
   ⟨((16 - 1) : Nat), (let c : Nat := (16 - 1); let s : State := node; let s : State := (wr (O.DMA_STATE c) (2 + 1) s); (wr (O.DMA_STATE c) (3 + 1) s)), by decide⟩,
   ⟨((16 - 1) : Nat), (let c : Nat := (16 - 1); let s : State := node; let s : State := (wr (O.DMA_STATE c) (2 + 1) s); (wr (O.DMA_ERR_CODE c) (6 - 1) s)), by decide⟩,
   ⟨0, true, (let c : Nat := 0; let s : State := node; let s : State := (wr O.SYS_RECOVERY 0 s); (wr (O.DMA_STATE c) 0 s)), by decide⟩,
   ⟨((16 - 1) : Nat), (let c : Nat := (16 - 1); let s : State := node; let s : State := (wr O.SYS_RECOVERY 0 s); (wr (O.DMA_STATE c) 0 s)), by decide⟩,
   ⟨0, true, (let c : Nat := 0; let s : State := node; let s : State := (wr O.SYS_RECOVERY 0 s); (wr (O.DMA_STATE c) 1 s)), by decide⟩,
   ⟨((16 - 1) : Nat), (let c : Nat := (16 - 1); let s : State := node; let s : State := (wr O.SYS_RECOVERY 0 s); (wr (O.DMA_STATE c) 1 s)), by decide⟩,
   ⟨0, true, (let c : Nat := 0; let s : State := node; let s : State := (wr O.SYS_RECOVERY 0 s); let s : State := (wr (O.DMA_STATE c) (0 + 1) s); (wr (O.DMA_STATE c) (1 + 1) s)), by decide⟩,
   ⟨((16 - 1) : Nat), (let c : Nat := (16 - 1); let s : State := node; let s : State := (wr O.SYS_RECOVERY 0 s); let s : State := (wr (O.DMA_STATE c) (0 + 1) s); (wr (O.DMA_STATE c) (1 + 1) s)), by decide⟩,
   ⟨0, 0, ((2 + 1) : Nat), node, node, by decide⟩,
   ⟨0, 0, node, node, by decide⟩,
   ⟨3, 4, 2, (let s : State := node; { s with sys := { s.sys with ddrMiB := 64 }, dma := { s.dma with pd := [(17, 5)], chans := s.dma.chans.map fun y => { y with cur := some ({ addr := 0x20100000, op := 0, swap := 0, barrier := false, evt := false, wb := false, stopDiff := false, src := [(0x60000000, 4)], dst := [(0x20100200, 4)], pattern := [], snap := none } : DmaDesc) } } }), (let c : Nat := 3; let m : Nat := 4; let s : State := node; let s : State := { s with sys := { s.sys with ddrMiB := 64 }, dma := { s.dma with pd := [(17, 5)], chans := s.dma.chans.map fun y => { y with cur := some ({ addr := 0x20100000, op := 0, swap := 0, barrier := false, evt := false, wb := false, stopDiff := false, src := [(0x60000000, 4)], dst := [(0x20100200, 4)], pattern := [], snap := none } : DmaDesc) } } }; (dmaStop c m s).2), by decide⟩,
   ⟨3, 128, (let s : State := node; { s with sys := { s.sys with ddrMiB := 64 }, dma := { s.dma with pd := [(17, 5)], chans := s.dma.chans.map fun y => { y with cur := some ({ addr := 0x20100000, op := 1, swap := 0, barrier := false, evt := false, wb := false, stopDiff := false, src := [(0x10000000, 128)], dst := [(0x10000000, 128)], pattern := [], snap := none } : DmaDesc) } } }), (let c : Nat := 3; let m : Nat := 128; let s : State := node; let s : State := { s with sys := { s.sys with ddrMiB := 64 }, dma := { s.dma with pd := [(17, 5)], chans := s.dma.chans.map fun y => { y with cur := some ({ addr := 0x20100000, op := 1, swap := 0, barrier := false, evt := false, wb := false, stopDiff := false, src := [(0x10000000, 128)], dst := [(0x10000000, 128)], pattern := [], snap := none } : DmaDesc) } } }; (dmaStop c m s).2), (let c : Nat := 3; let m : Nat := 128; let s : State := node; let s : State := { s with sys := { s.sys with ddrMiB := 64 }, dma := { s.dma with pd := [(17, 5)], chans := s.dma.chans.map fun y => { y with cur := some ({ addr := 0x20100000, op := 1, swap := 0, barrier := false, evt := false, wb := false, stopDiff := false, src := [(0x10000000, 128)], dst := [(0x10000000, 128)], pattern := [], snap := none } : DmaDesc) } } }; ((dmaStop c m s).1.getD (0,0)).1), (let c : Nat := 3; let m : Nat := 128; let s : State := node; let s : State := { s with sys := { s.sys with ddrMiB := 64 }, dma := { s.dma with pd := [(17, 5)], chans := s.dma.chans.map fun y => { y with cur := some ({ addr := 0x20100000, op := 1, swap := 0, barrier := false, evt := false, wb := false, stopDiff := false, src := [(0x10000000, 128)], dst := [(0x10000000, 128)], pattern := [], snap := none } : DmaDesc) } } }; ((dmaStop c m s).1.getD (0,0)).2), by decide⟩,
   ⟨0, true, (let c : Nat := 0; let s : State := node; let s : State := (wr O.SYS_RECOVERY 0 s); (wr (O.DMA_STATE c) 2 s)), by decide⟩,
   ⟨0, true, (let c : Nat := 0; let s : State := node; let s : State := (wr O.SYS_RECOVERY 0 s); let s : State := (wr (O.DMA_STATE c) 3 s); (wr (O.DMA_ERR_CODE c) 6 s)), by decide⟩,
   ⟨((16 - 1) : Nat), (let c : Nat := (16 - 1); let s : State := node; let s : State := (wr O.SYS_RECOVERY 0 s); (wr (O.DMA_STATE c) 2 s)), by decide⟩,
   ⟨((16 - 1) : Nat), (let c : Nat := (16 - 1); let s : State := node; let s : State := (wr O.SYS_RECOVERY 0 s); let s : State := (wr (O.DMA_STATE c) 3 s); (wr (O.DMA_ERR_CODE c) 6 s)), by decide⟩,
   ⟨0, true, (let c : Nat := 0; let s : State := node; let s : State := (wr O.SYS_RECOVERY 0 s); (wr (O.DMA_STATE c) 3 s)), (let c : Nat := 0; let s : State := node; let s : State := (wr O.SYS_RECOVERY 0 s); let s : State := (wr (O.DMA_STATE c) 3 s); (chan c s).next % 2 ^ 40), by decide⟩,
   ⟨((16 - 1) : Nat), (let c : Nat := (16 - 1); let s : State := node; let s : State := (wr O.SYS_RECOVERY 0 s); (wr (O.DMA_STATE c) 3 s)), (let c : Nat := (16 - 1); let s : State := node; let s : State := (wr O.SYS_RECOVERY 0 s); let s : State := (wr (O.DMA_STATE c) 3 s); (chan c s).next % 2 ^ 40), by decide⟩,
   ⟨0, (let c : Nat := 0; let s : State := node; (updChan c (fun y => { y with fetchAt := none }) s)), by decide⟩,
   ⟨0, (let c : Nat := 0; let s : State := node; { (wr (O.DMA_STATE c) 1 s) with dma := { s.dma with chans := s.dma.chans.map fun y => { y with fetchAt := some 5, cur := some ({ addr := 0x20100000, op := 0, swap := 0, barrier := false, evt := false, wb := false, stopDiff := false, src := [(0x20100100, 4)], dst := [(0x20100200, 4)], pattern := [], snap := none } : DmaDesc) } } }), by decide⟩,
   ⟨0, 0, (let c : Nat := 0; let a : Nat := 0; let s : State := node; let s : State := (updChan c (fun y => { y with fetchAt := some a }) s); let s : State := (wr (O.DMA_STATE c) 1 s); (updChan c (fun y => { y with cur := none }) s)), by decide⟩,
   ⟨65, by decide⟩,
   ⟨65, node, by decide⟩,
   ⟨15, 0x20000000, by decide⟩,
   ⟨7, 0x10000000, by decide⟩,
   ⟨8, 0x04000000, by decide⟩,
   ⟨0, by decide⟩,
   ⟨((256 + 1) : Nat), by decide⟩,
   ⟨8, 0x10000000, 1, by decide⟩,
   ⟨0, 0, by decide⟩,
   ⟨0, 0x20100000, 0x20100000, 0, (let a : Nat := 0x20100000; let b : Nat := 0x20100000; let n : Nat := 0; let d : DmaDesc := dDmaDesc; let d : DmaDesc := ({ d with op := 0 }); let d : DmaDesc := ({ d with swap := 0 }); let d : DmaDesc := ({ d with src := [(a, n)] }); let d : DmaDesc := ({ d with dst := [(b, n)] }); ({ d with snap := none })), (let c : Nat := 0; let a : Nat := 0x20100000; let b : Nat := 0x20100000; let n : Nat := 0; let d : DmaDesc := dDmaDesc; let d : DmaDesc := ({ d with op := 0 }); let d : DmaDesc := ({ d with swap := 0 }); let d : DmaDesc := ({ d with src := [(a, n)] }); let d : DmaDesc := ({ d with dst := [(b, n)] }); let d : DmaDesc := ({ d with snap := none }); let s : State := node; let s : State := (updChan c (fun y => { y with cur := some d }) s); let s : State := (wr (O.DMA_STATE c) 1 s); (wr (O.DMA_CUR_OFFSET c) 0 s)), by decide⟩,
   ⟨0, 0x20100000, 0, (let b : Nat := 0x20100000; let n : Nat := 0; let d : DmaDesc := dDmaDesc; let d : DmaDesc := ({ d with op := 1 }); let d : DmaDesc := ({ d with src := [] }); ({ d with dst := [(b, n)] })), (let c : Nat := 0; let b : Nat := 0x20100000; let n : Nat := 0; let d : DmaDesc := dDmaDesc; let d : DmaDesc := ({ d with op := 1 }); let d : DmaDesc := ({ d with src := [] }); let d : DmaDesc := ({ d with dst := [(b, n)] }); let s : State := node; let s : State := (updChan c (fun y => { y with cur := some d }) s); let s : State := (wr (O.DMA_STATE c) 1 s); (wr (O.DMA_CUR_OFFSET c) 0 s)), by decide⟩,
   ⟨0, 0x20100000, 0x20100000, 0, (let a : Nat := 0x20100000; let b : Nat := 0x20100000; let n : Nat := 0; let d : DmaDesc := dDmaDesc; let d : DmaDesc := ({ d with op := 2 }); let d : DmaDesc := ({ d with src := [(a, n)] }); ({ d with dst := [(b, n)] })), (let c : Nat := 0; let a : Nat := 0x20100000; let b : Nat := 0x20100000; let n : Nat := 0; let d : DmaDesc := dDmaDesc; let d : DmaDesc := ({ d with op := 2 }); let d : DmaDesc := ({ d with src := [(a, n)] }); let d : DmaDesc := ({ d with dst := [(b, n)] }); let s : State := node; let s : State := (updChan c (fun y => { y with cur := some d }) s); let s : State := (wr (O.DMA_STATE c) 1 s); let s : State := (wr (O.DMA_CUR_OFFSET c) 0 s); (wr (O.DMA_CMP_MISMATCH c) 0 s)), by decide⟩,
   ⟨({ ({ addr := 0x20100000, op := 0, swap := 0, barrier := false, evt := false, wb := false, stopDiff := false, src := [(0x20100100, 4)], dst := [(0x20100200, 4)], pattern := [], snap := none } : DmaDesc) with src := [(0,8),(100,8)], dst := [(7,8)] } : DmaDesc), ((0,8) : Nat × Nat), ((7,8) : Nat × Nat), by decide⟩,
   ⟨({ ({ addr := 0x20100000, op := 0, swap := 0, barrier := false, evt := false, wb := false, stopDiff := false, src := [(0x20100100, 4)], dst := [(0x20100200, 4)], pattern := [], snap := none } : DmaDesc) with dst := [(0,8),(200,8)], src := [(7,8)] } : DmaDesc), ((7,8) : Nat × Nat), ((0,8) : Nat × Nat), by decide⟩,
   ⟨(({ addr := 0x20100000, op := 0, swap := 0, barrier := false, evt := false, wb := false, stopDiff := false, src := [(0x20100100, 4)], dst := [(0x20100200, 4)], pattern := [], snap := none } : DmaDesc) : DmaDesc), by decide⟩,
   ⟨({ ({ addr := 0x20100000, op := 0, swap := 0, barrier := false, evt := false, wb := false, stopDiff := false, src := [(0x20100100, 4)], dst := [(0x20100200, 4)], pattern := [], snap := none } : DmaDesc) with op := 1, src := [] } : DmaDesc), by decide⟩,
   ⟨0, by decide⟩,
   ⟨0x24000000, by decide⟩,
   ⟨0x10000000, by decide⟩,
   ⟨0, 0x20000000, by decide⟩,
   ⟨0x20100000, by decide⟩,
   ⟨0x50000000, (let s : State := node; (wrBit O.SYS_DOMAINS 18 false s)), by decide⟩,
   ⟨0, 0, (let o : Nat := 0; (o + 1)), 0x20100000, 0x20100000, (let o : Nat := 0; let n : Nat := (o + 1); let a : Nat := 0x20100000; let b : Nat := 0x20100000; let d : DmaDesc := dDmaDesc; let d : DmaDesc := ({ d with op := 2 }); let d : DmaDesc := ({ d with src := [(a, n)] }); ({ d with dst := [(b, n)] })), (let c : Nat := 0; let o : Nat := 0; let n : Nat := (o + 1); let a : Nat := 0x20100000; let b : Nat := 0x20100000; let d : DmaDesc := dDmaDesc; let d : DmaDesc := ({ d with op := 2 }); let d : DmaDesc := ({ d with src := [(a, n)] }); let d : DmaDesc := ({ d with dst := [(b, n)] }); let s : State := node; let s : State := (updChan c (fun y => { y with cur := some d }) s); let s : State := (wr (O.DMA_STATE c) 1 s); (wr (O.DMA_CUR_OFFSET c) 0 s)), by decide⟩,
   ⟨3, none, (({ addr := 0x20100000, op := 0, swap := 0, barrier := false, evt := false, wb := false, stopDiff := false, src := [(0x60000000, 4)], dst := [(0x20100200, 4)], pattern := [], snap := none } : DmaDesc) : DmaDesc), (let c : Nat := 3; let d : DmaDesc := ({ addr := 0x20100000, op := 0, swap := 0, barrier := false, evt := false, wb := false, stopDiff := false, src := [(0x60000000, 4)], dst := [(0x20100200, 4)], pattern := [], snap := none } : DmaDesc); let s : State := node; let s : State := (updChan c (fun y => { y with cur := some d }) s); let s : State := (wr (O.DMA_STATE c) 1 s); wr (O.DMA_STATE 3) 1 (wrBit O.SYS_DOMAINS 17 true { s with sys := { s.sys with ddrMiB := 64 }, dma := { s.dma with pd := [(17, 5)], chans := s.dma.chans.map fun y => { y with cur := some ({ addr := 0x20100000, op := 0, swap := 0, barrier := false, evt := false, wb := false, stopDiff := false, src := [(0x60000000, 4)], dst := [(0x20100200, 4)], pattern := [], snap := none } : DmaDesc) } } })), (let c : Nat := 3; let ecc : Option Nat := none; let d : DmaDesc := ({ addr := 0x20100000, op := 0, swap := 0, barrier := false, evt := false, wb := false, stopDiff := false, src := [(0x60000000, 4)], dst := [(0x20100200, 4)], pattern := [], snap := none } : DmaDesc); let s : State := node; let s : State := (updChan c (fun y => { y with cur := some d }) s); let s : State := (wr (O.DMA_STATE c) 1 s); let s : State := wr (O.DMA_STATE 3) 1 (wrBit O.SYS_DOMAINS 17 true { s with sys := { s.sys with ddrMiB := 64 }, dma := { s.dma with pd := [(17, 5)], chans := s.dma.chans.map fun y => { y with cur := some ({ addr := 0x20100000, op := 0, swap := 0, barrier := false, evt := false, wb := false, stopDiff := false, src := [(0x60000000, 4)], dst := [(0x20100200, 4)], pattern := [], snap := none } : DmaDesc) } } }); (dmaRun c d.total ecc d s).2), by decide⟩,
   ⟨3, none, (({ addr := 0x20100000, op := 1, swap := 0, barrier := false, evt := false, wb := false, stopDiff := false, src := [(0x10000000, 128)], dst := [(0x10000000, 128)], pattern := [], snap := none } : DmaDesc) : DmaDesc), (let c : Nat := 3; let d : DmaDesc := ({ addr := 0x20100000, op := 1, swap := 0, barrier := false, evt := false, wb := false, stopDiff := false, src := [(0x10000000, 128)], dst := [(0x10000000, 128)], pattern := [], snap := none } : DmaDesc); let s : State := node; let s : State := (updChan c (fun y => { y with cur := some d }) s); let s : State := (wr (O.DMA_STATE c) 1 s); wr (O.DMA_STATE 3) 1 { s with sys := { s.sys with ddrMiB := 64 }, dma := { s.dma with pd := [(17, 5)], chans := s.dma.chans.map fun y => { y with cur := some ({ addr := 0x20100000, op := 1, swap := 0, barrier := false, evt := false, wb := false, stopDiff := false, src := [(0x10000000, 128)], dst := [(0x10000000, 128)], pattern := [], snap := none } : DmaDesc) } } }), (let c : Nat := 3; let ecc : Option Nat := none; let d : DmaDesc := ({ addr := 0x20100000, op := 1, swap := 0, barrier := false, evt := false, wb := false, stopDiff := false, src := [(0x10000000, 128)], dst := [(0x10000000, 128)], pattern := [], snap := none } : DmaDesc); let s : State := node; let s : State := (updChan c (fun y => { y with cur := some d }) s); let s : State := (wr (O.DMA_STATE c) 1 s); let s : State := wr (O.DMA_STATE 3) 1 { s with sys := { s.sys with ddrMiB := 64 }, dma := { s.dma with pd := [(17, 5)], chans := s.dma.chans.map fun y => { y with cur := some ({ addr := 0x20100000, op := 1, swap := 0, barrier := false, evt := false, wb := false, stopDiff := false, src := [(0x10000000, 128)], dst := [(0x10000000, 128)], pattern := [], snap := none } : DmaDesc) } } }; (dmaRun c d.total ecc d s).2), (let c : Nat := 3; let ecc : Option Nat := none; let d : DmaDesc := ({ addr := 0x20100000, op := 1, swap := 0, barrier := false, evt := false, wb := false, stopDiff := false, src := [(0x10000000, 128)], dst := [(0x10000000, 128)], pattern := [], snap := none } : DmaDesc); let s : State := node; let s : State := (updChan c (fun y => { y with cur := some d }) s); let s : State := (wr (O.DMA_STATE c) 1 s); let s : State := wr (O.DMA_STATE 3) 1 { s with sys := { s.sys with ddrMiB := 64 }, dma := { s.dma with pd := [(17, 5)], chans := s.dma.chans.map fun y => { y with cur := some ({ addr := 0x20100000, op := 1, swap := 0, barrier := false, evt := false, wb := false, stopDiff := false, src := [(0x10000000, 128)], dst := [(0x10000000, 128)], pattern := [], snap := none } : DmaDesc) } } }; ((dmaRun c d.total ecc d s).1.getD (0,0)).1), (let c : Nat := 3; let ecc : Option Nat := none; let d : DmaDesc := ({ addr := 0x20100000, op := 1, swap := 0, barrier := false, evt := false, wb := false, stopDiff := false, src := [(0x10000000, 128)], dst := [(0x10000000, 128)], pattern := [], snap := none } : DmaDesc); let s : State := node; let s : State := (updChan c (fun y => { y with cur := some d }) s); let s : State := (wr (O.DMA_STATE c) 1 s); let s : State := wr (O.DMA_STATE 3) 1 { s with sys := { s.sys with ddrMiB := 64 }, dma := { s.dma with pd := [(17, 5)], chans := s.dma.chans.map fun y => { y with cur := some ({ addr := 0x20100000, op := 1, swap := 0, barrier := false, evt := false, wb := false, stopDiff := false, src := [(0x10000000, 128)], dst := [(0x10000000, 128)], pattern := [], snap := none } : DmaDesc) } } }; ((dmaRun c d.total ecc d s).1.getD (0,0)).2), by decide⟩,
   ⟨15, (({ addr := 0x20100000, op := 0, swap := 0, barrier := false, evt := false, wb := false, stopDiff := false, src := [(0x20100100, 4)], dst := [(0x20100200, 4)], pattern := [], snap := none } : DmaDesc) : DmaDesc), (let s : State := node; let s : State := ({ s with dma := { s.dma with pd := [] } }); { s with dma := { s.dma with pd := [], chans := s.dma.chans.map fun y => { y with next := 64 } } }), by decide⟩,
   ⟨0, (let d : DmaDesc := dDmaDesc; ({ d with wb := false })), (let c : Nat := 0; let s : State := node; (updChan c (fun y => { y with next := 0 }) s)), by decide⟩,
   ⟨0, 0, ([] : List (Nat × Nat)), (let dom : Nat := 0; let x : Nat := 0; let l : List (Nat × Nat) := []; let s : State := node; ({ s with dma := { s.dma with pd := (dom, x) :: l } })), by decide⟩,
   ⟨0, 0, (let dom : Nat := 0; let x : Nat := 0; let s : State := node; ({ s with dma := { s.dma with pd := [(dom, x)] } })), by decide⟩,
   ⟨(let s : State := node; (wr O.ACQ_MEM (1 + 1) s)), by decide⟩⟩

/-- Obligations.IslandLinkFrames: the hypotheses of its clauses can be met. -/
theorem witness_IslandLinkFrames :
    (∃ (s : State), isNode s = false) ∧
    (∃ (i : Nat), i < 8) ∧
    (∃ (w : Nat) (s : State), isNode s = true ∧ s.fio.island.up = true ∧ downOk w = false) ∧
    (∃ (w : Nat) (s : State), isNode s = true ∧ s.fio.island.up = true ∧ downOk w = true) ∧
    (∃ (s : State), s.fio.await = false) ∧
    (∃ (w : Nat) (s : State), isNode s = true ∧ s.fio.await = true ∧ mainOk w s = true) ∧
    (∃ (w : Nat) (s : State), isNode s = true ∧ s.fio.await = true ∧ mainOk w s = false) ∧
    (∃ (s : State), rd O.FIO_LINK_STATE s ≠ 1) ∧
    (∃ (s : State), s.fio.bad + 1 < rd O.FIO_LINK_MISS s) ∧
    (∃ (s : State), rd O.FIO_LINK_STATE s = 1 ∧ rd O.FIO_LINK_MISS s ≤ s.fio.bad + 1) ∧
    (∃ (w : Nat) (s : State), rd (O.POS_ENC_MODE 0) s = 0 ∧ rd (O.POS_ENC_MODE 1) s = 0 ∧ fld w 67 64 = 0) ∧
    (∃ (w : Nat) (s : State), isNode s = true ∧ fastOk w s = true) ∧
    (∃ (w : Nat) (s : State), isNode s = true ∧ fastOk w s = false) ∧
    (∃ (s : State), s.fio.island.safe = true) ∧
    (∃ (s : State), s.fio.island.up = true ∧ s.fio.island.safe = false) ∧
    (∃ (s : State), isNode s = true ∧ s.fio.island.up = false) ∧
    (∃ (k : Nat) (i : Nat), paramId k = some i ∧ k / 256 ≠ 0xB000 ∧ k / 256 ≠ 0xB100 ∧ k / 256 ≠ 0xB101) :=
  ⟨⟨cell, by decide⟩,
   ⟨0, by decide⟩,
   ⟨0, (let s : State := node; ({ s with fio := { s.fio with island := { s.fio.island with up := true } } })), by decide⟩,
   ⟨((0x5C * 2 ^ 86 + crc16Bits 70 0) : Nat), (let s : State := node; let s : State := ({ s with fio := { s.fio with island := { s.fio.island with up := true } } }); { s with fio := { s.fio with island := { s.fio.island with up := true } } }), by decide⟩,
   ⟨(let s : State := node; ({ s with fio := { s.fio with await := false } })), by decide⟩,
   ⟨((let b : Nat := 0xA3 * 2^142 + 2 * 2^138; b + crc16Bits 126 (fld b 141 16)) : Nat), (let s : State := node; let s : State := ({ s with fio := { s.fio with await := true } }); { s with fio := { s.fio with lastF := some 1600, await := true } }), by decide⟩,
   ⟨0, (let s : State := node; ({ s with fio := { s.fio with await := true } })), by decide⟩,
   ⟨(let s : State := node; (wr O.FIO_LINK_STATE (1 + 1) s)), by decide⟩,
   ⟨(let s : State := node; (wr O.FIO_LINK_MISS (s.fio.bad + 1 + 1) s)), by decide⟩,
   ⟨(let s : State := node; let s : State := (wr O.FIO_LINK_STATE 1 s); (wr O.FIO_LINK_MISS (s.fio.bad + 1) s)), by decide⟩,
   ⟨0, (let s : State := node; let s : State := (wr (O.POS_ENC_MODE 0) 0 s); (wr (O.POS_ENC_MODE 1) 0 s)), by decide⟩,
   ⟨((let b : Nat := 0xA5 * 2^40 + 2 * 2^36 + 0x8001 * 2^16; b + crc16Bits 24 (fld b 39 16)) : Nat), (let s : State := node; { s with tick := 1700, fio := { s.fio with lastF := some 1600 } }), by decide⟩,
   ⟨0, node, by decide⟩,
   ⟨(let s : State := node; ({ s with fio := { s.fio with island := { s.fio.island with safe := true } } })), by decide⟩,
   ⟨(let s : State := node; let s : State := ({ s with fio := { s.fio with island := { s.fio.island with up := true } } }); ({ s with fio := { s.fio with island := { s.fio.island with safe := false } } })), by decide⟩,
   ⟨(let s : State := node; ({ s with fio := { s.fio with island := { s.fio.island with up := false } } })), by decide⟩,
   ⟨((O.FIO_DI_DEBOUNCE 15) : Nat), (let k : Nat := (O.FIO_DI_DEBOUNCE 15); ((paramId k).getD 999)), by decide⟩⟩

/-- Obligations.FieldAndShaft: the hypotheses of its clauses can be met. -/
theorem witness_FieldAndShaft :
    (∃ (mv : Int), 11000 ≤ mv) ∧
    (∃ (mv : Int), 15000 ≤ mv) ∧
    (∃ (mv : Int), mv ≤ 5000) ∧
    (∃ (mv : Int), 5000 < mv ∧ mv < 11000) ∧
    (∃ (mv : Int), 5000 < mv ∧ mv < 15000) ∧
    (∃ (n : Nat), 16 ≤ n) ∧
    (∃ (n : Nat) (s : State), n < 16 ∧ s.fio.island.up = true ∧ bit s.fio.island.cmp n = bit s.fio.island.str n) ∧
    (∃ (n : Nat) (s : State), n < 16 ∧ s.fio.island.up = true ∧ bit s.fio.island.cmp n ≠ bit s.fio.island.str n) ∧
    (∃ (i : Nat) (s : State) (j : Nat), j = (if bit (islandParam O.FIO_DO_PAIR s) (i / 2) then i / 2 * 2 else i) ∧ bit s.fio.island.flags 1 = true) ∧
    (∃ (i : Nat) (s : State) (j : Nat), j = (if bit (islandParam O.FIO_DO_PAIR s) (i / 2) then i / 2 * 2 else i) ∧ bit s.fio.island.flags 2 = true) ∧
    (∃ (i : Nat) (s : State) (j : Nat), j = (if bit (islandParam O.FIO_DO_PAIR s) (i / 2) then i / 2 * 2 else i) ∧ s.fio.island.up = false) ∧
    (∃ (i : Nat) (s : State) (j : Nat), j = (if bit (islandParam O.FIO_DO_PAIR s) (i / 2) then i / 2 * 2 else i) ∧ s.fio.island.safe = true ∧ s.fio.island.leftSafe = false) ∧
    (∃ (i : Nat) (s : State) (j : Nat), j = (if bit (islandParam O.FIO_DO_PAIR s) (i / 2) then i / 2 * 2 else i) ∧ s.fio.island.up = true ∧ supplyBad s = false ∧ s.fio.island.safe = true ∧ s.fio.island.leftSafe = true) ∧
    (∃ (i : Nat) (s : State) (j : Nat), j = (if bit (islandParam O.FIO_DO_PAIR s) (i / 2) then i / 2 * 2 else i) ∧ s.fio.island.safe = false ∧ withPair (fun j => outOff j s) i s = true) ∧
    (∃ (i : Nat) (s : State) (j : Nat), j = (if bit (islandParam O.FIO_DO_PAIR s) (i / 2) then i / 2 * 2 else i) ∧ s.fio.island.up = true ∧ supplyBad s = false ∧ s.fio.island.safe = false ∧ withPair (fun j => outOff j s) i s = false) ∧
    (∃ (i : Nat) (s : State), s.saf.tripHeld = true ∧ rdBit O.SAF_TRIP_DO i s = true) ∧
    (∃ (i : Nat) (s : State), s.saf.tripHeld = false ∧ rd (O.FIO_DO_OWNER i) s = 1 ∧ rd O.LAW_STATE s = 0) ∧
    (∃ (i : Nat) (s : State), s.saf.tripHeld = false ∧ rd (O.FIO_DO_OWNER i) s = 1 ∧ rd O.LAW_STATE s = 4) ∧
    (∃ (i : Nat) (s : State), s.saf.tripHeld = false ∧ rd (O.FIO_DO_OWNER i) s = 0) ∧
    (∃ (i : Nat), 8 ≤ i) ∧
    (∃ (s : State), supplyBad s = true) ∧
    (∃ (i : Nat) (x : Nat) (s : State), s.fio.island.off.getD i none = some x) ∧
    (∃ (i : Nat) (s : State), s.fio.island.off.getD i none = none) ∧
    (∃ (i : Nat) (s : State), i < 8 ∧ s.fio.island.up = true ∧ supplyBad s = false) ∧
    (∃ (s : State), s.fio.island.cond = []) ∧
    (∃ (s : State), s.fio.island.cond ≠ []) ∧
    (∃ (c : Nat) (x : Nat) (s : State), c < 3 ∧ s.fio.island.cond = [(c, x)]) ∧
    (∃ (v : Nat) (s : State), isNode s = true ∧ rd O.SYS_RECOVERY s = 0 ∧ (∀ p < 4, bit v p = true → rdBit O.FIO_DO_PAIR p s = false → ownLevel (2 * p) s = ownLevel (2 * p + 1) s) ∧ v < 16) ∧
    (∃ (v : Nat) (s : State), isNode s = true ∧ rd O.SYS_RECOVERY s = 0 ∧ (∀ p < 4, bit v p = true → rdBit O.FIO_DO_PAIR p s = false → ownLevel (2 * p) s = ownLevel (2 * p + 1) s) ∧ 16 ≤ v) ∧
    (∃ (v : Nat) (p : Nat) (s : State), isNode s = true ∧ p < 4 ∧ bit v p = true ∧ rdBit O.FIO_DO_PAIR p s = false ∧ ownLevel (2 * p) s ≠ ownLevel (2 * p + 1) s) ∧
    (∃ (e : Nat) (s : State), encCounts e s = false) ∧
    (∃ (e : Nat) (x : EncSt) (s : State), encCounts e s = true ∧ s.fio.island.enc[e]? = some x ∧ x.ab < 4) ∧
    (∃ (s : State), s.fio.island.pmAt = []) ∧
    (∃ (x : Nat) (l : List Nat) (s : State), s.fio.island.pmAt = x :: l) ∧
    (∃ (e : Nat) (s : State), e < 2 ∧ (s.fio.enc.getD e EncDie.init).hist = []) ∧
    (∃ (e : Nat) (c : Nat) (te : Nat) (ce : Int) (s : State), e < 2 ∧ (s.fio.enc.getD e EncDie.init).hist = [(te, ce)] ∧ c < te + us (rd (O.POS_STANDSTILL e) s)) ∧
    (∃ (e : Nat) (c : Nat) (te : Nat) (tr : Nat) (ce : Int) (cr : Int) (s : State), e < 2 ∧ (s.fio.enc.getD e EncDie.init).hist = [(te, ce), (tr, cr)] ∧ tr < te ∧ te ≤ c ∧ c < te + us (rd (O.POS_STANDSTILL e) s) ∧ (ce - cr).natAbs * (c - te) ≤ te - tr) ∧
    (∃ (e : Nat) (c : Nat) (te : Nat) (tr : Nat) (ce : Int) (cr : Int) (s : State), e < 2 ∧ (s.fio.enc.getD e EncDie.init).hist = [(te, ce), (tr, cr)] ∧ tr < te ∧ te ≤ c ∧ c < te + us (rd (O.POS_STANDSTILL e) s) ∧ te - tr < (ce - cr).natAbs * (c - te)) ∧
    (∃ (s : State), s.fio.island.ssiAt = []) ∧
    (∃ (x : Nat) (l : List Nat) (s : State), s.fio.island.ssiAt = x :: l ∧ x < s.fio.island.ssiFree) ∧
    (∃ (x : Nat) (l : List Nat) (s : State), s.fio.island.ssiAt = x :: l ∧ s.fio.island.ssiRun ≠ none) ∧
    (∃ (x : Nat) (l : List Nat) (s : State), s.fio.island.ssiAt = x :: l ∧ s.fio.island.ssiFree ≤ x ∧ s.fio.island.ssiRun = none) ∧
    (∃ (x : Nat) (s : State), s.fio.island.ssiRun = some x) ∧
    (∃ (s : State), rd O.POS_SSI_CODE s = 0) ∧
    (∃ (p : Nat) (s : State) (m : Nat) (e : Nat), m = islandParam (O.POS_PRB_MODE p) s ∧ e = islandParam (O.POS_PRB_EDGE p) s ∧ 2 ≤ p) ∧
    (∃ (p : Nat) (s : State) (m : Nat) (e : Nat), m = islandParam (O.POS_PRB_MODE p) s ∧ e = islandParam (O.POS_PRB_EDGE p) s ∧ s.fio.island.up = false) ∧
    (∃ (p : Nat) (s : State) (m : Nat) (e : Nat), m = islandParam (O.POS_PRB_MODE p) s ∧ e = islandParam (O.POS_PRB_EDGE p) s ∧ (m ≠ 2 ∧ (m ≠ 1 ∨ s.fio.island.prbArm.getD p false = false))) ∧
    (∃ (p : Nat) (r : Bool) (s : State) (m : Nat) (e : Nat), m = islandParam (O.POS_PRB_MODE p) s ∧ e = islandParam (O.POS_PRB_EDGE p) s ∧ (e = 0 ∧ r = false)) ∧
    (∃ (p : Nat) (r : Bool) (s : State) (m : Nat) (e : Nat), m = islandParam (O.POS_PRB_MODE p) s ∧ e = islandParam (O.POS_PRB_EDGE p) s ∧ (e = 1 ∧ r = true)) ∧
    (∃ (p : Nat) (s : State) (m : Nat) (e : Nat) (a : Nat), m = islandParam (O.POS_PRB_MODE p) s ∧ e = islandParam (O.POS_PRB_EDGE p) s ∧ p < 2 ∧ s.fio.island.up = true ∧ m = 2 ∧ e = 2 ∧ a = s.tick - 8 * (islandParam (O.POS_PRB_FILTER p) s - 1)) ∧
    (∃ (p : Nat) (r : Bool) (s : State) (m : Nat) (e : Nat) (a : Nat), m = islandParam (O.POS_PRB_MODE p) s ∧ e = islandParam (O.POS_PRB_EDGE p) s ∧ p < 2 ∧ s.fio.island.up = true ∧ m = 2 ∧ (e = 0 ∧ r = true) ∧ a = s.tick - 8 * (islandParam (O.POS_PRB_FILTER p) s - 1)) ∧
    (∃ (p : Nat) (r : Bool) (s : State) (m : Nat) (e : Nat) (a : Nat), m = islandParam (O.POS_PRB_MODE p) s ∧ e = islandParam (O.POS_PRB_EDGE p) s ∧ p < 2 ∧ s.fio.island.up = true ∧ m = 2 ∧ (e = 1 ∧ r = false) ∧ a = s.tick - 8 * (islandParam (O.POS_PRB_FILTER p) s - 1)) ∧
    (∃ (p : Nat) (s : State) (m : Nat) (e : Nat) (a : Nat), m = islandParam (O.POS_PRB_MODE p) s ∧ e = islandParam (O.POS_PRB_EDGE p) s ∧ p < 2 ∧ s.fio.island.up = true ∧ (m = 1 ∧ s.fio.island.prbArm.getD p false = true) ∧ e = 2 ∧ a = s.tick - 8 * (islandParam (O.POS_PRB_FILTER p) s - 1)) ∧
    (∃ (p : Nat) (r : Bool) (s : State) (m : Nat) (e : Nat) (a : Nat), m = islandParam (O.POS_PRB_MODE p) s ∧ e = islandParam (O.POS_PRB_EDGE p) s ∧ p < 2 ∧ s.fio.island.up = true ∧ (m = 1 ∧ s.fio.island.prbArm.getD p false = true) ∧ (e = 0 ∧ r = true) ∧ a = s.tick - 8 * (islandParam (O.POS_PRB_FILTER p) s - 1)) ∧
    (∃ (p : Nat) (r : Bool) (s : State) (m : Nat) (e : Nat) (a : Nat), m = islandParam (O.POS_PRB_MODE p) s ∧ e = islandParam (O.POS_PRB_EDGE p) s ∧ p < 2 ∧ s.fio.island.up = true ∧ (m = 1 ∧ s.fio.island.prbArm.getD p false = true) ∧ (e = 1 ∧ r = false) ∧ a = s.tick - 8 * (islandParam (O.POS_PRB_FILTER p) s - 1)) ∧
    (∃ (e : Nat) (s : State), isNode s = true ∧ rd O.SYS_RECOVERY s = 0 ∧ e < 2 ∧ rd (O.POS_Z_MODE e) s ≠ 2) ∧
    (∃ (e : Nat) (s : State), isNode s = true ∧ rd O.SYS_RECOVERY s = 0 ∧ e < 2 ∧ rd (O.POS_Z_MODE e) s = 2) ∧
    (∃ (p : Nat) (s : State), isNode s = true ∧ rd O.SYS_RECOVERY s = 0 ∧ p < 2 ∧ rd (O.POS_PRB_MODE p) s ≠ 1) ∧
    (∃ (p : Nat) (s : State), isNode s = true ∧ rd O.SYS_RECOVERY s = 0 ∧ p < 2 ∧ rd (O.POS_PRB_MODE p) s = 1) ∧
    (∃ (n : Nat), 2 ≤ n) ∧
    (∃ (n : Nat) (s : State), n < 2 ∧ isCell s = true) ∧
    (∃ (n : Nat) (s : State), n < 2 ∧ isNode s = true ∧ rd O.SYS_RECOVERY s ≠ 0) :=
  ⟨⟨11000, by decide⟩,
   ⟨15000, by decide⟩,
   ⟨0, by decide⟩,
   ⟨((5000 + 1) : Int), by decide⟩,
   ⟨((5000 + 1) : Int), by decide⟩,
   ⟨16, by decide⟩,
   ⟨0, (let s : State := node; ({ s with fio := { s.fio with island := { s.fio.island with up := true } } })), by decide⟩,
   ⟨15, (let s : State := node; let s : State := ({ s with fio := { s.fio with island := { s.fio.island with up := true } } }); { s with fio := { s.fio with island := { s.fio.island with up := true, cmp := 0x8000, str := 0 } } }), by decide⟩,
   ⟨0, (let s : State := node; { s with fio := { s.fio with island := { s.fio.island with up := true, flags := 2 } } }), (let i : Nat := 0; let s : State := node; let s : State := { s with fio := { s.fio with island := { s.fio.island with up := true, flags := 2 } } }; (if bit (islandParam O.FIO_DO_PAIR s) (i / 2) then i / 2 * 2 else i)), by decide⟩,
   ⟨0, (let s : State := node; { s with fio := { s.fio with island := { s.fio.island with up := true, flags := 4 } } }), (let i : Nat := 0; let s : State := node; let s : State := { s with fio := { s.fio with island := { s.fio.island with up := true, flags := 4 } } }; (if bit (islandParam O.FIO_DO_PAIR s) (i / 2) then i / 2 * 2 else i)), by decide⟩,
   ⟨0, (let s : State := node; ({ s with fio := { s.fio with island := { s.fio.island with up := false } } })), (let i : Nat := 0; let s : State := node; let s : State := ({ s with fio := { s.fio with island := { s.fio.island with up := false } } }); (if bit (islandParam O.FIO_DO_PAIR s) (i / 2) then i / 2 * 2 else i)), by decide⟩,
   ⟨0, (let s : State := node; let s : State := ({ s with fio := { s.fio with island := { s.fio.island with safe := true } } }); ({ s with fio := { s.fio with island := { s.fio.island with leftSafe := false } } })), (let i : Nat := 0; let s : State := node; let s : State := ({ s with fio := { s.fio with island := { s.fio.island with safe := true } } }); let s : State := ({ s with fio := { s.fio with island := { s.fio.island with leftSafe := false } } }); (if bit (islandParam O.FIO_DO_PAIR s) (i / 2) then i / 2 * 2 else i)), by decide⟩,
   ⟨0, (let s : State := node; let s : State := ({ s with fio := { s.fio with island := { s.fio.island with up := true } } }); let s : State := ({ s with fio := { s.fio with island := { s.fio.island with safe := true } } }); ({ s with fio := { s.fio with island := { s.fio.island with leftSafe := true } } })), (let i : Nat := 0; let s : State := node; let s : State := ({ s with fio := { s.fio with island := { s.fio.island with up := true } } }); let s : State := ({ s with fio := { s.fio with island := { s.fio.island with safe := true } } }); let s : State := ({ s with fio := { s.fio with island := { s.fio.island with leftSafe := true } } }); (if bit (islandParam O.FIO_DO_PAIR s) (i / 2) then i / 2 * 2 else i)), by decide⟩,
   ⟨3, (let s : State := node; let s : State := ({ s with fio := { s.fio with island := { s.fio.island with safe := false } } }); { s with fio := { s.fio with island := { s.fio.island with up := true, safe := false, hot := 8 } } }), (let i : Nat := 3; let s : State := node; let s : State := ({ s with fio := { s.fio with island := { s.fio.island with safe := false } } }); let s : State := { s with fio := { s.fio with island := { s.fio.island with up := true, safe := false, hot := 8 } } }; (if bit (islandParam O.FIO_DO_PAIR s) (i / 2) then i / 2 * 2 else i)), by decide⟩,
   ⟨0, (let s : State := node; let s : State := ({ s with fio := { s.fio with island := { s.fio.island with up := true } } }); ({ s with fio := { s.fio with island := { s.fio.island with safe := false } } })), (let i : Nat := 0; let s : State := node; let s : State := ({ s with fio := { s.fio with island := { s.fio.island with up := true } } }); let s : State := ({ s with fio := { s.fio with island := { s.fio.island with safe := false } } }); (if bit (islandParam O.FIO_DO_PAIR s) (i / 2) then i / 2 * 2 else i)), by decide⟩,
   ⟨0, (let i : Nat := 0; let s : State := node; let s : State := ({ s with saf := { s.saf with tripHeld := true } }); (wrBit O.SAF_TRIP_DO i true s)), by decide⟩,
   ⟨0, (let i : Nat := 0; let s : State := node; let s : State := ({ s with saf := { s.saf with tripHeld := false } }); let s : State := (wr (O.FIO_DO_OWNER i) 1 s); (wr O.LAW_STATE 0 s)), by decide⟩,
   ⟨0, (let i : Nat := 0; let s : State := node; let s : State := ({ s with saf := { s.saf with tripHeld := false } }); let s : State := (wr (O.FIO_DO_OWNER i) 1 s); (wr O.LAW_STATE 4 s)), by decide⟩,
   ⟨0, (let i : Nat := 0; let s : State := node; let s : State := ({ s with saf := { s.saf with tripHeld := false } }); (wr (O.FIO_DO_OWNER i) 0 s)), by decide⟩,
   ⟨8, by decide⟩,
   ⟨(let s : State := node; { s with fio := { s.fio with island := { s.fio.island with up := true, flags := 2 } } }), by decide⟩,
   ⟨7, 5000, (let s : State := node; { s with fio := { s.fio with island := { s.fio.island with off := List.replicate 8 (some 5000) } } }), by decide⟩,
   ⟨0, node, by decide⟩,
   ⟨0, (let s : State := node; ({ s with fio := { s.fio with island := { s.fio.island with up := true } } })), by decide⟩,
   ⟨(let s : State := node; ({ s with fio := { s.fio with island := { s.fio.island with cond := [] } } })), by decide⟩,
   ⟨(let s : State := node; ({ s with fio := { s.fio with island := { s.fio.island with cond := [default] } } })), by decide⟩,
   ⟨0, 0, (let c : Nat := 0; let x : Nat := 0; let s : State := node; ({ s with fio := { s.fio with island := { s.fio.island with cond := [(c, x)] } } })), by decide⟩,
   ⟨0, (let s : State := node; (wr O.SYS_RECOVERY 0 s)), by decide⟩,
   ⟨16, (let s : State := node; (wr O.SYS_RECOVERY 0 s)), by decide⟩,
   ⟨8, 3, (let p : Nat := 3; let s : State := node; let s : State := (wrBit O.FIO_DO_PAIR p false s); { (wr O.FIO_DO_PAIR 0 s) with fio := { s.fio with island := { s.fio.island with flags := 0, safe := true, leftSafe := true, params := (((List.range 200).filterMap fun i => if paramId O.FIO_SAFE_LEVEL = some i then some (i, 0x40) else none)) } } }), by decide⟩,
   ⟨0, node, by decide⟩,
   ⟨0, (({ ab := 0, z := false, count := 3, edgeAt := none, ill := false, armed := false, past := [] } : EncSt) : EncSt), (let x : EncSt := ({ ab := 0, z := false, count := 3, edgeAt := none, ill := false, armed := false, past := [] } : EncSt); let s : State := node; let s : State := ({ s with fio := { s.fio with island := { s.fio.island with enc := (List.replicate 4 x) } } }); { s with fio := { s.fio with island := { s.fio.island with up := true, params := [((paramId (O.POS_ENC_MODE 0)).getD 0, 1)], enc := [{ ab := 0, z := false, count := 3, edgeAt := none, ill := false, armed := false, past := [] }, { ab := 0, z := false, count := 3, edgeAt := none, ill := false, armed := false, past := [] }] } } }), by decide⟩,
   ⟨(let s : State := node; ({ s with fio := { s.fio with island := { s.fio.island with pmAt := [] } } })), by decide⟩,
   ⟨0, ([] : List Nat), (let x : Nat := 0; let l : List Nat := []; let s : State := node; ({ s with fio := { s.fio with island := { s.fio.island with pmAt := x :: l } } })), by decide⟩,
   ⟨0, node, by decide⟩,
   ⟨1, 2000, 1000, ((-5) : Int), (let e : Nat := 1; let s : State := node; { (wr (O.POS_STANDSTILL e) 100 s) with fio := { s.fio with enc := List.replicate 2 { prev := none, neg := none, hist := [(1000,-5)] } } }), by decide⟩,
   ⟨1, 1050, 1000, 500, ((-5) : Int), 3, (let e : Nat := 1; let s : State := node; { (wr (O.POS_STANDSTILL e) 100 s) with fio := { s.fio with enc := List.replicate 2 { prev := none, neg := none, hist := [(1000,-5),(500,3)] } } }), by decide⟩,
   ⟨0, 605, 500, 100, 9, 5, (let s : State := node; { s with fio := { s.fio with enc := [{ prev := none, neg := none, hist := [(500, 9), (100, 5)] }] } }), by decide⟩,
   ⟨(let s : State := node; ({ s with fio := { s.fio with island := { s.fio.island with ssiAt := [] } } })), by decide⟩,
   ⟨100, ([] : List Nat), (let x : Nat := 100; let l : List Nat := []; let s : State := node; let s : State := ({ s with fio := { s.fio with island := { s.fio.island with ssiAt := x :: l } } }); { s with fio := { s.fio with island := { s.fio.island with ssiAt := [100], ssiFree := 101 } } }), by decide⟩,
   ⟨100, ([] : List Nat), (let x : Nat := 100; let l : List Nat := []; let s : State := node; let s : State := ({ s with fio := { s.fio with island := { s.fio.island with ssiAt := x :: l } } }); let s : State := ({ s with fio := { s.fio with island := { s.fio.island with ssiRun := some default } } }); { s with fio := { s.fio with island := { s.fio.island with ssiAt := [100], ssiFree := 0, ssiRun := some 3 } } }), by decide⟩,
   ⟨100, ([] : List Nat), (let x : Nat := 100; let l : List Nat := []; let s : State := node; let s : State := ({ s with fio := { s.fio with island := { s.fio.island with ssiAt := x :: l } } }); let s : State := ({ s with fio := { s.fio with island := { s.fio.island with ssiRun := none } } }); { s with fio := { s.fio with island := { s.fio.island with ssiAt := [100], ssiFree := 100, ssiRun := none } } }), by decide⟩,
   ⟨0, (let x : Nat := 0; let s : State := node; ({ s with fio := { s.fio with island := { s.fio.island with ssiRun := some x } } })), by decide⟩,
   ⟨(let s : State := node; (wr O.POS_SSI_CODE 0 s)), by decide⟩,
   ⟨2, node, (let p : Nat := 2; let s : State := node; islandParam (O.POS_PRB_MODE p) s), (let p : Nat := 2; let s : State := node; islandParam (O.POS_PRB_EDGE p) s), by decide⟩,
   ⟨0, (let s : State := node; ({ s with fio := { s.fio with island := { s.fio.island with up := false } } })), (let p : Nat := 0; let s : State := node; let s : State := ({ s with fio := { s.fio with island := { s.fio.island with up := false } } }); islandParam (O.POS_PRB_MODE p) s), (let p : Nat := 0; let s : State := node; let s : State := ({ s with fio := { s.fio with island := { s.fio.island with up := false } } }); islandParam (O.POS_PRB_EDGE p) s), by decide⟩,
   ⟨0, node, (let p : Nat := 0; let s : State := node; islandParam (O.POS_PRB_MODE p) s), (let p : Nat := 0; let s : State := node; islandParam (O.POS_PRB_EDGE p) s), by decide⟩,
   ⟨0, false, node, (let p : Nat := 0; let s : State := node; islandParam (O.POS_PRB_MODE p) s), (let p : Nat := 0; let s : State := node; islandParam (O.POS_PRB_EDGE p) s), by decide⟩,
   ⟨0, true, (let s : State := node; { s with fio := { s.fio with island := { s.fio.island with up := true, prbArm := [true, true], params := [((paramId (O.POS_PRB_MODE 0)).getD 0, 2), ((paramId (O.POS_PRB_EDGE 0)).getD 0, 1)] } } }), (let p : Nat := 0; let s : State := node; let s : State := { s with fio := { s.fio with island := { s.fio.island with up := true, prbArm := [true, true], params := [((paramId (O.POS_PRB_MODE 0)).getD 0, 2), ((paramId (O.POS_PRB_EDGE 0)).getD 0, 1)] } } }; islandParam (O.POS_PRB_MODE p) s), (let p : Nat := 0; let s : State := node; let s : State := { s with fio := { s.fio with island := { s.fio.island with up := true, prbArm := [true, true], params := [((paramId (O.POS_PRB_MODE 0)).getD 0, 2), ((paramId (O.POS_PRB_EDGE 0)).getD 0, 1)] } } }; islandParam (O.POS_PRB_EDGE p) s), by decide⟩,
   ⟨0, (let s : State := node; let s : State := ({ s with fio := { s.fio with island := { s.fio.island with up := true } } }); { s with fio := { s.fio with island := { s.fio.island with up := true, prbArm := [true, true], params := [((paramId (O.POS_PRB_MODE 0)).getD 0, 2), ((paramId (O.POS_PRB_EDGE 0)).getD 0, 2)] } } }), (let p : Nat := 0; let s : State := node; let s : State := ({ s with fio := { s.fio with island := { s.fio.island with up := true } } }); let s : State := { s with fio := { s.fio with island := { s.fio.island with up := true, prbArm := [true, true], params := [((paramId (O.POS_PRB_MODE 0)).getD 0, 2), ((paramId (O.POS_PRB_EDGE 0)).getD 0, 2)] } } }; islandParam (O.POS_PRB_MODE p) s), (let p : Nat := 0; let s : State := node; let s : State := ({ s with fio := { s.fio with island := { s.fio.island with up := true } } }); let s : State := { s with fio := { s.fio with island := { s.fio.island with up := true, prbArm := [true, true], params := [((paramId (O.POS_PRB_MODE 0)).getD 0, 2), ((paramId (O.POS_PRB_EDGE 0)).getD 0, 2)] } } }; islandParam (O.POS_PRB_EDGE p) s), (let p : Nat := 0; let s : State := node; let s : State := ({ s with fio := { s.fio with island := { s.fio.island with up := true } } }); let s : State := { s with fio := { s.fio with island := { s.fio.island with up := true, prbArm := [true, true], params := [((paramId (O.POS_PRB_MODE 0)).getD 0, 2), ((paramId (O.POS_PRB_EDGE 0)).getD 0, 2)] } } }; s.tick - 8 * (islandParam (O.POS_PRB_FILTER p) s - 1)), by decide⟩,
   ⟨0, true, (let s : State := node; let s : State := ({ s with fio := { s.fio with island := { s.fio.island with up := true } } }); { s with fio := { s.fio with island := { s.fio.island with up := true, prbArm := [true, true], params := [((paramId (O.POS_PRB_MODE 0)).getD 0, 2), ((paramId (O.POS_PRB_EDGE 0)).getD 0, 0)] } } }), (let p : Nat := 0; let s : State := node; let s : State := ({ s with fio := { s.fio with island := { s.fio.island with up := true } } }); let s : State := { s with fio := { s.fio with island := { s.fio.island with up := true, prbArm := [true, true], params := [((paramId (O.POS_PRB_MODE 0)).getD 0, 2), ((paramId (O.POS_PRB_EDGE 0)).getD 0, 0)] } } }; islandParam (O.POS_PRB_MODE p) s), (let p : Nat := 0; let s : State := node; let s : State := ({ s with fio := { s.fio with island := { s.fio.island with up := true } } }); let s : State := { s with fio := { s.fio with island := { s.fio.island with up := true, prbArm := [true, true], params := [((paramId (O.POS_PRB_MODE 0)).getD 0, 2), ((paramId (O.POS_PRB_EDGE 0)).getD 0, 0)] } } }; islandParam (O.POS_PRB_EDGE p) s), (let p : Nat := 0; let s : State := node; let s : State := ({ s with fio := { s.fio with island := { s.fio.island with up := true } } }); let s : State := { s with fio := { s.fio with island := { s.fio.island with up := true, prbArm := [true, true], params := [((paramId (O.POS_PRB_MODE 0)).getD 0, 2), ((paramId (O.POS_PRB_EDGE 0)).getD 0, 0)] } } }; s.tick - 8 * (islandParam (O.POS_PRB_FILTER p) s - 1)), by decide⟩,
   ⟨0, false, (let s : State := node; let s : State := ({ s with fio := { s.fio with island := { s.fio.island with up := true } } }); { s with fio := { s.fio with island := { s.fio.island with up := true, prbArm := [true, true], params := [((paramId (O.POS_PRB_MODE 0)).getD 0, 2), ((paramId (O.POS_PRB_EDGE 0)).getD 0, 1)] } } }), (let p : Nat := 0; let s : State := node; let s : State := ({ s with fio := { s.fio with island := { s.fio.island with up := true } } }); let s : State := { s with fio := { s.fio with island := { s.fio.island with up := true, prbArm := [true, true], params := [((paramId (O.POS_PRB_MODE 0)).getD 0, 2), ((paramId (O.POS_PRB_EDGE 0)).getD 0, 1)] } } }; islandParam (O.POS_PRB_MODE p) s), (let p : Nat := 0; let s : State := node; let s : State := ({ s with fio := { s.fio with island := { s.fio.island with up := true } } }); let s : State := { s with fio := { s.fio with island := { s.fio.island with up := true, prbArm := [true, true], params := [((paramId (O.POS_PRB_MODE 0)).getD 0, 2), ((paramId (O.POS_PRB_EDGE 0)).getD 0, 1)] } } }; islandParam (O.POS_PRB_EDGE p) s), (let p : Nat := 0; let s : State := node; let s : State := ({ s with fio := { s.fio with island := { s.fio.island with up := true } } }); let s : State := { s with fio := { s.fio with island := { s.fio.island with up := true, prbArm := [true, true], params := [((paramId (O.POS_PRB_MODE 0)).getD 0, 2), ((paramId (O.POS_PRB_EDGE 0)).getD 0, 1)] } } }; s.tick - 8 * (islandParam (O.POS_PRB_FILTER p) s - 1)), by decide⟩,
   ⟨0, (let s : State := node; let s : State := ({ s with fio := { s.fio with island := { s.fio.island with up := true } } }); { s with fio := { s.fio with island := { s.fio.island with up := true, prbArm := [true, true], params := [((paramId (O.POS_PRB_MODE 0)).getD 0, 1), ((paramId (O.POS_PRB_EDGE 0)).getD 0, 2)] } } }), (let p : Nat := 0; let s : State := node; let s : State := ({ s with fio := { s.fio with island := { s.fio.island with up := true } } }); let s : State := { s with fio := { s.fio with island := { s.fio.island with up := true, prbArm := [true, true], params := [((paramId (O.POS_PRB_MODE 0)).getD 0, 1), ((paramId (O.POS_PRB_EDGE 0)).getD 0, 2)] } } }; islandParam (O.POS_PRB_MODE p) s), (let p : Nat := 0; let s : State := node; let s : State := ({ s with fio := { s.fio with island := { s.fio.island with up := true } } }); let s : State := { s with fio := { s.fio with island := { s.fio.island with up := true, prbArm := [true, true], params := [((paramId (O.POS_PRB_MODE 0)).getD 0, 1), ((paramId (O.POS_PRB_EDGE 0)).getD 0, 2)] } } }; islandParam (O.POS_PRB_EDGE p) s), (let p : Nat := 0; let s : State := node; let s : State := ({ s with fio := { s.fio with island := { s.fio.island with up := true } } }); let s : State := { s with fio := { s.fio with island := { s.fio.island with up := true, prbArm := [true, true], params := [((paramId (O.POS_PRB_MODE 0)).getD 0, 1), ((paramId (O.POS_PRB_EDGE 0)).getD 0, 2)] } } }; s.tick - 8 * (islandParam (O.POS_PRB_FILTER p) s - 1)), by decide⟩,
   ⟨0, true, (let s : State := node; let s : State := ({ s with fio := { s.fio with island := { s.fio.island with up := true } } }); { s with fio := { s.fio with island := { s.fio.island with up := true, prbArm := [true, true], params := [((paramId (O.POS_PRB_MODE 0)).getD 0, 1), ((paramId (O.POS_PRB_EDGE 0)).getD 0, 0)] } } }), (let p : Nat := 0; let s : State := node; let s : State := ({ s with fio := { s.fio with island := { s.fio.island with up := true } } }); let s : State := { s with fio := { s.fio with island := { s.fio.island with up := true, prbArm := [true, true], params := [((paramId (O.POS_PRB_MODE 0)).getD 0, 1), ((paramId (O.POS_PRB_EDGE 0)).getD 0, 0)] } } }; islandParam (O.POS_PRB_MODE p) s), (let p : Nat := 0; let s : State := node; let s : State := ({ s with fio := { s.fio with island := { s.fio.island with up := true } } }); let s : State := { s with fio := { s.fio with island := { s.fio.island with up := true, prbArm := [true, true], params := [((paramId (O.POS_PRB_MODE 0)).getD 0, 1), ((paramId (O.POS_PRB_EDGE 0)).getD 0, 0)] } } }; islandParam (O.POS_PRB_EDGE p) s), (let p : Nat := 0; let s : State := node; let s : State := ({ s with fio := { s.fio with island := { s.fio.island with up := true } } }); let s : State := { s with fio := { s.fio with island := { s.fio.island with up := true, prbArm := [true, true], params := [((paramId (O.POS_PRB_MODE 0)).getD 0, 1), ((paramId (O.POS_PRB_EDGE 0)).getD 0, 0)] } } }; s.tick - 8 * (islandParam (O.POS_PRB_FILTER p) s - 1)), by decide⟩,
   ⟨0, false, (let s : State := node; let s : State := ({ s with fio := { s.fio with island := { s.fio.island with up := true } } }); { s with fio := { s.fio with island := { s.fio.island with up := true, prbArm := [true, true], params := [((paramId (O.POS_PRB_MODE 0)).getD 0, 1), ((paramId (O.POS_PRB_EDGE 0)).getD 0, 1)] } } }), (let p : Nat := 0; let s : State := node; let s : State := ({ s with fio := { s.fio with island := { s.fio.island with up := true } } }); let s : State := { s with fio := { s.fio with island := { s.fio.island with up := true, prbArm := [true, true], params := [((paramId (O.POS_PRB_MODE 0)).getD 0, 1), ((paramId (O.POS_PRB_EDGE 0)).getD 0, 1)] } } }; islandParam (O.POS_PRB_MODE p) s), (let p : Nat := 0; let s : State := node; let s : State := ({ s with fio := { s.fio with island := { s.fio.island with up := true } } }); let s : State := { s with fio := { s.fio with island := { s.fio.island with up := true, prbArm := [true, true], params := [((paramId (O.POS_PRB_MODE 0)).getD 0, 1), ((paramId (O.POS_PRB_EDGE 0)).getD 0, 1)] } } }; islandParam (O.POS_PRB_EDGE p) s), (let p : Nat := 0; let s : State := node; let s : State := ({ s with fio := { s.fio with island := { s.fio.island with up := true } } }); let s : State := { s with fio := { s.fio with island := { s.fio.island with up := true, prbArm := [true, true], params := [((paramId (O.POS_PRB_MODE 0)).getD 0, 1), ((paramId (O.POS_PRB_EDGE 0)).getD 0, 1)] } } }; s.tick - 8 * (islandParam (O.POS_PRB_FILTER p) s - 1)), by decide⟩,
   ⟨0, (let e : Nat := 0; let s : State := node; let s : State := (wr O.SYS_RECOVERY 0 s); (wr (O.POS_Z_MODE e) (2 + 1) s)), by decide⟩,
   ⟨0, (let e : Nat := 0; let s : State := node; let s : State := (wr O.SYS_RECOVERY 0 s); (wr (O.POS_Z_MODE e) 2 s)), by decide⟩,
   ⟨0, (let p : Nat := 0; let s : State := node; let s : State := (wr O.SYS_RECOVERY 0 s); (wr (O.POS_PRB_MODE p) (1 + 1) s)), by decide⟩,
   ⟨0, (let p : Nat := 0; let s : State := node; let s : State := (wr O.SYS_RECOVERY 0 s); (wr (O.POS_PRB_MODE p) 1 s)), by decide⟩,
   ⟨2, by decide⟩,
   ⟨0, cell, by decide⟩,
   ⟨0, (let s : State := node; (wr O.SYS_RECOVERY (0 + 1) s)), by decide⟩⟩

/-- Obligations.ObjectsAndRemoteRequests: the hypotheses of its clauses can be met. -/
theorem witness_ObjectsAndRemoteRequests :
    (∃ (i : Nat) (sub : Nat), objRow? (i * 256 + sub % 256) = none) ∧
    (∃ (i : Nat) (sub : Nat) (r : ObjRow) (s : State), objRow? (i * 256 + sub % 256) = some r ∧ r.place.here s = false) ∧
    (∃ (w : Who) (i : Nat) (sub : Nat) (v : Nat) (r : ObjRow) (s : State), objRow? (i * 256 + sub % 256) = some r ∧ r.place.here s = true ∧ w.holds (needRight (i * 256 + sub % 256) v) = false) ∧
    (∃ (w : Who) (i : Nat) (sub : Nat) (v : Nat) (r : ObjRow) (s : State), objRow? (i * 256 + sub % 256) = some r ∧ r.place.here s = true ∧ w.holds (needRight (i * 256 + sub % 256) v) = true ∧ r.acc = .ro) ∧
    (∃ (w : Who) (i : Nat) (sub : Nat) (v : Nat) (r : ObjRow) (s : State), objRow? (i * 256 + sub % 256) = some r ∧ r.place.here s = true ∧ w.holds (needRight (i * 256 + sub % 256) v) = true ∧ (r.acc = .saf ∧ (isCell s = true ∨ rd O.SAF_STATE s ≠ 1))) ∧
    (∃ (w : Who) (i : Nat) (sub : Nat) (v : Nat) (k : Nat) (r : ObjRow) (s : State), k = i * 256 + sub % 256 ∧ objRow? k = some r ∧ r.place.here s = true ∧ w.holds (needRight k v) = true ∧ r.acc ≠ .ro ∧ (r.acc = .saf → isCell s = false ∧ rd O.SAF_STATE s = 1) ∧ romRefuses k v s = true) ∧
    (∃ (w : Who) (i : Nat) (sub : Nat) (v : Nat) (k : Nat) (r : ObjRow) (s : State) (t : State) (st : Nat), k = i * 256 + sub % 256 ∧ objRow? k = some r ∧ r.place.here s = true ∧ w.holds (needRight k v) = true ∧ r.acc ≠ .ro ∧ (r.acc = .saf → isCell s = false ∧ rd O.SAF_STATE s = 1) ∧ romRefuses k v s = false ∧ writeTime k v s = some (st, t)) ∧
    (∃ (w : Who) (i : Nat) (sub : Nat) (v : Nat) (k : Nat) (r : ObjRow) (s : State) (t : State) (st : Nat), k = i * 256 + sub % 256 ∧ objRow? k = some r ∧ r.place.here s = true ∧ w.holds (needRight k v) = true ∧ r.acc ≠ .ro ∧ (r.acc = .saf → isCell s = false ∧ rd O.SAF_STATE s = 1) ∧ romRefuses k v s = false ∧ writeTime k v s = none ∧ writeSwitch k v s = some (st, t)) ∧
    (∃ (w : Who) (i : Nat) (sub : Nat) (v : Nat) (k : Nat) (r : ObjRow) (s : State) (t : State) (st : Nat), k = i * 256 + sub % 256 ∧ objRow? k = some r ∧ r.place.here s = true ∧ w.holds (needRight k v) = true ∧ r.acc ≠ .ro ∧ (r.acc = .saf → isCell s = false ∧ rd O.SAF_STATE s = 1) ∧ romRefuses k v s = false ∧ writeTime k v s = none ∧ writeSwitch k v s = none ∧ writeSense k v s = some (st, t)) ∧
    (∃ (w : Who) (i : Nat) (sub : Nat) (v : Nat) (k : Nat) (r : ObjRow) (s : State) (t : State) (st : Nat), k = i * 256 + sub % 256 ∧ objRow? k = some r ∧ r.place.here s = true ∧ w.holds (needRight k v) = true ∧ r.acc ≠ .ro ∧ (r.acc = .saf → isCell s = false ∧ rd O.SAF_STATE s = 1) ∧ romRefuses k v s = false ∧ writeTime k v s = none ∧ writeSwitch k v s = none ∧ writeSense k v s = none ∧ writeCores w k v s = some (st, t)) ∧
    (∃ (w : Who) (i : Nat) (sub : Nat) (v : Nat) (k : Nat) (r : ObjRow) (s : State), k = i * 256 + sub % 256 ∧ objRow? k = some r ∧ r.place.here s = true ∧ w.holds (needRight k v) = true ∧ r.acc ≠ .ro ∧ (r.acc = .saf → isCell s = false ∧ rd O.SAF_STATE s = 1) ∧ rd O.SYS_RECOVERY s = 0 ∧ writeTime k v s = none ∧ writeSwitch k v s = none ∧ writeSense k v s = none ∧ writeCores w k v s = none ∧ r.place.writes s = false) ∧
    (∃ (w : Who) (i : Nat) (sub : Nat) (v : Nat) (k : Nat) (r : ObjRow) (s : State), k = i * 256 + sub % 256 ∧ objRow? k = some r ∧ r.place.here s = true ∧ w.holds (needRight k v) = true ∧ r.acc ≠ .ro ∧ (r.acc = .saf → isCell s = false ∧ rd O.SAF_STATE s = 1) ∧ rd O.SYS_RECOVERY s = 0 ∧ writeTime k v s = none ∧ writeSwitch k v s = none ∧ writeSense k v s = none ∧ writeCores w k v s = none ∧ r.place.writes s = true ∧ plainGuard w k (keepBits k v) s ≠ 0) ∧
    (∃ (w : Who) (i : Nat) (sub : Nat) (v : Nat) (k : Nat) (r : ObjRow) (s : State), k = i * 256 + sub % 256 ∧ objRow? k = some r ∧ r.place.here s = true ∧ w.holds (needRight k v) = true ∧ r.acc ≠ .ro ∧ (r.acc = .saf → isCell s = false ∧ rd O.SAF_STATE s = 1) ∧ rd O.SYS_RECOVERY s = 0 ∧ writeTime k v s = none ∧ writeSwitch k v s = none ∧ writeSense k v s = none ∧ writeCores w k v s = none ∧ r.place.writes s = true ∧ plainGuard w k (keepBits k v) s = 0 ∧ r.inRange (keepBits k v) = false) ∧
    (∃ (w : Who) (i : Nat) (sub : Nat) (v : Nat) (k : Nat) (r : ObjRow) (s : State), k = i * 256 + sub % 256 ∧ objRow? k = some r ∧ r.place.here s = true ∧ w.holds (needRight k v) = true ∧ r.acc ≠ .ro ∧ (r.acc = .saf → isCell s = false ∧ rd O.SAF_STATE s = 1) ∧ rd O.SYS_RECOVERY s = 0 ∧ writeTime k v s = none ∧ writeSwitch k v s = none ∧ writeSense k v s = none ∧ writeCores w k v s = none ∧ r.place.writes s = true ∧ plainGuard w k (keepBits k v) s = 0 ∧ r.inRange (keepBits k v) = true) ∧
    (∃ (v : Nat) (s : State), isNode s = true ∧ rd O.SYS_RECOVERY s = 0 ∧ 1 ≤ v ∧ v ≤ 1000) ∧
    (∃ (v : Nat) (s : State), isNode s = true ∧ rd O.SYS_RECOVERY s = 0 ∧ 4000 < v) ∧
    (∃ (b : Nat), b ≠ 3 ∧ b ≠ 5) ∧
    (∃ (k : Nat), objRow? k = none) ∧
    (∃ (k : Nat) (r : ObjRow) (s : State), objRow? k = some r ∧ r.place.here s = false) ∧
    (∃ (w : Who) (k : Nat) (r : ObjRow) (s : State), objRow? k = some r ∧ r.place.here s = true ∧ w.holds 0 = true ∧ r.acc = .wo) ∧
    (∃ (w : Who) (k : Nat) (r : ObjRow) (s : State), objRow? k = some r ∧ r.place.here s = true ∧ w.holds 0 = true ∧ r.acc ≠ .wo ∧ rd O.SYS_RECOVERY s ≠ 0 ∧ k / 1048576 ≠ 1 ∧ k / 1048576 ≠ 13) ∧
    (∃ (w : Who) (k : Nat) (r : ObjRow) (s : State), objRow? k = some r ∧ r.place.here s = true ∧ w.holds 0 = true ∧ r.acc ≠ .wo ∧ rd O.SYS_RECOVERY s = 0) ∧
    (∃ (k : Nat), k / 256 < 0xB120) ∧
    (∃ (k : Nat), 0xB121 < k / 256) ∧
    (∃ (s : State), s.tick < 2 ^ 64) ∧
    (∃ (w : Who) (k : Nat) (n : Nat) (s : State) (t : State) (v : Nat), readObj w (k + n) s = (stOk, v, t)) ∧
    (∃ (w : Who) (k : Nat) (n : Nat) (st : Nat) (v : Nat) (s : State) (t : State), st ≠ 0 ∧ readObj w (k + n) s = (st, v, t)) ∧
    (∃ (w : Who) (k : Nat) (c : Nat) (n : Nat) (b : Nat) (d : List Nat) (s : State) (t : State), b = ceilDiv (objBits (k + n)) 8 ∧ b ≤ d.length ∧ 0 < c ∧ writeCheck w (k + n) (ofBe (d.take b)) s = stOk ∧ writeObj w (k + n) (ofBe (d.take b)) s = (stOk, t)) ∧
    (∃ (w : Who) (k : Nat) (c : Nat) (n : Nat) (b : Nat) (d : List Nat) (s : State) (t : State) (st : Nat), b = ceilDiv (objBits (k + n)) 8 ∧ b ≤ d.length ∧ 0 < c ∧ writeCheck w (k + n) (ofBe (d.take b)) s = stOk ∧ st ≠ 0 ∧ writeObj w (k + n) (ofBe (d.take b)) s = (st, t)) ∧
    (∃ (w : Who) (k : Nat) (n : Nat) (d : List Nat) (s : State) (t : State), d.length = ceilDiv (objBits (k + n)) 8 ∧ writeCheck w (k + n) (ofBe d) s = stOk ∧ writeObj w (k + n) (ofBe d) s = (stOk, t)) ∧
    (∃ (w : Who) (k : Nat) (c : Nat) (n : Nat) (d : List Nat) (s : State), d.length < ceilDiv (objBits (k + n)) 8 ∧ 0 < c ∧ writeCheck w (k + n) 0 s = stOk) ∧
    (∃ (w : Who) (k : Nat) (c : Nat) (n : Nat) (d : List Nat) (s : State), d.length < ceilDiv (objBits (k + n)) 8 ∧ 0 < c ∧ writeCheck w (k + n) 0 s ≠ stOk) ∧
    (∃ (h : Hdr) (m : ObjMsg) (r : ObjMsg) (c : Instr) (s : State), 0 < m.tryN ∧ cached h m s = some r ∧ c ∈ [Instr.objReqRead h m, .objReqWrite h m, .objReqNotice h m, .objReqAttest h m]) ∧
    (∃ (m : ObjMsg), m.tryN = 0 ∧ m.proxy = false) ∧
    (∃ (h : Hdr) (m : ObjMsg) (s : State), cached h m s = none ∧ m.proxy = false) ∧
    (∃ (m : ObjMsg) (s : State), m.tryN = 0 ∧ m.proxy = true ∧ isApex s = false) ∧
    (∃ (h : Hdr) (m : ObjMsg) (s : State), cached h m s = none ∧ m.proxy = true ∧ isApex s = false) ∧
    (∃ (m : ObjMsg) (p : ObjMsg) (s : State), m.tryN = 0 ∧ m.proxy = true ∧ isApex s = true ∧ p = { m with proxy := false, tgt := 0, tryN := 0 } ∧ tgtHere m.tgt s = true) ∧
    (∃ (h : Hdr) (m : ObjMsg) (p : ObjMsg) (s : State), cached h m s = none ∧ m.proxy = true ∧ isApex s = true ∧ p = { m with proxy := false, tgt := 0, tryN := 0 } ∧ tgtHere m.tgt s = true) ∧
    (∃ (m : ObjMsg) (p : ObjMsg) (s : State), m.tryN = 0 ∧ m.proxy = true ∧ isApex s = true ∧ p = { m with proxy := false, tgt := 0, tryN := 0 } ∧ tgtHere m.tgt s = false) ∧
    (∃ (h : Hdr) (m : ObjMsg) (p : ObjMsg) (s : State), cached h m s = none ∧ m.proxy = true ∧ isApex s = true ∧ p = { m with proxy := false, tgt := 0, tryN := 0 } ∧ tgtHere m.tgt s = false) ∧
    (∃ (h : Hdr) (m : ObjMsg) (s : State) (t : State) (st : Nat) (n : Nat) (d : List Nat), m.op = 1 ∧ reqReads (asker h m) 988 m s = (st, n, d, t)) ∧
    (∃ (h : Hdr) (m : ObjMsg) (s : State) (t : State) (st : Nat) (n : Nat), reqWrites h m s = (st, n, t) ∧ m.op = 2) ∧
    (∃ (h : Hdr) (m : ObjMsg) (s : State) (t : State) (st : Nat) (n : Nat), reqWrites h m s = (st, n, t) ∧ m.op = 3 ∧ figuresRx h m s = false) ∧
    (∃ (h : Hdr) (m : ObjMsg) (s : State), m.op = 3 ∧ figuresRx h m s = true) ∧
    (∃ (w : Who) (m : ObjMsg) (s : State) (t : State) (st : Nat) (n : Nat) (d : List Nat), 0 < m.count ∧ m.sub + m.count ≤ 256 ∧ readMany w (m.index * 256 + m.sub) m.count 0 [] s = (st, n, d, t)) ∧
    (∃ (m : ObjMsg), m.index ≠ 0xC020 ∧ m.count = 0) ∧
    (∃ (m : ObjMsg), m.index ≠ 0xC020 ∧ 256 < m.sub + m.count) ∧
    (∃ (m : ObjMsg), m.count ≠ 2 ∧ m.count = 0) ∧
    (∃ (m : ObjMsg), m.count ≠ 2 ∧ 256 < m.sub + m.count) ∧
    (∃ (m : ObjMsg), m.index ≠ 0xC020 ∧ 0 < m.count ∧ m.sub + m.count ≤ 256) ∧
    (∃ (m : ObjMsg), m.count ≠ 2 ∧ 0 < m.count ∧ m.sub + m.count ≤ 256) ∧
    (∃ (m : ObjMsg) (s : State), m.op = 4 ∧ rd O.SYS_RECOVERY s ≠ 0) ∧
    (∃ (m : ObjMsg) (s : State), m.op = 4 ∧ rd O.SYS_RECOVERY s = 0 ∧ m.data.length ≠ 32) ∧
    (∃ (m : ObjMsg) (s : State), m.op = 4 ∧ rd O.SYS_RECOVERY s = 0 ∧ m.data.length = 32) ∧
    (∃ (m : ObjMsg) (s : State), (∀ r ∈ s.rem.reqs, r.msg.reqId ≠ m.reqId)) ∧
    (∃ (m : ObjMsg) (r : RemReq) (s : State), s.rem.reqs.find? (fun r => r.msg.reqId == m.reqId) = some r) ∧
    (∃ (r : RemReq), r.by_ = .core) ∧
    (∃ (r : RemReq) (id : Nat) (q : Nat) (op : Nat), r.by_ = .jop id q op) ∧
    (∃ (r : RemReq) (h : Hdr) (m : ObjMsg), r.by_ = .proxy h m) ∧
    (∃ (id : Nat) (s : State), (∀ r ∈ s.rem.reqs, r.msg.reqId ≠ id)) ∧
    (∃ (id : Nat) (r : RemReq) (s : State), s.rem.reqs.find? (fun r => r.msg.reqId == id) = some r ∧ 0 < r.left) ∧
    (∃ (id : Nat) (r : RemReq) (s : State), s.rem.reqs.find? (fun r => r.msg.reqId == id) = some r ∧ r.left = 0) ∧
    (∃ (s : State), isNode s = true ∧ rd O.SYS_RECOVERY s = 0 ∧ rd O.TREE_REM_STATE s = 1) ∧
    (∃ (s : State), isNode s = true ∧ rd O.SYS_RECOVERY s = 0 ∧ rd O.TREE_REM_STATE s ≠ 1) ∧
    (∃ (s : State), isNode s = true ∧ rd O.SYS_RECOVERY s ≠ 0) ∧
    (∃ (s : State), isCell s = true) ∧
    (∃ (s : State), isNode s = true ∧ isApex s = false) ∧
    (∃ (n : Nat) (s : State), isApex s = false ∧ aget s.tree.routes n = none) ∧
    (∃ (n : Nat) (s : State), aget s.tree.routes n ≠ none) ∧
    (∃ (n : Nat), 64 ≤ n) ∧
    (∃ (n : Nat) (s : State), isApex s = true ∧ n < 64) :=
  ⟨⟨0, 0, rfl⟩,
   ⟨((0x101001 / 256) : Nat), ((0x101001 % 256) : Nat), ((match objRow? (0x101001) with | some r => r | none => ⟨0,0,0,0,.bool,.ro,0,.any,.all⟩) : ObjRow), cell, rfl, by decide⟩,
   ⟨((.jop 1) : Who), ((0x101001 / 256) : Nat), ((0x101001 % 256) : Nat), 5, ((match objRow? (0x101001) with | some r => r | none => ⟨0,0,0,0,.bool,.ro,0,.any,.all⟩) : ObjRow), apex, rfl, by decide⟩,
   ⟨((.jop 255) : Who), ((0x101008 / 256) : Nat), ((0x101008 % 256) : Nat), 0, ((match objRow? (0x101008) with | some r => r | none => ⟨0,0,0,0,.bool,.ro,0,.any,.all⟩) : ObjRow), apex, rfl, by decide⟩,
   ⟨((.jop 255) : Who), (((O.SAF_TRIP_DO) / 256) : Nat), (((O.SAF_TRIP_DO) % 256) : Nat), 0, ((match objRow? ((O.SAF_TRIP_DO)) with | some r => r | none => ⟨0,0,0,0,.bool,.ro,0,.any,.all⟩) : ObjRow), (let s : State := node; wr O.SAF_STATE 2 s), rfl, by decide⟩,
   ⟨((.core true) : Who), ((O.BAL_REPORT_MARGIN / 256) : Nat), ((O.BAL_REPORT_MARGIN % 256) : Nat), 1, O.BAL_REPORT_MARGIN, (let k : Nat := O.BAL_REPORT_MARGIN; ((objRow? k).getD dObjRow)), (let s : State := node; wr O.SYS_RECOVERY 1 s), by decide, rfl, by decide⟩,
   ⟨((.core true) : Who), ((O.TIM_PERIOD / 256) : Nat), ((O.TIM_PERIOD % 256) : Nat), 4000, O.TIM_PERIOD, (let k : Nat := O.TIM_PERIOD; ((objRow? k).getD dObjRow)), (let s : State := node; wr O.SYS_RECOVERY 0 s), (let v : Nat := 4000; let k : Nat := O.TIM_PERIOD; let s : State := node; let s : State := wr O.SYS_RECOVERY 0 s; ((writeTime k v s).getD (0,s)).2), (let v : Nat := 4000; let k : Nat := O.TIM_PERIOD; let s : State := node; let s : State := wr O.SYS_RECOVERY 0 s; ((writeTime k v s).getD (0,s)).1), by decide, rfl, by decide⟩,
   ⟨((.core true) : Who), ((O.LAW_CMD / 256) : Nat), ((O.LAW_CMD % 256) : Nat), 1, O.LAW_CMD, (let k : Nat := O.LAW_CMD; ((objRow? k).getD dObjRow)), (let s : State := node; wr O.SYS_RECOVERY 0 s), (let v : Nat := 1; let k : Nat := O.LAW_CMD; let s : State := node; let s : State := wr O.SYS_RECOVERY 0 s; ((writeSwitch k v s).getD (0,s)).2), (let v : Nat := 1; let k : Nat := O.LAW_CMD; let s : State := node; let s : State := wr O.SYS_RECOVERY 0 s; ((writeSwitch k v s).getD (0,s)).1), by decide, rfl, by decide⟩,
   ⟨((.core true) : Who), ((O.ADC_CMD / 256) : Nat), ((O.ADC_CMD % 256) : Nat), 1, O.ADC_CMD, (let k : Nat := O.ADC_CMD; ((objRow? k).getD dObjRow)), (let s : State := node; wr O.SYS_RECOVERY 0 s), (let v : Nat := 1; let k : Nat := O.ADC_CMD; let s : State := node; let s : State := wr O.SYS_RECOVERY 0 s; ((writeSense k v s).getD (0,s)).2), (let v : Nat := 1; let k : Nat := O.ADC_CMD; let s : State := node; let s : State := wr O.SYS_RECOVERY 0 s; ((writeSense k v s).getD (0,s)).1), by decide, rfl, by decide⟩,
   ⟨((.core true) : Who), ((O.TSK_CMD / 256) : Nat), ((O.TSK_CMD % 256) : Nat), 1, O.TSK_CMD, (let k : Nat := O.TSK_CMD; ((objRow? k).getD dObjRow)), (let s : State := node; wr O.SYS_RECOVERY 0 s), (let w : Who := (.core true); let v : Nat := 1; let k : Nat := O.TSK_CMD; let s : State := node; let s : State := wr O.SYS_RECOVERY 0 s; ((writeCores w k v s).getD (0,s)).2), (let w : Who := (.core true); let v : Nat := 1; let k : Nat := O.TSK_CMD; let s : State := node; let s : State := wr O.SYS_RECOVERY 0 s; ((writeCores w k v s).getD (0,s)).1), by decide, rfl, by decide⟩,
   ⟨((.core true) : Who), ((O.TIM_PTP_ENABLE / 256) : Nat), ((O.TIM_PTP_ENABLE % 256) : Nat), 1, O.TIM_PTP_ENABLE, (let k : Nat := O.TIM_PTP_ENABLE; ((objRow? k).getD dObjRow)), (let s : State := node; let s : State := (wr O.SYS_RECOVERY 0 s); wr O.SYS_RECOVERY 0 s), by decide, rfl, by decide⟩,
   ⟨((.core true) : Who), (((O.SYS_IP_MASK 0) / 256) : Nat), (((O.SYS_IP_MASK 0) % 256) : Nat), 5, ((O.SYS_IP_MASK 0) : Nat), (let k : Nat := (O.SYS_IP_MASK 0); ((objRow? k).getD dObjRow)), (let s : State := apex; let s : State := (wr O.SYS_RECOVERY 0 s); wr O.SYS_RECOVERY 0 s), by decide, rfl, by decide⟩,
   ⟨((.core true) : Who), ((O.BAL_REPORT_MARGIN / 256) : Nat), ((O.BAL_REPORT_MARGIN % 256) : Nat), 61, O.BAL_REPORT_MARGIN, (let k : Nat := O.BAL_REPORT_MARGIN; ((objRow? k).getD dObjRow)), (let s : State := node; let s : State := (wr O.SYS_RECOVERY 0 s); wr O.SYS_RECOVERY 0 s), by decide, rfl, by decide⟩,
   ⟨((.core true) : Who), ((O.BAL_REPORT_MARGIN / 256) : Nat), ((O.BAL_REPORT_MARGIN % 256) : Nat), 7, O.BAL_REPORT_MARGIN, (let k : Nat := O.BAL_REPORT_MARGIN; ((objRow? k).getD dObjRow)), (let s : State := node; let s : State := (wr O.SYS_RECOVERY 0 s); wr O.SYS_RECOVERY 0 s), by decide, rfl, by decide⟩,
   ⟨1, (let s : State := node; (wr O.SYS_RECOVERY 0 s)), by decide⟩,
   ⟨((4000 + 1) : Nat), (let s : State := node; (wr O.SYS_RECOVERY 0 s)), by decide⟩,
   ⟨1, by decide⟩,
   ⟨0, rfl⟩,
   ⟨O.BAL_REPORT_MARGIN, (let k : Nat := O.BAL_REPORT_MARGIN; ((objRow? k).getD dObjRow)), cell, rfl, by decide⟩,
   ⟨((.jop 1) : Who), 0x100007, ((match objRow? (0x100007) with | some r => r | none => ⟨0,0,0,0,.bool,.ro,0,.any,.all⟩) : ObjRow), apex, rfl, by decide⟩,
   ⟨((.core true) : Who), O.BAL_REPORT_MARGIN, (let k : Nat := O.BAL_REPORT_MARGIN; ((objRow? k).getD dObjRow)), (let s : State := node; let s : State := (wr O.SYS_RECOVERY (0 + 1) s); wr O.SYS_RECOVERY 1 s), rfl, by decide⟩,
   ⟨((.jop 1) : Who), 0x101001, ((match objRow? (0x101001) with | some r => r | none => ⟨0,0,0,0,.bool,.ro,0,.any,.all⟩) : ObjRow), (let s : State := apex; (wr O.SYS_RECOVERY 0 s)), rfl, by decide⟩,
   ⟨0, by decide⟩,
   ⟨((0xB122 * 256) : Nat), by decide⟩,
   ⟨node, by decide⟩,
   ⟨((.jop 1) : Who), 0x100005, 0, apex, (let w : Who := (.jop 1); let k : Nat := 0x100005; let s : State := apex; (readObj w k s).2.2), (let w : Who := (.jop 1); let k : Nat := 0x100005; let s : State := apex; (readObj w k s).2.1), rfl⟩,
   ⟨((.core false) : Who), 0, 0, ((0 + 1) : Nat), 0, node, node, by decide, rfl⟩,
   ⟨((.core true) : Who), O.BAL_REPORT_MARGIN, 1, 0, 1, ([7] : List Nat), (let s : State := node; wr O.SYS_RECOVERY 0 s), (let w : Who := (.core true); let k : Nat := O.BAL_REPORT_MARGIN; let n : Nat := 0; let d : List Nat := [7]; let s : State := node; let s : State := wr O.SYS_RECOVERY 0 s; (writeObj w (k + n) (ofBe d) s).2), by decide⟩,
   ⟨((.core true) : Who), O.TIM_PERIOD, 1, 0, 4, ([0,0,0,1] : List Nat), (let s : State := node; wr O.SYS_RECOVERY 0 s), (let w : Who := (.core true); let k : Nat := O.TIM_PERIOD; let n : Nat := 0; let d : List Nat := [0,0,0,1]; let s : State := node; let s : State := wr O.SYS_RECOVERY 0 s; (writeObj w (k + n) (ofBe d) s).2), (let w : Who := (.core true); let k : Nat := O.TIM_PERIOD; let n : Nat := 0; let d : List Nat := [0,0,0,1]; let s : State := node; let s : State := wr O.SYS_RECOVERY 0 s; (writeObj w (k + n) (ofBe d) s).1), by decide⟩,
   ⟨((.core true) : Who), O.BAL_REPORT_MARGIN, 0, ([7] : List Nat), (let s : State := node; wr O.SYS_RECOVERY 0 s), (let w : Who := (.core true); let k : Nat := O.BAL_REPORT_MARGIN; let n : Nat := 0; let d : List Nat := [7]; let s : State := node; let s : State := wr O.SYS_RECOVERY 0 s; (writeObj w (k + n) (ofBe d) s).2), by decide⟩,
   ⟨((.jop 255) : Who), 0x101001, 1, 0, ([] : List Nat), apex, by decide⟩,
   ⟨((.core false) : Who), 0, ((0 + 1) : Nat), 0, ([] : List Nat), node, by decide⟩,
   ⟨(({ cls := 5, hop := false, typ := 0, dst := 0, src := 1023, dstSide := false, srcSide := false, relayed := false, dstNode := true, srcNode := true, bcast := false, seq := 0 } : Hdr) : Hdr), ({ ({ reqId := 5, op := 1, status := 0, index := 0x1010, sub := 1, count := 1, tryN := 0, proxy := false, commission := false, tgt := 0, data := [] } : ObjMsg) with tryN := 1 } : ObjMsg), (({ reqId := 5, op := 1, status := 0, index := 0x1010, sub := 1, count := 1, tryN := 0, proxy := false, commission := false, tgt := 0, data := [9] } : ObjMsg) : ObjMsg), (let h : Hdr := ({ cls := 5, hop := false, typ := 0, dst := 0, src := 1023, dstSide := false, srcSide := false, relayed := false, dstNode := true, srcNode := true, bcast := false, seq := 0 } : Hdr); let m : ObjMsg := { ({ reqId := 5, op := 1, status := 0, index := 0x1010, sub := 1, count := 1, tryN := 0, proxy := false, commission := false, tgt := 0, data := [] } : ObjMsg) with tryN := 1 }; (.objReqRead h m)), (let s : State := apex; { s with rem := { s.rem with cache := [{ src := 1023, srcSide := false, srcNode := true, resp := ({ reqId := 5, op := 1, status := 0, index := 0x1010, sub := 1, count := 1, tryN := 0, proxy := false, commission := false, tgt := 0, data := [9] } : ObjMsg), at_ := s.tick }] } }), by decide⟩,
   ⟨(let m : ObjMsg := dObjMsg; let m : ObjMsg := ({ m with tryN := 0 }); ({ m with proxy := false })), by decide⟩,
   ⟨dHdr, (let m : ObjMsg := dObjMsg; ({ m with proxy := false })), node, by decide⟩,
   ⟨(let m : ObjMsg := dObjMsg; let m : ObjMsg := ({ m with tryN := 0 }); ({ m with proxy := true })), node, by decide⟩,
   ⟨dHdr, (let m : ObjMsg := dObjMsg; ({ m with proxy := true })), node, by decide⟩,
   ⟨({ dObjMsg with proxy := true, tgt := 0 } : ObjMsg), (let m : ObjMsg := { dObjMsg with proxy := true, tgt := 0 }; { m with proxy := false, tgt := 0, tryN := 0 }), (let s : State := apex; wr O.TREE_NODE_NUMBER 0 s), by decide⟩,
   ⟨dHdr, ({ dObjMsg with proxy := true, tgt := 0, tryN := 1 } : ObjMsg), (let m : ObjMsg := { dObjMsg with proxy := true, tgt := 0, tryN := 1 }; { m with proxy := false, tgt := 0, tryN := 0 }), (let s : State := apex; wr O.TREE_NODE_NUMBER 0 s), by decide⟩,
   ⟨(let m : ObjMsg := dObjMsg; let m : ObjMsg := ({ m with tryN := 0 }); ({ m with proxy := true })), (let m : ObjMsg := dObjMsg; let m : ObjMsg := ({ m with tryN := 0 }); let m : ObjMsg := ({ m with proxy := true }); { m with proxy := false, tgt := 0, tryN := 0 }), apex, by decide⟩,
   ⟨dHdr, (let m : ObjMsg := dObjMsg; ({ m with proxy := true })), (let m : ObjMsg := dObjMsg; let m : ObjMsg := ({ m with proxy := true }); { m with proxy := false, tgt := 0, tryN := 0 }), apex, by decide⟩,
   ⟨dHdr, ({ dObjMsg with op := 1, index := 0x4000, sub := 3, count := 1 } : ObjMsg), node, (let h : Hdr := dHdr; let m : ObjMsg := { dObjMsg with op := 1, index := 0x4000, sub := 3, count := 1 }; let s : State := node; (reqReads (asker h m) 988 m s).2.2.2), (let h : Hdr := dHdr; let m : ObjMsg := { dObjMsg with op := 1, index := 0x4000, sub := 3, count := 1 }; let s : State := node; (reqReads (asker h m) 988 m s).1), (let h : Hdr := dHdr; let m : ObjMsg := { dObjMsg with op := 1, index := 0x4000, sub := 3, count := 1 }; let s : State := node; (reqReads (asker h m) 988 m s).2.1), (let h : Hdr := dHdr; let m : ObjMsg := { dObjMsg with op := 1, index := 0x4000, sub := 3, count := 1 }; let s : State := node; (reqReads (asker h m) 988 m s).2.2.1), by decide⟩,
   ⟨dHdr, ({ dObjMsg with op := 2, index := 0x4000, sub := 3, count := 1, data := [7] } : ObjMsg), node, (let h : Hdr := dHdr; let m : ObjMsg := { dObjMsg with op := 2, index := 0x4000, sub := 3, count := 1, data := [7] }; let s : State := node; (reqWrites h m s).2.2), (let h : Hdr := dHdr; let m : ObjMsg := { dObjMsg with op := 2, index := 0x4000, sub := 3, count := 1, data := [7] }; let s : State := node; (reqWrites h m s).1), (let h : Hdr := dHdr; let m : ObjMsg := { dObjMsg with op := 2, index := 0x4000, sub := 3, count := 1, data := [7] }; let s : State := node; (reqWrites h m s).2.1), by decide⟩,
   ⟨dHdr, ({ dObjMsg with op := 3, index := 0x4000, sub := 3, count := 1, data := [7] } : ObjMsg), node, (let h : Hdr := dHdr; let m : ObjMsg := { dObjMsg with op := 3, index := 0x4000, sub := 3, count := 1, data := [7] }; let s : State := node; (reqWrites h m s).2.2), (let h : Hdr := dHdr; let m : ObjMsg := { dObjMsg with op := 3, index := 0x4000, sub := 3, count := 1, data := [7] }; let s : State := node; (reqWrites h m s).1), (let h : Hdr := dHdr; let m : ObjMsg := { dObjMsg with op := 3, index := 0x4000, sub := 3, count := 1, data := [7] }; let s : State := node; (reqWrites h m s).2.1), by decide⟩,
   ⟨({ dHdr with src := 0, srcNode := true, srcSide := true } : Hdr), ({ dObjMsg with op := 3, index := 0x3100, sub := 4, count := 1, data := [0,0,12,128] } : ObjMsg), (let s : State := apex; wr O.TREE_NODE_NUMBER 0 (wr O.SYS_RECOVERY 0 s)), by decide⟩,
   ⟨((.core true) : Who), ({ dObjMsg with index := 0x4000, sub := 3, count := 1 } : ObjMsg), node, (let w : Who := (.core true); let m : ObjMsg := { dObjMsg with index := 0x4000, sub := 3, count := 1 }; let s : State := node; (readMany w (m.index * 256 + m.sub) m.count 0 [] s).2.2.2), (let w : Who := (.core true); let m : ObjMsg := { dObjMsg with index := 0x4000, sub := 3, count := 1 }; let s : State := node; (readMany w (m.index * 256 + m.sub) m.count 0 [] s).1), (let w : Who := (.core true); let m : ObjMsg := { dObjMsg with index := 0x4000, sub := 3, count := 1 }; let s : State := node; (readMany w (m.index * 256 + m.sub) m.count 0 [] s).2.1), (let w : Who := (.core true); let m : ObjMsg := { dObjMsg with index := 0x4000, sub := 3, count := 1 }; let s : State := node; (readMany w (m.index * 256 + m.sub) m.count 0 [] s).2.2.1), by decide⟩,
   ⟨(let m : ObjMsg := dObjMsg; ({ m with count := 0 })), by decide⟩,
   ⟨({ dObjMsg with sub := 256, count := 1 } : ObjMsg), by decide⟩,
   ⟨(let m : ObjMsg := dObjMsg; ({ m with count := 0 })), by decide⟩,
   ⟨({ dObjMsg with index := 0xC020, sub := 256, count := 1 } : ObjMsg), by decide⟩,
   ⟨({ dObjMsg with index := 1, sub := 1, count := 2 } : ObjMsg), by decide⟩,
   ⟨({ dObjMsg with index := 0xC020, sub := 1, count := 1 } : ObjMsg), by decide⟩,
   ⟨(let m : ObjMsg := dObjMsg; ({ m with op := 4 })), (let s : State := node; (wr O.SYS_RECOVERY (0 + 1) s)), by decide⟩,
   ⟨(let m : ObjMsg := dObjMsg; ({ m with op := 4 })), (let s : State := node; (wr O.SYS_RECOVERY 0 s)), by decide⟩,
   ⟨({ dObjMsg with op := 4, data := List.replicate 32 7 } : ObjMsg), (let s : State := node; (wr O.SYS_RECOVERY 0 s)), by decide⟩,
   ⟨dObjMsg, node, by decide⟩,
   ⟨dObjMsg, dRemReq, (let r : RemReq := dRemReq; let s : State := node; ({ s with rem := { s.rem with reqs := [r] } })), by decide⟩,
   ⟨(let r : RemReq := dRemReq; ({ r with by_ := .core })), by decide⟩,
   ⟨({ dRemReq with by_ := .jop 1 2 0x10 } : RemReq), 1, 2, 0x10, by decide⟩,
   ⟨({ dRemReq with by_ := .proxy dHdr dObjMsg } : RemReq), dHdr, dObjMsg, by decide⟩,
   ⟨0, node, by decide⟩,
   ⟨5, (({ by_ := .core, node := 3, side := false, cell := none, msg := ({ reqId := 5, op := 1, status := 0, index := 0x1010, sub := 1, count := 1, tryN := 0, proxy := false, commission := false, tgt := 0, data := [] } : ObjMsg), sentAt := 4, wait := 100, left := 1 } : RemReq) : RemReq), (let r : RemReq := ({ by_ := .core, node := 3, side := false, cell := none, msg := ({ reqId := 5, op := 1, status := 0, index := 0x1010, sub := 1, count := 1, tryN := 0, proxy := false, commission := false, tgt := 0, data := [] } : ObjMsg), sentAt := 4, wait := 100, left := 1 } : RemReq); let s : State := apex; let s : State := ({ s with rem := { s.rem with reqs := [r] } }); { s with rem := { s.rem with reqs := [({ by_ := .core, node := 3, side := false, cell := none, msg := ({ reqId := 5, op := 1, status := 0, index := 0x1010, sub := 1, count := 1, tryN := 0, proxy := false, commission := false, tgt := 0, data := [] } : ObjMsg), sentAt := 4, wait := 100, left := 1 } : RemReq)] } }), by decide⟩,
   ⟨0, (let r : RemReq := dRemReq; ({ r with left := 0 })), (let r : RemReq := dRemReq; let r : RemReq := ({ r with left := 0 }); let s : State := node; ({ s with rem := { s.rem with reqs := [r] } })), by decide⟩,
   ⟨(let s : State := node; let s : State := (wr O.SYS_RECOVERY 0 s); (wr O.TREE_REM_STATE 1 s)), by decide⟩,
   ⟨(let s : State := node; let s : State := (wr O.SYS_RECOVERY 0 s); (wr O.TREE_REM_STATE (1 + 1) s)), by decide⟩,
   ⟨(let s : State := node; (wr O.SYS_RECOVERY (0 + 1) s)), by decide⟩,
   ⟨cell, by decide⟩,
   ⟨node, by decide⟩,
   ⟨0, (let s : State := node; ({ s with tree := { s.tree with routes := [] } })), by decide⟩,
   ⟨0, (let n : Nat := 0; let s : State := node; { s with tree := { s.tree with routes := [(n, 0)] } }), by decide⟩,
   ⟨64, by decide⟩,
   ⟨0, apex, by decide⟩⟩

/-- Obligations.BulkTransfers: the hypotheses of its clauses can be met. -/
theorem witness_BulkTransfers :
    (∃ (s : State), rd O.SYS_RECOVERY s = 0 ∧ isNode s = false) ∧
    (∃ (s : State), rd O.SYS_RECOVERY s = 0 ∧ s.nvm.eraseBad = false) ∧
    (∃ (h : Hdr) (b : Bulk) (x : InXfer) (d : List Nat) (s : State), s.rem.ins.find? (fun x => x.is h b) = some x ∧ d = b.data.take b.len ∧ x.read ≠ none) ∧
    (∃ (h : Hdr) (b : Bulk) (x : InXfer) (d : List Nat) (s : State), s.rem.ins.find? (fun x => x.is h b) = some x ∧ d = b.data.take b.len ∧ x.read = none ∧ writeStatus b.region b.offset d.length s ≠ stOk) ∧
    (∃ (h : Hdr) (b : Bulk) (x : InXfer) (d : List Nat) (s : State), s.rem.ins.find? (fun x => x.is h b) = some x ∧ d = b.data.take b.len ∧ x.read = none ∧ writeStatus b.region b.offset d.length s = stOk) ∧
    (∃ (h : Hdr) (b : Bulk) (s : State) (st : Nat), (∀ x ∈ s.rem.ins, x.is h b = false) ∧ st = writeStatus b.region b.offset (b.data.take b.len).length s ∧ st ≠ stOk) ∧
    (∃ (h : Hdr) (b : Bulk) (s : State) (st : Nat), (∀ x ∈ s.rem.ins, x.is h b = false) ∧ st = writeStatus b.region b.offset (b.data.take b.len).length s ∧ st = stOk ∧ 4 ≤ serving s) ∧
    (∃ (h : Hdr) (b : Bulk) (s : State) (st : Nat), (∀ x ∈ s.rem.ins, x.is h b = false) ∧ st = writeStatus b.region b.offset (b.data.take b.len).length s ∧ st = stOk ∧ serving s < 4) ∧
    (∃ (s : State), s.nvm.opened = true ∧ s.nvm.eraseEnd ≠ none) ∧
    (∃ (off : Nat) (d : List Nat) (s : State), s.nvm.opened = true ∧ s.nvm.eraseEnd = none ∧ off + d.length ≤ 3145728 ∧ (∀ x ∈ d, x < 256) ∧ (1 - rd O.NVM_RUN_SLOT s) ∉ s.nvm.factory) ∧
    (∃ (s : State) (i : Nat), s.nvm.opened = false ∧ i = 1 - rd O.NVM_RUN_SLOT s ∧ rd O.NVM_RUN_SLOT s ≤ 1) ∧
    (∃ (x : Nat) (o : Nat) (d : List Nat) (s : State), s.nvm.eraseEnd = some x ∧ s.nvm.held = [(o, d)]) ∧
    (∃ (h : Hdr) (b : Bulk) (s : State), (∀ x ∈ s.rem.ins, x.is h b = false) ∧ writeStatus b.region b.offset b.len s = stOk) ∧
    (∃ (h : Hdr) (b : Bulk) (s : State), (∀ x ∈ s.rem.ins, x.is h b = false) ∧ writeStatus b.region b.offset b.len s ≠ stOk) ∧
    (∃ (h : Hdr) (b : Bulk) (x : InXfer) (l : List (Nat × Nat)) (s : State), s.rem.ins.find? (fun x => x.is h b) = some x ∧ x.read = none ∧ l = missing b.offset b.len x.got ∧ s.nvm.eraseBad = true) ∧
    (∃ (h : Hdr) (b : Bulk) (x : InXfer) (l : List (Nat × Nat)) (s : State), s.rem.ins.find? (fun x => x.is h b) = some x ∧ x.read = none ∧ l = missing b.offset b.len x.got ∧ s.nvm.eraseBad = false ∧ l ≠ []) ∧
    (∃ (h : Hdr) (b : Bulk) (x : InXfer) (l : List (Nat × Nat)) (s : State), s.rem.ins.find? (fun x => x.is h b) = some x ∧ x.read = none ∧ l = missing b.offset b.len x.got ∧ s.nvm.eraseBad = false ∧ l = [] ∧ h.bcast = false) ∧
    (∃ (h : Hdr) (b : Bulk) (x : InXfer) (l : List (Nat × Nat)) (s : State), s.rem.ins.find? (fun x => x.is h b) = some x ∧ x.read = none ∧ l = missing b.offset b.len x.got ∧ s.nvm.eraseBad = false ∧ l = [] ∧ h.bcast = true) ∧
    (∃ (h : Hdr) (b : Bulk) (x : InXfer) (id : Nat) (seq : Nat) (s : State), s.rem.ins.find? (fun x => x.is h b) = some x ∧ x.read = some (id, seq) ∧ b.status ≠ 0) ∧
    (∃ (h : Hdr) (b : Bulk) (x : InXfer) (id : Nat) (seq : Nat) (s : State), s.rem.ins.find? (fun x => x.is h b) = some x ∧ x.read = some (id, seq) ∧ b.status = 0 ∧ missing x.offset x.len x.got = []) ∧
    (∃ (h : Hdr) (b : Bulk) (x : InXfer) (id : Nat) (seq : Nat) (r : Nat × Nat) (l : List (Nat × Nat)) (s : State), s.rem.ins.find? (fun x => x.is h b) = some x ∧ x.read = some (id, seq) ∧ b.status = 0 ∧ missing x.offset x.len x.got = r :: l) ∧
    (∃ (h : Hdr) (b : Bulk) (x : InXfer) (s : State), x ∈ (dropIn h b s).rem.ins) ∧
    (∃ (s : State), rd (O.NVM_SLOT_STATUS (1 - rd O.NVM_RUN_SLOT s)) s = 1) ∧
    (∃ (l : List (Nat × Nat)), l.Pairwise (fun a b => a.1 ≤ b.1)) ∧
    (∃ (h : Hdr) (b : Bulk) (s : State), (∀ x ∈ s.rem.outs, x.id ≠ b.xfer ∨ x.why = .answer ∨ (∃ i q, x.why = .write i q ∧ (x.dst ≠ h.src ∨ x.side ≠ h.srcSide)) ∨ ∃ l, x.why = .dist l ∧ fld h.src 9 4 ≠ l)) ∧
    (∃ (h : Hdr) (b : Bulk) (x : OutXfer) (p : List OutXfer) (l : List OutXfer) (id : Nat) (seq : Nat) (s : State), s.rem.outs = p ++ x :: l ∧ (∀ y ∈ p, y.id ≠ b.xfer) ∧ x.id = b.xfer ∧ x.why = .write id seq ∧ x.dst = h.src ∧ x.side = h.srcSide) ∧
    (∃ (h : Hdr) (b : Bulk) (x : OutXfer) (p : List OutXfer) (l : List OutXfer) (k : Nat) (s : State), s.rem.outs = p ++ x :: l ∧ (∀ y ∈ p, y.id ≠ b.xfer) ∧ x.id = b.xfer ∧ x.why = .dist k ∧ fld h.src 9 4 = k) ∧
    (∃ (s : State), s.tree.pistes = []) ∧
    (∃ (s : State), rd O.SYS_RECOVERY s ≠ 0) ∧
    (∃ (s : State), rd (O.NVM_SLOT_STATUS (rd O.NVM_DIST_SLOT s)) s ≠ 3) ∧
    (∃ (s : State), isNode s = true ∧ rd O.SYS_RECOVERY s = 0 ∧ s.tree.pistes ≠ [] ∧ rd (O.NVM_SLOT_STATUS (rd O.NVM_DIST_SLOT s)) s = 3 ∧ rd O.NVM_DIST_STATE s = 1) ∧
    (∃ (s : State), isNode s = true ∧ rd O.SYS_RECOVERY s = 0 ∧ s.tree.pistes ≠ [] ∧ rd (O.NVM_SLOT_STATUS (rd O.NVM_DIST_SLOT s)) s = 3 ∧ rd O.NVM_DIST_STATE s = 2) ∧
    (∃ (s : State), isNode s = true ∧ rd O.SYS_RECOVERY s = 0 ∧ s.tree.pistes ≠ [] ∧ rd (O.NVM_SLOT_STATUS (rd O.NVM_DIST_SLOT s)) s = 3 ∧ rd O.NVM_DIST_STATE s ≠ 1 ∧ rd O.NVM_DIST_STATE s ≠ 2) :=
  ⟨⟨(let s : State := cell; (wr O.SYS_RECOVERY 0 s)), by decide⟩,
   ⟨(let s : State := node; let s : State := (wr O.SYS_RECOVERY 0 s); ({ s with nvm := { s.nvm with eraseBad := false } })), by decide⟩,
   ⟨dHdr, ({ dBulk with len := 1, data := [7] } : Bulk), ({ dInXfer with read := some (1, 2) } : InXfer), (let b : Bulk := { dBulk with len := 1, data := [7] }; b.data.take b.len), (let x : InXfer := { dInXfer with read := some (1, 2) }; let s : State := node; let s : State := ({ s with rem := { s.rem with ins := [x] } }); { s with rem := { s.rem with ins := [{ dInXfer with read := some (1, 2) }] } }), by decide⟩,
   ⟨dHdr, dBulk, (let x : InXfer := dInXfer; ({ x with read := none })), (let b : Bulk := dBulk; b.data.take b.len), (let x : InXfer := dInXfer; let x : InXfer := ({ x with read := none }); let s : State := node; ({ s with rem := { s.rem with ins := [x] } })), by decide⟩,
   ⟨dHdr, ({ dBulk with region := 0xD010, len := 1, data := [7] } : Bulk), dInXfer, (let b : Bulk := { dBulk with region := 0xD010, len := 1, data := [7] }; b.data.take b.len), (let x : InXfer := dInXfer; let s : State := node; let s : State := ({ s with rem := { s.rem with ins := [x] } }); let s : State := (wr O.SYS_RECOVERY 0 { s with nvm := { s.nvm with eraseBad := false } }); wr O.SYS_RECOVERY 0 { s with rem := { s.rem with ins := [{ dInXfer with read := none }] } }), by decide⟩,
   ⟨dHdr, dBulk, node, (let b : Bulk := dBulk; let s : State := node; writeStatus b.region b.offset (b.data.take b.len).length s), by decide⟩,
   ⟨dHdr, ({ dBulk with region := 0xD010, len := 1, data := [7] } : Bulk), (let s : State := node; wr O.SYS_RECOVERY 0 { s with rem := { s.rem with ins := (List.replicate 4 { dInXfer with id := 9, src := 3 }) } }), (let b : Bulk := { dBulk with region := 0xD010, len := 1, data := [7] }; let s : State := node; let s : State := wr O.SYS_RECOVERY 0 { s with rem := { s.rem with ins := (List.replicate 4 { dInXfer with id := 9, src := 3 }) } }; writeStatus b.region b.offset (b.data.take b.len).length s), by decide⟩,
   ⟨dHdr, ({ dBulk with region := 0xD010, offset := 100, len := 4, data := [1,2,3,4,5] } : Bulk), (let s : State := node; wr O.SYS_RECOVERY 0 s), (let b : Bulk := { dBulk with region := 0xD010, offset := 100, len := 4, data := [1,2,3,4,5] }; let s : State := node; let s : State := wr O.SYS_RECOVERY 0 s; writeStatus b.region b.offset (b.data.take b.len).length s), by decide⟩,
   ⟨(let s : State := cell; let s : State := ({ s with nvm := { s.nvm with opened := true } }); ({ s with nvm := { s.nvm with eraseEnd := some default } })), by decide⟩,
   ⟨0, ([] : List Nat), (let s : State := node; let s : State := ({ s with nvm := { s.nvm with opened := true } }); ({ s with nvm := { s.nvm with eraseEnd := none } })), by decide⟩,
   ⟨(let s : State := cell; let s : State := ({ s with nvm := { s.nvm with opened := false } }); (wr O.NVM_RUN_SLOT 1 s)), (let s : State := cell; let s : State := ({ s with nvm := { s.nvm with opened := false } }); let s : State := (wr O.NVM_RUN_SLOT 1 s); 1 - rd O.NVM_RUN_SLOT s), by decide⟩,
   ⟨0, 0, ([] : List Nat), (let x : Nat := 0; let o : Nat := 0; let d : List Nat := []; let s : State := cell; let s : State := ({ s with nvm := { s.nvm with eraseEnd := some x } }); ({ s with nvm := { s.nvm with held := [(o, d)] } })), by decide⟩,
   ⟨dHdr, ({ dBulk with region := 0xD010, offset := 100, len := 4, data := [1,2,3,4,5] } : Bulk), (let s : State := node; let s : State := (wr O.SYS_RECOVERY 0 { s with nvm := { s.nvm with eraseBad := false } }); wr O.SYS_RECOVERY 0 s), by decide⟩,
   ⟨dHdr, dBulk, node, by decide⟩,
   ⟨dHdr, dBulk, (let x : InXfer := dInXfer; ({ x with read := none })), (let b : Bulk := dBulk; let x : InXfer := dInXfer; let x : InXfer := ({ x with read := none }); missing b.offset b.len x.got), (let x : InXfer := dInXfer; let x : InXfer := ({ x with read := none }); let s : State := node; let s : State := ({ s with rem := { s.rem with ins := [x] } }); ({ s with nvm := { s.nvm with eraseBad := true } })), by decide⟩,
   ⟨dHdr, ({ dBulk with region := 0xD010, offset := 100, len := 4, data := [1,2,3,4,5] } : Bulk), ({ dInXfer with got := [(101,1)] } : InXfer), (let b : Bulk := { dBulk with region := 0xD010, offset := 100, len := 4, data := [1,2,3,4,5] }; let x : InXfer := { dInXfer with got := [(101,1)] }; missing b.offset b.len x.got), (let x : InXfer := { dInXfer with got := [(101,1)] }; let s : State := node; let s : State := ({ s with rem := { s.rem with ins := [x] } }); let s : State := ({ s with nvm := { s.nvm with eraseBad := false } }); { s with rem := { s.rem with ins := [{ dInXfer with got := [(101,1)] }] } }), by decide⟩,
   ⟨(let h : Hdr := dHdr; ({ h with bcast := false })), dBulk, (let x : InXfer := dInXfer; ({ x with read := none })), (let b : Bulk := dBulk; let x : InXfer := dInXfer; let x : InXfer := ({ x with read := none }); missing b.offset b.len x.got), (let x : InXfer := dInXfer; let x : InXfer := ({ x with read := none }); let s : State := node; let s : State := ({ s with rem := { s.rem with ins := [x] } }); ({ s with nvm := { s.nvm with eraseBad := false } })), by decide⟩,
   ⟨(let h : Hdr := dHdr; ({ h with bcast := true })), dBulk, (let x : InXfer := dInXfer; ({ x with read := none })), (let b : Bulk := dBulk; let x : InXfer := dInXfer; let x : InXfer := ({ x with read := none }); missing b.offset b.len x.got), (let x : InXfer := dInXfer; let x : InXfer := ({ x with read := none }); let s : State := node; let s : State := ({ s with rem := { s.rem with ins := [x] } }); ({ s with nvm := { s.nvm with eraseBad := false } })), by decide⟩,
   ⟨dHdr, ({ dBulk with status := 1 } : Bulk), ({ dInXfer with read := some (1, 2) } : InXfer), 1, 2, (let x : InXfer := { dInXfer with read := some (1, 2) }; let s : State := node; let s : State := ({ s with rem := { s.rem with ins := [x] } }); { s with rem := { s.rem with ins := [{ dInXfer with read := some (1, 2) }] } }), by decide⟩,
   ⟨dHdr, ({ dBulk with status := 0 } : Bulk), ({ dInXfer with read := some (1, 2), len := 0 } : InXfer), 1, 2, (let x : InXfer := { dInXfer with read := some (1, 2), len := 0 }; let s : State := node; let s : State := ({ s with rem := { s.rem with ins := [x] } }); { s with rem := { s.rem with ins := [{ dInXfer with read := some (1, 2), len := 0 }] } }), by decide⟩,
   ⟨dHdr, ({ dBulk with status := 0 } : Bulk), ({ dInXfer with read := some (1, 2), len := 5 } : InXfer), 1, 2, ((0, 5) : Nat × Nat), ([] : List (Nat × Nat)), (let x : InXfer := { dInXfer with read := some (1, 2), len := 5 }; let s : State := node; let s : State := ({ s with rem := { s.rem with ins := [x] } }); { s with rem := { s.rem with ins := [{ dInXfer with read := some (1, 2), len := 5 }] } }), by decide⟩,
   ⟨dHdr, dBulk, ({ dInXfer with id := 5 } : InXfer), (let s : State := node; { s with rem := { s.rem with ins := [{ dInXfer with id := 5 }] } }), by decide⟩,
   ⟨(let s : State := node; let s : State := (wr (O.NVM_SLOT_STATUS (1 - rd O.NVM_RUN_SLOT s)) 1 s); wr (O.NVM_SLOT_STATUS 1) 1 (wr O.NVM_RUN_SLOT 0 s)), by decide⟩,
   ⟨([] : List (Nat × Nat)), by decide⟩,
   ⟨dHdr, dBulk, node, fun x hx => nomatch (show x ∈ ([] : List OutXfer) from hx)⟩,
   ⟨dHdr, dBulk, (let h : Hdr := dHdr; let b : Bulk := dBulk; { dOutXfer with why := .write 1 2, dst := h.src, side := h.srcSide, id := b.xfer }), ([] : List OutXfer), ([] : List OutXfer), 1, 2, (let h : Hdr := dHdr; let b : Bulk := dBulk; let x : OutXfer := { dOutXfer with why := .write 1 2, dst := h.src, side := h.srcSide, id := b.xfer }; let p : List OutXfer := []; let l : List OutXfer := []; let id : Nat := 1; let s : State := node; ({ s with rem := { s.rem with outs := p ++ x :: l } })), by decide⟩,
   ⟨({ dHdr with src := 3 * 16 } : Hdr), dBulk, (let b : Bulk := dBulk; { dOutXfer with why := .dist 3, id := b.xfer }), ([] : List OutXfer), ([] : List OutXfer), 3, (let b : Bulk := dBulk; let x : OutXfer := { dOutXfer with why := .dist 3, id := b.xfer }; let p : List OutXfer := []; let l : List OutXfer := []; let s : State := node; ({ s with rem := { s.rem with outs := p ++ x :: l } })), by decide⟩,
   ⟨(let s : State := node; ({ s with tree := { s.tree with pistes := [] } })), by decide⟩,
   ⟨(let s : State := node; (wr O.SYS_RECOVERY (0 + 1) s)), by decide⟩,
   ⟨(let s : State := node; (wr (O.NVM_SLOT_STATUS (rd O.NVM_DIST_SLOT s)) (3 + 1) s)), by decide⟩,
   ⟨(let s : State := node; let s : State := (wr O.SYS_RECOVERY 0 s); let s : State := ({ s with tree := { s.tree with pistes := [default] } }); let s : State := (wr (O.NVM_SLOT_STATUS (rd O.NVM_DIST_SLOT s)) 3 s); (wr O.NVM_DIST_STATE 1 s)), by decide⟩,
   ⟨(let s : State := node; let s : State := (wr O.SYS_RECOVERY 0 s); let s : State := ({ s with tree := { s.tree with pistes := [default] } }); let s : State := (wr (O.NVM_SLOT_STATUS (rd O.NVM_DIST_SLOT s)) 3 s); (wr O.NVM_DIST_STATE 2 s)), by decide⟩,
   ⟨(let s : State := node; let s : State := (wr O.SYS_RECOVERY 0 s); let s : State := ({ s with tree := { s.tree with pistes := [default] } }); let s : State := (wr (O.NVM_SLOT_STATUS (rd O.NVM_DIST_SLOT s)) 3 s); let s : State := (wr O.NVM_DIST_STATE (1 + 1) s); (wr O.NVM_DIST_STATE (2 + 1) s)), by decide⟩⟩

/-- Obligations.HostSessionsAndRequests: the hypotheses of its clauses can be met. -/
theorem witness_HostSessionsAndRequests :
    (∃ (p : Nat) (ip : Nat) (v : Option Nat) (s : State), toPort ⟨p, 0, ip, 0, v⟩ s = true) ∧
    (∃ (p : Nat) (ip : Nat) (v : Option Nat) (s : State), toPort ⟨p, 0, ip, 0, v⟩ s = false) ∧
    (∃ (s : State), isApex s = false) ∧
    (∃ (f : HostFrom), 1 < f.port) ∧
    (∃ (f : HostFrom) (s : State), toPort f s = false) ∧
    (∃ (f : HostFrom) (s : State), toPort f s = true ∧ (s.jop.pings.filter fun t => s.tick < t + 400000000).length < 100) ∧
    (∃ (f : HostFrom) (s : State), toPort f s = true ∧ (100 ≤ (s.jop.pings.filter fun t => s.tick < t + 400000000).length)) ∧
    (∃ (f : HostFrom) (s : State), toJop f s = false) ∧
    (∃ (sl : Nat), 7 < sl ∧ sl ≠ 0xFF) ∧
    (∃ (sl : Nat) (s : State), sl ≤ 7 ∧ rd (O.SEC_HOST_KEY sl) s = 0) ∧
    (∃ (sl : Nat) (qh : Nat) (s : State), sl ≤ 7 ∧ rd (O.SEC_HOST_KEY sl) s ≠ 0 ∧ onCurve qh = false) ∧
    (∃ (sl : Nat) (qh : Nat) (s : State), sl ≤ 7 ∧ rd (O.SEC_HOST_KEY sl) s ≠ 0 ∧ onCurve qh = true ∧ 4 ≤ s.jop.sessions.length) ∧
    (∃ (sl : Nat) (qh : Nat) (s : State), sl ≤ 7 ∧ rd (O.SEC_HOST_KEY sl) s ≠ 0 ∧ onCurve qh = true ∧ 2 ≤ s.jop.opens.length) ∧
    (∃ (sl : Nat) (qh : Nat) (s : State), sl ≤ 7 ∧ rd (O.SEC_HOST_KEY sl) s ≠ 0 ∧ onCurve qh = true ∧ s.jop.sessions.length < 4 ∧ s.jop.opens.length < 2) ∧
    (∃ (f : HostFrom) (sl : Nat) (qh : Nat) (ql : Nat) (s : State), toJop f s = true ∧ openStatus sl qh ql s ≠ 0) ∧
    (∃ (f : HostFrom) (sl : Nat) (qh : Nat) (ql : Nat) (s : State), toJop f s = true ∧ openStatus sl qh ql s = 0) ∧
    (∃ (a : JopAuth) (o : OpenSt) (g : Nat) (s : State), toJop a.host s = true ∧ s.jop.opens.find? (fun o => o.id == a.session) = some o ∧ tagOk o.keyHd a 3 (beBytes 64 g) = false) ∧
    (∃ (a : JopAuth) (o : OpenSt) (g : Nat) (s : State), toJop a.host s = true ∧ s.jop.opens.find? (fun o => o.id == a.session) = some o ∧ tagOk o.keyHd a 3 (beBytes 64 g) = true ∧ 4 ≤ s.jop.sessions.length) ∧
    (∃ (a : JopAuth) (o : OpenSt) (g : Nat) (s : State), toJop a.host s = true ∧ s.jop.opens.find? (fun o => o.id == a.session) = some o ∧ tagOk o.keyHd a 3 (beBytes 64 g) = true ∧ s.jop.sessions.length < 4 ∧ o.slot = 0xFF ∧ rd O.SEC_OWNER_STATE s ≠ 0) ∧
    (∃ (a : JopAuth) (o : OpenSt) (g : Nat) (s : State), toJop a.host s = true ∧ s.jop.opens.find? (fun o => o.id == a.session) = some o ∧ tagOk o.keyHd a 3 (beBytes 64 g) = true ∧ s.jop.sessions.length < 4 ∧ o.slot ≠ 0xFF ∧ a.seq ≠ 1) ∧
    (∃ (a : JopAuth) (o : OpenSt) (g : Nat) (s : State), toJop a.host s = true ∧ s.jop.opens.find? (fun o => o.id == a.session) = some o ∧ tagOk o.keyHd a 3 (beBytes 64 g) = true ∧ s.jop.sessions.length < 4 ∧ o.slot ≠ 0xFF ∧ ecdsaVerify (o.key s) (o.t ++ beBytes 64 o.sigD) g = false) ∧
    (∃ (a : JopAuth) (o : OpenSt) (g : Nat) (s : State), toJop a.host s = true ∧ s.jop.opens.find? (fun o => o.id == a.session) = some o ∧ tagOk o.keyHd a 3 (beBytes 64 g) = true ∧ s.jop.sessions.length < 4 ∧ rd O.SEC_OWNER_STATE s = 0 ∧ a.seq ≠ 1) ∧
    (∃ (a : JopAuth) (o : OpenSt) (g : Nat) (s : State), toJop a.host s = true ∧ s.jop.opens.find? (fun o => o.id == a.session) = some o ∧ tagOk o.keyHd a 3 (beBytes 64 g) = true ∧ s.jop.sessions.length < 4 ∧ rd O.SEC_OWNER_STATE s = 0 ∧ ecdsaVerify (o.key s) (o.t ++ beBytes 64 o.sigD) g = false) ∧
    (∃ (a : JopAuth) (o : OpenSt) (g : Nat) (s : State), toJop a.host s = true ∧ s.jop.opens.find? (fun o => o.id == a.session) = some o ∧ tagOk o.keyHd a 3 (beBytes 64 g) = true ∧ s.jop.sessions.length < 4 ∧ o.slot ≠ 0xFF ∧ a.seq = 1 ∧ ecdsaVerify (o.key s) (o.t ++ beBytes 64 o.sigD) g = true) ∧
    (∃ (a : JopAuth) (o : OpenSt) (g : Nat) (s : State), toJop a.host s = true ∧ s.jop.opens.find? (fun o => o.id == a.session) = some o ∧ tagOk o.keyHd a 3 (beBytes 64 g) = true ∧ s.jop.sessions.length < 4 ∧ rd O.SEC_OWNER_STATE s = 0 ∧ a.seq = 1 ∧ ecdsaVerify (o.key s) (o.t ++ beBytes 64 o.sigD) g = true) ∧
    (∃ (a : JopAuth) (o : OpenSt) (s : State), (∀ x ∈ s.jop.sessions, x.id ≠ o.id) ∧ o.slot ≠ 0xFF ∧ o.id = a.session ∧ a.seq = 1) ∧
    (∃ (a : JopAuth) (op : Nat) (b : List Nat) (c : Instr) (s : State), JopCmd a op b c ∧ toJop a.host s = false) ∧
    (∃ (a : JopAuth) (op : Nat) (b : List Nat) (c : Instr) (s : State), JopCmd a op b c ∧ toJop a.host s = true ∧ (op = 3 → ∀ o ∈ s.jop.opens, o.id ≠ a.session) ∧ 1408 < b.length) ∧
    (∃ (a : JopAuth) (op : Nat) (b : List Nat) (c : Instr) (s : State), JopCmd a op b c ∧ toJop a.host s = true ∧ (op = 3 → ∀ o ∈ s.jop.opens, o.id ≠ a.session) ∧ b.length ≤ 1408 ∧ session? a.session s = none) ∧
    (∃ (a : JopAuth) (op : Nat) (b : List Nat) (c : Instr) (x : Session) (s : State), JopCmd a op b c ∧ toJop a.host s = true ∧ (op = 3 → ∀ o ∈ s.jop.opens, o.id ≠ a.session) ∧ b.length ≤ 1408 ∧ session? a.session s = some x ∧ tagOk x.keyHd a op b = false) ∧
    (∃ (a : JopAuth) (op : Nat) (b : List Nat) (c : Instr) (x : Session) (n : Nat) (r : Reply) (s : State), JopCmd a op b c ∧ toJop a.host s = true ∧ (op = 3 → ∀ o ∈ s.jop.opens, o.id ≠ a.session) ∧ b.length ≤ 1408 ∧ session? a.session s = some x ∧ tagOk x.keyHd a op b = true ∧ x.fresh a.seq = false ∧ x.replies.find? (fun e => e.1 == a.seq) = some (n, r)) ∧
    (∃ (a : JopAuth) (op : Nat) (b : List Nat) (c : Instr) (x : Session) (s : State), JopCmd a op b c ∧ toJop a.host s = true ∧ (op = 3 → ∀ o ∈ s.jop.opens, o.id ≠ a.session) ∧ b.length ≤ 1408 ∧ session? a.session s = some x ∧ tagOk x.keyHd a op b = true ∧ x.fresh a.seq = false ∧ (∀ e ∈ x.replies, e.1 ≠ a.seq) ∧ (∃ w ∈ x.waiting, w.seq = a.seq)) ∧
    (∃ (a : JopAuth) (op : Nat) (b : List Nat) (c : Instr) (x : Session) (s : State), JopCmd a op b c ∧ toJop a.host s = true ∧ (op = 3 → ∀ o ∈ s.jop.opens, o.id ≠ a.session) ∧ b.length ≤ 1408 ∧ session? a.session s = some x ∧ tagOk x.keyHd a op b = true ∧ x.fresh a.seq = false ∧ (∀ e ∈ x.replies, e.1 ≠ a.seq) ∧ (∀ w ∈ x.waiting, w.seq ≠ a.seq)) ∧
    (∃ (a : JopAuth) (op : Nat) (b : List Nat) (c : Instr) (x : Session) (n : Nat) (s : State), JopCmd a op b c ∧ toJop a.host s = true ∧ (op = 3 → ∀ o ∈ s.jop.opens, o.id ≠ a.session) ∧ b.length ≤ 1408 ∧ session? a.session s = some x ∧ tagOk x.keyHd a op b = true ∧ x.fresh a.seq = true ∧ opRight op = some n ∧ bit x.rights n = false) ∧
    (∃ (a : JopAuth) (op : Nat) (b : List Nat) (c : Instr) (x : Session) (s : State), JopCmd a op b c ∧ toJop a.host s = true ∧ (op = 3 → ∀ o ∈ s.jop.opens, o.id ≠ a.session) ∧ b.length ≤ 1408 ∧ session? a.session s = some x ∧ tagOk x.keyHd a op b = true ∧ x.fresh a.seq = true ∧ (∀ n, opRight op = some n → bit x.rights n = true) ∧ rd O.SYS_RECOVERY s ≠ 0 ∧ romServes op = false) ∧
    (∃ (a : JopAuth) (x : Session) (g : Nat) (s : State), ValidRequest a 3 (beBytes 64 g) x s ∧ (∀ o ∈ s.jop.opens, o.id ≠ a.session)) ∧
    (∃ (a : JopAuth) (x : Session) (s : State), ValidRequest a 4 [] x s) ∧
    (∃ (x : Session) (n : Nat), x.top < n) ∧
    (∃ (x : Session) (n : Nat), n + 64 < x.top) ∧
    (∃ (x : Session) (n : Nat), n ∈ x.seen ∧ n ≤ x.top) ∧
    (∃ (x : Session) (n : Nat), n < x.top ∧ x.top ≤ n + 64 ∧ n ∉ x.seen) ∧
    (∃ (s : State), (s.jop.fails.filter fun t => s.tick < t + 400000000).length < rd O.SEC_AUTH_LIMIT s) ∧
    (∃ (s : State), (rd O.SEC_AUTH_LIMIT s ≤ (s.jop.fails.filter fun t => s.tick < t + 400000000).length)) ∧
    (∃ (id : Nat) (s : State), (s.jop.opens.find? fun o => o.id == id) = none) ∧
    (∃ (id : Nat) (o : OpenSt) (s : State), (s.jop.opens.find? fun o => o.id == id) = some o) ∧
    (∃ (id : Nat) (s : State), session? id s = none) ∧
    (∃ (s : State), s.jop.authEnd = none) ∧
    (∃ (x : Nat) (s : State), s.jop.authEnd = some x) ∧
    (∃ (id : Nat) (q : Nat) (x : Session) (w : Waiting) (s : State), session? id s = some x ∧ (x.waiting.find? fun w => w.seq == q) = some w ∧ 2 ^ 64 ≤ x.sent + 1) ∧
    (∃ (id : Nat) (q : Nat) (x : Session) (w : Waiting) (s : State), session? id s = some x ∧ (x.waiting.find? fun w => w.seq == q) = some w ∧ x.sent + 1 < 2 ^ 64) ∧
    (∃ (id : Nat) (q : Nat) (x : Session) (s : State), session? id s = some x ∧ (∀ w ∈ x.waiting, w.seq ≠ q)) ∧
    (∃ (a : JopAuth) (x : Session) (n : Nat) (s : State), ValidRequest a 0x20 [low 8 n] x s ∧ bit x.rights 0 = true ∧ n = 0) ∧
    (∃ (a : JopAuth) (x : Session) (n : Nat) (s : State), ValidRequest a 0x20 [low 8 n] x s ∧ bit x.rights 0 = true ∧ 40 < n) ∧
    (∃ (a : JopAuth) (x : Session) (n : Nat) (s : State), ValidRequest a 0x20 [low 8 n] x s ∧ bit x.rights 0 = true ∧ 1 ≤ n ∧ n ≤ 40) ∧
    (∃ (a : JopAuth) (x : Session) (n : Nat) (o : Nat) (e : Nat) (s : State), ValidRequest a 0x21 ([low 8 n, 0] ++ beBytes 2 o ++ beBytes 4 e) x s ∧ bit x.rights 1 = true ∧ s.ket.queue = []) ∧
    (∃ (a : JopAuth) (x : Session) (n : Nat) (o : Nat) (e : Nat) (h : Event) (l : List Event) (s : State), ValidRequest a 0x21 ([low 8 n, 0] ++ beBytes 2 o ++ beBytes 4 e) x s ∧ bit x.rights 1 = true ∧ s.ket.queue = h :: l ∧ h.origin ≠ o) ∧
    (∃ (a : JopAuth) (x : Session) (n : Nat) (o : Nat) (e : Nat) (h : Event) (l : List Event) (s : State), ValidRequest a 0x21 ([low 8 n, 0] ++ beBytes 2 o ++ beBytes 4 e) x s ∧ bit x.rights 1 = true ∧ s.ket.queue = h :: l ∧ h.eseq ≠ e) ∧
    (∃ (a : JopAuth) (x : Session) (n : Nat) (o : Nat) (e : Nat) (h : Event) (l : List Event) (s : State), ValidRequest a 0x21 ([low 8 n, 0] ++ beBytes 2 o ++ beBytes 4 e) x s ∧ bit x.rights 1 = true ∧ s.ket.queue = h :: l ∧ h.origin = o ∧ h.eseq = e) ∧
    (∃ (a : JopAuth) (x : Session) (t : Nat) (i : Nat) (u : Nat) (c : Nat) (s : State) (v : State) (st : Nat) (n : Nat) (d : List Nat), ValidRequest a 0x10 (readHead t i u c) x s ∧ bit x.rights 0 = true ∧ tgtHere t s = true ∧ reqReads (.jop x.rights) 1404 (hostMsg x 1 (low 16 i) (low 8 u) (low 8 c) []) (acceptedBy a 0x10 s) = (st, n, d, v)) ∧
    (∃ (a : JopAuth) (x : Session) (t : Nat) (i : Nat) (u : Nat) (c : Nat) (s : State), ValidRequest a 0x10 (readHead t i u c) x s ∧ bit x.rights 0 = true ∧ tgtHere t s = false) ∧
    (∃ (a : JopAuth) (x : Session) (t : Nat) (i : Nat) (u : Nat) (c : Nat) (d : List Nat) (s : State), ValidRequest a 0x11 (readHead t i u c ++ beBytes 2 d.length ++ d) x s ∧ tgtHere t s = true ∧ c % 256 = 0) ∧
    (∃ (a : JopAuth) (x : Session) (t : Nat) (i : Nat) (u : Nat) (c : Nat) (d : List Nat) (s : State), ValidRequest a 0x11 (readHead t i u c ++ beBytes 2 d.length ++ d) x s ∧ tgtHere t s = true ∧ 256 < u % 256 + c % 256) ∧
    (∃ (a : JopAuth) (x : Session) (t : Nat) (i : Nat) (u : Nat) (c : Nat) (d : List Nat) (s : State) (v : State) (st : Nat) (n : Nat), ValidRequest a 0x11 (readHead t i u c ++ beBytes 2 d.length ++ d) x s ∧ tgtHere t s = true ∧ 0 < c % 256 ∧ u % 256 + c % 256 ≤ 256 ∧ writeMany (.jop x.rights) (i % 65536 * 256 + u % 256) (c % 256) 0 d (acceptedBy a 0x11 s) = (st, n, v)) ∧
    (∃ (a : JopAuth) (x : Session) (t : Nat) (i : Nat) (u : Nat) (c : Nat) (d : List Nat) (s : State), ValidRequest a 0x11 (readHead t i u c ++ beBytes 2 d.length ++ d) x s ∧ tgtHere t s = false ∧ mayWrite x.rights (i % 65536 * 256 + u % 256) (c % 256) 0 d = false) ∧
    (∃ (a : JopAuth) (x : Session) (t : Nat) (i : Nat) (u : Nat) (c : Nat) (d : List Nat) (s : State), ValidRequest a 0x11 (readHead t i u c ++ beBytes 2 d.length ++ d) x s ∧ tgtHere t s = false ∧ mayWrite x.rights (i % 65536 * 256 + u % 256) (c % 256) 0 d = true ∧ 988 < d.length) ∧
    (∃ (a : JopAuth) (x : Session) (t : Nat) (i : Nat) (u : Nat) (c : Nat) (d : List Nat) (s : State), ValidRequest a 0x11 (readHead t i u c ++ beBytes 2 d.length ++ d) x s ∧ tgtHere t s = false ∧ mayWrite x.rights (i % 65536 * 256 + u % 256) (c % 256) 0 d = true ∧ d.length ≤ 988) ∧
    (∃ (a : JopAuth) (x : Session) (t : Nat) (r : Nat) (o : Nat) (n : Nat) (s : State), ValidRequest a 0x30 (bulkHead t r o n) x s ∧ bit x.rights 0 = true ∧ n = 0) ∧
    (∃ (a : JopAuth) (x : Session) (t : Nat) (r : Nat) (o : Nat) (n : Nat) (s : State), ValidRequest a 0x30 (bulkHead t r o n) x s ∧ bit x.rights 0 = true ∧ 1392 < n) ∧
    (∃ (a : JopAuth) (x : Session) (t : Nat) (r : Nat) (o : Nat) (n : Nat) (s : State), ValidRequest a 0x30 (bulkHead t r o n) x s ∧ bit x.rights 0 = true ∧ 1 ≤ n ∧ n ≤ 1392 ∧ tgtHere t s = true ∧ readStatus r o n s = stOk) ∧
    (∃ (a : JopAuth) (x : Session) (t : Nat) (r : Nat) (o : Nat) (n : Nat) (s : State), ValidRequest a 0x30 (bulkHead t r o n) x s ∧ bit x.rights 0 = true ∧ 1 ≤ n ∧ n ≤ 1392 ∧ tgtHere t s = true ∧ readStatus r o n s ≠ stOk) ∧
    (∃ (a : JopAuth) (x : Session) (t : Nat) (r : Nat) (o : Nat) (n : Nat) (s : State), ValidRequest a 0x30 (bulkHead t r o n) x s ∧ bit x.rights 0 = true ∧ 1 ≤ n ∧ n ≤ 1392 ∧ tgtHere t s = false) ∧
    (∃ (a : JopAuth) (x : Session) (t : Nat) (r : Nat) (o : Nat) (d : List Nat) (s : State), ValidRequest a 0x31 (bulkHead t r o d.length ++ d) x s ∧ bit x.rights 4 = true ∧ d.length = 0) ∧
    (∃ (a : JopAuth) (x : Session) (t : Nat) (r : Nat) (o : Nat) (d : List Nat) (s : State), ValidRequest a 0x31 (bulkHead t r o d.length ++ d) x s ∧ bit x.rights 4 = true ∧ 1376 < d.length) ∧
    (∃ (a : JopAuth) (x : Session) (t : Nat) (r : Nat) (o : Nat) (d : List Nat) (s : State), ValidRequest a 0x31 (bulkHead t r o d.length ++ d) x s ∧ bit x.rights 4 = true ∧ 1 ≤ d.length ∧ d.length ≤ 1376 ∧ tgtHere t s = true ∧ writeStatus r o d.length s = stOk) ∧
    (∃ (a : JopAuth) (x : Session) (t : Nat) (r : Nat) (o : Nat) (d : List Nat) (s : State), ValidRequest a 0x31 (bulkHead t r o d.length ++ d) x s ∧ bit x.rights 4 = true ∧ 1 ≤ d.length ∧ d.length ≤ 1376 ∧ tgtHere t s = true ∧ writeStatus r o d.length s ≠ stOk) ∧
    (∃ (a : JopAuth) (x : Session) (t : Nat) (r : Nat) (o : Nat) (d : List Nat) (s : State), ValidRequest a 0x31 (bulkHead t r o d.length ++ d) x s ∧ bit x.rights 4 = true ∧ 1 ≤ d.length ∧ d.length ≤ 1376 ∧ tgtHere t s = false) ∧
    (∃ (a : JopAuth) (x : Session) (d : List Nat) (s : State), ValidRequest a 0x40 (beBytes 2 d.length ++ d) x s ∧ bit x.rights 6 = true ∧ d.length = 0) ∧
    (∃ (a : JopAuth) (x : Session) (d : List Nat) (s : State), ValidRequest a 0x40 (beBytes 2 d.length ++ d) x s ∧ bit x.rights 6 = true ∧ 256 < d.length) ∧
    (∃ (a : JopAuth) (x : Session) (d : List Nat) (s : State), ValidRequest a 0x40 (beBytes 2 d.length ++ d) x s ∧ bit x.rights 6 = true ∧ 1 ≤ d.length ∧ d.length ≤ 256 ∧ rd O.SYS_CORE_MSG_LEN s ≠ 0) ∧
    (∃ (a : JopAuth) (x : Session) (d : List Nat) (s : State), ValidRequest a 0x40 (beBytes 2 d.length ++ d) x s ∧ bit x.rights 6 = true ∧ 1 ≤ d.length ∧ d.length ≤ 256 ∧ rd O.SYS_CORE_MSG_LEN s = 0) ∧
    (∃ (a : JopAuth) (x : Session) (t : Nat) (n : List Nat) (s : State), ValidRequest a 0x50 (beBytes 4 t ++ padTo 32 0 n) x s ∧ bit x.rights 0 = true ∧ tgtHere t s = true) ∧
    (∃ (a : JopAuth) (x : Session) (t : Nat) (n : List Nat) (s : State), ValidRequest a 0x50 (beBytes 4 t ++ padTo 32 0 n) x s ∧ bit x.rights 0 = true ∧ tgtHere t s = false) ∧
    (∃ (s : State), isApex s = true ∧ rd O.SYS_RECOVERY s ≠ 0) ∧
    (∃ (v : Nat) (s : State), isApex s = true ∧ rd O.SYS_RECOVERY s = 0 ∧ 256 < v) ∧
    (∃ (v : Nat) (s : State), isApex s = true ∧ rd O.SYS_RECOVERY s = 0 ∧ v ≤ 256) :=
  ⟨⟨0, 0xC0A80A40, ((some 0xFFFF) : Option Nat), apex, by decide⟩,
   ⟨0, 0, none, apex, by decide⟩,
   ⟨node, by decide⟩,
   ⟨({ host0 with port := 2 } : HostFrom), by decide⟩,
   ⟨dHostFrom, apex, by decide⟩,
   ⟨host0, apex, by decide⟩,
   ⟨host0, (let s : State := apex; { s with jop := { s.jop with pings := List.replicate 100 s.tick } }), by decide⟩,
   ⟨dHostFrom, apex, by decide⟩,
   ⟨((7 + 1) : Nat), by decide⟩,
   ⟨0, (let sl : Nat := 0; let s : State := apex; (wr (O.SEC_HOST_KEY sl) 0 s)), by decide⟩,
   ⟨0, 0, (let sl : Nat := 0; let s : State := node; (wr (O.SEC_HOST_KEY sl) (0 + 1) s)), by decide⟩,
   ⟨7, ((4 * 2^512 + 0x6B17D1F2E12C4247F8BCE6E563A440F277037D812DEB33A0F4A13945D898C296 * 2^256 + 0x4FE342E2FE1A7F9B8EE7EB4A7C0F9E162BCE33576B315ECECBB6406837BF51F5) : Nat), (let sl : Nat := 7; let s : State := apex; let s : State := (wr (O.SEC_HOST_KEY sl) (0 + 1) s); { (wr (O.SEC_HOST_KEY 7) 9 s) with jop := { s.jop with sessions := List.replicate 4 ({ id := 1, rights := 255, keyHd := 11, keyDh := 12, top := 0, seen := [], sent := 0, latest := [], replies := [], waiting := [], last := 0 } : Session) } }), by decide⟩,
   ⟨7, ((4 * 2^512 + 0x6B17D1F2E12C4247F8BCE6E563A440F277037D812DEB33A0F4A13945D898C296 * 2^256 + 0x4FE342E2FE1A7F9B8EE7EB4A7C0F9E162BCE33576B315ECECBB6406837BF51F5) : Nat), (let sl : Nat := 7; let ql : Nat := 0; let s : State := apex; let s : State := (wr (O.SEC_HOST_KEY sl) (0 + 1) s); { (wr (O.SEC_HOST_KEY 7) 9 s) with jop := { s.jop with opens := List.replicate 2 ({ id := 1, slot := 7, ql := 0, t := [1], sigD := 2, keyHd := 11, keyDh := 12, at_ := 5 } : OpenSt) } }), by decide⟩,
   ⟨7, ((4 * 2^512 + 0x6B17D1F2E12C4247F8BCE6E563A440F277037D812DEB33A0F4A13945D898C296 * 2^256 + 0x4FE342E2FE1A7F9B8EE7EB4A7C0F9E162BCE33576B315ECECBB6406837BF51F5) : Nat), (let sl : Nat := 7; let s : State := apex; let s : State := (wr (O.SEC_HOST_KEY sl) (0 + 1) s); (wr (O.SEC_HOST_KEY 7) 9 s)), by decide⟩,
   ⟨host0, 8, 0, 0, apex, by decide⟩,
   ⟨host0, 7, ((4 * 2^512 + 0x6B17D1F2E12C4247F8BCE6E563A440F277037D812DEB33A0F4A13945D898C296 * 2^256 + 0x4FE342E2FE1A7F9B8EE7EB4A7C0F9E162BCE33576B315ECECBB6406837BF51F5) : Nat), 0, (let s : State := apex; (wr (O.SEC_HOST_KEY 7) 9 s)), by decide⟩,
   ⟨(({ host := host0, session := 1, seq := 1, tag := hmac 11 (dgramBytes true 1 1 3 0 0 (beBytes 64 3)) + 1 } : JopAuth) : JopAuth), (({ id := 1, slot := 7, ql := 0, t := [1], sigD := 2, keyHd := 11, keyDh := 12, at_ := 5 } : OpenSt) : OpenSt), 3, (let o : OpenSt := ({ id := 1, slot := 7, ql := 0, t := [1], sigD := 2, keyHd := 11, keyDh := 12, at_ := 5 } : OpenSt); let s : State := apex; let s : State := ({ s with jop := { s.jop with opens := [o] } }); { s with jop := { s.jop with opens := [({ id := 1, slot := 7, ql := 0, t := [1], sigD := 2, keyHd := 11, keyDh := 12, at_ := 5 } : OpenSt)] } }), by decide, by decide, beq_false_of_ne (Nat.succ_ne_self _)⟩,
   ⟨((auth 3 (beBytes 64 3)) : JopAuth), (({ id := 1, slot := 7, ql := 0, t := [1], sigD := 2, keyHd := 11, keyDh := 12, at_ := 5 } : OpenSt) : OpenSt), 3, (let o : OpenSt := ({ id := 1, slot := 7, ql := 0, t := [1], sigD := 2, keyHd := 11, keyDh := 12, at_ := 5 } : OpenSt); let s : State := apex; let s : State := ({ s with jop := { s.jop with opens := [o] } }); { s with jop := { s.jop with opens := [({ id := 1, slot := 7, ql := 0, t := [1], sigD := 2, keyHd := 11, keyDh := 12, at_ := 5 } : OpenSt)], sessions := List.replicate 4 ({ id := 1, rights := 255, keyHd := 11, keyDh := 12, top := 0, seen := [], sent := 0, latest := [], replies := [], waiting := [], last := 0 } : Session) } }), by decide, by decide, beq_self_eq_true _, by decide⟩,
   ⟨((auth 3 (beBytes 64 3)) : JopAuth), ({ ({ id := 1, slot := 7, ql := 0, t := [1], sigD := 2, keyHd := 11, keyDh := 12, at_ := 5 } : OpenSt) with slot := 0xFF } : OpenSt), 3, (let o : OpenSt := { ({ id := 1, slot := 7, ql := 0, t := [1], sigD := 2, keyHd := 11, keyDh := 12, at_ := 5 } : OpenSt) with slot := 0xFF }; let s : State := apex; let s : State := ({ s with jop := { s.jop with opens := [o] } }); let s : State := (wr O.SEC_OWNER_STATE (0 + 1) s); { (wr O.SEC_OWNER_STATE 1 s) with jop := { s.jop with opens := [{ ({ id := 1, slot := 7, ql := 0, t := [1], sigD := 2, keyHd := 11, keyDh := 12, at_ := 5 } : OpenSt) with slot := 0xFF }], sessions := [] } }), by decide, by decide, beq_self_eq_true _, by decide⟩,
   ⟨(({ host := host0, session := 1, seq := 2, tag := hmac 11 (dgramBytes true 1 2 3 0 0 (beBytes 64 3)) } : JopAuth) : JopAuth), (({ id := 1, slot := 7, ql := 0, t := [1], sigD := 2, keyHd := 11, keyDh := 12, at_ := 5 } : OpenSt) : OpenSt), 3, (let o : OpenSt := ({ id := 1, slot := 7, ql := 0, t := [1], sigD := 2, keyHd := 11, keyDh := 12, at_ := 5 } : OpenSt); let s : State := apex; let s : State := ({ s with jop := { s.jop with opens := [o] } }); { s with jop := { s.jop with opens := [({ id := 1, slot := 7, ql := 0, t := [1], sigD := 2, keyHd := 11, keyDh := 12, at_ := 5 } : OpenSt)], sessions := [] } }), by decide, by decide, beq_self_eq_true _, by decide⟩,
   ⟨((auth 3 (beBytes 64 3)) : JopAuth), (({ id := 1, slot := 7, ql := 0, t := [1], sigD := 2, keyHd := 11, keyDh := 12, at_ := 5 } : OpenSt) : OpenSt), 3, (let o : OpenSt := ({ id := 1, slot := 7, ql := 0, t := [1], sigD := 2, keyHd := 11, keyDh := 12, at_ := 5 } : OpenSt); let s : State := apex; let s : State := ({ s with jop := { s.jop with opens := [o] } }); { s with jop := { s.jop with opens := [({ id := 1, slot := 7, ql := 0, t := [1], sigD := 2, keyHd := 11, keyDh := 12, at_ := 5 } : OpenSt)], sessions := [] } }), by decide, by decide, beq_self_eq_true _, by decide, by decide, by decide +kernel⟩,
   ⟨(({ host := host0, session := 1, seq := 2, tag := hmac 11 (dgramBytes true 1 2 3 0 0 (beBytes 64 3)) } : JopAuth) : JopAuth), ({ ({ id := 1, slot := 7, ql := 0, t := [1], sigD := 2, keyHd := 11, keyDh := 12, at_ := 5 } : OpenSt) with slot := 0xFF } : OpenSt), 3, (let o : OpenSt := { ({ id := 1, slot := 7, ql := 0, t := [1], sigD := 2, keyHd := 11, keyDh := 12, at_ := 5 } : OpenSt) with slot := 0xFF }; let s : State := apex; let s : State := ({ s with jop := { s.jop with opens := [o] } }); let s : State := (wr O.SEC_OWNER_STATE 0 s); { (wr O.SEC_OWNER_STATE 0 s) with jop := { s.jop with opens := [{ ({ id := 1, slot := 7, ql := 0, t := [1], sigD := 2, keyHd := 11, keyDh := 12, at_ := 5 } : OpenSt) with slot := 0xFF }], sessions := [] } }), by decide, by decide, beq_self_eq_true _, by decide⟩,
   ⟨((auth 3 (beBytes 64 3)) : JopAuth), ({ ({ id := 1, slot := 7, ql := 0, t := [1], sigD := 2, keyHd := 11, keyDh := 12, at_ := 5 } : OpenSt) with slot := 0xFF } : OpenSt), 3, (let o : OpenSt := { ({ id := 1, slot := 7, ql := 0, t := [1], sigD := 2, keyHd := 11, keyDh := 12, at_ := 5 } : OpenSt) with slot := 0xFF }; let s : State := apex; let s : State := ({ s with jop := { s.jop with opens := [o] } }); let s : State := (wr O.SEC_OWNER_STATE 0 s); { (wr O.SEC_OWNER_STATE 0 s) with jop := { s.jop with opens := [{ ({ id := 1, slot := 7, ql := 0, t := [1], sigD := 2, keyHd := 11, keyDh := 12, at_ := 5 } : OpenSt) with slot := 0xFF }], sessions := [] } }), by decide, by decide, beq_self_eq_true _, by decide, by decide, by decide +kernel⟩,
   ⟨((auth 3 (beBytes 64 5608918003960463414015172015330148631898974444326731655186642135685390862163849723501064608926438267462136005702636010594685734752323647069809700682177989)) : JopAuth), (({ id := 1, slot := 7, ql := 0, t := [1], sigD := 2, keyHd := 11, keyDh := 12, at_ := 5 } : OpenSt) : OpenSt), 5608918003960463414015172015330148631898974444326731655186642135685390862163849723501064608926438267462136005702636010594685734752323647069809700682177989, (let o : OpenSt := ({ id := 1, slot := 7, ql := 0, t := [1], sigD := 2, keyHd := 11, keyDh := 12, at_ := 5 } : OpenSt); let s : State := apex; let s : State := ({ s with jop := { s.jop with opens := [o] } }); { (wr (O.SEC_HOST_KEY 7) 59240149723730851812311272008153533141816437726696305166080887910572446982458012615605924465554721774228350039774385670824392793454808075284049927019123189 s) with jop := { s.jop with opens := [({ id := 1, slot := 7, ql := 0, t := [1], sigD := 2, keyHd := 11, keyDh := 12, at_ := 5 } : OpenSt)], sessions := [] } }), by decide, by decide, beq_self_eq_true _, by decide, by decide, by decide, by decide +kernel⟩,
   ⟨((auth 3 (beBytes 64 5608918003960463414015172015330148631898974444326731655186642135685390862163849723501064608926438267462136005702636010594685734752323647069809700682177989)) : JopAuth), ({ ({ id := 1, slot := 7, ql := 0, t := [1], sigD := 2, keyHd := 11, keyDh := 12, at_ := 5 } : OpenSt) with slot := 0xFF, ql := 59240149723730851812311272008153533141816437726696305166080887910572446982458012615605924465554721774228350039774385670824392793454808075284049927019123189 } : OpenSt), 5608918003960463414015172015330148631898974444326731655186642135685390862163849723501064608926438267462136005702636010594685734752323647069809700682177989, (let o : OpenSt := { ({ id := 1, slot := 7, ql := 0, t := [1], sigD := 2, keyHd := 11, keyDh := 12, at_ := 5 } : OpenSt) with slot := 0xFF, ql := 59240149723730851812311272008153533141816437726696305166080887910572446982458012615605924465554721774228350039774385670824392793454808075284049927019123189 }; let s : State := apex; let s : State := ({ s with jop := { s.jop with opens := [o] } }); let s : State := (wr O.SEC_OWNER_STATE 0 s); { (wr O.SEC_OWNER_STATE 0 s) with jop := { s.jop with opens := [{ ({ id := 1, slot := 7, ql := 0, t := [1], sigD := 2, keyHd := 11, keyDh := 12, at_ := 5 } : OpenSt) with slot := 0xFF, ql := 59240149723730851812311272008153533141816437726696305166080887910572446982458012615605924465554721774228350039774385670824392793454808075284049927019123189 }], sessions := [] } }), by decide, by decide, beq_self_eq_true _, by decide, by decide, by decide, by decide +kernel⟩,
   ⟨(let a : JopAuth := dJopAuth; ({ a with seq := 1 })), (let a : JopAuth := dJopAuth; let a : JopAuth := ({ a with seq := 1 }); let o : OpenSt := dOpenSt; ({ o with id := a.session })), node, by decide⟩,
   ⟨((auth 4 []) : JopAuth), 4, ([] : List Nat), (let a : JopAuth := (auth 4 []); (.jopClose a)), node, jop_close _, by decide⟩,
   ⟨((auth 64 []) : JopAuth), 0x40, ((beBytes 2 (List.replicate 1500 0).length ++ (List.replicate 1500 0)) : List Nat), (let a : JopAuth := (auth 64 []); (.jopCoreMsg a (List.replicate 1500 0))), (let s : State := apex; { (wr O.SYS_RECOVERY 0 (wr O.TREE_NODE_NUMBER 0 s)) with jop := { s.jop with sessions := [{ ({ id := 1, rights := 255, keyHd := 11, keyDh := 12, top := 0, seen := [], sent := 0, latest := [], replies := [], waiting := [], last := 0 } : Session) with rights := 255 }] } }), jop_core _ (List.replicate 1500 0), by decide⟩,
   ⟨((auth 4 []) : JopAuth), 4, ([] : List Nat), (let a : JopAuth := (auth 4 []); (.jopClose a)), (let s : State := apex; { s with jop := { s.jop with sessions := [] } }), jop_close _, by decide⟩,
   ⟨(({ host := host0, session := 1, seq := 1, tag := hmac 11 (dgramBytes true 1 1 4 0 0 []) + 1 } : JopAuth) : JopAuth), 4, ([] : List Nat), (let a : JopAuth := ({ host := host0, session := 1, seq := 1, tag := hmac 11 (dgramBytes true 1 1 4 0 0 []) + 1 } : JopAuth); (.jopClose a)), ({ ({ id := 1, rights := 255, keyHd := 11, keyDh := 12, top := 0, seen := [], sent := 0, latest := [], replies := [], waiting := [], last := 0 } : Session) with rights := 255 } : Session), (let s : State := apex; { (wr O.SYS_RECOVERY 0 (wr O.TREE_NODE_NUMBER 0 s)) with jop := { s.jop with sessions := [{ ({ id := 1, rights := 255, keyHd := 11, keyDh := 12, top := 0, seen := [], sent := 0, latest := [], replies := [], waiting := [], last := 0 } : Session) with rights := 255 }] } }), jop_close _, by decide, by decide, by decide, by decide, beq_false_of_ne (Nat.succ_ne_self _)⟩,
   ⟨((auth 4 []) : JopAuth), 4, ([] : List Nat), (let a : JopAuth := (auth 4 []); (.jopClose a)), ({ ({ id := 1, rights := 255, keyHd := 11, keyDh := 12, top := 0, seen := [], sent := 0, latest := [], replies := [], waiting := [], last := 0 } : Session) with top := 1, replies := [(1, dReply)] } : Session), 1, dReply, (let s : State := apex; { (wr O.SYS_RECOVERY 0 (wr O.TREE_NODE_NUMBER 0 s)) with jop := { s.jop with sessions := [{ ({ id := 1, rights := 255, keyHd := 11, keyDh := 12, top := 0, seen := [], sent := 0, latest := [], replies := [], waiting := [], last := 0 } : Session) with top := 1, replies := [(1, dReply)] }] } }), jop_close _, by decide, by decide, by decide, by decide, beq_self_eq_true _, by decide⟩,
   ⟨((auth 4 []) : JopAuth), 4, ([] : List Nat), (let a : JopAuth := (auth 4 []); (.jopClose a)), (let op : Nat := 4; { ({ id := 1, rights := 255, keyHd := 11, keyDh := 12, top := 0, seen := [], sent := 0, latest := [], replies := [], waiting := [], last := 0 } : Session) with top := 1, waiting := [({ seq := 1, op := 4, port := 0, addr := 5 } : Waiting)] }), (let op : Nat := 4; let s : State := apex; { (wr O.SYS_RECOVERY 0 (wr O.TREE_NODE_NUMBER 0 s)) with jop := { s.jop with sessions := [{ ({ id := 1, rights := 255, keyHd := 11, keyDh := 12, top := 0, seen := [], sent := 0, latest := [], replies := [], waiting := [], last := 0 } : Session) with top := 1, waiting := [({ seq := 1, op := 4, port := 0, addr := 5 } : Waiting)] }] } }), jop_close _, by decide, by decide, by decide, by decide, beq_self_eq_true _, by decide⟩,
   ⟨((auth 4 []) : JopAuth), 4, ([] : List Nat), (let a : JopAuth := (auth 4 []); (.jopClose a)), ({ ({ id := 1, rights := 255, keyHd := 11, keyDh := 12, top := 0, seen := [], sent := 0, latest := [], replies := [], waiting := [], last := 0 } : Session) with top := 1 } : Session), (let s : State := apex; { (wr O.SYS_RECOVERY 0 (wr O.TREE_NODE_NUMBER 0 s)) with jop := { s.jop with sessions := [{ ({ id := 1, rights := 255, keyHd := 11, keyDh := 12, top := 0, seen := [], sent := 0, latest := [], replies := [], waiting := [], last := 0 } : Session) with top := 1 }] } }), jop_close _, by decide, by decide, by decide, by decide, beq_self_eq_true _, by decide⟩,
   ⟨((auth 32 [1]) : JopAuth), 0x20, ([1] : List Nat), (let a : JopAuth := (auth 32 [1]); (.jopEventRead a 1)), ({ ({ id := 1, rights := 255, keyHd := 11, keyDh := 12, top := 0, seen := [], sent := 0, latest := [], replies := [], waiting := [], last := 0 } : Session) with rights := 0 } : Session), 0, (let s : State := apex; { (wr O.SYS_RECOVERY 0 (wr O.TREE_NODE_NUMBER 0 s)) with jop := { s.jop with sessions := [{ ({ id := 1, rights := 255, keyHd := 11, keyDh := 12, top := 0, seen := [], sent := 0, latest := [], replies := [], waiting := [], last := 0 } : Session) with rights := 0 }] } }), jop_event _ 1, by decide, by decide, by decide, by decide, beq_self_eq_true _, by decide⟩,
   ⟨((auth 32 [1]) : JopAuth), 0x20, ([1] : List Nat), (let a : JopAuth := (auth 32 [1]); (.jopEventRead a 1)), ({ ({ id := 1, rights := 255, keyHd := 11, keyDh := 12, top := 0, seen := [], sent := 0, latest := [], replies := [], waiting := [], last := 0 } : Session) with rights := 255 } : Session), (let s : State := apex; let s : State := (wr O.SYS_RECOVERY (0 + 1) s); (wr O.SYS_RECOVERY 1 { (wr O.SYS_RECOVERY 0 (wr O.TREE_NODE_NUMBER 0 s)) with jop := { s.jop with sessions := [{ ({ id := 1, rights := 255, keyHd := 11, keyDh := 12, top := 0, seen := [], sent := 0, latest := [], replies := [], waiting := [], last := 0 } : Session) with rights := 255 }] } })), jop_event _ 1, by decide, by decide, by decide, by decide, beq_self_eq_true _, by decide⟩,
   ⟨((auth 3 (beBytes 64 3)) : JopAuth), ({ ({ id := 1, rights := 255, keyHd := 11, keyDh := 12, top := 0, seen := [], sent := 0, latest := [], replies := [], waiting := [], last := 0 } : Session) with rights := 255 } : Session), 3, (let s : State := apex; { (wr O.SYS_RECOVERY 0 (wr O.TREE_NODE_NUMBER 0 s)) with jop := { s.jop with sessions := [{ ({ id := 1, rights := 255, keyHd := 11, keyDh := 12, top := 0, seen := [], sent := 0, latest := [], replies := [], waiting := [], last := 0 } : Session) with rights := 255 }] } }), auth_valid _ _ _ _ (by decide), by decide⟩,
   ⟨((auth 4 []) : JopAuth), ({ ({ id := 1, rights := 255, keyHd := 11, keyDh := 12, top := 0, seen := [], sent := 0, latest := [], replies := [], waiting := [], last := 0 } : Session) with rights := 255 } : Session), (let s : State := apex; { (wr O.SYS_RECOVERY 0 (wr O.TREE_NODE_NUMBER 0 s)) with jop := { s.jop with sessions := [{ ({ id := 1, rights := 255, keyHd := 11, keyDh := 12, top := 0, seen := [], sent := 0, latest := [], replies := [], waiting := [], last := 0 } : Session) with rights := 255 }] } }), auth_valid _ _ _ _ (by decide)⟩,
   ⟨dSession, (let x : Session := dSession; (x.top + 1)), by decide⟩,
   ⟨({ ({ id := 1, rights := 255, keyHd := 11, keyDh := 12, top := 0, seen := [], sent := 0, latest := [], replies := [], waiting := [], last := 0 } : Session) with top := 65 } : Session), 0, by decide⟩,
   ⟨({ ({ id := 1, rights := 255, keyHd := 11, keyDh := 12, top := 0, seen := [], sent := 0, latest := [], replies := [], waiting := [], last := 0 } : Session) with top := 5, seen := [5] } : Session), 5, by decide⟩,
   ⟨({ ({ id := 1, rights := 255, keyHd := 11, keyDh := 12, top := 0, seen := [], sent := 0, latest := [], replies := [], waiting := [], last := 0 } : Session) with top := 64, seen := [5] } : Session), 0, by decide⟩,
   ⟨(let s : State := apex; (wr O.SEC_AUTH_LIMIT ((s.jop.fails.filter fun t => s.tick < t + 400000000).length + 1) s)), by decide⟩,
   ⟨(let s : State := apex; (wr O.SEC_AUTH_LIMIT ((s.jop.fails.filter fun t => s.tick < t + 400000000).length) s)), by decide⟩,
   ⟨0, (let s : State := apex; ({ s with jop := { s.jop with opens := [] } })), by decide⟩,
   ⟨1, (let id : Nat := 1; ({ id := 1, slot := 7, ql := 0, t := [1], sigD := 2, keyHd := 11, keyDh := 12, at_ := 5 } : OpenSt)), (let id : Nat := 1; let o : OpenSt := ({ id := 1, slot := 7, ql := 0, t := [1], sigD := 2, keyHd := 11, keyDh := 12, at_ := 5 } : OpenSt); let s : State := apex; let s : State := ({ s with jop := { s.jop with opens := [o] } }); { s with jop := { s.jop with opens := [({ id := 1, slot := 7, ql := 0, t := [1], sigD := 2, keyHd := 11, keyDh := 12, at_ := 5 } : OpenSt)] } }), by decide⟩,
   ⟨0, apex, by decide⟩,
   ⟨(let s : State := apex; ({ s with jop := { s.jop with authEnd := none } })), by decide⟩,
   ⟨0, (let x : Nat := 0; let s : State := apex; ({ s with jop := { s.jop with authEnd := some x } })), by decide⟩,
   ⟨1, 1, (let id : Nat := 1; let op : Nat := 0; { ({ id := 1, rights := 255, keyHd := 11, keyDh := 12, top := 0, seen := [], sent := 0, latest := [], replies := [], waiting := [], last := 0 } : Session) with sent := 18446744073709551615, waiting := [({ seq := 1, op := 4, port := 0, addr := 5 } : Waiting)] }), (let op : Nat := 0; ({ seq := 1, op := 4, port := 0, addr := 5 } : Waiting)), (let id : Nat := 1; let op : Nat := 0; let s : State := apex; { (wr O.SYS_RECOVERY 0 (wr O.TREE_NODE_NUMBER 0 s)) with jop := { s.jop with sessions := [{ ({ id := 1, rights := 255, keyHd := 11, keyDh := 12, top := 0, seen := [], sent := 0, latest := [], replies := [], waiting := [], last := 0 } : Session) with sent := 18446744073709551615, waiting := [({ seq := 1, op := 4, port := 0, addr := 5 } : Waiting)] }] } }), by decide⟩,
   ⟨1, 9, (let id : Nat := 1; let op : Nat := 16; { ({ id := 1, rights := 255, keyHd := 11, keyDh := 12, top := 0, seen := [], sent := 0, latest := [], replies := [], waiting := [], last := 0 } : Session) with waiting := [({ seq := 9, op := 3, port := 1, addr := 8 } : Waiting)] }), (let op : Nat := 16; ({ seq := 9, op := 3, port := 1, addr := 8 } : Waiting)), (let id : Nat := 1; let op : Nat := 16; let s : State := apex; { (wr O.SYS_RECOVERY 0 (wr O.TREE_NODE_NUMBER 0 s)) with jop := { s.jop with sessions := [{ ({ id := 1, rights := 255, keyHd := 11, keyDh := 12, top := 0, seen := [], sent := 0, latest := [], replies := [], waiting := [], last := 0 } : Session) with waiting := [({ seq := 9, op := 3, port := 1, addr := 8 } : Waiting)] }] } }), by decide⟩,
   ⟨1, 7, (let id : Nat := 1; { ({ id := 1, rights := 255, keyHd := 11, keyDh := 12, top := 0, seen := [], sent := 0, latest := [], replies := [], waiting := [], last := 0 } : Session) with rights := 255 }), (let id : Nat := 1; let s : State := apex; { (wr O.SYS_RECOVERY 0 (wr O.TREE_NODE_NUMBER 0 s)) with jop := { s.jop with sessions := [{ ({ id := 1, rights := 255, keyHd := 11, keyDh := 12, top := 0, seen := [], sent := 0, latest := [], replies := [], waiting := [], last := 0 } : Session) with rights := 255 }] } }), by decide⟩,
   ⟨((auth 0x20 [low 8 0]) : JopAuth), ({ ({ id := 1, rights := 255, keyHd := 11, keyDh := 12, top := 0, seen := [], sent := 0, latest := [], replies := [], waiting := [], last := 0 } : Session) with rights := 255 } : Session), 0, (let s : State := apex; { (wr O.SYS_RECOVERY 0 (wr O.TREE_NODE_NUMBER 0 s)) with jop := { s.jop with sessions := [{ ({ id := 1, rights := 255, keyHd := 11, keyDh := 12, top := 0, seen := [], sent := 0, latest := [], replies := [], waiting := [], last := 0 } : Session) with rights := 255 }] } }), auth_valid _ _ _ _ (by decide), by decide⟩,
   ⟨((auth 0x20 [low 8 41]) : JopAuth), ({ ({ id := 1, rights := 255, keyHd := 11, keyDh := 12, top := 0, seen := [], sent := 0, latest := [], replies := [], waiting := [], last := 0 } : Session) with rights := 255 } : Session), 41, (let s : State := apex; { (wr O.SYS_RECOVERY 0 (wr O.TREE_NODE_NUMBER 0 s)) with jop := { s.jop with sessions := [{ ({ id := 1, rights := 255, keyHd := 11, keyDh := 12, top := 0, seen := [], sent := 0, latest := [], replies := [], waiting := [], last := 0 } : Session) with rights := 255 }] } }), auth_valid _ _ _ _ (by decide), by decide⟩,
   ⟨((auth 0x20 [low 8 40]) : JopAuth), ({ ({ id := 1, rights := 255, keyHd := 11, keyDh := 12, top := 0, seen := [], sent := 0, latest := [], replies := [], waiting := [], last := 0 } : Session) with rights := 255 } : Session), 40, (let s : State := apex; { (wr O.SYS_RECOVERY 0 (wr O.TREE_NODE_NUMBER 0 s)) with jop := { s.jop with sessions := [{ ({ id := 1, rights := 255, keyHd := 11, keyDh := 12, top := 0, seen := [], sent := 0, latest := [], replies := [], waiting := [], last := 0 } : Session) with rights := 255 }] } }), auth_valid _ _ _ _ (by decide), by decide⟩,
   ⟨((auth 0x21 ([low 8 1, 0] ++ beBytes 2 7 ++ beBytes 4 8)) : JopAuth), ({ ({ id := 1, rights := 255, keyHd := 11, keyDh := 12, top := 0, seen := [], sent := 0, latest := [], replies := [], waiting := [], last := 0 } : Session) with rights := 255 } : Session), 1, 7, 8, (let s : State := apex; let s : State := ({ s with ket := { s.ket with queue := [] } }); { (wr O.SYS_RECOVERY 0 (wr O.TREE_NODE_NUMBER 0 s)) with jop := { s.jop with sessions := [{ ({ id := 1, rights := 255, keyHd := 11, keyDh := 12, top := 0, seen := [], sent := 0, latest := [], replies := [], waiting := [], last := 0 } : Session) with rights := 255 }] } }), auth_valid _ _ _ _ (by decide), by decide⟩,
   ⟨((auth 0x21 ([low 8 1, 0] ++ beBytes 2 7 ++ beBytes 4 8)) : JopAuth), ({ ({ id := 1, rights := 255, keyHd := 11, keyDh := 12, top := 0, seen := [], sent := 0, latest := [], replies := [], waiting := [], last := 0 } : Session) with rights := 255 } : Session), 1, 7, 8, ({ dEvent with origin := 6, eseq := 8 } : Event), ([] : List Event), (let h : Event := { dEvent with origin := 6, eseq := 8 }; let l : List Event := []; let s : State := apex; let s : State := ({ s with ket := { s.ket with queue := h :: l } }); { (wr O.SYS_RECOVERY 0 (wr O.TREE_NODE_NUMBER 0 s)) with jop := { s.jop with sessions := [{ ({ id := 1, rights := 255, keyHd := 11, keyDh := 12, top := 0, seen := [], sent := 0, latest := [], replies := [], waiting := [], last := 0 } : Session) with rights := 255 }] }, ket := { s.ket with queue := [{ dEvent with origin := 6, eseq := 8 }] } }), auth_valid _ _ _ _ (by decide), by decide⟩,
   ⟨((auth 0x21 ([low 8 1, 0] ++ beBytes 2 7 ++ beBytes 4 8)) : JopAuth), ({ ({ id := 1, rights := 255, keyHd := 11, keyDh := 12, top := 0, seen := [], sent := 0, latest := [], replies := [], waiting := [], last := 0 } : Session) with rights := 255 } : Session), 1, 7, 8, ({ dEvent with origin := 7, eseq := 9 } : Event), ([] : List Event), (let h : Event := { dEvent with origin := 7, eseq := 9 }; let l : List Event := []; let s : State := apex; let s : State := ({ s with ket := { s.ket with queue := h :: l } }); { (wr O.SYS_RECOVERY 0 (wr O.TREE_NODE_NUMBER 0 s)) with jop := { s.jop with sessions := [{ ({ id := 1, rights := 255, keyHd := 11, keyDh := 12, top := 0, seen := [], sent := 0, latest := [], replies := [], waiting := [], last := 0 } : Session) with rights := 255 }] }, ket := { s.ket with queue := [{ dEvent with origin := 7, eseq := 9 }] } }), auth_valid _ _ _ _ (by decide), by decide⟩,
   ⟨((auth 0x21 ([low 8 1, 0] ++ beBytes 2 7 ++ beBytes 4 8)) : JopAuth), ({ ({ id := 1, rights := 255, keyHd := 11, keyDh := 12, top := 0, seen := [], sent := 0, latest := [], replies := [], waiting := [], last := 0 } : Session) with rights := 255 } : Session), 1, 7, 8, ({ dEvent with origin := 7, eseq := 8 } : Event), ([] : List Event), (let h : Event := { dEvent with origin := 7, eseq := 8 }; let l : List Event := []; let s : State := apex; let s : State := ({ s with ket := { s.ket with queue := h :: l } }); { (wr O.SYS_RECOVERY 0 (wr O.TREE_NODE_NUMBER 0 s)) with jop := { s.jop with sessions := [{ ({ id := 1, rights := 255, keyHd := 11, keyDh := 12, top := 0, seen := [], sent := 0, latest := [], replies := [], waiting := [], last := 0 } : Session) with rights := 255 }] }, ket := { s.ket with queue := [{ dEvent with origin := 7, eseq := 8 }] } }), auth_valid _ _ _ _ (by decide), by decide⟩,
   ⟨((auth 0x10 (readHead 0 0x1000 1 1)) : JopAuth), ({ ({ id := 1, rights := 255, keyHd := 11, keyDh := 12, top := 0, seen := [], sent := 0, latest := [], replies := [], waiting := [], last := 0 } : Session) with rights := 255 } : Session), 0, 0x1000, 1, 1, (let s : State := apex; { (wr O.SYS_RECOVERY 0 (wr O.TREE_NODE_NUMBER 0 s)) with jop := { s.jop with sessions := [{ ({ id := 1, rights := 255, keyHd := 11, keyDh := 12, top := 0, seen := [], sent := 0, latest := [], replies := [], waiting := [], last := 0 } : Session) with rights := 255 }] } }), (let a : JopAuth := (auth 0x10 (readHead 0 0x1000 1 1)); let x : Session := { ({ id := 1, rights := 255, keyHd := 11, keyDh := 12, top := 0, seen := [], sent := 0, latest := [], replies := [], waiting := [], last := 0 } : Session) with rights := 255 }; let i : Nat := 0x1000; let u : Nat := 1; let c : Nat := 1; let s : State := apex; let s : State := { (wr O.SYS_RECOVERY 0 (wr O.TREE_NODE_NUMBER 0 s)) with jop := { s.jop with sessions := [{ ({ id := 1, rights := 255, keyHd := 11, keyDh := 12, top := 0, seen := [], sent := 0, latest := [], replies := [], waiting := [], last := 0 } : Session) with rights := 255 }] } }; (readMany (.jop x.rights) (i * 256 + u) c 0 [] (acceptedBy a 0x10 s)).2.2.2), (let a : JopAuth := (auth 0x10 (readHead 0 0x1000 1 1)); let x : Session := { ({ id := 1, rights := 255, keyHd := 11, keyDh := 12, top := 0, seen := [], sent := 0, latest := [], replies := [], waiting := [], last := 0 } : Session) with rights := 255 }; let i : Nat := 0x1000; let u : Nat := 1; let c : Nat := 1; let s : State := apex; let s : State := { (wr O.SYS_RECOVERY 0 (wr O.TREE_NODE_NUMBER 0 s)) with jop := { s.jop with sessions := [{ ({ id := 1, rights := 255, keyHd := 11, keyDh := 12, top := 0, seen := [], sent := 0, latest := [], replies := [], waiting := [], last := 0 } : Session) with rights := 255 }] } }; (readMany (.jop x.rights) (i * 256 + u) c 0 [] (acceptedBy a 0x10 s)).1), (let a : JopAuth := (auth 0x10 (readHead 0 0x1000 1 1)); let x : Session := { ({ id := 1, rights := 255, keyHd := 11, keyDh := 12, top := 0, seen := [], sent := 0, latest := [], replies := [], waiting := [], last := 0 } : Session) with rights := 255 }; let i : Nat := 0x1000; let u : Nat := 1; let c : Nat := 1; let s : State := apex; let s : State := { (wr O.SYS_RECOVERY 0 (wr O.TREE_NODE_NUMBER 0 s)) with jop := { s.jop with sessions := [{ ({ id := 1, rights := 255, keyHd := 11, keyDh := 12, top := 0, seen := [], sent := 0, latest := [], replies := [], waiting := [], last := 0 } : Session) with rights := 255 }] } }; (readMany (.jop x.rights) (i * 256 + u) c 0 [] (acceptedBy a 0x10 s)).2.1), (let a : JopAuth := (auth 0x10 (readHead 0 0x1000 1 1)); let x : Session := { ({ id := 1, rights := 255, keyHd := 11, keyDh := 12, top := 0, seen := [], sent := 0, latest := [], replies := [], waiting := [], last := 0 } : Session) with rights := 255 }; let i : Nat := 0x1000; let u : Nat := 1; let c : Nat := 1; let s : State := apex; let s : State := { (wr O.SYS_RECOVERY 0 (wr O.TREE_NODE_NUMBER 0 s)) with jop := { s.jop with sessions := [{ ({ id := 1, rights := 255, keyHd := 11, keyDh := 12, top := 0, seen := [], sent := 0, latest := [], replies := [], waiting := [], last := 0 } : Session) with rights := 255 }] } }; (readMany (.jop x.rights) (i * 256 + u) c 0 [] (acceptedBy a 0x10 s)).2.2.1), auth_valid _ _ _ _ (by decide), by decide⟩,
   ⟨((auth 0x10 (readHead 0x01000000 0x1000 1 1)) : JopAuth), ({ ({ id := 1, rights := 255, keyHd := 11, keyDh := 12, top := 0, seen := [], sent := 0, latest := [], replies := [], waiting := [], last := 0 } : Session) with rights := 255 } : Session), 0x01000000, 0x1000, 1, 1, (let s : State := apex; { (wr O.SYS_RECOVERY 0 (wr O.TREE_NODE_NUMBER 0 s)) with jop := { s.jop with sessions := [{ ({ id := 1, rights := 255, keyHd := 11, keyDh := 12, top := 0, seen := [], sent := 0, latest := [], replies := [], waiting := [], last := 0 } : Session) with rights := 255 }] } }), auth_valid _ _ _ _ (by decide), by decide⟩,
   ⟨((auth 17 (readHead 0 0 0 0 ++ beBytes 2 0 ++ [])) : JopAuth), ({ ({ id := 1, rights := 255, keyHd := 11, keyDh := 12, top := 0, seen := [], sent := 0, latest := [], replies := [], waiting := [], last := 0 } : Session) with rights := 255 } : Session), 0, 0, 0, 0, ([] : List Nat), (let s : State := apex; { (wr O.SYS_RECOVERY 0 (wr O.TREE_NODE_NUMBER 0 s)) with jop := { s.jop with sessions := [{ ({ id := 1, rights := 255, keyHd := 11, keyDh := 12, top := 0, seen := [], sent := 0, latest := [], replies := [], waiting := [], last := 0 } : Session) with rights := 255 }] } }), auth_valid _ _ _ _ (by decide), by decide⟩,
   ⟨((auth 17 (readHead 0 0 255 2 ++ beBytes 2 0 ++ [])) : JopAuth), ({ ({ id := 1, rights := 255, keyHd := 11, keyDh := 12, top := 0, seen := [], sent := 0, latest := [], replies := [], waiting := [], last := 0 } : Session) with rights := 255 } : Session), 0, 0, 255, 2, ([] : List Nat), (let s : State := apex; { (wr O.SYS_RECOVERY 0 (wr O.TREE_NODE_NUMBER 0 s)) with jop := { s.jop with sessions := [{ ({ id := 1, rights := 255, keyHd := 11, keyDh := 12, top := 0, seen := [], sent := 0, latest := [], replies := [], waiting := [], last := 0 } : Session) with rights := 255 }] } }), auth_valid _ _ _ _ (by decide), by decide⟩,
   ⟨((auth 0x11 (readHead 0 0x6001 1 1 ++ beBytes 2 2 ++ [1,2])) : JopAuth), ({ ({ id := 1, rights := 255, keyHd := 11, keyDh := 12, top := 0, seen := [], sent := 0, latest := [], replies := [], waiting := [], last := 0 } : Session) with rights := 255 } : Session), 0, 0x6001, 1, 1, ([1,2] : List Nat), (let s : State := apex; { (wr O.SYS_RECOVERY 0 (wr O.TREE_NODE_NUMBER 0 s)) with jop := { s.jop with sessions := [{ ({ id := 1, rights := 255, keyHd := 11, keyDh := 12, top := 0, seen := [], sent := 0, latest := [], replies := [], waiting := [], last := 0 } : Session) with rights := 255 }] } }), (let a : JopAuth := (auth 0x11 (readHead 0 0x6001 1 1 ++ beBytes 2 2 ++ [1,2])); let x : Session := { ({ id := 1, rights := 255, keyHd := 11, keyDh := 12, top := 0, seen := [], sent := 0, latest := [], replies := [], waiting := [], last := 0 } : Session) with rights := 255 }; let i : Nat := 0x6001; let u : Nat := 1; let c : Nat := 1; let d : List Nat := [1,2]; let s : State := apex; let s : State := { (wr O.SYS_RECOVERY 0 (wr O.TREE_NODE_NUMBER 0 s)) with jop := { s.jop with sessions := [{ ({ id := 1, rights := 255, keyHd := 11, keyDh := 12, top := 0, seen := [], sent := 0, latest := [], replies := [], waiting := [], last := 0 } : Session) with rights := 255 }] } }; (writeMany (.jop x.rights) (i * 256 + u) c 0 d (acceptedBy a 0x11 s)).2.2), (let a : JopAuth := (auth 0x11 (readHead 0 0x6001 1 1 ++ beBytes 2 2 ++ [1,2])); let x : Session := { ({ id := 1, rights := 255, keyHd := 11, keyDh := 12, top := 0, seen := [], sent := 0, latest := [], replies := [], waiting := [], last := 0 } : Session) with rights := 255 }; let i : Nat := 0x6001; let u : Nat := 1; let c : Nat := 1; let d : List Nat := [1,2]; let s : State := apex; let s : State := { (wr O.SYS_RECOVERY 0 (wr O.TREE_NODE_NUMBER 0 s)) with jop := { s.jop with sessions := [{ ({ id := 1, rights := 255, keyHd := 11, keyDh := 12, top := 0, seen := [], sent := 0, latest := [], replies := [], waiting := [], last := 0 } : Session) with rights := 255 }] } }; (writeMany (.jop x.rights) (i * 256 + u) c 0 d (acceptedBy a 0x11 s)).1), (let a : JopAuth := (auth 0x11 (readHead 0 0x6001 1 1 ++ beBytes 2 2 ++ [1,2])); let x : Session := { ({ id := 1, rights := 255, keyHd := 11, keyDh := 12, top := 0, seen := [], sent := 0, latest := [], replies := [], waiting := [], last := 0 } : Session) with rights := 255 }; let i : Nat := 0x6001; let u : Nat := 1; let c : Nat := 1; let d : List Nat := [1,2]; let s : State := apex; let s : State := { (wr O.SYS_RECOVERY 0 (wr O.TREE_NODE_NUMBER 0 s)) with jop := { s.jop with sessions := [{ ({ id := 1, rights := 255, keyHd := 11, keyDh := 12, top := 0, seen := [], sent := 0, latest := [], replies := [], waiting := [], last := 0 } : Session) with rights := 255 }] } }; (writeMany (.jop x.rights) (i * 256 + u) c 0 d (acceptedBy a 0x11 s)).2.1), auth_valid _ _ _ _ (by decide), by decide⟩,
   ⟨((auth 0x11 (readHead 0x01000000 0x6001 1 1 ++ beBytes 2 2 ++ [1,2])) : JopAuth), ({ ({ id := 1, rights := 255, keyHd := 11, keyDh := 12, top := 0, seen := [], sent := 0, latest := [], replies := [], waiting := [], last := 0 } : Session) with rights := 1 } : Session), 0x01000000, 0x6001, 1, 1, ([1,2] : List Nat), (let s : State := apex; { (wr O.SYS_RECOVERY 0 (wr O.TREE_NODE_NUMBER 0 s)) with jop := { s.jop with sessions := [{ ({ id := 1, rights := 255, keyHd := 11, keyDh := 12, top := 0, seen := [], sent := 0, latest := [], replies := [], waiting := [], last := 0 } : Session) with rights := 1 }] } }), auth_valid _ _ _ _ (by decide), by decide⟩,
   ⟨((auth 17 (readHead (2 ^ 24) 0 0 0 ++ beBytes 2 1000 ++ (List.replicate 1000 0))) : JopAuth), ({ ({ id := 1, rights := 255, keyHd := 11, keyDh := 12, top := 0, seen := [], sent := 0, latest := [], replies := [], waiting := [], last := 0 } : Session) with rights := 255 } : Session), ((2 ^ 24) : Nat), 0, 0, 0, ((List.replicate 1000 0) : List Nat), (let s : State := apex; { (wr O.SYS_RECOVERY 0 (wr O.TREE_NODE_NUMBER 0 s)) with jop := { s.jop with sessions := [{ ({ id := 1, rights := 255, keyHd := 11, keyDh := 12, top := 0, seen := [], sent := 0, latest := [], replies := [], waiting := [], last := 0 } : Session) with rights := 255 }] } }), auth_valid _ _ _ _ (by decide), by decide⟩,
   ⟨((auth 0x11 (readHead 0x01000000 0x6001 1 1 ++ beBytes 2 2 ++ [1,2])) : JopAuth), ({ ({ id := 1, rights := 255, keyHd := 11, keyDh := 12, top := 0, seen := [], sent := 0, latest := [], replies := [], waiting := [], last := 0 } : Session) with rights := 255 } : Session), 0x01000000, 0x6001, 1, 1, ([1,2] : List Nat), (let s : State := apex; { (wr O.SYS_RECOVERY 0 (wr O.TREE_NODE_NUMBER 0 s)) with jop := { s.jop with sessions := [{ ({ id := 1, rights := 255, keyHd := 11, keyDh := 12, top := 0, seen := [], sent := 0, latest := [], replies := [], waiting := [], last := 0 } : Session) with rights := 255 }] } }), auth_valid _ _ _ _ (by decide), by decide⟩,
   ⟨((auth 0x30 (bulkHead 0 0xD020 0 0)) : JopAuth), ({ ({ id := 1, rights := 255, keyHd := 11, keyDh := 12, top := 0, seen := [], sent := 0, latest := [], replies := [], waiting := [], last := 0 } : Session) with rights := 255 } : Session), 0, 0xD020, 0, 0, (let s : State := apex; { (wr O.SYS_RECOVERY 0 (wr O.TREE_NODE_NUMBER 0 s)) with jop := { s.jop with sessions := [{ ({ id := 1, rights := 255, keyHd := 11, keyDh := 12, top := 0, seen := [], sent := 0, latest := [], replies := [], waiting := [], last := 0 } : Session) with rights := 255 }] } }), auth_valid _ _ _ _ (by decide), by decide⟩,
   ⟨((auth 0x30 (bulkHead 0 0xD020 0 1393)) : JopAuth), ({ ({ id := 1, rights := 255, keyHd := 11, keyDh := 12, top := 0, seen := [], sent := 0, latest := [], replies := [], waiting := [], last := 0 } : Session) with rights := 255 } : Session), 0, 0xD020, 0, 1393, (let s : State := apex; { (wr O.SYS_RECOVERY 0 (wr O.TREE_NODE_NUMBER 0 s)) with jop := { s.jop with sessions := [{ ({ id := 1, rights := 255, keyHd := 11, keyDh := 12, top := 0, seen := [], sent := 0, latest := [], replies := [], waiting := [], last := 0 } : Session) with rights := 255 }] } }), auth_valid _ _ _ _ (by decide), by decide⟩,
   ⟨((auth 0x30 (bulkHead 0 0xD011 0 4)) : JopAuth), ({ ({ id := 1, rights := 255, keyHd := 11, keyDh := 12, top := 0, seen := [], sent := 0, latest := [], replies := [], waiting := [], last := 0 } : Session) with rights := 255 } : Session), 0, 0xD011, 0, 4, (let s : State := apex; let s : State := (wr O.SYS_RECOVERY 0 { s with nvm := { s.nvm with eraseBad := false } }); { ({ (wr O.SYS_RECOVERY 0 (wr O.TREE_NODE_NUMBER 0 s)) with jop := { s.jop with sessions := [{ ({ id := 1, rights := 255, keyHd := 11, keyDh := 12, top := 0, seen := [], sent := 0, latest := [], replies := [], waiting := [], last := 0 } : Session) with rights := 255 }] } } : State) with nvm := { NvmSt.init with eraseEnd := none, eraseBad := false } }), auth_valid _ _ _ _ (by decide), by decide⟩,
   ⟨((auth 48 (bulkHead 0 77 0 1)) : JopAuth), ({ ({ id := 1, rights := 255, keyHd := 11, keyDh := 12, top := 0, seen := [], sent := 0, latest := [], replies := [], waiting := [], last := 0 } : Session) with rights := 255 } : Session), 0, 77, 0, 1, (let s : State := apex; { (wr O.SYS_RECOVERY 0 (wr O.TREE_NODE_NUMBER 0 s)) with jop := { s.jop with sessions := [{ ({ id := 1, rights := 255, keyHd := 11, keyDh := 12, top := 0, seen := [], sent := 0, latest := [], replies := [], waiting := [], last := 0 } : Session) with rights := 255 }] } }), auth_valid _ _ _ _ (by decide), by decide⟩,
   ⟨((auth 0x30 (bulkHead 0x01000000 0xD020 0 4)) : JopAuth), ({ ({ id := 1, rights := 255, keyHd := 11, keyDh := 12, top := 0, seen := [], sent := 0, latest := [], replies := [], waiting := [], last := 0 } : Session) with rights := 255 } : Session), 0x01000000, 0xD020, 0, 4, (let s : State := apex; { (wr O.SYS_RECOVERY 0 (wr O.TREE_NODE_NUMBER 0 s)) with jop := { s.jop with sessions := [{ ({ id := 1, rights := 255, keyHd := 11, keyDh := 12, top := 0, seen := [], sent := 0, latest := [], replies := [], waiting := [], last := 0 } : Session) with rights := 255 }] } }), auth_valid _ _ _ _ (by decide), by decide⟩,
   ⟨((auth 49 (bulkHead 0 1 0 0 ++ [])) : JopAuth), ({ ({ id := 1, rights := 255, keyHd := 11, keyDh := 12, top := 0, seen := [], sent := 0, latest := [], replies := [], waiting := [], last := 0 } : Session) with rights := 255 } : Session), 0, 1, 0, ([] : List Nat), (let s : State := apex; { (wr O.SYS_RECOVERY 0 (wr O.TREE_NODE_NUMBER 0 s)) with jop := { s.jop with sessions := [{ ({ id := 1, rights := 255, keyHd := 11, keyDh := 12, top := 0, seen := [], sent := 0, latest := [], replies := [], waiting := [], last := 0 } : Session) with rights := 255 }] } }), auth_valid _ _ _ _ (by decide), by decide⟩,
   ⟨((auth 49 (bulkHead 0 1 0 1377 ++ (List.replicate 1377 0))) : JopAuth), ({ ({ id := 1, rights := 255, keyHd := 11, keyDh := 12, top := 0, seen := [], sent := 0, latest := [], replies := [], waiting := [], last := 0 } : Session) with rights := 255 } : Session), 0, 1, 0, ((List.replicate 1377 0) : List Nat), (let s : State := apex; { (wr O.SYS_RECOVERY 0 (wr O.TREE_NODE_NUMBER 0 s)) with jop := { s.jop with sessions := [{ ({ id := 1, rights := 255, keyHd := 11, keyDh := 12, top := 0, seen := [], sent := 0, latest := [], replies := [], waiting := [], last := 0 } : Session) with rights := 255 }] } }), auth_valid _ _ _ _ (by decide), by decide⟩,
   ⟨((auth 0x31 (bulkHead 0 0xD010 0 2 ++ [1,2])) : JopAuth), ({ ({ id := 1, rights := 255, keyHd := 11, keyDh := 12, top := 0, seen := [], sent := 0, latest := [], replies := [], waiting := [], last := 0 } : Session) with rights := 255 } : Session), 0, 0xD010, 0, ([1,2] : List Nat), (let s : State := apex; let s : State := (wr O.SYS_RECOVERY 0 { s with nvm := { s.nvm with eraseBad := false } }); { (wr O.SYS_RECOVERY 0 (wr O.TREE_NODE_NUMBER 0 s)) with jop := { s.jop with sessions := [{ ({ id := 1, rights := 255, keyHd := 11, keyDh := 12, top := 0, seen := [], sent := 0, latest := [], replies := [], waiting := [], last := 0 } : Session) with rights := 255 }] } }), auth_valid _ _ _ _ (by decide), by decide⟩,
   ⟨((auth 49 (bulkHead 0 77 0 1 ++ [0])) : JopAuth), ({ ({ id := 1, rights := 255, keyHd := 11, keyDh := 12, top := 0, seen := [], sent := 0, latest := [], replies := [], waiting := [], last := 0 } : Session) with rights := 255 } : Session), 0, 77, 0, ([0] : List Nat), (let s : State := apex; { (wr O.SYS_RECOVERY 0 (wr O.TREE_NODE_NUMBER 0 s)) with jop := { s.jop with sessions := [{ ({ id := 1, rights := 255, keyHd := 11, keyDh := 12, top := 0, seen := [], sent := 0, latest := [], replies := [], waiting := [], last := 0 } : Session) with rights := 255 }] } }), auth_valid _ _ _ _ (by decide), by decide⟩,
   ⟨((auth 0x31 (bulkHead 0x01000000 0xD010 0 2 ++ [1,2])) : JopAuth), ({ ({ id := 1, rights := 255, keyHd := 11, keyDh := 12, top := 0, seen := [], sent := 0, latest := [], replies := [], waiting := [], last := 0 } : Session) with rights := 255 } : Session), 0x01000000, 0xD010, 0, ([1,2] : List Nat), (let s : State := apex; { (wr O.SYS_RECOVERY 0 (wr O.TREE_NODE_NUMBER 0 s)) with jop := { s.jop with sessions := [{ ({ id := 1, rights := 255, keyHd := 11, keyDh := 12, top := 0, seen := [], sent := 0, latest := [], replies := [], waiting := [], last := 0 } : Session) with rights := 255 }] } }), auth_valid _ _ _ _ (by decide), by decide⟩,
   ⟨((auth 64 (beBytes 2 0 ++ [])) : JopAuth), ({ ({ id := 1, rights := 255, keyHd := 11, keyDh := 12, top := 0, seen := [], sent := 0, latest := [], replies := [], waiting := [], last := 0 } : Session) with rights := 255 } : Session), ([] : List Nat), (let s : State := apex; { (wr O.SYS_RECOVERY 0 (wr O.TREE_NODE_NUMBER 0 s)) with jop := { s.jop with sessions := [{ ({ id := 1, rights := 255, keyHd := 11, keyDh := 12, top := 0, seen := [], sent := 0, latest := [], replies := [], waiting := [], last := 0 } : Session) with rights := 255 }] } }), auth_valid _ _ _ _ (by decide), by decide⟩,
   ⟨((auth 64 (beBytes 2 257 ++ (List.replicate 257 0))) : JopAuth), ({ ({ id := 1, rights := 255, keyHd := 11, keyDh := 12, top := 0, seen := [], sent := 0, latest := [], replies := [], waiting := [], last := 0 } : Session) with rights := 255 } : Session), ((List.replicate 257 0) : List Nat), (let s : State := apex; { (wr O.SYS_RECOVERY 0 (wr O.TREE_NODE_NUMBER 0 s)) with jop := { s.jop with sessions := [{ ({ id := 1, rights := 255, keyHd := 11, keyDh := 12, top := 0, seen := [], sent := 0, latest := [], replies := [], waiting := [], last := 0 } : Session) with rights := 255 }] } }), auth_valid _ _ _ _ (by decide), by decide⟩,
   ⟨((auth 0x40 (beBytes 2 2 ++ [1,2])) : JopAuth), ({ ({ id := 1, rights := 255, keyHd := 11, keyDh := 12, top := 0, seen := [], sent := 0, latest := [], replies := [], waiting := [], last := 0 } : Session) with rights := 255 } : Session), ([1,2] : List Nat), (let s : State := apex; let s : State := (wr O.SYS_CORE_MSG_LEN (0 + 1) s); wr O.SYS_CORE_MSG_LEN 5 { (wr O.SYS_RECOVERY 0 (wr O.TREE_NODE_NUMBER 0 s)) with jop := { s.jop with sessions := [{ ({ id := 1, rights := 255, keyHd := 11, keyDh := 12, top := 0, seen := [], sent := 0, latest := [], replies := [], waiting := [], last := 0 } : Session) with rights := 255 }] } }), auth_valid _ _ _ _ (by decide), by decide⟩,
   ⟨((auth 0x40 (beBytes 2 2 ++ [1,2])) : JopAuth), ({ ({ id := 1, rights := 255, keyHd := 11, keyDh := 12, top := 0, seen := [], sent := 0, latest := [], replies := [], waiting := [], last := 0 } : Session) with rights := 255 } : Session), ([1,2] : List Nat), (let s : State := apex; let s : State := (wr O.SYS_CORE_MSG_LEN 0 s); wr O.SYS_CORE_MSG_LEN 0 { (wr O.SYS_RECOVERY 0 (wr O.TREE_NODE_NUMBER 0 s)) with jop := { s.jop with sessions := [{ ({ id := 1, rights := 255, keyHd := 11, keyDh := 12, top := 0, seen := [], sent := 0, latest := [], replies := [], waiting := [], last := 0 } : Session) with rights := 255 }] } }), auth_valid _ _ _ _ (by decide), by decide⟩,
   ⟨((auth 0x50 (beBytes 4 0 ++ List.replicate 32 7)) : JopAuth), ({ ({ id := 1, rights := 255, keyHd := 11, keyDh := 12, top := 0, seen := [], sent := 0, latest := [], replies := [], waiting := [], last := 0 } : Session) with rights := 255 } : Session), 0, ((List.replicate 32 7) : List Nat), (let s : State := apex; { (wr O.SYS_RECOVERY 0 (wr O.TREE_NODE_NUMBER 0 s)) with jop := { s.jop with sessions := [{ ({ id := 1, rights := 255, keyHd := 11, keyDh := 12, top := 0, seen := [], sent := 0, latest := [], replies := [], waiting := [], last := 0 } : Session) with rights := 255 }] } }), auth_valid _ _ _ _ (by decide), by decide⟩,
   ⟨((auth 80 (beBytes 4 (2 ^ 24) ++ padTo 32 0 [])) : JopAuth), ({ ({ id := 1, rights := 255, keyHd := 11, keyDh := 12, top := 0, seen := [], sent := 0, latest := [], replies := [], waiting := [], last := 0 } : Session) with rights := 255 } : Session), ((2 ^ 24) : Nat), ([] : List Nat), (let s : State := apex; { (wr O.SYS_RECOVERY 0 (wr O.TREE_NODE_NUMBER 0 s)) with jop := { s.jop with sessions := [{ ({ id := 1, rights := 255, keyHd := 11, keyDh := 12, top := 0, seen := [], sent := 0, latest := [], replies := [], waiting := [], last := 0 } : Session) with rights := 255 }] } }), auth_valid _ _ _ _ (by decide), by decide⟩,
   ⟨(let s : State := apex; (wr O.SYS_RECOVERY (0 + 1) s)), by decide⟩,
   ⟨((256 + 1) : Nat), (let s : State := apex; (wr O.SYS_RECOVERY 0 s)), by decide⟩,
   ⟨0, (let s : State := apex; (wr O.SYS_RECOVERY 0 s)), by decide⟩⟩

/-- Obligations.StoreImagesAndKeys: the hypotheses of its clauses can be met. -/
theorem witness_StoreImagesAndKeys :
    (∃ (s : State), rd O.SYS_RECOVERY s ≠ 0 ∧ rd O.SYS_RECOVERY s ≠ 1) ∧
    (∃ (s : State), rd O.SYS_RECOVERY s = 0 ∧ s.nvm.busy = none) ∧
    (∃ (s : State), rd O.SYS_RECOVERY s = 0 ∧ s.nvm.busy ≠ none) ∧
    (∃ (c : StoreCopy) (x : Nat) (s : State), s.nvm.busy = some (c, x)) ∧
    (∃ (s : State), rd O.SYS_RECOVERY s ≤ 1 ∧ s.nvm.eraseEnd ≠ none) ∧
    (∃ (s : State) (i : Nat) (e : Nat), rd O.SYS_RECOVERY s ≤ 1 ∧ s.nvm.eraseEnd = none ∧ i = 1 - rd O.NVM_RUN_SLOT s ∧ e = slotError i s ∧ e ≠ 0) ∧
    (∃ (i : Nat) (s : State), rd O.SYS_RECOVERY s ≤ 1 ∧ s.nvm.eraseEnd = none ∧ i = 1 - rd O.NVM_RUN_SLOT s ∧ slotError i s = 0) ∧
    (∃ (i : Nat) (s : State), i ∉ s.nvm.factory ∧ slotField i 0 4 s ≠ 0x55544449) ∧
    (∃ (i : Nat) (s : State), i ∉ s.nvm.factory ∧ slotField i 0 4 s = 0x55544449 ∧ slotField i 4 4 s = 1 ∧ slotField i 24 4 s = 0 ∧ slotField i 252 260 s = 0 ∧ 393216 < slotField i 16 4 s) ∧
    (∃ (s : State), rd (O.NVM_SLOT_STATUS (1 - rd O.NVM_RUN_SLOT s)) s ≠ 3) ∧
    (∃ (s : State), rd O.SYS_RECOVERY s ≤ 1 ∧ rd (O.NVM_SLOT_STATUS (1 - rd O.NVM_RUN_SLOT s)) s = 3) ∧
    (∃ (s : State), rd O.NVM_TRIAL s = 0) ∧
    (∃ (s : State), rd O.NVM_BOOT_SLOT s ≠ rd O.NVM_RUN_SLOT s) ∧
    (∃ (s : State), rd O.SYS_RECOVERY s = 0 ∧ rd O.NVM_TRIAL s ≠ 0 ∧ rd O.NVM_BOOT_SLOT s = rd O.NVM_RUN_SLOT s) ∧
    (∃ (n : Nat) (s : State), rd O.SYS_RECOVERY s = 0 ∧ 7 < n) ∧
    (∃ (n : Nat) (s : State), n ≤ 7 ∧ rd O.SEC_KEY_STAGE s = 0) ∧
    (∃ (n : Nat) (s : State), n ≤ 7 ∧ rd O.SEC_RIGHTS_STAGE s = 0) ∧
    (∃ (n : Nat) (s : State), rd O.SYS_RECOVERY s = 0 ∧ n ≤ 7 ∧ rd O.SEC_KEY_STAGE s ≠ 0 ∧ rd O.SEC_RIGHTS_STAGE s ≠ 0) ∧
    (∃ (n : Nat) (s : State), n ≤ 7 ∧ rdBit (O.SEC_HOST_RIGHTS n) 5 s = true ∧ (∀ j < 8, j ≠ n → rdBit (O.SEC_HOST_RIGHTS j) 5 s = false)) ∧
    (∃ (n : Nat) (s : State), rd O.SYS_RECOVERY s = 0 ∧ n ≤ 7 ∧ rdBit (O.SEC_HOST_RIGHTS n) 5 s = false) ∧
    (∃ (n : Nat) (s : State), rd O.SYS_RECOVERY s = 0 ∧ n ≤ 7 ∧ (∃ m < 8, m ≠ n ∧ rdBit (O.SEC_HOST_RIGHTS m) 5 s = true)) ∧
    (∃ (x : Nat), onCurve x = true) :=
  ⟨⟨(let s : State := node; let s : State := (wr O.SYS_RECOVERY (0 + 1) s); (wr O.SYS_RECOVERY (1 + 1) s)), by decide⟩,
   ⟨(let s : State := node; let s : State := (wr O.SYS_RECOVERY 0 s); ({ s with nvm := { s.nvm with busy := none } })), by decide⟩,
   ⟨(let s : State := node; let s : State := (wr O.SYS_RECOVERY 0 s); ({ s with nvm := { s.nvm with busy := some (dStoreCopy, 0) } })), by decide⟩,
   ⟨dStoreCopy, 0, (let c : StoreCopy := dStoreCopy; let x : Nat := 0; let s : State := node; ({ s with nvm := { s.nvm with busy := some (c, x) } })), by decide⟩,
   ⟨(let s : State := node; let s : State := (wr O.SYS_RECOVERY 1 s); ({ s with nvm := { s.nvm with eraseEnd := some default } })), by decide⟩,
   ⟨(let s : State := node; let s : State := (wr O.SYS_RECOVERY 1 s); let s : State := ({ s with nvm := { s.nvm with eraseEnd := none } }); wr O.NVM_RUN_SLOT 0 { s with nvm := { s.nvm with eraseEnd := none, factory := [0] } }), (let s : State := node; let s : State := (wr O.SYS_RECOVERY 1 s); let s : State := ({ s with nvm := { s.nvm with eraseEnd := none } }); let s : State := wr O.NVM_RUN_SLOT 0 { s with nvm := { s.nvm with eraseEnd := none, factory := [0] } }; (1 - rd O.NVM_RUN_SLOT s)), (let s : State := node; let s : State := (wr O.SYS_RECOVERY 1 s); let s : State := ({ s with nvm := { s.nvm with eraseEnd := none } }); let s : State := wr O.NVM_RUN_SLOT 0 { s with nvm := { s.nvm with eraseEnd := none, factory := [0] } }; let i : Nat := (1 - rd O.NVM_RUN_SLOT s); (slotError i s)), by decide⟩,
   ⟨1, (let s : State := node; let s : State := (wr O.SYS_RECOVERY 1 s); let s : State := ({ s with nvm := { s.nvm with eraseEnd := none } }); wr O.NVM_RUN_SLOT 0 { s with nvm := { s.nvm with eraseEnd := none, factory := [0, 1] } }), by decide⟩,
   ⟨1, (let s : State := node; stByte (slotBase 1) 0x48 s), by decide⟩,
   ⟨1, (let s : State := node; stBytes (slotBase 1) (leBytes 4 0x55544449 ++ leBytes 4 1 ++ List.replicate 8 0 ++ leBytes 4 393217) { s with nvm := { s.nvm with factory := [0] } }), by decide⟩,
   ⟨(let s : State := node; (wr (O.NVM_SLOT_STATUS (1 - rd O.NVM_RUN_SLOT s)) (3 + 1) s)), by decide⟩,
   ⟨(let s : State := node; let s : State := (wr O.SYS_RECOVERY 1 s); (wr (O.NVM_SLOT_STATUS (1 - rd O.NVM_RUN_SLOT s)) 3 s)), by decide⟩,
   ⟨(let s : State := node; (wr O.NVM_TRIAL 0 s)), by decide⟩,
   ⟨(let s : State := node; (wr O.NVM_BOOT_SLOT (rd O.NVM_RUN_SLOT s + 1) s)), by decide⟩,
   ⟨(let s : State := node; let s : State := (wr O.SYS_RECOVERY 0 s); let s : State := (wr O.NVM_TRIAL (0 + 1) s); (wr O.NVM_BOOT_SLOT (rd O.NVM_RUN_SLOT s) s)), by decide⟩,
   ⟨((7 + 1) : Nat), (let s : State := node; (wr O.SYS_RECOVERY 0 s)), by decide⟩,
   ⟨0, (let s : State := node; (wr O.SEC_KEY_STAGE 0 s)), by decide⟩,
   ⟨0, (let s : State := node; (wr O.SEC_RIGHTS_STAGE 0 s)), by decide⟩,
   ⟨0, (let s : State := node; let s : State := (wr O.SYS_RECOVERY 0 s); let s : State := (wr O.SEC_KEY_STAGE (0 + 1) s); (wr O.SEC_RIGHTS_STAGE (0 + 1) s)), by decide⟩,
   ⟨0, (let n : Nat := 0; let s : State := node; (wrBit (O.SEC_HOST_RIGHTS n) 5 true s)), by decide⟩,
   ⟨3, (let n : Nat := 3; let s : State := node; let s : State := (wr O.SYS_RECOVERY 0 s); let s : State := (wrBit (O.SEC_HOST_RIGHTS n) 5 false s); wr (O.SEC_HOST_RIGHTS 3) 0 s), by decide⟩,
   ⟨3, (let s : State := node; let s : State := (wr O.SYS_RECOVERY 0 s); wr (O.SEC_HOST_RIGHTS 5) 32 (wr (O.SEC_HOST_RIGHTS 3) 32 s)), by decide⟩,
   ⟨((4 * 2^512 + 0x6B17D1F2E12C4247F8BCE6E563A440F277037D812DEB33A0F4A13945D898C296 * 2^256 + 0x4FE342E2FE1A7F9B8EE7EB4A7C0F9E162BCE33576B315ECECBB6406837BF51F5) : Nat), by decide⟩⟩

end Sys2Proof.Tests
end

section
/-! SUPPORT. What every command keeps: each arm of exec answers the state of one shared operation, whose lemma under Laws says what it keeps. -/
namespace Sys2Proof.Machine

/-- The outcome is a next state, one that s reaches by operations that keep what Kept says. -/
def Keeps (r : Bool) (s : State) (o : Host.Outcome State Fault Refusal) : Prop := ∃ t, o = .next t ∧ Kept r s t

theorem ok_keeps {r : Bool} {s t : State} (h : Kept r s t) : Keeps r s (ok t) := ⟨t, rfl, h⟩

theorem finish_keeps {r : Bool} {s : State} {x : Res} (h : Kept r s x.2) : Keeps r s (ok (finish x)) := ok_keeps (answer_kept _ _ h)

theorem Keeps.kept_of_next {r : Bool} {s t : State} {o : Host.Outcome State Fault Refusal} (h : Keeps r s o) (ht : o = .next t) : Kept r s t := by
  obtain ⟨u, rfl, hu⟩ := h
  cases ht
  exact hu

/-- A request that writes nothing: a READ or an ATTEST. Unlike reqRun_kept it also says that time goes forward. -/
theorem reqRun_kept_of_noWrite {r : Bool} {s0 s : State} (h : Hdr) (m : ObjMsg) (hop : m.op = 1 ∨ m.op = 4) (hk : Kept r s0 s) : Kept r s0 (reqRun h m s) := by
  unfold reqRun
  obtain hread | hattest := hop
  · rw [hread]
    exact respond_kept _ _ _ _ _ (reqReads_kept _ _ _ hk)
  · rw [hattest]
    exact ite_kept (respond_kept _ _ _ _ _ hk) (ite_kept (respond_kept _ _ _ _ _ hk) (respond_kept _ _ _ _ _ (attest_kept _ hk)))

/-- An OBJ_REQ that arrives keeps what its execution here keeps; it also may be answered from the cache or passed on (R359, R361). -/
theorem reqRx_kept_of_run {r : Bool} {s0 s : State} (h : Hdr) (m : ObjMsg) (hrun : ∀ m' : ObjMsg, m'.op = m.op → Kept r s0 (reqRun h m' s)) (hk : Kept r s0 s) :
    Kept r s0 (reqRx h m s) := by
  unfold reqRx
  dsimp only
  split
  · exact bump_kept _ (sendFrame_kept _ _ _ _ _ _ _ _ _ hk)
  · refine ite_kept (ite_kept (ite_kept hk (respond_kept _ _ _ _ _ hk)) ?_) (hrun m rfl)
    exact ite_kept (hrun _ rfl) (ite_kept (noticeOn_kept _ _ hk) (request_kept _ _ _ _ _ _ _ hk))

/-- Every command but RESET_RELEASE keeps what Kept says, with time going forward where the command cannot reset the device. The cases stand by the file of Machine that gives them their meaning. -/
theorem exec_keeps (c : Instr) (s : State) (hc : ∀ inp, c ≠ .resetRelease inp) : Keeps c.mayReset s (exec c s) := by
  have hk : ∀ {r : Bool}, Kept r s s := Kept.refl _ s
  cases c with
  -- Sys2Proof/Machine/Sys.lean
  | powerOn => exact ok_keeps (powerOn_kept hk)
  | resetPin | supplyDip => exact ok_keeps (dieReset_kept _ hk)
  | resetRelease inp => exact (hc inp rfl).elim
  | bootRetry => exact ok_keeps (bootRetry_kept _ hk)
  | refclkLoss => exact ok_keeps (refclkLoss_kept hk)
  | refclkReturn => exact ok_keeps (updSys_kept _ hk)
  | pcsParityError => exact ok_keeps (pcsParity_kept _ _ hk)
  | routerParityError => exact ok_keeps (routerParity_kept _ _ hk)
  | sysCmdReset => exact finish_keeps (writeSysCmd_kept _ hk)
  | scrubPass => exact ok_keeps (scrubPass_kept _ _ hk)
  | sysShelf | sysDdrOff | sysDdrOn | sysCaptureOff | sysCaptureOn => exact finish_keeps (writePowerCmd_kept _ hk)
  | sysWake => exact ok_keeps (wake_kept hk)
  | tamperEvent => exact ok_keeps (tamperEvent_kept _ _ hk)
  | sysTamperAck => exact finish_keeps (writeTamperAck_kept _ hk)
  | overtempReading => exact ok_keeps (overtemp_kept _ hk)
  | coreCheckFailure => exact ok_keeps (coreFail_kept _ hk)
  | ddrBackInService => exact ok_keeps (ddrReturn_kept hk)
  -- Sys2Proof/Machine/Tree.lean
  | enumeration => exact ok_keeps (enumeration_kept _ _ _ hk)
  | celArmDeblock => exact finish_keeps (writeArmDeblock_kept _ hk)
  -- Sys2Proof/Machine/Tim.lean
  | timPeriodWrite => exact finish_keeps (writeTimPeriod_kept _ hk)
  | timApplyLagWrite => exact finish_keeps (writeTimApplyLag_kept _ hk)
  | timCmdGuardWrite => exact finish_keeps (writeTimCmdGuard_kept _ hk)
  | timLawStartWrite => exact finish_keeps (writeTimLawStart_kept _ hk)
  | balSlalomSeedWrite => exact finish_keeps (writeSlalomSeed_kept _ hk)
  | pdelayReqSend => exact ok_keeps (pdelayReqSend_kept _ hk)
  | pdelayReqRx => exact ok_keeps (pdelayReqRx_kept _ _ _ _ hk)
  | pdelayRespRx => exact ok_keeps (pdelayRespRx_kept _ _ _ hk)
  | syncSend => exact ok_keeps (syncSend_kept hk)
  | syncRx => exact ok_keeps (syncRx_kept _ _ _ hk)
  | syncTimeout => exact ok_keeps (syncTimeout_kept _ hk)
  | lineageReturn => exact ok_keeps (lineageReturn_kept hk)
  | apexPeerWait => exact ok_keeps (apexPeerWait_kept hk)
  | peerSyncLoss => exact ok_keeps (peerSyncLoss_kept hk)
  | refHoldoverEnd => exact ok_keeps (refHoldoverEnd_kept hk)
  | paramSend => exact ok_keeps (paramSend_kept hk)
  | paramRx => exact ok_keeps (paramRx_kept _ _ hk)
  | stationSend => exact ok_keeps (stationSend_kept hk)
  | stationRx => exact ok_keeps (stationRx_kept _ hk)
  | stationStale => exact ok_keeps (stationStale_kept hk)
  | timAsym => exact finish_keeps (ite2_kept (writeTimAsym_kept _ _ hk) hk)
  -- Sys2Proof/Machine/Period.lean
  | pMark => exact ok_keeps (pMark_kept hk)
  -- Sys2Proof/Machine/Cell.lean
  | cellReportLaunch => exact ok_keeps (cellReportLaunch_kept hk)
  | commandRx => exact ok_keeps (commandRx_kept _ _ _ hk)
  | acceptanceInstant => exact ok_keeps (acceptanceInstant_kept _ hk)
  | commandExecute => exact ok_keeps (commandExecute_kept hk)
  | carveEnd => exact ok_keeps (carveEnd_kept hk)
  | gateEdge => exact ok_keeps (gateEdge_kept hk)
  | celOrder => exact finish_keeps (writeCelOrder_kept _ hk)
  | celClear => exact finish_keeps (writeCelClear_kept _ hk)
  | housekeepingSample => exact ok_keeps (housekeeping_kept _ _ _ _ hk)
  | ov1Crossing => exact ok_keeps (ov1Crossing_kept hk)
  | ov1Release => exact ok_keeps (ov1Release_kept hk)
  | ov2Fault => exact ok_keeps (ov2Fault_kept hk)
  | dsatFault => exact ok_keeps (dsatFault_kept _ hk)
  | bypPulseEnd => exact ok_keeps (bypPulseEnd_kept hk)
  | bypConfirm => exact ok_keeps (bypConfirm_kept hk)
  | bypConfirmWindowEnd => exact ok_keeps (bypWindowEnd_kept _ hk)
  | bypHoldEnd => exact ok_keeps (bypHoldEnd_kept hk)
  | bypUncmd => exact ok_keeps (bypUncmd_kept _ hk)
  | heldTimeout => exact ok_keeps (heldTimeout_kept hk)
  -- Sys2Proof/Machine/Bal.lean
  | reportRx => exact ok_keeps (reportRx_kept _ _ _ _ hk)
  | reportClose => exact ok_keeps (reportClose_kept _ hk)
  | referenceRx => exact ok_keeps (referenceRx_kept _ _ _ hk)
  | commandLaunch => exact ok_keeps (commandLaunch_kept _ _ hk)
  | apportionLaunch => exact ok_keeps (apportionLaunch_kept hk)
  | summaryLaunch => exact ok_keeps (summaryLaunch_kept _ hk)
  | summaryRx => exact ok_keeps (summaryRx_kept _ _ _ hk)
  | groupSummaryDeadline => exact ok_keeps (summaryDeadline_kept _ hk)
  | nodePeriodAbandon => exact ok_keeps (periodAbandon_kept hk)
  -- Sys2Proof/Machine/Law.lean
  | lawEvalStart => exact ok_keeps (lawEvalStart_kept _ _ _ hk)
  | lawCommit => exact ok_keeps (lawCommitNow_kept hk)
  | lawCmdValidate | lawCmdStart | lawCmdStop | lawCmdSeal0 | lawCmdSeal1 | lawCmdClearErr => exact finish_keeps (writeLawCmd_kept _ hk)
  | lawBankReq => exact finish_keeps (writeBankReq_kept _ hk)
  | lawTrcArm | lawTrcForce | lawTrcStop => exact finish_keeps (writeTrcCmd_kept _ hk)
  -- Sys2Proof/Machine/Lnk.lean
  | lnkEnableWrite => exact finish_keeps (writeLnkEnable_kept _ _ hk)
  | lanePresenceLock => exact ok_keeps (presenceLock_kept _ _ hk)
  | laneL0Timeout => exact ok_keeps (l0Timeout_kept _ hk)
  | capRx => exact ok_keeps (onLadder_kept _ _ _ (fun c _ => capRx_kept _ c) hk)
  | rateGoRx => exact ok_keeps (onLadder_kept _ _ _ (fun c _ => rateGoRx_kept _ c) hk)
  | resultRx => exact ok_keeps (onLadder_kept _ _ _ (fun c _ => resultRx_kept _ c) hk)
  | retrainRx => exact ok_keeps (onLadder_kept _ _ _ (fun c _ => retrainRx_kept _ c) hk)
  | lockedRx => exact ok_keeps (onLadder_kept _ _ _ (fun _ _ => lockedRx_kept _) hk)
  | loopReqRx => exact ok_keeps (onLadder_kept _ _ _ (fun _ _ => loopReqRx_kept _) hk)
  | loopAckRx => exact ok_keeps (onLadder_kept _ _ _ (fun _ _ => loopAckRx_kept _) hk)
  | loopNakRx => exact ok_keeps (onLadder_kept _ _ _ (fun _ _ => loopNakRx_kept _) hk)
  | laneL1Timeout => exact ok_keeps (l1Timeout_kept _ hk)
  | laneRxLock => exact ok_keeps (rxLock_kept _ hk)
  | laneL2Timeout => exact ok_keeps (l2Timeout_kept _ hk)
  | lanePrbsEnd => exact ok_keeps (prbsEnd_kept _ _ hk)
  | laneL3NoResult => exact ok_keeps (l3NoResult_kept _ hk)
  | laneTimeLock => exact ok_keeps (laneTimeLock_kept _ hk)
  | laneL4Timeout => exact ok_keeps (l4Timeout_kept _ hk)
  | lnkCmdRetrain | lnkCmdRestoreRate | lnkCmdClearCounters => exact finish_keeps (writeLnkCmd_kept _ _ hk)
  | laneLos => exact ok_keeps (laneLos_kept _ hk)
  | laneLosClear => exact ok_keeps (laneLosClear_kept _ hk)
  | laneLol => exact ok_keeps (laneLol_kept _ hk)
  | laneHiber => exact ok_keeps (laneHiber_kept _ hk)
  | laneBackoffEnd => exact ok_keeps (backoffEnd_kept _ hk)
  | laneL5Stable => exact ok_keeps (l5Stable_kept _ hk)
  | loopNone | loopNearPma | loopNearPcs | loopFar => exact finish_keeps (writeLnkLoop_kept _ _ hk)
  | linkStateRx => exact ok_keeps (linkStateRx_kept _ _ _ hk)
  | linkStateSend => exact ok_keeps (linkStateSend_kept _ hk)
  | linkStateTimeout => exact ok_keeps (linkStateTimeout_kept _ hk)
  | pisteWhole => exact ok_keeps (pisteWhole_kept _ hk)
  | schussRx => exact ok_keeps (schussSyms_kept _ _ hk)
  | schussRepeat => exact ok_keeps (schussRepeat_kept hk)
  | frameRx => exact ok_keeps (lineRx_kept _ _ _ hk)
  | suspendTimeout => exact ok_keeps (suspendTimeout_kept _ hk)
  | presenceRx => exact ok_keeps (presenceRx_kept _ _ hk)
  | capSend => exact ok_keeps (capSend_kept _ hk)
  | lockedSend => exact ok_keeps (lockedSend_kept _ hk)
  -- Sys2Proof/Machine/Rem.lean
  | frameTxEnd => exact ok_keeps (pump_kept (frameTxEnd_kept _ hk))
  | objReqRead => exact ok_keeps (reqRx_kept_of_run _ _ (fun _ hop => reqRun_kept_of_noWrite _ _ (.inl hop) hk) hk)
  | objReqAttest => exact ok_keeps (reqRx_kept_of_run _ _ (fun _ hop => reqRun_kept_of_noWrite _ _ (.inr hop) hk) hk)
  | objReqWrite | objReqNotice => exact ok_keeps (reqRx_kept _ _ hk)
  | objRespRx => exact ok_keeps (respRx_kept _ hk)
  | remoteTimeout => exact ok_keeps (remTimeout_kept _ hk)
  | laneReportSend => exact ok_keeps (laneReport_kept hk)
  | reportLaneRx => exact ok_keeps (laneReportRx_kept _ _ hk)
  | reportWiringRx => exact ok_keeps (wiringReportRx_kept _ _ hk)
  | treeRemRead | treeRemWrite => exact finish_keeps (writeRemCmd_kept _ hk)
  | readReqRx => exact ok_keeps (readReqRx_kept _ _ hk)
  | bulkDataRx => exact ok_keeps (bulkDataRx_kept _ _ hk)
  | bulkAckRx => exact ok_keeps (bulkAckRx_kept _ _ hk)
  | bulkEndRx => exact ok_keeps (bulkEndRx_kept _ _ hk)
  -- Sys2Proof/Machine/Ptp.lean
  | ptpSyncRx => exact ok_keeps (ptpSyncRx_kept _ _ _ _ hk)
  | ptpFollowUpRx => exact ok_keeps (ptpFollowUpRx_kept _ _ _ hk)
  | ptpAnnounceRx => exact ok_keeps (ptpAnnounceRx_kept _ _ hk)
  | ptpPdelayReqSend => exact ok_keeps (ptpReqSend_kept _ hk)
  | ptpPdelayReqRx => exact ok_keeps (ptpReqRx_kept _ hk)
  | ptpPdelayRespRx => exact ok_keeps (ptpRespRx_kept _ _ _ _ hk)
  | ptpAnnounceTimeout => exact ok_keeps (ptpTimeout_kept hk)
  | stSlewEnd => exact ok_keeps (stSlewEnd_kept hk)
  | stHoldLimit => exact ok_keeps (stHoldLimit_kept hk)
  | syntonise => exact ok_keeps (syntonise_kept hk)
  | stAllowStep | stRestart | stSetLocked | stClearLocked => exact finish_keeps (writeStCmd_kept _ hk)
  | timStAdjust => exact finish_keeps (ite2_kept (writeStAdjust_kept _ hk) hk)
  | timStInc => exact finish_keeps (writeStInc_kept _ hk)
  -- Sys2Proof/Machine/Red.lean
  | redCmdReturn | redCmdRestore | redCmdDemote | redCmdClearCounters => exact finish_keeps (writeRedCmd_kept _ hk)
  | claimNoticeSend => exact ok_keeps (claimNotices_kept hk)
  | redParentClaim => exact finish_keeps (parentClaim_kept _ _ _ _ hk)
  | noticeTimeout => exact ok_keeps (noticeTimeoutDo_kept hk)
  | healthUpdate => exact ok_keeps (healthPublish_kept hk)
  | revertHoldExpiry => exact ok_keeps (revertExpiry_kept hk)
  | digestLaunch => exact ok_keeps (digestSend_kept hk)
  | digestRx => exact ok_keeps (digestArrive_kept _ hk)
  | digestDeadline => exact ok_keeps (digestMissing_kept hk)
  | checkWindowEnd => exact ok_keeps (windowEnd_kept hk)
  | checkVerdictTimeout => exact ok_keeps (verdictTimeout_kept hk)
  | inputsSend => exact ok_keeps (inputsLaunch_kept hk)
  | inputsRx => exact ok_keeps (inputsArrive_kept _ hk)
  | caddySend => exact ok_keeps (caddyLaunch_kept hk)
  | caddyRx => exact ok_keeps (caddyArrive_kept _ hk)
  | redCaddyList => exact finish_keeps (writeCaddyList_kept _ _ hk)
  | wiringSend => exact ok_keeps (wiringLaunch_kept hk)
  | wiringRx => exact ok_keeps (wiringArrive_kept _ hk)
  -- Sys2Proof/Machine/Adc.lean
  | adcConversionEnd => exact ok_keeps (acqComplete_kept (convEnd_kept _ _ _ _ hk))
  | adcRunEnd => exact ok_keeps (adcNow_kept (runEnd_kept _ hk))
  | adcSeqTimer => exact ok_keeps (timerTrig_kept _ hk)
  | adcSeqStart | adcSeqStop => exact finish_keeps (writeSeqCmd_kept _ _ hk)
  | adcSeqTrig => exact finish_keeps (writeSeqTrig_kept _ _ hk)
  | adcHoldReserve => exact ok_keeps (holdReserve_kept hk)
  | adcHoldRound => exact ok_keeps (holdRound_kept hk)
  | adcPrioReq => exact finish_keeps (writePrioReq_kept _ hk)
  | adcInputChange => exact ok_keeps (inputChange_kept _ hk)
  | adcSettlingEnd => exact ok_keeps (settlingEnd_kept _ hk)
  | adcPairWrite => exact finish_keeps (writePair_kept _ _ hk)
  | openWireTestStart => exact ok_keeps (owStart_kept _ hk)
  | openWireTestConvert => exact ok_keeps (owConvert_kept _ hk)
  | comparatorTrip => exact ok_keeps (comparator_kept _ _ _ hk)
  | adcCalibrationEnd => exact ok_keeps (calEnd_kept _ _ hk)
  | adcCmdCalibrate | adcCmdClearCounters => exact finish_keeps (writeAdcCmd_kept _ hk)
  | adcSwapDue => exact ok_keeps (swapDueDo_kept _ hk)
  | adcSliceRecalEnd => exact ok_keeps (recalEnd_kept _ _ hk)
  -- Sys2Proof/Machine/Acq.lean
  | acqCmdArm | acqCmdStop | acqCmdForce | acqCmdClearCounters => exact finish_keeps (writeAcqCmd_kept _ hk)
  | acqRow => exact ok_keeps (acqRowNow_kept hk)
  | patternTrigger => exact ok_keeps (patSample_kept hk)
  | xtrigRx => exact ok_keeps (xtArrive_kept _ _ hk)
  | xtrigInstantDue => exact ok_keeps (xtDue_kept hk)
  | acqRecLock => exact finish_keeps (writeRecLock_kept _ hk)
  | acqRecRelease => exact finish_keeps (writeRecRelease_kept _ hk)
  | acqMemWrite => exact finish_keeps (writeAcqMem_kept _ _ hk)
  | ddrOutOfService => exact ok_keeps (ddrLost_kept hk)
  -- Sys2Proof/Machine/Ket.lean
  | kettleSourceRise => exact ok_keeps (ketRise_kept _ _ hk)
  | kettleSourceFall => exact ok_keeps (ketFall_kept _ hk)
  | kettleBrokenPath => exact ok_keeps (ketBroken_kept _ _ hk)
  | kettleEscalateTime => exact ok_keeps (ketEscTime_kept _ hk)
  | ketClear => exact finish_keeps (writeKetClear_kept _ hk)
  | ketCmdClearCounters => exact finish_keeps (writeKetCmd_kept _ hk)
  | kettleTokenRefill => exact ok_keeps (setLive_kept _ _ _ (ketRefill_kept _ hk))
  | eventsFrameSend => exact ok_keeps (eventsSend_kept hk)
  | eventsRx => exact ok_keeps (eventsRx_kept _ _ _ hk)
  | ketQPop => exact finish_keeps (writeKetQPop_kept _ hk)
  -- Sys2Proof/Machine/Saf.lean
  | safChannelChange => exact ok_keeps (evalFns_kept hk)
  | safDiscrepancyTime => exact ok_keeps (discTime_kept _ hk)
  | safCommission => exact finish_keeps (cmdCommission_kept _ hk)
  | safConfirm => exact finish_keeps (cmdConfirm_kept _ hk)
  | safAbort => exact finish_keeps (cmdAbort_kept _ hk)
  | safRelease => exact finish_keeps (cmdRelease_kept _ hk)
  | safResetFn => exact finish_keeps (cmdResetFn_kept _ _ hk)
  | safDegradedExpiry => exact ok_keeps (degradedExpiry_kept hk)
  | safDegradedRecover => exact ok_keeps (degradedRecover_kept hk)
  | safeStatusSend => exact ok_keeps (safeStatusSend_kept hk)
  | safeStatusRx => exact ok_keeps (safeStatusRx_kept _ hk)
  | safPeerTimeout => exact ok_keeps (safPeerTimeout_kept hk)
  | safStateReport => exact ok_keeps (safStateReport_kept hk)
  | safNodeSilent => exact ok_keeps (safNodeSilent_kept _ hk)
  | reportSafStateRx => exact ok_keeps (reportSafStateRx_kept _ _ _ _ hk)
  | reportReleaseRx => exact ok_keeps (reportReleaseRx_kept _ hk)
  | releaseRepeat => exact ok_keeps (releaseRepeat_kept hk)
  -- Sys2Proof/Machine/Tsk.lean
  | taskEnable | taskDisable | taskSignal | tskCmdClearCounters => exact finish_keeps (writeTskCmd_kept _ hk)
  | taskDone => exact ok_keeps (taskDone_kept _ hk)
  | taskDelay => exact ok_keeps (delayTask_kept _ _ hk)
  | portSignal => exact ok_keeps (portSignal_kept _ _ hk)
  | winStatus => exact ok_keeps (winStatus_kept _ _ hk)
  | objectWindowAccess => exact ok_keeps (coreAccess_kept _ _ _ _ hk)
  | periodRelease => exact ok_keeps (periodRelease_kept _ hk)
  | dispatcherTick => exact ok_keeps (dispatcherTick_kept hk)
  | taskDeadline => exact ok_keeps (taskDeadline_kept _ hk)
  | taskFault => exact ok_keeps (taskFault_kept _ _ hk)
  | tskTick => exact finish_keeps (writeBy_kept _ _ _ (fun _ h => done_kept (wr_kept _ _ h)) hk)
  | onDeckLookAhead => exact ok_keeps (lookAhead_kept _ hk)
  -- Sys2Proof/Machine/Dma.lean
  | dmaStart | dmaPause | dmaResume | dmaSkip | dmaAbort => exact finish_keeps (writeDmaCmd_kept _ _ _ _ hk)
  | dmaGcmdClearCounters => exact finish_keeps (writeDmaGcmd_kept _ hk)
  | dmaDescriptorFetch => exact ok_keeps (descFetch_kept _ _ hk)
  | dmaDescriptorDone => exact ok_keeps (descRun_kept _ _ hk)
  | dmaPdWaitExpiry => exact ok_keeps (pdExpiry_kept _ hk)
  -- Sys2Proof/Machine/Fio.lean
  | fioDownFrame => exact ok_keeps (downLaunch_kept hk)
  | islandDownFrameRx => exact ok_keeps (downArrive_kept _ hk)
  | mainFrameRx => exact ok_keeps (mainArrive_kept _ hk)
  | mainFrameDeadline => exact ok_keeps (mainDeadline_kept hk)
  | fastFrameRx => exact ok_keeps (fastArrive_kept _ hk)
  | islandSilence => exact ok_keeps (silence_kept hk)
  | fieldVlLow => exact ok_keeps (updIsland_kept _ hk)
  | diComparatorChange => exact ok_keeps (diChange_kept _ _ hk)
  | strainerSettle => exact ok_keeps (strainer_kept _ hk)
  | doShort => exact ok_keeps (doShortDo_kept _ hk)
  | doRetryEnd => exact ok_keeps (doRetry_kept _ hk)
  | doOvertemp | doOvertempCooled | islandPowerUp => exact ok_keeps (ite_kept (updIsland_kept _ hk) hk)
  | doOpen => exact ok_keeps (doOpenDo_kept _ _ hk)
  | fieldSupplyMeasure => exact ok_keeps (supplyMeasure_kept _ hk)
  | fieldSupplyCondition => exact ok_keeps (supplyCondition_kept hk)
  | encoderEdge => exact ok_keeps (encEdge_kept _ _ _ hk)
  | encoderZEdge => exact ok_keeps (zEdge_kept _ _ hk)
  | islandPmarkLatch => exact ok_keeps (pmLatch_kept hk)
  | ssiTransferStart => exact ok_keeps (ssiStart_kept _ hk)
  | ssiTransferEnd => exact ok_keeps (ssiEnd_kept _ _ hk)
  | probeEdge => exact ok_keeps (prbEdge_kept _ _ hk)
  | fioClearFaults | fioCmdClearCounters => exact finish_keeps (writeFioCmd_kept _ hk)
  | posClearErr | posArmZ => exact finish_keeps (writePosCmd_kept _ _ hk)
  | prbArm => exact finish_keeps (writePrbCmd_kept _ _ hk)
  | fioDoPair => exact finish_keeps (writeDoPair_kept _ hk)
  -- Sys2Proof/Machine/Jop.lean
  | arpRx => exact ok_keeps (arpEffect_kept _ _ _ hk)
  | icmpEchoRx => exact ok_keeps (echoEffect_kept _ _ hk)
  | jopDiscover => exact ok_keeps (discoverEffect_kept _ _ hk)
  | jopOpen => exact ok_keeps (openEffect_kept _ _ _ _ _ _ hk)
  | jopConfirm => exact ok_keeps (confirmEffect_kept _ _ hk)
  | jopClose => exact ok_keeps (closeEffect_kept _ hk)
  | jopRead => exact ok_keeps (jopReadEffect_kept _ _ _ _ _ hk)
  | jopWrite => exact ok_keeps (jopWriteEffect_kept _ _ _ _ _ _ hk)
  | jopEventRead => exact ok_keeps (eventReadEffect_kept _ _ hk)
  | jopEventAck => exact ok_keeps (eventAckEffect_kept _ _ _ _ hk)
  | jopBulkRead => exact ok_keeps (bulkReadEffect_kept _ _ _ _ _ hk)
  | jopBulkWrite => exact ok_keeps (bulkWriteEffect_kept _ _ _ _ _ hk)
  | jopCoreMsg => exact ok_keeps (coreMsgEffect_kept _ _ hk)
  | jopAttest => exact ok_keeps (jopAttestEffect_kept _ _ _ hk)
  | jopOpenExpiry => exact ok_keeps (openExpires_kept _ hk)
  | sessionIdleTimeout => exact ok_keeps (sessionExpires_kept _ hk)
  | authRateEnd => exact ok_keeps (authRateEnds_kept hk)
  | sysCoreMsgLen => exact finish_keeps (writeCoreMsgLen_kept _ hk)
  | jopDatagramMalformed => exact ok_keeps (ite_kept (bump_kept _ hk) hk)
  -- Sys2Proof/Machine/Nvm.lean
  | nvmStore | nvmRestoreDefaults | nvmVerify | nvmActivate | nvmCommit | nvmDistribute => exact finish_keeps (writeNvmCmd_kept _ hk)
  | nvmStoreDone => exact ok_keeps (storeDone_kept _ hk)
  | slotEraseDone => exact ok_keeps (eraseDone_kept _ hk)
  | secInstallHost | secRemoveHost | secInstallImageKey | secDisown => exact finish_keeps (writeSecCmd_kept _ _ hk)
  -- Sys2Proof/Machine/Jtag.lean
  | jtagExtest | jtagHighz | jtagClamp => exact ok_keeps (jtagTest_kept _ _ hk)
  | jtagSamplePreload | jtagIdcode | jtagReset => exact ok_keeps (updJtag_kept _ hk)
  | jtagBypass => exact ok_keeps (jtagBypass_kept _ hk)
  -- Sys2Proof/Machine/ObjAccess.lean
  | objectWrite => exact finish_keeps (writeObj_kept _ _ _ hk)

/-- RESET_RELEASE, where the straps are not as before, found reset held and took the sampled ones (R1, R388). -/
theorem resetRelease_straps (inp : BootIn) (s : State) :
    (resetRelease inp s).straps = s.straps ∨ s.sys.held = true ∧ (resetRelease inp s).straps = inp.straps := by
  cases hheld : s.sys.held with
  | false =>
    have hstays : resetRelease inp s = s := by simp [resetRelease, hheld]
    exact .inl (congrArg State.straps hstays)
  | true =>
    obtain hstays | ⟨-, -, -, hstraps⟩ := resetRelease_spec inp s
    · exact .inl (congrArg State.straps hstays)
    · exact .inr ⟨rfl, hstraps⟩

/-- A command leaves the straps, or it is RESET_RELEASE with reset held and they become the sampled ones. -/
theorem exec_straps {c : Instr} {s t : State} (h : exec c s = .next t) :
    t.straps = s.straps ∨ ∃ inp, c = .resetRelease inp ∧ s.sys.held = true ∧ t.straps = inp.straps := by
  by_cases hc : ∃ inp, c = .resetRelease inp
  · obtain ⟨inp, rfl⟩ := hc
    cases h
    obtain hsame | ⟨hheld, hstraps⟩ := resetRelease_straps inp s
    · exact .inl hsame
    · exact .inr ⟨inp, rfl, hheld, hstraps⟩
  · have hkeeps := exec_keeps c s fun inp hinp => hc ⟨inp, hinp⟩
    exact .inl (hkeeps.kept_of_next h).straps

/-- Settles O5: the role is a strap, and exec_straps says where a command changes the straps (R1). -/
theorem roleHoldsUntilReset : Obligations.RoleHoldsUntilReset := by
  intro c s t h
  obtain hsame | ⟨inp, hc, hheld, hstraps⟩ := exec_straps h
  · exact .inl ⟨hsame, congrArg Straps.node hsame⟩
  · exact .inr ⟨inp, hc, hheld, hstraps, congrArg Straps.node hstraps⟩

end Sys2Proof.Machine
end

section
/-! SUPPORT. EXCLUDE: the sum of the bits of its positions, and what a cell makes of its own bit (R53, R60). -/
namespace Sys2Proof.Machine

/-- The mask with a bit for every position below n that f names. -/
def positionMask (f : Nat → Bool) (n : Nat) : Nat := ((List.range n).filter f).foldl (fun a q => a + 2 ^ q) 0

theorem exclude_eq_positionMask (p : Nat × Nat) (w : PeriodWork) :
    exclude p w = positionMask (fun q => !counted (p.1 * 16 + q) w) (min 16 p.2) := rfl

theorem positionMask_succ_of_named {f : Nat → Bool} {n : Nat} (hn : f n = true) : positionMask f (n + 1) = 2 ^ n + positionMask f n := by
  rw [positionMask, List.range_succ, List.filter_append, List.filter_cons_of_pos hn, List.foldl_append, Nat.add_comm]
  rfl

theorem positionMask_succ_of_not_named {f : Nat → Bool} {n : Nat} (hn : f n = false) : positionMask f (n + 1) = positionMask f n := by
  have hnot : ¬ f n = true := Bool.not_eq_true _ ▸ hn
  rw [positionMask, List.range_succ, List.filter_append, List.filter_cons_of_neg hnot, List.filter_nil, List.append_nil, positionMask]

/-- A position's weight is above the sum of all lower ones, so adding it carries nothing. -/
theorem positionMask_lt (f : Nat → Bool) (n : Nat) : positionMask f n < 2 ^ n := by
  induction n with
  | zero => exact Nat.one_pos
  | succ n ih =>
    have hdouble : 2 ^ (n + 1) = 2 ^ n + 2 ^ n := Nat.two_pow_succ n
    cases hn : f n with
    | false => rw [positionMask_succ_of_not_named hn]; omega
    | true => rw [positionMask_succ_of_named hn]; omega

theorem bit_positionMask (f : Nat → Bool) (n q : Nat) : bit (positionMask f n) q = (decide (q < n) && f q) := by
  induction n with
  | zero => exact Nat.zero_testBit q
  | succ n ih =>
    obtain hlt | rfl | hgt := Nat.lt_trichotomy q n
    · have hkeeps : bit (positionMask f (n + 1)) q = bit (positionMask f n) q := by
        cases hn : f n with
        | false => rw [positionMask_succ_of_not_named hn]
        | true => rw [positionMask_succ_of_named hn]; exact Nat.testBit_two_pow_add_gt hlt _
      rw [hkeeps, ih, decide_eq_true hlt, decide_eq_true (Nat.lt_succ_of_lt hlt)]
    · have hbelow : bit (positionMask f q) q = false := Nat.testBit_lt_two_pow (positionMask_lt f q)
      rw [decide_eq_true (Nat.lt_succ_self q), Bool.true_and]
      cases hq : f q with
      | false => rw [positionMask_succ_of_not_named hq, hbelow]
      | true =>
        rw [positionMask_succ_of_named hq]
        exact (Nat.testBit_two_pow_add_eq _ _).trans (congrArg not hbelow)
    · have habove : positionMask f (n + 1) < 2 ^ q :=
        Nat.lt_of_lt_of_le (positionMask_lt f (n + 1)) (Nat.pow_le_pow_right Nat.two_pos hgt)
      rw [decide_eq_false (Nat.not_lt.mpr hgt), Bool.false_and]
      exact Nat.testBit_lt_two_pow habove

/-- R53 bit by bit, also past the end of the piste, where every bit is 0. -/
theorem bit_exclude (p : Nat × Nat) (w : PeriodWork) (q : Nat) :
    bit (exclude p w) q = true ↔ q < min 16 p.2 ∧ counted (p.1 * 16 + q) w = false := by
  rw [exclude_eq_positionMask, bit_positionMask, Bool.and_eq_true, decide_eq_true_iff, Bool.not_eq_true']

@[simp] theorem commandFor_exclude (p : Nat × Nat) (j : Nat) (w : PeriodWork) (r : Sel) (s : State) :
    (commandFor p j w r s).exclude = exclude p w := rfl

/-- The cell's side of R53 (R60): with no report of the period it bypasses anyway, and with one its own bit is among the grounds to bypass. -/
theorem decide60_of_excluded (k : Nat) {c : Command} {s : State} (hown : bit c.exclude (rd O.TREE_CELL_INDEX s % 16) = true) :
    decide60 k c s = .bypass := by
  unfold decide60
  cases aget s.cell.reps k with
  | none => rfl
  | some r =>
    simp only [hown, Bool.or_true, Bool.true_or, if_true]

/-- Settles O27: EXCLUDE of the frame is that of the piste, whose bits bit_exclude gives, and decide60_of_excluded is the cell's side (R53, R60). -/
theorem uncountedCellsAreExcluded : Obligations.UncountedCellsAreExcluded := by
  refine ⟨fun p j w r s q hq16 hqp => ?_, fun k c s hown => decide60_of_excluded k hown⟩
  have hlt : q < min 16 p.2 := Nat.lt_min.mpr ⟨hq16, hqp⟩
  rw [commandFor_exclude, bit_exclude, and_iff_right hlt]

end Sys2Proof.Machine
end

section
/-! SUPPORT. Writes of objects as changes of objects alone, and a second apex found by enumeration (R364). -/
namespace Sys2Proof.Machine

theorem OnlyObjs.refl (ks : List Nat) (s : State) : OnlyObjs ks s s := ⟨rfl, fun _ _ => rfl⟩

/-- A write of an object that ks names joins the changes so far. -/
theorem OnlyObjs.wr_of_mem {ks : List Nat} {s t : State} {k : Nat} (hk : k ∈ ks) (v : Nat) (h : OnlyObjs ks s t) : OnlyObjs ks s (wr k v t) := by
  obtain ⟨hfields, hsame⟩ := h
  refine ⟨congrArg (fun u : State => { u with objs := (wr k v t).objs }) hfields, fun q hq => ?_⟩
  have hqk : q ≠ k := (ne_of_mem_of_not_mem hk hq).symm
  rw [rd_wr_ne hqk, hsame q hq]

/-- A conflict of apexes at the apex is three writes of objects (R3, R364). -/
theorem enumConflict_of_isApex {s : State} (hapex : isApex s = true) (c : Nat × Nat) (num : Nat) :
    enumConflict c num s =
      wr O.TREE_APEX_CONFLICT (2 ^ 31 + c.1 * 256 + c.2) (wr O.TREE_ENUM_STATUS 1 (wr O.TREE_NODE_NUMBER num s)) :=
  if_pos hapex

/-- An enumeration whose walk takes the apex and finds a second one ends in the conflict (R364). -/
theorem enumeration_of_apex_conflict {l : List FoundNode} {self : Nat} {s : State} {n : Nat × TreeNode} {c : Nat × Nat} (link : Nat)
    (hapex : isApex s = true)
    (hself : (walk s.tree.held (l.map fun e => { e with num := none })).nodes.find? (fun x => x.1 == self) = some n)
    (hconflict : (walk s.tree.held (l.map fun e => { e with num := none })).conflict = some c) :
    enumeration l self link s = enumConflict c n.2.num s := by
  simp only [enumeration, hapex, if_true, hself, hconflict]

/-- Settles O13: at the apex the conflict is three writes, the record's last (R364). That no other object changes is the model's choice (log entry 34). -/
theorem secondApexIsRecorded : Obligations.SecondApexIsRecorded := by
  rintro l self link _ n at_ d s hapex rfl hself hconflict
  have hends : enumeration l self link s = enumConflict (at_, d) n.2.num s := enumeration_of_apex_conflict link hapex hself hconflict
  have hstatus : O.TREE_ENUM_STATUS ≠ O.TREE_APEX_CONFLICT := by decide
  refine ⟨_, congrArg Host.Outcome.next (hends.trans (enumConflict_of_isApex hapex _ _)), ?_, ?_, rd_wr_eq _ _ _⟩
  · exact (((OnlyObjs.refl _ s).wr_of_mem (by simp) _).wr_of_mem (by simp) _).wr_of_mem (by simp) _
  · rw [rd_wr_ne hstatus, rd_wr_eq]

end Sys2Proof.Machine
end

section
/-! SUPPORT. The cause a reset leaves, at its start and in SYS_RESET_CAUSE, and what WAKE_N does (R387, R404). -/
namespace Sys2Proof.Machine

/-- Changes that leave the start-up state leave it when applied in turn. -/
theorem each_sys {α : Type} {f : α → State → State} (hf : ∀ x t, (f x t).sys = t.sys) (l : List α) (s : State) : (each l f s).sys = s.sys :=
  List.foldlRecOn l _ (motive := fun t => t.sys = s.sys) rfl fun t ht x _ => (hf x t).trans ht

/-- A write that happens on a condition leaves the start-up state. -/
theorem ite_wr_sys (p : Prop) [Decidable p] (k v : Nat) (s : State) : (if p then wr k v s else s).sys = s.sys := by
  split
  · exact wr_sys k v s
  · rfl

/-- A write that happens on a condition leaves the other objects. -/
theorem rd_ite_wr_ne {k q : Nat} (hq : q ≠ k) (p : Prop) [Decidable p] (v : Nat) (s : State) :
    rd q (if p then wr k v s else s) = rd q s := by
  split
  · exact rd_wr_ne hq v s
  · rfl

theorem resetCause_ne_celState : O.SYS_RESET_CAUSE ≠ O.CEL_STATE := by decide

/-- The start after a reset has the reset's cause (R387). -/
theorem dieReset_cause (cause : Nat) (s : State) : (dieReset cause s).sys.cause = cause := by
  unfold dieReset
  rw [ite_wr_sys, wr_sys, each_sys fun k t => wr_sys k (rd k s) t]

/-- SYS_RESET_CAUSE records the reset's cause (R387). -/
theorem rd_resetCause_dieReset (cause : Nat) (s : State) : rd O.SYS_RESET_CAUSE (dieReset cause s) = cause := by
  unfold dieReset
  rw [rd_ite_wr_ne resetCause_ne_celState, rd_wr_eq]

/-- The start of the rails has cause WAKE after a wake and POWER_ON otherwise (R387, R404). -/
theorem powerOn_cause (s : State) : (powerOn s).sys.cause = if s.sys.wake then 4 else 0 := by
  unfold powerOn
  rw [updSys_sys, ite_wr_sys, dieReset_cause]

/-- SYS_RESET_CAUSE agrees with the cause of the start (R387). -/
theorem rd_resetCause_powerOn (s : State) : rd O.SYS_RESET_CAUSE (powerOn s) = if s.sys.wake then 4 else 0 := by
  unfold powerOn
  rw [rd_updSys, rd_ite_wr_ne resetCause_ne_celState, rd_resetCause_dieReset]

/-- WAKE_N with SYS_WAKE_ARM at 1 and PWR_EN low (R404). -/
theorem wake_of_armed {s : State} (harm : rd O.SYS_WAKE_ARM s = 1) (hoff : s.sys.pwrEn = false) :
    wake s = updSys (fun x => { x with pwrEn := true, wake := true }) s := by
  simp [wake, harm, hoff]

/-- WAKE_N with SYS_WAKE_ARM at 0 or PWR_EN high (R404). -/
theorem wake_of_not_armed {s : State} (h : rd O.SYS_WAKE_ARM s = 0 ∨ s.sys.pwrEn = true) : wake s = s := by
  obtain hdisarmed | hon := h
  · simp [wake, hdisarmed]
  · simp [wake, hon]

/-- Settles O9: WAKE_N marks the wake where armed, powerOn_cause and rd_resetCause_powerOn give the cause of the start after it, and where not armed it does nothing (R404). -/
theorem wakeNeedsItsArm : Obligations.WakeNeedsItsArm := by
  refine ⟨fun s harm hoff => ?_, fun s hnot => congrArg Host.Outcome.next (wake_of_not_armed hnot)⟩
  exact ⟨_, _, congrArg Host.Outcome.next (wake_of_armed harm hoff), rfl, rfl, rfl, powerOn_cause _, rd_resetCause_powerOn _⟩

end Sys2Proof.Machine
end
